-- ==== Sys2Proof/Word.lean ====
section
/-!
DEFINITION. The word and byte types of the block and the plainest operations on them. Registers are 32 bits wide (R440);
memory structures are byte addressed and little-endian (R8).
-/

namespace Sys2Proof

/-- One 32-bit register word (R440). -/
abbrev Word := BitVec 32

/-- One byte of an addressed memory (R8). -/
abbrev Byte := BitVec 8

/-- A sparse table: pairs of key and value, keys strictly rising, no entry equal to the table's default. -/
abbrev SMap (α : Type) := List (Nat × α)

end Sys2Proof
end

