-- ==== Sys2Proof/Syntax.lean ====
section
/-!
DEFINITION. The commands of the block: one constructor for each row of spec/opcode_table.json, with the operands that the row's
rule needs from outside (an edge's timestamp, a host's data, a frame's bytes, an environment's outcome).
-/

namespace Sys2Proof

/-- Where a genlock reference edge comes from (R27, Table 2.1). -/
inductive EdgeSrc where
  /-- the GENLOCK_IN pin -/
  | pin
  /-- the timing reference of SDI input n -/
  | sdi (n : Fin 4)
  deriving DecidableEq, Repr

/-- The path on which a host access arrives (R446). -/
inductive Path where
  | pcie
  | mgt
  | orsal
  deriving DecidableEq, Repr

/-- What a lockstep copy's own check found (R54). -/
inductive SelfCheck where
  /-- the copy's self-checks pass -/
  | pass
  /-- a mod-3 residue code failed -/
  | residue
  /-- SEC-DED of the calendar bank memory failed -/
  | secded
  deriving DecidableEq, Repr

/-- The encoding a signal names (R104, Table 4.4): matrix, transfer, range and primaries codes. -/
structure SigEnc where
  mtx : Fin 3
  tf : Fin 3
  range : Bool
  prim : Bool
  deriving DecidableEq, Repr

/-- An input picture as its receiver delivers it (R99 to R105): size, depth code and subsampling code of Table 4.7, RGB or Y'CbCr
with the encoding it names (none: none, or one outside Table 4.4), HDCP encryption, whether it comes as two fields (interlaced or PsF: each plane
holds the first field's rows, then the second's), and its three planes of sample codes, row by row. -/
structure InSignal where
  w : Nat
  h : Nat
  depth : Fin 4
  sub : Fin 3
  enc : Option SigEnc
  hdcp : Bool
  fields : Bool
  planes : List (List Nat)
  deriving DecidableEq, Repr

/-- What the verify lane found of a compressed block (R159, R160): nothing, or a failure with its cause (0: sample mismatch). -/
inductive Verify where
  | pass
  | fail (cause : Fin 8)
  deriving DecidableEq, Repr

/-- The commit class a register-commit entry puts into effect (R200). -/
inductive CommitCls where
  | v
  | s
  deriving DecidableEq, Repr

/-- What a sensor's read returned: its two bytes as a number (R228), or a failure (none). -/
abbrev SnsRead := Option (BitVec 16)

/-- What an ECC check found: nothing, a corrected single-bit error, or an uncorrectable word or granule (R394, R403). -/
inductive Ecc where
  | clean
  | single
  | double
  deriving DecidableEq, Repr

/-- A local-store access (R402 to R405): master code, whether it is to a strip buffer, offset, and for a write its bytes, for a read its
length; what the check of its first word finds, and whether arbitration served it later than its tick. -/
structure LsReq where
  master : Fin 8
  strip : Bool
  off : BitVec 24
  write : Bool
  data : List Byte
  len : Fin 17
  ecc : Ecc
  late : Bool
  deriving DecidableEq, Repr

/-- What start-up meets outside the device (R412, R417, R476, R519): whether Gauntlet's self-tests pass, whether the flash answers
SFDP with 8D-8D-8D and its size in bytes, the directory entries whose GDR body the flash fails to deliver, the ticks from the
command to the ends of steps 5 and 7. -/
structure BootEnv where
  selfTestOk : Bool
  sfdpOk : Bool
  flashSize : Nat
  flashErrs : List Nat
  /-- channels of GDDR6 that train -/
  g6Trained : BitVec 8
  /-- ticks from the command to the end of step 5 and to the end of step 7 -/
  t5 : Nat
  t7 : Nat
  /-- blocks of the rebuild in step 7 that fail their verification (R159, R275): place, compress lane, cause -/
  rebuildFails : List (Nat × Fin 8 × Fin 8)
  deriving DecidableEq, Repr

/-- A PCIe request: its byte offset, and for a write its bytes with a byte-enable flag each, for a read its length in bytes
(R440 to R442). -/
structure BarReq where
  write : Bool
  off : Nat
  /-- bytes of a write, in ascending address, with their enables -/
  data : List (Byte × Bool)
  /-- length of a read in bytes -/
  len : Nat
  deriving DecidableEq, Repr

/-- Where MGT_CS_N rises in a READ transaction (R443, R444). -/
inductive MgtCut where
  /-- after the last bit of a word -/
  | whole
  /-- within the turnaround byte before, or within, a further word: its read has taken effect -/
  | inWord
  deriving DecidableEq, Repr

/-- A configuration-space write of the host (R518, R439). -/
inductive CfgWrite where
  | busMaster (en : Bool)
  /-- D3hot (true) or D0 (false) -/
  | d3hot (on : Bool)
  /-- ASPM L1 enable -/
  | aspmL1 (en : Bool)
  /-- the function mask of the MSI-X capability -/
  | msixFunctionMask (on : Bool)
  /-- the maximum payload size: 128, 256 or 512 bytes (Table 14.1) -/
  | maxPayload (log2 : Fin 3)
  deriving DecidableEq, Repr

/-- A change of the PCIe link (R512, Table 14.9). -/
inductive LinkChange where
  /-- up at generation 1 to 4 and width 1, 2 or 4 -/
  | up (gen width : Nat)
  | down
  | l1 (enter : Bool)
  /-- within L1: substate L1.1 or L1.2, or back (0) (Table 14.1) -/
  | l1sub (n : Fin 3)
  | l2 (enter : Bool)
  deriving DecidableEq, Repr

/-- A JTAG instruction: the four that always execute, or another (R477). -/
inductive JtagInstr where
  | bypass
  | idcode
  | samplePreload
  | extest
  | other
  deriving DecidableEq, Repr

/-- A power domain by its bit of PWR.DOM_ON (Table 16.1). -/
abbrev Dom := Fin 30

/-- A native AUX request on input 0: a write of the DisplayPort power state to DPCD 00600h (true: power-down), or another request
(R505, R511). -/
inductive AuxReq where
  | setPower (down : Bool)
  | other
  deriving DecidableEq, Repr


/-- The commands. -/
inductive Instr where
  /-- TMB: a reference edge with its compensated timestamp (R35, R42) -/
  | genlockEdge (src : EdgeSrc) (ts : Nat)
  | edgeMiss
  | holdover60s
  | tmbSnap
  | tmbRealign
  | tmbClrCnt
  /-- the self-check results of copies A and B (R54, R55) -/
  | lockstepMismatch (a b : SelfCheck)
  | lockstepReloadDone
  | step8Timeout
  | pictureBoundary
  | bankBuild
  /-- EXS: an edge on SHUT_IN[n] to a level, with its timestamp (R63) -/
  | shutInEdge (n : Fin 4) (level : Bool) (ts : Nat)
  | cameraOpenMiss (n : Fin 4)
  | cameraCoastExpiry (n : Fin 4)
  | exsClrCnt
  /-- ING: input n gains or loses lock -/
  | receiverLockChange (n : Fin 5) (lock : Bool)
  | inputPictureStart (n : Fin 5) (sig : InSignal)
  | ingestBlockRowStart (n : Fin 5)
  /-- BLQ: the last block of the entries with this number has been acknowledged -/
  | entryComplete (id : Nat)
  | blqSubGo
  | hostSubmissionDone
  | blqInspCurRead
  | blqClrCnt
  | ingClrCnt
  /-- CDC: compress lane n finishes its block, with the verify lane's finding -/
  | compressBlockDone (lane : Fin 8) (v : Verify)
  /-- decode lane n finishes its block; `upset`: a transient in the pixel path corrupted the samples (Table 1.6) -/
  | decodeBlockDone (lane : Fin 16) (upset : Bool)
  | cdcJobProdWrite (v : BitVec 16)
  | compressSurf
  | compressPack
  | decompressSurf
  | decompressPack
  | codecJobEnd
  | cdcAbort
  | cdcClrCnt
  /-- SCN: a register-commit entry of a class (R200) -/
  | registerCommit (cls : CommitCls)
  | bandLatch
  | refreshStart
  | stripFetchStart
  | rowTake
  | verticalBlankingPoint
  | commitGo
  | nslRepeatPass
  | scnClrCnt
  /-- PPX: the reads of sensors 0 to 15 in a cycle (none: NACK or overlong stretching) -/
  | sensorCycle (reads : List SnsRead)
  | sensorFailTimeout
  /-- an access of PPX.TBL_DATA: a read (none) or a write of a word -/
  | ppxTblDataAccess (w : Option Word)
  | ppxCrcRead (r : Fin 16)
  | capArm
  | capStop
  /-- the oldest capture is over: its segments are written, or it is abandoned (R250, R251) -/
  | captureDone (abandoned : Bool)
  | ppxClrCnt
  /-- an ON (true) or OFF strobe of a zone row (R245) -/
  | backlightStrobe (row : Fin 128) (on : Bool)
  | stressAccumulation
  | drizzleSlotStart
  | drizzleSlotEnd
  | drizzleToken
  | senseResultsComplete
  | senseResultsTimeout
  | ageRebuildStep
  | ckptInterval
  | ageCkpt
  | ckptDone
  | ckptFail
  | ckptShutTimeout
  | ckptRetry
  | emissionHour
  | panelOnHour
  /-- AGE: an access of AGE.TBL_DATA: a read (none) or a write of a word -/
  | ageTblDataAccess (w : Option Word)
  | ageClrCnt
  | rowSlot
  | gapSlot
  | slotEnd
  /-- the next edge of output GT[n] -/
  | gtEdge (n : Fin 32)
  | emEdge (n : Fin 16)
  /-- a detection on a lane of a group; lane 4 is the spare (R304) -/
  | laneMonitorDetection (g : Fin 24) (lane : Fin 5)
  | trainingStart
  /-- a training step of group g ends -/
  | trainingStepEnd (g : Fin 24)
  | drvSendCfg
  | cfgSendDone
  | drvClrCnt
  | statusPoll
  /-- a frame on CL_BACK: whether its preamble began in time, and its header, payload and CRC (R312) -/
  | backchannelFrame (onTime : Bool) (bytes : List Byte)
  | backchannelFrameMissing
  | monitorPoll
  | psqOn
  | powerOnStart
  | psqOff
  | psqOffCkpt
  | psqClrCnt
  /-- RAIL_PG[k] is counted at a level -/
  | railPgChange (k : Fin 8) (level : Bool)
  | railPgTimeout
  | railSettleDone
  | railDischargeDone
  /-- the transaction completed, or failed -/
  | pmbusDone (ok : Bool)
  /-- PMB_ALERT_N falls, and stays low for `low` ticks -/
  | pmbAlertFall (low : Nat)
  /-- the levels on CRK_IN -/
  | crackSample (inp : BitVec 16)
  /-- ORL: x is the port, false A and true B; frames come as their bytes (header, padded payload, trailer) with the stamp of their SOF in
  1/64 tick (R356, R360) -/
  | orsalBeaconEntry
  | portTrainDone (x : Bool)
  | portLinkLoss (x : Bool)
  | portRetryTimeout (x : Bool)
  | orlRetrain (x : Bool)
  | linkHelloTimer (x : Bool)
  | linkHelloRx (x : Bool) (frame : List Byte)
  | linkBreakRx (x : Bool) (frame : List Byte)
  | linkHealRx (x : Bool) (frame : List Byte)
  | delayMeasureTimer (x : Bool)
  | dlyReqRx (x : Bool) (frame : List Byte) (stamp : Nat)
  | dlyRspRx (x : Bool) (frame : List Byte) (stamp : Nat)
  | dlyRspTimeout (x : Bool)
  | beaconRx (x : Bool) (frame : List Byte) (stamp : Nat)
  | timingPortTimeout
  | ctlWrite
  | ctlRead
  | mbxWrite
  | mbxRead
  | commitAt
  | ctlReqRx (x : Bool) (frame : List Byte)
  | commitAtTick
  | ctlRspRx (x : Bool) (frame : List Byte)
  | ctlTimeout
  | eventFrameRx (x : Bool) (frame : List Byte)
  | eventHoldTimeout
  | verRx (x : Bool) (frame : List Byte)
  | verRspRx (x : Bool) (frame : List Byte)
  | verRetryTimeout
  | blockRx (x : Bool) (frame : List Byte)
  /-- the decode lane that checks a received block, and whether a transient upsets it -/
  | orsalBlockChecked (lane : Fin 16) (upset : Bool)
  | nackRx (x : Bool) (frame : List Byte)
  | rxStallTimeout
  | orlTxGo
  | orlClrCnt
  | orsalFrameSent (x : Bool)
  | retrainingSlot
  /-- a read burst ends: scheduler class, address, repeats its EDC needed, what the ECC check found -/
  | g6ReadDone (cls : Fin 9) (addr : BitVec 40) (misses : Fin 17) (e : Ecc)
  | g6WriteDone (cls : Fin 9) (addr : BitVec 40) (misses : Fin 17)
  /-- the next granule of the patrol scrub: what its check finds, and whether a user's write to it was accepted -/
  | scrubRead (e : Ecc) (written : Bool)
  | retrainOverdue (c : Fin 8)
  | refreshLimit
  | requestPromotion
  | lsAccess (r : LsReq)
  | mbxBusyRelease
  | memClrCnt
  /-- NVM, flash: the host commands carry the fields of their register -/
  | xfRead
  | xfProgram
  | xfErase4k
  | xfErase64k
  /-- the flash reported an error (true) or not -/
  | xfDone (flashErr : Bool)
  /-- page, and the groups that the read finds correctable and uncorrectable beside those the state records -/
  | nvmPageRead (page : BitVec 12) (cor unc : BitVec 8)
  | nvmPageWrite (page : BitVec 12) (off lenM1 : BitVec 6)
  | nvmGroupProgrammed
  /-- groups whose margin read differs, and groups that read uncorrectable, in the page examined -/
  | nvmScrubPage (weak unc : BitVec 8)
  | bootFlash (e : BootEnv)
  | bootHost (e : BootEnv)
  /-- partition (false protected, true user) and kind (false read, true write) -/
  | nvmUnlock (user write : Bool)
  | nvmPwSet (user write : Bool)
  | nvmRelock
  | nvmClrCnt
  /-- GEN: a write of GEN.FENCE with its token (R456) -/
  | genFenceWrite (tok : Word)
  | eventRecordCommit
  | evtConsWrite (v : Word)
  | msixUnmask
  | evtClaim (src : BitVec 12) (prio : BitVec 4)
  | evtComplete (src : BitVec 12)
  | evtStkInit
  | evtClrCnt
  | squallWindowEnd (src : BitVec 12)
  | trcLoad (k : Word)
  | bar0RegisterAccess (r : BarReq)
  | bar0LocalStoreAccess (r : BarReq)
  | bar2Access (r : BarReq)
  /-- a management-port WRITE frame (or one of an unknown opcode): opcode, offset and the bytes received after it -/
  | mgtWrite (op : Byte) (off : BitVec 32) (bytes : List Byte)
  /-- a READ frame: offset, words read whole, and where MGT_CS_N rose -/
  | mgtRead (off : BitVec 32) (words : Nat) (cut : MgtCut)
  | mgtStatus
  /-- a host write of a register with no row of its own: path, offset, value and byte enables (R10, R440) -/
  | registerWrite (path : Path) (off : BitVec 28) (v : Word) (be : BitVec 4)
  | pcieConfigWrite (w : CfgWrite)
  | pcieLinkStateChange (c : LinkChange)
  /-- SEC: a sealed command (a write of SEC.CTRL.ses_cmd) on a path; the command is in the local store at SEC.SES_BUF -/
  | nvmWrite (p : Path)
  | pwSet (p : Path)
  | arbCommit (p : Path)
  | jtagLock (p : Path)
  | retire (p : Path)
  | sesStart (p : Path)
  | sesFinish (p : Path)
  | sesClose (p : Path)
  | sessionIdleTimeout
  | regWrite (p : Path)
  | regRead (p : Path)
  | secEnroll (p : Path)
  | secCert (p : Path)
  | secAtt (p : Path)
  | secClrCnt
  /-- the source's HDCP authentication succeeds or fails, for a stream type 1 or 0 -/
  | hdcpAuthentication (ok type1 : Bool)
  | jtagInstruction (code : JtagInstr)
  | pwrWake
  | pwrSleep
  | pwrClrCnt
  | powerStateChoice
  | domainSwitchOnDone (d : Dom)
  | domainSwitchOffDone (d : Dom)
  | auxTransaction (r : AuxReq)
  | sdiCarrierDetect (n : Fin 4)
  | mgtCsNWake
  | perstNWake
  | p3Exit
  | p4Exit (e : BootEnv)
  /-- the die sensors' readings in 1/16 degree Celsius (R564) -/
  | dieSensorSample (readings : List (BitVec 16))
  | perstNRise
  | porNLow
  | porNRise (e : BootEnv)
  /-- channel c has not trained within MEM.TRAIN.init_ms at step 6 -/
  | g6TrainTimeout (c : Fin 8)
  | perstNLow
  | functionLevelReset
  deriving DecidableEq, Repr

end Sys2Proof
end

