-- ==== Sys2Proof/Decode.lean ====
section
/-!
DEFINITION. The words of the opcode table: it gives no row any bits, so there is nothing to decode.
-/

namespace Sys2Proof

/-- The command a word of the opcode table spells: every row of the table has an empty list of fields, so a word spells none. -/
def decodeTableWord (_nbits _w : Nat) : Option Instr := none

end Sys2Proof
end

