-- ==== Sys2Proof/Config.lean ====
section
/-!
DEFINITION. What one device or one design fixes, and the free values: constants the manual leaves open, with no body, so that
no proof can lean on a value of them (each is named in a log entry under notes/assumptions).
-/

namespace Sys2Proof.Config

/-- The free value: a result the manual leaves open is this constant applied to a number that names the open point and the
count of free values taken so far (log entry 2). Nothing is known of it. -/
opaque freeNat : Nat → Nat → Nat

/-- GEN.ID.variant: 0 for ordering code -E, 1 for -S (R1, R2). Two devices differ in it; the model holds for both. -/
opaque variantS : Bool

/-- The owner key hash supplied with the order of a -E part (R1, Table 0.1): bit i of byte k of the hash is bit 8 k + i. -/
opaque ownerHash : BitVec 384

/-- The transmit swing that a driver table's first record sets, from the record's words: 400 mV plus this, modulo 401 (R562, Table 19.9; log
entry 71). -/
opaque swingCode : Nat → Nat

/-- Per device (R476, R482, R492, Table 15.10): the serial number, the identity key pair's private key, the certificate chain of R483
and the HDCP receiver ID. -/
opaque serial : BitVec 64
opaque identityKey : Nat
opaque certChain : List Byte
opaque hdcpRxId : BitVec 40

/-- Ticks in one second at the nominal 1.5 GHz (R24, Table 0.2). -/
def tickHz : Nat := 1500000000

/-- Ticks in one millisecond at the nominal 1.5 GHz (R24, Table 0.2). -/
def tickMs : Nat := 1500000

/-- Ticks in one microsecond. -/
def tickUs : Nat := 1500

end Sys2Proof.Config
end

