-- ==== Sys2Proof/Machine/Fields.lean ====
section
/-!
DEFINITION. The name of every register field of the block, as the register tables of the chapters give it (R9, R10): the
BAR0 offset of its register, its lowest bit and its width. The name is the register's and the field's joined; an indexed
register takes its index (or, where it has a second letter, its element) as an argument.
-/

namespace Sys2Proof.Machine

/-- A register field: its register's BAR0 offset, its lowest bit and its width (R9). -/
structure Fld where
  off : Nat
  lo : Nat
  w : Nat
  deriving DecidableEq, Repr

/-! GEN.ID (R473/R474 of spec/14_host_events.md) -/
def F.GEN_ID : Fld := ⟨0x0, 0, 32⟩
/-- RO. Part number -/
def F.GEN_ID_part : Fld := ⟨0x0, 16, 16⟩
/-- RO. Stepping -/
def F.GEN_ID_stepping : Fld := ⟨0x0, 8, 8⟩
/-- RO. 0 = -E, 1 = -S -/
def F.GEN_ID_variant : Fld := ⟨0x0, 4, 4⟩

/-! GEN.FENCE (R473/R474 of spec/14_host_events.md) -/
def F.GEN_FENCE : Fld := ⟨0x4, 0, 32⟩
/-- RW. Token in effect, R456 -/
def F.GEN_FENCE_token : Fld := ⟨0x4, 0, 32⟩

/-! GEN.BAR2_LO (R473/R474 of spec/14_host_events.md) -/
def F.GEN_BAR2_LO : Fld := ⟨0x8, 0, 32⟩
/-- RW. Aperture base bits 31:20 -/
def F.GEN_BAR2_LO_base : Fld := ⟨0x8, 20, 12⟩

/-! GEN.BAR2_HI (R473/R474 of spec/14_host_events.md) -/
def F.GEN_BAR2_HI : Fld := ⟨0xC, 0, 32⟩
/-- RW. Aperture base bits 39:32 -/
def F.GEN_BAR2_HI_base : Fld := ⟨0xC, 0, 8⟩

/-! GEN.STATUS (R473/R474 of spec/14_host_events.md) -/
def F.GEN_STATUS : Fld := ⟨0x10, 0, 32⟩
/-- RO. Negotiated link width -/
def F.GEN_STATUS_width : Fld := ⟨0x10, 12, 4⟩
/-- RO. Link generation, 1–4 -/
def F.GEN_STATUS_gen : Fld := ⟨0x10, 8, 4⟩
/-- RO. 1: a management-port transaction since reset -/
def F.GEN_STATUS_mgt_seen : Fld := ⟨0x10, 1, 1⟩
/-- RO. 1: PCIe link up -/
def F.GEN_STATUS_link_up : Fld := ⟨0x10, 0, 1⟩

/-! GEN.MGT_STAT (R473/R474 of spec/14_host_events.md) -/
def F.GEN_MGT_STAT : Fld := ⟨0x14, 0, 32⟩
/-- HWS. Frame error, R445 -/
def F.GEN_MGT_STAT_frame_err : Fld := ⟨0x14, 2, 1⟩
/-- HWS. Access error -/
def F.GEN_MGT_STAT_acc_err : Fld := ⟨0x14, 1, 1⟩
/-- HWS. Port-A mailbox collision -/
def F.GEN_MGT_STAT_mbx_coll : Fld := ⟨0x14, 0, 1⟩

/-! GEN.MSIX_TABLE (R473/R474 of spec/14_host_events.md) -/
def F.GEN_MSIX_TABLE (i : Nat) : Fld := ⟨0x1000 + 4 * i, 0, 32⟩
/-- RW. word -/
def F.GEN_MSIX_TABLE_word (i : Nat) : Fld := ⟨0x1000 + 4 * i, 0, 32⟩

/-! GEN.MSIX_PBA (R473/R474 of spec/14_host_events.md) -/
def F.GEN_MSIX_PBA : Fld := ⟨0x1800, 0, 32⟩
/-- RO. pending -/
def F.GEN_MSIX_PBA_pending : Fld := ⟨0x1800, 0, 1⟩

/-! PWR.CTRL (R514 of spec/16_power_management.md) -/
def F.PWR_CTRL : Fld := ⟨0x10000, 0, 32⟩
/-- WO. 1: exit to P0, R506 -/
def F.PWR_CTRL_wake : Fld := ⟨0x10000, 2, 1⟩
/-- WO. 1: hold a sleep request, R507 -/
def F.PWR_CTRL_sleep : Fld := ⟨0x10000, 1, 1⟩
/-- WO. 1: clear PWR counters -/
def F.PWR_CTRL_clr_cnt : Fld := ⟨0x10000, 0, 1⟩

/-! PWR.REQ (R514 of spec/16_power_management.md) -/
def F.PWR_REQ : Fld := ⟨0x10004, 0, 32⟩
/-- RW. Deepest permitted state, 0–5; 6–7 reserved -/
def F.PWR_REQ_max_state : Fld := ⟨0x10004, 0, 3⟩

/-! PWR.LAT_TOL (R514 of spec/16_power_management.md) -/
def F.PWR_LAT_TOL : Fld := ⟨0x10008, 0, 32⟩
/-- RW. Latency tolerance in µs; 0xFFFF_FFFF: no limit -/
def F.PWR_LAT_TOL_us : Fld := ⟨0x10008, 0, 32⟩

/-! PWR.IDLE (R514 of spec/16_power_management.md) -/
def F.PWR_IDLE : Fld := ⟨0x1000C, 0, 32⟩
/-- RW. Seconds in P2 before P3; 0: never -/
def F.PWR_IDLE_hold_s : Fld := ⟨0x1000C, 16, 16⟩
/-- RW. Sleep window in ms, 1–65,535; reset 1,000 -/
def F.PWR_IDLE_idle_ms : Fld := ⟨0x1000C, 0, 16⟩

/-! PWR.STATUS (R514 of spec/16_power_management.md) -/
def F.PWR_STATUS : Fld := ⟨0x10010, 0, 32⟩
/-- RO. 0 none, 1 input, 2 host write, 3 PERST_N, 4 MGT_CS_N -/
def F.PWR_STATUS_last_wake : Fld := ⟨0x10010, 24, 4⟩
/-- RO. Bit n: input n asleep, R505 -/
def F.PWR_STATUS_asleep : Fld := ⟨0x10010, 16, 5⟩
/-- RO. 1: a sleep request is held -/
def F.PWR_STATUS_sleep_pend : Fld := ⟨0x10010, 10, 1⟩
/-- RO. 1: a write was ignored, R501, R513 -/
def F.PWR_STATUS_wr_ign : Fld := ⟨0x10010, 9, 1⟩
/-- RO. 1: a transition is in progress -/
def F.PWR_STATUS_busy : Fld := ⟨0x10010, 8, 1⟩
/-- RO. State being entered -/
def F.PWR_STATUS_target : Fld := ⟨0x10010, 4, 3⟩
/-- RO. Table 16.2 -/
def F.PWR_STATUS_state : Fld := ⟨0x10010, 0, 3⟩

/-! PWR.DOM_ON (R514 of spec/16_power_management.md) -/
def F.PWR_DOM_ON : Fld := ⟨0x10014, 0, 32⟩
/-- RO. Bit d: domain d on, Table 16.1 -/
def F.PWR_DOM_ON_on : Fld := ⟨0x10014, 0, 30⟩

/-! PWR.DOM_PEND (R514 of spec/16_power_management.md) -/
def F.PWR_DOM_PEND : Fld := ⟨0x10018, 0, 32⟩
/-- RO. Bit d: enable held, R503 -/
def F.PWR_DOM_PEND_pend : Fld := ⟨0x10018, 0, 30⟩

/-! PWR.WAKE_EN (R514 of spec/16_power_management.md) -/
def F.PWR_WAKE_EN : Fld := ⟨0x1001C, 0, 32⟩
/-- RW. Bit n: carrier on SDI_INP/N[n] wakes P3 and P4 -/
def F.PWR_WAKE_EN_sdi : Fld := ⟨0x1001C, 3, 4⟩
/-- RW. 1: AUX on input 0 wakes P3 and P4 -/
def F.PWR_WAKE_EN_aux : Fld := ⟨0x1001C, 2, 1⟩
/-- RW. 1: MGT_CS_N falling wakes P3 and P4 -/
def F.PWR_WAKE_EN_mgt : Fld := ⟨0x1001C, 1, 1⟩
/-- RW. 1: PERST_N rising wakes P4 -/
def F.PWR_WAKE_EN_perst : Fld := ⟨0x1001C, 0, 1⟩

/-! PWR.CNT_STATE (R514 of spec/16_power_management.md) -/
def F.PWR_CNT_STATE : Fld := ⟨0x10020, 0, 32⟩
/-- RO. Entries to P4 -/
def F.PWR_CNT_STATE_p4 : Fld := ⟨0x10020, 24, 8⟩
/-- RO. Entries to P3 -/
def F.PWR_CNT_STATE_p3 : Fld := ⟨0x10020, 16, 8⟩
/-- RO. Entries to P2 -/
def F.PWR_CNT_STATE_p2 : Fld := ⟨0x10020, 0, 16⟩

/-! PWR.OVC_TIME (R514 of spec/16_power_management.md) -/
def F.PWR_OVC_TIME : Fld := ⟨0x10024, 0, 32⟩
/-- RO. Time in P2 -/
def F.PWR_OVC_TIME_seconds : Fld := ⟨0x10024, 0, 32⟩

/-! TMB.CTRL (R56 of spec/02_time_base.md) -/
def F.TMB_CTRL : Fld := ⟨0x20000, 0, 32⟩
/-- WO. 1: clear TMB.REF_CNT -/
def F.TMB_CTRL_clr_cnt : Fld := ⟨0x20000, 2, 1⟩
/-- WO. 1: realign at next accepted edge, only while panel outputs do not run -/
def F.TMB_CTRL_realign : Fld := ⟨0x20000, 1, 1⟩
/-- WO. 1: latch tick, picture number and phase -/
def F.TMB_CTRL_snap : Fld := ⟨0x20000, 0, 1⟩

/-! TMB.REF_CFG (R56 of spec/02_time_base.md) -/
def F.TMB_REF_CFG : Fld := ⟨0x20004, 0, 32⟩
/-- RWS. Loop bandwidth: 0 = 0.01 Hz, 1 = 0.1 Hz, 2 = 1 Hz, 3 = 10 Hz; 4–7 reserved -/
def F.TMB_REF_CFG_bw : Fld := ⟨0x20004, 8, 3⟩
/-- RWS. SHUT_IN edge: 0 = rising, 1 = falling -/
def F.TMB_REF_CFG_pol : Fld := ⟨0x20004, 6, 1⟩
/-- RWS. SDI input or SHUT_IN channel 0–3 -/
def F.TMB_REF_CFG_inp : Fld := ⟨0x20004, 4, 2⟩
/-- RWS. Reference source, Table 2.1; 6–7 reserved -/
def F.TMB_REF_CFG_src : Fld := ⟨0x20004, 0, 3⟩

/-! TMB.REF_RATIO (R56 of spec/02_time_base.md) -/
def F.TMB_REF_RATIO : Fld := ⟨0x20008, 0, 32⟩
/-- RWS. Pictures per alignment cycle, 1–65,535 -/
def F.TMB_REF_RATIO_pic_mul : Fld := ⟨0x20008, 16, 16⟩
/-- RWS. Reference edges per alignment cycle, 1–65,535 -/
def F.TMB_REF_RATIO_ref_div : Fld := ⟨0x20008, 0, 16⟩

/-! TMB.PIC_PERIOD (R56 of spec/02_time_base.md) -/
def F.TMB_PIC_PERIOD : Fld := ⟨0x2000C, 0, 32⟩
/-- RWS. P in ticks, 12,500,000–150,000,000; reset 62,500,000 -/
def F.TMB_PIC_PERIOD_ticks : Fld := ⟨0x2000C, 0, 32⟩

/-! TMB.REF_OFFSET (R56 of spec/02_time_base.md) -/
def F.TMB_REF_OFFSET : Fld := ⟨0x20010, 0, 32⟩
/-- RWS. Signed offset of picture boundary from aligned edge; magnitude less than P -/
def F.TMB_REF_OFFSET_ticks : Fld := ⟨0x20010, 0, 32⟩

/-! TMB.REF_WIN (R56 of spec/02_time_base.md) -/
def F.TMB_REF_WIN : Fld := ⟨0x20014, 0, 32⟩
/-- RW. Acceptance half-width; reset 1,500 -/
def F.TMB_REF_WIN_ticks : Fld := ⟨0x20014, 0, 24⟩

/-! TMB.LOCK_CFG (R56 of spec/02_time_base.md) -/
def F.TMB_LOCK_CFG : Fld := ⟨0x20018, 0, 32⟩
/-- RW. Consecutive misses before HOLDOVER, 1–15 -/
def F.TMB_LOCK_CFG_miss_cnt : Fld := ⟨0x20018, 24, 4⟩
/-- RW. Consecutive good edges to LOCKED, 1–255 -/
def F.TMB_LOCK_CFG_lock_cnt : Fld := ⟨0x20018, 16, 8⟩
/-- RW. Lock threshold in ticks; reset 150 -/
def F.TMB_LOCK_CFG_lock_thr : Fld := ⟨0x20018, 0, 16⟩

/-! TMB.SLEW (R56 of spec/02_time_base.md) -/
def F.TMB_SLEW : Fld := ⟨0x2001C, 0, 32⟩
/-- RW. Correction change limit, ppm per second, 1–100 -/
def F.TMB_SLEW_rate : Fld := ⟨0x2001C, 8, 8⟩
/-- RW. Correction limit, ppm, 1–100 -/
def F.TMB_SLEW_max_ppm : Fld := ⟨0x2001C, 0, 8⟩

/-! TMB.STATUS (R56 of spec/02_time_base.md) -/
def F.TMB_STATUS : Fld := ⟨0x20020, 0, 32⟩
/-- RO. Copy last marked bad: 0 = A, 1 = B -/
def F.TMB_STATUS_bad_copy : Fld := ⟨0x20020, 7, 1⟩
/-- RO. 1: lockstep reload in progress -/
def F.TMB_STATUS_resync : Fld := ⟨0x20020, 6, 1⟩
/-- RO. 1: panel outputs run; phase steps barred -/
def F.TMB_STATUS_outputs : Fld := ⟨0x20020, 5, 1⟩
/-- RO. 1: an edge was accepted within the last miss_cnt windows -/
def F.TMB_STATUS_ref_present : Fld := ⟨0x20020, 4, 1⟩
/-- RO. State, Table 2.3 -/
def F.TMB_STATUS_state : Fld := ⟨0x20020, 0, 3⟩

/-! TMB.FREQ_OFS (R56 of spec/02_time_base.md) -/
def F.TMB_FREQ_OFS : Fld := ⟨0x20024, 0, 32⟩
/-- RO. Signed applied offset from nominal, parts per 10⁹ -/
def F.TMB_FREQ_OFS_ppb : Fld := ⟨0x20024, 0, 32⟩

/-! TMB.PHASE_ERR (R56 of spec/02_time_base.md) -/
def F.TMB_PHASE_ERR : Fld := ⟨0x20028, 0, 32⟩
/-- RO. Signed phase error of the last accepted edge -/
def F.TMB_PHASE_ERR_ticks : Fld := ⟨0x20028, 0, 32⟩

/-! TMB.SNAP_TICK_LO (R56 of spec/02_time_base.md) -/
def F.TMB_SNAP_TICK_LO : Fld := ⟨0x2002C, 0, 32⟩
/-- RO. Latched tick counter bits 31:0 -/
def F.TMB_SNAP_TICK_LO_tick : Fld := ⟨0x2002C, 0, 32⟩

/-! TMB.SNAP_TICK_HI (R56 of spec/02_time_base.md) -/
def F.TMB_SNAP_TICK_HI : Fld := ⟨0x20030, 0, 32⟩
/-- RO. Latched tick counter bits 63:32 -/
def F.TMB_SNAP_TICK_HI_tick : Fld := ⟨0x20030, 0, 32⟩

/-! TMB.SNAP_PIC_LO (R56 of spec/02_time_base.md) -/
def F.TMB_SNAP_PIC_LO : Fld := ⟨0x20034, 0, 32⟩
/-- RO. Latched picture number bits 31:0 -/
def F.TMB_SNAP_PIC_LO_picture : Fld := ⟨0x20034, 0, 32⟩

/-! TMB.SNAP_PIC_HI (R56 of spec/02_time_base.md) -/
def F.TMB_SNAP_PIC_HI : Fld := ⟨0x20038, 0, 32⟩
/-- RO. Latched picture number bits 63:32 -/
def F.TMB_SNAP_PIC_HI_picture : Fld := ⟨0x20038, 0, 32⟩

/-! TMB.SNAP_PHASE (R56 of spec/02_time_base.md) -/
def F.TMB_SNAP_PHASE : Fld := ⟨0x2003C, 0, 32⟩
/-- RO. Latched phase -/
def F.TMB_SNAP_PHASE_phase : Fld := ⟨0x2003C, 0, 32⟩

/-! TMB.HOLD_TIME (R56 of spec/02_time_base.md) -/
def F.TMB_HOLD_TIME : Fld := ⟨0x20040, 0, 32⟩
/-- RO. Time in the current HOLDOVER or OUT_OF_RANGE; 0 in other states -/
def F.TMB_HOLD_TIME_ms : Fld := ⟨0x20040, 0, 32⟩

/-! TMB.REF_CNT (R56 of spec/02_time_base.md) -/
def F.TMB_REF_CNT : Fld := ⟨0x20044, 0, 32⟩
/-- RO. Realign writes ignored -/
def F.TMB_REF_CNT_realign_ign : Fld := ⟨0x20044, 24, 8⟩
/-- RO. Entries to HOLDOVER -/
def F.TMB_REF_CNT_holdovers : Fld := ⟨0x20044, 16, 8⟩
/-- RO. Stray edges -/
def F.TMB_REF_CNT_strays : Fld := ⟨0x20044, 8, 8⟩
/-- RO. Missed edges -/
def F.TMB_REF_CNT_misses : Fld := ⟨0x20044, 0, 8⟩

/-! TMB.LOCKSTEP (R56 of spec/02_time_base.md) -/
def F.TMB_LOCKSTEP : Fld := ⟨0x20048, 0, 32⟩
/-- RO. Mismatches with no failing self-check -/
def F.TMB_LOCKSTEP_uncovered : Fld := ⟨0x20048, 16, 16⟩
/-- RO. Mismatches resolved by reload, saturating -/
def F.TMB_LOCKSTEP_mismatches : Fld := ⟨0x20048, 0, 16⟩

/-! TMB.CAL_STAT (R56 of spec/02_time_base.md) -/
def F.TMB_CAL_STAT : Fld := ⟨0x2004C, 0, 32⟩
/-- RO. Active calendar bank -/
def F.TMB_CAL_STAT_bank : Fld := ⟨0x2004C, 31, 1⟩
/-- RO. Sequence entries in the active bank, 0–256 -/
def F.TMB_CAL_STAT_seq_used : Fld := ⟨0x2004C, 16, 9⟩
/-- RO. Single entries in the active bank, 0–4,096 -/
def F.TMB_CAL_STAT_single_used : Fld := ⟨0x2004C, 0, 13⟩

/-! EXS.CTRL (R96 of spec/03_exposure_scheduling.md) -/
def F.EXS_CTRL : Fld := ⟨0x30000, 0, 32⟩
/-- WO. 1: clear EXS counters -/
def F.EXS_CTRL_clr_cnt : Fld := ⟨0x30000, 1, 1⟩
/-- RWS. 1: build camera passes; 0: house passes only -/
def F.EXS_CTRL_enable : Fld := ⟨0x30000, 0, 1⟩

/-! EXS.STATUS (R96 of spec/03_exposure_scheduling.md) -/
def F.EXS_STATUS : Fld := ⟨0x30004, 0, 32⟩
/-- RO. Bit n: camera n lost ticks in the last period -/
def F.EXS_STATUS_conflict : Fld := ⟨0x30004, 28, 4⟩
/-- RO. Bit n: camera n escaped in the last period -/
def F.EXS_STATUS_escape : Fld := ⟨0x30004, 24, 4⟩
/-- RO. Bit n: camera n has windows in the active bank -/
def F.EXS_STATUS_active : Fld := ⟨0x30004, 20, 4⟩
/-- RO. 1: house minimum not met on some row in the last period -/
def F.EXS_STATUS_shortfall : Fld := ⟨0x30004, 17, 1⟩
/-- RO. 1: the last boundary repeated a bank, see R51 -/
def F.EXS_STATUS_late : Fld := ⟨0x30004, 16, 1⟩
/-- RO. Passes starting in the active period -/
def F.EXS_STATUS_passes : Fld := ⟨0x30004, 8, 8⟩
/-- RO. Pass limit of R79 -/
def F.EXS_STATUS_n_max : Fld := ⟨0x30004, 0, 8⟩

/-! EXS.SCAN (R96 of spec/03_exposure_scheduling.md) -/
def F.EXS_SCAN : Fld := ⟨0x30008, 0, 32⟩
/-- RWS. G in ticks; reset 1,500 -/
def F.EXS_SCAN_prog_gap : Fld := ⟨0x30008, 0, 16⟩

/-! EXS.HOUSE (R96 of spec/03_exposure_scheduling.md) -/
def F.EXS_HOUSE : Fld := ⟨0x3000C, 0, 32⟩
/-- RWS. House emission target, 1/1,024 of P, 0–1,024 -/
def F.EXS_HOUSE_target : Fld := ⟨0x3000C, 16, 11⟩
/-- RWS. House minimum, 1/1,024 of P, 0–target -/
def F.EXS_HOUSE_min_duty : Fld := ⟨0x3000C, 0, 11⟩

/-! EXS.BUILD (R96 of spec/03_exposure_scheduling.md) -/
def F.EXS_BUILD : Fld := ⟨0x30010, 0, 32⟩
/-- RWS. Build point before boundary; reset 1,500,000 -/
def F.EXS_BUILD_lead : Fld := ⟨0x30010, 0, 32⟩

/-! EXS.DRZ (R96 of spec/03_exposure_scheduling.md) -/
def F.EXS_DRZ : Fld := ⟨0x30014, 0, 32⟩
/-- RWS. Dark windows offered per period, 0–255 -/
def F.EXS_DRZ_max_win : Fld := ⟨0x30014, 24, 8⟩
/-- RWS. Shortest dark window in ticks; reset 15,000 -/
def F.EXS_DRZ_min_len : Fld := ⟨0x30014, 0, 24⟩

/-! EXS.LC (R96 of spec/03_exposure_scheduling.md) -/
def F.EXS_LC : Fld := ⟨0x30018, 0, 32⟩
/-- RWS. LC settle time S in ticks -/
def F.EXS_LC_settle : Fld := ⟨0x30018, 0, 24⟩

/-! EXS.HOUSE_CNT (R96 of spec/03_exposure_scheduling.md) -/
def F.EXS_HOUSE_CNT : Fld := ⟨0x3001C, 0, 32⟩
/-- RO. Periods with a house shortfall -/
def F.EXS_HOUSE_CNT_shortfalls : Fld := ⟨0x3001C, 0, 32⟩

/-! EXS.DRZ_CNT (R96 of spec/03_exposure_scheduling.md) -/
def F.EXS_DRZ_CNT : Fld := ⟨0x30020, 0, 32⟩
/-- RO. Dark windows offered -/
def F.EXS_DRZ_CNT_windows : Fld := ⟨0x30020, 0, 32⟩

/-! EXS.CAMn_CFG (R96 of spec/03_exposure_scheduling.md) -/
def F.EXS_CAM_CFG (i : Nat) : Fld := ⟨0x30100 + 64 * i, 0, 32⟩
/-- RWS. Periods in COAST before LOST, 1–15 -/
def F.EXS_CAM_CFG_coast_max (i : Nat) : Fld := ⟨0x30100 + 64 * i, 20, 4⟩
/-- RWS. Misses before COAST, 1–15 -/
def F.EXS_CAM_CFG_miss_max (i : Nat) : Fld := ⟨0x30100 + 64 * i, 16, 4⟩
/-- RWS. Edges to leave ACQUIRE, 1–15 -/
def F.EXS_CAM_CFG_acq_cnt (i : Nat) : Fld := ⟨0x30100 + 64 * i, 12, 4⟩
/-- RWS. Open edge: 0 = rising, 1 = falling -/
def F.EXS_CAM_CFG_pol (i : Nat) : Fld := ⟨0x30100 + 64 * i, 10, 1⟩
/-- RWS. r − 1 -/
def F.EXS_CAM_CFG_rate (i : Nat) : Fld := ⟨0x30100 + 64 * i, 8, 2⟩
/-- RWS. Camera view 0–3; 4–7 reserved -/
def F.EXS_CAM_CFG_view (i : Nat) : Fld := ⟨0x30100 + 64 * i, 2, 3⟩
/-- RWS. 0 = off, 1 = derived, 2 = measured, 3 reserved -/
def F.EXS_CAM_CFG_mode (i : Nat) : Fld := ⟨0x30100 + 64 * i, 0, 2⟩

/-! EXS.CAMn_OPEN (R96 of spec/03_exposure_scheduling.md) -/
def F.EXS_CAM_OPEN (i : Nat) : Fld := ⟨0x30104 + 64 * i, 0, 32⟩
/-- RWS. o in ticks, 0 to T_c − 1 -/
def F.EXS_CAM_OPEN_phase (i : Nat) : Fld := ⟨0x30104 + 64 * i, 0, 32⟩

/-! EXS.CAMn_ANGLE (R96 of spec/03_exposure_scheduling.md) -/
def F.EXS_CAM_ANGLE (i : Nat) : Fld := ⟨0x30108 + 64 * i, 0, 32⟩
/-- RWS. Hundredths of a degree, 1–36,000; reset 18,000 -/
def F.EXS_CAM_ANGLE_angle (i : Nat) : Fld := ⟨0x30108 + 64 * i, 0, 16⟩

/-! EXS.CAMn_SLOPE (R96 of spec/03_exposure_scheduling.md) -/
def F.EXS_CAM_SLOPE (i : Nat) : Fld := ⟨0x3010C + 64 * i, 0, 32⟩
/-- RWS. Readout slope, 1/65,536 tick per row -/
def F.EXS_CAM_SLOPE_sl (i : Nat) : Fld := ⟨0x3010C + 64 * i, 0, 32⟩

/-! EXS.CAMn_SPAN (R96 of spec/03_exposure_scheduling.md) -/
def F.EXS_CAM_SPAN (i : Nat) : Fld := ⟨0x30110 + 64 * i, 0, 32⟩
/-- RWS. Last row of the slope span; reset 4,319 -/
def F.EXS_CAM_SPAN_y1 (i : Nat) : Fld := ⟨0x30110 + 64 * i, 16, 13⟩
/-- RWS. First row of the slope span -/
def F.EXS_CAM_SPAN_y0 (i : Nat) : Fld := ⟨0x30110 + 64 * i, 0, 13⟩

/-! EXS.CAMn_BRIM (R96 of spec/03_exposure_scheduling.md) -/
def F.EXS_CAM_BRIM (i : Nat) : Fld := ⟨0x30114 + 64 * i, 0, 32⟩
/-- RWS. Brim B -/
def F.EXS_CAM_BRIM_ticks (i : Nat) : Fld := ⟨0x30114 + 64 * i, 0, 16⟩

/-! EXS.CAMn_TRACK (R96 of spec/03_exposure_scheduling.md) -/
def F.EXS_CAM_TRACK (i : Nat) : Fld := ⟨0x30118 + 64 * i, 0, 32⟩
/-- RWS. Unlocked threshold in ppm, 1–255 -/
def F.EXS_CAM_TRACK_drift_max (i : Nat) : Fld := ⟨0x30118 + 64 * i, 24, 8⟩
/-- RWS. Acceptance half-width; reset 15,000 -/
def F.EXS_CAM_TRACK_acc_win (i : Nat) : Fld := ⟨0x30118 + 64 * i, 0, 24⟩

/-! EXS.CAMn_STAT (R96 of spec/03_exposure_scheduling.md) -/
def F.EXS_CAM_STAT (i : Nat) : Fld := ⟨0x3011C + 64 * i, 0, 32⟩
/-- RO. 1: drift beyond drift_max -/
def F.EXS_CAM_STAT_unlocked (i : Nat) : Fld := ⟨0x3011C + 64 * i, 3, 1⟩
/-- RO. State, Table 3.1 -/
def F.EXS_CAM_STAT_state (i : Nat) : Fld := ⟨0x3011C + 64 * i, 0, 3⟩

/-! EXS.CAMn_MEAS_PERIOD (R96 of spec/03_exposure_scheduling.md) -/
def F.EXS_CAM_MEAS_PERIOD (i : Nat) : Fld := ⟨0x30120 + 64 * i, 0, 32⟩
/-- RO. T_m at the last build point -/
def F.EXS_CAM_MEAS_PERIOD_ticks (i : Nat) : Fld := ⟨0x30120 + 64 * i, 0, 32⟩

/-! EXS.CAMn_MEAS_OPEN (R96 of spec/03_exposure_scheduling.md) -/
def F.EXS_CAM_MEAS_OPEN (i : Nat) : Fld := ⟨0x30124 + 64 * i, 0, 32⟩
/-- RO. Predicted open phase used in the last build -/
def F.EXS_CAM_MEAS_OPEN_phase (i : Nat) : Fld := ⟨0x30124 + 64 * i, 0, 32⟩

/-! EXS.CAMn_MEAS_WIDTH (R96 of spec/03_exposure_scheduling.md) -/
def F.EXS_CAM_MEAS_WIDTH (i : Nat) : Fld := ⟨0x30128 + 64 * i, 0, 32⟩
/-- RO. Last accepted pulse width -/
def F.EXS_CAM_MEAS_WIDTH_ticks (i : Nat) : Fld := ⟨0x30128 + 64 * i, 0, 32⟩

/-! EXS.CAMn_CNT (R96 of spec/03_exposure_scheduling.md) -/
def F.EXS_CAM_CNT (i : Nat) : Fld := ⟨0x3012C + 64 * i, 0, 32⟩
/-- RO. Escapes -/
def F.EXS_CAM_CNT_escapes (i : Nat) : Fld := ⟨0x3012C + 64 * i, 24, 8⟩
/-- RO. Missed open edges -/
def F.EXS_CAM_CNT_misses (i : Nat) : Fld := ⟨0x3012C + 64 * i, 16, 8⟩
/-- RO. Periods with loss -/
def F.EXS_CAM_CNT_conflicts (i : Nat) : Fld := ⟨0x3012C + 64 * i, 0, 16⟩

/-! EXS.CAMn_LOSS (R96 of spec/03_exposure_scheduling.md) -/
def F.EXS_CAM_LOSS (i : Nat) : Fld := ⟨0x30130 + 64 * i, 0, 32⟩
/-- RO. Greatest row loss in the last period with loss -/
def F.EXS_CAM_LOSS_ticks (i : Nat) : Fld := ⟨0x30130 + 64 * i, 0, 32⟩

/-! ING.CTRL (R133/R134 of spec/04_ingest_block_queues.md) -/
def F.ING_CTRL : Fld := ⟨0x40000, 0, 32⟩
/-- WO. 1: clear every ING.INn_CNT -/
def F.ING_CTRL_clr_cnt : Fld := ⟨0x40000, 0, 1⟩

/-! ING.STATUS (R133/R134 of spec/04_ingest_block_queues.md) -/
def F.ING_STATUS : Fld := ⟨0x40004, 0, 32⟩
/-- RO. Bit n: input n is writing pictures -/
def F.ING_STATUS_active : Fld := ⟨0x40004, 0, 5⟩

/-! ING.INn_CFG (R133/R134 of spec/04_ingest_block_queues.md) -/
def F.ING_IN_CFG (i : Nat) : Fld := ⟨0x40100 + 64 * i, 0, 32⟩
/-- RWS. 1: quad link, R101; input 1 only -/
def F.ING_IN_CFG_quad (i : Nat) : Fld := ⟨0x40100 + 64 * i, 15, 1⟩
/-- RWS. 0: encoding from signal; 1: forced -/
def F.ING_IN_CFG_enc_src (i : Nat) : Fld := ⟨0x40100 + 64 * i, 14, 1⟩
/-- RWS. Forced matrix, Table 4.4 -/
def F.ING_IN_CFG_f_mtx (i : Nat) : Fld := ⟨0x40100 + 64 * i, 12, 2⟩
/-- RWS. Forced transfer, 1–3; 0 reserved -/
def F.ING_IN_CFG_f_tf (i : Nat) : Fld := ⟨0x40100 + 64 * i, 10, 2⟩
/-- RWS. Forced range -/
def F.ING_IN_CFG_f_range (i : Nat) : Fld := ⟨0x40100 + 64 * i, 9, 1⟩
/-- RWS. Forced primaries -/
def F.ING_IN_CFG_f_prim (i : Nat) : Fld := ⟨0x40100 + 64 * i, 8, 1⟩
/-- RWS. 0: internal RGB, R105; 1: source encoding, R108 -/
def F.ING_IN_CFG_store (i : Nat) : Fld := ⟨0x40100 + 64 * i, 2, 1⟩
/-- RWS. 1: advertise HDCP 2.3; input 0 only -/
def F.ING_IN_CFG_hdcp_en (i : Nat) : Fld := ⟨0x40100 + 64 * i, 1, 1⟩
/-- RWS. 1: input enabled -/
def F.ING_IN_CFG_en (i : Nat) : Fld := ⟨0x40100 + 64 * i, 0, 1⟩

/-! ING.INn_DST (R133/R134 of spec/04_ingest_block_queues.md) -/
def F.ING_IN_DST (i : Nat) : Fld := ⟨0x40104 + 64 * i, 0, 32⟩
/-- RWS. Content slot 0–19 -/
def F.ING_IN_DST_slot (i : Nat) : Fld := ⟨0x40104 + 64 * i, 16, 5⟩
/-- RWS. Block row of the picture's top-left block -/
def F.ING_IN_DST_by0 (i : Nat) : Fld := ⟨0x40104 + 64 * i, 8, 8⟩
/-- RWS. Block column of the picture's top-left block -/
def F.ING_IN_DST_bx0 (i : Nat) : Fld := ⟨0x40104 + 64 * i, 0, 8⟩

/-! ING.INn_POOL (R133/R134 of spec/04_ingest_block_queues.md) -/
def F.ING_IN_POOL (i : Nat) : Fld := ⟨0x40108 + 64 * i, 0, 32⟩
/-- RWS. Surfaces in pool, 2–15 -/
def F.ING_IN_POOL_count (i : Nat) : Fld := ⟨0x40108 + 64 * i, 16, 4⟩
/-- RWS. First surface index -/
def F.ING_IN_POOL_first (i : Nat) : Fld := ⟨0x40108 + 64 * i, 0, 10⟩

/-! ING.INn_MAX (R133/R134 of spec/04_ingest_block_queues.md) -/
def F.ING_IN_MAX (i : Nat) : Fld := ⟨0x4010C + 64 * i, 0, 32⟩
/-- RWS. Largest height − 1; reset 4,319 -/
def F.ING_IN_MAX_h_max (i : Nat) : Fld := ⟨0x4010C + 64 * i, 16, 13⟩
/-- RWS. Largest width − 1; reset 7,679 -/
def F.ING_IN_MAX_w_max (i : Nat) : Fld := ⟨0x4010C + 64 * i, 0, 13⟩

/-! ING.INn_ALIGN (R133/R134 of spec/04_ingest_block_queues.md) -/
def F.ING_IN_ALIGN (i : Nat) : Fld := ⟨0x40110 + 64 * i, 0, 32⟩
/-- RWS. 1: apply time as R117 -/
def F.ING_IN_ALIGN_en (i : Nat) : Fld := ⟨0x40110 + 64 * i, 31, 1⟩
/-- RWS. Alignment delay in pictures -/
def F.ING_IN_ALIGN_pics (i : Nat) : Fld := ⟨0x40110 + 64 * i, 0, 8⟩

/-! ING.INn_STAT (R133/R134 of spec/04_ingest_block_queues.md) -/
def F.ING_IN_STAT (i : Nat) : Fld := ⟨0x40114 + 64 * i, 0, 32⟩
/-- RO. 1: receiver locked -/
def F.ING_IN_STAT_lock (i : Nat) : Fld := ⟨0x40114 + 64 * i, 15, 1⟩
/-- RO. 1: last picture HDCP-encrypted -/
def F.ING_IN_STAT_protected (i : Nat) : Fld := ⟨0x40114 + 64 * i, 14, 1⟩
/-- RO. 1: forced encoding used as fallback -/
def F.ING_IN_STAT_enc_fb (i : Nat) : Fld := ⟨0x40114 + 64 * i, 13, 1⟩
/-- RO. Detected subsampling, Table 4.7 coding -/
def F.ING_IN_STAT_sub (i : Nat) : Fld := ⟨0x40114 + 64 * i, 11, 2⟩
/-- RO. Detected depth, Table 4.7 coding -/
def F.ING_IN_STAT_depth (i : Nat) : Fld := ⟨0x40114 + 64 * i, 9, 2⟩
/-- RO. Matrix in use -/
def F.ING_IN_STAT_mtx (i : Nat) : Fld := ⟨0x40114 + 64 * i, 7, 2⟩
/-- RO. Transfer in use -/
def F.ING_IN_STAT_tf (i : Nat) : Fld := ⟨0x40114 + 64 * i, 5, 2⟩
/-- RO. Range in use -/
def F.ING_IN_STAT_range (i : Nat) : Fld := ⟨0x40114 + 64 * i, 4, 1⟩
/-- RO. Primaries in use -/
def F.ING_IN_STAT_prim (i : Nat) : Fld := ⟨0x40114 + 64 * i, 3, 1⟩

/-! ING.INn_SIZE (R133/R134 of spec/04_ingest_block_queues.md) -/
def F.ING_IN_SIZE (i : Nat) : Fld := ⟨0x40118 + 64 * i, 0, 32⟩
/-- RO. Detected height − 1 -/
def F.ING_IN_SIZE_height_m1 (i : Nat) : Fld := ⟨0x40118 + 64 * i, 16, 13⟩
/-- RO. Detected width − 1 -/
def F.ING_IN_SIZE_width_m1 (i : Nat) : Fld := ⟨0x40118 + 64 * i, 0, 13⟩

/-! ING.INn_CNT (R133/R134 of spec/04_ingest_block_queues.md) -/
def F.ING_IN_CNT (i : Nat) : Fld := ⟨0x4011C + 64 * i, 0, 32⟩
/-- RO. Pictures dropped, no free surface -/
def F.ING_IN_CNT_no_surf (i : Nat) : Fld := ⟨0x4011C + 64 * i, 24, 8⟩
/-- RO. Pictures rejected by R102 -/
def F.ING_IN_CNT_too_big (i : Nat) : Fld := ⟨0x4011C + 64 * i, 16, 8⟩
/-- RO. Pictures with at least one entry removed or discarded -/
def F.ING_IN_CNT_replaced (i : Nat) : Fld := ⟨0x4011C + 64 * i, 0, 16⟩

/-! ING.INn_PIC (R133/R134 of spec/04_ingest_block_queues.md) -/
def F.ING_IN_PIC (i : Nat) : Fld := ⟨0x40120 + 64 * i, 0, 32⟩
/-- RO. Pictures written -/
def F.ING_IN_PIC_pictures (i : Nat) : Fld := ⟨0x40120 + 64 * i, 0, 32⟩

/-! ING.INn_PRIM0 (R133/R134 of spec/04_ingest_block_queues.md) -/
def F.ING_IN_PRIM0 (i : Nat) : Fld := ⟨0x40124 + 64 * i, 0, 32⟩
/-- RWS. Matrix row 0, column 1, signed 2.14 -/
def F.ING_IN_PRIM0_m01 (i : Nat) : Fld := ⟨0x40124 + 64 * i, 16, 16⟩
/-- RWS. Row 0, column 0 -/
def F.ING_IN_PRIM0_m00 (i : Nat) : Fld := ⟨0x40124 + 64 * i, 0, 16⟩

/-! ING.INn_PRIM1 (R133/R134 of spec/04_ingest_block_queues.md) -/
def F.ING_IN_PRIM1 (i : Nat) : Fld := ⟨0x40128 + 64 * i, 0, 32⟩
/-- RWS. Row 1, column 0 -/
def F.ING_IN_PRIM1_m10 (i : Nat) : Fld := ⟨0x40128 + 64 * i, 16, 16⟩
/-- RWS. Row 0, column 2 -/
def F.ING_IN_PRIM1_m02 (i : Nat) : Fld := ⟨0x40128 + 64 * i, 0, 16⟩

/-! ING.INn_PRIM2 (R133/R134 of spec/04_ingest_block_queues.md) -/
def F.ING_IN_PRIM2 (i : Nat) : Fld := ⟨0x4012C + 64 * i, 0, 32⟩
/-- RWS. Row 1, column 2 -/
def F.ING_IN_PRIM2_m12 (i : Nat) : Fld := ⟨0x4012C + 64 * i, 16, 16⟩
/-- RWS. Row 1, column 1 -/
def F.ING_IN_PRIM2_m11 (i : Nat) : Fld := ⟨0x4012C + 64 * i, 0, 16⟩

/-! ING.INn_PRIM3 (R133/R134 of spec/04_ingest_block_queues.md) -/
def F.ING_IN_PRIM3 (i : Nat) : Fld := ⟨0x40130 + 64 * i, 0, 32⟩
/-- RWS. Row 2, column 1 -/
def F.ING_IN_PRIM3_m21 (i : Nat) : Fld := ⟨0x40130 + 64 * i, 16, 16⟩
/-- RWS. Row 2, column 0 -/
def F.ING_IN_PRIM3_m20 (i : Nat) : Fld := ⟨0x40130 + 64 * i, 0, 16⟩

/-! ING.INn_PRIM4 (R133/R134 of spec/04_ingest_block_queues.md) -/
def F.ING_IN_PRIM4 (i : Nat) : Fld := ⟨0x40134 + 64 * i, 0, 32⟩
/-- RWS. Row 2, column 2 -/
def F.ING_IN_PRIM4_m22 (i : Nat) : Fld := ⟨0x40134 + 64 * i, 0, 16⟩

/-! ING.XFER0 (R133/R134 of spec/04_ingest_block_queues.md) -/
def F.ING_XFER0 (i : Nat) : Fld := ⟨0x44000 + 4 * i, 0, 32⟩
/-- RW, intab. transfer table -/
def F.ING_XFER0_entries (i : Nat) : Fld := ⟨0x44000 + 4 * i, 0, 32⟩

/-! ING.XFER1 (R133/R134 of spec/04_ingest_block_queues.md) -/
def F.ING_XFER1 (i : Nat) : Fld := ⟨0x46100 + 4 * i, 0, 32⟩
/-- RW, intab. transfer table -/
def F.ING_XFER1_entries (i : Nat) : Fld := ⟨0x46100 + 4 * i, 0, 32⟩

/-! ING.XFER2 (R133/R134 of spec/04_ingest_block_queues.md) -/
def F.ING_XFER2 (i : Nat) : Fld := ⟨0x48200 + 4 * i, 0, 32⟩
/-- RW, intab. transfer table -/
def F.ING_XFER2_entries (i : Nat) : Fld := ⟨0x48200 + 4 * i, 0, 32⟩

/-! ING.XFER3 (R133/R134 of spec/04_ingest_block_queues.md) -/
def F.ING_XFER3 (i : Nat) : Fld := ⟨0x4A300 + 4 * i, 0, 32⟩
/-- RW, intab. transfer table -/
def F.ING_XFER3_entries (i : Nat) : Fld := ⟨0x4A300 + 4 * i, 0, 32⟩

/-! ING.XFER4 (R133/R134 of spec/04_ingest_block_queues.md) -/
def F.ING_XFER4 (i : Nat) : Fld := ⟨0x4C400 + 4 * i, 0, 32⟩
/-- RW, intab. transfer table -/
def F.ING_XFER4_entries (i : Nat) : Fld := ⟨0x4C400 + 4 * i, 0, 32⟩

/-! BLQ.CTRL (R133/R134 of spec/04_ingest_block_queues.md) -/
def F.BLQ_CTRL : Fld := ⟨0x50000, 0, 32⟩
/-- WO. 1: clear BLQ.DROP0–3 and BLQ.BUSY_CNT -/
def F.BLQ_CTRL_clr_cnt : Fld := ⟨0x50000, 0, 1⟩

/-! BLQ.STATUS (R133/R134 of spec/04_ingest_block_queues.md) -/
def F.BLQ_STATUS : Fld := ⟨0x50004, 0, 32⟩
/-- RO. Pending entries in all queues -/
def F.BLQ_STATUS_pending : Fld := ⟨0x50004, 0, 18⟩

/-! BLQ.SURF_BASE (R133/R134 of spec/04_ingest_block_queues.md) -/
def F.BLQ_SURF_BASE : Fld := ⟨0x50008, 0, 32⟩
/-- RW. Local-store offset of the surface table, 32 KiB aligned, outside the mailbox; must not change while any surface is referenced -/
def F.BLQ_SURF_BASE_offset : Fld := ⟨0x50008, 0, 24⟩

/-! BLQ.SUB_DESCk (R133/R134 of spec/04_ingest_block_queues.md) -/
def F.BLQ_SUB_DESC (i : Nat) : Fld := ⟨0x50010 + 4 * i, 0, 32⟩
/-- RW. Descriptor words 0–7, Table 4.8 -/
def F.BLQ_SUB_DESC_word (i : Nat) : Fld := ⟨0x50010 + 4 * i, 0, 32⟩

/-! BLQ.SUB_GO (R133/R134 of spec/04_ingest_block_queues.md) -/
def F.BLQ_SUB_GO : Fld := ⟨0x50030, 0, 32⟩
/-- WO. 1: submit the descriptor -/
def F.BLQ_SUB_GO_go : Fld := ⟨0x50030, 0, 1⟩

/-! BLQ.SUB_STAT (R133/R134 of spec/04_ingest_block_queues.md) -/
def F.BLQ_SUB_STAT : Fld := ⟨0x50034, 0, 32⟩
/-- RO. 1: submission in progress -/
def F.BLQ_SUB_STAT_running : Fld := ⟨0x50034, 31, 1⟩
/-- RO. Table 4.10 -/
def F.BLQ_SUB_STAT_result : Fld := ⟨0x50034, 24, 4⟩
/-- RO. Block row of the first full queue found -/
def F.BLQ_SUB_STAT_busy_by : Fld := ⟨0x50034, 8, 8⟩
/-- RO. Block column of the first full queue found -/
def F.BLQ_SUB_STAT_busy_bx : Fld := ⟨0x50034, 0, 8⟩

/-! BLQ.SRC_LAST (R133/R134 of spec/04_ingest_block_queues.md) -/
def F.BLQ_SRC_LAST : Fld := ⟨0x50038, 0, 32⟩
/-- RO. Last token accepted from source 5 -/
def F.BLQ_SRC_LAST_token : Fld := ⟨0x50038, 0, 32⟩

/-! BLQ.DROP0 (R133/R134 of spec/04_ingest_block_queues.md) -/
def F.BLQ_DROP0 : Fld := ⟨0x50040, 0, 32⟩
/-- RO. Entries removed or discarded, source 1 -/
def F.BLQ_DROP0_src1 : Fld := ⟨0x50040, 16, 16⟩
/-- RO. Source 0 -/
def F.BLQ_DROP0_src0 : Fld := ⟨0x50040, 0, 16⟩

/-! BLQ.DROP1 (R133/R134 of spec/04_ingest_block_queues.md) -/
def F.BLQ_DROP1 : Fld := ⟨0x50044, 0, 32⟩
/-- RO. Source 3 -/
def F.BLQ_DROP1_src3 : Fld := ⟨0x50044, 16, 16⟩
/-- RO. Source 2 -/
def F.BLQ_DROP1_src2 : Fld := ⟨0x50044, 0, 16⟩

/-! BLQ.DROP2 (R133/R134 of spec/04_ingest_block_queues.md) -/
def F.BLQ_DROP2 : Fld := ⟨0x50048, 0, 32⟩
/-- RO. Source 5 -/
def F.BLQ_DROP2_src5 : Fld := ⟨0x50048, 16, 16⟩
/-- RO. Source 4 -/
def F.BLQ_DROP2_src4 : Fld := ⟨0x50048, 0, 16⟩

/-! BLQ.DROP3 (R133/R134 of spec/04_ingest_block_queues.md) -/
def F.BLQ_DROP3 : Fld := ⟨0x5004C, 0, 32⟩
/-- RO. Source 7; always 0 -/
def F.BLQ_DROP3_src7 : Fld := ⟨0x5004C, 16, 16⟩
/-- RO. Source 6; always 0 -/
def F.BLQ_DROP3_src6 : Fld := ⟨0x5004C, 0, 16⟩

/-! BLQ.BUSY_CNT (R133/R134 of spec/04_ingest_block_queues.md) -/
def F.BLQ_BUSY_CNT : Fld := ⟨0x50050, 0, 32⟩
/-- RO. Orsal submissions refused -/
def F.BLQ_BUSY_CNT_orsal : Fld := ⟨0x50050, 16, 16⟩
/-- RO. Host submissions ending BUSY -/
def F.BLQ_BUSY_CNT_host : Fld := ⟨0x50050, 0, 16⟩

/-! BLQ.INSP_SEL (R133/R134 of spec/04_ingest_block_queues.md) -/
def F.BLQ_INSP_SEL : Fld := ⟨0x50060, 0, 32⟩
/-- RW. Slot to inspect -/
def F.BLQ_INSP_SEL_slot : Fld := ⟨0x50060, 16, 5⟩
/-- RW. Block row -/
def F.BLQ_INSP_SEL_by : Fld := ⟨0x50060, 8, 8⟩
/-- RW. Block column -/
def F.BLQ_INSP_SEL_bx : Fld := ⟨0x50060, 0, 8⟩

/-! BLQ.INSP_CUR (R133/R134 of spec/04_ingest_block_queues.md) -/
def F.BLQ_INSP_CUR : Fld := ⟨0x50064, 0, 32⟩
/-- RO. Source of the current version -/
def F.BLQ_INSP_CUR_source : Fld := ⟨0x50064, 28, 4⟩
/-- RO. Pending entries in the block's queue, 0–4 -/
def F.BLQ_INSP_CUR_pending : Fld := ⟨0x50064, 25, 3⟩
/-- RO. 1: no current version -/
def F.BLQ_INSP_CUR_none : Fld := ⟨0x50064, 10, 1⟩
/-- RO. Surface of the current version -/
def F.BLQ_INSP_CUR_surface : Fld := ⟨0x50064, 0, 10⟩

/-! BLQ.INSP_SEQ (R133/R134 of spec/04_ingest_block_queues.md) -/
def F.BLQ_INSP_SEQ : Fld := ⟨0x50068, 0, 32⟩
/-- RO. Sequence number of the current version -/
def F.BLQ_INSP_SEQ_seq : Fld := ⟨0x50068, 0, 32⟩

/-! BLQ.SURF_SEL (R133/R134 of spec/04_ingest_block_queues.md) -/
def F.BLQ_SURF_SEL : Fld := ⟨0x50070, 0, 32⟩
/-- RW. Surface to report -/
def F.BLQ_SURF_SEL_surface : Fld := ⟨0x50070, 0, 10⟩

/-! BLQ.SURF_REF (R133/R134 of spec/04_ingest_block_queues.md) -/
def F.BLQ_SURF_REF : Fld := ⟨0x50074, 0, 32⟩
/-- RO. 1: ingest is writing the surface -/
def F.BLQ_SURF_REF_writing : Fld := ⟨0x50074, 31, 1⟩
/-- RO. References by R113 -/
def F.BLQ_SURF_REF_refs : Fld := ⟨0x50074, 0, 18⟩

/-! CDC.CTRL (R172 of spec/05_frame_codec.md) -/
def F.CDC_CTRL : Fld := ⟨0x60000, 0, 32⟩
/-- WO. 1: clear CDC counters -/
def F.CDC_CTRL_clr_cnt : Fld := ⟨0x60000, 1, 1⟩
/-- WO. 1: abort host jobs, R171 -/
def F.CDC_CTRL_abort : Fld := ⟨0x60000, 0, 1⟩

/-! CDC.CFG (R172 of spec/05_frame_codec.md) -/
def F.CDC_CFG : Fld := ⟨0x60004, 0, 32⟩
/-- RW. Decode lanes for host jobs, 0–16 -/
def F.CDC_CFG_host_dec : Fld := ⟨0x60004, 8, 5⟩
/-- RW. Compress lanes for host jobs, 0–6 -/
def F.CDC_CFG_host_cmp : Fld := ⟨0x60004, 4, 3⟩
/-- RW. Rice adaptation shift s − 1 for new blocks -/
def F.CDC_CFG_ad : Fld := ⟨0x60004, 0, 2⟩

/-! CDC.STATUS (R172 of spec/05_frame_codec.md) -/
def F.CDC_STATUS : Fld := ⟨0x60008, 0, 32⟩
/-- RO. 1: PD_CDC1 lanes available -/
def F.CDC_STATUS_cdc1_on : Fld := ⟨0x60008, 25, 1⟩
/-- RO. 1: a host job is running -/
def F.CDC_STATUS_job_running : Fld := ⟨0x60008, 24, 1⟩
/-- RO. Bit n: decode lane n holds a block -/
def F.CDC_STATUS_dec_busy : Fld := ⟨0x60008, 8, 16⟩
/-- RO. Bit n: compress lane n holds a block -/
def F.CDC_STATUS_cmp_busy : Fld := ⟨0x60008, 0, 8⟩

/-! CDC.JOB_BASE (R172 of spec/05_frame_codec.md) -/
def F.CDC_JOB_BASE : Fld := ⟨0x6000C, 0, 32⟩
/-- RW. Local-store offset of the job ring, 128-byte aligned, outside the mailbox -/
def F.CDC_JOB_BASE_offset : Fld := ⟨0x6000C, 0, 24⟩

/-! CDC.JOB_SIZE (R172 of spec/05_frame_codec.md) -/
def F.CDC_JOB_SIZE : Fld := ⟨0x60010, 0, 32⟩
/-- RW. Ring entries 2^log2n, log2n 1–8 -/
def F.CDC_JOB_SIZE_log2n : Fld := ⟨0x60010, 0, 4⟩

/-! CDC.JOB_PROD (R172 of spec/05_frame_codec.md) -/
def F.CDC_JOB_PROD : Fld := ⟨0x60014, 0, 32⟩
/-- RW. Jobs written by the host -/
def F.CDC_JOB_PROD_index : Fld := ⟨0x60014, 0, 16⟩

/-! CDC.JOB_CONS (R172 of spec/05_frame_codec.md) -/
def F.CDC_JOB_CONS : Fld := ⟨0x60018, 0, 32⟩
/-- RO. Jobs started -/
def F.CDC_JOB_CONS_index : Fld := ⟨0x60018, 0, 16⟩

/-! CDC.JOB_DONE (R172 of spec/05_frame_codec.md) -/
def F.CDC_JOB_DONE : Fld := ⟨0x6001C, 0, 32⟩
/-- RO. Jobs ended -/
def F.CDC_JOB_DONE_index : Fld := ⟨0x6001C, 0, 16⟩

/-! CDC.CNT_CODED (R172 of spec/05_frame_codec.md) -/
def F.CDC_CNT_CODED : Fld := ⟨0x60020, 0, 32⟩
/-- RO. Blocks written in coded mode -/
def F.CDC_CNT_CODED_blocks : Fld := ⟨0x60020, 0, 32⟩

/-! CDC.CNT_RAW (R172 of spec/05_frame_codec.md) -/
def F.CDC_CNT_RAW : Fld := ⟨0x60024, 0, 32⟩
/-- RO. Blocks written in raw mode -/
def F.CDC_CNT_RAW_blocks : Fld := ⟨0x60024, 0, 32⟩

/-! CDC.CNT_CONST (R172 of spec/05_frame_codec.md) -/
def F.CDC_CNT_CONST : Fld := ⟨0x60028, 0, 32⟩
/-- RO. Blocks written in constant mode -/
def F.CDC_CNT_CONST_blocks : Fld := ⟨0x60028, 0, 32⟩

/-! CDC.CNT_VFAIL (R172 of spec/05_frame_codec.md) -/
def F.CDC_CNT_VFAIL : Fld := ⟨0x6002C, 0, 32⟩
/-- RO. Verification failures, R160 -/
def F.CDC_CNT_VFAIL_blocks : Fld := ⟨0x6002C, 0, 32⟩

/-! CDC.CNT_BERR (R172 of spec/05_frame_codec.md) -/
def F.CDC_CNT_BERR : Fld := ⟨0x60030, 0, 32⟩
/-- RO. Block errors in decode lanes -/
def F.CDC_CNT_BERR_blocks : Fld := ⟨0x60030, 0, 32⟩

/-! CDC.BERR_INFO (R172 of spec/05_frame_codec.md) -/
def F.CDC_BERR_INFO : Fld := ⟨0x60034, 0, 32⟩
/-- RO. Cause of the last block error, Table 5.4 -/
def F.CDC_BERR_INFO_cause : Fld := ⟨0x60034, 28, 4⟩
/-- RO. User code, Table 5.8 -/
def F.CDC_BERR_INFO_user : Fld := ⟨0x60034, 24, 4⟩
/-- RO. Decode lane -/
def F.CDC_BERR_INFO_lane : Fld := ⟨0x60034, 20, 4⟩
/-- RO. 0: GDDR6; 1: local store -/
def F.CDC_BERR_INFO_space : Fld := ⟨0x60034, 19, 1⟩

/-! CDC.BERR_ADDR_LO (R172 of spec/05_frame_codec.md) -/
def F.CDC_BERR_ADDR_LO : Fld := ⟨0x60038, 0, 32⟩
/-- RO. Block address bits 31:0 -/
def F.CDC_BERR_ADDR_LO_addr : Fld := ⟨0x60038, 0, 32⟩

/-! CDC.BERR_ADDR_HI (R172 of spec/05_frame_codec.md) -/
def F.CDC_BERR_ADDR_HI : Fld := ⟨0x6003C, 0, 32⟩
/-- RO. Block address bits 39:32 -/
def F.CDC_BERR_ADDR_HI_addr : Fld := ⟨0x6003C, 0, 8⟩

/-! SCN.COMMIT (R210 of spec/06_scanout.md) -/
def F.SCN_COMMIT : Fld := ⟨0x70000, 0, 32⟩
/-- RO. 1: last set failed the check, R202 -/
def F.SCN_COMMIT_err : Fld := ⟨0x70000, 3, 1⟩
/-- RO. 1: non-seamless transition in progress -/
def F.SCN_COMMIT_nsl : Fld := ⟨0x70000, 2, 1⟩
/-- RO. 1: a set has fields not yet in effect -/
def F.SCN_COMMIT_pending : Fld := ⟨0x70000, 1, 1⟩
/-- WO. 1: latch and commit the shadows, R198 -/
def F.SCN_COMMIT_go : Fld := ⟨0x70000, 0, 1⟩

/-! SCN.CTRL (R210 of spec/06_scanout.md) -/
def F.SCN_CTRL : Fld := ⟨0x70004, 0, 32⟩
/-- WO. 1: clear SCN counters -/
def F.SCN_CTRL_clr_cnt : Fld := ⟨0x70004, 0, 1⟩

/-! SCN.MODE (R210 of spec/06_scanout.md) -/
def F.SCN_MODE : Fld := ⟨0x70008, 0, 32⟩
/-- RWS. N. Scan direction, R176 -/
def F.SCN_MODE_dir : Fld := ⟨0x70008, 1, 1⟩
/-- RWS. N. 0 = EL, 1 = LC -/
def F.SCN_MODE_family : Fld := ⟨0x70008, 0, 1⟩

/-! SCN.ACTIVE (R210 of spec/06_scanout.md) -/
def F.SCN_ACTIVE : Fld := ⟨0x7000C, 0, 32⟩
/-- RWS. N. H − 1; reset 4,319 -/
def F.SCN_ACTIVE_height_m1 : Fld := ⟨0x7000C, 16, 13⟩
/-- RWS. N. W − 1; reset 7,679 -/
def F.SCN_ACTIVE_width_m1 : Fld := ⟨0x7000C, 0, 13⟩

/-! SCN.LINE (R210 of spec/06_scanout.md) -/
def F.SCN_LINE : Fld := ⟨0x70010, 0, 32⟩
/-- RWS. N. Line step, 1/65,536 tick; reset 93,090,909 -/
def F.SCN_LINE_q_min : Fld := ⟨0x70010, 0, 32⟩

/-! SCN.VBLANK (R210 of spec/06_scanout.md) -/
def F.SCN_VBLANK : Fld := ⟨0x70014, 0, 32⟩
/-- RWS. N. V_min in ticks; reset 113,636 -/
def F.SCN_VBLANK_v_min : Fld := ⟨0x70014, 0, 24⟩

/-! SCN.WMARK (R210 of spec/06_scanout.md) -/
def F.SCN_WMARK : Fld := ⟨0x70018, 0, 32⟩
/-- RWS. V. Low watermark, lines -/
def F.SCN_WMARK_low : Fld := ⟨0x70018, 16, 7⟩
/-- RWS. V. Middle watermark, lines -/
def F.SCN_WMARK_mid : Fld := ⟨0x70018, 8, 7⟩
/-- RWS. V. Critical watermark, lines -/
def F.SCN_WMARK_crit : Fld := ⟨0x70018, 0, 7⟩

/-! SCN.BG0 (R210 of spec/06_scanout.md) -/
def F.SCN_BG0 : Fld := ⟨0x7001C, 0, 32⟩
/-- RWS. V. Background green, linear -/
def F.SCN_BG0_g : Fld := ⟨0x7001C, 16, 16⟩
/-- RWS. V. Background red -/
def F.SCN_BG0_r : Fld := ⟨0x7001C, 0, 16⟩

/-! SCN.BG1 (R210 of spec/06_scanout.md) -/
def F.SCN_BG1 : Fld := ⟨0x70020, 0, 32⟩
/-- RWS. V. Background blue -/
def F.SCN_BG1_b : Fld := ⟨0x70020, 0, 16⟩

/-! SCN.STATUS (R210 of spec/06_scanout.md) -/
def F.SCN_STATUS : Fld := ⟨0x70024, 0, 32⟩
/-- RO. View of the write scan in progress; 15 = none -/
def F.SCN_STATUS_view : Fld := ⟨0x70024, 24, 4⟩
/-- RO. Bits [2ℓ + 1:2ℓ]: urgency of layer ℓ, Table 6.4 -/
def F.SCN_STATUS_urg : Fld := ⟨0x70024, 0, 8⟩

/-! SCN.LATENCY (R210 of spec/06_scanout.md) -/
def F.SCN_LATENCY : Fld := ⟨0x70028, 0, 32⟩
/-- RO. L_out, 49,152 -/
def F.SCN_LATENCY_ticks : Fld := ⟨0x70028, 0, 32⟩

/-! SCN.CNT_UNDERRUN (R210 of spec/06_scanout.md) -/
def F.SCN_CNT_UNDERRUN : Fld := ⟨0x70030, 0, 32⟩
/-- RO. Blocks substituted for underrun -/
def F.SCN_CNT_UNDERRUN_blocks : Fld := ⟨0x70030, 0, 32⟩

/-! SCN.CNT_REFETCH (R210 of spec/06_scanout.md) -/
def F.SCN_CNT_REFETCH : Fld := ⟨0x70034, 0, 32⟩
/-- RO. Refetches under R23 -/
def F.SCN_CNT_REFETCH_blocks : Fld := ⟨0x70034, 0, 32⟩

/-! SCN.CNT_CRCSUB (R210 of spec/06_scanout.md) -/
def F.SCN_CNT_CRCSUB : Fld := ⟨0x70038, 0, 32⟩
/-- RO. Blocks substituted after a block error -/
def F.SCN_CNT_CRCSUB_blocks : Fld := ⟨0x70038, 0, 32⟩

/-! SCN.CNT_SKIP (R210 of spec/06_scanout.md) -/
def F.SCN_CNT_SKIP : Fld := ⟨0x7003C, 0, 32⟩
/-- RO. Layer blocks not fetched, R193 -/
def F.SCN_CNT_SKIP_blocks : Fld := ⟨0x7003C, 0, 32⟩

/-! SCN.CNT_NSL (R210 of spec/06_scanout.md) -/
def F.SCN_CNT_NSL : Fld := ⟨0x70040, 0, 32⟩
/-- RO. Non-seamless transitions -/
def F.SCN_CNT_NSL_count : Fld := ⟨0x70040, 0, 32⟩

/-! SCN.UNDER_INFO (R210 of spec/06_scanout.md) -/
def F.SCN_UNDER_INFO : Fld := ⟨0x70044, 0, 32⟩
/-- RO. View of the last substitution -/
def F.SCN_UNDER_INFO_view : Fld := ⟨0x70044, 26, 3⟩
/-- RO. 0 = underrun, 1 = block error -/
def F.SCN_UNDER_INFO_cause : Fld := ⟨0x70044, 24, 2⟩
/-- RO. Block row -/
def F.SCN_UNDER_INFO_by : Fld := ⟨0x70044, 8, 8⟩
/-- RO. Block column -/
def F.SCN_UNDER_INFO_bx : Fld := ⟨0x70044, 0, 8⟩

/-! SCN.PRIM0 (R210 of spec/06_scanout.md) -/
def F.SCN_PRIM0 : Fld := ⟨0x70060, 0, 32⟩
/-- RWS. V. Matrix row 0, column 1, signed 2.14 -/
def F.SCN_PRIM0_m01 : Fld := ⟨0x70060, 16, 16⟩
/-- RWS. V. Row 0, column 0 -/
def F.SCN_PRIM0_m00 : Fld := ⟨0x70060, 0, 16⟩

/-! SCN.PRIM1 (R210 of spec/06_scanout.md) -/
def F.SCN_PRIM1 : Fld := ⟨0x70064, 0, 32⟩
/-- RWS. V. Row 1, column 0 -/
def F.SCN_PRIM1_m10 : Fld := ⟨0x70064, 16, 16⟩
/-- RWS. V. Row 0, column 2 -/
def F.SCN_PRIM1_m02 : Fld := ⟨0x70064, 0, 16⟩

/-! SCN.PRIM2 (R210 of spec/06_scanout.md) -/
def F.SCN_PRIM2 : Fld := ⟨0x70068, 0, 32⟩
/-- RWS. V. Row 1, column 2 -/
def F.SCN_PRIM2_m12 : Fld := ⟨0x70068, 16, 16⟩
/-- RWS. V. Row 1, column 1 -/
def F.SCN_PRIM2_m11 : Fld := ⟨0x70068, 0, 16⟩

/-! SCN.PRIM3 (R210 of spec/06_scanout.md) -/
def F.SCN_PRIM3 : Fld := ⟨0x7006C, 0, 32⟩
/-- RWS. V. Row 2, column 1 -/
def F.SCN_PRIM3_m21 : Fld := ⟨0x7006C, 16, 16⟩
/-- RWS. V. Row 2, column 0 -/
def F.SCN_PRIM3_m20 : Fld := ⟨0x7006C, 0, 16⟩

/-! SCN.PRIM4 (R210 of spec/06_scanout.md) -/
def F.SCN_PRIM4 : Fld := ⟨0x70070, 0, 32⟩
/-- RWS. V. Row 2, column 2 -/
def F.SCN_PRIM4_m22 : Fld := ⟨0x70070, 0, 16⟩

/-! SCN.LAYm_CFG (R210 of spec/06_scanout.md) -/
def F.SCN_LAY_CFG (i : Nat) : Fld := ⟨0x70200 + 16 * i, 0, 32⟩
/-- RWS. S. Content slot 0–19 -/
def F.SCN_LAY_CFG_slot (i : Nat) : Fld := ⟨0x70200 + 16 * i, 8, 5⟩
/-- RWS. S. 0 = 1×, 1 = 2× -/
def F.SCN_LAY_CFG_scale (i : Nat) : Fld := ⟨0x70200 + 16 * i, 1, 1⟩
/-- RWS. S. 1: layer enabled -/
def F.SCN_LAY_CFG_en (i : Nat) : Fld := ⟨0x70200 + 16 * i, 0, 1⟩

/-! SCN.LAYm_POS (R210 of spec/06_scanout.md) -/
def F.SCN_LAY_POS (i : Nat) : Fld := ⟨0x70204 + 16 * i, 0, 32⟩
/-- RWS. S. Top edge, signed, panel lines -/
def F.SCN_LAY_POS_y0 (i : Nat) : Fld := ⟨0x70204 + 16 * i, 16, 14⟩
/-- RWS. S. Left edge, signed, panel pixels -/
def F.SCN_LAY_POS_x0 (i : Nat) : Fld := ⟨0x70204 + 16 * i, 0, 14⟩

/-! SCN.LAYm_SIZE (R210 of spec/06_scanout.md) -/
def F.SCN_LAY_SIZE (i : Nat) : Fld := ⟨0x70208 + 16 * i, 0, 32⟩
/-- RWS. S. Rectangle height − 1 -/
def F.SCN_LAY_SIZE_h_m1 (i : Nat) : Fld := ⟨0x70208 + 16 * i, 16, 13⟩
/-- RWS. S. Rectangle width − 1 -/
def F.SCN_LAY_SIZE_w_m1 (i : Nat) : Fld := ⟨0x70208 + 16 * i, 0, 13⟩

/-! SCN.LAYm_ALPHA (R210 of spec/06_scanout.md) -/
def F.SCN_LAY_ALPHA (i : Nat) : Fld := ⟨0x7020C + 16 * i, 0, 32⟩
/-- RWS. V. Layer opacity -/
def F.SCN_LAY_ALPHA_g (i : Nat) : Fld := ⟨0x7020C + 16 * i, 0, 16⟩

/-! SCN.XFER1 (R210 of spec/06_scanout.md) -/
def F.SCN_XFER1 (i : Nat) : Fld := ⟨0x71000 + 4 * i, 0, 32⟩
/-- RW. Transfer table t, R185, R203 -/
def F.SCN_XFER1_entries (i : Nat) : Fld := ⟨0x71000 + 4 * i, 0, 32⟩

/-! SCN.XFER2 (R210 of spec/06_scanout.md) -/
def F.SCN_XFER2 (i : Nat) : Fld := ⟨0x73100 + 4 * i, 0, 32⟩
/-- RW. Transfer table t, R185, R203 -/
def F.SCN_XFER2_entries (i : Nat) : Fld := ⟨0x73100 + 4 * i, 0, 32⟩

/-! SCN.XFER3 (R210 of spec/06_scanout.md) -/
def F.SCN_XFER3 (i : Nat) : Fld := ⟨0x75200 + 4 * i, 0, 32⟩
/-- RW. Transfer table t, R185, R203 -/
def F.SCN_XFER3_entries (i : Nat) : Fld := ⟨0x75200 + 4 * i, 0, 32⟩

/-! SCN.PALn (R210 of spec/06_scanout.md) -/
def F.SCN_PAL (i : Nat) : Fld := ⟨0x78000 + 4 * i, 0, 32⟩
/-- RWS. V. Palette entry i, R187 -/
def F.SCN_PAL_words (i : Nat) : Fld := ⟨0x78000 + 4 * i, 0, 32⟩

/-! PPX.CTRL (R252 of spec/07_panel_processing.md) -/
def F.PPX_CTRL : Fld := ⟨0x80000, 0, 32⟩
/-- WO. 1: clear PPX counters -/
def F.PPX_CTRL_clr_cnt : Fld := ⟨0x80000, 0, 1⟩

/-! PPX.STATUS (R252 of spec/07_panel_processing.md) -/
def F.PPX_STATUS : Fld := ⟨0x80004, 0, 32⟩
/-- RO. 1: a write was ignored, R218, R252 -/
def F.PPX_STATUS_wr_ign : Fld := ⟨0x80004, 31, 1⟩
/-- RO. 1: no valid sensor -/
def F.PPX_STATUS_no_sensor : Fld := ⟨0x80004, 30, 1⟩
/-- RO. Latched band of the last refresh start -/
def F.PPX_STATUS_latched : Fld := ⟨0x80004, 27, 3⟩
/-- RO. Current band b -/
def F.PPX_STATUS_band : Fld := ⟨0x80004, 24, 3⟩

/-! PPX.CFG (R252 of spec/07_panel_processing.md) -/
def F.PPX_CFG : Fld := ⟨0x80008, 0, 32⟩
/-- RWS. h of R213 -/
def F.PPX_CFG_headroom : Fld := ⟨0x80008, 8, 3⟩
/-- RWS. 1: dither; 0: rounding -/
def F.PPX_CFG_dith_en : Fld := ⟨0x80008, 6, 1⟩
/-- RWS. Stage 5 enable -/
def F.PPX_CFG_od_en : Fld := ⟨0x80008, 5, 1⟩
/-- RWS. Stage 4 enable -/
def F.PPX_CFG_age_en : Fld := ⟨0x80008, 4, 1⟩
/-- RWS. Uniformity gain enable -/
def F.PPX_CFG_uni_en : Fld := ⟨0x80008, 3, 1⟩
/-- RWS. Output LUT enable -/
def F.PPX_CFG_out_en : Fld := ⟨0x80008, 2, 1⟩
/-- RWS. 3D LUT enable -/
def F.PPX_CFG_lut3d_en : Fld := ⟨0x80008, 1, 1⟩
/-- RWS. Input LUT enable -/
def F.PPX_CFG_in_en : Fld := ⟨0x80008, 0, 1⟩

/-! PPX.LUT_SEL (R252 of spec/07_panel_processing.md) -/
def F.PPX_LUT_SEL : Fld := ⟨0x8000C, 0, 32⟩
/-- RWS. Bit v: colour bank of view v -/
def F.PPX_LUT_SEL_bank : Fld := ⟨0x8000C, 0, 5⟩

/-! PPX.UNI (R252 of spec/07_panel_processing.md) -/
def F.PPX_UNI : Fld := ⟨0x80010, 0, 32⟩
/-- RWS. Uniformity surface, R219 -/
def F.PPX_UNI_surface : Fld := ⟨0x80010, 0, 10⟩

/-! PPX.OD (R252 of spec/07_panel_processing.md) -/
def F.PPX_OD : Fld := ⟨0x80014, 0, 32⟩
/-- RWS. Waveform start threshold, 12-bit units, 1–4,095 -/
def F.PPX_OD_thr : Fld := ⟨0x80014, 16, 12⟩
/-- RWS. L on LC, 1–3; 0 reserved -/
def F.PPX_OD_len : Fld := ⟨0x80014, 0, 2⟩

/-! PPX.ELWFk (R252 of spec/07_panel_processing.md) -/
def F.PPX_ELWF (i : Nat) : Fld := ⟨0x80018 + 4 * i, 0, 32⟩
/-- RWS. Band 2k + 1: n − 1 -/
def F.PPX_ELWF_n_m1_hi (i : Nat) : Fld := ⟨0x80018 + 4 * i, 24, 3⟩
/-- RWS. Band 2k + 1: mask -/
def F.PPX_ELWF_mask_hi (i : Nat) : Fld := ⟨0x80018 + 4 * i, 16, 8⟩
/-- RWS. Band 2k: n − 1 -/
def F.PPX_ELWF_n_m1_lo (i : Nat) : Fld := ⟨0x80018 + 4 * i, 8, 3⟩
/-- RWS. Band 2k: mask -/
def F.PPX_ELWF_mask_lo (i : Nat) : Fld := ⟨0x80018 + 4 * i, 0, 8⟩

/-! PPX.DITHER (R252 of spec/07_panel_processing.md) -/
def F.PPX_DITHER : Fld := ⟨0x80028, 0, 32⟩
/-- RWS. Line origin mod 64 -/
def F.PPX_DITHER_y_org : Fld := ⟨0x80028, 8, 6⟩
/-- RWS. Subpixel-column origin mod 64 -/
def F.PPX_DITHER_x_org : Fld := ⟨0x80028, 0, 6⟩

/-! PPX.TEMP_CFG (R252 of spec/07_panel_processing.md) -/
def F.PPX_TEMP_CFG : Fld := ⟨0x80030, 0, 32⟩
/-- RW. Seconds without a sensor before fallback, 1–255 -/
def F.PPX_TEMP_CFG_fail : Fld := ⟨0x80030, 24, 8⟩
/-- RW. Fallback band -/
def F.PPX_TEMP_CFG_fb_band : Fld := ⟨0x80030, 18, 3⟩
/-- RW. 0 = 100 kHz, 1 = 400 kHz -/
def F.PPX_TEMP_CFG_speed : Fld := ⟨0x80030, 17, 1⟩
/-- RW. 0 = mean, 1 = maximum -/
def F.PPX_TEMP_CFG_agg : Fld := ⟨0x80030, 16, 1⟩
/-- RW. Cycle period in ms, 10–10,000 -/
def F.PPX_TEMP_CFG_period : Fld := ⟨0x80030, 0, 16⟩

/-! PPX.TEMP_THR0 (R252 of spec/07_panel_processing.md) -/
def F.PPX_TEMP_THR0 : Fld := ⟨0x80034, 0, 32⟩
/-- RW. Signed, 1/16 °C -/
def F.PPX_TEMP_THR0_t1 : Fld := ⟨0x80034, 16, 16⟩

/-! PPX.TEMP_THR1 (R252 of spec/07_panel_processing.md) -/
def F.PPX_TEMP_THR1 : Fld := ⟨0x80038, 0, 32⟩
/-- RW. Signed, 1/16 °C -/
def F.PPX_TEMP_THR1_t3 : Fld := ⟨0x80038, 16, 16⟩
/-- RW. Signed, 1/16 °C -/
def F.PPX_TEMP_THR1_t2 : Fld := ⟨0x80038, 0, 16⟩

/-! PPX.TEMP_THR2 (R252 of spec/07_panel_processing.md) -/
def F.PPX_TEMP_THR2 : Fld := ⟨0x8003C, 0, 32⟩
/-- RW. Signed, 1/16 °C -/
def F.PPX_TEMP_THR2_t5 : Fld := ⟨0x8003C, 16, 16⟩
/-- RW. Signed, 1/16 °C -/
def F.PPX_TEMP_THR2_t4 : Fld := ⟨0x8003C, 0, 16⟩

/-! PPX.TEMP_THR3 (R252 of spec/07_panel_processing.md) -/
def F.PPX_TEMP_THR3 : Fld := ⟨0x80040, 0, 32⟩
/-- RW. Signed, 1/16 °C -/
def F.PPX_TEMP_THR3_t7 : Fld := ⟨0x80040, 16, 16⟩
/-- RW. Signed, 1/16 °C -/
def F.PPX_TEMP_THR3_t6 : Fld := ⟨0x80040, 0, 16⟩

/-! PPX.TEMP (R252 of spec/07_panel_processing.md) -/
def F.PPX_TEMP : Fld := ⟨0x80044, 0, 32⟩
/-- RO. T, signed 1/16 °C -/
def F.PPX_TEMP_panel : Fld := ⟨0x80044, 16, 16⟩
/-- RO. Hottest die sensor, signed 1/16 °C -/
def F.PPX_TEMP_die : Fld := ⟨0x80044, 0, 16⟩

/-! PPX.SNS_VALID (R252 of spec/07_panel_processing.md) -/
def F.PPX_SNS_VALID : Fld := ⟨0x80048, 0, 32⟩
/-- RO. Bit s: sensor s valid -/
def F.PPX_SNS_VALID_valid : Fld := ⟨0x80048, 0, 16⟩

/-! PPX.POL_MAPk (R252 of spec/07_panel_processing.md) -/
def F.PPX_POL_MAP (i : Nat) : Fld := ⟨0x80050 + 4 * i, 0, 32⟩
/-- RW, off. Common of group g = 10k + i in bits [3i + 2:3i]; groups above 23 reserved -/
def F.PPX_POL_MAP_com (i : Nat) : Fld := ⟨0x80050 + 4 * i, 0, 30⟩

/-! PPX.POL_STAT (R252 of spec/07_panel_processing.md) -/
def F.PPX_POL_STAT : Fld := ⟨0x8005C, 0, 32⟩
/-- RO. Bit c: phase of common c in the last refresh -/
def F.PPX_POL_STAT_phase : Fld := ⟨0x8005C, 16, 8⟩
/-- RO. Bits [2c + 1:2c]: B_c, 0b00 = 0, 0b01 = +1, 0b11 = −1 -/
def F.PPX_POL_STAT_balance : Fld := ⟨0x8005C, 0, 16⟩

/-! PPX.POLc_CFG (R252 of spec/07_panel_processing.md) -/
def F.PPX_POL_CFG (i : Nat) : Fld := ⟨0x80060 + 4 * i, 0, 32⟩
/-- RW, off. Signed positive offset, units of 16 -/
def F.PPX_POL_CFG_ofs_pos (i : Nat) : Fld := ⟨0x80060 + 4 * i, 24, 8⟩
/-- RW, off. Signed negative offset, units of 16 -/
def F.PPX_POL_CFG_ofs_neg (i : Nat) : Fld := ⟨0x80060 + 4 * i, 16, 8⟩
/-- RW, off. 1: R239 exception -/
def F.PPX_POL_CFG_view_bal (i : Nat) : Fld := ⟨0x80060 + 4 * i, 4, 1⟩
/-- RW, off. Phase of the first refresh -/
def F.PPX_POL_CFG_init (i : Nat) : Fld := ⟨0x80060 + 4 * i, 3, 1⟩
/-- RW, off. 1: common enabled -/
def F.PPX_POL_CFG_en (i : Nat) : Fld := ⟨0x80060 + 4 * i, 2, 1⟩
/-- RW, off. Table 7.6 -/
def F.PPX_POL_CFG_pattern (i : Nat) : Fld := ⟨0x80060 + 4 * i, 0, 2⟩

/-! PPX.SNSs (R252 of spec/07_panel_processing.md) -/
def F.PPX_SNS (i : Nat) : Fld := ⟨0x80080 + 4 * i, 0, 32⟩
/-- RO. Last reading, signed 1/16 °C -/
def F.PPX_SNS_temp (i : Nat) : Fld := ⟨0x80080 + 4 * i, 16, 16⟩
/-- RW. 1: read this sensor -/
def F.PPX_SNS_en (i : Nat) : Fld := ⟨0x80080 + 4 * i, 15, 1⟩
/-- RW. 7-bit address -/
def F.PPX_SNS_addr (i : Nat) : Fld := ⟨0x80080 + 4 * i, 8, 7⟩
/-- RW. Register pointer byte -/
def F.PPX_SNS_ptr (i : Nat) : Fld := ⟨0x80080 + 4 * i, 0, 8⟩

/-! PPX.BL_GRID (R252 of spec/07_panel_processing.md) -/
def F.PPX_BL_GRID : Fld := ⟨0x800C0, 0, 32⟩
/-- RW, off. BL_CLK: 0 = 50, 1 = 25, 2 = 12.5, 3 = 6.25 MHz -/
def F.PPX_BL_GRID_clk : Fld := ⟨0x800C0, 22, 2⟩
/-- RW, off. Zone rows − 1 -/
def F.PPX_BL_GRID_zr_m1 : Fld := ⟨0x800C0, 8, 7⟩
/-- RW, off. Zone columns − 1 -/
def F.PPX_BL_GRID_zc_m1 : Fld := ⟨0x800C0, 0, 7⟩

/-! PPX.BL_CFG (R252 of spec/07_panel_processing.md) -/
def F.PPX_BL_CFG : Fld := ⟨0x800C4, 0, 32⟩
/-- RWS. 1: zoned backlight and dimming factor -/
def F.PPX_BL_CFG_en : Fld := ⟨0x800C4, 31, 1⟩
/-- RWS. Lowest zone value, 1–4,095 -/
def F.PPX_BL_CFG_min : Fld := ⟨0x800C4, 16, 12⟩
/-- RWS. MAX weight, 0–256 -/
def F.PPX_BL_CFG_mix : Fld := ⟨0x800C4, 0, 9⟩

/-! PPX.BL_CNT (R252 of spec/07_panel_processing.md) -/
def F.PPX_BL_CNT : Fld := ⟨0x800C8, 0, 32⟩
/-- RO. Zone rows skipped, R246 -/
def F.PPX_BL_CNT_val_late : Fld := ⟨0x800C8, 16, 16⟩
/-- RO. Strobes latched late, R245 -/
def F.PPX_BL_CNT_strobe_late : Fld := ⟨0x800C8, 0, 16⟩

/-! PPX.TBL_SEL (R252 of spec/07_panel_processing.md) -/
def F.PPX_TBL_SEL : Fld := ⟨0x800D0, 0, 32⟩
/-- RW. Bank for tables 0–6 -/
def F.PPX_TBL_SEL_bank : Fld := ⟨0x800D0, 8, 1⟩
/-- RW. Table 7.3 -/
def F.PPX_TBL_SEL_table : Fld := ⟨0x800D0, 0, 4⟩

/-! PPX.TBL_IDX (R252 of spec/07_panel_processing.md) -/
def F.PPX_TBL_IDX : Fld := ⟨0x800D4, 0, 32⟩
/-- RW. Word index -/
def F.PPX_TBL_IDX_index : Fld := ⟨0x800D4, 0, 17⟩

/-! PPX.TBL_DATA (R252 of spec/07_panel_processing.md) -/
def F.PPX_TBL_DATA : Fld := ⟨0x800D8, 0, 32⟩
/-- RW. Table word; access increments index, R217 -/
def F.PPX_TBL_DATA_data : Fld := ⟨0x800D8, 0, 32⟩

/-! PPX.CNT_WF (R252 of spec/07_panel_processing.md) -/
def F.PPX_CNT_WF : Fld := ⟨0x800E0, 0, 32⟩
/-- RO. Waveform starts -/
def F.PPX_CNT_WF_starts : Fld := ⟨0x800E0, 0, 32⟩

/-! PPX.CNT_BAND (R252 of spec/07_panel_processing.md) -/
def F.PPX_CNT_BAND : Fld := ⟨0x800E4, 0, 32⟩
/-- RO. Band changes -/
def F.PPX_CNT_BAND_changes : Fld := ⟨0x800E4, 0, 32⟩

/-! PPX.CNT_SNSFAIL (R252 of spec/07_panel_processing.md) -/
def F.PPX_CNT_SNSFAIL : Fld := ⟨0x800E8, 0, 32⟩
/-- RO. Failed sensor reads -/
def F.PPX_CNT_SNSFAIL_reads : Fld := ⟨0x800E8, 0, 32⟩

/-! PPX.CNT_WR_IGN (R252 of spec/07_panel_processing.md) -/
def F.PPX_CNT_WR_IGN : Fld := ⟨0x800EC, 0, 32⟩
/-- RO. Ignored writes -/
def F.PPX_CNT_WR_IGN_writes : Fld := ⟨0x800EC, 0, 32⟩

/-! PPX.CRCr_RECT0 (R252 of spec/07_panel_processing.md) -/
def F.PPX_CRC_RECT0 (i : Nat) : Fld := ⟨0x80100 + 16 * i, 0, 32⟩
/-- RWS. Bit v: include passes of view v -/
def F.PPX_CRC_RECT0_views (i : Nat) : Fld := ⟨0x80100 + 16 * i, 27, 5⟩
/-- RWS. Top line -/
def F.PPX_CRC_RECT0_y0 (i : Nat) : Fld := ⟨0x80100 + 16 * i, 14, 13⟩
/-- RWS. Left pixel -/
def F.PPX_CRC_RECT0_x0 (i : Nat) : Fld := ⟨0x80100 + 16 * i, 0, 13⟩

/-! PPX.CRCr_RECT1 (R252 of spec/07_panel_processing.md) -/
def F.PPX_CRC_RECT1 (i : Nat) : Fld := ⟨0x80104 + 16 * i, 0, 32⟩
/-- RWS. Height − 1 -/
def F.PPX_CRC_RECT1_h_m1 (i : Nat) : Fld := ⟨0x80104 + 16 * i, 16, 13⟩
/-- RWS. Width − 1 -/
def F.PPX_CRC_RECT1_w_m1 (i : Nat) : Fld := ⟨0x80104 + 16 * i, 0, 13⟩

/-! PPX.CRCr (R252 of spec/07_panel_processing.md) -/
def F.PPX_CRC (i : Nat) : Fld := ⟨0x80108 + 16 * i, 0, 32⟩
/-- RO. Checksum of the last included pass -/
def F.PPX_CRC_crc (i : Nat) : Fld := ⟨0x80108 + 16 * i, 0, 32⟩

/-! PPX.CRCr_TAG (R252 of spec/07_panel_processing.md) -/
def F.PPX_CRC_TAG (i : Nat) : Fld := ⟨0x8010C + 16 * i, 0, 32⟩
/-- RO. View -/
def F.PPX_CRC_TAG_view (i : Nat) : Fld := ⟨0x8010C + 16 * i, 29, 3⟩
/-- RO. Pass ordinal k, 0–63 -/
def F.PPX_CRC_TAG_pass (i : Nat) : Fld := ⟨0x8010C + 16 * i, 23, 6⟩
/-- RO. Picture number bits 22:0 -/
def F.PPX_CRC_TAG_pic (i : Nat) : Fld := ⟨0x8010C + 16 * i, 0, 23⟩

/-! PPX.CAP_CTRL (R252 of spec/07_panel_processing.md) -/
def F.PPX_CAP_CTRL : Fld := ⟨0x80200, 0, 32⟩
/-- WO. 1: end the session -/
def F.PPX_CAP_CTRL_stop : Fld := ⟨0x80200, 1, 1⟩
/-- WO. 1: start a session, R249 -/
def F.PPX_CAP_CTRL_arm : Fld := ⟨0x80200, 0, 1⟩

/-! PPX.CAP_CFG (R252 of spec/07_panel_processing.md) -/
def F.PPX_CAP_CFG : Fld := ⟨0x80204, 0, 32⟩
/-- RW. Captures per session, 1–65,535 -/
def F.PPX_CAP_CFG_count : Fld := ⟨0x80204, 16, 16⟩
/-- RW. Capture every (every_m1 + 1)-th selected pass -/
def F.PPX_CAP_CFG_every_m1 : Fld := ⟨0x80204, 8, 8⟩
/-- RW. Bit v: capture passes of view v -/
def F.PPX_CAP_CFG_views : Fld := ⟨0x80204, 0, 5⟩

/-! PPX.CAP_BASE_LO (R252 of spec/07_panel_processing.md) -/
def F.PPX_CAP_BASE_LO : Fld := ⟨0x80208, 0, 32⟩
/-- RW. Buffer address bits 31:12 -/
def F.PPX_CAP_BASE_LO_addr : Fld := ⟨0x80208, 12, 20⟩

/-! PPX.CAP_BASE_HI (R252 of spec/07_panel_processing.md) -/
def F.PPX_CAP_BASE_HI : Fld := ⟨0x8020C, 0, 32⟩
/-- RW. Buffer address bits 39:32 -/
def F.PPX_CAP_BASE_HI_addr : Fld := ⟨0x8020C, 0, 8⟩

/-! PPX.CAP_LEN (R252 of spec/07_panel_processing.md) -/
def F.PPX_CAP_LEN : Fld := ⟨0x80210, 0, 32⟩
/-- RW. Buffer length in units of 4 KiB -/
def F.PPX_CAP_LEN_len : Fld := ⟨0x80210, 0, 32⟩

/-! PPX.CAP_REC (R252 of spec/07_panel_processing.md) -/
def F.PPX_CAP_REC : Fld := ⟨0x80214, 0, 32⟩
/-- RW. Record ring 2^log2n entries, 1–8 -/
def F.PPX_CAP_REC_log2n : Fld := ⟨0x80214, 24, 4⟩
/-- RW. Local-store offset, 32-byte aligned, outside the mailbox -/
def F.PPX_CAP_REC_offset : Fld := ⟨0x80214, 0, 24⟩

/-! PPX.CAP_STAT (R252 of spec/07_panel_processing.md) -/
def F.PPX_CAP_STAT : Fld := ⟨0x80218, 0, 32⟩
/-- RO. 0 = idle, 1 = session active, 2 = FULL -/
def F.PPX_CAP_STAT_state : Fld := ⟨0x80218, 30, 2⟩
/-- RO. Records written since arm, modulo 65,536 -/
def F.PPX_CAP_STAT_recs : Fld := ⟨0x80218, 0, 16⟩

/-! PPX.CAP_USED (R252 of spec/07_panel_processing.md) -/
def F.PPX_CAP_USED : Fld := ⟨0x8021C, 0, 32⟩
/-- RO. Buffer used, units of 64 bytes -/
def F.PPX_CAP_USED_granules : Fld := ⟨0x8021C, 0, 32⟩

/-! PPX.CAP_CNT (R252 of spec/07_panel_processing.md) -/
def F.PPX_CAP_CNT : Fld := ⟨0x80220, 0, 32⟩
/-- RO. Passes refused, R251 -/
def F.PPX_CAP_CNT_refused : Fld := ⟨0x80220, 16, 16⟩
/-- RO. Captures abandoned -/
def F.PPX_CAP_CNT_abandoned : Fld := ⟨0x80220, 0, 16⟩

/-! PPX.HISTv_BASE_LO (R252 of spec/07_panel_processing.md) -/
def F.PPX_HIST_BASE_LO (i : Nat) : Fld := ⟨0x80300 + 8 * i, 0, 32⟩
/-- RW, off. H[v] address bits 31:12; RGB 12-bit layout of R110 at panel size -/
def F.PPX_HIST_BASE_LO_addr (i : Nat) : Fld := ⟨0x80300 + 8 * i, 12, 20⟩

/-! PPX.HISTv_BASE_HI (R252 of spec/07_panel_processing.md) -/
def F.PPX_HIST_BASE_HI (i : Nat) : Fld := ⟨0x80304 + 8 * i, 0, 32⟩
/-- RW, off. H[v] address bits 39:32 -/
def F.PPX_HIST_BASE_HI_addr (i : Nat) : Fld := ⟨0x80304 + 8 * i, 0, 8⟩

/-! PPX.HHDR_BASE (R252 of spec/07_panel_processing.md) -/
def F.PPX_HHDR_BASE : Fld := ⟨0x80330, 0, 32⟩
/-- RW, off. Local-store offset of the history headers, 128 KiB aligned, R223 -/
def F.PPX_HHDR_BASE_offset : Fld := ⟨0x80330, 0, 24⟩

/-! AGE.CTRL (R284 of spec/08_ageing_compensation.md) -/
def F.AGE_CTRL : Fld := ⟨0x90000, 0, 32⟩
/-- WO. 1: clear AGE counters -/
def F.AGE_CTRL_clr_cnt : Fld := ⟨0x90000, 1, 1⟩
/-- WO. 1: start a checkpoint, R279 -/
def F.AGE_CTRL_ckpt : Fld := ⟨0x90000, 0, 1⟩

/-! AGE.CFG (R284 of spec/08_ageing_compensation.md) -/
def F.AGE_CFG : Fld := ⟨0x90004, 0, 32⟩
/-- RW. 1: rebuild slot 20, R274 -/
def F.AGE_CFG_rb_en : Fld := ⟨0x90004, 2, 1⟩
/-- RW. 1: Drizzle sensing, R264 -/
def F.AGE_CFG_drz_en : Fld := ⟨0x90004, 1, 1⟩
/-- RW. 1: stress accumulation -/
def F.AGE_CFG_acc_en : Fld := ⟨0x90004, 0, 1⟩

/-! AGE.STATUS (R284 of spec/08_ageing_compensation.md) -/
def F.AGE_STATUS : Fld := ⟨0x90008, 0, 32⟩
/-- RO. 1: engine active, R284 -/
def F.AGE_STATUS_run : Fld := ⟨0x90008, 31, 1⟩
/-- RO. 1: checkpoint in progress -/
def F.AGE_STATUS_ckpt_busy : Fld := ⟨0x90008, 30, 1⟩
/-- RO. 1: no valid checkpoint at start -/
def F.AGE_STATUS_ckpt_none : Fld := ⟨0x90008, 29, 1⟩
/-- RO. Slot of the newest valid checkpoint -/
def F.AGE_STATUS_newest : Fld := ⟨0x90008, 28, 1⟩
/-- RO. 1: a trigger is held -/
def F.AGE_STATUS_ckpt_held : Fld := ⟨0x90008, 27, 1⟩
/-- RO. 1: a write was ignored -/
def F.AGE_STATUS_wr_ign : Fld := ⟨0x90008, 26, 1⟩

/-! AGE.STRESS_LO (R284 of spec/08_ageing_compensation.md) -/
def F.AGE_STRESS_LO : Fld := ⟨0x9000C, 0, 32⟩
/-- RW, stop. Stress surface address bits 31:12 -/
def F.AGE_STRESS_LO_addr : Fld := ⟨0x9000C, 12, 20⟩

/-! AGE.STRESS_HI (R284 of spec/08_ageing_compensation.md) -/
def F.AGE_STRESS_HI : Fld := ⟨0x90010, 0, 32⟩
/-- RW, stop. Address bits 39:32 -/
def F.AGE_STRESS_HI_addr : Fld := ⟨0x90010, 0, 8⟩

/-! AGE.SEED (R284 of spec/08_ageing_compensation.md) -/
def F.AGE_SEED : Fld := ⟨0x90014, 0, 32⟩
/-- RW, stop. Dither word seed, non-zero, R257 -/
def F.AGE_SEED_seed : Fld := ⟨0x90014, 0, 31⟩

/-! AGE.MODEL (R284 of spec/08_ageing_compensation.md) -/
def F.AGE_MODEL : Fld := ⟨0x90018, 0, 32⟩
/-- RW, stop. Curve segment shift, 16–27 -/
def F.AGE_MODEL_sh : Fld := ⟨0x90018, 16, 5⟩
/-- RW, stop. Threshold weight, 0–256 -/
def F.AGE_MODEL_mix : Fld := ⟨0x90018, 0, 9⟩

/-! AGE.BLEND (R284 of spec/08_ageing_compensation.md) -/
def F.AGE_BLEND : Fld := ⟨0x9001C, 0, 32⟩
/-- RW, stop. Blend weight β, 0–256 -/
def F.AGE_BLEND_beta : Fld := ⟨0x9001C, 0, 9⟩

/-! AGE.MAX_DEV (R284 of spec/08_ageing_compensation.md) -/
def F.AGE_MAX_DEV : Fld := ⟨0x90020, 0, 32⟩
/-- RW, stop. Outlier limit, counter units -/
def F.AGE_MAX_DEV_units : Fld := ⟨0x90020, 0, 32⟩

/-! AGE.BASE (R284 of spec/08_ageing_compensation.md) -/
def F.AGE_BASE : Fld := ⟨0x90024, 0, 32⟩
/-- RW, stop. Threshold baseline surface -/
def F.AGE_BASE_base_t : Fld := ⟨0x90024, 16, 10⟩
/-- RW, stop. Efficiency baseline surface -/
def F.AGE_BASE_base_e : Fld := ⟨0x90024, 0, 10⟩

/-! AGE.CMP_SURF (R284 of spec/08_ageing_compensation.md) -/
def F.AGE_CMP_SURF : Fld := ⟨0x90028, 0, 32⟩
/-- RW, stop. Compensation surface X1 -/
def F.AGE_CMP_SURF_surf1 : Fld := ⟨0x90028, 16, 10⟩
/-- RW, stop. Compensation surface X0 -/
def F.AGE_CMP_SURF_surf0 : Fld := ⟨0x90028, 0, 10⟩

/-! AGE.REBUILD (R284 of spec/08_ageing_compensation.md) -/
def F.AGE_REBUILD : Fld := ⟨0x9002C, 0, 32⟩
/-- RW. Blocks examined per picture period, 1–65,535 -/
def F.AGE_REBUILD_per_pic : Fld := ⟨0x9002C, 0, 16⟩

/-! AGE.DRZ_CFG (R284 of spec/08_ageing_compensation.md) -/
def F.AGE_DRZ_CFG : Fld := ⟨0x90030, 0, 32⟩
/-- RW, stop. Failures before a row is skipped, 1–15 -/
def F.AGE_DRZ_CFG_retry : Fld := ⟨0x90030, 28, 4⟩
/-- RW, stop. Rows per window and token limit, 1–8 -/
def F.AGE_DRZ_CFG_max_rows : Fld := ⟨0x90030, 16, 4⟩
/-- RW, stop. Token interval in ms; reset 1,666 -/
def F.AGE_DRZ_CFG_gap_ms : Fld := ⟨0x90030, 0, 16⟩

/-! AGE.DRZ_TIME (R284 of spec/08_ageing_compensation.md) -/
def F.AGE_DRZ_TIME : Fld := ⟨0x90034, 0, 32⟩
/-- RW, stop. Sense slot per row; reset 12,000 -/
def F.AGE_DRZ_TIME_row_ticks : Fld := ⟨0x90034, 16, 16⟩
/-- RW, stop. Sense-mode switch time; reset 1,500 -/
def F.AGE_DRZ_TIME_setup : Fld := ⟨0x90034, 0, 16⟩

/-! AGE.DRZ_SCALE (R284 of spec/08_ageing_compensation.md) -/
def F.AGE_DRZ_SCALE : Fld := ⟨0x90038, 0, 32⟩
/-- RW, stop. Threshold scale, 1/256 -/
def F.AGE_DRZ_SCALE_t_scale : Fld := ⟨0x90038, 0, 16⟩

/-! AGE.DRZ_STAT (R284 of spec/08_ageing_compensation.md) -/
def F.AGE_DRZ_STAT : Fld := ⟨0x9003C, 0, 32⟩
/-- RO. Tokens held -/
def F.AGE_DRZ_STAT_tokens : Fld := ⟨0x9003C, 16, 4⟩
/-- RO. Next row to sense -/
def F.AGE_DRZ_STAT_cursor : Fld := ⟨0x9003C, 0, 13⟩

/-! AGE.SWEEP (R284 of spec/08_ageing_compensation.md) -/
def F.AGE_SWEEP : Fld := ⟨0x90040, 0, 32⟩
/-- RO. Duration of the last complete sweep -/
def F.AGE_SWEEP_seconds : Fld := ⟨0x90040, 0, 32⟩

/-! AGE.SWEEP_CNT (R284 of spec/08_ageing_compensation.md) -/
def F.AGE_SWEEP_CNT : Fld := ⟨0x90044, 0, 32⟩
/-- RO. Sweeps completed -/
def F.AGE_SWEEP_CNT_sweeps : Fld := ⟨0x90044, 0, 32⟩

/-! AGE.CKPT_CFG (R284 of spec/08_ageing_compensation.md) -/
def F.AGE_CKPT_CFG : Fld := ⟨0x90048, 0, 32⟩
/-- RW. Shutdown wait in s, 1–255; reset 120 -/
def F.AGE_CKPT_CFG_shut_max : Fld := ⟨0x90048, 24, 8⟩
/-- RW. Retry delay in minutes, 1–255 -/
def F.AGE_CKPT_CFG_retry : Fld := ⟨0x90048, 16, 8⟩
/-- RW. Emission minutes per checkpoint, 1–65,535; reset 240 -/
def F.AGE_CKPT_CFG_interval : Fld := ⟨0x90048, 0, 16⟩

/-! AGE.CKPT_SLOT0 (R284 of spec/08_ageing_compensation.md) -/
def F.AGE_CKPT_SLOT0 : Fld := ⟨0x9004C, 0, 32⟩
/-- RW, stop. Slot 0 length, 64 KiB units -/
def F.AGE_CKPT_SLOT0_len : Fld := ⟨0x9004C, 16, 16⟩
/-- RW, stop. Slot 0 flash offset, 64 KiB units -/
def F.AGE_CKPT_SLOT0_base : Fld := ⟨0x9004C, 0, 16⟩

/-! AGE.CKPT_SLOT1 (R284 of spec/08_ageing_compensation.md) -/
def F.AGE_CKPT_SLOT1 : Fld := ⟨0x90050, 0, 32⟩
/-- RW, stop. Slot 1 length, 64 KiB units -/
def F.AGE_CKPT_SLOT1_len : Fld := ⟨0x90050, 16, 16⟩
/-- RW, stop. Slot 1 flash offset, 64 KiB units -/
def F.AGE_CKPT_SLOT1_base : Fld := ⟨0x90050, 0, 16⟩

/-! AGE.CKPT_SEQ_LO (R284 of spec/08_ageing_compensation.md) -/
def F.AGE_CKPT_SEQ_LO : Fld := ⟨0x90054, 0, 32⟩
/-- RO. Newest valid seq, bits 31:0 -/
def F.AGE_CKPT_SEQ_LO_seq : Fld := ⟨0x90054, 0, 32⟩

/-! AGE.CKPT_SEQ_HI (R284 of spec/08_ageing_compensation.md) -/
def F.AGE_CKPT_SEQ_HI : Fld := ⟨0x90058, 0, 32⟩
/-- RO. Bits 63:32 -/
def F.AGE_CKPT_SEQ_HI_seq : Fld := ⟨0x90058, 0, 32⟩

/-! AGE.EMIT_SINCE (R284 of spec/08_ageing_compensation.md) -/
def F.AGE_EMIT_SINCE : Fld := ⟨0x9005C, 0, 32⟩
/-- RO. Emission time since the last checkpoint start -/
def F.AGE_EMIT_SINCE_seconds : Fld := ⟨0x9005C, 0, 32⟩

/-! AGE.CNT_ROWS (R284 of spec/08_ageing_compensation.md) -/
def F.AGE_CNT_ROWS : Fld := ⟨0x90060, 0, 32⟩
/-- RO. Rows skipped, R267 -/
def F.AGE_CNT_ROWS_skipped : Fld := ⟨0x90060, 16, 16⟩
/-- RO. Row retries -/
def F.AGE_CNT_ROWS_retried : Fld := ⟨0x90060, 0, 16⟩

/-! AGE.CNT_SENSED (R284 of spec/08_ageing_compensation.md) -/
def F.AGE_CNT_SENSED : Fld := ⟨0x90064, 0, 32⟩
/-- RO. Rows sensed -/
def F.AGE_CNT_SENSED_rows : Fld := ⟨0x90064, 0, 32⟩

/-! AGE.CNT_OUTLIER (R284 of spec/08_ageing_compensation.md) -/
def F.AGE_CNT_OUTLIER : Fld := ⟨0x90068, 0, 32⟩
/-- RO. Outliers, R272 -/
def F.AGE_CNT_OUTLIER_subpixels : Fld := ⟨0x90068, 0, 32⟩

/-! AGE.CNT_INVALID (R284 of spec/08_ageing_compensation.md) -/
def F.AGE_CNT_INVALID : Fld := ⟨0x9006C, 0, 32⟩
/-- RO. Results not blended, R270 -/
def F.AGE_CNT_INVALID_subpixels : Fld := ⟨0x9006C, 0, 32⟩

/-! AGE.CNT_WIN (R284 of spec/08_ageing_compensation.md) -/
def F.AGE_CNT_WIN : Fld := ⟨0x90070, 0, 32⟩
/-- RO. Dark windows declined -/
def F.AGE_CNT_WIN_declined : Fld := ⟨0x90070, 16, 16⟩
/-- RO. Dark windows used -/
def F.AGE_CNT_WIN_used : Fld := ⟨0x90070, 0, 16⟩

/-! AGE.CNT_CKPT (R284 of spec/08_ageing_compensation.md) -/
def F.AGE_CNT_CKPT : Fld := ⟨0x90074, 0, 32⟩
/-- RO. Checkpoints failed -/
def F.AGE_CNT_CKPT_failed : Fld := ⟨0x90074, 24, 8⟩
/-- RO. Torn slots found at start -/
def F.AGE_CNT_CKPT_torn : Fld := ⟨0x90074, 16, 8⟩
/-- RO. Checkpoints made valid -/
def F.AGE_CNT_CKPT_written : Fld := ⟨0x90074, 0, 16⟩

/-! AGE.CNT_BLK (R284 of spec/08_ageing_compensation.md) -/
def F.AGE_CNT_BLK : Fld := ⟨0x90078, 0, 32⟩
/-- RO. Slot-20 blocks submitted -/
def F.AGE_CNT_BLK_blocks : Fld := ⟨0x90078, 0, 32⟩

/-! AGE.CNT_SAT (R284 of spec/08_ageing_compensation.md) -/
def F.AGE_CNT_SAT : Fld := ⟨0x9007C, 0, 32⟩
/-- RO. Increments lost at saturation -/
def F.AGE_CNT_SAT_increments : Fld := ⟨0x9007C, 0, 32⟩

/-! AGE.CNT_WR_IGN (R284 of spec/08_ageing_compensation.md) -/
def F.AGE_CNT_WR_IGN : Fld := ⟨0x90080, 0, 32⟩
/-- RO. Ignored writes -/
def F.AGE_CNT_WR_IGN_writes : Fld := ⟨0x90080, 0, 32⟩

/-! AGE.TBL_SEL (R284 of spec/08_ageing_compensation.md) -/
def F.AGE_TBL_SEL : Fld := ⟨0x90084, 0, 32⟩
/-- RW. 0 = weights, 1 = efficiency, 2 = threshold; 3 reserved -/
def F.AGE_TBL_SEL_table : Fld := ⟨0x90084, 0, 2⟩

/-! AGE.TBL_IDX (R284 of spec/08_ageing_compensation.md) -/
def F.AGE_TBL_IDX : Fld := ⟨0x90088, 0, 32⟩
/-- RW. Word index -/
def F.AGE_TBL_IDX_index : Fld := ⟨0x90088, 0, 6⟩

/-! AGE.TBL_DATA (R284 of spec/08_ageing_compensation.md) -/
def F.AGE_TBL_DATA : Fld := ⟨0x9008C, 0, 32⟩
/-- RW, stop. Table entry; each access increments the index -/
def F.AGE_TBL_DATA_data : Fld := ⟨0x9008C, 0, 16⟩

/-! DRV.CTRL (R319 of spec/09_panel_drive.md) -/
def F.DRV_CTRL : Fld := ⟨0xA0000, 0, 32⟩
/-- WO. 1: send the driver table, R300 -/
def F.DRV_CTRL_send_cfg : Fld := ⟨0xA0000, 2, 1⟩
/-- WO. 1: train all groups in use -/
def F.DRV_CTRL_retrain : Fld := ⟨0xA0000, 1, 1⟩
/-- WO. 1: clear DRV counters -/
def F.DRV_CTRL_clr_cnt : Fld := ⟨0xA0000, 0, 1⟩

/-! DRV.CFG (R319 of spec/09_panel_drive.md) -/
def F.DRV_CFG : Fld := ⟨0xA0004, 0, 32⟩
/-- RW, off. Table 9.1 -/
def F.DRV_CFG_rate : Fld := ⟨0xA0004, 16, 4⟩
/-- RW, off. 1: D = 12; 0: D = 10 -/
def F.DRV_CFG_d12 : Fld := ⟨0xA0004, 15, 1⟩
/-- RW, off. 0 = RGB, 1 = BGR -/
def F.DRV_CFG_order : Fld := ⟨0xA0004, 14, 1⟩
/-- RW, off. Channels per driver; reset 960 -/
def F.DRV_CFG_n_ch : Fld := ⟨0xA0004, 0, 11⟩

/-! DRV.GROUPS (R319 of spec/09_panel_drive.md) -/
def F.DRV_GROUPS : Fld := ⟨0xA0008, 0, 32⟩
/-- RW, off. Bit g: group g in use -/
def F.DRV_GROUPS_en : Fld := ⟨0xA0008, 0, 24⟩

/-! DRV.STATUS (R319 of spec/09_panel_drive.md) -/
def F.DRV_STATUS : Fld := ⟨0xA000C, 0, 32⟩
/-- RO. 1: training in progress -/
def F.DRV_STATUS_training : Fld := ⟨0xA000C, 31, 1⟩
/-- RO. 1: enable held, R301 -/
def F.DRV_STATUS_re_pend : Fld := ⟨0xA000C, 30, 1⟩
/-- RO. 1: driver table being sent -/
def F.DRV_STATUS_cfg_busy : Fld := ⟨0xA000C, 29, 1⟩
/-- RO. 1: a write was ignored -/
def F.DRV_STATUS_wr_ign : Fld := ⟨0xA000C, 28, 1⟩
/-- RO. Bit g: group g up -/
def F.DRV_STATUS_up : Fld := ⟨0xA000C, 0, 24⟩

/-! DRV.GRP_FAIL (R319 of spec/09_panel_drive.md) -/
def F.DRV_GRP_FAIL : Fld := ⟨0xA0010, 0, 32⟩
/-- RO. Bit g: group g failed -/
def F.DRV_GRP_FAIL_failed : Fld := ⟨0xA0010, 0, 24⟩

/-! DRV.SLOT (R319 of spec/09_panel_drive.md) -/
def F.DRV_SLOT : Fld := ⟨0xA0014, 0, 32⟩
/-- RO. T_row in ticks -/
def F.DRV_SLOT_t_row : Fld := ⟨0xA0014, 16, 16⟩
/-- RO. Q0 in ticks -/
def F.DRV_SLOT_q0 : Fld := ⟨0xA0014, 0, 16⟩

/-! DRV.TAKEOVER (R319 of spec/09_panel_drive.md) -/
def F.DRV_TAKEOVER : Fld := ⟨0xA0018, 0, 32⟩
/-- RW. Driver CRC failures per poll for takeover; 0 = never -/
def F.DRV_TAKEOVER_rx_thr : Fld := ⟨0xA0018, 8, 8⟩
/-- RW. Monitor detections per slot for takeover, 1–255 -/
def F.DRV_TAKEOVER_tx_thr : Fld := ⟨0xA0018, 0, 8⟩

/-! DRV.TRAIN (R319 of spec/09_panel_drive.md) -/
def F.DRV_TRAIN : Fld := ⟨0xA001C, 0, 32⟩
/-- RW. Step 3 limit in ms, 1–255 -/
def F.DRV_TRAIN_timeout : Fld := ⟨0xA001C, 16, 8⟩
/-- RW. Step 2 duration in µs -/
def F.DRV_TRAIN_t_cdr : Fld := ⟨0xA001C, 0, 16⟩

/-! DRV.GRPg_STAT (R319 of spec/09_panel_drive.md) -/
def F.DRV_GRP_STAT (i : Nat) : Fld := ⟨0xA0020 + 4 * i, 0, 32⟩
/-- RO. 1: group up -/
def F.DRV_GRP_STAT_up (i : Nat) : Fld := ⟨0xA0020 + 4 * i, 31, 1⟩
/-- RO. 1: spare usable -/
def F.DRV_GRP_STAT_spare_ok (i : Nat) : Fld := ⟨0xA0020 + 4 * i, 30, 1⟩
/-- RO. 1: spare stands in -/
def F.DRV_GRP_STAT_spare_active (i : Nat) : Fld := ⟨0xA0020 + 4 * i, 29, 1⟩
/-- RO. Logical lane on the spare -/
def F.DRV_GRP_STAT_spare_lane (i : Nat) : Fld := ⟨0xA0020 + 4 * i, 27, 2⟩
/-- RO. Monitor detections -/
def F.DRV_GRP_STAT_tx_err (i : Nat) : Fld := ⟨0xA0020 + 4 * i, 16, 8⟩
/-- RO. Driver-reported CRC failures -/
def F.DRV_GRP_STAT_rx_err (i : Nat) : Fld := ⟨0xA0020 + 4 * i, 8, 8⟩
/-- RO. Back-channel frames not good -/
def F.DRV_GRP_STAT_bc_err (i : Nat) : Fld := ⟨0xA0020 + 4 * i, 0, 8⟩

/-! DRV.BACK (R319 of spec/09_panel_drive.md) -/
def F.DRV_BACK : Fld := ⟨0xA0080, 0, 32⟩
/-- RW. Status poll interval in ms, 1–255 -/
def F.DRV_BACK_poll_ms : Fld := ⟨0xA0080, 24, 8⟩
/-- RW. Re-requests, 0–15 -/
def F.DRV_BACK_retries : Fld := ⟨0xA0080, 20, 4⟩
/-- RW. Bit times between frames, 8–255 -/
def F.DRV_BACK_guard : Fld := ⟨0xA0080, 0, 8⟩

/-! DRV.SENSE (R319 of spec/09_panel_drive.md) -/
def F.DRV_SENSE : Fld := ⟨0xA0084, 0, 32⟩
/-- RW. Sense level -/
def F.DRV_SENSE_level : Fld := ⟨0xA0084, 16, 16⟩
/-- RW. 1: measure threshold -/
def F.DRV_SENSE_meas_t : Fld := ⟨0xA0084, 1, 1⟩
/-- RW. 1: measure efficiency -/
def F.DRV_SENSE_meas_e : Fld := ⟨0xA0084, 0, 1⟩

/-! DRV.DCFG_BASE (R319 of spec/09_panel_drive.md) -/
def F.DRV_DCFG_BASE : Fld := ⟨0xA0088, 0, 32⟩
/-- RW. Local-store offset of the driver table, 4-byte aligned, outside the mailbox -/
def F.DRV_DCFG_BASE_offset : Fld := ⟨0xA0088, 0, 24⟩

/-! DRV.DCFG_LEN (R319 of spec/09_panel_drive.md) -/
def F.DRV_DCFG_LEN : Fld := ⟨0xA008C, 0, 32⟩
/-- RW. Table length in words -/
def F.DRV_DCFG_LEN_words : Fld := ⟨0xA008C, 0, 13⟩

/-! DRV.GATE (R319 of spec/09_panel_drive.md) -/
def F.DRV_GATE : Fld := ⟨0xA0090, 0, 32⟩
/-- RW, off. GCK phases − 1 -/
def F.DRV_GATE_nph_m1 : Fld := ⟨0xA0090, 0, 3⟩

/-! DRV.T_GATEk (R319 of spec/09_panel_drive.md) -/
def F.DRV_T_GATE (i : Nat) : Fld := ⟨0xA00A0 + 4 * i, 0, 32⟩
/-- RW, off. Signed end offset, ticks -/
def F.DRV_T_GATE_off (i : Nat) : Fld := ⟨0xA00A0 + 4 * i, 16, 16⟩
/-- RW, off. Signed start offset, ticks -/
def F.DRV_T_GATE_on (i : Nat) : Fld := ⟨0xA00A0 + 4 * i, 0, 16⟩

/-! DRV.T_RA (R319 of spec/09_panel_drive.md) -/
def F.DRV_T_RA : Fld := ⟨0xA00B4, 0, 32⟩
/-- RW, off. RA set-up before t_s, ticks -/
def F.DRV_T_RA_setup : Fld := ⟨0xA00B4, 0, 16⟩

/-! DRV.GTn_CFG (R319 of spec/09_panel_drive.md) -/
def F.DRV_GT_CFG (i : Nat) : Fld := ⟨0xA0100 + 4 * i, 0, 32⟩
/-- RW, off. 1: invert -/
def F.DRV_GT_CFG_inv (i : Nat) : Fld := ⟨0xA0100 + 4 * i, 7, 1⟩
/-- RW, off. Phase or address bit -/
def F.DRV_GT_CFG_sel (i : Nat) : Fld := ⟨0xA0100 + 4 * i, 3, 4⟩
/-- RW, off. Table 9.8 -/
def F.DRV_GT_CFG_func (i : Nat) : Fld := ⟨0xA0100 + 4 * i, 0, 3⟩

/-! DRV.EMn_CFG (R319 of spec/09_panel_drive.md) -/
def F.DRV_EM_CFG (i : Nat) : Fld := ⟨0xA0180 + 4 * i, 0, 32⟩
/-- RW, off. 1: invert -/
def F.DRV_EM_CFG_inv (i : Nat) : Fld := ⟨0xA0180 + 4 * i, 7, 1⟩
/-- RW, off. Chain -/
def F.DRV_EM_CFG_sel (i : Nat) : Fld := ⟨0xA0180 + 4 * i, 4, 3⟩
/-- RW, off. Table 9.9; 5–7 reserved -/
def F.DRV_EM_CFG_func (i : Nat) : Fld := ⟨0xA0180 + 4 * i, 0, 3⟩

/-! DRV.EM (R319 of spec/09_panel_drive.md) -/
def F.DRV_EM : Fld := ⟨0xA01C0, 0, 32⟩
/-- RW, off. Bit c: chain c is an ON chain -/
def F.DRV_EM_on_mask : Fld := ⟨0xA01C0, 16, 8⟩
/-- RW, off. GOFF width, ticks -/
def F.DRV_EM_gw : Fld := ⟨0xA01C0, 8, 8⟩
/-- RW, off. Least chain clock spacing, 2–255 -/
def F.DRV_EM_min_clk : Fld := ⟨0xA01C0, 0, 8⟩

/-! DRV.CNT_TAKEOVER (R319 of spec/09_panel_drive.md) -/
def F.DRV_CNT_TAKEOVER : Fld := ⟨0xA01D0, 0, 32⟩
/-- RO. Takeovers -/
def F.DRV_CNT_TAKEOVER_count : Fld := ⟨0xA01D0, 0, 32⟩

/-! DRV.CNT_EMDROP (R319 of spec/09_panel_drive.md) -/
def F.DRV_CNT_EMDROP : Fld := ⟨0xA01D4, 0, 32⟩
/-- RO. Passes with emission dropped -/
def F.DRV_CNT_EMDROP_passes : Fld := ⟨0xA01D4, 0, 32⟩

/-! DRV.CNT_BCERR (R319 of spec/09_panel_drive.md) -/
def F.DRV_CNT_BCERR : Fld := ⟨0xA01D8, 0, 32⟩
/-- RO. Back-channel frames not good -/
def F.DRV_CNT_BCERR_frames : Fld := ⟨0xA01D8, 0, 32⟩

/-! DRV.CNT_WR_IGN (R319 of spec/09_panel_drive.md) -/
def F.DRV_CNT_WR_IGN : Fld := ⟨0xA01DC, 0, 32⟩
/-- RO. Ignored writes -/
def F.DRV_CNT_WR_IGN_writes : Fld := ⟨0xA01DC, 0, 32⟩

/-! PSQ.CTRL (R347 of spec/10_panel_power_integrity.md) -/
def F.PSQ_CTRL : Fld := ⟨0xB0000, 0, 32⟩
/-- WO. 1: clear PSQ counters -/
def F.PSQ_CTRL_clr_cnt : Fld := ⟨0xB0000, 3, 1⟩
/-- WO. 1 with off: checkpoint, R334 -/
def F.PSQ_CTRL_ckpt : Fld := ⟨0xB0000, 2, 1⟩
/-- WO. 1: orderly power-off -/
def F.PSQ_CTRL_off : Fld := ⟨0xB0000, 1, 1⟩
/-- WO. 1: power-on, R324 -/
def F.PSQ_CTRL_on : Fld := ⟨0xB0000, 0, 1⟩

/-! PSQ.CFG (R347 of spec/10_panel_power_integrity.md) -/
def F.PSQ_CFG : Fld := ⟨0xB0004, 0, 32⟩
/-- RW. 1: rail fault in ON or BLACK_OFF powers off -/
def F.PSQ_CFG_pg_react : Fld := ⟨0xB0004, 8, 1⟩
/-- RW, off. 1: crack pre-check -/
def F.PSQ_CFG_pre_chk : Fld := ⟨0xB0004, 5, 1⟩
/-- RW, off. 1: power-on at start-up -/
def F.PSQ_CFG_auto : Fld := ⟨0xB0004, 4, 1⟩

/-! PSQ.STATUS (R347 of spec/10_panel_power_integrity.md) -/
def F.PSQ_STATUS : Fld := ⟨0xB0008, 0, 32⟩
/-- RO. 1: a write was ignored -/
def F.PSQ_STATUS_wr_ign : Fld := ⟨0xB0008, 31, 1⟩
/-- RO. 1: enable held, R339 -/
def F.PSQ_STATUS_re_pend : Fld := ⟨0xB0008, 30, 1⟩
/-- RO. 1: PMB_ALERT_N low -/
def F.PSQ_STATUS_alert : Fld := ⟨0xB0008, 29, 1⟩
/-- RO. 1: emission on -/
def F.PSQ_STATUS_emit : Fld := ⟨0xB0008, 28, 1⟩
/-- RO. 1: waiting for checkpoint -/
def F.PSQ_STATUS_ckpt_wait : Fld := ⟨0xB0008, 27, 1⟩
/-- RO. Counted RAIL_PG levels -/
def F.PSQ_STATUS_pg : Fld := ⟨0xB0008, 16, 8⟩
/-- RO. RAIL_EN levels -/
def F.PSQ_STATUS_rail_en : Fld := ⟨0xB0008, 8, 8⟩
/-- RO. Table 10.1 -/
def F.PSQ_STATUS_state : Fld := ⟨0xB0008, 0, 4⟩

/-! PSQ.FAULT (R347 of spec/10_panel_power_integrity.md) -/
def F.PSQ_FAULT : Fld := ⟨0xB000C, 0, 32⟩
/-- RO. 0 none; 1 power-good timeout; 2 PMBus; 3 crack pre-check; 4 crack break; 5 monitor mismatch; 6 monitor missing; 7 rail fault; 8 group failed -/
def F.PSQ_FAULT_cause : Fld := ⟨0xB000C, 28, 4⟩
/-- RO. Group, causes 5, 6, 8 -/
def F.PSQ_FAULT_group : Fld := ⟨0xB000C, 23, 5⟩
/-- RO. Monitor, cause 5 -/
def F.PSQ_FAULT_monitor : Fld := ⟨0xB000C, 20, 3⟩
/-- RO. Rail or loop -/
def F.PSQ_FAULT_index : Fld := ⟨0xB000C, 16, 4⟩
/-- RO. Monitor value, cause 5 -/
def F.PSQ_FAULT_value : Fld := ⟨0xB000C, 0, 16⟩

/-! PSQ.BLACK (R347 of spec/10_panel_power_integrity.md) -/
def F.PSQ_BLACK : Fld := ⟨0xB0010, 0, 32⟩
/-- RW, off. Black scans at power-off, 0–255 -/
def F.PSQ_BLACK_n_off : Fld := ⟨0xB0010, 24, 8⟩
/-- RW, off. Black scans at power-on, 1–255 -/
def F.PSQ_BLACK_n_on : Fld := ⟨0xB0010, 16, 8⟩
/-- RW, off. Black drive value, R330 -/
def F.PSQ_BLACK_code : Fld := ⟨0xB0010, 0, 12⟩

/-! PSQ.PMB_CFG (R347 of spec/10_panel_power_integrity.md) -/
def F.PSQ_PMB_CFG : Fld := ⟨0xB0014, 0, 32⟩
/-- RW, off. 1: append PEC -/
def F.PSQ_PMB_CFG_pec : Fld := ⟨0xB0014, 31, 1⟩
/-- RW, off. 0 = 100 kHz, 1 = 400 kHz -/
def F.PSQ_PMB_CFG_speed : Fld := ⟨0xB0014, 30, 1⟩
/-- RW, off. Record table, 8-byte aligned, outside the mailbox -/
def F.PSQ_PMB_CFG_offset : Fld := ⟨0xB0014, 0, 24⟩

/-! PSQ.UPk (R347 of spec/10_panel_power_integrity.md) -/
def F.PSQ_UP (i : Nat) : Fld := ⟨0xB0020 + 4 * i, 0, 32⟩
/-- RW, off. 1: step enabled -/
def F.PSQ_UP_en (i : Nat) : Fld := ⟨0xB0020 + 4 * i, 31, 1⟩
/-- RW, off. RAIL_EN and RAIL_PG index -/
def F.PSQ_UP_rail (i : Nat) : Fld := ⟨0xB0020 + 4 * i, 28, 3⟩
/-- RW, off. 1: wait for and watch power-good -/
def F.PSQ_UP_pg_chk (i : Nat) : Fld := ⟨0xB0020 + 4 * i, 27, 1⟩
/-- RW, off. 1: send record pmb_idx first -/
def F.PSQ_UP_pmb_en (i : Nat) : Fld := ⟨0xB0020 + 4 * i, 26, 1⟩
/-- RW, off. PMBus record -/
def F.PSQ_UP_pmb_idx (i : Nat) : Fld := ⟨0xB0020 + 4 * i, 18, 6⟩
/-- RW, off. Power-good limit in ms, 1–255 -/
def F.PSQ_UP_timeout (i : Nat) : Fld := ⟨0xB0020 + 4 * i, 8, 8⟩
/-- RW, off. Settle in ms, 0–255 -/
def F.PSQ_UP_settle (i : Nat) : Fld := ⟨0xB0020 + 4 * i, 0, 8⟩

/-! PSQ.DNk (R347 of spec/10_panel_power_integrity.md) -/
def F.PSQ_DN (i : Nat) : Fld := ⟨0xB0040 + 4 * i, 0, 32⟩
/-- RW, off. 1: send record pmb_idx first -/
def F.PSQ_DN_pmb_en (i : Nat) : Fld := ⟨0xB0040 + 4 * i, 31, 1⟩
/-- RW, off. PMBus record -/
def F.PSQ_DN_pmb_idx (i : Nat) : Fld := ⟨0xB0040 + 4 * i, 24, 6⟩
/-- RW, off. Discharge in ms -/
def F.PSQ_DN_dis (i : Nat) : Fld := ⟨0xB0040 + 4 * i, 0, 16⟩

/-! PSQ.CRK_EN (R347 of spec/10_panel_power_integrity.md) -/
def F.PSQ_CRK_EN : Fld := ⟨0xB0060, 0, 32⟩
/-- RW. Bit k: break of loop k powers off -/
def F.PSQ_CRK_EN_react : Fld := ⟨0xB0060, 16, 16⟩
/-- RW, off. Bit k: loop k tested -/
def F.PSQ_CRK_EN_en : Fld := ⟨0xB0060, 0, 16⟩

/-! PSQ.CRK_CFG (R347 of spec/10_panel_power_integrity.md) -/
def F.PSQ_CRK_CFG : Fld := ⟨0xB0064, 0, 32⟩
/-- RW, off. Failed tests to a break, 1–15 -/
def F.PSQ_CRK_CFG_n : Fld := ⟨0xB0064, 28, 4⟩
/-- RW, off. s in ticks, 1–65,535; reset 300 -/
def F.PSQ_CRK_CFG_settle : Fld := ⟨0xB0064, 0, 16⟩

/-! PSQ.CRK_STAT (R347 of spec/10_panel_power_integrity.md) -/
def F.PSQ_CRK_STAT : Fld := ⟨0xB0068, 0, 32⟩
/-- RO. Bit k: last test of loop k failed -/
def F.PSQ_CRK_STAT_fail : Fld := ⟨0xB0068, 16, 16⟩
/-- HWS. Bit k: loop k broken -/
def F.PSQ_CRK_STAT_broken : Fld := ⟨0xB0068, 0, 16⟩

/-! PSQ.MON_EN (R347 of spec/10_panel_power_integrity.md) -/
def F.PSQ_MON_EN : Fld := ⟨0xB0070, 0, 32⟩
/-- RW. Bit m: monitor m privileged -/
def F.PSQ_MON_EN_en : Fld := ⟨0xB0070, 0, 8⟩

/-! PSQ.MON_CFG (R347 of spec/10_panel_power_integrity.md) -/
def F.PSQ_MON_CFG : Fld := ⟨0xB0074, 0, 32⟩
/-- RW. Poll interval in ms, 1–255 -/
def F.PSQ_MON_CFG_period_ms : Fld := ⟨0xB0074, 24, 8⟩
/-- RW. Mismatches to react, 1–15 -/
def F.PSQ_MON_CFG_n : Fld := ⟨0xB0074, 20, 4⟩
/-- RW. Missing requests to react, 1–15 -/
def F.PSQ_MON_CFG_miss_n : Fld := ⟨0xB0074, 16, 4⟩
/-- RW. 1: missing read-back powers off -/
def F.PSQ_MON_CFG_miss_react : Fld := ⟨0xB0074, 8, 1⟩
/-- RW. Bit m: mismatch of monitor m powers off -/
def F.PSQ_MON_CFG_react : Fld := ⟨0xB0074, 0, 8⟩

/-! PSQ.MON_LAST (R347 of spec/10_panel_power_integrity.md) -/
def F.PSQ_MON_LAST : Fld := ⟨0xB0078, 0, 32⟩
/-- RO. Group of the last mismatch -/
def F.PSQ_MON_LAST_group : Fld := ⟨0xB0078, 27, 5⟩
/-- RO. Monitor -/
def F.PSQ_MON_LAST_monitor : Fld := ⟨0xB0078, 24, 3⟩
/-- RO. Value read -/
def F.PSQ_MON_LAST_value : Fld := ⟨0xB0078, 0, 16⟩

/-! PSQ.MONm (R347 of spec/10_panel_power_integrity.md) -/
def F.PSQ_MON (i : Nat) : Fld := ⟨0xB0080 + 4 * i, 0, 32⟩
/-- RW. Commanded value -/
def F.PSQ_MON_expect (i : Nat) : Fld := ⟨0xB0080 + 4 * i, 16, 16⟩
/-- RW. Tolerance -/
def F.PSQ_MON_tol (i : Nat) : Fld := ⟨0xB0080 + 4 * i, 0, 16⟩

/-! PSQ.CNT_CRK (R347 of spec/10_panel_power_integrity.md) -/
def F.PSQ_CNT_CRK : Fld := ⟨0xB00A0, 0, 32⟩
/-- RO. Failed crack tests -/
def F.PSQ_CNT_CRK_tests : Fld := ⟨0xB00A0, 0, 32⟩

/-! PSQ.CNT_MON (R347 of spec/10_panel_power_integrity.md) -/
def F.PSQ_CNT_MON : Fld := ⟨0xB00A4, 0, 32⟩
/-- RO. Missing read-backs -/
def F.PSQ_CNT_MON_missing : Fld := ⟨0xB00A4, 16, 16⟩
/-- RO. Mismatching values -/
def F.PSQ_CNT_MON_mismatch : Fld := ⟨0xB00A4, 0, 16⟩

/-! PSQ.CNT_PG (R347 of spec/10_panel_power_integrity.md) -/
def F.PSQ_CNT_PG : Fld := ⟨0xB00A8, 0, 32⟩
/-- RO. Failed PMBus transactions -/
def F.PSQ_CNT_PG_pmb_fail : Fld := ⟨0xB00A8, 16, 16⟩
/-- RO. Rail faults -/
def F.PSQ_CNT_PG_faults : Fld := ⟨0xB00A8, 0, 16⟩

/-! PSQ.CNT_ON (R347 of spec/10_panel_power_integrity.md) -/
def F.PSQ_CNT_ON : Fld := ⟨0xB00AC, 0, 32⟩
/-- RO. Entries to ON -/
def F.PSQ_CNT_ON_count : Fld := ⟨0xB00AC, 0, 32⟩

/-! PSQ.CNT_WR_IGN (R347 of spec/10_panel_power_integrity.md) -/
def F.PSQ_CNT_WR_IGN : Fld := ⟨0xB00B0, 0, 32⟩
/-- RO. Ignored writes -/
def F.PSQ_CNT_WR_IGN_writes : Fld := ⟨0xB00B0, 0, 32⟩

/-! ORL.CTRL (R388 of spec/11_orsal_link.md) -/
def F.ORL_CTRL : Fld := ⟨0xC0000, 0, 32⟩
/-- WO. 1: port B to TRAIN -/
def F.ORL_CTRL_retrain_b : Fld := ⟨0xC0000, 2, 1⟩
/-- WO. 1: port A to TRAIN -/
def F.ORL_CTRL_retrain_a : Fld := ⟨0xC0000, 1, 1⟩
/-- WO. 1: clear ORL counters -/
def F.ORL_CTRL_clr_cnt : Fld := ⟨0xC0000, 0, 1⟩

/-! ORL.CFG (R388 of spec/11_orsal_link.md) -/
def F.ORL_CFG : Fld := ⟨0xC0004, 0, 32⟩
/-- RW, off. N − 1, 1–63 -/
def F.ORL_CFG_n_dev_m1 : Fld := ⟨0xC0004, 16, 6⟩
/-- RW, off. Ring position -/
def F.ORL_CFG_pos : Fld := ⟨0xC0004, 8, 6⟩
/-- RW, off. 0 = chain, 1 = ring -/
def F.ORL_CFG_topo : Fld := ⟨0xC0004, 2, 1⟩
/-- RW, off. 0 = manager, 1 = worker -/
def F.ORL_CFG_role : Fld := ⟨0xC0004, 1, 1⟩
/-- RW, off. 1: wall member -/
def F.ORL_CFG_en : Fld := ⟨0xC0004, 0, 1⟩

/-! ORL.STATUS (R388 of spec/11_orsal_link.md) -/
def F.ORL_STATUS : Fld := ⟨0xC0008, 0, 32⟩
/-- RO. 1: a link is broken -/
def F.ORL_STATUS_brk : Fld := ⟨0xC0008, 31, 1⟩
/-- RO. 1: dual-path delivery in use -/
def F.ORL_STATUS_dual : Fld := ⟨0xC0008, 30, 1⟩
/-- RO. 1: picture number mismatch, R364 -/
def F.ORL_STATUS_pic_mis : Fld := ⟨0xC0008, 29, 1⟩
/-- RO. 1: beacon P or bdiv mismatch -/
def F.ORL_STATUS_tmis : Fld := ⟨0xC0008, 28, 1⟩
/-- RO. Time from: 0 none, 1 port A, 2 port B -/
def F.ORL_STATUS_tsrc : Fld := ⟨0xC0008, 26, 2⟩
/-- RO. Lower end of the broken link -/
def F.ORL_STATUS_brk_pos : Fld := ⟨0xC0008, 16, 6⟩

/-! ORL.TIME (R388 of spec/11_orsal_link.md) -/
def F.ORL_TIME : Fld := ⟨0xC000C, 0, 32⟩
/-- RW, off. Delay measurement interval in ms, 1–255 -/
def F.ORL_TIME_dly_ms : Fld := ⟨0xC000C, 8, 8⟩
/-- RW, off. Beacons per picture, 1–64 -/
def F.ORL_TIME_bdiv : Fld := ⟨0xC000C, 0, 7⟩

/-! ORL.PORT_CFG (R388 of spec/11_orsal_link.md) -/
def F.ORL_PORT_CFG : Fld := ⟨0xC0010, 0, 32⟩
/-- RW. Retrain delay in ms, 1–255 -/
def F.ORL_PORT_CFG_retry_ms : Fld := ⟨0xC0010, 8, 8⟩
/-- RW. 1: port B enabled -/
def F.ORL_PORT_CFG_en_b : Fld := ⟨0xC0010, 1, 1⟩
/-- RW. 1: port A enabled -/
def F.ORL_PORT_CFG_en_a : Fld := ⟨0xC0010, 0, 1⟩

/-! ORL.PORTx_STAT (R388 of spec/11_orsal_link.md) -/
def F.ORL_PORT_STAT (i : Nat) : Fld := ⟨0xC0020 + 16 * i, 0, 32⟩
/-- RO. 1: enable held, R339 -/
def F.ORL_PORT_STAT_re_pend (i : Nat) : Fld := ⟨0xC0020 + 16 * i, 31, 1⟩
/-- RO. Bit l: lane l locked -/
def F.ORL_PORT_STAT_lock (i : Nat) : Fld := ⟨0xC0020 + 16 * i, 27, 4⟩
/-- RO. Table 11.2 -/
def F.ORL_PORT_STAT_state (i : Nat) : Fld := ⟨0xC0020 + 16 * i, 24, 3⟩
/-- RO. Neighbour's position from its last hello -/
def F.ORL_PORT_STAT_nbr_pos (i : Nat) : Fld := ⟨0xC0020 + 16 * i, 16, 6⟩
/-- RO. Hops of the last usable beacon -/
def F.ORL_PORT_STAT_hops (i : Nat) : Fld := ⟨0xC0020 + 16 * i, 8, 8⟩
/-- RO. Entries to DOWN -/
def F.ORL_PORT_STAT_downs (i : Nat) : Fld := ⟨0xC0020 + 16 * i, 0, 8⟩

/-! ORL.PORTx_DELAY (R388 of spec/11_orsal_link.md) -/
def F.ORL_PORT_DELAY (i : Nat) : Fld := ⟨0xC0024 + 16 * i, 0, 32⟩
/-- RO. d_x in 1/64 tick -/
def F.ORL_PORT_DELAY_delay (i : Nat) : Fld := ⟨0xC0024 + 16 * i, 0, 32⟩

/-! ORL.PORTx_ASYM (R388 of spec/11_orsal_link.md) -/
def F.ORL_PORT_ASYM (i : Nat) : Fld := ⟨0xC0028 + 16 * i, 0, 32⟩
/-- RW. Signed delay correction, 1/64 tick -/
def F.ORL_PORT_ASYM_asym (i : Nat) : Fld := ⟨0xC0028 + 16 * i, 0, 16⟩

/-! ORL.PORTx_CNT (R388 of spec/11_orsal_link.md) -/
def F.ORL_PORT_CNT (i : Nat) : Fld := ⟨0xC002C + 16 * i, 0, 32⟩
/-- RO. Frames failing CRC -/
def F.ORL_PORT_CNT_crc (i : Nat) : Fld := ⟨0xC002C + 16 * i, 16, 16⟩
/-- RO. Beacons used -/
def F.ORL_PORT_CNT_bcn (i : Nat) : Fld := ⟨0xC002C + 16 * i, 0, 16⟩

/-! ORL.CTL_CMD (R388 of spec/11_orsal_link.md) -/
def F.ORL_CTL_CMD : Fld := ⟨0xC0040, 0, 32⟩
/-- RW. Target position -/
def F.ORL_CTL_CMD_dst : Fld := ⟨0xC0040, 6, 6⟩
/-- RW. 1: every worker -/
def F.ORL_CTL_CMD_bcast : Fld := ⟨0xC0040, 5, 1⟩
/-- RW. 1: COMMIT_AT on the manager too -/
def F.ORL_CTL_CMD_self : Fld := ⟨0xC0040, 4, 1⟩
/-- RW. Table 11.5 -/
def F.ORL_CTL_CMD_op : Fld := ⟨0xC0040, 1, 3⟩
/-- WO. 1: issue the request -/
def F.ORL_CTL_CMD_go : Fld := ⟨0xC0040, 0, 1⟩

/-! ORL.CTL_ADDR (R388 of spec/11_orsal_link.md) -/
def F.ORL_CTL_ADDR : Fld := ⟨0xC0044, 0, 32⟩
/-- RW. BAR0 or mailbox offset -/
def F.ORL_CTL_ADDR_addr : Fld := ⟨0xC0044, 0, 25⟩

/-! ORL.CTL_DATA (R388 of spec/11_orsal_link.md) -/
def F.ORL_CTL_DATA : Fld := ⟨0xC0048, 0, 32⟩
/-- RW. Write data; read result -/
def F.ORL_CTL_DATA_data : Fld := ⟨0xC0048, 0, 32⟩

/-! ORL.CTL_PIC_LO (R388 of spec/11_orsal_link.md) -/
def F.ORL_CTL_PIC_LO : Fld := ⟨0xC004C, 0, 32⟩
/-- RW. n_c bits 31:0 -/
def F.ORL_CTL_PIC_LO_pic : Fld := ⟨0xC004C, 0, 32⟩

/-! ORL.CTL_PIC_HI (R388 of spec/11_orsal_link.md) -/
def F.ORL_CTL_PIC_HI : Fld := ⟨0xC0050, 0, 32⟩
/-- RW. n_c bits 63:32 -/
def F.ORL_CTL_PIC_HI_pic : Fld := ⟨0xC0050, 0, 32⟩

/-! ORL.CTL_STAT (R388 of spec/11_orsal_link.md) -/
def F.ORL_CTL_STAT : Fld := ⟨0xC0054, 0, 32⟩
/-- RO. 1: request in progress -/
def F.ORL_CTL_STAT_running : Fld := ⟨0xC0054, 31, 1⟩
/-- RO. 0 OK, 1 TIMEOUT, 2 INVALID, 3 LATE, 4 NAK -/
def F.ORL_CTL_STAT_result : Fld := ⟨0xC0054, 24, 3⟩

/-! ORL.CTL_NAK_LO (R388 of spec/11_orsal_link.md) -/
def F.ORL_CTL_NAK_LO : Fld := ⟨0xC0058, 0, 32⟩
/-- RO. Bit p: position p not OK -/
def F.ORL_CTL_NAK_LO_mask : Fld := ⟨0xC0058, 0, 32⟩

/-! ORL.CTL_NAK_HI (R388 of spec/11_orsal_link.md) -/
def F.ORL_CTL_NAK_HI : Fld := ⟨0xC005C, 0, 32⟩
/-- RO. Bit p − 32 -/
def F.ORL_CTL_NAK_HI_mask : Fld := ⟨0xC005C, 0, 32⟩

/-! ORL.CTL_CFG (R388 of spec/11_orsal_link.md) -/
def F.ORL_CTL_CFG : Fld := ⟨0xC0060, 0, 32⟩
/-- RW. Resends, 0–15 -/
def F.ORL_CTL_CFG_retries : Fld := ⟨0xC0060, 16, 4⟩
/-- RW. Answer limit in µs; reset 100 -/
def F.ORL_CTL_CFG_timeout_us : Fld := ⟨0xC0060, 0, 16⟩

/-! ORL.EVT_CFG (R388 of spec/11_orsal_link.md) -/
def F.ORL_EVT_CFG : Fld := ⟨0xC0070, 0, 32⟩
/-- RW. Reorder hold in µs; reset 500 -/
def F.ORL_EVT_CFG_hold_us : Fld := ⟨0xC0070, 16, 16⟩
/-- RW. Bit k: forward class code k -/
def F.ORL_EVT_CFG_classes : Fld := ⟨0xC0070, 0, 7⟩

/-! ORL.DIST_CFG (R388 of spec/11_orsal_link.md) -/
def F.ORL_DIST_CFG : Fld := ⟨0xC0080, 0, 32⟩
/-- RW, off. Host-transfer allowance in Gb/s, 0–96 -/
def F.ORL_DIST_CFG_host_gbps : Fld := ⟨0xC0080, 24, 8⟩
/-- RW. VER resend delay in µs; reset 100 -/
def F.ORL_DIST_CFG_retry_us : Fld := ⟨0xC0080, 8, 16⟩
/-- RW, off. 1: dual-path delivery -/
def F.ORL_DIST_CFG_dual : Fld := ⟨0xC0080, 0, 1⟩

/-! ORL.RX_POOL (R388 of spec/11_orsal_link.md) -/
def F.ORL_RX_POOL : Fld := ⟨0xC0090, 0, 32⟩
/-- RW, off. MiB per surface, 1–255; reset 196 -/
def F.ORL_RX_POOL_stride : Fld := ⟨0xC0090, 24, 8⟩
/-- RW, off. Surfaces, 2–15 -/
def F.ORL_RX_POOL_count : Fld := ⟨0xC0090, 16, 4⟩
/-- RW, off. First surface index -/
def F.ORL_RX_POOL_first : Fld := ⟨0xC0090, 0, 10⟩

/-! ORL.RX_CFG (R388 of spec/11_orsal_link.md) -/
def F.ORL_RX_CFG : Fld := ⟨0xC0094, 0, 32⟩
/-- RW. NACKs per block before withdrawal, 0–15 -/
def F.ORL_RX_CFG_retries : Fld := ⟨0xC0094, 16, 4⟩
/-- RW. Stall limit in µs; reset 2,000 -/
def F.ORL_RX_CFG_stall_us : Fld := ⟨0xC0094, 0, 16⟩

/-! ORL.DISTr_SRC (R388 of spec/11_orsal_link.md) -/
def F.ORL_DIST_SRC (i : Nat) : Fld := ⟨0xC0100 + 16 * i, 0, 32⟩
/-- RW, off. 1: rule enabled -/
def F.ORL_DIST_SRC_en (i : Nat) : Fld := ⟨0xC0100 + 16 * i, 31, 1⟩
/-- RW, off. Ingest input 0–4 -/
def F.ORL_DIST_SRC_inp (i : Nat) : Fld := ⟨0xC0100 + 16 * i, 24, 3⟩
/-- RW, off. Worker position -/
def F.ORL_DIST_SRC_dst (i : Nat) : Fld := ⟨0xC0100 + 16 * i, 16, 6⟩
/-- RW, off. Worker content slot 0–19 -/
def F.ORL_DIST_SRC_slot (i : Nat) : Fld := ⟨0xC0100 + 16 * i, 8, 5⟩
/-- RW, off. Pictures per second, 1–255; reset 60 -/
def F.ORL_DIST_SRC_rate (i : Nat) : Fld := ⟨0xC0100 + 16 * i, 0, 8⟩

/-! ORL.DISTr_RECT (R388 of spec/11_orsal_link.md) -/
def F.ORL_DIST_RECT (i : Nat) : Fld := ⟨0xC0104 + 16 * i, 0, 32⟩
/-- RW, off. Rectangle rows − 1 -/
def F.ORL_DIST_RECT_h_m1 (i : Nat) : Fld := ⟨0xC0104 + 16 * i, 24, 8⟩
/-- RW, off. Rectangle columns − 1 -/
def F.ORL_DIST_RECT_w_m1 (i : Nat) : Fld := ⟨0xC0104 + 16 * i, 16, 8⟩
/-- RW, off. Surface block row -/
def F.ORL_DIST_RECT_sby0 (i : Nat) : Fld := ⟨0xC0104 + 16 * i, 8, 8⟩
/-- RW, off. Surface block column -/
def F.ORL_DIST_RECT_sbx0 (i : Nat) : Fld := ⟨0xC0104 + 16 * i, 0, 8⟩

/-! ORL.DISTr_DST (R388 of spec/11_orsal_link.md) -/
def F.ORL_DIST_DST (i : Nat) : Fld := ⟨0xC0108 + 16 * i, 0, 32⟩
/-- RW, off. Worker block row -/
def F.ORL_DIST_DST_by0 (i : Nat) : Fld := ⟨0xC0108 + 16 * i, 8, 8⟩
/-- RW, off. Worker block column -/
def F.ORL_DIST_DST_bx0 (i : Nat) : Fld := ⟨0xC0108 + 16 * i, 0, 8⟩

/-! ORL.TX_DESCk (R388 of spec/11_orsal_link.md) -/
def F.ORL_TX_DESC (i : Nat) : Fld := ⟨0xC0200 + 4 * i, 0, 32⟩
/-- RW. Descriptor words, Table 4.8 -/
def F.ORL_TX_DESC_word (i : Nat) : Fld := ⟨0xC0200 + 4 * i, 0, 32⟩

/-! ORL.TX_DST (R388 of spec/11_orsal_link.md) -/
def F.ORL_TX_DST : Fld := ⟨0xC0220, 0, 32⟩
/-- RW. Worker position -/
def F.ORL_TX_DST_dst : Fld := ⟨0xC0220, 0, 6⟩

/-! ORL.TX_GO (R388 of spec/11_orsal_link.md) -/
def F.ORL_TX_GO : Fld := ⟨0xC0224, 0, 32⟩
/-- WO. 1: start the transfer -/
def F.ORL_TX_GO_go : Fld := ⟨0xC0224, 0, 1⟩

/-! ORL.TX_STAT (R388 of spec/11_orsal_link.md) -/
def F.ORL_TX_STAT : Fld := ⟨0xC0228, 0, 32⟩
/-- RO. 1: transfer in progress -/
def F.ORL_TX_STAT_running : Fld := ⟨0xC0228, 31, 1⟩
/-- RO. Table 11.6; 7 REFUSED; 8 UNREACHABLE -/
def F.ORL_TX_STAT_result : Fld := ⟨0xC0228, 24, 4⟩
/-- RO. Block row of the first full queue -/
def F.ORL_TX_STAT_busy_by : Fld := ⟨0xC0228, 8, 8⟩
/-- RO. Block column -/
def F.ORL_TX_STAT_busy_bx : Fld := ⟨0xC0228, 0, 8⟩

/-! ORL.CNT_DIST (R388 of spec/11_orsal_link.md) -/
def F.ORL_CNT_DIST : Fld := ⟨0xC0230, 0, 32⟩
/-- RO. Pictures not sent, protected -/
def F.ORL_CNT_DIST_prot : Fld := ⟨0xC0230, 24, 8⟩
/-- RO. Versions abandoned, R379 -/
def F.ORL_CNT_DIST_superseded : Fld := ⟨0xC0230, 16, 8⟩
/-- RO. Pictures skipped, R375 -/
def F.ORL_CNT_DIST_skipped : Fld := ⟨0xC0230, 0, 16⟩

/-! ORL.CNT_RX (R388 of spec/11_orsal_link.md) -/
def F.ORL_CNT_RX : Fld := ⟨0xC0234, 0, 32⟩
/-- RO. BLOCK frames of unknown vid -/
def F.ORL_CNT_RX_unknown : Fld := ⟨0xC0234, 24, 8⟩
/-- RO. Entries withdrawn -/
def F.ORL_CNT_RX_withdrawn : Fld := ⟨0xC0234, 16, 8⟩
/-- RO. Blocks failing the receive check -/
def F.ORL_CNT_RX_berr : Fld := ⟨0xC0234, 0, 16⟩

/-! ORL.CNT_EVT (R388 of spec/11_orsal_link.md) -/
def F.ORL_CNT_EVT : Fld := ⟨0xC0238, 0, 32⟩
/-- RO. EVENT frames missing at the manager -/
def F.ORL_CNT_EVT_lost : Fld := ⟨0xC0238, 16, 16⟩
/-- RO. Records not forwarded, queue full -/
def F.ORL_CNT_EVT_dropped : Fld := ⟨0xC0238, 0, 16⟩

/-! ORL.CNT_MISC (R388 of spec/11_orsal_link.md) -/
def F.ORL_CNT_MISC : Fld := ⟨0xC023C, 0, 32⟩
/-- RO. Duplicate frames discarded -/
def F.ORL_CNT_MISC_dup : Fld := ⟨0xC023C, 16, 16⟩
/-- RO. Reroutes, R384 -/
def F.ORL_CNT_MISC_reroute : Fld := ⟨0xC023C, 8, 8⟩
/-- RO. Timing-port switches -/
def F.ORL_CNT_MISC_switch : Fld := ⟨0xC023C, 0, 8⟩

/-! MEM.CTRL (R410 of spec/12_memory.md) -/
def F.MEM_CTRL : Fld := ⟨0xD0000, 0, 32⟩
/-- WO. 1: clear MEM counters -/
def F.MEM_CTRL_clr_cnt : Fld := ⟨0xD0000, 0, 1⟩

/-! MEM.CFG (R410 of spec/12_memory.md) -/
def F.MEM_CFG : Fld := ⟨0xD0004, 0, 32⟩
/-- RW, init. 0 = 12, 1 = 14, 2 = 16, 3 = 18 Gb/s -/
def F.MEM_CFG_rate : Fld := ⟨0xD0004, 8, 2⟩
/-- RW, init. 0 = 8 Gb, 1 = 16 Gb -/
def F.MEM_CFG_density : Fld := ⟨0xD0004, 7, 1⟩
/-- RW, init. 1: map out channel map_ch -/
def F.MEM_CFG_map_en : Fld := ⟨0xD0004, 3, 1⟩
/-- RW, init. Channel 0–7 (A–H) -/
def F.MEM_CFG_map_ch : Fld := ⟨0xD0004, 0, 3⟩

/-! MEM.STATUS (R410 of spec/12_memory.md) -/
def F.MEM_STATUS : Fld := ⟨0xD0008, 0, 32⟩
/-- RO. 1: a write was ignored -/
def F.MEM_STATUS_wr_ign : Fld := ⟨0xD0008, 31, 1⟩
/-- RO. Bit c: channel c retraining overdue -/
def F.MEM_STATUS_overdue : Fld := ⟨0xD0008, 16, 8⟩
/-- RO. Bit c: channel c failed training -/
def F.MEM_STATUS_fail : Fld := ⟨0xD0008, 8, 8⟩
/-- RO. Bit c: channel c trained and in use -/
def F.MEM_STATUS_trained : Fld := ⟨0xD0008, 0, 8⟩

/-! MEM.CAP_LO (R410 of spec/12_memory.md) -/
def F.MEM_CAP_LO : Fld := ⟨0xD000C, 0, 32⟩
/-- RO. Usable capacity bits 31:0 -/
def F.MEM_CAP_LO_bytes : Fld := ⟨0xD000C, 0, 32⟩

/-! MEM.CAP_HI (R410 of spec/12_memory.md) -/
def F.MEM_CAP_HI : Fld := ⟨0xD0010, 0, 32⟩
/-- RO. Usable capacity bits 39:32 -/
def F.MEM_CAP_HI_bytes : Fld := ⟨0xD0010, 0, 8⟩

/-! MEM.TRAIN (R410 of spec/12_memory.md) -/
def F.MEM_TRAIN : Fld := ⟨0xD0014, 0, 32⟩
/-- RW, init. Training limit per channel in ms, 1–255 -/
def F.MEM_TRAIN_init_ms : Fld := ⟨0xD0014, 24, 8⟩
/-- RW. Overdue margin in ms, 1–255 -/
def F.MEM_TRAIN_max_ms : Fld := ⟨0xD0014, 16, 8⟩
/-- RW. Retraining period per channel in ms, 1–255 -/
def F.MEM_TRAIN_period_ms : Fld := ⟨0xD0014, 8, 8⟩
/-- RW. Slot length in units of 1,500 ticks, 1–255 -/
def F.MEM_TRAIN_slot : Fld := ⟨0xD0014, 0, 8⟩

/-! MEM.EDC (R410 of spec/12_memory.md) -/
def F.MEM_EDC : Fld := ⟨0xD0018, 0, 32⟩
/-- RW. Repeats per burst, 1–15 -/
def F.MEM_EDC_retries : Fld := ⟨0xD0018, 0, 4⟩

/-! MEM.SCHED (R410 of spec/12_memory.md) -/
def F.MEM_SCHED : Fld := ⟨0xD001C, 0, 32⟩
/-- RW. Promotion wait in µs, 1–65,535; reset 100 -/
def F.MEM_SCHED_age_us : Fld := ⟨0xD001C, 0, 16⟩

/-! MEM.SCRUB (R410 of spec/12_memory.md) -/
def F.MEM_SCRUB : Fld := ⟨0xD0020, 0, 32⟩
/-- RW. 1: patrol scrub -/
def F.MEM_SCRUB_en : Fld := ⟨0xD0020, 8, 1⟩
/-- RW. Pass period in hours, 1–255; reset 24 -/
def F.MEM_SCRUB_period_h : Fld := ⟨0xD0020, 0, 8⟩

/-! MEM.SCRUB_STAT (R410 of spec/12_memory.md) -/
def F.MEM_SCRUB_STAT : Fld := ⟨0xD0024, 0, 32⟩
/-- RO. 1: last pass exceeded its period -/
def F.MEM_SCRUB_STAT_late : Fld := ⟨0xD0024, 31, 1⟩
/-- RO. Completed passes -/
def F.MEM_SCRUB_STAT_passes : Fld := ⟨0xD0024, 0, 31⟩

/-! MEM.ECC_CNT (R410 of spec/12_memory.md) -/
def F.MEM_ECC_CNT : Fld := ⟨0xD0028, 0, 32⟩
/-- RO. Uncorrectable granules -/
def F.MEM_ECC_CNT_uncorrected : Fld := ⟨0xD0028, 16, 16⟩
/-- RO. Corrected granules -/
def F.MEM_ECC_CNT_corrected : Fld := ⟨0xD0028, 0, 16⟩

/-! MEM.EDC_CNT (R410 of spec/12_memory.md) -/
def F.MEM_EDC_CNT : Fld := ⟨0xD002C, 0, 32⟩
/-- RO. Bursts failing all repeats -/
def F.MEM_EDC_CNT_failed : Fld := ⟨0xD002C, 16, 16⟩
/-- RO. Burst repeats -/
def F.MEM_EDC_CNT_retries : Fld := ⟨0xD002C, 0, 16⟩

/-! MEM.ERR_INFO (R410 of spec/12_memory.md) -/
def F.MEM_ERR_INFO : Fld := ⟨0xD0030, 0, 32⟩
/-- RO. Last error: 0 none, 1 uncorrectable ECC, 2 EDC read, 3 EDC write, 4 address -/
def F.MEM_ERR_INFO_kind : Fld := ⟨0xD0030, 28, 4⟩
/-- RO. Scheduler class, Table 12.4 -/
def F.MEM_ERR_INFO_class : Fld := ⟨0xD0030, 24, 4⟩
/-- RO. Channel -/
def F.MEM_ERR_INFO_channel : Fld := ⟨0xD0030, 16, 3⟩

/-! MEM.ERR_ADDR_LO (R410 of spec/12_memory.md) -/
def F.MEM_ERR_ADDR_LO : Fld := ⟨0xD0034, 0, 32⟩
/-- RO. Address bits 31:0 -/
def F.MEM_ERR_ADDR_LO_addr : Fld := ⟨0xD0034, 0, 32⟩

/-! MEM.ERR_ADDR_HI (R410 of spec/12_memory.md) -/
def F.MEM_ERR_ADDR_HI : Fld := ⟨0xD0038, 0, 32⟩
/-- RO. Address bits 39:32 -/
def F.MEM_ERR_ADDR_HI_addr : Fld := ⟨0xD0038, 0, 8⟩

/-! MEM.LS_ECC (R410 of spec/12_memory.md) -/
def F.MEM_LS_ECC : Fld := ⟨0xD0040, 0, 32⟩
/-- RO. Uncorrectable words -/
def F.MEM_LS_ECC_uncorrected : Fld := ⟨0xD0040, 16, 16⟩
/-- RO. Corrected words -/
def F.MEM_LS_ECC_corrected : Fld := ⟨0xD0040, 0, 16⟩

/-! MEM.LS_ERR_ADDR (R410 of spec/12_memory.md) -/
def F.MEM_LS_ERR_ADDR : Fld := ⟨0xD0044, 0, 32⟩
/-- RO. 1: strip buffer; 0: local store -/
def F.MEM_LS_ERR_ADDR_strip : Fld := ⟨0xD0044, 24, 1⟩
/-- RO. Offset of the last uncorrectable word -/
def F.MEM_LS_ERR_ADDR_offset : Fld := ⟨0xD0044, 0, 24⟩

/-! MEM.LS_CONFk (R410 of spec/12_memory.md) -/
def F.MEM_LS_CONF (i : Nat) : Fld := ⟨0xD0050 + 4 * i, 0, 32⟩
/-- RO. Conflicts of master 2k + 1 -/
def F.MEM_LS_CONF_hi (i : Nat) : Fld := ⟨0xD0050 + 4 * i, 16, 16⟩
/-- RO. Conflicts of master 2k -/
def F.MEM_LS_CONF_lo (i : Nat) : Fld := ⟨0xD0050 + 4 * i, 0, 16⟩

/-! MEM.MBX_STAT (R410 of spec/12_memory.md) -/
def F.MEM_MBX_STAT : Fld := ⟨0xD0060, 0, 32⟩
/-- HWS. 1: port A was the later port -/
def F.MEM_MBX_STAT_coll_a : Fld := ⟨0xD0060, 31, 1⟩
/-- HWS. 1: port B was the later port -/
def F.MEM_MBX_STAT_coll_b : Fld := ⟨0xD0060, 30, 1⟩
/-- RO. Port B collisions -/
def F.MEM_MBX_STAT_cnt_b : Fld := ⟨0xD0060, 12, 12⟩
/-- RO. Port A collisions -/
def F.MEM_MBX_STAT_cnt_a : Fld := ⟨0xD0060, 0, 12⟩

/-! NVM.CTRL (R438 of spec/13_nvm_configuration.md) -/
def F.NVM_CTRL : Fld := ⟨0xE0000, 0, 32⟩
/-- WO. 1: lock both partitions, R436 -/
def F.NVM_CTRL_relock : Fld := ⟨0xE0000, 1, 1⟩
/-- WO. 1: clear NVM counters -/
def F.NVM_CTRL_clr_cnt : Fld := ⟨0xE0000, 0, 1⟩

/-! NVM.STATUS (R438 of spec/13_nvm_configuration.md) -/
def F.NVM_STATUS : Fld := ⟨0xE0004, 0, 32⟩
/-- RO. 1: a write was ignored -/
def F.NVM_STATUS_wr_ign : Fld := ⟨0xE0004, 31, 1⟩
/-- RO. 1: a journalled page awaits rewrite -/
def F.NVM_STATUS_journal : Fld := ⟨0xE0004, 30, 1⟩

/-! NVM.BOOT_STAT (R438 of spec/13_nvm_configuration.md) -/
def F.NVM_BOOT_STAT : Fld := ⟨0xE0008, 0, 32⟩
/-- RO. 0 running, 1 OK, 2 WAIT -/
def F.NVM_BOOT_STAT_state : Fld := ⟨0xE0008, 30, 2⟩
/-- RO. 0: flash; 1: local store -/
def F.NVM_BOOT_STAT_src : Fld := ⟨0xE0008, 29, 1⟩
/-- RO. Row of Table 13.7 -/
def F.NVM_BOOT_STAT_check : Fld := ⟨0xE0008, 24, 4⟩
/-- RO. Boot status, Table 13.6 -/
def F.NVM_BOOT_STAT_code : Fld := ⟨0xE0008, 16, 8⟩
/-- RO. Directory entry -/
def F.NVM_BOOT_STAT_sect : Fld := ⟨0xE0008, 0, 10⟩

/-! NVM.BOOT_CMD (R438 of spec/13_nvm_configuration.md) -/
def F.NVM_BOOT_CMD : Fld := ⟨0xE000C, 0, 32⟩
/-- WO. 0: flash; 1: local store -/
def F.NVM_BOOT_CMD_src : Fld := ⟨0xE000C, 1, 1⟩
/-- WO. 1: boot, R421 -/
def F.NVM_BOOT_CMD_go : Fld := ⟨0xE000C, 0, 1⟩

/-! NVM.HBOOT (R438 of spec/13_nvm_configuration.md) -/
def F.NVM_HBOOT : Fld := ⟨0xE0010, 0, 32⟩
/-- RW. Local-store offset of a host-supplied image -/
def F.NVM_HBOOT_offset : Fld := ⟨0xE0010, 0, 24⟩

/-! NVM.IMG_VER (R438 of spec/13_nvm_configuration.md) -/
def F.NVM_IMG_VER : Fld := ⟨0xE0014, 0, 32⟩
/-- RO. image_ver of the loaded image -/
def F.NVM_IMG_VER_ver : Fld := ⟨0xE0014, 0, 32⟩

/-! NVM.IMG_ARB (R438 of spec/13_nvm_configuration.md) -/
def F.NVM_IMG_ARB : Fld := ⟨0xE0018, 0, 32⟩
/-- RO. arb of the loaded image -/
def F.NVM_IMG_ARB_arb : Fld := ⟨0xE0018, 0, 32⟩

/-! NVM.ACC (R438 of spec/13_nvm_configuration.md) -/
def F.NVM_ACC : Fld := ⟨0xE0020, 0, 32⟩
/-- WO. 1: start the access -/
def F.NVM_ACC_go : Fld := ⟨0xE0020, 31, 1⟩
/-- RW. 0 read, 1 write; 2–3 reserved -/
def F.NVM_ACC_op : Fld := ⟨0xE0020, 29, 2⟩
/-- RW. Page 0–4,095 -/
def F.NVM_ACC_page : Fld := ⟨0xE0020, 17, 12⟩
/-- RW. Write offset o -/
def F.NVM_ACC_offset : Fld := ⟨0xE0020, 11, 6⟩
/-- RW. Write length − 1 -/
def F.NVM_ACC_len_m1 : Fld := ⟨0xE0020, 0, 6⟩

/-! NVM.ACC_STAT (R438 of spec/13_nvm_configuration.md) -/
def F.NVM_ACC_STAT : Fld := ⟨0xE0024, 0, 32⟩
/-- RO. 1: access or page write in progress -/
def F.NVM_ACC_STAT_busy : Fld := ⟨0xE0024, 31, 1⟩
/-- RO. 0 OK, 1 RANGE, 2 DENIED, 3 LOCKED_OUT, 4 UNCORRECTABLE -/
def F.NVM_ACC_STAT_result : Fld := ⟨0xE0024, 24, 3⟩
/-- RO. Bit g: group g uncorrectable -/
def F.NVM_ACC_STAT_unc : Fld := ⟨0xE0024, 16, 8⟩
/-- RO. Bit g: group g corrected -/
def F.NVM_ACC_STAT_cor : Fld := ⟨0xE0024, 8, 8⟩

/-! NVM.BUFk (R438 of spec/13_nvm_configuration.md) -/
def F.NVM_BUF (i : Nat) : Fld := ⟨0xE0040 + 4 * i, 0, 32⟩
/-- RW. Page bytes 4k to 4k + 3, byte 4k in bits 7:0 -/
def F.NVM_BUF_data (i : Nat) : Fld := ⟨0xE0040 + 4 * i, 0, 32⟩

/-! NVM.PWk (R438 of spec/13_nvm_configuration.md) -/
def F.NVM_PW (i : Nat) : Fld := ⟨0xE0080 + 4 * i, 0, 32⟩
/-- WO. Candidate password bits 32k + 31 to 32k -/
def F.NVM_PW_pw (i : Nat) : Fld := ⟨0xE0080 + 4 * i, 0, 32⟩

/-! NVM.UNLOCK (R438 of spec/13_nvm_configuration.md) -/
def F.NVM_UNLOCK : Fld := ⟨0xE0090, 0, 32⟩
/-- WO. 1: store a new password, R436 -/
def F.NVM_UNLOCK_set : Fld := ⟨0xE0090, 3, 1⟩
/-- WO. 0 read, 1 write -/
def F.NVM_UNLOCK_kind : Fld := ⟨0xE0090, 2, 1⟩
/-- WO. 0 protected, 1 user -/
def F.NVM_UNLOCK_part : Fld := ⟨0xE0090, 1, 1⟩
/-- WO. 1: compare, R435 -/
def F.NVM_UNLOCK_go : Fld := ⟨0xE0090, 0, 1⟩

/-! NVM.LOCK_STAT (R438 of spec/13_nvm_configuration.md) -/
def F.NVM_LOCK_STAT : Fld := ⟨0xE0094, 0, 32⟩
/-- RO. 1: user partition locked out -/
def F.NVM_LOCK_STAT_out_user : Fld := ⟨0xE0094, 13, 1⟩
/-- RO. 1: protected partition locked out -/
def F.NVM_LOCK_STAT_out_prot : Fld := ⟨0xE0094, 12, 1⟩
/-- RO. Bit 2 × part + kind: unlocked -/
def F.NVM_LOCK_STAT_unl : Fld := ⟨0xE0094, 8, 4⟩
/-- RO. Wrong attempts, user -/
def F.NVM_LOCK_STAT_att_user : Fld := ⟨0xE0094, 4, 4⟩
/-- RO. Wrong attempts, protected -/
def F.NVM_LOCK_STAT_att_prot : Fld := ⟨0xE0094, 0, 4⟩

/-! NVM.SCRUB (R438 of spec/13_nvm_configuration.md) -/
def F.NVM_SCRUB : Fld := ⟨0xE0098, 0, 32⟩
/-- RW. 1: scrub, R426 -/
def F.NVM_SCRUB_en : Fld := ⟨0xE0098, 8, 1⟩
/-- RW. Pass period in hours, 1–255; reset 24 -/
def F.NVM_SCRUB_period_h : Fld := ⟨0xE0098, 0, 8⟩

/-! NVM.SCRUB_STAT (R438 of spec/13_nvm_configuration.md) -/
def F.NVM_SCRUB_STAT : Fld := ⟨0xE009C, 0, 32⟩
/-- RO. Pages rewritten -/
def F.NVM_SCRUB_STAT_rewrites : Fld := ⟨0xE009C, 16, 16⟩
/-- RO. Passes completed -/
def F.NVM_SCRUB_STAT_passes : Fld := ⟨0xE009C, 0, 16⟩

/-! NVM.ECC_CNT (R438 of spec/13_nvm_configuration.md) -/
def F.NVM_ECC_CNT : Fld := ⟨0xE00A0, 0, 32⟩
/-- RO. Uncorrectable group reads -/
def F.NVM_ECC_CNT_uncorrected : Fld := ⟨0xE00A0, 16, 16⟩
/-- RO. Corrected group reads -/
def F.NVM_ECC_CNT_corrected : Fld := ⟨0xE00A0, 0, 16⟩

/-! NVM.CNTk (R438 of spec/13_nvm_configuration.md) -/
def F.NVM_CNT (i : Nat) : Fld := ⟨0xE00A4 + 4 * i, 0, 32⟩
/-- RO. Counter k, R433 -/
def F.NVM_CNT_value (i : Nat) : Fld := ⟨0xE00A4 + 4 * i, 0, 32⟩

/-! NVM.CNT_ERR (R438 of spec/13_nvm_configuration.md) -/
def F.NVM_CNT_ERR : Fld := ⟨0xE00B0, 0, 32⟩
/-- RO. Ignored writes -/
def F.NVM_CNT_ERR_wr_ign : Fld := ⟨0xE00B0, 0, 16⟩

/-! NVM.XF_CMD (R438 of spec/13_nvm_configuration.md) -/
def F.NVM_XF_CMD : Fld := ⟨0xE00C0, 0, 32⟩
/-- WO. 1: start the flash command -/
def F.NVM_XF_CMD_go : Fld := ⟨0xE00C0, 31, 1⟩
/-- RW. 0 read, 1 program, 2 erase 4 KiB, 3 erase 64 KiB -/
def F.NVM_XF_CMD_op : Fld := ⟨0xE00C0, 26, 2⟩

/-! NVM.XF_ADDR (R438 of spec/13_nvm_configuration.md) -/
def F.NVM_XF_ADDR : Fld := ⟨0xE00C4, 0, 32⟩
/-- RW. Flash byte address -/
def F.NVM_XF_ADDR_addr : Fld := ⟨0xE00C4, 0, 30⟩

/-! NVM.XF_LEN (R438 of spec/13_nvm_configuration.md) -/
def F.NVM_XF_LEN : Fld := ⟨0xE00C8, 0, 32⟩
/-- RW. Bytes − 1 -/
def F.NVM_XF_LEN_len_m1 : Fld := ⟨0xE00C8, 0, 16⟩

/-! NVM.XF_BUF (R438 of spec/13_nvm_configuration.md) -/
def F.NVM_XF_BUF : Fld := ⟨0xE00CC, 0, 32⟩
/-- RW. Local-store buffer offset, below 0xF8_0000 -/
def F.NVM_XF_BUF_offset : Fld := ⟨0xE00CC, 0, 24⟩

/-! NVM.XF_STAT (R438 of spec/13_nvm_configuration.md) -/
def F.NVM_XF_STAT : Fld := ⟨0xE00D0, 0, 32⟩
/-- RO. 1: flash command in progress -/
def F.NVM_XF_STAT_busy : Fld := ⟨0xE00D0, 31, 1⟩
/-- RO. 0 OK, 1 RANGE, 2 FLASH_ERR, 3 DENIED -/
def F.NVM_XF_STAT_result : Fld := ⟨0xE00D0, 28, 3⟩

/-! EVT.CTRL (R473/R474 of spec/14_host_events.md) -/
def F.EVT_CTRL : Fld := ⟨0xF0000, 0, 32⟩
/-- WO. 1: empty and unfreeze the stack -/
def F.EVT_CTRL_stk_init : Fld := ⟨0xF0000, 1, 1⟩
/-- WO. 1: clear EVT counters -/
def F.EVT_CTRL_clr_cnt : Fld := ⟨0xF0000, 0, 1⟩

/-! EVT.STATUS (R473/R474 of spec/14_host_events.md) -/
def F.EVT_STATUS : Fld := ⟨0xF0004, 0, 32⟩
/-- RO. 1: MSI-X armed -/
def F.EVT_STATUS_armed : Fld := ⟨0xF0004, 31, 1⟩
/-- RO. 1: u ≥ n − 1 -/
def F.EVT_STATUS_full : Fld := ⟨0xF0004, 30, 1⟩
/-- RO. 1: a source in Squall -/
def F.EVT_STATUS_squall : Fld := ⟨0xF0004, 29, 1⟩

/-! EVT.RING_LO (R473/R474 of spec/14_host_events.md) -/
def F.EVT_RING_LO : Fld := ⟨0xF0008, 0, 32⟩
/-- RW. Ring base bits 31:12 -/
def F.EVT_RING_LO_addr : Fld := ⟨0xF0008, 12, 20⟩

/-! EVT.RING_HI (R473/R474 of spec/14_host_events.md) -/
def F.EVT_RING_HI : Fld := ⟨0xF000C, 0, 32⟩
/-- RW. Ring base bits 63:32; 0 when space = 1 -/
def F.EVT_RING_HI_addr : Fld := ⟨0xF000C, 0, 32⟩

/-! EVT.RING_CFG (R473/R474 of spec/14_host_events.md) -/
def F.EVT_RING_CFG : Fld := ⟨0xF0010, 0, 32⟩
/-- RW. 1: ring in use -/
def F.EVT_RING_CFG_en : Fld := ⟨0xF0010, 31, 1⟩
/-- RW. 0: host memory; 1: local store -/
def F.EVT_RING_CFG_space : Fld := ⟨0xF0010, 30, 1⟩
/-- RW. Ring bytes 2^log2sz, 12–24 -/
def F.EVT_RING_CFG_log2sz : Fld := ⟨0xF0010, 0, 5⟩

/-! EVT.PROD (R473/R474 of spec/14_host_events.md) -/
def F.EVT_PROD : Fld := ⟨0xF0014, 0, 32⟩
/-- RO. Producer index -/
def F.EVT_PROD_index : Fld := ⟨0xF0014, 0, 32⟩

/-! EVT.CONS (R473/R474 of spec/14_host_events.md) -/
def F.EVT_CONS : Fld := ⟨0xF0018, 0, 32⟩
/-- RW. Consumer index; write arms MSI-X -/
def F.EVT_CONS_index : Fld := ⟨0xF0018, 0, 32⟩

/-! EVT.PROD_ADDR_LO (R473/R474 of spec/14_host_events.md) -/
def F.EVT_PROD_ADDR_LO : Fld := ⟨0xF001C, 0, 32⟩
/-- RW. Host copy of EVT.PROD, bits 31:2; 0: none -/
def F.EVT_PROD_ADDR_LO_addr : Fld := ⟨0xF001C, 2, 30⟩

/-! EVT.PROD_ADDR_HI (R473/R474 of spec/14_host_events.md) -/
def F.EVT_PROD_ADDR_HI : Fld := ⟨0xF0020, 0, 32⟩
/-- RW. Bits 63:32 -/
def F.EVT_PROD_ADDR_HI_addr : Fld := ⟨0xF0020, 0, 32⟩

/-! EVT.MASK (R473/R474 of spec/14_host_events.md) -/
def F.EVT_MASK : Fld := ⟨0xF0024, 0, 32⟩
/-- RW. Bit b: block b masked; bit 17: forwarded -/
def F.EVT_MASK_mask : Fld := ⟨0xF0024, 0, 18⟩

/-! EVT.PEND (R473/R474 of spec/14_host_events.md) -/
def F.EVT_PEND : Fld := ⟨0xF0028, 0, 32⟩
/-- HWS. Bit b: a masked record of block b -/
def F.EVT_PEND_pend : Fld := ⟨0xF0028, 0, 18⟩

/-! EVT.PEND_SEQ (R473/R474 of spec/14_host_events.md) -/
def F.EVT_PEND_SEQ : Fld := ⟨0xF002C, 0, 32⟩
/-- RO. seq of the last masked record -/
def F.EVT_PEND_SEQ_seq : Fld := ⟨0xF002C, 0, 32⟩

/-! EVT.PRIO (R473/R474 of spec/14_host_events.md) -/
def F.EVT_PRIO : Fld := ⟨0xF0030, 0, 32⟩
/-- RW. Priority of summary records -/
def F.EVT_PRIO_summary : Fld := ⟨0xF0030, 24, 4⟩
/-- RO. Always 15 -/
def F.EVT_PRIO_fatal : Fld := ⟨0xF0030, 12, 4⟩
/-- RW. Priority of error records -/
def F.EVT_PRIO_error : Fld := ⟨0xF0030, 8, 4⟩
/-- RW. Priority of warning records -/
def F.EVT_PRIO_warning : Fld := ⟨0xF0030, 4, 4⟩
/-- RW. Priority of info records -/
def F.EVT_PRIO_info : Fld := ⟨0xF0030, 0, 4⟩

/-! EVT.CLAIM (R473/R474 of spec/14_host_events.md) -/
def F.EVT_CLAIM : Fld := ⟨0xF0034, 0, 32⟩
/-- WO. Source to push -/
def F.EVT_CLAIM_source : Fld := ⟨0xF0034, 4, 12⟩
/-- WO. Priority to push -/
def F.EVT_CLAIM_prio : Fld := ⟨0xF0034, 0, 4⟩

/-! EVT.COMPLETE (R473/R474 of spec/14_host_events.md) -/
def F.EVT_COMPLETE : Fld := ⟨0xF0038, 0, 32⟩
/-- WO. Source to pop -/
def F.EVT_COMPLETE_source : Fld := ⟨0xF0038, 0, 12⟩

/-! EVT.STACK (R473/R474 of spec/14_host_events.md) -/
def F.EVT_STACK : Fld := ⟨0xF003C, 0, 32⟩
/-- RO. 1: corruption, R460 -/
def F.EVT_STACK_frozen : Fld := ⟨0xF003C, 31, 1⟩
/-- RO. Entries, 0–16 -/
def F.EVT_STACK_depth : Fld := ⟨0xF003C, 24, 5⟩
/-- RO. Top source -/
def F.EVT_STACK_top_src : Fld := ⟨0xF003C, 8, 12⟩
/-- RO. Top priority -/
def F.EVT_STACK_top_prio : Fld := ⟨0xF003C, 0, 4⟩

/-! EVT.ALARM (R473/R474 of spec/14_host_events.md) -/
def F.EVT_ALARM : Fld := ⟨0xF0040, 0, 32⟩
/-- HWS. Table 14.7 -/
def F.EVT_ALARM_alarm : Fld := ⟨0xF0040, 0, 11⟩

/-! EVT.ALARM_EN (R473/R474 of spec/14_host_events.md) -/
def F.EVT_ALARM_EN : Fld := ⟨0xF0044, 0, 32⟩
/-- RW. Bit a: alarm a drives ALARM_N -/
def F.EVT_ALARM_EN_en : Fld := ⟨0xF0044, 0, 11⟩

/-! EVT.SQUALL (R473/R474 of spec/14_host_events.md) -/
def F.EVT_SQUALL : Fld := ⟨0xF0048, 0, 32⟩
/-- RW. Records per window, 1–255 -/
def F.EVT_SQUALL_n : Fld := ⟨0xF0048, 16, 8⟩
/-- RW. Window in ms, 1–65,535; reset 100 -/
def F.EVT_SQUALL_w_ms : Fld := ⟨0xF0048, 0, 16⟩

/-! EVT.SQUALL_STAT (R473/R474 of spec/14_host_events.md) -/
def F.EVT_SQUALL_STAT : Fld := ⟨0xF004C, 0, 32⟩
/-- RO. Last source to enter Squall -/
def F.EVT_SQUALL_STAT_last : Fld := ⟨0xF004C, 20, 12⟩
/-- RO. Sources in Squall -/
def F.EVT_SQUALL_STAT_sources : Fld := ⟨0xF004C, 0, 13⟩

/-! EVT.TRC_LO (R473/R474 of spec/14_host_events.md) -/
def F.EVT_TRC_LO : Fld := ⟨0xF0050, 0, 32⟩
/-- RW. Trace base bits 31:12 -/
def F.EVT_TRC_LO_addr : Fld := ⟨0xF0050, 12, 20⟩

/-! EVT.TRC_HI (R473/R474 of spec/14_host_events.md) -/
def F.EVT_TRC_HI : Fld := ⟨0xF0054, 0, 32⟩
/-- RW. Trace base bits 39:32 -/
def F.EVT_TRC_HI_addr : Fld := ⟨0xF0054, 0, 8⟩

/-! EVT.TRC_CFG (R473/R474 of spec/14_host_events.md) -/
def F.EVT_TRC_CFG : Fld := ⟨0xF0058, 0, 32⟩
/-- RW. 1: trace ring in use -/
def F.EVT_TRC_CFG_en : Fld := ⟨0xF0058, 31, 1⟩
/-- RW. Trace bytes 2^log2sz, 16–26 -/
def F.EVT_TRC_CFG_log2sz : Fld := ⟨0xF0058, 0, 5⟩

/-! EVT.TRC_WR (R473/R474 of spec/14_host_events.md) -/
def F.EVT_TRC_WR : Fld := ⟨0xF005C, 0, 32⟩
/-- RO. Entries written -/
def F.EVT_TRC_WR_count : Fld := ⟨0xF005C, 0, 32⟩

/-! EVT.TRC_IDX (R473/R474 of spec/14_host_events.md) -/
def F.EVT_TRC_IDX : Fld := ⟨0xF0060, 0, 32⟩
/-- RW. Entry to load -/
def F.EVT_TRC_IDX_index : Fld := ⟨0xF0060, 0, 32⟩

/-! EVT.TRC_DATAk (R473/R474 of spec/14_host_events.md) -/
def F.EVT_TRC_DATA (i : Nat) : Fld := ⟨0xF0064 + 4 * i, 0, 32⟩
/-- RO. Bytes 4k to 4k + 3 of the loaded entry -/
def F.EVT_TRC_DATA_data (i : Nat) : Fld := ⟨0xF0064 + 4 * i, 0, 32⟩

/-! EVT.LOG_CFG (R473/R474 of spec/14_host_events.md) -/
def F.EVT_LOG_CFG : Fld := ⟨0xF0090, 0, 32⟩
/-- RW. 1: NVM log in use -/
def F.EVT_LOG_CFG_en : Fld := ⟨0xF0090, 31, 1⟩
/-- RW. Bit k: log class k -/
def F.EVT_LOG_CFG_classes : Fld := ⟨0xF0090, 0, 7⟩

/-! EVT.DROP (R473/R474 of spec/14_host_events.md) -/
def F.EVT_DROP : Fld := ⟨0xF0094, 0, 32⟩
/-- RO. Records lost before the trace ring -/
def F.EVT_DROP_trace : Fld := ⟨0xF0094, 16, 16⟩
/-- RO. Records lost before the event ring -/
def F.EVT_DROP_ring : Fld := ⟨0xF0094, 0, 16⟩

/-! EVT.CNT_COAL (R473/R474 of spec/14_host_events.md) -/
def F.EVT_CNT_COAL : Fld := ⟨0xF0098, 0, 32⟩
/-- RO. Records coalesced -/
def F.EVT_CNT_COAL_records : Fld := ⟨0xF0098, 0, 32⟩

/-! EVT.CNT_LOGSUP (R473/R474 of spec/14_host_events.md) -/
def F.EVT_CNT_LOGSUP : Fld := ⟨0xF009C, 0, 32⟩
/-- RO. Records suppressed from the NVM log -/
def F.EVT_CNT_LOGSUP_records : Fld := ⟨0xF009C, 0, 32⟩

/-! EVT.CNT_ERR (R473/R474 of spec/14_host_events.md) -/
def F.EVT_CNT_ERR : Fld := ⟨0xF00A0, 0, 32⟩
/-- RO. Writes ignored while frozen -/
def F.EVT_CNT_ERR_stack : Fld := ⟨0xF00A0, 16, 16⟩
/-- RO. EVT.CONS writes ignored -/
def F.EVT_CNT_ERR_cons : Fld := ⟨0xF00A0, 0, 16⟩

/-! SEC.CTRL (R498 of spec/15_security.md) -/
def F.SEC_CTRL : Fld := ⟨0x100000, 0, 32⟩
/-- WO. 1: clear SEC counters -/
def F.SEC_CTRL_clr_cnt : Fld := ⟨0x100000, 8, 1⟩
/-- WO. 1: copy certificate chain, R483 -/
def F.SEC_CTRL_cert : Fld := ⟨0x100000, 7, 1⟩
/-- WO. 1: attestation report, R484 -/
def F.SEC_CTRL_att : Fld := ⟨0x100000, 6, 1⟩
/-- WO. 1: enrol, R478 -/
def F.SEC_CTRL_enroll : Fld := ⟨0x100000, 5, 1⟩
/-- WO. 1: close the session -/
def F.SEC_CTRL_ses_close : Fld := ⟨0x100000, 4, 1⟩
/-- WO. 1: perform the sealed command -/
def F.SEC_CTRL_ses_cmd : Fld := ⟨0x100000, 3, 1⟩
/-- WO. 1: check S2, write S3 -/
def F.SEC_CTRL_ses_finish : Fld := ⟨0x100000, 2, 1⟩
/-- WO. 1: write S1 -/
def F.SEC_CTRL_ses_start : Fld := ⟨0x100000, 1, 1⟩

/-! SEC.STATUS (R498 of spec/15_security.md) -/
def F.SEC_STATUS : Fld := ⟨0x100004, 0, 32⟩
/-- RO. 1: command in progress -/
def F.SEC_STATUS_busy : Fld := ⟨0x100004, 31, 1⟩
/-- RO. 0 OK, 1 BAD_STATE, 2 BAD_MSG, 3 AUTH, 4 REPLAY, 5 DENIED, 6 FUSE_CONFLICT, 7 RANGE -/
def F.SEC_STATUS_result : Fld := ⟨0x100004, 28, 3⟩
/-- RO. Table 15.1 -/
def F.SEC_STATUS_lifecycle : Fld := ⟨0x100004, 26, 2⟩
/-- RO. 0 none, 1 started, 2 open -/
def F.SEC_STATUS_session : Fld := ⟨0x100004, 24, 2⟩
/-- RO. 0 PCIe, 1 management port, 2 Orsal -/
def F.SEC_STATUS_path : Fld := ⟨0x100004, 22, 2⟩
/-- RO. 1: certified configuration, R496 -/
def F.SEC_STATUS_cc : Fld := ⟨0x100004, 21, 1⟩
/-- RO. 1: a protected allocation exists -/
def F.SEC_STATUS_prot : Fld := ⟨0x100004, 20, 1⟩

/-! SEC.SERIAL_LO (R498 of spec/15_security.md) -/
def F.SEC_SERIAL_LO : Fld := ⟨0x100008, 0, 32⟩
/-- RO. Serial number bits 31:0 -/
def F.SEC_SERIAL_LO_serial : Fld := ⟨0x100008, 0, 32⟩

/-! SEC.SERIAL_HI (R498 of spec/15_security.md) -/
def F.SEC_SERIAL_HI : Fld := ⟨0x10000C, 0, 32⟩
/-- RO. Bits 63:32 -/
def F.SEC_SERIAL_HI_serial : Fld := ⟨0x10000C, 0, 32⟩

/-! SEC.FUSE (R498 of spec/15_security.md) -/
def F.SEC_FUSE : Fld := ⟨0x100010, 0, 32⟩
/-- RO. Anti-rollback counter, R480 -/
def F.SEC_FUSE_arb : Fld := ⟨0x100010, 24, 8⟩
/-- RO. Fuse -/
def F.SEC_FUSE_jtag_lock : Fld := ⟨0x100010, 3, 1⟩
/-- RO. Fuse -/
def F.SEC_FUSE_retired : Fld := ⟨0x100010, 2, 1⟩
/-- RO. Fuse -/
def F.SEC_FUSE_owner_lock : Fld := ⟨0x100010, 1, 1⟩
/-- RO. Fuse -/
def F.SEC_FUSE_mfg_done : Fld := ⟨0x100010, 0, 1⟩

/-! SEC.CFG (R498 of spec/15_security.md) -/
def F.SEC_CFG : Fld := ⟨0x100014, 0, 32⟩
/-- RW, sealed. 1: boot with src = 1 allowed -/
def F.SEC_CFG_host_boot : Fld := ⟨0x100014, 8, 1⟩
/-- RW, sealed. Idle limit in s, 1–255; reset 60 -/
def F.SEC_CFG_ses_idle : Fld := ⟨0x100014, 0, 8⟩

/-! SEC.ATT_BUF (R498 of spec/15_security.md) -/
def F.SEC_ATT_BUF : Fld := ⟨0x100018, 0, 32⟩
/-- RW. Local-store offset, 16-byte aligned, 4 KiB, outside the mailbox -/
def F.SEC_ATT_BUF_offset : Fld := ⟨0x100018, 0, 24⟩

/-! SEC.SES_BUF (R498 of spec/15_security.md) -/
def F.SEC_SES_BUF : Fld := ⟨0x10001C, 0, 32⟩
/-- RW. Local-store offset, 16-byte aligned, 512 bytes; may lie in the mailbox -/
def F.SEC_SES_BUF_offset : Fld := ⟨0x10001C, 0, 24⟩

/-! SEC.CERT_LEN (R498 of spec/15_security.md) -/
def F.SEC_CERT_LEN : Fld := ⟨0x100020, 0, 32⟩
/-- RO. Certificate chain length -/
def F.SEC_CERT_LEN_bytes : Fld := ⟨0x100020, 0, 13⟩

/-! SEC.NONCEk (R498 of spec/15_security.md) -/
def F.SEC_NONCE (i : Nat) : Fld := ⟨0x100030 + 4 * i, 0, 32⟩
/-- RW. Report bytes 16 + 4k to 19 + 4k -/
def F.SEC_NONCE_nonce (i : Nat) : Fld := ⟨0x100030 + 4 * i, 0, 32⟩

/-! SEC.SES_CTR_LO (R498 of spec/15_security.md) -/
def F.SEC_SES_CTR_LO : Fld := ⟨0x100060, 0, 32⟩
/-- RO. Last accepted ctr bits 31:0 -/
def F.SEC_SES_CTR_LO_ctr : Fld := ⟨0x100060, 0, 32⟩

/-! SEC.SES_CTR_HI (R498 of spec/15_security.md) -/
def F.SEC_SES_CTR_HI : Fld := ⟨0x100064, 0, 32⟩
/-- RO. Bits 63:32 -/
def F.SEC_SES_CTR_HI_ctr : Fld := ⟨0x100064, 0, 32⟩

/-! SEC.HDCP_STAT (R498 of spec/15_security.md) -/
def F.SEC_HDCP_STAT : Fld := ⟨0x100068, 0, 32⟩
/-- RO. 1: authenticated -/
def F.SEC_HDCP_STAT_auth : Fld := ⟨0x100068, 31, 1⟩
/-- RO. 1: stream type 1 -/
def F.SEC_HDCP_STAT_type1 : Fld := ⟨0x100068, 30, 1⟩

/-! SEC.HDCP_RXID_LO (R498 of spec/15_security.md) -/
def F.SEC_HDCP_RXID_LO : Fld := ⟨0x10006C, 0, 32⟩
/-- RO. Receiver ID bits 31:0 -/
def F.SEC_HDCP_RXID_LO_id : Fld := ⟨0x10006C, 0, 32⟩

/-! SEC.HDCP_RXID_HI (R498 of spec/15_security.md) -/
def F.SEC_HDCP_RXID_HI : Fld := ⟨0x100070, 0, 32⟩
/-- RO. Bits 39:32 -/
def F.SEC_HDCP_RXID_HI_id : Fld := ⟨0x100070, 0, 8⟩

/-! SEC.CNT_REFUSE (R498 of spec/15_security.md) -/
def F.SEC_CNT_REFUSE : Fld := ⟨0x100074, 0, 32⟩
/-- RO. BAR2 writes discarded -/
def F.SEC_CNT_REFUSE_wr : Fld := ⟨0x100074, 24, 8⟩
/-- RO. Codec jobs refused -/
def F.SEC_CNT_REFUSE_job : Fld := ⟨0x100074, 16, 8⟩
/-- RO. BAR2 read requests refused -/
def F.SEC_CNT_REFUSE_rd : Fld := ⟨0x100074, 0, 16⟩

/-! SEC.CNT_AUTH (R498 of spec/15_security.md) -/
def F.SEC_CNT_AUTH : Fld := ⟨0x100078, 0, 32⟩
/-- RO. Session openings ending AUTH -/
def F.SEC_CNT_AUTH_ses_fail : Fld := ⟨0x100078, 16, 16⟩
/-- RO. Commands ending AUTH or REPLAY -/
def F.SEC_CNT_AUTH_cmd_fail : Fld := ⟨0x100078, 0, 16⟩

/-! SEC.CNT_PLAIN (R498 of spec/15_security.md) -/
def F.SEC_CNT_PLAIN : Fld := ⟨0x10007C, 0, 32⟩
/-- RO. Plain writes to protected registers -/
def F.SEC_CNT_PLAIN_writes : Fld := ⟨0x10007C, 0, 32⟩

end Sys2Proof.Machine
end

