-- ==== Sys2Proof/Machine/RegTab.lean ====
section
/-!
DEFINITION. The access table of the register space, from the register tables of the chapters: for each register (or array of
registers) the bits of each access code of R10, the condition under which conditional bits are writable, the commit class of
its shadowed bits (R199, R210) and its reset value.
-/

namespace Sys2Proof.Machine

/-- When the conditionally writable bits of a register may be written, as its chapter's table says. -/
inductive Cond where
  /-- no condition -/
  | always
  /-- RW, off: only in the states its chapter names (R319, R347) -/
  | off
  /-- RW, stop: only while ageing is stopped (R284) -/
  | stop
  /-- RW, init: only during initialisation (R410) -/
  | init
  /-- RW, sealed: only by a sealed command (R498) -/
  | sealed
  /-- an ingest transfer table: only while its input is disabled (R133) -/
  | intab
  deriving DecidableEq, Repr

/-- One register, or one array of registers `base + stride * i`, `i < count`, with a mask for each access code of R10. -/
structure RegDesc where
  base : Nat
  stride : Nat
  count : Nat
  /-- bits writable at any time (RW and HWS) -/
  rw : Nat
  /-- bits writable under `cond` -/
  cnd : Nat
  cond : Cond
  /-- shadowed bits (RWS) of commit class V, S and N -/
  v : Nat
  s : Nat
  n : Nat
  /-- write-only bits -/
  wo : Nat
  rst : Nat
  deriving DecidableEq, Repr

/-- Registers of block GEN (14_host_events), part 0. -/
def regs_gen_0 : List RegDesc := [
  ⟨0x0, 4, 1, 0x0, 0x0, .always, 0x0, 0x0, 0x0, 0x0, 0x8820A100⟩,
  ⟨0x4, 4, 1, 0xFFFFFFFF, 0x0, .always, 0x0, 0x0, 0x0, 0x0, 0x0⟩,
  ⟨0x8, 4, 1, 0xFFF00000, 0x0, .always, 0x0, 0x0, 0x0, 0x0, 0x0⟩,
  ⟨0xC, 4, 1, 0xFF, 0x0, .always, 0x0, 0x0, 0x0, 0x0, 0x0⟩,
  ⟨0x10, 4, 1, 0x0, 0x0, .always, 0x0, 0x0, 0x0, 0x0, 0x0⟩,
  ⟨0x14, 4, 1, 0x7, 0x0, .always, 0x0, 0x0, 0x0, 0x0, 0x0⟩,
  ⟨0x1000, 4, 3, 0xFFFFFFFF, 0x0, .always, 0x0, 0x0, 0x0, 0x0, 0x0⟩,
  ⟨0x100C, 4, 1, 0xFFFFFFFF, 0x0, .always, 0x0, 0x0, 0x0, 0x0, 0x1⟩,
  ⟨0x1800, 4, 1, 0x0, 0x0, .always, 0x0, 0x0, 0x0, 0x0, 0x0⟩]

/-- Every register of block GEN. -/
def regs_gen : List RegDesc := regs_gen_0

/-- Registers of block PWR (16_power_management), part 0. -/
def regs_pwr_0 : List RegDesc := [
  ⟨0x10000, 4, 1, 0x0, 0x0, .always, 0x0, 0x0, 0x0, 0x7, 0x0⟩,
  ⟨0x10004, 4, 1, 0x7, 0x0, .always, 0x0, 0x0, 0x0, 0x0, 0x1⟩,
  ⟨0x10008, 4, 1, 0xFFFFFFFF, 0x0, .always, 0x0, 0x0, 0x0, 0x0, 0xFFFFFFFF⟩,
  ⟨0x1000C, 4, 1, 0xFFFFFFFF, 0x0, .always, 0x0, 0x0, 0x0, 0x0, 0x3E8⟩,
  ⟨0x10010, 4, 1, 0x0, 0x0, .always, 0x0, 0x0, 0x0, 0x0, 0x0⟩,
  ⟨0x10014, 4, 1, 0x0, 0x0, .always, 0x0, 0x0, 0x0, 0x0, 0x3FFFFFFF⟩,
  ⟨0x10018, 4, 1, 0x0, 0x0, .always, 0x0, 0x0, 0x0, 0x0, 0x0⟩,
  ⟨0x1001C, 4, 1, 0x7F, 0x0, .always, 0x0, 0x0, 0x0, 0x0, 0x7F⟩,
  ⟨0x10020, 4, 1, 0x0, 0x0, .always, 0x0, 0x0, 0x0, 0x0, 0x0⟩,
  ⟨0x10024, 4, 1, 0x0, 0x0, .always, 0x0, 0x0, 0x0, 0x0, 0x0⟩]

/-- Every register of block PWR. -/
def regs_pwr : List RegDesc := regs_pwr_0

/-- Registers of block TMB (02_time_base), part 0. -/
def regs_tmb_0 : List RegDesc := [
  ⟨0x20000, 4, 1, 0x0, 0x0, .always, 0x0, 0x0, 0x0, 0x7, 0x0⟩,
  ⟨0x20004, 4, 1, 0x0, 0x0, .always, 0x0, 0x777, 0x0, 0x0, 0x200⟩,
  ⟨0x20008, 4, 1, 0x0, 0x0, .always, 0x0, 0xFFFFFFFF, 0x0, 0x0, 0x10001⟩,
  ⟨0x2000C, 4, 1, 0x0, 0x0, .always, 0x0, 0xFFFFFFFF, 0x0, 0x0, 0x3B9ACA0⟩,
  ⟨0x20010, 4, 1, 0x0, 0x0, .always, 0x0, 0xFFFFFFFF, 0x0, 0x0, 0x0⟩,
  ⟨0x20014, 4, 1, 0xFFFFFF, 0x0, .always, 0x0, 0x0, 0x0, 0x0, 0x5DC⟩,
  ⟨0x20018, 4, 1, 0xFFFFFFF, 0x0, .always, 0x0, 0x0, 0x0, 0x0, 0x3100096⟩,
  ⟨0x2001C, 4, 1, 0xFFFF, 0x0, .always, 0x0, 0x0, 0x0, 0x0, 0xA14⟩,
  ⟨0x20020, 4, 1, 0x0, 0x0, .always, 0x0, 0x0, 0x0, 0x0, 0x0⟩,
  ⟨0x20024, 4, 1, 0x0, 0x0, .always, 0x0, 0x0, 0x0, 0x0, 0x0⟩,
  ⟨0x20028, 4, 1, 0x0, 0x0, .always, 0x0, 0x0, 0x0, 0x0, 0x0⟩,
  ⟨0x2002C, 4, 1, 0x0, 0x0, .always, 0x0, 0x0, 0x0, 0x0, 0x0⟩,
  ⟨0x20030, 4, 1, 0x0, 0x0, .always, 0x0, 0x0, 0x0, 0x0, 0x0⟩,
  ⟨0x20034, 4, 1, 0x0, 0x0, .always, 0x0, 0x0, 0x0, 0x0, 0x0⟩,
  ⟨0x20038, 4, 1, 0x0, 0x0, .always, 0x0, 0x0, 0x0, 0x0, 0x0⟩,
  ⟨0x2003C, 4, 1, 0x0, 0x0, .always, 0x0, 0x0, 0x0, 0x0, 0x0⟩,
  ⟨0x20040, 4, 1, 0x0, 0x0, .always, 0x0, 0x0, 0x0, 0x0, 0x0⟩,
  ⟨0x20044, 4, 1, 0x0, 0x0, .always, 0x0, 0x0, 0x0, 0x0, 0x0⟩,
  ⟨0x20048, 4, 1, 0x0, 0x0, .always, 0x0, 0x0, 0x0, 0x0, 0x0⟩,
  ⟨0x2004C, 4, 1, 0x0, 0x0, .always, 0x0, 0x0, 0x0, 0x0, 0x0⟩]

/-- Every register of block TMB. -/
def regs_tmb : List RegDesc := regs_tmb_0

/-- Registers of block EXS (03_exposure_scheduling), part 0. -/
def regs_exs_0 : List RegDesc := [
  ⟨0x30000, 4, 1, 0x0, 0x0, .always, 0x0, 0x1, 0x0, 0x2, 0x0⟩,
  ⟨0x30004, 4, 1, 0x0, 0x0, .always, 0x0, 0x0, 0x0, 0x0, 0x0⟩,
  ⟨0x30008, 4, 1, 0x0, 0x0, .always, 0x0, 0xFFFF, 0x0, 0x0, 0x5DC⟩,
  ⟨0x3000C, 4, 1, 0x0, 0x0, .always, 0x0, 0x7FF07FF, 0x0, 0x0, 0x4000000⟩,
  ⟨0x30010, 4, 1, 0x0, 0x0, .always, 0x0, 0xFFFFFFFF, 0x0, 0x0, 0x16E360⟩,
  ⟨0x30014, 4, 1, 0x0, 0x0, .always, 0x0, 0xFFFFFFFF, 0x0, 0x0, 0x10003A98⟩,
  ⟨0x30018, 4, 1, 0x0, 0x0, .always, 0x0, 0xFFFFFF, 0x0, 0x0, 0x0⟩,
  ⟨0x3001C, 4, 1, 0x0, 0x0, .always, 0x0, 0x0, 0x0, 0x0, 0x0⟩,
  ⟨0x30020, 4, 1, 0x0, 0x0, .always, 0x0, 0x0, 0x0, 0x0, 0x0⟩,
  ⟨0x30100, 64, 4, 0x0, 0x0, .always, 0x0, 0xFFF71F, 0x0, 0x0, 0x424000⟩,
  ⟨0x30104, 64, 4, 0x0, 0x0, .always, 0x0, 0xFFFFFFFF, 0x0, 0x0, 0x0⟩,
  ⟨0x30108, 64, 4, 0x0, 0x0, .always, 0x0, 0xFFFF, 0x0, 0x0, 0x4650⟩,
  ⟨0x3010C, 64, 4, 0x0, 0x0, .always, 0x0, 0xFFFFFFFF, 0x0, 0x0, 0x0⟩,
  ⟨0x30110, 64, 4, 0x0, 0x0, .always, 0x0, 0x1FFF1FFF, 0x0, 0x0, 0x10DF0000⟩,
  ⟨0x30114, 64, 4, 0x0, 0x0, .always, 0x0, 0xFFFF, 0x0, 0x0, 0x0⟩,
  ⟨0x30118, 64, 4, 0x0, 0x0, .always, 0x0, 0xFFFFFFFF, 0x0, 0x0, 0x5003A98⟩,
  ⟨0x3011C, 64, 4, 0x0, 0x0, .always, 0x0, 0x0, 0x0, 0x0, 0x0⟩,
  ⟨0x30120, 64, 4, 0x0, 0x0, .always, 0x0, 0x0, 0x0, 0x0, 0x0⟩,
  ⟨0x30124, 64, 4, 0x0, 0x0, .always, 0x0, 0x0, 0x0, 0x0, 0x0⟩,
  ⟨0x30128, 64, 4, 0x0, 0x0, .always, 0x0, 0x0, 0x0, 0x0, 0x0⟩]

/-- Registers of block EXS (03_exposure_scheduling), part 1. -/
def regs_exs_1 : List RegDesc := [
  ⟨0x3012C, 64, 4, 0x0, 0x0, .always, 0x0, 0x0, 0x0, 0x0, 0x0⟩,
  ⟨0x30130, 64, 4, 0x0, 0x0, .always, 0x0, 0x0, 0x0, 0x0, 0x0⟩]

/-- Every register of block EXS. -/
def regs_exs : List RegDesc := regs_exs_0 ++ regs_exs_1

/-- Registers of block ING (04_ingest_block_queues), part 0. -/
def regs_ing_0 : List RegDesc := [
  ⟨0x40000, 4, 1, 0x0, 0x0, .always, 0x0, 0x0, 0x0, 0x1, 0x0⟩,
  ⟨0x40004, 4, 1, 0x0, 0x0, .always, 0x0, 0x0, 0x0, 0x0, 0x0⟩,
  ⟨0x40100, 64, 5, 0x0, 0x0, .always, 0x0, 0xFF07, 0x0, 0x0, 0x2900⟩,
  ⟨0x40104, 64, 5, 0x0, 0x0, .always, 0x0, 0x1FFFFF, 0x0, 0x0, 0x0⟩,
  ⟨0x40108, 64, 5, 0x0, 0x0, .always, 0x0, 0xF03FF, 0x0, 0x0, 0x30000⟩,
  ⟨0x4010C, 64, 5, 0x0, 0x0, .always, 0x0, 0x1FFF1FFF, 0x0, 0x0, 0x10DF1DFF⟩,
  ⟨0x40110, 64, 5, 0x0, 0x0, .always, 0x0, 0x800000FF, 0x0, 0x0, 0x80000001⟩,
  ⟨0x40114, 64, 5, 0x0, 0x0, .always, 0x0, 0x0, 0x0, 0x0, 0x0⟩,
  ⟨0x40118, 64, 5, 0x0, 0x0, .always, 0x0, 0x0, 0x0, 0x0, 0x0⟩,
  ⟨0x4011C, 64, 5, 0x0, 0x0, .always, 0x0, 0x0, 0x0, 0x0, 0x0⟩,
  ⟨0x40120, 64, 5, 0x0, 0x0, .always, 0x0, 0x0, 0x0, 0x0, 0x0⟩,
  ⟨0x40124, 64, 5, 0x0, 0x0, .always, 0x0, 0xFFFFFFFF, 0x0, 0x0, 0x4000⟩,
  ⟨0x40128, 64, 5, 0x0, 0x0, .always, 0x0, 0xFFFFFFFF, 0x0, 0x0, 0x0⟩,
  ⟨0x4012C, 64, 5, 0x0, 0x0, .always, 0x0, 0xFFFFFFFF, 0x0, 0x0, 0x4000⟩,
  ⟨0x40130, 64, 5, 0x0, 0x0, .always, 0x0, 0xFFFFFFFF, 0x0, 0x0, 0x0⟩,
  ⟨0x40134, 64, 5, 0x0, 0x0, .always, 0x0, 0xFFFF, 0x0, 0x0, 0x4000⟩,
  ⟨0x44000, 4, 2049, 0x0, 0xFFFFFFFF, .intab, 0x0, 0x0, 0x0, 0x0, 0x0⟩,
  ⟨0x46100, 4, 2049, 0x0, 0xFFFFFFFF, .intab, 0x0, 0x0, 0x0, 0x0, 0x0⟩,
  ⟨0x48200, 4, 2049, 0x0, 0xFFFFFFFF, .intab, 0x0, 0x0, 0x0, 0x0, 0x0⟩,
  ⟨0x4A300, 4, 2049, 0x0, 0xFFFFFFFF, .intab, 0x0, 0x0, 0x0, 0x0, 0x0⟩]

/-- Registers of block ING (04_ingest_block_queues), part 1. -/
def regs_ing_1 : List RegDesc := [
  ⟨0x4C400, 4, 2049, 0x0, 0xFFFFFFFF, .intab, 0x0, 0x0, 0x0, 0x0, 0x0⟩]

/-- Every register of block ING. -/
def regs_ing : List RegDesc := regs_ing_0 ++ regs_ing_1

/-- Registers of block BLQ (04_ingest_block_queues), part 0. -/
def regs_blq_0 : List RegDesc := [
  ⟨0x50000, 4, 1, 0x0, 0x0, .always, 0x0, 0x0, 0x0, 0x1, 0x0⟩,
  ⟨0x50004, 4, 1, 0x0, 0x0, .always, 0x0, 0x0, 0x0, 0x0, 0x0⟩,
  ⟨0x50008, 4, 1, 0xFFFFFF, 0x0, .always, 0x0, 0x0, 0x0, 0x0, 0xF78000⟩,
  ⟨0x50010, 4, 8, 0xFFFFFFFF, 0x0, .always, 0x0, 0x0, 0x0, 0x0, 0x0⟩,
  ⟨0x50030, 4, 1, 0x0, 0x0, .always, 0x0, 0x0, 0x0, 0x1, 0x0⟩,
  ⟨0x50034, 4, 1, 0x0, 0x0, .always, 0x0, 0x0, 0x0, 0x0, 0x0⟩,
  ⟨0x50038, 4, 1, 0x0, 0x0, .always, 0x0, 0x0, 0x0, 0x0, 0x0⟩,
  ⟨0x50040, 4, 1, 0x0, 0x0, .always, 0x0, 0x0, 0x0, 0x0, 0x0⟩,
  ⟨0x50044, 4, 1, 0x0, 0x0, .always, 0x0, 0x0, 0x0, 0x0, 0x0⟩,
  ⟨0x50048, 4, 1, 0x0, 0x0, .always, 0x0, 0x0, 0x0, 0x0, 0x0⟩,
  ⟨0x5004C, 4, 1, 0x0, 0x0, .always, 0x0, 0x0, 0x0, 0x0, 0x0⟩,
  ⟨0x50050, 4, 1, 0x0, 0x0, .always, 0x0, 0x0, 0x0, 0x0, 0x0⟩,
  ⟨0x50060, 4, 1, 0x1FFFFF, 0x0, .always, 0x0, 0x0, 0x0, 0x0, 0x0⟩,
  ⟨0x50064, 4, 1, 0x0, 0x0, .always, 0x0, 0x0, 0x0, 0x0, 0x400⟩,
  ⟨0x50068, 4, 1, 0x0, 0x0, .always, 0x0, 0x0, 0x0, 0x0, 0x0⟩,
  ⟨0x50070, 4, 1, 0x3FF, 0x0, .always, 0x0, 0x0, 0x0, 0x0, 0x0⟩,
  ⟨0x50074, 4, 1, 0x0, 0x0, .always, 0x0, 0x0, 0x0, 0x0, 0x0⟩]

/-- Every register of block BLQ. -/
def regs_blq : List RegDesc := regs_blq_0

/-- Registers of block CDC (05_frame_codec), part 0. -/
def regs_cdc_0 : List RegDesc := [
  ⟨0x60000, 4, 1, 0x0, 0x0, .always, 0x0, 0x0, 0x0, 0x3, 0x0⟩,
  ⟨0x60004, 4, 1, 0x1F73, 0x0, .always, 0x0, 0x0, 0x0, 0x0, 0x421⟩,
  ⟨0x60008, 4, 1, 0x0, 0x0, .always, 0x0, 0x0, 0x0, 0x0, 0x0⟩,
  ⟨0x6000C, 4, 1, 0xFFFFFF, 0x0, .always, 0x0, 0x0, 0x0, 0x0, 0xF70000⟩,
  ⟨0x60010, 4, 1, 0xF, 0x0, .always, 0x0, 0x0, 0x0, 0x0, 0x4⟩,
  ⟨0x60014, 4, 1, 0xFFFF, 0x0, .always, 0x0, 0x0, 0x0, 0x0, 0x0⟩,
  ⟨0x60018, 4, 1, 0x0, 0x0, .always, 0x0, 0x0, 0x0, 0x0, 0x0⟩,
  ⟨0x6001C, 4, 1, 0x0, 0x0, .always, 0x0, 0x0, 0x0, 0x0, 0x0⟩,
  ⟨0x60020, 4, 1, 0x0, 0x0, .always, 0x0, 0x0, 0x0, 0x0, 0x0⟩,
  ⟨0x60024, 4, 1, 0x0, 0x0, .always, 0x0, 0x0, 0x0, 0x0, 0x0⟩,
  ⟨0x60028, 4, 1, 0x0, 0x0, .always, 0x0, 0x0, 0x0, 0x0, 0x0⟩,
  ⟨0x6002C, 4, 1, 0x0, 0x0, .always, 0x0, 0x0, 0x0, 0x0, 0x0⟩,
  ⟨0x60030, 4, 1, 0x0, 0x0, .always, 0x0, 0x0, 0x0, 0x0, 0x0⟩,
  ⟨0x60034, 4, 1, 0x0, 0x0, .always, 0x0, 0x0, 0x0, 0x0, 0x0⟩,
  ⟨0x60038, 4, 1, 0x0, 0x0, .always, 0x0, 0x0, 0x0, 0x0, 0x0⟩,
  ⟨0x6003C, 4, 1, 0x0, 0x0, .always, 0x0, 0x0, 0x0, 0x0, 0x0⟩]

/-- Every register of block CDC. -/
def regs_cdc : List RegDesc := regs_cdc_0

/-- Registers of block SCN (06_scanout), part 0. -/
def regs_scn_0 : List RegDesc := [
  ⟨0x70000, 4, 1, 0x0, 0x0, .always, 0x0, 0x0, 0x0, 0x1, 0x0⟩,
  ⟨0x70004, 4, 1, 0x0, 0x0, .always, 0x0, 0x0, 0x0, 0x1, 0x0⟩,
  ⟨0x70008, 4, 1, 0x0, 0x0, .always, 0x0, 0x0, 0x3, 0x0, 0x0⟩,
  ⟨0x7000C, 4, 1, 0x0, 0x0, .always, 0x0, 0x0, 0x1FFF1FFF, 0x0, 0x10DF1DFF⟩,
  ⟨0x70010, 4, 1, 0x0, 0x0, .always, 0x0, 0x0, 0xFFFFFFFF, 0x0, 0x58C745D⟩,
  ⟨0x70014, 4, 1, 0x0, 0x0, .always, 0x0, 0x0, 0xFFFFFF, 0x0, 0x1BBE4⟩,
  ⟨0x70018, 4, 1, 0x0, 0x0, .always, 0x7F7F7F, 0x0, 0x0, 0x0, 0x302010⟩,
  ⟨0x7001C, 4, 1, 0x0, 0x0, .always, 0xFFFFFFFF, 0x0, 0x0, 0x0, 0x0⟩,
  ⟨0x70020, 4, 1, 0x0, 0x0, .always, 0xFFFF, 0x0, 0x0, 0x0, 0x0⟩,
  ⟨0x70024, 4, 1, 0x0, 0x0, .always, 0x0, 0x0, 0x0, 0x0, 0xF000000⟩,
  ⟨0x70028, 4, 1, 0x0, 0x0, .always, 0x0, 0x0, 0x0, 0x0, 0xC000⟩,
  ⟨0x70030, 4, 1, 0x0, 0x0, .always, 0x0, 0x0, 0x0, 0x0, 0x0⟩,
  ⟨0x70034, 4, 1, 0x0, 0x0, .always, 0x0, 0x0, 0x0, 0x0, 0x0⟩,
  ⟨0x70038, 4, 1, 0x0, 0x0, .always, 0x0, 0x0, 0x0, 0x0, 0x0⟩,
  ⟨0x7003C, 4, 1, 0x0, 0x0, .always, 0x0, 0x0, 0x0, 0x0, 0x0⟩,
  ⟨0x70040, 4, 1, 0x0, 0x0, .always, 0x0, 0x0, 0x0, 0x0, 0x0⟩,
  ⟨0x70044, 4, 1, 0x0, 0x0, .always, 0x0, 0x0, 0x0, 0x0, 0x0⟩,
  ⟨0x70060, 4, 1, 0x0, 0x0, .always, 0xFFFFFFFF, 0x0, 0x0, 0x0, 0x4000⟩,
  ⟨0x70064, 4, 1, 0x0, 0x0, .always, 0xFFFFFFFF, 0x0, 0x0, 0x0, 0x0⟩,
  ⟨0x70068, 4, 1, 0x0, 0x0, .always, 0xFFFFFFFF, 0x0, 0x0, 0x0, 0x4000⟩]

/-- Registers of block SCN (06_scanout), part 1. -/
def regs_scn_1 : List RegDesc := [
  ⟨0x7006C, 4, 1, 0x0, 0x0, .always, 0xFFFFFFFF, 0x0, 0x0, 0x0, 0x0⟩,
  ⟨0x70070, 4, 1, 0x0, 0x0, .always, 0xFFFF, 0x0, 0x0, 0x0, 0x4000⟩,
  ⟨0x70200, 16, 20, 0x0, 0x0, .always, 0x0, 0x1F03, 0x0, 0x0, 0x0⟩,
  ⟨0x70204, 16, 20, 0x0, 0x0, .always, 0x0, 0x3FFF3FFF, 0x0, 0x0, 0x0⟩,
  ⟨0x70208, 16, 20, 0x0, 0x0, .always, 0x0, 0x1FFF1FFF, 0x0, 0x0, 0x10DF1DFF⟩,
  ⟨0x7020C, 16, 20, 0x0, 0x0, .always, 0xFFFF, 0x0, 0x0, 0x0, 0xFFFF⟩,
  ⟨0x71000, 4, 2049, 0xFFFFFFFF, 0x0, .always, 0x0, 0x0, 0x0, 0x0, 0x0⟩,
  ⟨0x73100, 4, 2049, 0xFFFFFFFF, 0x0, .always, 0x0, 0x0, 0x0, 0x0, 0x0⟩,
  ⟨0x75200, 4, 2049, 0xFFFFFFFF, 0x0, .always, 0x0, 0x0, 0x0, 0x0, 0x0⟩,
  ⟨0x78000, 4, 7680, 0x0, 0x0, .always, 0xFFFFFFFF, 0x0, 0x0, 0x0, 0x0⟩]

/-- Every register of block SCN. -/
def regs_scn : List RegDesc := regs_scn_0 ++ regs_scn_1

/-- Registers of block PPX (07_panel_processing), part 0. -/
def regs_ppx_0 : List RegDesc := [
  ⟨0x80000, 4, 1, 0x0, 0x0, .always, 0x0, 0x0, 0x0, 0x1, 0x0⟩,
  ⟨0x80004, 4, 1, 0x0, 0x0, .always, 0x0, 0x0, 0x0, 0x0, 0x0⟩,
  ⟨0x80008, 4, 1, 0x0, 0x0, .always, 0x77F, 0x0, 0x0, 0x0, 0x440⟩,
  ⟨0x8000C, 4, 1, 0x0, 0x0, .always, 0x1F, 0x0, 0x0, 0x0, 0x0⟩,
  ⟨0x80010, 4, 1, 0x0, 0x0, .always, 0x3FF, 0x0, 0x0, 0x0, 0x0⟩,
  ⟨0x80014, 4, 1, 0x0, 0x0, .always, 0xFFF0003, 0x0, 0x0, 0x0, 0x1000001⟩,
  ⟨0x80018, 4, 4, 0x0, 0x0, .always, 0x7FF07FF, 0x0, 0x0, 0x0, 0x10001⟩,
  ⟨0x80028, 4, 1, 0x0, 0x0, .always, 0x3F3F, 0x0, 0x0, 0x0, 0x0⟩,
  ⟨0x80030, 4, 1, 0xFF1FFFFF, 0x0, .always, 0x0, 0x0, 0x0, 0x0, 0xA0F0064⟩,
  ⟨0x80034, 4, 1, 0xFFFF0000, 0x0, .always, 0x0, 0x0, 0x0, 0x0, 0x1400000⟩,
  ⟨0x80038, 4, 1, 0xFFFFFFFF, 0x0, .always, 0x0, 0x0, 0x0, 0x0, 0x1E00190⟩,
  ⟨0x8003C, 4, 1, 0xFFFFFFFF, 0x0, .always, 0x0, 0x0, 0x0, 0x0, 0x2800230⟩,
  ⟨0x80040, 4, 1, 0xFFFFFFFF, 0x0, .always, 0x0, 0x0, 0x0, 0x0, 0x32002D0⟩,
  ⟨0x80044, 4, 1, 0x0, 0x0, .always, 0x0, 0x0, 0x0, 0x0, 0x0⟩,
  ⟨0x80048, 4, 1, 0x0, 0x0, .always, 0x0, 0x0, 0x0, 0x0, 0x0⟩,
  ⟨0x80050, 4, 3, 0x0, 0x3FFFFFFF, .off, 0x0, 0x0, 0x0, 0x0, 0x0⟩,
  ⟨0x8005C, 4, 1, 0x0, 0x0, .always, 0x0, 0x0, 0x0, 0x0, 0x0⟩,
  ⟨0x80060, 4, 8, 0x0, 0xFFFF001F, .off, 0x0, 0x0, 0x0, 0x0, 0x0⟩,
  ⟨0x80080, 4, 16, 0xFFFF, 0x0, .always, 0x0, 0x0, 0x0, 0x0, 0x0⟩,
  ⟨0x800C0, 4, 1, 0x0, 0xC07F7F, .off, 0x0, 0x0, 0x0, 0x0, 0xF1F⟩]

/-- Registers of block PPX (07_panel_processing), part 1. -/
def regs_ppx_1 : List RegDesc := [
  ⟨0x800C4, 4, 1, 0x0, 0x0, .always, 0x8FFF01FF, 0x0, 0x0, 0x0, 0x100080⟩,
  ⟨0x800C8, 4, 1, 0x0, 0x0, .always, 0x0, 0x0, 0x0, 0x0, 0x0⟩,
  ⟨0x800D0, 4, 1, 0x10F, 0x0, .always, 0x0, 0x0, 0x0, 0x0, 0x0⟩,
  ⟨0x800D4, 4, 1, 0x1FFFF, 0x0, .always, 0x0, 0x0, 0x0, 0x0, 0x0⟩,
  ⟨0x800D8, 4, 1, 0xFFFFFFFF, 0x0, .always, 0x0, 0x0, 0x0, 0x0, 0x0⟩,
  ⟨0x800E0, 4, 1, 0x0, 0x0, .always, 0x0, 0x0, 0x0, 0x0, 0x0⟩,
  ⟨0x800E4, 4, 1, 0x0, 0x0, .always, 0x0, 0x0, 0x0, 0x0, 0x0⟩,
  ⟨0x800E8, 4, 1, 0x0, 0x0, .always, 0x0, 0x0, 0x0, 0x0, 0x0⟩,
  ⟨0x800EC, 4, 1, 0x0, 0x0, .always, 0x0, 0x0, 0x0, 0x0, 0x0⟩,
  ⟨0x80100, 16, 16, 0x0, 0x0, .always, 0xFFFFDFFF, 0x0, 0x0, 0x0, 0x0⟩,
  ⟨0x80104, 16, 16, 0x0, 0x0, .always, 0x1FFF1FFF, 0x0, 0x0, 0x0, 0x0⟩,
  ⟨0x80108, 16, 16, 0x0, 0x0, .always, 0x0, 0x0, 0x0, 0x0, 0x0⟩,
  ⟨0x8010C, 16, 16, 0x0, 0x0, .always, 0x0, 0x0, 0x0, 0x0, 0x0⟩,
  ⟨0x80200, 4, 1, 0x0, 0x0, .always, 0x0, 0x0, 0x0, 0x3, 0x0⟩,
  ⟨0x80204, 4, 1, 0xFFFFFF1F, 0x0, .always, 0x0, 0x0, 0x0, 0x0, 0x10010⟩,
  ⟨0x80208, 4, 1, 0xFFFFF000, 0x0, .always, 0x0, 0x0, 0x0, 0x0, 0x0⟩,
  ⟨0x8020C, 4, 1, 0xFF, 0x0, .always, 0x0, 0x0, 0x0, 0x0, 0x0⟩,
  ⟨0x80210, 4, 1, 0xFFFFFFFF, 0x0, .always, 0x0, 0x0, 0x0, 0x0, 0x0⟩,
  ⟨0x80214, 4, 1, 0xFFFFFFF, 0x0, .always, 0x0, 0x0, 0x0, 0x0, 0x4F60000⟩,
  ⟨0x80218, 4, 1, 0x0, 0x0, .always, 0x0, 0x0, 0x0, 0x0, 0x0⟩]

/-- Registers of block PPX (07_panel_processing), part 2. -/
def regs_ppx_2 : List RegDesc := [
  ⟨0x8021C, 4, 1, 0x0, 0x0, .always, 0x0, 0x0, 0x0, 0x0, 0x0⟩,
  ⟨0x80220, 4, 1, 0x0, 0x0, .always, 0x0, 0x0, 0x0, 0x0, 0x0⟩,
  ⟨0x80300, 8, 5, 0x0, 0xFFFFF000, .off, 0x0, 0x0, 0x0, 0x0, 0x0⟩,
  ⟨0x80304, 8, 5, 0x0, 0xFF, .off, 0x0, 0x0, 0x0, 0x0, 0x0⟩,
  ⟨0x80330, 4, 1, 0x0, 0xFFFFFF, .off, 0x0, 0x0, 0x0, 0x0, 0xE00000⟩]

/-- Every register of block PPX. -/
def regs_ppx : List RegDesc := regs_ppx_0 ++ regs_ppx_1 ++ regs_ppx_2

/-- Registers of block AGE (08_ageing_compensation), part 0. -/
def regs_age_0 : List RegDesc := [
  ⟨0x90000, 4, 1, 0x0, 0x0, .always, 0x0, 0x0, 0x0, 0x3, 0x0⟩,
  ⟨0x90004, 4, 1, 0x7, 0x0, .always, 0x0, 0x0, 0x0, 0x0, 0x0⟩,
  ⟨0x90008, 4, 1, 0x0, 0x0, .always, 0x0, 0x0, 0x0, 0x0, 0x0⟩,
  ⟨0x9000C, 4, 1, 0x0, 0xFFFFF000, .stop, 0x0, 0x0, 0x0, 0x0, 0x0⟩,
  ⟨0x90010, 4, 1, 0x0, 0xFF, .stop, 0x0, 0x0, 0x0, 0x0, 0x0⟩,
  ⟨0x90014, 4, 1, 0x0, 0x7FFFFFFF, .stop, 0x0, 0x0, 0x0, 0x0, 0x12345678⟩,
  ⟨0x90018, 4, 1, 0x0, 0x1F01FF, .stop, 0x0, 0x0, 0x0, 0x0, 0x140040⟩,
  ⟨0x9001C, 4, 1, 0x0, 0x1FF, .stop, 0x0, 0x0, 0x0, 0x0, 0x40⟩,
  ⟨0x90020, 4, 1, 0x0, 0xFFFFFFFF, .stop, 0x0, 0x0, 0x0, 0x0, 0x100000⟩,
  ⟨0x90024, 4, 1, 0x0, 0x3FF03FF, .stop, 0x0, 0x0, 0x0, 0x0, 0x0⟩,
  ⟨0x90028, 4, 1, 0x0, 0x3FF03FF, .stop, 0x0, 0x0, 0x0, 0x0, 0x0⟩,
  ⟨0x9002C, 4, 1, 0xFFFF, 0x0, .always, 0x0, 0x0, 0x0, 0x0, 0x40⟩,
  ⟨0x90030, 4, 1, 0x0, 0xF00FFFFF, .stop, 0x0, 0x0, 0x0, 0x0, 0x30010682⟩,
  ⟨0x90034, 4, 1, 0x0, 0xFFFFFFFF, .stop, 0x0, 0x0, 0x0, 0x0, 0x2EE005DC⟩,
  ⟨0x90038, 4, 1, 0x0, 0xFFFF, .stop, 0x0, 0x0, 0x0, 0x0, 0x100⟩,
  ⟨0x9003C, 4, 1, 0x0, 0x0, .always, 0x0, 0x0, 0x0, 0x0, 0x0⟩,
  ⟨0x90040, 4, 1, 0x0, 0x0, .always, 0x0, 0x0, 0x0, 0x0, 0x0⟩,
  ⟨0x90044, 4, 1, 0x0, 0x0, .always, 0x0, 0x0, 0x0, 0x0, 0x0⟩,
  ⟨0x90048, 4, 1, 0xFFFFFFFF, 0x0, .always, 0x0, 0x0, 0x0, 0x0, 0x780F00F0⟩,
  ⟨0x9004C, 4, 1, 0x0, 0xFFFFFFFF, .stop, 0x0, 0x0, 0x0, 0x0, 0x0⟩]

/-- Registers of block AGE (08_ageing_compensation), part 1. -/
def regs_age_1 : List RegDesc := [
  ⟨0x90050, 4, 1, 0x0, 0xFFFFFFFF, .stop, 0x0, 0x0, 0x0, 0x0, 0x0⟩,
  ⟨0x90054, 4, 1, 0x0, 0x0, .always, 0x0, 0x0, 0x0, 0x0, 0x0⟩,
  ⟨0x90058, 4, 1, 0x0, 0x0, .always, 0x0, 0x0, 0x0, 0x0, 0x0⟩,
  ⟨0x9005C, 4, 1, 0x0, 0x0, .always, 0x0, 0x0, 0x0, 0x0, 0x0⟩,
  ⟨0x90060, 4, 1, 0x0, 0x0, .always, 0x0, 0x0, 0x0, 0x0, 0x0⟩,
  ⟨0x90064, 4, 1, 0x0, 0x0, .always, 0x0, 0x0, 0x0, 0x0, 0x0⟩,
  ⟨0x90068, 4, 1, 0x0, 0x0, .always, 0x0, 0x0, 0x0, 0x0, 0x0⟩,
  ⟨0x9006C, 4, 1, 0x0, 0x0, .always, 0x0, 0x0, 0x0, 0x0, 0x0⟩,
  ⟨0x90070, 4, 1, 0x0, 0x0, .always, 0x0, 0x0, 0x0, 0x0, 0x0⟩,
  ⟨0x90074, 4, 1, 0x0, 0x0, .always, 0x0, 0x0, 0x0, 0x0, 0x0⟩,
  ⟨0x90078, 4, 1, 0x0, 0x0, .always, 0x0, 0x0, 0x0, 0x0, 0x0⟩,
  ⟨0x9007C, 4, 1, 0x0, 0x0, .always, 0x0, 0x0, 0x0, 0x0, 0x0⟩,
  ⟨0x90080, 4, 1, 0x0, 0x0, .always, 0x0, 0x0, 0x0, 0x0, 0x0⟩,
  ⟨0x90084, 4, 1, 0x3, 0x0, .always, 0x0, 0x0, 0x0, 0x0, 0x0⟩,
  ⟨0x90088, 4, 1, 0x3F, 0x0, .always, 0x0, 0x0, 0x0, 0x0, 0x0⟩,
  ⟨0x9008C, 4, 1, 0x0, 0xFFFF, .stop, 0x0, 0x0, 0x0, 0x0, 0x0⟩]

/-- Every register of block AGE. -/
def regs_age : List RegDesc := regs_age_0 ++ regs_age_1

/-- Registers of block DRV (09_panel_drive), part 0. -/
def regs_drv_0 : List RegDesc := [
  ⟨0xA0000, 4, 1, 0x0, 0x0, .always, 0x0, 0x0, 0x0, 0x7, 0x0⟩,
  ⟨0xA0004, 4, 1, 0x0, 0xFC7FF, .off, 0x0, 0x0, 0x0, 0x0, 0x483C0⟩,
  ⟨0xA0008, 4, 1, 0x0, 0xFFFFFF, .off, 0x0, 0x0, 0x0, 0x0, 0xFFFFFF⟩,
  ⟨0xA000C, 4, 1, 0x0, 0x0, .always, 0x0, 0x0, 0x0, 0x0, 0x0⟩,
  ⟨0xA0010, 4, 1, 0x0, 0x0, .always, 0x0, 0x0, 0x0, 0x0, 0x0⟩,
  ⟨0xA0014, 4, 1, 0x0, 0x0, .always, 0x0, 0x0, 0x0, 0x0, 0x0⟩,
  ⟨0xA0018, 4, 1, 0xFFFF, 0x0, .always, 0x0, 0x0, 0x0, 0x0, 0x401⟩,
  ⟨0xA001C, 4, 1, 0xFFFFFF, 0x0, .always, 0x0, 0x0, 0x0, 0x0, 0x320064⟩,
  ⟨0xA0020, 4, 24, 0x0, 0x0, .always, 0x0, 0x0, 0x0, 0x0, 0x0⟩,
  ⟨0xA0080, 4, 1, 0xFFF000FF, 0x0, .always, 0x0, 0x0, 0x0, 0x0, 0xA200008⟩,
  ⟨0xA0084, 4, 1, 0xFFFF0003, 0x0, .always, 0x0, 0x0, 0x0, 0x0, 0x80000003⟩,
  ⟨0xA0088, 4, 1, 0xFFFFFF, 0x0, .always, 0x0, 0x0, 0x0, 0x0, 0xF68000⟩,
  ⟨0xA008C, 4, 1, 0x1FFF, 0x0, .always, 0x0, 0x0, 0x0, 0x0, 0x0⟩,
  ⟨0xA0090, 4, 1, 0x0, 0x7, .off, 0x0, 0x0, 0x0, 0x0, 0x3⟩,
  ⟨0xA00A0, 4, 5, 0x0, 0xFFFFFFFF, .off, 0x0, 0x0, 0x0, 0x0, 0x0⟩,
  ⟨0xA00B4, 4, 1, 0x0, 0xFFFF, .off, 0x0, 0x0, 0x0, 0x0, 0x0⟩,
  ⟨0xA0100, 4, 32, 0x0, 0xFF, .off, 0x0, 0x0, 0x0, 0x0, 0x0⟩,
  ⟨0xA0180, 4, 16, 0x0, 0xF7, .off, 0x0, 0x0, 0x0, 0x0, 0x0⟩,
  ⟨0xA01C0, 4, 1, 0x0, 0xFFFFFF, .off, 0x0, 0x0, 0x0, 0x0, 0xF4040⟩,
  ⟨0xA01D0, 4, 1, 0x0, 0x0, .always, 0x0, 0x0, 0x0, 0x0, 0x0⟩]

/-- Registers of block DRV (09_panel_drive), part 1. -/
def regs_drv_1 : List RegDesc := [
  ⟨0xA01D4, 4, 1, 0x0, 0x0, .always, 0x0, 0x0, 0x0, 0x0, 0x0⟩,
  ⟨0xA01D8, 4, 1, 0x0, 0x0, .always, 0x0, 0x0, 0x0, 0x0, 0x0⟩,
  ⟨0xA01DC, 4, 1, 0x0, 0x0, .always, 0x0, 0x0, 0x0, 0x0, 0x0⟩]

/-- Every register of block DRV. -/
def regs_drv : List RegDesc := regs_drv_0 ++ regs_drv_1

/-- Registers of block PSQ (10_panel_power_integrity), part 0. -/
def regs_psq_0 : List RegDesc := [
  ⟨0xB0000, 4, 1, 0x0, 0x0, .always, 0x0, 0x0, 0x0, 0xF, 0x0⟩,
  ⟨0xB0004, 4, 1, 0x100, 0x30, .off, 0x0, 0x0, 0x0, 0x0, 0x120⟩,
  ⟨0xB0008, 4, 1, 0x0, 0x0, .always, 0x0, 0x0, 0x0, 0x0, 0x0⟩,
  ⟨0xB000C, 4, 1, 0x0, 0x0, .always, 0x0, 0x0, 0x0, 0x0, 0x0⟩,
  ⟨0xB0010, 4, 1, 0x0, 0xFFFF0FFF, .off, 0x0, 0x0, 0x0, 0x0, 0x2040000⟩,
  ⟨0xB0014, 4, 1, 0x0, 0xC0FFFFFF, .off, 0x0, 0x0, 0x0, 0x0, 0xC0F64000⟩,
  ⟨0xB0020, 4, 8, 0x0, 0xFCFCFFFF, .off, 0x0, 0x0, 0x0, 0x0, 0x8001401⟩,
  ⟨0xB0040, 4, 8, 0x0, 0xBF00FFFF, .off, 0x0, 0x0, 0x0, 0x0, 0xA⟩,
  ⟨0xB0060, 4, 1, 0xFFFF0000, 0xFFFF, .off, 0x0, 0x0, 0x0, 0x0, 0xFFFF0000⟩,
  ⟨0xB0064, 4, 1, 0x0, 0xF000FFFF, .off, 0x0, 0x0, 0x0, 0x0, 0x2000012C⟩,
  ⟨0xB0068, 4, 1, 0xFFFF, 0x0, .always, 0x0, 0x0, 0x0, 0x0, 0x0⟩,
  ⟨0xB0070, 4, 1, 0xFF, 0x0, .always, 0x0, 0x0, 0x0, 0x0, 0x0⟩,
  ⟨0xB0074, 4, 1, 0xFFFF01FF, 0x0, .always, 0x0, 0x0, 0x0, 0x0, 0x643300FF⟩,
  ⟨0xB0078, 4, 1, 0x0, 0x0, .always, 0x0, 0x0, 0x0, 0x0, 0x0⟩,
  ⟨0xB0080, 4, 8, 0xFFFFFFFF, 0x0, .always, 0x0, 0x0, 0x0, 0x0, 0x0⟩,
  ⟨0xB00A0, 4, 1, 0x0, 0x0, .always, 0x0, 0x0, 0x0, 0x0, 0x0⟩,
  ⟨0xB00A4, 4, 1, 0x0, 0x0, .always, 0x0, 0x0, 0x0, 0x0, 0x0⟩,
  ⟨0xB00A8, 4, 1, 0x0, 0x0, .always, 0x0, 0x0, 0x0, 0x0, 0x0⟩,
  ⟨0xB00AC, 4, 1, 0x0, 0x0, .always, 0x0, 0x0, 0x0, 0x0, 0x0⟩,
  ⟨0xB00B0, 4, 1, 0x0, 0x0, .always, 0x0, 0x0, 0x0, 0x0, 0x0⟩]

/-- Every register of block PSQ. -/
def regs_psq : List RegDesc := regs_psq_0

/-- Registers of block ORL (11_orsal_link), part 0. -/
def regs_orl_0 : List RegDesc := [
  ⟨0xC0000, 4, 1, 0x0, 0x0, .always, 0x0, 0x0, 0x0, 0x7, 0x0⟩,
  ⟨0xC0004, 4, 1, 0x0, 0x3F3F07, .off, 0x0, 0x0, 0x0, 0x0, 0x0⟩,
  ⟨0xC0008, 4, 1, 0x0, 0x0, .always, 0x0, 0x0, 0x0, 0x0, 0x0⟩,
  ⟨0xC000C, 4, 1, 0x0, 0xFF7F, .off, 0x0, 0x0, 0x0, 0x0, 0xA08⟩,
  ⟨0xC0010, 4, 1, 0xFF03, 0x0, .always, 0x0, 0x0, 0x0, 0x0, 0x6403⟩,
  ⟨0xC0020, 16, 2, 0x0, 0x0, .always, 0x0, 0x0, 0x0, 0x0, 0x0⟩,
  ⟨0xC0024, 16, 2, 0x0, 0x0, .always, 0x0, 0x0, 0x0, 0x0, 0x0⟩,
  ⟨0xC0028, 16, 2, 0xFFFF, 0x0, .always, 0x0, 0x0, 0x0, 0x0, 0x0⟩,
  ⟨0xC002C, 16, 2, 0x0, 0x0, .always, 0x0, 0x0, 0x0, 0x0, 0x0⟩,
  ⟨0xC0040, 4, 1, 0xFFE, 0x0, .always, 0x0, 0x0, 0x0, 0x1, 0x0⟩,
  ⟨0xC0044, 4, 1, 0x1FFFFFF, 0x0, .always, 0x0, 0x0, 0x0, 0x0, 0x0⟩,
  ⟨0xC0048, 4, 1, 0xFFFFFFFF, 0x0, .always, 0x0, 0x0, 0x0, 0x0, 0x0⟩,
  ⟨0xC004C, 4, 1, 0xFFFFFFFF, 0x0, .always, 0x0, 0x0, 0x0, 0x0, 0x0⟩,
  ⟨0xC0050, 4, 1, 0xFFFFFFFF, 0x0, .always, 0x0, 0x0, 0x0, 0x0, 0x0⟩,
  ⟨0xC0054, 4, 1, 0x0, 0x0, .always, 0x0, 0x0, 0x0, 0x0, 0x0⟩,
  ⟨0xC0058, 4, 1, 0x0, 0x0, .always, 0x0, 0x0, 0x0, 0x0, 0x0⟩,
  ⟨0xC005C, 4, 1, 0x0, 0x0, .always, 0x0, 0x0, 0x0, 0x0, 0x0⟩,
  ⟨0xC0060, 4, 1, 0xFFFFF, 0x0, .always, 0x0, 0x0, 0x0, 0x0, 0x20064⟩,
  ⟨0xC0070, 4, 1, 0xFFFF007F, 0x0, .always, 0x0, 0x0, 0x0, 0x0, 0x1F4007F⟩,
  ⟨0xC0080, 4, 1, 0xFFFF00, 0xFF000001, .off, 0x0, 0x0, 0x0, 0x0, 0x6400⟩]

/-- Registers of block ORL (11_orsal_link), part 1. -/
def regs_orl_1 : List RegDesc := [
  ⟨0xC0090, 4, 1, 0x0, 0xFF0F03FF, .off, 0x0, 0x0, 0x0, 0x0, 0xC4030000⟩,
  ⟨0xC0094, 4, 1, 0xFFFFF, 0x0, .always, 0x0, 0x0, 0x0, 0x0, 0x207D0⟩,
  ⟨0xC0100, 16, 16, 0x0, 0x873F1FFF, .off, 0x0, 0x0, 0x0, 0x0, 0x3C⟩,
  ⟨0xC0104, 16, 16, 0x0, 0xFFFFFFFF, .off, 0x0, 0x0, 0x0, 0x0, 0x0⟩,
  ⟨0xC0108, 16, 16, 0x0, 0xFFFF, .off, 0x0, 0x0, 0x0, 0x0, 0x0⟩,
  ⟨0xC0200, 4, 8, 0xFFFFFFFF, 0x0, .always, 0x0, 0x0, 0x0, 0x0, 0x0⟩,
  ⟨0xC0220, 4, 1, 0x3F, 0x0, .always, 0x0, 0x0, 0x0, 0x0, 0x0⟩,
  ⟨0xC0224, 4, 1, 0x0, 0x0, .always, 0x0, 0x0, 0x0, 0x1, 0x0⟩,
  ⟨0xC0228, 4, 1, 0x0, 0x0, .always, 0x0, 0x0, 0x0, 0x0, 0x0⟩,
  ⟨0xC0230, 4, 1, 0x0, 0x0, .always, 0x0, 0x0, 0x0, 0x0, 0x0⟩,
  ⟨0xC0234, 4, 1, 0x0, 0x0, .always, 0x0, 0x0, 0x0, 0x0, 0x0⟩,
  ⟨0xC0238, 4, 1, 0x0, 0x0, .always, 0x0, 0x0, 0x0, 0x0, 0x0⟩,
  ⟨0xC023C, 4, 1, 0x0, 0x0, .always, 0x0, 0x0, 0x0, 0x0, 0x0⟩]

/-- Every register of block ORL. -/
def regs_orl : List RegDesc := regs_orl_0 ++ regs_orl_1

/-- Registers of block MEM (12_memory), part 0. -/
def regs_mem_0 : List RegDesc := [
  ⟨0xD0000, 4, 1, 0x0, 0x0, .always, 0x0, 0x0, 0x0, 0x1, 0x0⟩,
  ⟨0xD0004, 4, 1, 0x0, 0x38F, .init, 0x0, 0x0, 0x0, 0x0, 0x380⟩,
  ⟨0xD0008, 4, 1, 0x0, 0x0, .always, 0x0, 0x0, 0x0, 0x0, 0x0⟩,
  ⟨0xD000C, 4, 1, 0x0, 0x0, .always, 0x0, 0x0, 0x0, 0x0, 0x0⟩,
  ⟨0xD0010, 4, 1, 0x0, 0x0, .always, 0x0, 0x0, 0x0, 0x0, 0x0⟩,
  ⟨0xD0014, 4, 1, 0xFFFFFF, 0xFF000000, .init, 0x0, 0x0, 0x0, 0x0, 0x32646402⟩,
  ⟨0xD0018, 4, 1, 0xF, 0x0, .always, 0x0, 0x0, 0x0, 0x0, 0x3⟩,
  ⟨0xD001C, 4, 1, 0xFFFF, 0x0, .always, 0x0, 0x0, 0x0, 0x0, 0x64⟩,
  ⟨0xD0020, 4, 1, 0x1FF, 0x0, .always, 0x0, 0x0, 0x0, 0x0, 0x118⟩,
  ⟨0xD0024, 4, 1, 0x0, 0x0, .always, 0x0, 0x0, 0x0, 0x0, 0x0⟩,
  ⟨0xD0028, 4, 1, 0x0, 0x0, .always, 0x0, 0x0, 0x0, 0x0, 0x0⟩,
  ⟨0xD002C, 4, 1, 0x0, 0x0, .always, 0x0, 0x0, 0x0, 0x0, 0x0⟩,
  ⟨0xD0030, 4, 1, 0x0, 0x0, .always, 0x0, 0x0, 0x0, 0x0, 0x0⟩,
  ⟨0xD0034, 4, 1, 0x0, 0x0, .always, 0x0, 0x0, 0x0, 0x0, 0x0⟩,
  ⟨0xD0038, 4, 1, 0x0, 0x0, .always, 0x0, 0x0, 0x0, 0x0, 0x0⟩,
  ⟨0xD0040, 4, 1, 0x0, 0x0, .always, 0x0, 0x0, 0x0, 0x0, 0x0⟩,
  ⟨0xD0044, 4, 1, 0x0, 0x0, .always, 0x0, 0x0, 0x0, 0x0, 0x0⟩,
  ⟨0xD0050, 4, 4, 0x0, 0x0, .always, 0x0, 0x0, 0x0, 0x0, 0x0⟩,
  ⟨0xD0060, 4, 1, 0xC0000000, 0x0, .always, 0x0, 0x0, 0x0, 0x0, 0x0⟩]

/-- Every register of block MEM. -/
def regs_mem : List RegDesc := regs_mem_0

/-- Registers of block NVM (13_nvm_configuration), part 0. -/
def regs_nvm_0 : List RegDesc := [
  ⟨0xE0000, 4, 1, 0x0, 0x0, .always, 0x0, 0x0, 0x0, 0x3, 0x0⟩,
  ⟨0xE0004, 4, 1, 0x0, 0x0, .always, 0x0, 0x0, 0x0, 0x0, 0x0⟩,
  ⟨0xE0008, 4, 1, 0x0, 0x0, .always, 0x0, 0x0, 0x0, 0x0, 0x0⟩,
  ⟨0xE000C, 4, 1, 0x0, 0x0, .always, 0x0, 0x0, 0x0, 0x3, 0x0⟩,
  ⟨0xE0010, 4, 1, 0xFFFFFF, 0x0, .always, 0x0, 0x0, 0x0, 0x0, 0x0⟩,
  ⟨0xE0014, 4, 1, 0x0, 0x0, .always, 0x0, 0x0, 0x0, 0x0, 0x0⟩,
  ⟨0xE0018, 4, 1, 0x0, 0x0, .always, 0x0, 0x0, 0x0, 0x0, 0x0⟩,
  ⟨0xE0020, 4, 1, 0x7FFFF83F, 0x0, .always, 0x0, 0x0, 0x0, 0x80000000, 0x3F⟩,
  ⟨0xE0024, 4, 1, 0x0, 0x0, .always, 0x0, 0x0, 0x0, 0x0, 0x0⟩,
  ⟨0xE0040, 4, 16, 0xFFFFFFFF, 0x0, .always, 0x0, 0x0, 0x0, 0x0, 0x0⟩,
  ⟨0xE0080, 4, 4, 0x0, 0x0, .always, 0x0, 0x0, 0x0, 0xFFFFFFFF, 0x0⟩,
  ⟨0xE0090, 4, 1, 0x0, 0x0, .always, 0x0, 0x0, 0x0, 0xF, 0x0⟩,
  ⟨0xE0094, 4, 1, 0x0, 0x0, .always, 0x0, 0x0, 0x0, 0x0, 0x0⟩,
  ⟨0xE0098, 4, 1, 0x1FF, 0x0, .always, 0x0, 0x0, 0x0, 0x0, 0x118⟩,
  ⟨0xE009C, 4, 1, 0x0, 0x0, .always, 0x0, 0x0, 0x0, 0x0, 0x0⟩,
  ⟨0xE00A0, 4, 1, 0x0, 0x0, .always, 0x0, 0x0, 0x0, 0x0, 0x0⟩,
  ⟨0xE00A4, 4, 3, 0x0, 0x0, .always, 0x0, 0x0, 0x0, 0x0, 0x0⟩,
  ⟨0xE00B0, 4, 1, 0x0, 0x0, .always, 0x0, 0x0, 0x0, 0x0, 0x0⟩,
  ⟨0xE00C0, 4, 1, 0xC000000, 0x0, .always, 0x0, 0x0, 0x0, 0x80000000, 0x0⟩,
  ⟨0xE00C4, 4, 1, 0x3FFFFFFF, 0x0, .always, 0x0, 0x0, 0x0, 0x0, 0x0⟩]

/-- Registers of block NVM (13_nvm_configuration), part 1. -/
def regs_nvm_1 : List RegDesc := [
  ⟨0xE00C8, 4, 1, 0xFFFF, 0x0, .always, 0x0, 0x0, 0x0, 0x0, 0x0⟩,
  ⟨0xE00CC, 4, 1, 0xFFFFFF, 0x0, .always, 0x0, 0x0, 0x0, 0x0, 0xF50000⟩,
  ⟨0xE00D0, 4, 1, 0x0, 0x0, .always, 0x0, 0x0, 0x0, 0x0, 0x0⟩]

/-- Every register of block NVM. -/
def regs_nvm : List RegDesc := regs_nvm_0 ++ regs_nvm_1

/-- Registers of block EVT (14_host_events), part 0. -/
def regs_evt_0 : List RegDesc := [
  ⟨0xF0000, 4, 1, 0x0, 0x0, .always, 0x0, 0x0, 0x0, 0x3, 0x0⟩,
  ⟨0xF0004, 4, 1, 0x0, 0x0, .always, 0x0, 0x0, 0x0, 0x0, 0x0⟩,
  ⟨0xF0008, 4, 1, 0xFFFFF000, 0x0, .always, 0x0, 0x0, 0x0, 0x0, 0x0⟩,
  ⟨0xF000C, 4, 1, 0xFFFFFFFF, 0x0, .always, 0x0, 0x0, 0x0, 0x0, 0x0⟩,
  ⟨0xF0010, 4, 1, 0xC000001F, 0x0, .always, 0x0, 0x0, 0x0, 0x0, 0xC⟩,
  ⟨0xF0014, 4, 1, 0x0, 0x0, .always, 0x0, 0x0, 0x0, 0x0, 0x0⟩,
  ⟨0xF0018, 4, 1, 0xFFFFFFFF, 0x0, .always, 0x0, 0x0, 0x0, 0x0, 0x0⟩,
  ⟨0xF001C, 4, 1, 0xFFFFFFFC, 0x0, .always, 0x0, 0x0, 0x0, 0x0, 0x0⟩,
  ⟨0xF0020, 4, 1, 0xFFFFFFFF, 0x0, .always, 0x0, 0x0, 0x0, 0x0, 0x0⟩,
  ⟨0xF0024, 4, 1, 0x3FFFF, 0x0, .always, 0x0, 0x0, 0x0, 0x0, 0x0⟩,
  ⟨0xF0028, 4, 1, 0x3FFFF, 0x0, .always, 0x0, 0x0, 0x0, 0x0, 0x0⟩,
  ⟨0xF002C, 4, 1, 0x0, 0x0, .always, 0x0, 0x0, 0x0, 0x0, 0x0⟩,
  ⟨0xF0030, 4, 1, 0xF000FFF, 0x0, .always, 0x0, 0x0, 0x0, 0x0, 0x600FA62⟩,
  ⟨0xF0034, 4, 1, 0x0, 0x0, .always, 0x0, 0x0, 0x0, 0xFFFF, 0x0⟩,
  ⟨0xF0038, 4, 1, 0x0, 0x0, .always, 0x0, 0x0, 0x0, 0xFFF, 0x0⟩,
  ⟨0xF003C, 4, 1, 0x0, 0x0, .always, 0x0, 0x0, 0x0, 0x0, 0x0⟩,
  ⟨0xF0040, 4, 1, 0x7FF, 0x0, .always, 0x0, 0x0, 0x0, 0x0, 0x0⟩,
  ⟨0xF0044, 4, 1, 0x7FF, 0x0, .always, 0x0, 0x0, 0x0, 0x0, 0x7FF⟩,
  ⟨0xF0048, 4, 1, 0xFFFFFF, 0x0, .always, 0x0, 0x0, 0x0, 0x0, 0x100064⟩,
  ⟨0xF004C, 4, 1, 0x0, 0x0, .always, 0x0, 0x0, 0x0, 0x0, 0x0⟩]

/-- Registers of block EVT (14_host_events), part 1. -/
def regs_evt_1 : List RegDesc := [
  ⟨0xF0050, 4, 1, 0xFFFFF000, 0x0, .always, 0x0, 0x0, 0x0, 0x0, 0x0⟩,
  ⟨0xF0054, 4, 1, 0xFF, 0x0, .always, 0x0, 0x0, 0x0, 0x0, 0x0⟩,
  ⟨0xF0058, 4, 1, 0x8000001F, 0x0, .always, 0x0, 0x0, 0x0, 0x0, 0x10⟩,
  ⟨0xF005C, 4, 1, 0x0, 0x0, .always, 0x0, 0x0, 0x0, 0x0, 0x0⟩,
  ⟨0xF0060, 4, 1, 0xFFFFFFFF, 0x0, .always, 0x0, 0x0, 0x0, 0x0, 0x0⟩,
  ⟨0xF0064, 4, 8, 0x0, 0x0, .always, 0x0, 0x0, 0x0, 0x0, 0x0⟩,
  ⟨0xF0090, 4, 1, 0x8000007F, 0x0, .always, 0x0, 0x0, 0x0, 0x0, 0x8000000E⟩,
  ⟨0xF0094, 4, 1, 0x0, 0x0, .always, 0x0, 0x0, 0x0, 0x0, 0x0⟩,
  ⟨0xF0098, 4, 1, 0x0, 0x0, .always, 0x0, 0x0, 0x0, 0x0, 0x0⟩,
  ⟨0xF009C, 4, 1, 0x0, 0x0, .always, 0x0, 0x0, 0x0, 0x0, 0x0⟩,
  ⟨0xF00A0, 4, 1, 0x0, 0x0, .always, 0x0, 0x0, 0x0, 0x0, 0x0⟩]

/-- Every register of block EVT. -/
def regs_evt : List RegDesc := regs_evt_0 ++ regs_evt_1

/-- Registers of block SEC (15_security), part 0. -/
def regs_sec_0 : List RegDesc := [
  ⟨0x100000, 4, 1, 0x0, 0x0, .always, 0x0, 0x0, 0x0, 0x1FE, 0x0⟩,
  ⟨0x100004, 4, 1, 0x0, 0x0, .always, 0x0, 0x0, 0x0, 0x0, 0x0⟩,
  ⟨0x100008, 4, 1, 0x0, 0x0, .always, 0x0, 0x0, 0x0, 0x0, 0x0⟩,
  ⟨0x10000C, 4, 1, 0x0, 0x0, .always, 0x0, 0x0, 0x0, 0x0, 0x0⟩,
  ⟨0x100010, 4, 1, 0x0, 0x0, .always, 0x0, 0x0, 0x0, 0x0, 0x0⟩,
  ⟨0x100014, 4, 1, 0x0, 0x1FF, .sealed, 0x0, 0x0, 0x0, 0x0, 0x13C⟩,
  ⟨0x100018, 4, 1, 0xFFFFFF, 0x0, .always, 0x0, 0x0, 0x0, 0x0, 0xF40000⟩,
  ⟨0x10001C, 4, 1, 0xFFFFFF, 0x0, .always, 0x0, 0x0, 0x0, 0x0, 0xF41000⟩,
  ⟨0x100020, 4, 1, 0x0, 0x0, .always, 0x0, 0x0, 0x0, 0x0, 0x0⟩,
  ⟨0x100030, 4, 12, 0xFFFFFFFF, 0x0, .always, 0x0, 0x0, 0x0, 0x0, 0x0⟩,
  ⟨0x100060, 4, 1, 0x0, 0x0, .always, 0x0, 0x0, 0x0, 0x0, 0x0⟩,
  ⟨0x100064, 4, 1, 0x0, 0x0, .always, 0x0, 0x0, 0x0, 0x0, 0x0⟩,
  ⟨0x100068, 4, 1, 0x0, 0x0, .always, 0x0, 0x0, 0x0, 0x0, 0x0⟩,
  ⟨0x10006C, 4, 1, 0x0, 0x0, .always, 0x0, 0x0, 0x0, 0x0, 0x0⟩,
  ⟨0x100070, 4, 1, 0x0, 0x0, .always, 0x0, 0x0, 0x0, 0x0, 0x0⟩,
  ⟨0x100074, 4, 1, 0x0, 0x0, .always, 0x0, 0x0, 0x0, 0x0, 0x0⟩,
  ⟨0x100078, 4, 1, 0x0, 0x0, .always, 0x0, 0x0, 0x0, 0x0, 0x0⟩,
  ⟨0x10007C, 4, 1, 0x0, 0x0, .always, 0x0, 0x0, 0x0, 0x0, 0x0⟩]

/-- Every register of block SEC. -/
def regs_sec : List RegDesc := regs_sec_0

/-- The register table of the 64 KiB block `b` (R539, Table 18.1). -/
def regsOf (b : Nat) : List RegDesc :=
  match b with
  | 0 => regs_gen
  | 1 => regs_pwr
  | 2 => regs_tmb
  | 3 => regs_exs
  | 4 => regs_ing
  | 5 => regs_blq
  | 6 => regs_cdc
  | 7 => regs_scn
  | 8 => regs_ppx
  | 9 => regs_age
  | 10 => regs_drv
  | 11 => regs_psq
  | 12 => regs_orl
  | 13 => regs_mem
  | 14 => regs_nvm
  | 15 => regs_evt
  | 16 => regs_sec
  | _ => []

/-- Does the descriptor cover the word at `off`? -/
def RegDesc.covers (d : RegDesc) (off : Nat) : Bool :=
  decide (d.base ≤ off) && decide ((off - d.base) % d.stride = 0) && decide ((off - d.base) / d.stride < d.count)

/-- The register at a BAR0 offset, if the map assigns one (R539). -/
def regAt (off : Nat) : Option RegDesc := (regsOf (off / 65536)).find? (fun d => d.covers off)

/-- The shadowed bits of a register. -/
def RegDesc.rws (d : RegDesc) : Nat := d.v ||| d.s ||| d.n

def regResets_0 : SMap Word := [
  (0x0, 0x8820A100#32), (0x100C, 0x1#32), (0x10004, 0x1#32), (0x10008, 0xFFFFFFFF#32), (0x1000C, 0x3E8#32),
  (0x10014, 0x3FFFFFFF#32), (0x1001C, 0x7F#32), (0x20004, 0x200#32), (0x20008, 0x10001#32),
  (0x2000C, 0x3B9ACA0#32), (0x20014, 0x5DC#32), (0x20018, 0x3100096#32), (0x2001C, 0xA14#32),
  (0x30008, 0x5DC#32), (0x3000C, 0x4000000#32), (0x30010, 0x16E360#32), (0x30014, 0x10003A98#32),
  (0x30100, 0x424000#32), (0x30108, 0x4650#32), (0x30110, 0x10DF0000#32), (0x30118, 0x5003A98#32),
  (0x30140, 0x424000#32), (0x30148, 0x4650#32), (0x30150, 0x10DF0000#32), (0x30158, 0x5003A98#32)]

def regResets_1 : SMap Word := [
  (0x30180, 0x424000#32), (0x30188, 0x4650#32), (0x30190, 0x10DF0000#32), (0x30198, 0x5003A98#32),
  (0x301C0, 0x424000#32), (0x301C8, 0x4650#32), (0x301D0, 0x10DF0000#32), (0x301D8, 0x5003A98#32),
  (0x40100, 0x2900#32), (0x40108, 0x30000#32), (0x4010C, 0x10DF1DFF#32), (0x40110, 0x80000001#32),
  (0x40124, 0x4000#32), (0x4012C, 0x4000#32), (0x40134, 0x4000#32), (0x40140, 0x2900#32),
  (0x40148, 0x30000#32), (0x4014C, 0x10DF1DFF#32), (0x40150, 0x80000001#32), (0x40164, 0x4000#32),
  (0x4016C, 0x4000#32), (0x40174, 0x4000#32), (0x40180, 0x2900#32), (0x40188, 0x30000#32)]

def regResets_2 : SMap Word := [
  (0x4018C, 0x10DF1DFF#32), (0x40190, 0x80000001#32), (0x401A4, 0x4000#32), (0x401AC, 0x4000#32),
  (0x401B4, 0x4000#32), (0x401C0, 0x2900#32), (0x401C8, 0x30000#32), (0x401CC, 0x10DF1DFF#32),
  (0x401D0, 0x80000001#32), (0x401E4, 0x4000#32), (0x401EC, 0x4000#32), (0x401F4, 0x4000#32),
  (0x40200, 0x2900#32), (0x40208, 0x30000#32), (0x4020C, 0x10DF1DFF#32), (0x40210, 0x80000001#32),
  (0x40224, 0x4000#32), (0x4022C, 0x4000#32), (0x40234, 0x4000#32), (0x50008, 0xF78000#32),
  (0x50064, 0x400#32), (0x60004, 0x421#32), (0x6000C, 0xF70000#32), (0x60010, 0x4#32)]

def regResets_3 : SMap Word := [
  (0x7000C, 0x10DF1DFF#32), (0x70010, 0x58C745D#32), (0x70014, 0x1BBE4#32), (0x70018, 0x302010#32),
  (0x70024, 0xF000000#32), (0x70028, 0xC000#32), (0x70060, 0x4000#32), (0x70068, 0x4000#32),
  (0x70070, 0x4000#32), (0x70208, 0x10DF1DFF#32), (0x7020C, 0xFFFF#32), (0x70218, 0x10DF1DFF#32),
  (0x7021C, 0xFFFF#32), (0x70228, 0x10DF1DFF#32), (0x7022C, 0xFFFF#32), (0x70238, 0x10DF1DFF#32),
  (0x7023C, 0xFFFF#32), (0x70248, 0x10DF1DFF#32), (0x7024C, 0xFFFF#32), (0x70258, 0x10DF1DFF#32),
  (0x7025C, 0xFFFF#32), (0x70268, 0x10DF1DFF#32), (0x7026C, 0xFFFF#32), (0x70278, 0x10DF1DFF#32)]

def regResets_4 : SMap Word := [
  (0x7027C, 0xFFFF#32), (0x70288, 0x10DF1DFF#32), (0x7028C, 0xFFFF#32), (0x70298, 0x10DF1DFF#32),
  (0x7029C, 0xFFFF#32), (0x702A8, 0x10DF1DFF#32), (0x702AC, 0xFFFF#32), (0x702B8, 0x10DF1DFF#32),
  (0x702BC, 0xFFFF#32), (0x702C8, 0x10DF1DFF#32), (0x702CC, 0xFFFF#32), (0x702D8, 0x10DF1DFF#32),
  (0x702DC, 0xFFFF#32), (0x702E8, 0x10DF1DFF#32), (0x702EC, 0xFFFF#32), (0x702F8, 0x10DF1DFF#32),
  (0x702FC, 0xFFFF#32), (0x70308, 0x10DF1DFF#32), (0x7030C, 0xFFFF#32), (0x70318, 0x10DF1DFF#32),
  (0x7031C, 0xFFFF#32), (0x70328, 0x10DF1DFF#32), (0x7032C, 0xFFFF#32), (0x70338, 0x10DF1DFF#32)]

def regResets_5 : SMap Word := [
  (0x7033C, 0xFFFF#32), (0x80008, 0x440#32), (0x80014, 0x1000001#32), (0x80018, 0x10001#32),
  (0x8001C, 0x10001#32), (0x80020, 0x10001#32), (0x80024, 0x10001#32), (0x80030, 0xA0F0064#32),
  (0x80034, 0x1400000#32), (0x80038, 0x1E00190#32), (0x8003C, 0x2800230#32), (0x80040, 0x32002D0#32),
  (0x800C0, 0xF1F#32), (0x800C4, 0x100080#32), (0x80204, 0x10010#32), (0x80214, 0x4F60000#32),
  (0x80330, 0xE00000#32), (0x90014, 0x12345678#32), (0x90018, 0x140040#32), (0x9001C, 0x40#32),
  (0x90020, 0x100000#32), (0x9002C, 0x40#32), (0x90030, 0x30010682#32), (0x90034, 0x2EE005DC#32)]

def regResets_6 : SMap Word := [
  (0x90038, 0x100#32), (0x90048, 0x780F00F0#32), (0xA0004, 0x483C0#32), (0xA0008, 0xFFFFFF#32),
  (0xA0018, 0x401#32), (0xA001C, 0x320064#32), (0xA0080, 0xA200008#32), (0xA0084, 0x80000003#32),
  (0xA0088, 0xF68000#32), (0xA0090, 0x3#32), (0xA01C0, 0xF4040#32), (0xB0004, 0x120#32),
  (0xB0010, 0x2040000#32), (0xB0014, 0xC0F64000#32), (0xB0020, 0x8001401#32), (0xB0024, 0x8001401#32),
  (0xB0028, 0x8001401#32), (0xB002C, 0x8001401#32), (0xB0030, 0x8001401#32), (0xB0034, 0x8001401#32),
  (0xB0038, 0x8001401#32), (0xB003C, 0x8001401#32), (0xB0040, 0xA#32), (0xB0044, 0xA#32)]

def regResets_7 : SMap Word := [
  (0xB0048, 0xA#32), (0xB004C, 0xA#32), (0xB0050, 0xA#32), (0xB0054, 0xA#32),
  (0xB0058, 0xA#32), (0xB005C, 0xA#32), (0xB0060, 0xFFFF0000#32), (0xB0064, 0x2000012C#32),
  (0xB0074, 0x643300FF#32), (0xC000C, 0xA08#32), (0xC0010, 0x6403#32), (0xC0060, 0x20064#32),
  (0xC0070, 0x1F4007F#32), (0xC0080, 0x6400#32), (0xC0090, 0xC4030000#32), (0xC0094, 0x207D0#32),
  (0xC0100, 0x3C#32), (0xC0110, 0x3C#32), (0xC0120, 0x3C#32), (0xC0130, 0x3C#32),
  (0xC0140, 0x3C#32), (0xC0150, 0x3C#32), (0xC0160, 0x3C#32), (0xC0170, 0x3C#32)]

def regResets_8 : SMap Word := [
  (0xC0180, 0x3C#32), (0xC0190, 0x3C#32), (0xC01A0, 0x3C#32), (0xC01B0, 0x3C#32),
  (0xC01C0, 0x3C#32), (0xC01D0, 0x3C#32), (0xC01E0, 0x3C#32), (0xC01F0, 0x3C#32),
  (0xD0004, 0x380#32), (0xD0014, 0x32646402#32), (0xD0018, 0x3#32), (0xD001C, 0x64#32),
  (0xD0020, 0x118#32), (0xE0020, 0x3F#32), (0xE0098, 0x118#32), (0xE00CC, 0xF50000#32),
  (0xF0010, 0xC#32), (0xF0030, 0x600FA62#32), (0xF0044, 0x7FF#32), (0xF0048, 0x100064#32),
  (0xF0058, 0x10#32), (0xF0090, 0x8000000E#32), (0x100014, 0x13C#32), (0x100018, 0xF40000#32)]

def regResets_9 : SMap Word := [
  (0x10001C, 0xF41000#32)]

/-- The registers whose reset word is not 0, with that word (reset columns of the chapters). -/
def regResets : SMap Word := regResets_0 ++ regResets_1 ++ regResets_2 ++ regResets_3 ++ regResets_4 ++ regResets_5 ++ regResets_6 ++ regResets_7 ++ regResets_8 ++ regResets_9

def shadowResets_0 : SMap Word := [
  (0x20004, 0x200#32), (0x20008, 0x10001#32), (0x2000C, 0x3B9ACA0#32), (0x30008, 0x5DC#32),
  (0x3000C, 0x4000000#32), (0x30010, 0x16E360#32), (0x30014, 0x10003A98#32), (0x30100, 0x424000#32),
  (0x30108, 0x4650#32), (0x30110, 0x10DF0000#32), (0x30118, 0x5003A98#32), (0x30140, 0x424000#32),
  (0x30148, 0x4650#32), (0x30150, 0x10DF0000#32), (0x30158, 0x5003A98#32), (0x30180, 0x424000#32),
  (0x30188, 0x4650#32), (0x30190, 0x10DF0000#32), (0x30198, 0x5003A98#32), (0x301C0, 0x424000#32),
  (0x301C8, 0x4650#32), (0x301D0, 0x10DF0000#32), (0x301D8, 0x5003A98#32), (0x40100, 0x2900#32)]

def shadowResets_1 : SMap Word := [
  (0x40108, 0x30000#32), (0x4010C, 0x10DF1DFF#32), (0x40110, 0x80000001#32), (0x40124, 0x4000#32),
  (0x4012C, 0x4000#32), (0x40134, 0x4000#32), (0x40140, 0x2900#32), (0x40148, 0x30000#32),
  (0x4014C, 0x10DF1DFF#32), (0x40150, 0x80000001#32), (0x40164, 0x4000#32), (0x4016C, 0x4000#32),
  (0x40174, 0x4000#32), (0x40180, 0x2900#32), (0x40188, 0x30000#32), (0x4018C, 0x10DF1DFF#32),
  (0x40190, 0x80000001#32), (0x401A4, 0x4000#32), (0x401AC, 0x4000#32), (0x401B4, 0x4000#32),
  (0x401C0, 0x2900#32), (0x401C8, 0x30000#32), (0x401CC, 0x10DF1DFF#32), (0x401D0, 0x80000001#32)]

def shadowResets_2 : SMap Word := [
  (0x401E4, 0x4000#32), (0x401EC, 0x4000#32), (0x401F4, 0x4000#32), (0x40200, 0x2900#32),
  (0x40208, 0x30000#32), (0x4020C, 0x10DF1DFF#32), (0x40210, 0x80000001#32), (0x40224, 0x4000#32),
  (0x4022C, 0x4000#32), (0x40234, 0x4000#32), (0x7000C, 0x10DF1DFF#32), (0x70010, 0x58C745D#32),
  (0x70014, 0x1BBE4#32), (0x70018, 0x302010#32), (0x70060, 0x4000#32), (0x70068, 0x4000#32),
  (0x70070, 0x4000#32), (0x70208, 0x10DF1DFF#32), (0x7020C, 0xFFFF#32), (0x70218, 0x10DF1DFF#32),
  (0x7021C, 0xFFFF#32), (0x70228, 0x10DF1DFF#32), (0x7022C, 0xFFFF#32), (0x70238, 0x10DF1DFF#32)]

def shadowResets_3 : SMap Word := [
  (0x7023C, 0xFFFF#32), (0x70248, 0x10DF1DFF#32), (0x7024C, 0xFFFF#32), (0x70258, 0x10DF1DFF#32),
  (0x7025C, 0xFFFF#32), (0x70268, 0x10DF1DFF#32), (0x7026C, 0xFFFF#32), (0x70278, 0x10DF1DFF#32),
  (0x7027C, 0xFFFF#32), (0x70288, 0x10DF1DFF#32), (0x7028C, 0xFFFF#32), (0x70298, 0x10DF1DFF#32),
  (0x7029C, 0xFFFF#32), (0x702A8, 0x10DF1DFF#32), (0x702AC, 0xFFFF#32), (0x702B8, 0x10DF1DFF#32),
  (0x702BC, 0xFFFF#32), (0x702C8, 0x10DF1DFF#32), (0x702CC, 0xFFFF#32), (0x702D8, 0x10DF1DFF#32),
  (0x702DC, 0xFFFF#32), (0x702E8, 0x10DF1DFF#32), (0x702EC, 0xFFFF#32), (0x702F8, 0x10DF1DFF#32)]

def shadowResets_4 : SMap Word := [
  (0x702FC, 0xFFFF#32), (0x70308, 0x10DF1DFF#32), (0x7030C, 0xFFFF#32), (0x70318, 0x10DF1DFF#32),
  (0x7031C, 0xFFFF#32), (0x70328, 0x10DF1DFF#32), (0x7032C, 0xFFFF#32), (0x70338, 0x10DF1DFF#32),
  (0x7033C, 0xFFFF#32), (0x80008, 0x440#32), (0x80014, 0x1000001#32), (0x80018, 0x10001#32),
  (0x8001C, 0x10001#32), (0x80020, 0x10001#32), (0x80024, 0x10001#32), (0x800C4, 0x100080#32)]

/-- The shadowed registers whose reset is not 0: the shadow holds the reset value too (R10). -/
def shadowResets : SMap Word := shadowResets_0 ++ shadowResets_1 ++ shadowResets_2 ++ shadowResets_3 ++ shadowResets_4

end Sys2Proof.Machine
end

