-- ==== Sys2Proof/Machine/SMap.lean ====
section
/-!
DEFINITION. Sparse tables in canonical form: the register file, the memories and every large table of the block are lists of
(key, value) pairs with strictly rising keys and no entry equal to the default, so that equal tables are equal data.
-/

namespace Sys2Proof.Machine

/-- The value at key `a`; `d` where the table lists nothing. -/
def sget {α : Type} (d : α) : SMap α → Nat → α
  | [], _ => d
  | (k, v) :: r, a => if k = a then v else sget d r a

/-- The table without key `a`. -/
def sdel {α : Type} (m : SMap α) (a : Nat) : SMap α := m.filter (fun e => e.1 != a)

/-- Put the entry (a, v) before the first entry with a greater key. -/
def sins {α : Type} (a : Nat) (v : α) : SMap α → SMap α
  | [] => [(a, v)]
  | (k, w) :: r => if a < k then (a, v) :: (k, w) :: r else (k, w) :: sins a v r

/-- Put `v` at key `a`, keeping the canonical form: writing the default removes the entry. -/
def sset {α : Type} [DecidableEq α] (d : α) (m : SMap α) (a : Nat) (v : α) : SMap α :=
  if v = d then sdel m a else sins a v (sdel m a)

/-- Every key of the table is above `lo`, keys rise strictly, and no entry equals the default. -/
def swfFrom {α : Type} [DecidableEq α] (d : α) : Nat → SMap α → Bool
  | _, [] => true
  | lo, (k, v) :: r => decide (lo < k) && decide (v ≠ d) && swfFrom d k r

/-- The canonical form of a sparse table. -/
def swf {α : Type} [DecidableEq α] (d : α) : SMap α → Bool
  | [] => true
  | (k, v) :: r => decide (v ≠ d) && swfFrom d k r

/-- Put the values of a list at consecutive keys from `a`. -/
def ssetList {α : Type} [DecidableEq α] (d : α) (m : SMap α) (a : Nat) : List α → SMap α
  | [] => m
  | v :: vs => ssetList d (sset d m a v) (a + 1) vs

/-- The values at `n` consecutive keys from `a`. -/
def sgetList {α : Type} (d : α) (m : SMap α) (a : Nat) : Nat → List α
  | 0 => []
  | n + 1 => sget d m a :: sgetList d m (a + 1) n

/-- Keep the entries whose key satisfies `p`. -/
def sfilter {α : Type} (p : Nat → Bool) (m : SMap α) : SMap α := m.filter (fun e => p e.1)

end Sys2Proof.Machine
end

