-- ==== Sys2Proof/Machine/State.lean ====
section
/-!
DEFINITION. The state of the block as plain data (INVENTORY.md, '## State'): the register file and its shadows, the memories,
the internal state of each functional block, the pins, the free-value counter and the queue of waiting commands; the reasons a
step can stop; and the state after reset.
-/

namespace Sys2Proof.Machine

/-- Why a step faults. No rule of the manual stops the block: every reaction it describes is a next state, so no command
raises a fault. The constructor stands for an internal inconsistency no meaning produces. Safe. -/
inductive Fault where
  /-- raised by no command -/
  | internal
  deriving DecidableEq, Repr

/-- Why a step is refused. -/
inductive Refusal where
  /-- The command has no meaning in this model yet; raised by the arm of that command in exec. Safe. -/
  | notModelled (mnemonic : String)
  deriving DecidableEq, Repr

/-- A window of a camera (R60 to R62, R66): the exposure [o, c) of row y0, and what its rows take from the configuration. -/
structure CamWin where
  cam : Nat
  o : Int
  c : Int
  view : Nat
  sl : Nat
  q : Nat
  brim : Nat
  y0 : Nat
  y1 : Nat
  deriving DecidableEq, Repr

/-- One row of a pass: whether the pass programs it, its programming tick, its guarded window (of the union for joined
cameras), the end of its occupancy and the spans in which it emits, ticks counted from the tick counter's zero
(R70, R74, R76, R77). -/
structure Row where
  prog : Bool
  w : Nat
  gOpen : Int
  gClose : Int
  occEnd : Nat
  spans : List (Nat × Nat)
  deriving DecidableEq, Repr

/-- One pass of a bank (R74): its cameras (none: a house or repeat pass), its view, scan start, line step and rows, and how
far the calendar has taken it. -/
structure Pass where
  /-- the cameras the pass serves, lowest index first (R89); empty for a house pass -/
  cams : List Nat
  /-- the windows it covers (R76, R89) -/
  wins : List CamWin
  view : Nat
  start : Nat
  q : Nat
  dur : Nat
  rows : List Row
  /-- number within its picture period, and the number of the period -/
  ordinal : Nat
  pic : Nat
  /-- an accumulation pass (R255) -/
  accum : Bool
  /-- subframes n and mask m of its emission (R227) -/
  sub : Nat × Nat
  /-- EXS.SCAN.prog_gap and EXS.LC.settle of its bank, by which its entries stand (R81, R85) -/
  gap : Nat
  settle : Nat
  /-- PPX.BL_CFG.en at its refresh start (R200, R245) -/
  bl : Bool
  /-- the repeat pass of a non-seamless transition (R205), and the hold that follows it, whose emission is not accumulated (R260) -/
  repeats : Bool
  hold : Nat × Nat
  latched : Bool
  started : Bool
  ended : Bool
  marked : Bool
  deriving DecidableEq, Repr

/-- A dark window offered to Drizzle (R95): [a, b), its first row and the number of rows. -/
structure DarkWin where
  a : Nat
  b : Nat
  row : Nat
  n : Nat
  deriving DecidableEq, Repr

/-- A Drizzle sensing slot in the calendar (R313). -/
structure SenseSlot where
  a : Nat
  b : Nat
  row : Nat
  started : Bool
  ended : Bool
  deriving DecidableEq, Repr

/-- The loss of a camera in a bank (R90): the loser, the winner, the first affected row, the affected rows, the greatest loss. -/
structure Loss where
  cam : Nat
  winner : Nat
  row : Nat
  rows : Nat
  ticks : Nat
  deriving DecidableEq, Repr

/-- A calendar bank (R49): the boundary it serves from and its period, its passes in scan order, its sensing slots, its entry counts
(R571), the pass limit (R79), the cameras with windows, the losses (R90), and the house minimum of each row (R94). -/
structure Bank where
  at_ : Nat
  period : Nat
  passes : List Pass
  slots : List SenseSlot
  singles : Nat
  seqs : Nat
  nMax : Nat
  active : Nat
  losses : List Loss
  houseMin : Nat
  deriving DecidableEq, Repr

/-- Internal state of the time base (ch. 2) beside its registers. -/
structure Tmb where
  /-- number of the running picture period; none before picture number 0 (R32, R33) -/
  pic : Option Nat
  /-- the number the next boundary carries -/
  picNext : Nat
  /-- tick of the last boundary -/
  bound : Nat
  /-- tick of the next boundary; none while no boundary is placed -/
  next : Option Nat
  /-- the alignment edge (R35) -/
  align : Option Int
  /-- index of the next expected window not yet judged, counted from the alignment edge's own, 0 -/
  win : Int
  /-- the window in which an edge was last accepted -/
  acc : Option Int
  /-- tick at which miss_cnt windows have passed since the last accepted edge (TMB.STATUS.ref_present) -/
  presentTo : Nat
  /-- the most recent edges of the selected reference, oldest first, at most 16 (R37) -/
  recent : List Nat
  inRange : Nat
  good : Nat
  bad : Nat
  missRun : Nat
  /-- wide acceptance (R570) -/
  wide : Bool
  /-- a realign waits for the next accepted edge (R40) -/
  realign : Bool
  /-- tick of entry to HOLDOVER or OUT_OF_RANGE -/
  holdAt : Nat
  /-- the 60 s event of the current HOLDOVER has been posted (R38) -/
  held60 : Bool
  /-- offsets applied in the last second of LOCKED, newest first, with their ticks, and the tick LOCKED was last left -/
  freqLog : List (Nat × Int)
  lockEnd : Nat
  /-- on a worker, the picture number of the manager's last usable beacon and the tick of that picture's boundary (R33) -/
  mgr : Option (Nat × Int)
  /-- the SLEW correction in ppb and the tick of its last change (R39) -/
  corr : Int
  corrAt : Nat
  /-- the copy outputs are taken from is B (R55) -/
  useB : Bool
  deriving DecidableEq, Repr

/-- One camera channel beside its registers (R64 to R68). -/
structure Cam where
  /-- the level last seen on SHUT_IN[n] -/
  level : Bool
  /-- accepted open edges, newest first, at most 9 (R66) -/
  opens : List Nat
  /-- the last open edge, while its close edge has not come -/
  pend : Option Nat
  /-- that open edge was accepted (R65) -/
  pendAcc : Bool
  /-- the last open edge of ACQUIRE and whether a close followed it -/
  lastOpen : Option Nat
  closed : Bool
  /-- consecutive good edges in ACQUIRE -/
  run : Nat
  /-- consecutive misses in TRACK -/
  missRun : Nat
  /-- index (from the newest accepted open) of the next predicted window to judge -/
  win : Nat
  /-- picture periods without an accepted open edge in COAST, and whether the running one has had one -/
  coast : Nat
  seen : Bool
  /-- guarded windows of row y0 built for the channel, newest first (R68) -/
  guard : List (Int × Int)
  deriving DecidableEq, Repr

/-- What one lockstep copy holds (R54): the tick counter, the PLL's offset, lock counts and correction, the picture counter and phase, the calendar
banks and the scheduler's channels. -/
structure LockCopy where
  tick : Nat
  ppb : Int
  lock : Nat × Nat × Nat
  corr : Int
  pic : Option Nat
  bound : Nat
  bank : Option Bank
  next : Option Bank
  carried : List Pass
  cams : SMap Cam
  deriving DecidableEq, Repr

/-- Internal state of the scheduler and the calendar (ch. 2 and 3). -/
structure Exs where
  /-- the camera channels by number; `Cam.reset` where nothing is listed -/
  cams : SMap Cam
  /-- channels as they stood at the build point, where an edge of a later timestamp came before the build (R82): the channel, its state
  code and its last accepted width -/
  frozen : List (Nat × Cam × Nat × Nat)
  /-- the active bank and the bank being built or built for the next boundary (R49) -/
  bank : Option Bank
  next : Option Bank
  /-- passes of earlier periods that still have entries to come (R85) -/
  carried : List Pass
  /-- camera windows already built: (camera, open tick) -/
  built : List (Nat × Int)
  /-- sense slots of earlier banks whose edges may still be due at the pins (R53, R314) -/
  oldSlots : List SenseSlot
  /-- windows whose pass was delayed past its period: built with the next bank -/
  deferred : List (Nat × Int)
  /-- subframes and mask as they stood at the build point, where they changed before the build (R82) -/
  frozenSub : Option (Nat × Nat)
  /-- escapes of the running period (EXS.STATUS.escape) -/
  esc : Nat
  deriving DecidableEq, Repr

/-- A queue entry of one block (R121 to R130). -/
structure QEntry where
  /-- number of the submission; entries that complete together share it -/
  id : Nat
  source : Nat
  slot : Nat
  surface : Nat
  seq : Nat
  token : Nat
  repl : Bool
  /-- apply time (picture, phase) -/
  apply : Option (Nat × Nat)
  /-- accept tick and order of acceptance -/
  accAt : Nat
  accNo : Nat
  /-- the tick it completed -/
  compAt : Option Nat
  /-- position of its plane-0 block in the surface (R122) -/
  si : Nat
  sj : Nat
  deriving DecidableEq, Repr

/-- The version in effect of a block and slot (R121). -/
structure Cur where
  source : Nat
  surface : Nat
  seq : Nat
  si : Nat
  sj : Nat
  deriving DecidableEq, Repr

/-- The writes of a submission that are still to be done (R116, R128). -/
structure WriteJob where
  id : Nat
  surface : Nat
  left : Nat
  deriving DecidableEq, Repr

/-- Internal state of the block queues (ch. 4). -/
structure Blq where
  /-- pending entries of block 256 · by + bx, in queue order -/
  queues : SMap (List QEntry)
  /-- current version of key 32 · block + slot -/
  cur : SMap (Option Cur)
  writes : List WriteJob
  nextId : Nat
  accNo : Nat
  /-- the host submission in progress: its descriptor's eight words -/
  sub : Option (List Nat)
  /-- a host submission, and an Orsal version, has been accepted since power-on (R125) -/
  hostAcc : Bool
  orsalAcc : Bool
  orsalLast : Nat
  /-- token of the last accepted host submission (R125) -/
  hostLast : Nat
  /-- last token of each ingest input and of the ageing engine (Table 4.9); none before the first -/
  lastTok : List (Option Nat)
  /-- tick of the last GEN.FENCE write and the token before it (R132) -/
  fenceAt : Option Nat
  fenceOld : Nat
  deriving DecidableEq, Repr

/-- The picture an input is writing (R115, R116), with the settings in effect at its start. -/
structure InPic where
  sig : InSignal
  surface : Nat
  seq : Nat
  /-- converted (store 0) or source (store 1) -/
  store : Bool
  /-- encoding codes in use: matrix, transfer, range, primaries -/
  mtx : Nat
  tf : Nat
  range : Nat
  prim : Nat
  slot : Nat
  bx0 : Nat
  by0 : Nat
  apply : Option (Nat × Nat)
  /-- the primaries matrix, row by row -/
  m : List Int
  /-- next block row to begin -/
  row : Nat
  /-- entry number of each panel block submitted: (block of the picture: 256 · j + i, id) -/
  ids : List (Nat × Nat)
  /-- tick of its first active line (R375) -/
  at_ : Nat
  deriving DecidableEq, Repr

/-- One input beside its registers. -/
structure Inp where
  pic : Option InPic
  /-- pictures that have taken a surface (R123) -/
  taken : Nat
  /-- pictures (by seq) already counted in replaced, as far as an entry of theirs can still be dropped -/
  replaced : List Nat
  /-- tick since which the input has been disabled, or its lock has stayed 0 (R505) -/
  since : Nat
  /-- the input was enabled when power management last looked -/
  seen : Bool
  /-- tick of the DisplayPort power-down state (R505) -/
  dpDown : Option Nat
  deriving DecidableEq, Repr

/-- Internal state of ingest (ch. 4). -/
structure Ing where
  /-- the inputs by number; `Inp.reset` where nothing is listed -/
  inputs : SMap Inp
  /-- write stamp of each surface, 0 while not written since power-on (R115), and the last stamp given -/
  stamps : SMap Nat
  stamp : Nat
  /-- local-store addresses of byte 14 of every descriptor whose `protected` flag ingest has set (R103) -/
  prot : List Nat
  deriving DecidableEq, Repr

/-- Whom a decoded block goes to. -/
inductive DecTag where
  /-- scan-out: the run (by its number) and the layer that fetched it -/
  | scan (run layer : Nat)
  /-- the Orsal receive check: version and block of its rectangle -/
  | orsal (vid blk : Nat)
  /-- the host job's block -/
  | job
  deriving DecidableEq, Repr

/-- A block waiting for, or in, a decode lane (R156): user code, space, address, depth code, urgency. -/
structure DecReq where
  user : Nat
  lst : Bool
  addr : Nat
  depth : Nat
  urg : Nat
  /-- the bytes, for a block that is not in memory (Orsal) -/
  bytes : Option (List Byte)
  tag : DecTag
  /-- the due tick of a scan-out fetch, by which the memory scheduler orders those of one urgency (R195, R399) -/
  due : Nat
  deriving DecidableEq, Repr

/-- Whom a compressed block goes to. -/
inductive CmpTag where
  /-- ingest input n: the entries the block belongs to, and the surface it is written to -/
  | ingest (n : Nat) (ids : List Nat) (surface : Nat)
  | job
  /-- the ageing engine's rebuild: entry number -/
  | ageing (id : Nat)
  /-- the history write-back -/
  | history
  /-- the capture tap: run, plane and panel block -/
  | capture (run plane blk : Nat)
  /-- the checkpoint of a sequence number -/
  | ckpt (seq : Nat)
  deriving DecidableEq, Repr

/-- A block waiting for, or in, a compress lane: user code, destination address, depth code, opaque flag, samples, and the ad it was started
with (R149; 0 while it waits). -/
structure CmpReq where
  user : Nat
  addr : Nat
  depth : Nat
  opaque_ : Bool
  samples : List Nat
  ad : Nat
  tag : CmpTag
  deriving DecidableEq, Repr

/-- The running host job (R162 to R171): its ring entry and descriptor, the next region block and the one after its last, blocks done, bytes
written to a packed destination, blocks stored raw, its accepted submission (R169), the bytes taken from a packed source, and how it ends
once its end is due (result, cause, sub_result); whether a block of it lies in a lane, and the tick of an abort that waits for that block. -/
structure Job where
  entry : Nat
  desc : List Byte
  next : Nat
  stop : Nat
  done : Nat
  bytes : Nat
  vfail : Nat
  version : Option Nat
  srcPos : Nat
  ended : Option (Nat × Nat × Nat)
  busy : Bool
  abort : Option Nat
  deriving DecidableEq, Repr

/-- Internal state of the codec (ch. 5). -/
structure Cdc where
  decWait : List DecReq
  decLanes : List (Option DecReq)
  cmpWait : List CmpReq
  cmpLanes : List (Option CmpReq)
  job : Option Job
  /-- jobs below this index that have not started end ABORTED (R171) -/
  abortTo : Option Nat
  /-- tick of the last CDC.JOB_PROD write and the value before it -/
  prodAt : Option Nat
  prodOld : Nat
  deriving DecidableEq, Repr

/-- What is known of a plane block that a run has asked for (R190, R23). -/
inductive FetSt where
  /-- requested, not yet decoded -/
  | wait
  /-- refetched after a block error -/
  | again
  /-- decoded at a tick: its samples -/
  | ok (samples : List Nat) (at_ : Nat)
  /-- the refetch has failed too -/
  | bad
  deriving DecidableEq, Repr

/-- A plane block asked for by a layer of a run (4: the uniformity surface, 5: the slot-20 version, R222). -/
structure Fetch where
  layer : Nat
  addr : Nat
  depth : Nat
  st : FetSt
  deriving DecidableEq, Repr

/-- What a pass drives. -/
inductive RunKind where
  /-- the layers of its view -/
  | content
  /-- the black drive value (R330) -/
  | black
  /-- the final pass's values from its history (Table 6.6) -/
  | repeats
  deriving DecidableEq, Repr

/-- A pass in scan-out and panel processing, from its refresh start until its last row has been sent. -/
structure Run where
  num : Nat
  kind : RunKind
  view : Nat
  pic : Nat
  ordinal : Nat
  start : Nat
  q : Nat
  dur : Nat
  /-- rows the pass programs (R92) -/
  prog : List Bool
  accum : Bool
  /-- the registers in effect, and the versions resolved, at the refresh start (R183) -/
  cfg : SMap Word
  vers : SMap (Option Cur)
  /-- layers transparent for the whole pass (R182) -/
  transp : List Bool
  /-- latched band, dither phase and phase of each common (R232, R235, R239) -/
  band : Nat
  phi : Nat
  pol : Nat
  /-- zone values the backlight holds for the pass (R246) -/
  zq : List Nat
  fetch : SMap (Option Fetch)
  /-- layer blocks not fetched: 65536 · layer + block (R193) -/
  skipped : SMap Bool
  /-- strips of each layer, and rows of blocks of the two tables (codes 4 and 5), due and begun, in scan order (R190, R222) -/
  due : List Nat
  begun : List Nat
  /-- substituted panel blocks: 1 underrun, 2 block error; the first and how many -/
  subst : SMap Nat
  firstSub : Option Nat
  subs : Nat
  /-- the block row in hand and its blocks: 12-bit-form drive values, subpixel c of (col, row) at 1024 c + 32 row + col, and
  the header word -/
  brow : Option Nat
  blocks : List (List Nat × Nat)
  /-- next scan row to take, and rows taken whose row slot has not come: (scan row, values, 0 where skipped) -/
  yTake : Nat
  lines : List (Nat × Option (List Nat))
  ySlot : Nat
  /-- its vertical blanking point has come, and it has been finalised -/
  vbp : Bool
  fin : Bool
  /-- CRC-32 state of each checksum region (R247) -/
  crc : List Nat
  /-- layer blocks whose version failed its check in this pass (R527): 65536 · layer + block -/
  failed : SMap (Option Cur)
  /-- largest, sum and number of stage-2 maxima of each zone (R242) -/
  zacc : SMap (Nat × Nat × Nat)
  /-- its stress accumulation is still to be made (R255) -/
  accDue : Bool
  /-- the capture of the pass: selected (1), refused (2) -/
  cap : Nat
  /-- the driven blocks of a pass being captured, by block key -/
  capVals : SMap (List Nat)
  /-- the pass resolved a version naming a protected surface (R493) -/
  prot : Bool
  deriving DecidableEq, Repr

/-- A commit set (R198 to R201): the shadows latched, and for each class V, S, N still to take effect the tick it is set (R199). -/
structure CommitSet where
  snap : SMap Word
  v : Option Nat
  s : Option Nat
  n : Option Nat
  deriving DecidableEq, Repr

/-- A non-seamless transition (R205, R206): the final pass's view and line step, the start and end of the repeat pass, whether it
has started, and boundary b. -/
structure Nsl where
  view : Nat
  q : Nat
  /-- there is a final pass to repeat -/
  final : Bool
  rep : Nat
  endR : Nat
  begun : Bool
  b : Nat
  deriving DecidableEq, Repr

/-- Internal state of scan-out (ch. 6). -/
structure Scn where
  runs : List Run
  nextRun : Nat
  set : Option CommitSet
  /-- the set before it, whose S-class and N-class values the next bank is already built from, or a running transition uses: they take effect
  at that boundary (R83, R199, R206) -/
  prev : Option CommitSet
  nsl : Option Nsl
  /-- per view, layer and block: the version that failed its check in the last pass, and whether Frost holds it (R527) -/
  fails : SMap (Option (Cur × Bool))
  /-- view of the pass whose values the panel was last driven with (R16) -/
  lastView : Option Nat
  /-- histories that are protected allocations (R493) -/
  histProt : List Bool
  deriving DecidableEq, Repr

/-- A panel temperature sensor (R229): valid, consecutive failed reads, a good read since it was enabled. -/
structure Sns where
  valid : Bool
  fails : Nat
  good : Bool
  deriving DecidableEq, Repr

/-- A common's balance and phase (R238, R239): whether it has driven a refresh since power-on, and the phase of the first pass of
the last period in which one started, with that period. -/
structure PolC where
  bal : Int
  phase : Bool
  started : Bool
  first : Bool
  firstPic : Option Nat
  deriving DecidableEq, Repr

/-- A capture session (R249): passes to skip before the next, captures still to start, a stop has been asked for. -/
structure Cap where
  skip : Nat
  left : Nat
  stop : Bool
  /-- tick of the arm: passes whose refresh start follows it count -/
  armAt : Nat
  deriving DecidableEq, Repr

/-- A pass captured or refused whose record is still to be written (R250, R251): its run, pass, view and ordinal, whether it is refused, has
been abandoned, has been driven to its end, and its verified blocks: key 65536 · plane + block. -/
structure CapJob where
  run : Nat
  pic : Nat
  view : Nat
  ordinal : Nat
  refused : Bool
  abandoned : Bool
  driven : Bool
  blocks : SMap (List Byte)
  deriving DecidableEq, Repr

/-- Internal state of panel processing (ch. 7). -/
structure Ppx where
  /-- table words: key 2^21 · bank + 2^17 · table + index (Table 7.3) -/
  tbl : SMap Nat
  sns : List Sns
  /-- no cycle has ended with a valid sensor since start or since the last period without one (R230) -/
  fresh : Bool
  /-- no cycle has ended with a valid sensor since the end of start-up step 5 (R231) -/
  startBand : Bool
  /-- tick of the last sensor cycle (R229), and the transactions it made: the bytes sent to each sensor, addresses included (R228) -/
  cycleAt : Nat
  snsTx : List (List Byte)
  /-- tick from which the seconds without a valid sensor count (R231); none while one is valid -/
  noSince : Option Nat
  /-- the fallback of R231 has been taken -/
  fellBack : Bool
  pol : List PolC
  /-- zone values of view v, zone z: key 4096 · v + z, 4,095 where nothing is listed; views with a completed pass (R242) -/
  zones : SMap Nat
  zoned : List Bool
  /-- zone values the backlight driver holds (R246), 4,095 where nothing is listed -/
  latched : SMap Nat
  /-- tick at which the backlight interface is free -/
  blFree : Nat
  /-- the last STROBE word sent, and the tick at which BL_LAT falls after it (R244) -/
  blWord : Nat
  blLat : Nat
  /-- VALUE words of the pass last prepared: the tick each starts, and the word (R246) -/
  blVals : List (Nat × Nat)
  /-- strobes sent: start of the pass, zone row, on (R245) -/
  blDone : List (Nat × Nat × Bool)
  cap : Option Cap
  capJobs : List CapJob
  /-- tag word of the last checksum of each region, latched by a read of PPX.CRCr (R248) -/
  tags : List Nat
  deriving DecidableEq, Repr

/-- A sensed row (R266, R267): its row, tag and slot, the end of the period after its slot, the channel results that have come
from each group (valid, e_raw, t_raw), and whether they have been asked for. -/
structure SenseRow where
  row : Nat
  tag : Nat
  slotEnd : Nat
  deadline : Nat
  got : List (Nat × List (Bool × Nat × Nat))
  asked : Bool
  deriving DecidableEq, Repr

/-- A checkpoint in progress (R278): its slot, sequence number, trigger (Table 8.2: 0 the interval, 1 AGE.CTRL.ckpt, 2 an orderly shutdown),
emission hours and picture number at its start; the plane in hand (6: the body is complete) and its next block, the offset of its segment in
the body and the bytes and blocks it holds so far, the directory and lo_full; a snapshot has read a poisoned granule (R397). -/
structure Ckpt where
  slot : Nat
  seq : Nat
  kind : Nat
  pic : Nat
  hours : Nat
  plane : Nat
  next : Nat
  off : Nat
  used : Nat
  count : Nat
  dir : List (Nat × Nat)
  full : Nat
  bad : Bool
  /-- picture number at its last snapshot (Table 8.1) -/
  picEnd : Nat := 0
  deriving DecidableEq, Repr

/-- Internal state of the ageing engine (ch. 8). -/
structure Age where
  /-- passes of each view since panel power-on (R254) -/
  passNo : List Nat
  /-- the 31-bit dither word (R257) -/
  lfsr : Nat
  /-- table words: key 64 · table + index (R284) -/
  tbl : SMap Nat
  /-- sensed rows whose results are outstanding, oldest first -/
  rows : List SenseRow
  /-- consecutive failures of each row (R267), and rows beyond the cursor that have been sensed or skipped -/
  fails : SMap Nat
  past : List Nat
  /-- tick the running sweep began, and of the last token (R265, R268) -/
  sweepAt : Nat
  tokenAt : Nat
  /-- rebuild cursor and blocks examined in this picture period (R274) -/
  rbBlock : Nat
  rbUsed : Nat
  /-- a rebuild submission held for a full queue: its block and its codes (R131) -/
  rbHeld : Option (Nat × List (List Nat))
  /-- slot-20 submissions made since power-on reset (R123) -/
  subs : Nat
  /-- the rebuild before panel power-on: blocks examined so far, and every block examined (R275) -/
  rbFirst : Nat
  rebuilt : Bool
  ckpt : Option Ckpt
  /-- a trigger held while a checkpoint or a flash command runs, by kind -/
  held : Option Nat
  /-- tick at which a failed periodic checkpoint is tried again (R281) -/
  retryAt : Option Nat
  /-- a shutdown checkpoint waits for emission to end, or its limit tick runs (R280) -/
  shutBy : Option Nat
  /-- the slot and sequence number of the newest valid checkpoint -/
  newest : Option (Nat × Nat)
  /-- emission ticks before the last entry to ON: since the last checkpoint start, and in all; the tick of that entry while
  emission is on (R279) -/
  sinceAcc : Nat
  emitAcc : Nat
  emitAt : Option Nat
  /-- ticks with panel outputs running, towards the panel-on hours counter -/
  onAcc : Nat
  onAt : Option Nat
  deriving DecidableEq, Repr

/-- A read-back request (R311, R312): kind, group, request id, monitor mask, sense tag and row, tries made, and, once sent, the tick at
which its frame is expected to begin. -/
structure BackReq where
  kind : Nat
  group : Fin 24
  id : Nat
  mask : Nat
  tag : Nat
  row : Nat
  tries : Nat
  due : Nat
  deriving DecidableEq, Repr

/-- A non-row packet waiting for a slot (R298): its precedence, the groups it still goes to, header type, arg and payload (for an RDBK
packet, its request, whose payload is made when it is sent). -/
structure Pkt where
  prec : Nat
  mask : Nat
  typ : Nat
  arg : Nat
  pay : List Byte
  req : Option BackReq
  /-- for a SENSE packet, the tick by which its slot must end, sent in the last slot that does (R313) -/
  endBy : Option Nat
  deriving DecidableEq, Repr

/-- One column-driver group beside its registers: training step of Table 9.5 (0: link off, 6: in slots) and the tick it began, lock and
deskew bits of the last status response, monitor detections of its data lanes in the running slot, and a takeover its driver's
counts ask for. -/
structure Grp where
  step : Nat
  at_ : Nat
  lock : Nat
  deskew : Bool
  det : List Nat
  rxTake : Option Nat
  deriving DecidableEq, Repr

/-- An emission pulse (R317): the start of its pass, its place among the pass's lit subframes, whether it begins (or ends) the emission, its
chain and its edges; for a global-off instant no chain. -/
structure EmPulse where
  pass : Nat
  j : Nat
  rise : Bool
  chain : Option Nat
  edges : List Nat
  deriving DecidableEq, Repr

/-- Internal state of the drive block (ch. 9). -/
structure Drv where
  /-- seq of the next slot (R297); the start of the running slot and its length, and the end of the last one, in calendar ticks -/
  seq : Nat
  slotAt : Option Nat
  slotLen : Nat
  slotFrom : Nat
  /-- grids of gap slots, newest first: origin and Q0 (R297) -/
  grids : List (Nat × Nat)
  /-- the groups by number; `Grp.off` where nothing is listed -/
  grps : SMap Grp
  queue : List Pkt
  /-- symbols each lane has sent in the running slot (R291, R292; special symbols are 256 and up): key 5 g + lane; a lane that is not listed
  sends idle pairs -/
  sent : SMap (List Nat)
  /-- packets of each logical lane in the running slot, which a takeover sends again on the spare (R306): key 4 g + lane -/
  lag : SMap (List (List Byte))
  /-- a send_cfg held (R321) -/
  cfgHeld : Bool
  /-- requests sent whose frames have not come, in order of their frames -/
  reqs : List BackReq
  nextReq : Nat
  /-- tick at which CL_BACK is free (R311) -/
  backFree : Nat
  /-- transmit swing of the column link in mV (Table 19.9) -/
  swing : Nat
  /-- tick of the last status poll -/
  pollAt : Nat
  /-- a column-link PHY domain is being shut down; a training start is held (R339) -/
  stopping : Bool
  held : Bool
  /-- output levels before inversion, and the calendar tick of each output's last edge -/
  gt : Nat
  gtAt : List Nat
  em : Nat
  emAt : List Nat
  /-- emission pulses of the banks (R317) -/
  pulses : List EmPulse
  deriving DecidableEq, Repr

/-- Where the power sequencer stands within a state: nothing, a PMBus record, a power-good wait, a settle, a discharge. -/
inductive PsqPhase where
  | none
  | pmbus
  | pgWait
  | settle (since : Nat)
  | discharge (since : Nat)
  deriving DecidableEq, Repr

/-- A crack test in progress (R342): its start, the sampling and edge ticks passed, and the loops that a sample has failed. -/
structure CrkTest where
  at_ : Nat
  step : Nat
  bad : Nat
  deriving DecidableEq, Repr

/-- Internal state of the panel sequencer (ch. 10). -/
structure Psq where
  /-- a power-on request is accepted and held (R324) -/
  req : Bool
  /-- step of RAILS_UP or RAILS_DOWN in progress, and where it stands -/
  k : Fin 8
  phase : PsqPhase
  /-- steps of RAILS_UP begun (their rails are to be lowered), and steps whose rail is watched (R341) -/
  begun : Nat
  watched : Nat
  /-- tick at which the step's rail was enabled (R327) -/
  enAt : Nat
  /-- an off request waits for the step in progress or for b_off (R332, R333) -/
  offReq : Bool
  /-- a checkpoint is to start at b_off (R334), and state OFF waits for it -/
  ckptReq : Bool
  ckptWait : Bool
  /-- tick at which a safe power-off was decided, while it runs (R335) -/
  safe : Option Nat
  /-- black write scans ended since panel power-on, and those that started at or after b_off -/
  blackOn : Nat
  blackOff : Nat
  bOff : Option Nat
  /-- BLACK_OFF was entered from BLACK (R333) -/
  fromBlack : Bool
  /-- tick of panel power-on (R325), of the entry to ON (R331), and of the link stop -/
  onAt : Option Nat
  bOn : Option Nat
  stopAt : Option Nat
  /-- PSQ.CNT_ON before the last entry to ON counted (R333) -/
  onCnt : Nat
  /-- the last PMBus transaction sent, with its PEC (R337) -/
  pmb : List Byte
  /-- CRK_OUT levels, the test in progress, tests of PRECHECK made, and each loop's failures in them -/
  crkOut : Nat
  crk : Option CrkTest
  pre : Nat
  preRun : SMap Nat
  /-- each loop's consecutive failures -/
  crkRun : SMap Nat
  /-- consecutive mismatches of monitor m of group g (key 8 g + m), and consecutive missing requests of each group -/
  monRun : SMap Nat
  missRun : SMap Nat
  /-- tick of the last monitor poll -/
  monAt : Nat
  /-- PMB_ALERT_N is low until this tick -/
  alertTo : Nat
  deriving DecidableEq, Repr

/-- What a frame takes when it leaves its port (R361 to R363): nothing; a BEACON its o from the instant it stands for (1/64 tick) and, on
a worker, the last tick at which it may leave; a DLY_REQ its t1; a DLY_RSP its t3. -/
inductive TxStamp where
  | none
  | beacon (inst : Int) (by_ : Option Nat)
  | dlyReq
  | dlyRsp
  deriving DecidableEq, Repr

/-- An Orsal frame waiting at a port (R356 to R358): precedence, header fields, payload, and for a BLOCK frame the plane block it carries
(space of the block as stored: address). -/
structure TxFrame where
  prec : Nat
  typ : Nat
  src : Nat
  bcast : Bool
  dst : Nat
  hops : Nat
  seq : Nat
  pay : List Byte
  stamp : TxStamp
  blk : Option Nat
  deriving DecidableEq, Repr

/-- A block on an Orsal port's lanes (R352): its lane, its sync header and its 8 bytes. -/
structure LineBlk where
  lane : Nat
  sync : Nat
  bytes : List Byte
  deriving DecidableEq, Repr

/-- An Orsal port beside its registers: frames waiting, the frame being sent (its bytes), the delay measurements since UP (newest first, at
most 16), the stamp of the DLY_REQ outstanding, the last usable beacon and the start of its run, ticks of the last hello, delay request
and entry to DOWN or MISWIRED, and the shut-down of R339. -/
structure OrlPort where
  queue : List TxFrame
  sending : Option (List Byte)
  /-- the blocks of the frame being sent (R352); the index of the next block, and the tick at which block 0 was sent -/
  line : List LineBlk
  blk : Nat
  lineAt : Nat
  /-- the frame being sent, or the last one, is an EVENT -/
  sentTyp : Nat
  delays : List Int
  t1 : Option Nat
  lastBcn : Option Nat
  runBcn : Option Nat
  helloAt : Nat
  dlyAt : Nat
  downAt : Nat
  stopping : Bool
  held : Bool
  deriving DecidableEq, Repr

/-- The manager's control request in progress (R368): its operation and data, targets that have not answered, those that did not answer
OK, whether one answered LATE or NAK, its seq, tries left and the tick it was last sent. -/
structure CtlReq where
  op : Nat
  bcast : Bool
  dst : Nat
  self : Bool
  addr : Nat
  data : Nat
  pic : Nat
  open_ : List Nat
  bad : List Nat
  late : Bool
  nak : Bool
  seq : Nat
  tries : Nat
  at_ : Nat
  deriving DecidableEq, Repr

/-- A distribution on the manager (R375, R379, R380): version id, its rule (none: a host transfer), worker, surface, VER payload after
the vid, the plane blocks of its rectangle (key and address), those verified, whether the worker has accepted it, the port it takes
(none: both), the tick at which its VER is sent again, and whether its blocks wait for ACCEPTED after a BUSY or NO_SURF. -/
structure Dist where
  vid : Nat
  rule : Option Nat
  dst : Nat
  surface : Nat
  ver : List Byte
  blocks : List (Nat × Nat)
  ready : List Nat
  accepted : Bool
  port : Option Nat
  retryAt : Option Nat
  waits : Bool := false
  deriving DecidableEq, Repr

/-- A version received by a worker (R377, R378): version id, entry number, surface, size in blocks, plane blocks still to come, failures
of each block, tick of the last frame of the vid, and how many plane blocks it has in all. -/
structure RxVer where
  vid : Nat
  id : Nat
  surface : Nat
  left : List Nat
  fails : List (Nat × Nat)
  lastAt : Nat
  total : Nat := 0
  deriving DecidableEq, Repr

/-- The manager's view of one worker's frames (R373): the next seq, seqs received beyond it, EVENT frames held with the tick each came. -/
structure WorkerRx where
  pos : Nat
  next : Nat
  got : List Nat
  held : List (Nat × Nat × List Byte)
  deriving DecidableEq, Repr

/-- Internal state of the Orsal block (ch. 11). -/
structure Orl where
  /-- the two ports by number; `OrlPort.reset` where nothing is listed -/
  ports : SMap OrlPort
  /-- the frame number of the next frame originated (R359) -/
  seq : Nat
  /-- frames acted on, newest first: source, seq, and for a CTL_REQ its answer (status, data) -/
  seen : List (Nat × Nat × Option (Nat × Nat))
  ctl : Option CtlReq
  /-- pictures n_c of COMMIT_AT requests to carry out (R369) -/
  commits : List Nat
  workers : List WorkerRx
  dists : List Dist
  vid : Nat
  /-- tick of the first active line of the last picture each rule distributed -/
  rulePrev : List (Option Nat)
  rx : List RxVer
  /-- versions that have ended: vid, and 5 COMPLETE or 6 WITHDRAWN -/
  ended : List (Nat × Nat)
  /-- the last nominal beacon instant sent, and its period's boundary (R362) -/
  bcnAt : Option Nat
  /-- the broken link whose detours are in force, and the boundary after which they end (R384, R385) -/
  route : Option Nat
  routeEnd : Option Nat
  deriving DecidableEq, Repr

/-- A block's GDDR6 read that waits in the memory scheduler (R399): the decode lane it is for, and whether it has been promoted to class
2 (R400), with the tick it arrived. The list of them is in arrival order; a promoted one goes to its end. -/
structure MemReq where
  lane : Nat
  at_ : Nat
  promoted : Bool
  deriving DecidableEq, Repr

/-- The arbiter of a local-store bank (R404): the tick it has come to, the master served last, and the accesses that wait there, each with
whether it already counts as served late. -/
structure BankArb where
  tick : Nat
  prev : Nat
  wait : List (Nat × Bool)
  deriving DecidableEq, Repr

/-- A bank's arbiter at reset. -/
def BankArb.reset : BankArb := { tick := 0, prev := 0, wait := [] }

/-- One line of an access of a mailbox port (R405 to R408): the tick the access started, the tick of this line, its offset and length,
whether it was a write, and the forwarded request it serves (source, seq). -/
structure MbxAcc where
  start : Nat
  tick : Nat
  off : Nat
  len : Nat
  write : Bool
  req : Option (Nat × Nat)
  deriving DecidableEq, Repr

/-- Internal state of the memories (ch. 12). -/
structure MemSt where
  /-- GDDR6 granules (address / 64) stored poisoned (R394) -/
  gpoison : SMap Bool
  /-- local-store words (offset / 8) that are uncorrectable (R403) -/
  lpoison : SMap Bool
  /-- tick of the last retraining of each GDDR6 channel (R393) -/
  trainAt : List Nat
  /-- block reads that wait in the memory scheduler (R399, R400) -/
  waiting : List MemReq
  /-- decode lanes whose block read was delivered poisoned after its repeats were spent (R395) -/
  bad : List Nat
  /-- granules whose last read burst for a class outside the decode lanes was delivered poisoned, its repeats spent (R395): key 16 · granule + class -/
  spent : SMap Bool
  /-- the arbiters of the local store's banks; `BankArb.reset` where nothing is listed -/
  arbs : SMap BankArb
  /-- channels in a refresh that was issued ahead of every class (R401): a mask -/
  refresh : Nat
  /-- the channel of the last retraining slot and the tick the slot ends (R393) -/
  slot : Option (Nat × Nat)
  /-- next granule of the patrol scrub, and the tick its pass began (R398) -/
  scrubPos : Nat
  scrubAt : Nat
  /-- MBX_BUSY_N is driven low until this tick (R408) -/
  busyTo : Option Nat
  /-- lines of the last accesses of mailbox ports A and B: of every piece of a host's request, one tick after another -/
  mbxA : List MbxAcc
  mbxB : List MbxAcc
  /-- what the last local-store read delivered, with its offset, and whether a word was poisoned -/
  lsOff : Nat
  lsData : List Byte
  lsEp : Bool
  deriving DecidableEq, Repr

/-- A host access waiting for the NVM (R437); the last is the write of a sealed command with its data (R487). -/
inductive NvmAcc where
  | read (page : Nat) (cor unc : Nat)
  | write (page off len : Nat)
  | secured (page off : Nat) (data : List Byte)
  deriving DecidableEq, Repr

/-- What a page write is for. -/
inductive PgKind where
  | host
  /-- the device's own record, or a step of a counter increment -/
  | own
  /-- the last group of counter k's increment: NVM.CNTk follows when it completes (R437) -/
  | tally (k : Nat)
  /-- the entry of a scrub rewrite in the journal's pages, programmed before it and cleared after it (R426) -/
  | entry
  /-- a scrub rewrite (R426) -/
  | scrub
  /-- the rewrite of a journalled page (R427) -/
  | journal
  deriving DecidableEq, Repr

/-- A page write in progress or waiting: the groups still to program, in order, with the bytes it writes; a byte it does not cover keeps the
stored value (R424). -/
structure PgJob where
  page : Nat
  todo : List (Nat × List (Option Byte))
  kind : PgKind
  deriving DecidableEq, Repr

/-- A flash command with the fields it was started with (R414): op (0 read, 1 program, 2 erase 4 KiB, 3 erase 64 KiB), address, bytes,
buffer, and the result it ends with unless the flash fails. -/
structure XfJob where
  op : Nat
  addr : Nat
  len : Nat
  buf : Nat
  result : Nat
  deriving DecidableEq, Repr

/-- Internal state of the NVM controller (ch. 13). What survives a power cycle: `nvm` and `flash` of State, `ecc`, `journal`,
`pws`. -/
structure Nvm where
  /-- groups (8 · page + g) that read corrected (1) or uncorrectable (2); 0 where nothing is listed (R423) -/
  ecc : SMap Nat
  /-- page writes in progress (head) and waiting -/
  jobs : List PgJob
  waiting : List NvmAcc
  /-- the page a valid journal entry of power-on stands for until it is rewritten: page and content (R427) -/
  journal : Option (Nat × List Byte)
  /-- a host page read in progress: the tick it completes, the page, and the groups found corrected and uncorrectable (R422, R423) -/
  reading : Option (Nat × Nat × Nat × Nat)
  /-- passwords of kind 2 · part + kind (R435) -/
  pws : List Nat
  /-- tick of the last write of NVM.UNLOCK (R437) -/
  unlockAt : Option Nat
  /-- tick at which the page write in hand began, and the group in hand (R424) -/
  jobAt : Nat
  grpAt : Nat
  /-- next page of the scrub, the tick of its last page read and the tick its pass began (R426) -/
  scrubPage : Nat
  scrubAt : Nat
  passAt : Option Nat
  /-- the flash command in progress, and those held behind it or behind a checkpoint (R437) -/
  xf : Option XfJob
  xfHeld : List XfJob
  /-- bytes of the flash as its SFDP declares them, 0 until discovery (R412) -/
  flashSize : Nat
  deriving DecidableEq, Repr

/-- An event record on its way to the event controller (R447 to R451). -/
structure Rec where
  tick : Nat
  src : Nat
  cls : Nat
  alarm : Bool
  level : Bool
  rpt : Bool
  /-- the twelve payload bytes -/
  pay : List Byte
  /-- the picture number at the tick of the posting, which is the tick of its commit (Table 14.3) -/
  pic : Nat
  /-- on a manager: the 32 bytes of a record that a worker forwarded, as they commit (R471) -/
  fwd : Option (List Byte) := none
  deriving DecidableEq, Repr

/-- A 32-byte record held for the event ring by the priority stack, with its priority, class and seq (R459). -/
structure Held where
  bytes : List Byte
  prio : Nat
  cls : Nat
  seq : Nat
  deriving DecidableEq, Repr

/-- A Squall window of one source (R466). -/
structure SqWin where
  src : Nat
  start : Nat
  count : Nat
  coal : Nat
  first : List Byte
  firstTick : Nat
  squall : Bool
  deriving DecidableEq, Repr

/-- The NVM log's rate limit of one class (R470). -/
structure LogWin where
  start : Option Nat
  suppressed : Nat
  deriving DecidableEq, Repr

/-- Internal state of the event controller (ch. 14). -/
structure Evt where
  /-- records posted and not yet committed, in commit order -/
  posted : List Rec
  seq : Nat
  /-- records lost since the last gap record, by class 0, 1, 2, 3, 4, 6, and the seq of the last one, for the event ring and
  the trace ring (R454, R468) -/
  ringLoss : List Nat
  ringLostSeq : Nat
  trcLoss : List Nat
  trcLostSeq : Nat
  held : List Held
  /-- how many of the held records come before the event ring's losses in commit order: its gap record waits for them (R457) -/
  gapBehind : Nat
  /-- the priority stack, top first: (source, priority) (R459) -/
  stack : List (Nat × Nat)
  windows : List SqWin
  /-- rate limits of classes 0 to 6 -/
  logs : List LogWin
  /-- writes of EVT.MASK, oldest first: the tick and the mask before it (R461) -/
  maskLog : List (Nat × Nat)
  /-- MSI-X messages sent (a write to the message address of the table) -/
  msiSent : Nat
  /-- tick at which the last message became due (R472) -/
  msiAt : Option Nat
  /-- a worker's records waiting for the Orsal link, at most 64, and the records not forwarded since the last EVENT frame of
  kind 1, by class code (R372) -/
  fwdQ : List (List Byte)
  fwdDrop : List Nat
  deriving DecidableEq, Repr

/-- Internal state of the host interface (ch. 14, 16, 17). -/
structure HostIf where
  busMaster : Bool
  d3hot : Bool
  aspmL1 : Bool
  msixMask : Bool
  l1 : Bool
  /-- the L1 substate, while in L1 (Table 14.1) -/
  l1sub : Nat
  l2 : Bool
  /-- maximum payload size in bytes (Table 14.1) -/
  maxPayload : Nat
  /-- what MISO carried from byte 5 of the last READ transaction on: turnaround bytes and words (R443) -/
  miso : List Byte
  /-- data of the last host read, one entry a byte, and the EP flag of its completion -/
  readData : List Byte
  readEp : Bool
  /-- local-store offset of that data, when it came from the local store -/
  readOff : Option Nat
  /-- bytes the device has written to host memory (R442, R453) -/
  mem : SMap Byte
  /-- the tick of the last PCIe reset, and of the last reset of other blocks with the blocks outside its scope (Table 17.1, R545) -/
  pcieAt : Option Nat
  rstAt : Option Nat
  rstKeep : List Nat
  deriving DecidableEq, Repr

/-- Gauntlet (ch. 15). The fuses, the stored SEC.CFG and the erased keys survive a power cycle. -/
structure Sec where
  mfgDone : Bool
  jtagLock : Bool
  ownerLock : Bool
  retired : Bool
  /-- the 384 hash fuses as a number: bit i of byte k of the hash is bit 8 k + i -/
  hash : Nat
  /-- the 255 anti-rollback fuses -/
  arbRow : Nat
  /-- the identity and HDCP keys have been erased (R490) -/
  erased : Bool
  /-- SEC.CFG as its record ring holds it (R498) -/
  cfg : Nat
  /-- SHA-384 of the signed bytes of the loaded image (R484) -/
  imgHash : Option (List Byte)
  /-- the session's nonce Nd and its 72 derived bytes (R486) -/
  nonce : List Byte
  keys : List Byte
  /-- consecutive AUTH results on ses_cmd, the tick of the last accepted command, the tick to which ses_start is refused -/
  fails : Nat
  lastAt : Nat
  refuseTo : Nat
  /-- fuses being blown, by their numbers (hash fuse i is i, owner_lock 384, jtag_lock 385, retired 386, anti-rollback fuse i is 387 + i), with
  the ticks at which each is blown (R476, R497) -/
  blow : List (Nat × Nat)
  /-- the last JTAG instruction, and whether it executed (R477) -/
  jtag : Option (JtagInstr × Bool)
  deriving DecidableEq, Repr

/-- Where a transition between device states stands (R503 to R509): none; the panel is powered off and the shutdown checkpoint taken;
domains switch for the entry; domains switch on for an exit. -/
inductive PwrStage where
  | none
  | shutdown
  | enter
  | exit
  deriving DecidableEq, Repr

/-- Power management (ch. 16) beside its registers. -/
structure Pwr where
  stage : PwrStage
  /-- tick the transition began -/
  begun : Nat
  /-- domains being switched off and on -/
  offing : Nat
  oning : Nat
  /-- domains whose switch last opened, and the tick it did: an enable request of that tick is held for one tick (Table 16.4) -/
  opened : Nat
  openAt : Nat
  /-- tick of the last choice of a state (R506) -/
  choiceAt : Nat
  /-- tick of the entry to the present state, and of the last exit or start from which idle and hold times count -/
  entered : Nat
  idleFrom : Nat
  /-- an exit waits: for the shut-down in progress, or for P3_EXIT or P4_EXIT -/
  exitDue : Bool
  /-- the exit in progress is from P3 -/
  fromP3 : Bool
  /-- ticks spent in P2 before `ovcFrom`, from which the present stay counts (PWR.OVC_TIME) -/
  ovc : Nat
  ovcFrom : Nat
  /-- WAKE_N is driven low (R509) -/
  wakeLow : Bool
  /-- the last AUX request was answered AUX_DEFER (R511) -/
  auxDefer : Bool
  /-- level of PERST_N -/
  perst : Bool
  deriving DecidableEq, Repr

/-- What has happened in tick `at_`, so that a clear or a write of the same tick may act first (R10, R569): the increments of each counter,
and the bits of HWS fields the hardware has set (offset, bit). Of an earlier tick it says nothing any more. -/
structure TickLog where
  at_ : Nat
  incs : List (Fld × Nat)
  sets : List (Nat × Nat)
  deriving DecidableEq, Repr

/-- Start-up (R519): the step in progress (0: held in reset; 2 to 7: steps; 8: step 7 has ended), whether the image has passed every check
(R19), whether step 8 has ended, the tick at which step 5 ended, and the DisplayID of the DisplayPort sink (Table 13.4). -/
structure Boot where
  step : Nat
  imageOk : Bool
  step8 : Bool
  end5 : Option Nat
  did : List Byte
  deriving DecidableEq, Repr

/-- The state of the block. -/
structure State where
  /-- the tick counter (R24) -/
  tick : Nat
  /-- the register file: the value in effect of every register, by BAR0 offset -/
  reg : SMap Word
  /-- the shadows of the RWS fields, by BAR0 offset (R10) -/
  shadow : SMap Word
  /-- GDDR6 bytes, 0 where nothing is listed (R544) -/
  gddr : SMap Byte
  /-- local store bytes (16 MiB), 0 where nothing is listed (R544) -/
  lst : SMap Byte
  /-- attached xSPI flash, erased (0xFF) where nothing is listed -/
  flash : SMap Byte
  /-- on-chip NVM (256 KiB), 0 where nothing is listed (R428) -/
  nvm : SMap Byte
  tmb : Tmb
  exs : Exs
  blq : Blq
  ing : Ing
  cdc : Cdc
  scn : Scn
  ppx : Ppx
  age : Age
  drv : Drv
  psq : Psq
  orl : Orl
  mem : MemSt
  nv : Nvm
  evt : Evt
  host : HostIf
  sec : Sec
  pwr : Pwr
  boot : Boot
  /-- counter increments and hardware sets of the running tick (R10, R569) -/
  now : TickLog
  /-- the model's own count of free values taken (log entry 2); no rule of the manual reads it -/
  fresh : Nat
  /-- the commands that wait, first in first out (the model's interface) -/
  pending : List Instr
  deriving DecidableEq, Repr

/-- The time base at reset: FREE, no edge seen, no picture boundary placed (R34, R542). -/
def Tmb.reset : Tmb :=
  { pic := none, picNext := 0, bound := 0, next := none, align := none, win := 0, acc := none, recent := [], inRange := 0,
    good := 0, bad := 0, missRun := 0, wide := false, realign := false, holdAt := 0, held60 := false, freqLog := [], lockEnd := 0, mgr := none, presentTo := 0, corr := 0,
    corrAt := 0, useB := false }

/-- A camera channel at reset: OFF, no edge seen. -/
def Cam.reset : Cam :=
  { level := false, opens := [], pend := none, pendAcc := false, lastOpen := none, closed := false, run := 0, missRun := 0, win := 1, coast := 0, seen := false,
    guard := [] }

/-- The scheduler at reset: no bank. -/
def Exs.reset : Exs :=
  { cams := [], frozen := [], bank := none, next := none, carried := [], built := [], oldSlots := [], deferred := [], frozenSub := none,
    esc := 0 }

/-- The block queues at reset: empty, no current version (R542). -/
def Blq.reset : Blq :=
  { queues := [], cur := [], writes := [], nextId := 0, accNo := 0, sub := none, hostAcc := false, orsalAcc := false,
    orsalLast := 0, hostLast := 0, lastTok := List.replicate 8 none, fenceAt := none, fenceOld := 0 }

/-- An input at reset. -/
def Inp.reset : Inp := { pic := none, taken := 0, replaced := [], since := 0, seen := false, dpDown := none }

/-- Ingest at reset: no receiver locked. -/
def Ing.reset : Ing :=
  { inputs := [], stamps := [], stamp := 0, prot := [] }

/-- The codec at reset: every lane free. -/
def Cdc.reset : Cdc :=
  { decWait := [], decLanes := List.replicate 16 none, cmpWait := [], cmpLanes := List.replicate 8 none, job := none,
    abortTo := none, prodAt := none, prodOld := 0 }

/-- Scan-out at reset: no pass, no commit set. -/
def Scn.reset : Scn := { runs := [], nextRun := 0, set := none, prev := none, nsl := none, fails := [], lastView := none, histProt := List.replicate 5 false }

/-- Panel processing at reset: tables 0 (log entry 21), no sensor valid. -/
def Ppx.reset : Ppx :=
  { tbl := [], sns := List.replicate 16 ⟨false, 0, false⟩, fresh := true, startBand := false, cycleAt := 0, snsTx := [], noSince := none,
    fellBack := false,
    pol := List.replicate 8 ⟨0, false, false, false, none⟩, zones := [], zoned := List.replicate 5 false, latched := [], blFree := 0,
    blWord := 0, blLat := 0, blVals := [], blDone := [], cap := none, capJobs := [], tags := List.replicate 16 0 }

/-- The ageing engine at reset: nothing counted, tables 0 (log entry 21). -/
def Age.reset : Age :=
  { passNo := [0, 0, 0, 0, 0], lfsr := 0, tbl := [], rows := [], fails := [], past := [], sweepAt := 0, tokenAt := 0, rbBlock := 0, rbUsed := 0,
    rbHeld := none, subs := 0, rbFirst := 0, rebuilt := false, ckpt := none, held := none, retryAt := none, shutBy := none, newest := none,
    sinceAcc := 0, emitAcc := 0, emitAt := none, onAcc := 0, onAt := none }

/-- A column-driver group with its link off. -/
def Grp.off : Grp := ⟨0, 0, 0, false, [0, 0, 0, 0], none⟩

/-- The drive block at reset: no group up, every output low. -/
def Drv.reset : Drv :=
  { seq := 0, slotAt := none, slotLen := 0, slotFrom := 0, grids := [], grps := [], queue := [], sent := [], lag := [], cfgHeld := false, reqs := [],
    nextReq := 0, backFree := 0, swing := 600, pollAt := 0, stopping := false, held := false, gt := 0, gtAt := List.replicate 32 0, em := 0,
    emAt := List.replicate 16 0, pulses := [] }

/-- The panel sequencer at reset: OFF (R322). -/
def Psq.reset : Psq :=
  { req := false, k := 0, phase := .none, begun := 0, watched := 0, enAt := 0, offReq := false, ckptReq := false, ckptWait := false,
    safe := none, blackOn := 0, blackOff := 0, bOff := none, fromBlack := false, onAt := none, bOn := none, stopAt := none, onCnt := 0, pmb := [], crkOut := 0,
    crk := none, pre := 0, preRun := [], crkRun := [], monRun := [],
    missRun := [], monAt := 0, alertTo := 0 }

/-- An Orsal port at reset: off. -/
def OrlPort.reset : OrlPort :=
  { queue := [], sending := none, line := [], blk := 0, lineAt := 0, sentTyp := 0, delays := [], t1 := none, lastBcn := none, runBcn := none, helloAt := 0, dlyAt := 0,
    downAt := 0, stopping := false, held := false }

/-- The Orsal block at reset: both ports off, no frame sent or seen. -/
def Orl.reset : Orl :=
  { ports := [], seq := 0, seen := [], ctl := none, commits := [], workers := [], dists := [], vid := 0,
    rulePrev := List.replicate 16 none, rx := [], ended := [], bcnAt := none, route := none, routeEnd := none }

/-- The memories at reset. -/
def MemSt.reset : MemSt :=
  { gpoison := [], lpoison := [], trainAt := List.replicate 8 0, waiting := [], bad := [], spent := [], arbs := [], refresh := 0, slot := none, scrubPos := 0,
    scrubAt := 0, busyTo := none, mbxA := [], mbxB := [],
    lsOff := 0, lsData := [], lsEp := false }

/-- The NVM controller at reset: nothing in progress, every password unset as shipped (R428, R435). -/
def Nvm.reset : Nvm :=
  { ecc := [], jobs := [], waiting := [], journal := none, reading := none, pws := [0, 0, 0, 0], unlockAt := none, jobAt := 0, grpAt := 0, scrubPage := 0, scrubAt := 0,
    passAt := none, xf := none,
    xfHeld := [], flashSize := 0 }

/-- The event controller at reset: nothing posted, seq 0 next, an empty stack (R450). -/
def Evt.reset : Evt :=
  { posted := [], seq := 0, ringLoss := [0, 0, 0, 0, 0, 0], ringLostSeq := 0, trcLoss := [0, 0, 0, 0, 0, 0], trcLostSeq := 0,
    held := [], gapBehind := 0, stack := [], windows := [], logs := List.replicate 7 ⟨none, 0⟩, maskLog := [], msiSent := 0, msiAt := none,
    fwdQ := [], fwdDrop := [0, 0, 0, 0, 0, 0, 0] }

/-- The host interface at reset: Bus Master Enable 0, D0, link not in L1 or L2 (R518). -/
def HostIf.reset : HostIf :=
  { busMaster := false, d3hot := false, aspmL1 := false, msixMask := false, l1 := false, l1sub := 0, l2 := false, maxPayload := 128, miso := [], readData := [],
    readEp := false, readOff := none, mem := [], pcieAt := none, rstAt := none, rstKeep := [] }

/-- Gauntlet at reset: the fuses of a part as shipped (R1, R477, Table 15.1; DESIGN CHOICE that nothing more has been programmed, log entry
41): mfg_done, and on a -E part the owner slot, programmed with the hash of its order; no session. -/
def Sec.reset : Sec :=
  { mfgDone := true, jtagLock := false, ownerLock := !Config.variantS, retired := false,
    hash := if Config.variantS then 0 else Config.ownerHash.toNat, arbRow := 0, erased := false, cfg := 0x13C,
    imgHash := none, nonce := [], keys := [], fails := 0, lastAt := 0, refuseTo := 0, blow := [], jtag := none }

/-- Power management at reset: P0, every domain on (Table 16.5). -/
def Pwr.reset : Pwr :=
  { stage := .none, begun := 0, offing := 0, oning := 0, opened := 0, openAt := 0, choiceAt := 0, entered := 0, idleFrom := 0, exitDue := false, fromP3 := false, ovc := 0, ovcFrom := 0,
    wakeLow := false, auxDefer := false, perst := false }

/-- Start-up at power-on reset: POR_N has not risen. -/
def Boot.reset : Boot := { step := 0, imageOk := false, step8 := false, end5 := none, did := [] }

/-- The state right after power-on reset: every register at the reset value of its table, nothing stored, no command waiting. -/
def State.reset : State :=
  { tick := 0
    reg := regResets
    shadow := shadowResets
    gddr := [], lst := [], flash := [], nvm := []
    tmb := Tmb.reset
    exs := Exs.reset
    blq := Blq.reset
    ing := Ing.reset
    cdc := Cdc.reset
    scn := Scn.reset
    ppx := Ppx.reset
    age := Age.reset
    drv := Drv.reset
    psq := Psq.reset
    orl := Orl.reset
    mem := MemSt.reset
    nv := Nvm.reset
    evt := Evt.reset
    host := HostIf.reset
    sec := Sec.reset
    pwr := Pwr.reset
    boot := Boot.reset
    now := ⟨0, [], []⟩
    fresh := 0
    pending := [] }

end Sys2Proof.Machine
end

