-- ==== Sys2Proof/Machine/Ops.lean ====
section
/-!
DEFINITION. The named operations over the register file, the memories, the free values and the event controller's intake that
every meaning uses.
-/

namespace Sys2Proof.Machine

/-! Register fields (R9, R10) -/

/-- The word in effect at an offset. -/
def rdW (s : State) (off : Nat) : Word := sget 0#32 s.reg off

/-- Replace the word in effect at an offset. -/
def wrW (s : State) (off : Nat) (v : Word) : State := { s with reg := sset 0#32 s.reg off v }

/-- The shadow word at an offset. -/
def rdShW (s : State) (off : Nat) : Word := sget 0#32 s.shadow off

/-- Replace the shadow word at an offset. -/
def wrShW (s : State) (off : Nat) (v : Word) : State := { s with shadow := sset 0#32 s.shadow off v }

/-- The field's value inside a word. -/
def Fld.ofWord (f : Fld) (v : Word) : Nat := v.toNat / 2 ^ f.lo % 2 ^ f.w

/-- The word with the field replaced by the low bits of `x`. -/
def Fld.into (f : Fld) (v : Word) (x : Nat) : Word :=
  BitVec.ofNat 32 (v.toNat - f.ofWord v * 2 ^ f.lo + x % 2 ^ f.w * 2 ^ f.lo)

/-- The value in effect of a field. -/
def rd (s : State) (f : Fld) : Nat := f.ofWord (rdW s f.off)

/-- Set the value in effect of a field. -/
def wr (s : State) (f : Fld) (x : Nat) : State := wrW s f.off (f.into (rdW s f.off) x)

/-- The field's value read as two's complement of its width. -/
def rdS (s : State) (f : Fld) : Int :=
  let x := rd s f
  if 2 ^ (f.w - 1) ≤ x then (x : Int) - 2 ^ f.w else x

/-- Set a field to a signed value, two's complement of its width. -/
def wrS (s : State) (f : Fld) (x : Int) : State := wr s f (x % (2 ^ f.w : Int)).toNat

/-- A one-bit field is 1. -/
def on (s : State) (f : Fld) : Bool := rd s f != 0

/-- Set a one-bit field from a condition. -/
def wrB (s : State) (f : Fld) (b : Bool) : State := wr s f (if b then 1 else 0)

/-! What the running tick has seen (R10, R569) -/

/-- The log of the running tick. -/
def tickLog (s : State) : TickLog := if s.now.at_ = s.tick then s.now else ⟨s.tick, [], []⟩

/-- The increments a counter has had in the running tick. -/
def incsNow (s : State) (f : Fld) : Nat :=
  match (tickLog s).incs.find? (fun e => e.1 = f) with
  | some e => e.2
  | none => 0

/-- Note increments of a counter in the log. -/
def logIncs (s : State) (f : Fld) (n : Nat) : State :=
  { s with now := { tickLog s with incs := (f, incsNow s f + n) :: (tickLog s).incs.filter (fun e => e.1 != f) } }

/-- Note bits of an HWS field that the hardware sets, in the log. -/
def logSet (s : State) (off bit : Nat) : State := { s with now := { tickLog s with sets := (off, bit) :: (tickLog s).sets } }

/-- The bits of a register that the hardware has set in the running tick: they win over a write of that tick (R10). -/
def setsNow (s : State) (off : Nat) : Word :=
  (tickLog s).sets.foldl (fun a e => if e.1 = off then a ||| BitVec.ofNat 32 (2 ^ e.2) else a) 0#32

/-- Add to a counter that saturates at its maximum. -/
def bumpN (s : State) (f : Fld) (n : Nat) : State := logIncs (wr s f (min (rd s f + n) (2 ^ f.w - 1))) f n

/-- Count one event in a saturating counter (R58, R97 and the like). -/
def bump (s : State) (f : Fld) : State := bumpN s f 1

/-- The number of enabled bits: bit `i` of a field. -/
def bitOf (s : State) (f : Fld) (i : Nat) : Bool := rd s f / 2 ^ i % 2 == 1

/-- Set one bit of a field. -/
def setBitOf (s : State) (f : Fld) (i : Nat) (b : Bool) : State :=
  let x := rd s f
  let y := x - (x / 2 ^ i % 2) * 2 ^ i
  wr s f (if b then y + 2 ^ i else y)

/-- A 64-bit value in a LO and HI pair of registers. -/
def rd64 (s : State) (lo hi : Fld) : Nat := rd s lo + 2 ^ 32 * rd s hi

/-- The hardware sets bit `i` of an HWS field (R10). -/
def hwSet (s : State) (f : Fld) (i : Nat) : State := logSet (setBitOf s f i true) f.off (f.lo + i)

/-- A clear of one counter: it acts first, and the increments of its tick count (R569). -/
def clearCnt (s : State) (f : Fld) : State := wr s f (min (incsNow s f) (2 ^ f.w - 1))

/-- Clear whole registers (the clear commands of the chapters): the clear acts first, and the increments of its tick count (R569). -/
def clearRegs (s : State) (offs : List Nat) : State :=
  ((tickLog s).incs.filter (fun e => offs.contains e.1.off)).foldl (fun t e => clearCnt t e.1) (offs.foldl (fun s o => wrW s o 0#32) s)

/-! Free values (log entry 2) -/

/-- Take a free value for the open point `k`; the count advances, so that two takes are unrelated. -/
def free (s : State) (k : Nat) : Nat × State := (Config.freeNat k s.fresh, { s with fresh := s.fresh + 1 })

/-- A free value below `n` (0 when `n` is 0). -/
def freeBelow (s : State) (k n : Nat) : Nat × State := ((free s k).1 % n, (free s k).2)

/-- A free integer of magnitude at most `m`. -/
def freeInt (s : State) (k m : Nat) : Int × State := (((free s k).1 % (2 * m + 1) : Nat) - (m : Int), (free s k).2)

/-! Lists in order -/

/-- Insert into a list in order, before its equals. -/
def sortInsert {α : Type} (le : α → α → Bool) (x : α) : List α → List α
  | [] => [x]
  | y :: ys => if le x y then x :: y :: ys else y :: sortInsert le x ys

/-- A list in order, equal elements as they stood. -/
def sortBy {α : Type} (l : List α) (le : α → α → Bool) : List α := l.foldr (sortInsert le) []

/-! Bytes (R8) -/

/-- The `k` low bytes of a number, least significant first. -/
def leBytes (n : Nat) : Nat → List Byte
  | 0 => []
  | k + 1 => BitVec.ofNat 8 n :: leBytes (n / 256) k

/-- The number a little-endian byte list spells. -/
def ofLe : List Byte → Nat
  | [] => 0
  | b :: r => b.toNat + 256 * ofLe r

/-- The `k` low bytes of a number, most significant first. -/
def beBytes (n k : Nat) : List Byte := (leBytes n k).reverse

/-- The number a big-endian byte list spells. -/
def ofBe (bs : List Byte) : Nat := ofLe bs.reverse

/-- Unsigned field [hi:lo] of a number. -/
def bits (n hi lo : Nat) : Nat := n / 2 ^ lo % 2 ^ (hi + 1 - lo)

/-- Two's complement of a `w`-bit number. -/
def signed (w n : Nat) : Int := if 2 ^ (w - 1) ≤ n then (n : Int) - 2 ^ w else n

/-- Bytes `i` to `i + n - 1` of a list, 0 beyond its end. -/
def slice (bs : List Byte) (i n : Nat) : List Byte := (bs.drop i).take n

/-- The little-endian number in bytes `i` to `i + n - 1`. -/
def leAt (bs : List Byte) (i n : Nat) : Nat := ofLe (slice bs i n)

/-- Replace element `i` of a list. -/
def setAt {α : Type} (l : List α) (i : Nat) (x : α) : List α := l.set i x

/-- Change element `i` of a list. -/
def modAt {α : Type} (l : List α) (i : Nat) (f : α → α) : List α := l.modify i f

/-! Memories, little-endian bytes (R8) -/

def lstRd (s : State) (a n : Nat) : List Byte := sgetList 0#8 s.lst a n
/-- A word written whole is no longer uncorrectable (R403). -/
def lstWr (s : State) (a : Nat) (bs : List Byte) : State :=
  { s with lst := ssetList 0#8 s.lst a bs
           mem.lpoison := s.mem.lpoison.filter (fun g => !(decide (a ≤ 8 * g.1) && decide (8 * g.1 + 8 ≤ a + bs.length))) }

/-- Byte x of the local store holds a `protected` flag that only ingest changes (R103, Table 4.6): byte 14 of a descriptor of the surface table, or
of one whose flag ingest has set, wherever BLQ.SURF_BASE points by now. -/
def protByte (s : State) (x : Nat) : Bool :=
  let t := rd s F.BLQ_SURF_BASE_offset
  (decide (t ≤ x) && decide (x < t + 32768) && (x - t) % 32 = 14) || s.ing.prot.contains x

/-- Bytes for the local store at `a`, with the `protected` flag of every surface descriptor among them as it stands (R103). -/
def keepProt (s : State) (a : Nat) (bs : List Byte) : List Byte :=
  let t := rd s F.BLQ_SURF_BASE_offset
  if (a + bs.length ≤ t || t + 32768 ≤ a) && s.ing.prot.all (fun x => decide (x < a) || decide (a + bs.length ≤ x)) then bs else
  (bs.zip (List.range bs.length)).map (fun e =>
    if protByte s (a + e.2) then (e.1 &&& 0xFD#8) ||| (sget 0#8 s.lst (a + e.2) &&& 2#8) else e.1)

/-- Offset of the mailbox in the local store (R406). -/
def mbxBase : Nat := 0xF80000

/-- A write of the local store by anyone but ingest, the mailbox's two ports and Gauntlet's session buffer (sesWr): it reaches no byte of the mailbox (R406). -/
def lstKeep (s : State) (a : Nat) (bs : List Byte) : State := lstWr s a ((keepProt s a bs).take (mbxBase - a))

/-- Is any 8-byte word of the local store in [a, a + n) uncorrectable? -/
def wordsPoisoned (s : State) (a n : Nat) : Bool :=
  s.mem.lpoison.any (fun g => decide (a / 8 ≤ g.1) && decide (8 * g.1 < a + n))

def gddrRd (s : State) (a n : Nat) : List Byte := sgetList 0#8 s.gddr a n
def flashRd (s : State) (a n : Nat) : List Byte := sgetList 0xFF#8 s.flash a n
def flashWr (s : State) (a : Nat) (bs : List Byte) : State := { s with flash := ssetList 0xFF#8 s.flash a bs }
def nvmRd (s : State) (a n : Nat) : List Byte := sgetList 0#8 s.nvm a n
def nvmWr (s : State) (a : Nat) (bs : List Byte) : State := { s with nvm := ssetList 0#8 s.nvm a bs }

/-- The device writes host memory only while Bus Master Enable is 1 (R442). -/
def hostWr (s : State) (a : Nat) (bs : List Byte) : State :=
  if s.host.busMaster then { s with host.mem := ssetList 0#8 s.host.mem a bs } else s

def lst32 (s : State) (a : Nat) : Nat := ofLe (lstRd s a 4)
def lst64 (s : State) (a : Nat) : Nat := ofLe (lstRd s a 8)

/-! Time -/

/-- The command's rule places it at tick `t`: the tick counter has reached `t` when the command acts (log entry 1). -/
def reach (s : State) (t : Nat) : State := { s with tick := max s.tick t }

/-- The synchroniser latency of an input edge (R42). -/
def syncLat : Nat := 6

/-! Records (R447 to R451) -/

/-- Record classes (Table 14.4). -/
def clsInfo : Nat := 0
def clsWarning : Nat := 1
def clsError : Nat := 2
def clsFatal : Nat := 3
def clsFence : Nat := 4
def clsGap : Nat := 5
def clsSummary : Nat := 6

/-- Block codes: the block's BAR0 offset shifted right by 16 (R449). -/
def blkGEN : Nat := 0x00
def blkPWR : Nat := 0x01
def blkTMB : Nat := 0x02
def blkEXS : Nat := 0x03
def blkING : Nat := 0x04
def blkBLQ : Nat := 0x05
def blkCDC : Nat := 0x06
def blkSCN : Nat := 0x07
def blkPPX : Nat := 0x08
def blkAGE : Nat := 0x09
def blkDRV : Nat := 0x0A
def blkPSQ : Nat := 0x0B
def blkORL : Nat := 0x0C
def blkMEM : Nat := 0x0D
def blkNVM : Nat := 0x0E
def blkEVT : Nat := 0x0F
def blkSEC : Nat := 0x10

/-- Source number of a block and an instance (R449). -/
def srcOf (blk inst : Nat) : Nat := blk * 64 + inst % 64

/-- Insert a record behind every record of an earlier tick and, in its own tick, behind those of a source not above its own;
a fence goes behind every record of its tick (R450, R456). -/
def insRec (r : Rec) : List Rec → List Rec
  | [] => [r]
  | x :: l =>
    if x.tick < r.tick || (x.tick == r.tick && x.cls != clsFence && (r.cls == clsFence || x.src ≤ r.src))
      || (x.tick == r.tick && x.cls == clsFence && r.cls == clsFence)
    then x :: insRec r l else r :: x :: l

/-- Hand a record to the event controller; it commits at the tick of its posting (R450). -/
def postRec (s : State) (r : Rec) : State := { s with evt.posted := insRec r s.evt.posted }

/-- Pack the quantities of a record in whole bytes from byte 20, leaving out the first that would pass byte 27 and all after
it (R451). -/
def packQty (room : Nat) : List (Nat × Nat) → List Byte
  | [] => List.replicate room 0#8
  | (v, n) :: qs => if room < n then List.replicate room 0#8 else leBytes v n ++ packQty (room - n) qs

/-- The payload of an ordinary record: register offset, lowest bit of the field, quantities (R451). -/
def ordPay (f : Fld) (qs : List (Nat × Nat)) : List Byte := leBytes f.off 3 ++ leBytes f.lo 1 ++ packQty 8 qs

/-- Post an ordinary record. Quantities are (value, bytes) pairs. -/
def post (s : State) (cls blk inst : Nat) (f : Fld) (qs : List (Nat × Nat)) : State :=
  postRec s { tick := s.tick, src := srcOf blk inst, cls := cls, alarm := false, level := false, rpt := false, pay := ordPay f qs,
              pic := s.tmb.pic.getD 0 }

def info (s : State) (blk inst : Nat) (f : Fld) (qs : List (Nat × Nat) := []) : State := post s clsInfo blk inst f qs
def warning (s : State) (blk inst : Nat) (f : Fld) (qs : List (Nat × Nat) := []) : State := post s clsWarning blk inst f qs
def errorRec (s : State) (blk inst : Nat) (f : Fld) (qs : List (Nat × Nat) := []) : State := post s clsError blk inst f qs

/-! Alarms (R464, Table 14.7) -/

def almLOCKSTEP : Nat := 0
def almSTACK : Nat := 1
def almSAFE_OFF : Nat := 2
def almG6_UNC : Nat := 3
def almLS_UNC : Nat := 4
def almHOLD60 : Nat := 5
def almBOOT : Nat := 6
def almTHERM : Nat := 7
def almPIC_MIS : Nat := 8
def almRING_BRK : Nat := 9
def almCKPT : Nat := 10

/-- The block whose rule states the condition of an alarm posts its record (DEDUCED, log entry 12). -/
def alarmBlk : Nat → Nat
  | 0 => blkTMB | 1 => blkEVT | 2 => blkPSQ | 3 => blkMEM | 4 => blkMEM | 5 => blkTMB | 6 => blkNVM | 7 => blkPPX
  | 8 => blkORL | 9 => blkORL | _ => blkAGE

/-- The class of an alarm's record (Table 14.7). -/
def alarmCls (b : Nat) : Nat := if b ≤ 1 then clsFatal else clsError

/-- The payload of an alarm record: the offset of EVT.ALARM and the alarm's number (R451). -/
def alarmPay (b : Nat) : List Byte := leBytes F.EVT_ALARM.off 3 ++ leBytes b 1 ++ List.replicate 8 0#8

/-- A record of an alarm, with `rpt` when a level was sampled again (R463). -/
def alarmRec (s : State) (b : Nat) (rpt : Bool) : Rec :=
  { tick := s.tick, src := srcOf (alarmBlk b) 0, cls := alarmCls b, alarm := true, level := true, rpt := rpt, pay := alarmPay b,
    pic := s.tmb.pic.getD 0 }

/-- An alarm condition sets its bit of EVT.ALARM; setting it posts the alarm's record (R464). -/
def alarmSet (s : State) (b : Nat) : State :=
  if bitOf s F.EVT_ALARM_alarm b then logSet s F.EVT_ALARM_alarm.off b
  else postRec (hwSet s F.EVT_ALARM_alarm b) (alarmRec s b false)

/-- A host's write of a 1 sets the bit as well (R10); it is no hardware set. -/
def alarmWrite (s : State) (b : Nat) : State :=
  if bitOf s F.EVT_ALARM_alarm b then s else postRec (setBitOf s F.EVT_ALARM_alarm b true) (alarmRec s b false)

/-- ALARM_N is low while an enabled alarm is set, high-impedance otherwise (R465). -/
def alarmNLow (s : State) : Bool := (rd s F.EVT_ALARM_alarm &&& rd s F.EVT_ALARM_EN_en) != 0

/-! GDDR6 (R391, R394) -/

/-- The usable capacity for the density and channels of MEM.CFG (Table 12.2). -/
def memCap (s : State) : Nat :=
  if on s F.MEM_CFG_density then (if on s F.MEM_CFG_map_en then 0x1B2000000 else 0x1F0000000)
  else (if on s F.MEM_CFG_map_en then 0xD9000000 else 0xF8000000)

/-- The channel an address falls in: 256-byte units over the channels in use, lowest first (R391; the order is DEDUCED, log entry 37). -/
def memChan (s : State) (a : Nat) : Nat :=
  let m := rd s F.MEM_CFG_map_ch
  if on s F.MEM_CFG_map_en then (let k := a / 256 % 7; if k < m then k else k + 1) else a / 256 % 8

/-- Record an error of a GDDR6 request in MEM.ERR_INFO and MEM.ERR_ADDR: kind, scheduler class, address (Table 12.8). -/
def memErr (s : State) (kind cls a : Nat) : State :=
  let s := wr (wr (wr s F.MEM_ERR_INFO_kind kind) F.MEM_ERR_INFO_class cls) F.MEM_ERR_INFO_channel (memChan s a)
  wr (wr s F.MEM_ERR_ADDR_LO_addr a) F.MEM_ERR_ADDR_HI_addr (a / 2 ^ 32)

/-- A request of `n` bytes at `a` that reaches beyond the usable capacity is an address error (R391). -/
def memReach (s : State) (cls a n : Nat) : State :=
  if a + n ≤ memCap s then s
  else errorRec (memErr s 4 cls (max a (memCap s))) blkMEM 0 F.MEM_ERR_INFO_kind []

/-- Write bytes at an address: those at or beyond the usable capacity are discarded with an address error (R391); a granule
written whole is no longer poisoned. -/
def gddrWr (s : State) (cls a : Nat) (bs : List Byte) : State :=
  let n := min bs.length (memCap s - a)
  let s := memReach s cls a bs.length
  { s with gddr := ssetList 0#8 s.gddr a (bs.take n)
           mem.gpoison := s.mem.gpoison.filter (fun g => !(decide (a ≤ 64 * g.1) && decide (64 * g.1 + 64 ≤ a + n))) }

/-- Write a coded block: its last granule is written whole (log entry 37). -/
def gddrPut (s : State) (cls a : Nat) (bs : List Byte) : State :=
  let s := gddrWr s cls a bs
  { s with mem.gpoison := s.mem.gpoison.filter (fun g => !(decide (a ≤ 64 * g.1) && decide (64 * g.1 < a + bs.length))) }

/-- A local-store or strip-buffer word is found uncorrectable (R403). -/
def wordUnc (s : State) (strip : Bool) (off : Nat) : State :=
  let s := bump s F.MEM_LS_ECC_uncorrected
  let s := wr (wrB s F.MEM_LS_ERR_ADDR_strip strip) F.MEM_LS_ERR_ADDR_offset off
  alarmSet (errorRec s blkMEM 0 F.MEM_LS_ECC_uncorrected) almLS_UNC

/-- A read of [a, a + n) finds every uncorrectable word in it (R403). -/
def wordsUnc (s : State) (a n : Nat) : State :=
  (s.mem.lpoison.filter (fun g => decide (a / 8 ≤ g.1) && decide (8 * g.1 < a + n))).foldl (fun s g => wordUnc s false (8 * g.1)) s

/-! Panel outputs (R323) -/

/-- The panel sequencer's state code (Table 10.1). -/
def psqState (s : State) : Nat := rd s F.PSQ_STATUS_state

/-- Panel outputs run in states PRECHECK to RAILS_DOWN (R323). -/
def outputsRun (s : State) : Bool := 1 ≤ psqState s && psqState s ≤ 7

/-! Integer helpers -/

/-- x rounded half up after a shift right: floor((x + 2^(n-1)) / 2^n), as the line steps of R50 are. -/
def rndShr (x n : Nat) : Nat := (x + 2 ^ (n - 1)) / 2 ^ n

/-- Clamp an integer to [lo, hi]. -/
def clampI (x lo hi : Int) : Int := max lo (min x hi)

/-- All indices below `n` satisfying a test on a mask: the set bits. -/
def bitList (mask n : Nat) : List Nat := (List.range n).filter (fun i => mask / 2 ^ i % 2 == 1)

end Sys2Proof.Machine
end

