-- ==== Sys2Proof/Machine/Gcm.lean ====
section
/-!
DEFINITION. AES-256-GCM with a 128-bit tag (R487). The manual names the algorithm; its definition is that of FIPS 197 and
SP 800-38D (PRESUMED, log entry 40).
-/

namespace Sys2Proof.Machine

/-- Doubling in GF(2^8) of AES. -/
def aesX2 (b : Byte) : Byte := if b.msb then b <<< 1 ^^^ 0x1B#8 else b <<< 1

/-- The S-box, entries 0 to 31, the first in the highest byte. -/
def aesS_0 : Nat := 0x637C777BF26B6FC53001672BFED7AB76CA82C97DFA5947F0ADD4A2AF9CA472C0

/-- The S-box, entries 32 to 63, the first in the highest byte. -/
def aesS_1 : Nat := 0xB7FD9326363FF7CC34A5E5F171D8311504C723C31896059A071280E2EB27B275

/-- The S-box, entries 64 to 95, the first in the highest byte. -/
def aesS_2 : Nat := 0x09832C1A1B6E5AA0523BD6B329E32F8453D100ED20FCB15B6ACBBE394A4C58CF

/-- The S-box, entries 96 to 127, the first in the highest byte. -/
def aesS_3 : Nat := 0xD0EFAAFB434D338545F9027F503C9FA851A3408F929D38F5BCB6DA2110FFF3D2

/-- The S-box, entries 128 to 159, the first in the highest byte. -/
def aesS_4 : Nat := 0xCD0C13EC5F974417C4A77E3D645D197360814FDC222A908846EEB814DE5E0BDB

/-- The S-box, entries 160 to 191, the first in the highest byte. -/
def aesS_5 : Nat := 0xE0323A0A4906245CC2D3AC629195E479E7C8376D8DD54EA96C56F4EA657AAE08

/-- The S-box, entries 192 to 223, the first in the highest byte. -/
def aesS_6 : Nat := 0xBA78252E1CA6B4C6E8DD741F4BBD8B8A703EB5664803F60E613557B986C11D9E

/-- The S-box, entries 224 to 255, the first in the highest byte. -/
def aesS_7 : Nat := 0xE1F8981169D98E949B1E87E9CE5528DF8CA1890DBFE6426841992D0FB054BB16

/-- The S-box: entry i is byte 255 - i of this number. -/
def aesS : Nat :=
  2 ^ 1792 * aesS_0 + 2 ^ 1536 * aesS_1 + 2 ^ 1280 * aesS_2 + 2 ^ 1024 * aesS_3 + 2 ^ 768 * aesS_4 + 2 ^ 512 * aesS_5 + 2 ^ 256 * aesS_6 + aesS_7

/-- The S-box applied to a byte. -/
def aesSub (b : Byte) : Byte := BitVec.ofNat 8 (aesS / 256 ^ (255 - b.toNat))

/-- The exclusive or of two byte lists. -/
def xorBytes (a b : List Byte) : List Byte := (a.zip b).map (fun p => p.1 ^^^ p.2)

/-- Extend the key schedule by one 4-byte word: `ws` newest first, `i` the word's index, `rc` the round constant. -/
def aesKeyStep (a : List (List Byte) × Nat × Byte) : List (List Byte) × Nat × Byte :=
  let t := a.1.headD []
  let old := a.1.getD 7 []
  let i := a.2.1
  let t' := if i % 8 = 0 then
      (match t.map aesSub with | [x, y, z, w] => [y ^^^ a.2.2, z, w, x] | l => l)
    else if i % 8 = 4 then t.map aesSub else t
  (xorBytes old t' :: a.1, i + 1, if i % 8 = 0 then aesX2 a.2.2 else a.2.2)

/-- The fifteen round keys of a 32-byte key. -/
def aesKeys (key : List Byte) : List (List Byte) :=
  let w0 := ((List.range 8).map (fun i => slice key (4 * i) 4)).reverse
  let ws := (Nat.repeat aesKeyStep 52 (w0, 8, 1#8)).1.reverse
  (List.range 15).map (fun r => ((ws.drop (4 * r)).take 4).flatten)

/-- ShiftRows on the sixteen bytes, column by column. -/
def aesShift (b : List Byte) : List Byte := (List.range 16).map (fun i => b.getD ((i + 4 * (i % 4)) % 16) 0#8)

/-- MixColumns on one column. -/
def aesMixCol (c : List Byte) : List Byte :=
  match c with
  | [a, b, d, e] =>
    let t := a ^^^ b ^^^ d ^^^ e
    [a ^^^ t ^^^ aesX2 (a ^^^ b), b ^^^ t ^^^ aesX2 (b ^^^ d), d ^^^ t ^^^ aesX2 (d ^^^ e), e ^^^ t ^^^ aesX2 (e ^^^ a)]
  | l => l

/-- Encrypt a block under a key schedule. -/
def aesBlock (ks : List (List Byte)) (b : List Byte) : List Byte :=
  let b := xorBytes b (ks.headD [])
  let b := ((ks.drop 1).take 13).foldl (fun b k =>
    let t := aesShift (b.map aesSub)
    xorBytes ((List.range 4).flatMap (fun c => aesMixCol (slice t (4 * c) 4))) k) b
  xorBytes (aesShift (b.map aesSub)) (ks.getD 14 [])

/-- Multiplication in GF(2^128) of GCM: bit 127 of the number is the first bit. -/
def gcmMul (x y : BitVec 128) : BitVec 128 :=
  ((List.range 128).foldl (fun (a : BitVec 128 × BitVec 128) i =>
    let z := if x.getMsbD i then a.1 ^^^ a.2 else a.1
    (z, if a.2.getLsbD 0 then a.2 >>> 1 ^^^ 0xE1000000000000000000000000000000#128 else a.2 >>> 1)) (0#128, y)).1

/-- Pad a byte list to whole blocks. -/
def gcmPad (b : List Byte) : List Byte := b ++ List.replicate ((16 - b.length % 16) % 16) 0#8

/-- GHASH of whole blocks. -/
def ghash (h : BitVec 128) (bs : List Byte) : BitVec 128 :=
  (List.range (bs.length / 16)).foldl (fun y i => gcmMul (y ^^^ BitVec.ofNat 128 (ofBe (slice bs (16 * i) 16))) h) 0#128

/-- The key stream applied to data, for a 12-byte IV: counter blocks from 2. -/
def gcmCtr (ks : List (List Byte)) (iv d : List Byte) : List Byte :=
  xorBytes d ((List.range ((d.length + 15) / 16)).flatMap (fun i => aesBlock ks (iv ++ beBytes (i + 2) 4)))

/-- The tag of a ciphertext and its additional data. -/
def gcmTag (ks : List (List Byte)) (iv aad c : List Byte) : List Byte :=
  let h := BitVec.ofNat 128 (ofBe (aesBlock ks (List.replicate 16 0#8)))
  let s := ghash h (gcmPad aad ++ gcmPad c ++ beBytes (8 * aad.length) 8 ++ beBytes (8 * c.length) 8)
  xorBytes (beBytes s.toNat 16) (aesBlock ks (iv ++ beBytes 1 4))

/-- Seal: ciphertext and tag. -/
def gcmSeal (key iv aad p : List Byte) : List Byte × List Byte :=
  let ks := aesKeys key
  let c := gcmCtr ks iv p
  (c, gcmTag ks iv aad c)

/-- Open: the plain text when the tag matches. -/
def gcmOpen (key iv aad c tag : List Byte) : Option (List Byte) :=
  let ks := aesKeys key
  if gcmTag ks iv aad c = tag then some (gcmCtr ks iv c) else none

end Sys2Proof.Machine
end

