-- ==== Sys2Proof/Machine/Convert.lean ====
section
/-!
DEFINITION. Sample conversion shared by ingest and scan-out: dequantisation, chroma upsampling, colour matrices, transfer tables
and primaries (R105, R106, R184 to R186).
-/

namespace Sys2Proof.Machine

/-- Twice the levels lo and hi of Table 4.15: they are half-integers for full-range chroma. -/
def quantLevels2 (d : Nat) (chroma : Bool) (full : Bool) : Int × Int :=
  if full then (if chroma then (1, 2 ^ (d + 1) - 1) else (0, 2 * (2 ^ d - 1)))
  else if chroma then (2 * 16 * 2 ^ (d - 8), 2 * 240 * 2 ^ (d - 8))
  else (2 * 16 * 2 ^ (d - 8), 2 * 235 * 2 ^ (d - 8))

/-- Step 1 of R105: the 16-bit code of a component, rounded half up and clamped. -/
def dequant (d : Nat) (chroma full : Bool) (v : Nat) : Nat :=
  let l := quantLevels2 d chroma full
  (clampI ((2 * (2 * (v : Int) - l.1) * 65535 + (l.2 - l.1)) / (2 * (l.2 - l.1))) 0 65535).toNat

/-- Expansion by bit replication (R184). -/
def expand16 (d v : Nat) : Nat :=
  if d = 16 then v else (v * 2 ^ (16 - d) ||| (if 16 ≤ 2 * d then v / 2 ^ (2 * d - 16) else v * 2 ^ (16 - 2 * d))) % 65536

/-- One filter output: clamp((Σ tap · C + 32) >> 6) (R186). -/
def tap64 (x : Int) : Nat := (clampI ((x + 32) / 64) 0 65535).toNat

/-- Clamp a chroma index to the plane (R186). -/
def edge (n : Nat) (i : Int) : Nat := (clampI i 0 ((n : Int) - 1)).toNat

/-- Vertical pass of 4:2:0 at luma row Y for chroma column i; `c` reads a chroma sample at (column, row) (Table 6.3). -/
def chromaV (c : Nat → Nat → Nat) (hp : Nat) (i Y : Nat) : Nat :=
  let j : Int := Y / 2
  let v := fun k : Int => (c i (edge hp k) : Int)
  if Y % 2 = 0 then tap64 (-3 * v (j - 2) + 18 * v (j - 1) + 52 * v j - 3 * v (j + 1))
  else tap64 (-3 * v (j - 1) + 52 * v j + 18 * v (j + 1) - 3 * v (j + 2))

/-- Horizontal pass at luma column X over a row `c` of chroma (Table 6.3). -/
def chromaH (c : Nat → Nat) (wp : Nat) (X : Nat) : Nat :=
  let j : Int := X / 2
  let v := fun k : Int => (c (edge wp k) : Int)
  if X % 2 = 0 then tap64 (64 * v j) else tap64 (-4 * v (j - 1) + 36 * v j + 36 * v (j + 1) - 4 * v (j + 2))

/-- Chroma at luma position (X, Y) for a subsampling code, from dequantised chroma samples (R186). -/
def chromaAt (sub : Nat) (c : Nat → Nat → Nat) (wp hp X Y : Nat) : Nat :=
  match sub with
  | 0 => c X Y
  | 1 => chromaH (fun i => c i Y) wp X
  | _ => chromaH (fun i => chromaV c hp i Y) wp X

/-- Coefficients k_rv, k_gu, k_gv, k_bu of a matrix code (Table 4.16). -/
def matrixCoef : Nat → Int × Int × Int × Int
  | 1 => (25802, -3069, -7670, 30402)
  | _ => (24160, -2696, -9361, 30825)

/-- Clamp to 16 bits. -/
def clamp16 (x : Int) : Nat := (clampI x 0 65535).toNat

/-- Step 3 of R105: Y'CbCr to R'G'B'; matrix 0 leaves the components as they are. -/
def toRgb (mtx : Nat) (p : Nat × Nat × Nat) : Nat × Nat × Nat :=
  if mtx = 0 then p else
  let k := matrixCoef mtx
  let y : Int := p.1
  let u : Int := 2 * (p.2.1 : Int) - 65535
  let v : Int := 2 * (p.2.2 : Int) - 65535
  (clamp16 (y + (k.1 * v + 16384) / 32768), clamp16 (y + (k.2.1 * u + k.2.2.1 * v + 16384) / 32768),
   clamp16 (y + (k.2.2.2 * u + 16384) / 32768))

/-- Entry i of a table of 16-bit entries packed two to a word from a BAR0 offset (R133, R210). -/
def tblEntry (rdw : Nat → Word) (base i : Nat) : Nat :=
  let w := (rdw (base + 4 * (i / 2))).toNat
  if i % 2 = 0 then w % 65536 else w / 65536

/-- The transfer table's output for a 16-bit code (R106). -/
def xferOut (rdw : Nat → Word) (base v : Nat) : Nat :=
  let i := v / 16
  let f : Int := (v % 16 : Nat)
  let a : Int := tblEntry rdw base i
  let b : Int := tblEntry rdw base (i + 1)
  clamp16 (a + ((b - a) * f + 8) / 16)

/-- Step 5 of R105: the 3×3 matrix in signed 2.14. -/
def primOut (m : List Int) (p : Nat × Nat × Nat) : Nat × Nat × Nat :=
  let c := fun r => clamp16 ((m.getD (3 * r) 0 * p.1 + m.getD (3 * r + 1) 0 * p.2.1 + m.getD (3 * r + 2) 0 * p.2.2 + 8192) / 16384)
  (c 0, c 1, c 2)

/-- Steps 3 to 5 of R105 on dequantised components: matrix, transfer table, primaries (only for BT.709). -/
def toLinear (rdw : Nat → Word) (xbase mtx prim : Nat) (m : List Int) (p : Nat × Nat × Nat) : Nat × Nat × Nat :=
  let q := toRgb mtx p
  let t := (xferOut rdw xbase q.1, xferOut rdw xbase q.2.1, xferOut rdw xbase q.2.2)
  if prim = 0 then primOut m t else t

/-- The nine signed 2.14 entries of a matrix held in five words from a field list, row by row. -/
def matrixOf (rdf : Fld → Int) (fs : List Fld) : List Int := fs.map rdf

end Sys2Proof.Machine
end

