-- ==== Sys2Proof/Machine/Crc.lean ====
section
/-!
DEFINITION. The CRC-32 of R140, used by blocks, images, records, Orsal frames and checkpoints.
-/

namespace Sys2Proof.Machine

/-- One bit of the reflected CRC-32: polynomial 0x04C1_1DB7 (R140). -/
def crcBit (c : Nat) : Nat := if c % 2 = 1 then (c / 2) ^^^ 0xEDB88320 else c / 2

/-- Eight bits. -/
def crcByte (c : Nat) (b : Byte) : Nat :=
  let x := c ^^^ b.toNat
  crcBit (crcBit (crcBit (crcBit (crcBit (crcBit (crcBit (crcBit x)))))))

/-- CRC-32 of a byte list: initial value and final XOR 0xFFFF_FFFF (R140). -/
def crc32 (bs : List Byte) : Nat := bs.foldl crcByte 0xFFFFFFFF ^^^ 0xFFFFFFFF

/-- One bit of the CRC-16 with polynomial 0x1021, no reflection (R295). -/
def crc16Bit (c : Nat) : Nat := if 2 ^ 15 ≤ c then (c * 2 % 2 ^ 16) ^^^ 0x1021 else c * 2

/-- Eight bits, most significant first. -/
def crc16Byte (c : Nat) (b : Byte) : Nat := Nat.repeat crc16Bit 8 (c ^^^ (b.toNat * 256))

/-- CRC-16 of a byte list: initial value 0xFFFF, no final XOR (R295). -/
def crc16 (bs : List Byte) : Nat := bs.foldl crc16Byte 0xFFFF

/-- The packet error code of a PMBus transaction: CRC-8 with polynomial 0x07 (PRESUMED, log entry 28: R337 names the code only). -/
def pec8 (bs : List Byte) : Nat :=
  bs.foldl (fun c b => Nat.repeat (fun c => if 128 ≤ c then (c * 2 % 256) ^^^ 0x07 else c * 2) 8 (c ^^^ b.toNat)) 0

end Sys2Proof.Machine
end

