-- ==== Sys2Proof/Machine/Codec.lean ====
section
/-!
DEFINITION. The frame codec's block format (spec/05_frame_codec.md): raw form, prediction, Rice code, encoder rules, decoder checks.
A plane block is a list of 1,024 samples, sample i = 32 r + c.
-/

namespace Sys2Proof.Machine

/-- Bits per sample of a depth code (Table 5.1). -/
def depthBits : Nat → Nat
  | 0 => 8 | 1 => 10 | 2 => 12 | _ => 16

/-- Size of the raw form in bytes (R137). -/
def rawLen (d : Nat) : Nat := 128 * d

/-- Bytes of the allocation of a plane block: whole granules for header and raw form (Table 4.6). -/
def allocLen (d : Nat) : Nat := (16 + rawLen d + 63) / 64 * 64

/-! Raw form (R139) -/

/-- The raw form as one number: sample i at bit d · i. -/
def rawNum (d : Nat) : List Nat → Nat
  | [] => 0
  | x :: r => x % 2 ^ d + 2 ^ d * rawNum d r

/-- The raw form in bytes. -/
def rawForm (d : Nat) (xs : List Nat) : List Byte := leBytes (rawNum d xs) (rawLen d)

/-- n samples of a raw number. -/
def unrawNum (d : Nat) : Nat → Nat → List Nat
  | _, 0 => []
  | x, n + 1 => x % 2 ^ d :: unrawNum d (x / 2 ^ d) n

/-- The samples of a raw form. -/
def unraw (d : Nat) (bs : List Byte) : List Nat := unrawNum d (ofLe bs) 1024

/-! Prediction (R141, R142) -/

/-- The predictors of Table 5.3. -/
def predictor (code a b z : Nat) : Nat :=
  match code with
  | 0 => a
  | 1 => b
  | 2 => (a + b) / 2
  | _ => if max a b ≤ z then min a b else if z ≤ min a b then max a b else a + b - z

/-- The prediction of sample (r, c) from the samples around it (R142). -/
def predictAt (x : Array Nat) (d code r c : Nat) : Nat :=
  let v := fun r c => x.getD (32 * r + c) 0
  if r = 0 then (if c = 0 then 2 ^ (d - 1) else v 0 (c - 1))
  else if c = 0 then v (r - 1) 0
  else predictor code (v r (c - 1)) (v (r - 1) c) (v (r - 1) (c - 1))

/-- The mapped residue u of a sample and its prediction (R143). -/
def residueU (d x p : Nat) : Nat :=
  let h := 2 ^ (d - 1)
  let t := (x + 2 ^ d + h - p) % 2 ^ d
  if h ≤ t then 2 * (t - h) else 2 * (h - t) - 1

/-- The sample a mapped residue and a prediction give (R143). -/
def unresidue (d u p : Nat) : Nat :=
  if u % 2 = 0 then (p + u / 2) % 2 ^ d else (p + 2 ^ d - (u + 1) / 2) % 2 ^ d

/-- The 128 sub-block rows in coding order: sub-block, row and the row's first column (R141). -/
def subRows : List (Nat × Nat × Nat) :=
  (List.range 16).flatMap (fun j => (List.range 8).map (fun rr => (j, 8 * (j / 4) + rr, 8 * (j % 4))))

/-- Adaptation after a sub-block row: the new M and k (R146). -/
def adapt (d sft m sum : Nat) : Nat × Nat :=
  let m' := ((2 ^ sft - 1) * m + sum + 2 ^ (sft - 1)) / 2 ^ sft
  (m', if m' < 8 then 0 else min (d - 1) (Nat.log2 (m' / 8)))

/-! Bits, most significant first (R144) -/

/-- The n low bits of a number, most significant first. -/
def msBits (v : Nat) : Nat → List Bool
  | 0 => []
  | n + 1 => (v / 2 ^ n % 2 == 1) :: msBits v n

/-- The number of a bit list, most significant first. -/
def ofBits (l : List Bool) : Nat := l.foldl (fun a b => 2 * a + (if b then 1 else 0)) 0

/-- Bits packed into n bytes, zero bits filling the last (R144). -/
def packBits (l : List Bool) : Nat → List Byte
  | 0 => []
  | n + 1 => BitVec.ofNat 8 (ofBits ((l.take 8) ++ List.replicate (8 - (l.take 8).length) false)) :: packBits (l.drop 8) n

/-- Bits of a byte list. -/
def unpackBits (bs : List Byte) : List Bool := bs.flatMap (fun b => msBits b.toNat 8)

/-- The code of u with Rice parameter k (R144). -/
def riceCode (d k u : Nat) : List Bool :=
  let q := u / 2 ^ k
  if q < 16 then List.replicate q true ++ false :: msBits u k
  else List.replicate 16 true ++ msBits u d

/-! Encoder (R147 to R149) -/

/-- The cost of a predictor over a sub-block (R148). -/
def subCost (x : Array Nat) (d code j : Nat) : Nat :=
  (List.range 64).foldl (fun a i =>
    let r := 8 * (j / 4) + i / 8
    let c := 8 * (j % 4) + i % 8
    a + residueU d (x.getD (32 * r + c) 0) (predictAt x d code r c)) 0

/-- The predictor of lowest cost, ties to the lower code (R148). -/
def bestPred (x : Array Nat) (d j : Nat) : Nat :=
  ((List.range 4).foldl (fun (b : Nat × Nat) c =>
    let k := subCost x d c j
    if k < b.2 then (c, k) else b) (0, subCost x d 0 j)).1

/-- The u values of a sub-block row. -/
def rowUs (x : Array Nat) (d : Nat) (pm : List Nat) (t : Nat × Nat × Nat) : List Nat :=
  (List.range 8).map (fun cc =>
    residueU d (x.getD (32 * t.2.1 + (t.2.2 + cc)) 0) (predictAt x d (pm.getD t.1 0) t.2.1 (t.2.2 + cc)))

/-- Code every sub-block row with adaptation. -/
def codeRows (d sft : Nat) : List (List Nat) → Nat → Nat → List Bool
  | [], _, _ => []
  | us :: r, m, k =>
    let a := adapt d sft m us.sum
    us.flatMap (riceCode d k) ++ codeRows d sft r a.1 a.2

/-- The header bytes of a block (Table 5.1). -/
def blockHeader (crc pmap len : Nat) (opaque_ : Bool) (depth mode ad k0 cval : Nat) : List Byte :=
  let h := leBytes crc 4 ++ leBytes pmap 4 ++ leBytes (len + 0x1000) 2
    ++ leBytes (mode + 4 * depth + (if opaque_ then 16 else 0)) 1 ++ leBytes (k0 + 16 * ad) 1 ++ leBytes cval 2 ++ [0#8]
  h ++ [h.foldl (fun a b => a ^^^ b) 0xA5#8]

/-- A raw block of the samples (R137, R160). -/
def rawBlock (depth : Nat) (opaque_ : Bool) (xs : List Nat) : List Byte :=
  let d := depthBits depth
  let raw := rawForm d xs
  blockHeader (crc32 raw) 0 (rawLen d) opaque_ depth 0 0 0 0 ++ raw

/-- The block a compress lane makes of 1,024 samples (R147 to R149). -/
def encodeBlock (depth ad : Nat) (opaque_ : Bool) (xs : List Nat) : List Byte :=
  let d := depthBits depth
  let crc := crc32 (rawForm d xs)
  let v0 := xs.headD 0
  if xs.all (fun v => v = v0) then blockHeader crc 0 0 opaque_ depth 2 0 0 v0
  else
    let x := xs.toArray
    let pm := (List.range 16).map (bestPred x d)
    let rows := subRows.map (rowUs x d pm)
    let s0 := (rows.headD []).sum
    let k0 := if s0 < 8 then 0 else min (d - 1) (Nat.log2 (s0 / 8))
    let bs := codeRows d (ad + 1) rows (8 * 2 ^ k0) k0
    let len := (bs.length + 7) / 8
    if len < rawLen d then
      blockHeader crc ((List.range 16).foldl (fun a j => a + pm.getD j 0 * 4 ^ j) 0) len opaque_ depth 1 ad k0 0 ++ packBits bs len
    else rawBlock depth opaque_ xs

/-! Decoder (R150) -/

/-- Header fields of a block. -/
def hdrLen (bs : List Byte) : Nat := leAt bs 8 2 % 4096
def hdrMode (bs : List Byte) : Nat := leAt bs 10 1 % 4
def hdrDepth (bs : List Byte) : Nat := leAt bs 10 1 / 4 % 4
def hdrOpaque (bs : List Byte) : Bool := leAt bs 10 1 / 16 % 2 == 1

/-- Read one code: u and the bits left; none when the bits run out (R145). -/
def readCode (d k : Nat) (l : List Bool) : Option (Nat × List Bool) :=
  let ones := (l.take 16).takeWhile (fun b => b)
  let q := ones.length
  if q = 16 then
    let l := l.drop 16
    if l.length < d then none else some (ofBits (l.take d), l.drop d)
  else
    let l := l.drop q
    if l.length < k + 1 then none else some (q * 2 ^ k + ofBits ((l.drop 1).take k), l.drop (k + 1))

/-- Decode one sub-block row: the samples so far, the bits left and the sum of u; none on a failure of check 5. -/
def decodeRow (d k code r : Nat) : List Nat → Array Nat → List Bool → Nat → Option (Array Nat × List Bool × Nat)
  | [], x, l, sum => some (x, l, sum)
  | c :: cs, x, l, sum =>
    match readCode d k l with
    | none => none
    | some (u, l') =>
      if 2 ^ d ≤ u then none
      else decodeRow d k code r cs (x.setIfInBounds (32 * r + c) (unresidue d u (predictAt x d code r c))) l' (sum + u)

/-- Decode every sub-block row with adaptation (R146). -/
def decodeRows (d sft pmap : Nat) : List (Nat × Nat × Nat) → Nat → Nat → Array Nat → List Bool → Option (Array Nat × List Bool)
  | [], _, _, x, l => some (x, l)
  | t :: ts, m, k, x, l =>
    match decodeRow d k (pmap / 4 ^ t.1 % 4) t.2.1 ((List.range 8).map (fun cc => t.2.2 + cc)) x l 0 with
    | none => none
    | some (x', l', sum) =>
      let a := adapt d sft m sum
      decodeRows d sft pmap ts a.1 a.2 x' l'

/-- The result of a decode lane: the samples with the opaque flag, or the cause of the block error (Table 5.4). -/
inductive Decoded where
  | ok (xs : List Nat) (opaque_ : Bool)
  | err (cause : Nat)
  deriving DecidableEq, Repr

/-- Decode a block of the expected depth code from bytes that start at its header (R150). -/
def decodeBlock (depth : Nat) (bs : List Byte) : Decoded :=
  let d := depthBits depth
  let b := fun i => leAt bs i 1
  let len := hdrLen bs
  let mode := hdrMode bs
  let pmap := leAt bs 4 4
  let ad := b 11 / 16 % 4
  let k0 := b 11 % 16
  let cval := leAt bs 12 2
  let lenOk := match mode with
    | 0 => len == rawLen d && pmap == 0 && ad == 0 && k0 == 0 && cval == 0
    | 1 => 1 ≤ len && len ≤ rawLen d - 1 && k0 ≤ d - 1 && cval == 0
    | _ => len == 0 && pmap == 0 && ad == 0 && k0 == 0 && cval < 2 ^ d
  if (bs.take 15).foldl (fun a x => a ^^^ x) 0xA5#8 != BitVec.ofNat 8 (b 15) then .err 1
  else if leAt bs 8 2 / 4096 != 1 || mode == 3 || b 10 / 32 != 0 || b 11 / 64 != 0 || b 14 != 0 then .err 2
  else if hdrDepth bs != depth then .err 3
  else if !lenOk then .err 4
  else
    let pay := slice bs 16 len
    let fin := fun (xs : List Nat) =>
      if crc32 (rawForm d xs) = leAt bs 0 4 then Decoded.ok xs (hdrOpaque bs) else Decoded.err 7
    match mode with
    | 0 => fin (unraw d pay)
    | 2 => fin (List.replicate 1024 cval)
    | _ =>
      match decodeRows d (ad + 1) pmap subRows (8 * 2 ^ k0) k0 (Array.replicate 1024 0) (unpackBits pay) with
      | none => .err 5
      | some (x, l) => if 8 ≤ l.length || l.any (fun v => v) then .err 6 else fin x.toList

end Sys2Proof.Machine
end

