-- ==== Sys2Proof/Machine/Nvm.lean ====
section
/-!
DEFINITION. The on-chip NVM (spec/13_nvm_configuration.md): page accesses, group programming, scrub and journal, record rings,
counters and passwords.
-/

namespace Sys2Proof.Machine

/-! Pages and groups (R422) -/

/-- ECC class of a group: 0 clean, 1 corrected, 2 uncorrectable; a journalled page is served from the journal (R427). -/
def grpEcc (s : State) (page g : Nat) : Nat :=
  if s.nv.journal.map (fun j => j.1) = some page && on s F.NVM_STATUS_journal then 0 else sget 0 s.nv.ecc (8 * page + g)

/-- Set the ECC class of a group. -/
def setGrpEcc (s : State) (page g c : Nat) : State := { s with nv.ecc := sset 0 s.nv.ecc (8 * page + g) c }

/-- The bytes a read of a page delivers; a journalled page is served from the journal (R427). -/
def pageBytes (s : State) (page : Nat) : List Byte :=
  match s.nv.journal with
  | some (p, bs) => if p = page && on s F.NVM_STATUS_journal then bs else nvmRd s (64 * page) 64
  | none => nvmRd s (64 * page) 64

/-- The groups of a list of page bytes. -/
def grpOf (bs : List Byte) (g : Nat) : List Byte := slice bs (8 * g) 8

/-- A group as a page write programs it: the bytes it covers, and the stored values of the others (R424). -/
def mergeGrp (old : List Byte) (new : List (Option Byte)) : List Byte := List.zipWith (fun o n => n.getD o) old new

/-- A group covered whole. -/
def whole (bs : List Byte) : List (Option Byte) := bs.map some

/-- The NVM as its reads show it: a journalled page is served from the journal (R427). -/
def nvmSeen (s : State) : SMap Byte :=
  match s.nv.journal with
  | some (p, bs) => if on s F.NVM_STATUS_journal then ssetList 0#8 s.nvm (64 * p) bs else s.nvm
  | none => s.nvm

/-- The NVM as it will stand when every page write in the queue has ended. -/
def nvmFuture (s : State) : SMap Byte :=
  s.nv.jobs.foldl (fun m j => j.todo.foldl (fun m t =>
    let a := 64 * j.page + 8 * t.1
    ssetList 0#8 m a (mergeGrp (sgetList 0#8 m a 8) t.2)) m) (nvmSeen s)

/-- A group reads without error, counting writes still queued for it as done. -/
def grpOkFuture (s : State) (page g : Nat) : Bool :=
  grpEcc s page g != 2 || s.nv.jobs.any (fun j => j.page = page && j.todo.any (fun t => t.1 = g))

/-- The groups touched by n bytes at page offset o: floor(o / 8) first, ascending modulo 8 (R424). -/
def touchedGroups (o n : Nat) : List Nat :=
  let g0 := o / 8
  ((List.range 8).map (fun i => (g0 + i) % 8)).filter
    (fun g => (List.range n).any (fun i => ((o + i) % 64) / 8 = g))

/-- The page bytes that a write of bytes at an offset covers, wrapping within the page (R423). -/
def placeBytes (o : Nat) (bs : List Byte) : List (Option Byte) :=
  (List.range bs.length).foldl (fun p i => p.set ((o + i) % 64) (some (bs.getD i 0#8))) (List.replicate 64 none)

/-- A page write of bytes at an offset: the groups it touches, in programming order, with the bytes it covers (R423, R424). -/
def mkJob (page : Nat) (o : Nat) (bs : List Byte) (k : PgKind) : PgJob :=
  let new := placeBytes o bs
  { page := page, todo := (touchedGroups o bs.length).map (fun g => (g, (new.drop (8 * g)).take 8)), kind := k }

/-- Queue a page write; NVM.ACC_STAT.busy reads 1 until the last group completes (R424). -/
def addJob (s : State) (j : PgJob) : State :=
  let s := if s.nv.jobs.isEmpty then { s with nv := { s.nv with jobAt := s.tick, grpAt := s.tick } } else s
  wrB { s with nv.jobs := s.nv.jobs ++ [j] } F.NVM_ACC_STAT_busy true

/-- The page write in hand is a host's and began in this tick. -/
def hostJustBegun (s : State) : Bool :=
  match s.nv.jobs with
  | j :: _ => j.kind == .host && s.nv.jobAt = s.tick
  | [] => false

/-- The device's own write goes ahead of host writes that have not begun, and of one requested in its tick (R437). -/
def addOwnJob (s : State) (j : PgJob) : State :=
  let n := if hostJustBegun s then 0 else 1
  let run := s.nv.jobs.take n
  let rest := s.nv.jobs.drop n
  let own := rest.takeWhile (fun x => x.kind != .host)
  let s := if s.nv.jobs.isEmpty then { s with nv := { s.nv with jobAt := s.tick, grpAt := s.tick } } else s
  wrB { s with nv.jobs := run ++ own ++ [j] ++ rest.drop own.length } F.NVM_ACC_STAT_busy true

/-! Rings (R428, R429) -/

/-- A ring: first page, slots, slot size and tag. -/
structure NvRing where
  page : Nat
  slots : Nat
  size : Nat
  tag : Nat
  deriving DecidableEq, Repr

/-- The bytes of slot i in a memory image. -/
def ringSlot (m : SMap Byte) (r : NvRing) (i : Nat) : List Byte := sgetList 0#8 m (64 * r.page + r.size * i) r.size

/-- The seq of a valid record in slot i; 0 where it holds none (R429). -/
def ringSeq (s : State) (m : SMap Byte) (r : NvRing) (i : Nat) : Nat :=
  let bs := ringSlot m r i
  let a := r.size * i
  let eccOk := (List.range (r.size / 8)).all (fun k => grpOkFuture s (r.page + (a + 8 * k) / 64) ((a + 8 * k) % 64 / 8))
  let q := leAt bs 4 4
  if eccOk && leAt bs 0 2 = r.tag && 1 ≤ q && q ≤ 0xFFFFFFFE && leAt bs (r.size - 4) 4 = crc32 (bs.take (r.size - 4)) then q else 0

/-- The newest record of a ring: (slot, seq) with the greatest seq (R429). -/
def ringNewest (s : State) (m : SMap Byte) (r : NvRing) : Option (Nat × Nat) :=
  (List.range r.slots).foldl (fun b i =>
    let q := ringSeq s m r i
    if q = 0 then b else match b with
      | some (_, q') => if q' < q then some (i, q) else b
      | none => some (i, q)) none

/-- The bytes of a record (Table 13.10). -/
def ringRecord (r : NvRing) (seq : Nat) (pay : List Byte) (len : Nat) : List Byte :=
  let body := leBytes r.tag 2 ++ leBytes len 1 ++ [0#8] ++ leBytes seq 4
    ++ (pay ++ List.replicate (r.size - 12 - pay.length) 0#8)
  body ++ leBytes (crc32 body) 4

/-- Write a new record: into the slot after the newest, or slot 0, with the next seq or 1 (R429). -/
def ringAppend (s : State) (r : NvRing) (pay : List Byte) (len : Nat) (seqAtLeast : Nat := 1) : State :=
  let m := nvmFuture s
  let at_ : Nat × Nat := match ringNewest s m r with
    | some (i, q) => ((i + 1) % r.slots, q + 1)
    | none => (0, seqAtLeast)
  let a := r.size * at_.1
  let page := r.page + a / 64
  addOwnJob s (mkJob page (a % 64) (ringRecord r at_.2 pay len) .own)

/-- The persistent event log: 512 slots of 64 bytes from page 768, tag 0x4556 (Table 13.11, R470). -/
def logRing : NvRing := { page := 768, slots := 512, size := 64, tag := 0x4556 }

/-! Counters (R431 to R433) -/

/-- The first page of counter k (Table 13.11). -/
def cntPage (k : Nat) : Nat := 512 + 8 * k

/-- The base ring of counter k. Its tag is the ring's identifier, which the manual does not number (log entry 14). -/
def cntRing (k : Nat) : NvRing := { page := cntPage k, slots := 8, size := 32, tag := 0x4330 + k }

/-- The bytes of tally group g of counter k with seq q (R432). -/
def tallyBytes (k g q : Nat) : List Byte :=
  let b := leBytes q 4 ++ leBytes k 2 ++ leBytes g 1
  b ++ [b.foldl (fun a x => a ^^^ x) 0x5A#8]

/-- The page and group of tally group g of counter k. -/
def tallyAt (k g : Nat) : Nat × Nat := (cntPage k + 4 + g / 8, g % 8)

/-- Does tally group g of counter k count for base seq q (R432)? -/
def tallyCounts (s : State) (m : SMap Byte) (k q g : Nat) : Bool :=
  let pg := tallyAt k g
  grpOkFuture s pg.1 pg.2 && sgetList 0#8 m (64 * pg.1 + 8 * pg.2) 8 == tallyBytes k g q

/-- The base of a counter in an image: its value and seq. -/
def cntBase (s : State) (m : SMap Byte) (k : Nat) : Option (Nat × Nat) :=
  match ringNewest s m (cntRing k) with
  | some (i, q) => some (leAt (ringSlot m (cntRing k) i) 8 8, q)
  | none => none

/-- read_counter of R433 over an image. -/
def readCounterIn (s : State) (m : SMap Byte) (k : Nat) : Nat :=
  match cntBase s m k with
  | none => 0
  | some (v, q) => v + ((List.range 32).filter (fun g => tallyCounts s m k q g)).length

/-- The value of counter k as the NVM stands. -/
def readCounter (s : State) (k : Nat) : Nat := readCounterIn { s with nv.jobs := [] } (nvmSeen s) k

/-- Program tally group g of counter k with seq q. -/
def addTally (s : State) (k g q : Nat) : State :=
  let pg := tallyAt k g
  addOwnJob s { page := pg.1, todo := [(pg.2, whole (tallyBytes k g q))], kind := .tally k }

/-- Clear one tally page of counter k. -/
def clearTallyPage (s : State) (p : Nat) : State :=
  addOwnJob s { page := p, todo := (List.range 8).map (fun g => (g, whole (List.replicate 8 0#8))), kind := .own }

/-- A new base record of counter k with value v. -/
def addBase (s : State) (k v : Nat) : State := ringAppend s (cntRing k) (leBytes v 8) 8

/-- An increment of counter k (R433). A counter with no base first gets base 0 with seq 1 (DEDUCED, log entry 14). -/
def incCounter (s : State) (k : Nat) : State :=
  match cntBase s (nvmFuture s) k with
  | none => addTally (addBase s k 0) k 0 1
  | some (v, q) =>
    let t := ((List.range 32).filter (fun g => tallyCounts s (nvmFuture s) k q g)).length
    if t < 32 then addTally s k t q
    else
      let s := addBase s k (v + 32)
      let s := (List.range 4).foldl (fun s i => clearTallyPage s (cntPage k + 4 + i)) s
      addTally s k 0 (q + 1)

/-! Host page accesses (R423, R424, Table 13.8) -/

/-- An authenticated session is open (ch. 15). -/
def sessionOpen (s : State) : Bool := rd s F.SEC_STATUS_session == 2

/-- Access of a kind to a partition (0 protected, 1 user) needs no unlock or is unlocked (R435). -/
def nvmUnlocked (s : State) (part kind : Nat) : Bool :=
  s.nv.pws.getD (2 * part + kind) 0 == 0 || bitOf s F.NVM_LOCK_STAT_unl (2 * part + kind)

/-- The partition is locked out (R435). -/
def nvmLockedOut (s : State) (part : Nat) : Bool :=
  if part = 0 then on s F.NVM_LOCK_STAT_out_prot else on s F.NVM_LOCK_STAT_out_user

/-- The result code of the partition checks for a host access: 0 OK, 2 DENIED, 3 LOCKED_OUT (Table 13.8). -/
def nvmCheck (s : State) (page : Nat) (write : Bool) : Nat :=
  let kind := if write then 1 else 0
  if page < 512 || 4088 ≤ page then 2 else
  let part := if page < 1536 then 0 else 1
  if !nvmUnlocked s part kind then (if nvmLockedOut s part then 3 else 2)
  else if write && part = 0 && !sessionOpen s then 2 else 0

/-- NVM.ACC_STAT.busy (R422, R424): a page write or a page read is in progress. -/
def nvmBusy (s : State) : Bool := !s.nv.jobs.isEmpty || s.nv.reading.isSome

/-- End a host access with a result. -/
def accEnd (s : State) (result : Nat) : State :=
  wr (wrB s F.NVM_ACC_STAT_busy (nvmBusy s)) F.NVM_ACC_STAT_result result

/-- The buffer NVM.BUF0–15 as bytes. -/
def nvmBuf (s : State) : List Byte := (List.range 16).flatMap (fun k => leBytes (rdW s (F.NVM_BUF k).off).toNat 4)

/-- Fill the buffer. -/
def setNvmBuf (s : State) (bs : List Byte) : State :=
  (List.range 16).foldl (fun s k => wrW s (F.NVM_BUF k).off (BitVec.ofNat 32 (leAt bs (4 * k) 4))) s

/-- The tick at which a page read that is issued now completes: 300 ticks later, counted from 2 µs after POR_N rose where it is issued
earlier (R422). -/
def readDue (s : State) : Nat := max s.tick 3000 + 300

/-- A page read of the host begins after the partition checks (R422, R423). -/
def hostRead (s : State) (page cor unc : Nat) : State :=
  match nvmCheck s page false with
  | 0 => wrB { s with nv.reading := some (readDue s, page, cor, unc) } F.NVM_ACC_STAT_busy true
  | r => accEnd s r

/-- The page read completes: the page is in the buffer, with the groups found corrected and uncorrectable (R423). -/
def readEnd (s : State) (page cor unc : Nat) : State :=
    let u := (List.range 8).foldl (fun a g => if unc / 2 ^ g % 2 = 1 || grpEcc s page g = 2 then a + 2 ^ g else a) 0
    let c := (List.range 8).foldl (fun a g =>
      if u / 2 ^ g % 2 = 0 && (cor / 2 ^ g % 2 = 1 || grpEcc s page g = 1) then a + 2 ^ g else a) 0
    let s := setNvmBuf s (pageBytes s page)
    let s := wr (wr s F.NVM_ACC_STAT_unc u) F.NVM_ACC_STAT_cor c
    let s := bumpN (bumpN s F.NVM_ECC_CNT_uncorrected (bitList u 8).length) F.NVM_ECC_CNT_corrected (bitList c 8).length
    accEnd { s with nv.reading := none } (if u = 0 then 0 else 4)

/-! The journal (R426, R427) -/

/-- The pages of the journal's entry: the first holds the content; group 0 of the second holds the page's index and the CRC-32 (log entry 60). -/
def jrnPage : Nat := 4088
def jrnHead (p : Nat) (bs : List Byte) : List Byte := let h := leBytes p 4; h ++ leBytes (crc32 (h ++ bs)) 4

/-- Program the entry of a page, and clear it. -/
def jrnJobs (p : Nat) (bs : List Byte) : List PgJob :=
  [{ page := jrnPage, todo := (List.range 8).map (fun g => (g, whole (grpOf bs g))), kind := .entry },
   { page := jrnPage + 1, todo := [(0, whole (jrnHead p bs))], kind := .entry }]
def jrnClear : PgJob := { page := jrnPage + 1, todo := [(0, whole (List.replicate 8 0#8))], kind := .entry }

/-- The valid entry that the journal's pages hold. -/
def jrnEntry (s : State) : Option (Nat × List Byte) :=
  let bs := nvmRd s (64 * jrnPage) 64
  let h := nvmRd s (64 * jrnPage + 64) 8
  let p := leAt h 0 4
  if (List.range 9).all (fun g => grpEcc s jrnPage g != 2) && decide (p < jrnPage) && h == jrnHead p bs then some (p, bs) else none

/-- At power-on a valid journal entry takes precedence over its page; the page is rewritten whole before any other write (R427). -/
def journalled (s : State) : State :=
  match jrnEntry s with
  | some (p, bs) =>
    let s := wrB { s with nv.journal := some (p, bs) } F.NVM_STATUS_journal true
    addJob (addJob s { page := p, todo := (List.range 8).map (fun g => (g, whole (grpOf bs g))), kind := .journal }) jrnClear
  | none => s

/-- A host page write starts programming its groups (R423, R424). -/
def hostWrite (s : State) (page off n : Nat) : State :=
  match nvmCheck s page true with
  | 0 =>
    addJob s (mkJob page off ((nvmBuf s).take n) .host)
  | r => accEnd s r

/-- Carry out a host access. -/
def doAcc (s : State) : NvmAcc → State
  | .read p c u => hostRead s p c u
  | .write p o n => hostWrite s p o n
  | .secured p o bs => addJob s (mkJob p o bs .host)

/-- Start the accesses that waited, as far as no page write and no page read stands in their way. -/
def drainAcc : Nat → State → State
  | 0, s => s
  | n + 1, s =>
    match s.nv.jobs, s.nv.reading, s.nv.waiting with
    | [], none, a :: r => drainAcc n (doAcc { s with nv.waiting := r } a)
    | _, _, _ => s

/-- A page read whose tick has come completes, and what waited behind it begins. -/
def nvmNow (s : State) : State :=
  match s.nv.reading with
  | some (d, p, c, u) => if d ≤ s.tick then drainAcc s.nv.waiting.length (readEnd s p c u) else s
  | none => s

/-- A host access waits while a page write runs (R437), or the page read before it. -/
def nvmAccess (s : State) (a : NvmAcc) : State :=
  let s := nvmNow s
  if nvmBusy s || !s.nv.waiting.isEmpty then wrB { s with nv.waiting := s.nv.waiting ++ [a] } F.NVM_ACC_STAT_busy true
  else doAcc s a

/-- NVM_PAGE_READ with the fields of NVM.ACC. -/
def nvmPageRead (s : State) (page : BitVec 12) (cor unc : BitVec 8) : State :=
  let s := wr (wr s F.NVM_ACC_op 0) F.NVM_ACC_page page.toNat
  nvmAccess s (.read page.toNat cor.toNat unc.toNat)

/-- NVM_PAGE_WRITE with the fields of NVM.ACC. -/
def nvmPageWrite (s : State) (page : BitVec 12) (off lenM1 : BitVec 6) : State :=
  let s := wr (wr (wr (wr s F.NVM_ACC_op 1) F.NVM_ACC_page page.toNat) F.NVM_ACC_offset off.toNat) F.NVM_ACC_len_m1 lenM1.toNat
  nvmAccess s (.write page.toNat off.toNat (lenM1.toNat + 1))

/-- What the end of a page write does. -/
def jobEnd (s : State) (j : PgJob) : State :=
  match j.kind with
  | .host => accEnd s 0
  | .own => s
  | .tally k => wr s (F.NVM_CNT_value k) (readCounter s k)
  | .entry => s
  | .scrub => bump s F.NVM_SCRUB_STAT_rewrites
  | .journal => wrB { s with nv.journal := none } F.NVM_STATUS_journal false

/-- NVM_GROUP_PROGRAMMED (R424): the group in progress completes after 30,000 ticks and the next begins, or the write ends. -/
def nvmGroupProgrammed (s : State) : State :=
  match s.nv.jobs with
  | [] => s
  | j :: js =>
    match j.todo with
    | [] => jobEnd { s with nv.jobs := js } j
    | (g, bs) :: todo =>
      let s := reach s (s.nv.grpAt + 30000)
      let s := { s with nv.grpAt := s.tick }
      let a := 64 * j.page + 8 * g
      let s := nvmWr (setGrpEcc s j.page g 0) a (mergeGrp (nvmRd s a 8) bs)
      let s := match todo with
        | [] => jobEnd { s with nv.jobs := js } j
        | _ => { s with nv.jobs := { j with todo := todo } :: js }
      let s := drainAcc (s.nv.waiting.length) (nvmNow s)
      wrB s F.NVM_ACC_STAT_busy (nvmBusy s)

/-! Scrub (R426) -/

/-- The tick of the next page read: 10 ms after the last one, and the first page period_h hours after the pass before began (DEDUCED, log
entry 78). -/
def scrubDue (s : State) : Nat :=
  match s.nv.passAt with
  | none => s.tick
  | some t => if s.nv.scrubPage = 0 then t + rd s F.NVM_SCRUB_period_h * 3600 * Config.tickHz else s.nv.scrubAt + 10 * Config.tickMs

/-- NVM_SCRUB_PAGE, while PD_NVM is on: examine the next page; when a group is weak, program the journal's entry, rewrite every weak group with
its corrected value, and clear the entry, behind the page writes in the queue. -/
def nvmScrubPage (s : State) (weak unc : BitVec 8) : State :=
  if !on s F.NVM_SCRUB_en || !bitOf s F.PWR_DOM_ON_on 2 then s else
  let p := s.nv.scrubPage
  let s := reach s (scrubDue s)
  let s := { s with nv := { s.nv with scrubPage := (p + 1) % 4096, scrubAt := s.tick, passAt := if p = 0 then some s.tick else s.nv.passAt } }
  let s := if p = 4095 then bump s F.NVM_SCRUB_STAT_passes else s
  if s.nv.jobs.any (fun j => j.page = p) || s.nv.waiting.any (fun a => match a with | .write q _ _ => q = p | .secured q _ _ => q = p | _ => false) then s
  else
    let u := (List.range 8).filter (fun g => unc.toNat / 2 ^ g % 2 = 1 || grpEcc s p g = 2)
    let c := (List.range 8).filter (fun g => !u.contains g && grpEcc s p g = 1)
    let w := (List.range 8).filter (fun g => !u.contains g && (grpEcc s p g = 1 || weak.toNat / 2 ^ g % 2 = 1))
    let s := u.foldl (fun s g => setGrpEcc s p g 2) s
    let s := bumpN (bumpN s F.NVM_ECC_CNT_uncorrected u.length) F.NVM_ECC_CNT_corrected c.length
    if w.isEmpty then s else
    let weakRow := { page := p, todo := w.map (fun g => (g, List.replicate 8 none)), kind := PgKind.scrub }
    (jrnJobs p (pageBytes s p) ++ [weakRow, jrnClear]).foldl addJob s

/-! Passwords (R435, R436) -/

/-- The candidate password of NVM.PW0–3. -/
def pwCandidate (s : State) : Nat :=
  (List.range 4).foldl (fun a k => a + rd s (F.NVM_PW_pw k) * 2 ^ (32 * k)) 0

/-- A wrong attempt on a partition; the eighth locks it out (R435). -/
def wrongAttempt (s : State) (part : Nat) : State :=
  if part = 0 then
    let s := bump s F.NVM_LOCK_STAT_att_prot
    if 8 ≤ rd s F.NVM_LOCK_STAT_att_prot then wrB s F.NVM_LOCK_STAT_out_prot true else s
  else
    let s := bump s F.NVM_LOCK_STAT_att_user
    if 8 ≤ rd s F.NVM_LOCK_STAT_att_user then wrB s F.NVM_LOCK_STAT_out_user true else s

/-- Partition number of the operand. -/
def partNo (user : Bool) : Nat := if user then 1 else 0

/-- NVM_UNLOCK (R435); of two unlock writes in one tick the second is a wrong attempt (R437). -/
def nvmUnlock (s : State) (user write : Bool) : State :=
  let part := partNo user
  let i := 2 * part + (if write then 1 else 0)
  let again := s.nv.unlockAt == some s.tick
  let s := { s with nv.unlockAt := some s.tick }
  if nvmLockedOut s part then s
  else if !again && pwCandidate s == s.nv.pws.getD i 0 then setBitOf s F.NVM_LOCK_STAT_unl i true
  else wrongAttempt s part

/-- Store a password of a kind. -/
def storePw (s : State) (i v : Nat) : State := { s with nv.pws := s.nv.pws.set i v }

/-- NVM_PW_SET (R436): for the protected partition only a sealed write falls within a session; a plain one is a wrong attempt (R488). -/
def nvmPwSet (s : State) (sealed user write : Bool) : State :=
  let part := partNo user
  let kind := if write then 1 else 0
  if nvmUnlocked s part kind && (user || (sealed && sessionOpen s)) then storePw s (2 * part + kind) (pwCandidate s)
  else wrongAttempt s part

/-- NVM_RELOCK (R436). -/
def nvmRelock (s : State) : State := wr s F.NVM_LOCK_STAT_unl 0

/-- NVM_CLR_CNT (R438). -/
def nvmClrCnt (s : State) : State :=
  wrB (clearRegs (nvmNow s) [F.NVM_ECC_CNT.off, F.NVM_SCRUB_STAT.off, F.NVM_CNT_ERR.off]) F.NVM_STATUS_wr_ign false

/-- A write that the NVM block's rules ignore is flagged and counted (R421, R522). -/
def nvmWrIgn (s : State) : State := bump (wrB s F.NVM_STATUS_wr_ign true) F.NVM_CNT_ERR_wr_ign

/-! Flash commands (R414, R437) -/

/-- Free bytes (log entry 2). -/
def freeBytes (s : State) (k : Nat) : Nat → List Byte × State
  | 0 => ([], s)
  | n + 1 =>
    let f := freeBelow s k 256
    let r := freeBytes f.2 k n
    (BitVec.ofNat 8 f.1 :: r.1, r.2)

/-- Base and length in bytes of checkpoint slot k (R276). -/
def ckptSpan (s : State) (k : Nat) : Nat × Nat :=
  if k = 0 then (65536 * rd s F.AGE_CKPT_SLOT0_base, 65536 * rd s F.AGE_CKPT_SLOT0_len)
  else (65536 * rd s F.AGE_CKPT_SLOT1_base, 65536 * rd s F.AGE_CKPT_SLOT1_len)

/-- The bytes of the flash a command touches: first and number. -/
def xfSpan (op addr len : Nat) : Nat × Nat :=
  if op = 2 then (addr / 4096 * 4096, 4096) else if op = 3 then (addr / 65536 * 65536, 65536) else (addr, len)

/-- The result of a command's tests (R414): RANGE beyond the flash, or beyond the part of the local store below the mailbox (DEDUCED, log
entry 39); DENIED for a program or erase of a checkpoint slot while ageing runs. -/
def xfResult (s : State) (op addr len buf : Nat) : Nat :=
  let sp := xfSpan op addr len
  let hits := fun k => let c := ckptSpan s k; decide (c.1 < sp.1 + sp.2) && decide (sp.1 < c.1 + c.2)
  if s.nv.flashSize < sp.1 + sp.2 || (op ≤ 1 && 0xF80000 < buf + len) then 1
    else if op != 0 && on s F.AGE_STATUS_run && (hits 0 || hits 1) then 3 else 0

/-- The command the registers describe, with its result as the tests stand. -/
def xfOf (s : State) (op : Nat) : XfJob :=
  let addr := rd s F.NVM_XF_ADDR_addr
  let len := rd s F.NVM_XF_LEN_len_m1 + 1
  let buf := rd s F.NVM_XF_BUF_offset
  { op := op, addr := addr, len := len, buf := buf, result := xfResult s op addr len buf }

/-- Start the next held flash command when nothing stands in its way; its tests are made as it starts (DEDUCED, log entry 39). -/
def xfNext (s : State) : State :=
  match s.nv.xf, s.nv.xfHeld with
  | none, j :: r => if s.age.ckpt.isSome then s else
    { s with nv := { s.nv with xf := some { j with result := xfResult s j.op j.addr j.len j.buf }, xfHeld := r } }
  | _, _ => s

/-- XF_READ, XF_PROGRAM, XF_ERASE_4K, XF_ERASE_64K: a write of NVM.XF_CMD with go (R414). -/
def xfStart (s : State) (op : Nat) : State :=
  let s := wrB (wr s F.NVM_XF_CMD_op op) F.NVM_XF_STAT_busy true
  xfNext { s with nv.xfHeld := s.nv.xfHeld ++ [xfOf s op] }

/-- What the command leaves where the flash reported an error: bytes of its destination are free values (log entry 39). -/
def xfTorn (s : State) (j : XfJob) : State :=
  let sp := xfSpan j.op j.addr j.len
  if j.op = 0 then (let f := freeBytes s 10 j.len; lstKeep f.2 j.buf f.1)
  else (let f := freeBytes s 10 sp.2; flashWr f.2 sp.1 f.1)

/-- The effect of a command that succeeds. -/
def xfApply (s : State) (j : XfJob) : State :=
  let sp := xfSpan j.op j.addr j.len
  match j.op with
  | 0 => lstKeep s j.buf (flashRd s j.addr j.len)
  | 1 => flashWr s j.addr (lstRd s j.buf j.len)
  | _ => { s with flash := sfilter (fun a => decide (a < sp.1) || decide (sp.1 + sp.2 ≤ a)) s.flash }

/-- XF_DONE (R414): the command in progress ends with its result. -/
def xfDone (s : State) (flashErr : Bool) : State :=
  match s.nv.xf with
  | none => s
  | some j =>
    let s := { s with nv.xf := none }
    let s := if j.result != 0 then s else if flashErr then xfTorn s j else xfApply s j
    let s := wr s F.NVM_XF_STAT_result (if j.result != 0 then j.result else if flashErr then 2 else 0)
    wrB s F.NVM_XF_STAT_busy (!s.nv.xfHeld.isEmpty)

/-! Meanings -/


def execNvmGroupProgrammed (s : State) : Host.Outcome State Fault Refusal := .next (nvmGroupProgrammed s)
def execNvmScrubPage (weak unc : BitVec 8) (s : State) : Host.Outcome State Fault Refusal := .next (nvmScrubPage s weak unc)

end Sys2Proof.Machine
end

