-- ==== Sys2Proof/Machine/Evt.lean ====
section
/-!
DEFINITION. The event controller (spec/14_host_events.md): commit, event ring, trace ring, NVM log, masks, priority stack, alarms
and level sources, Squall, fences.
-/

namespace Sys2Proof.Machine

/-! Records (R447) -/

/-- Priority of a class (Table 14.4). -/
def prioOf (s : State) (cls : Nat) : Nat :=
  match cls with
  | 0 => rd s F.EVT_PRIO_info
  | 1 => rd s F.EVT_PRIO_warning
  | 2 => rd s F.EVT_PRIO_error
  | 6 => rd s F.EVT_PRIO_summary
  | _ => 15

/-- This device is a worker of a wall (R21). -/
def isWorker (s : State) : Bool := on s F.ORL_CFG_en && on s F.ORL_CFG_role

/-- This device is the manager of a wall. -/
def isManager (s : State) : Bool := on s F.ORL_CFG_en && !on s F.ORL_CFG_role

/-- The origin field of the device's own records (Table 14.3). -/
def ownOrigin (s : State) : Nat := if isWorker s then rd s F.ORL_CFG_pos else 0

/-- The number of a true flag. -/
def b2n (b : Bool) : Nat := if b then 1 else 0

/-- The 32 bytes of a record (Table 14.3); `undel` marks trace and log copies of a masked record. -/
def recBytes (r : Rec) (seq prio : Nat) (mac fwd undel : Bool) (origin : Nat) : List Byte :=
  let w := b2n r.level + 2 * b2n mac + 4 * b2n r.rpt + 8 * b2n fwd + 16 * b2n r.alarm + 32 * b2n undel
    + prio * 2 ^ 12 + r.cls * 2 ^ 16 + r.src * 2 ^ 20
  leBytes seq 4 ++ leBytes w 4 ++ leBytes r.tick 8 ++ r.pay ++ leBytes origin 1 ++ leBytes r.pic 3

/-- Index of a class in a gap record's counts: classes 0 to 4, then 6 (R451). A gap record has no count for class 5: a forwarded gap record that
is lost counts with class 4 (DESIGN CHOICE, log entry 22). -/
def gapIdx (cls : Nat) : Nat := if cls = 6 then 5 else min cls 4

/-- Count a lost record by class, saturating at 0xFFFF. -/
def addLoss (l : List Nat) (cls : Nat) : List Nat := l.modify (gapIdx cls) (fun x => min 0xFFFF (x + 1))

/-- A gap record of a ring's losses (R450, R451). -/
def gapBytes (s : State) (loss : List Nat) (seq : Nat) : List Byte :=
  recBytes { tick := s.tick, src := srcOf blkEVT 0, cls := clsGap, alarm := false, level := false, rpt := false,
             pay := loss.flatMap (fun n => leBytes n 2), pic := s.tmb.pic.getD 0 } seq 15 false false false (ownOrigin s)

def noLoss : List Nat := [0, 0, 0, 0, 0, 0]

/-! MSI-X (R455) -/

/-- The vector is masked under PCIe rules: its mask bit or the function mask. -/
def msixMasked (s : State) : Bool := rd s (F.GEN_MSIX_TABLE_word 3) % 2 == 1 || s.host.msixMask

/-- Send the message: a write of the table's data to its address, counted. -/
def msixEmit (s : State) : State :=
  let s := hostWr s (rd s (F.GEN_MSIX_TABLE_word 0) + 2 ^ 32 * rd s (F.GEN_MSIX_TABLE_word 1))
    (leBytes (rd s (F.GEN_MSIX_TABLE_word 2)) 4)
  { s with evt.msiSent := s.evt.msiSent + 1 }

/-- A message is due: sent, or held in the PBA while masked (R455). -/
def msixSend (s : State) : State :=
  let s := { s with evt.msiAt := some s.tick }
  if msixMasked s then wrB s F.GEN_MSIX_PBA_pending true else msixEmit s

/-- MSIX_UNMASK: a held message is sent on unmask (R455). -/
def msixUnmask (s : State) : State :=
  let s := { s with host.msixMask := false }
  let w3 := F.GEN_MSIX_TABLE_word 3
  let s := wr s w3 (rd s w3 / 2 * 2)
  if on s F.GEN_MSIX_PBA_pending then msixEmit (wrB s F.GEN_MSIX_PBA_pending false) else s

/-! Event ring (R453, R454) -/

/-- Records the ring holds. -/
def ringN (s : State) : Nat := 2 ^ (rd s F.EVT_RING_CFG_log2sz - 5)

/-- The unread count u. -/
def ringU (s : State) : Nat := (rd s F.EVT_PROD_index + 2 ^ 32 - rd s F.EVT_CONS_index) % 2 ^ 32

/-- The ring cannot be written: host memory with Bus Master Enable 0 counts as full (R442). -/
def ringBarred (s : State) : Bool := !on s F.EVT_RING_CFG_space && !s.host.busMaster

/-- EVT.STATUS.full follows u ≥ n − 1. -/
def ringStatus (s : State) : State := wrB s F.EVT_STATUS_full (decide (ringN s - 1 ≤ ringU s))

/-- Put 32 bytes into the slot of EVT.PROD and advance it; the message follows while armed (R453, R455). -/
def ringPut (s : State) (bs : List Byte) : State :=
  let p := rd s F.EVT_PROD_index
  let a := 32 * (p % ringN s)
  let lo := rd s F.EVT_RING_LO_addr * 4096
  let s := if on s F.EVT_RING_CFG_space then lstKeep s (lo + a) bs
    else hostWr s (lo + 2 ^ 32 * rd s F.EVT_RING_HI_addr + a) bs
  let s := wr s F.EVT_PROD_index (p + 1)
  let pa := rd s F.EVT_PROD_ADDR_LO_addr * 4 + 2 ^ 32 * rd s F.EVT_PROD_ADDR_HI_addr
  let s := if pa = 0 then s else hostWr s pa (leBytes (p + 1) 4)
  if on s F.EVT_STATUS_armed then msixSend (wrB s F.EVT_STATUS_armed false) else s

/-- The ring has losses that no gap record has reported. -/
def ringLost (s : State) : Bool := !s.evt.ringLoss.all (fun n => n = 0)

/-- The gap record due is a barrier that waits for held records which come before it (R457). -/
def gapWaits (s : State) : Bool := ringLost s && s.evt.gapBehind != 0

/-- While losses are counted and u < n, a gap record goes before any later record (R454), once every record before it is written or lost
(R457). -/
def ringGap (s : State) : State :=
  if !ringLost s || !on s F.EVT_RING_CFG_en || ringBarred s || ringN s ≤ ringU s || s.evt.gapBehind != 0 then s
  else ringPut { s with evt.ringLoss := noLoss } (gapBytes s s.evt.ringLoss s.evt.ringLostSeq)

/-- A record lost before the event ring, behind `k` held ones, is counted by class and in EVT.DROP.ring (R454). -/
def ringLose (s : State) (cls seq k : Nat) : State :=
  bump { s with evt := { s.evt with ringLoss := addLoss s.evt.ringLoss cls, ringLostSeq := seq
                                    gapBehind := if ringLost s then max s.evt.gapBehind k else k } } F.EVT_DROP_ring

/-- A record due to be written, behind `k` held ones: written, or lost while u ≥ n − 1 (R454). -/
def ringWrite (s : State) (h : Held) (k : Nat) : State :=
  if !on s F.EVT_RING_CFG_en then s else
  let s := ringGap s
  let s := if h.cls != clsGap && (ringBarred s || ringN s - 1 ≤ ringU s) then ringGap (ringLose s h.cls h.seq k)
    else if h.cls == clsGap && (ringBarred s || ringN s ≤ ringU s) then ringLose s h.cls h.seq k
    else ringPut s h.bytes
  ringStatus s

/-! Priority stack (R457, R459, R460) -/

/-- Fences and gaps are barriers (R457). -/
def isBarrier (cls : Nat) : Bool := cls == clsFence || cls == clsGap

/-- Records of this priority are written when due: the stack is empty or frozen, or the top priority is lower (R459, R460). -/
def stackOpen (s : State) (prio : Nat) : Bool :=
  on s F.EVT_STACK_frozen || (match s.evt.stack with | [] => true | (_, p) :: _ => decide (p < prio))

/-- The first held record that now qualifies, from index `i` on: a barrier only at the head; nothing passes a barrier, nor the gap record due
(R457, R459). -/
def nextHeld (s : State) : Nat → List Held → Option (Nat × Held)
  | _, [] => none
  | i, h :: r =>
    if isBarrier h.cls then (if i = 0 then some (0, h) else none)
    else if stackOpen s h.prio && !(gapWaits s && decide (s.evt.gapBehind ≤ i)) then some (i, h)
    else nextHeld s (i + 1) r

/-- Write held record `i`; where it came before the gap record due, one fewer does. -/
def writeHeld (s : State) (i : Nat) (h : Held) : State :=
  let t := ringWrite { s with evt.held := s.evt.held.eraseIdx i } h i
  { t with evt.gapBehind := if i < s.evt.gapBehind then t.evt.gapBehind - 1 else t.evt.gapBehind }

/-- Write the held records that now qualify, in commit order (R457, R459). -/
def drainHeld : Nat → State → State
  | 0, s => s
  | n + 1, s =>
    match nextHeld s 0 s.evt.held with
    | some (i, h) => drainHeld n (writeHeld s i h)
    | none => s

/-- Look at every held record again. -/
def releaseHeld (s : State) : State :=
  let s := drainHeld s.evt.held.length s
  if ringLost s then ringStatus (ringGap s) else s

/-- A record for the event ring: written, or held behind the stack, a held barrier or the gap record due (R457, R459). -/
def ringDeliver (s : State) (h : Held) : State :=
  let k := s.evt.held.length
  let wait := s.evt.held.any (fun x => isBarrier x.cls) || gapWaits s
  if !wait && (if isBarrier h.cls then s.evt.held.isEmpty else stackOpen s h.prio) then ringWrite s h k
  else { s with evt.held := s.evt.held ++ [h] }

/-- The staging store's size (R459). -/
def stagingSize : Nat := 1024

/-- EVT.STACK shows the stack. -/
def stackStatus (s : State) : State :=
  let t := s.evt.stack.headD (0, 0)
  wr (wr (wr s F.EVT_STACK_depth s.evt.stack.length) F.EVT_STACK_top_src t.1) F.EVT_STACK_top_prio t.2

/-- Stack corruption: frozen, alarm STACK and a fatal record naming the written source and the top pair (R460). Frozen, every
record is written when due. -/
def stackCorrupt (s : State) (src : Nat) : State :=
  let t := s.evt.stack.headD (0, 0)
  let s := alarmSet (wrB s F.EVT_STACK_frozen true) almSTACK
  releaseHeld (post s clsFatal blkEVT 0 F.EVT_STACK_frozen [(src, 2), (t.1, 2), (t.2, 1)])

/-- EVT_CLAIM (R459, R460). -/
def evtClaim (s : State) (src : BitVec 12) (prio : BitVec 4) : State :=
  if on s F.EVT_STACK_frozen then bump s F.EVT_CNT_ERR_stack
  else if 16 ≤ s.evt.stack.length then stackCorrupt s src.toNat
  else stackStatus { s with evt.stack := (src.toNat, prio.toNat) :: s.evt.stack }

/-! Level sources (R463) -/

/-- An alarm's condition still holds; for bits 0, 3, 4 and 10 it is the sticky event itself (R464). -/
def alarmHolds (s : State) (b : Nat) : Bool :=
  match b with
  | 1 => on s F.EVT_STACK_frozen
  | 2 => psqState s == 8
  | 5 => rd s F.TMB_STATUS_state == 3 && s.tmb.held60
  | 6 => rd s F.NVM_BOOT_STAT_state == 2
  | 7 => decide ((110 * 16 : Int) ≤ rdS s F.PPX_TEMP_die)
  | 8 => on s F.ORL_STATUS_pic_mis
  | 9 => on s F.ORL_STATUS_brk
  | _ => bitOf s F.EVT_ALARM_alarm b

/-- The alarms whose condition holds by itself, so that a write cannot clear them (R464). -/
def alarmsHeld (s : State) : Nat :=
  ([1, 2, 5, 6, 7, 8, 9] : List Nat).foldl (fun a b => if alarmHolds s b then a + 2 ^ b else a) 0

/-- The record of the PMB_ALERT_N level (R341, R463). -/
def pmbAlertRec (s : State) (rpt : Bool) : Rec :=
  { tick := s.tick, src := srcOf blkPSQ 0, cls := clsWarning, alarm := false, level := true, rpt := rpt,
    pay := ordPay F.PSQ_STATUS_alert [], pic := s.tmb.pic.getD 0 }

/-- On the pop of a level source its level is sampled and, still asserted, a repeat record is committed (R463). -/
def levelResample (s : State) (src : Nat) : State :=
  let s := (List.range 11).foldl (fun s b =>
    if srcOf (alarmBlk b) 0 = src && bitOf s F.EVT_ALARM_alarm b && alarmHolds s b then postRec s (alarmRec s b true) else s) s
  if src = srcOf blkPSQ 0 && decide (s.tick < s.psq.alertTo) then postRec s (pmbAlertRec s true) else s

/-- EVT_COMPLETE (R459, R460, R463). -/
def evtComplete (s : State) (src : BitVec 12) : State :=
  if on s F.EVT_STACK_frozen then bump s F.EVT_CNT_ERR_stack
  else match s.evt.stack with
    | (t, _) :: r =>
      if t = src.toNat then
        let s := stackStatus { s with evt.stack := r }
        levelResample (releaseHeld s) src.toNat
      else stackCorrupt s src.toNat
    | [] => stackCorrupt s src.toNat

/-- EVT_STK_INIT empties the stack and clears frozen (R460). -/
def evtStkInit (s : State) : State :=
  releaseHeld (stackStatus (wrB { s with evt.stack := [] } F.EVT_STACK_frozen false))

/-! Trace ring (R468) -/

/-- Put an entry into the trace ring; EVT.TRC_WR counts it once complete. -/
def trcPut (s : State) (bs : List Byte) : State :=
  let k := rd s F.EVT_TRC_WR_count
  let m := 2 ^ (rd s F.EVT_TRC_CFG_log2sz - 5)
  let base := rd s F.EVT_TRC_LO_addr * 4096 + 2 ^ 32 * rd s F.EVT_TRC_HI_addr
  wr (gddrWr s 7 (base + 32 * (k % m)) bs) F.EVT_TRC_WR_count (k + 1)

/-- Write a record to the trace ring, a gap record of its losses first (R468). -/
def trcWrite (s : State) (bs : List Byte) : State :=
  if !on s F.EVT_TRC_CFG_en then s else
  let s := if s.evt.trcLoss.all (fun n => n = 0) then s
    else trcPut { s with evt.trcLoss := noLoss } (gapBytes s s.evt.trcLoss s.evt.trcLostSeq)
  trcPut s bs

/-- A record lost before the trace ring. -/
def trcLose (s : State) (cls seq : Nat) : State :=
  if !on s F.EVT_TRC_CFG_en then s else
  bump { s with evt := { s.evt with trcLoss := addLoss s.evt.trcLoss cls, trcLostSeq := seq } } F.EVT_DROP_trace

/-! NVM log (R470) -/

/-- Ticks of the log's rate limit. -/
def logSpan : Nat := 15000000000

/-- Log an own record whose class is selected, at most one per class in a window (R470). -/
def nvmLog (s : State) (cls tick : Nat) (bs : List Byte) : State :=
  if !on s F.EVT_LOG_CFG_en || !bitOf s F.EVT_LOG_CFG_classes cls then s else
  let w := s.evt.logs.getD cls ⟨none, 0⟩
  let open_ := match w.start with | some t => decide (tick < t + logSpan) | none => false
  if open_ then
    bump { s with evt.logs := s.evt.logs.set cls { w with suppressed := w.suppressed + 1 } } F.EVT_CNT_LOGSUP_records
  else
    let s := { s with evt.logs := s.evt.logs.set cls { start := some tick, suppressed := 0 } }
    ringAppend s logRing (bs ++ leBytes (min w.suppressed 0xFFFFFFFF) 4) 36

/-! Orsal forwarding (R372) -/

/-- A worker's committed record joins the forward queue, or is counted as not forwarded (R372). -/
def evtForward (s : State) (cls : Nat) (bs : List Byte) : State :=
  if isWorker s && (bitOf s F.ORL_EVT_CFG_classes cls || cls == clsFence) then
    if s.evt.fwdQ.length < 64 then { s with evt.fwdQ := s.evt.fwdQ ++ [bs] }
    else bump { s with evt.fwdDrop := s.evt.fwdDrop.modify cls (· + 1) } F.ORL_CNT_EVT_dropped
  else s

/-! Masks (R461) -/

/-- (masked, mac) of a record of mask bit b that commits at a tick, under the mask of that tick. Writes of the mask in that very tick deliver it,
with mac where any value of the tick has the bit. -/
def maskOf (s : State) (b tick : Nat) (exempt : Bool) : Bool × Bool :=
  if exempt then (false, false) else
  let after := match s.evt.maskLog.find? (fun e => decide (tick < e.1)) with | some e => e.2 | none => rd s F.EVT_MASK_mask
  let new := after / 2 ^ b % 2 == 1
  match s.evt.maskLog.filter (fun e => e.1 = tick) with
  | [] => (new, new)
  | l => (false, new || l.any (fun e => e.2 / 2 ^ b % 2 == 1))

/-- A write of EVT.MASK is remembered for the records that are yet to commit. -/
def maskNote (s : State) (old : Nat) : State :=
  let from_ := match s.evt.posted with | r :: _ => min r.tick s.tick | [] => s.tick
  { s with evt := { s.evt with maskLog := s.evt.maskLog.filter (fun e => decide (from_ ≤ e.1)) ++ [(s.tick, old)] } }

/-! Commit (R450, R452) -/

/-- Give a record its seq and send it to its destinations (R450, R452, R461, R462). -/
def commitOwn (s : State) (r : Rec) : State :=
  let seq := s.evt.seq
  let s := { s with evt.seq := (seq + 1) % 2 ^ 32 }
  let prio := prioOf s r.cls
  let m := maskOf s (r.src / 64) r.tick (r.alarm || isBarrier r.cls)
  let org := ownOrigin s
  let copy := recBytes r seq prio m.2 false m.1 org
  let full := decide (stagingSize ≤ s.evt.held.length)
  let s := if full then trcLose s r.cls seq else trcWrite s copy
  let s := if m.1 then
      wr (hwSet s F.EVT_PEND_pend (r.src / 64)) F.EVT_PEND_SEQ_seq seq
    else if full && on s F.EVT_RING_CFG_en then ringLose s r.cls seq s.evt.held.length
    else if on s F.EVT_RING_CFG_en then
      ringDeliver s { bytes := recBytes r seq prio m.2 false false org, prio := prio, cls := r.cls, seq := seq }
    else s
  let s := nvmLog s r.cls r.tick copy
  evtForward s r.cls (recBytes r seq prio m.2 false false org)

/-- A record forwarded by a worker commits on the manager (R471): every field kept, fwd set, origin the worker's position; bit 17 of the mask is its
own (R461). -/
def commitFwd (s : State) (r : Rec) (bs : List Byte) : State :=
  let seq := leAt bs 0 4
  let m := maskOf s 17 r.tick (r.alarm || isBarrier r.cls)
  let flag := fun (bs : List Byte) (b : Bool) (x : Byte) => if b then bs.set 4 (bs.getD 4 0#8 ||| x) else bs
  let bs := flag bs m.2 2#8
  let full := decide (stagingSize ≤ s.evt.held.length)
  let s := if full then trcLose s r.cls seq else trcWrite s (flag bs m.1 0x20#8)
  if m.1 then wr (hwSet s F.EVT_PEND_pend 17) F.EVT_PEND_SEQ_seq seq
  else if !on s F.EVT_RING_CFG_en then s
  else if full then ringLose s r.cls seq s.evt.held.length
  else ringDeliver s { bytes := bs, prio := bits (leAt bs 4 4) 15 12, cls := r.cls, seq := seq }

/-! Squall (R466, R467) -/

/-- EVT.SQUALL_STAT and EVT.STATUS.squall follow the windows (R467). -/
def squallStatus (s : State) : State :=
  let n := (s.evt.windows.filter (fun w => w.squall)).length
  wrB (wr s F.EVT_SQUALL_STAT_sources n) F.EVT_STATUS_squall (n != 0)

/-- The window length W in ticks. -/
def squallW (s : State) : Nat := rd s F.EVT_SQUALL_w_ms * Config.tickMs

/-- A window of a source ends: a summary and a new window when records were coalesced, else the window closes, ending Squall
where the source was in it (R466). -/
def endWindow (s : State) (w : SqWin) : State :=
  let rest := s.evt.windows.filter (fun x => x.src != w.src)
  let e := w.start + squallW s
  if w.coal = 0 then
    let s := squallStatus { s with evt.windows := rest }
    if w.squall then info s blkEVT 0 F.EVT_SQUALL_STAT_sources else s
  else
    let nw : SqWin := { src := w.src, start := e, count := 0, coal := 0, first := [], firstTick := 0, squall := true }
    let s := { s with evt.windows := nw :: rest }
    let s := if w.squall then s else wr s F.EVT_SQUALL_STAT_last w.src
    let r : Rec := { tick := e, src := w.src, cls := clsSummary, alarm := false, level := false, rpt := false,
                     pay := leBytes w.coal 4 ++ w.first ++ leBytes w.firstTick 4, pic := s.tmb.pic.getD 0 }
    squallStatus (commitOwn s r)

/-- End every window of a source that has run out by a tick; a record at the very tick opens the next one (R43, R467). -/
def expireWindows : Nat → Nat → Nat → State → State
  | 0, _, _, s => s
  | n + 1, src, t, s =>
    match s.evt.windows.find? (fun w => w.src = src) with
    | some w => if w.start + squallW s ≤ t then expireWindows n src t (endWindow s w) else s
    | none => s

/-- Fatal, fence, gap and summary records are never coalesced (R466). -/
def neverCoalesced (cls : Nat) : Bool := cls == clsFatal || cls == clsFence || cls == clsGap || cls == clsSummary

/-- A record commits, or is coalesced into its source's window (R450, R466). Every own record opens a window or counts in the one that is open, but
the summary that ends one (DEDUCED, log entry 22). -/
def commitRec (s : State) (r : Rec) : State :=
  match r.fwd with
  | some bs => commitFwd s r bs
  | none =>
  let s := expireWindows 3 r.src r.tick s
  match s.evt.windows.find? (fun w => w.src = r.src) with
  | none =>
    commitOwn { s with evt.windows := { src := r.src, start := r.tick, count := 1, coal := 0, first := [], firstTick := 0,
                                        squall := false } :: s.evt.windows } r
  | some w =>
    let rest := s.evt.windows.filter (fun x => x.src != r.src)
    if neverCoalesced r.cls || decide (w.count < rd s F.EVT_SQUALL_n) then commitOwn { s with evt.windows := { w with count := w.count + 1 } :: rest } r
    else
      let w' := if w.coal = 0 then { w with coal := 1, first := r.pay.take 4, firstTick := r.tick } else { w with coal := w.coal + 1 }
      bump { s with evt.windows := w' :: rest } F.EVT_CNT_COAL_records

/-- The posted record at the head commits at the tick of its posting (R450): what it sets and counts belongs to that tick. -/
def commitHead (s : State) : State :=
  match s.evt.posted with
  | [] => s
  | r :: l =>
    let t := commitRec { s with evt.posted := l, tick := r.tick } r
    { t with tick := s.tick, now := if r.tick = s.tick then t.now else s.now }

/-- EVENT_RECORD_COMMIT: the event controller accepts the record at the head of the posted records. The records of a tick are accepted once the
tick is over, when their order by source is known (R450; DESIGN CHOICE, log entry 12). -/
def eventCommit (s : State) : State :=
  match s.evt.posted with
  | [] => s
  | r :: _ => reach (commitHead s) (r.tick + 1)

/-- The posted records that come before a window end of a source at a tick commit first (R450, R467). -/
def commitBefore (s : State) (src t : Nat) : State :=
  (s.evt.posted.takeWhile (fun r => decide (r.tick < t) || (r.tick == t && decide (r.src < src)))).foldl (fun s _ => commitHead s) s

/-- SQUALL_WINDOW_END of a source: its window ends at its start + W, behind the records that commit before its summary. -/
def squallWindowEnd (s : State) (src : BitVec 12) : State :=
  match s.evt.windows.find? (fun w => w.src = src.toNat) with
  | some w =>
    let e := w.start + squallW s
    let s := commitBefore (reach s e) src.toNat e
    (match s.evt.windows.find? (fun w => w.src = src.toNat) with
     | some w => if w.start + squallW s ≤ e then (let t := endWindow { s with tick := e } w
         { t with tick := s.tick, now := if e = s.tick then t.now else s.now }) else s
     | none => s)
  | none => s

/-! Host commands -/

/-- GEN_FENCE_WRITE (R456): the token in effect changes and the fence record follows every record of its tick. -/
def genFence (s : State) (tok : Word) : State :=
  let old := rd s F.GEN_FENCE_token
  let s := if s.blq.fenceAt == some s.tick then s else { s with blq := { s.blq with fenceAt := some s.tick, fenceOld := old } }
  postRec (wr s F.GEN_FENCE_token tok.toNat)
    { tick := s.tick, src := srcOf blkGEN 0, cls := clsFence, alarm := false, level := false, rpt := false,
      pay := leBytes tok.toNat 4 ++ leBytes old 4 ++ leBytes 0 4, pic := s.tmb.pic.getD 0 }

/-- EVT_CONS_WRITE (R453, R455, R472): ignored where it would set u above n; else it frees slots, lets a gap record in, and arms
the vector, sending at once when records remain, unless EVT.PROD's advance has sent a message in this tick. -/
def evtConsWrite (s : State) (v : Word) : State :=
  if ringN s < (rd s F.EVT_PROD_index + 2 ^ 32 - v.toNat) % 2 ^ 32 then bump s F.EVT_CNT_ERR_cons
  else
    let s := wrB (wr s F.EVT_CONS_index v.toNat) F.EVT_STATUS_armed false
    let s := ringGap s
    let s := if ringU s = 0 then wrB s F.EVT_STATUS_armed true else if s.evt.msiAt = some s.tick then s else msixSend s
    ringStatus s

/-- TRC_LOAD: a trace entry is loaded into EVT.TRC_DATA0–7; a poisoned entry, and one beyond the usable capacity (R391), reads as a gap record
with all counts 0 (R469). -/
def trcLoad (s : State) (k : Word) : State :=
  let s := wr s F.EVT_TRC_IDX_index k.toNat
  let m := 2 ^ (rd s F.EVT_TRC_CFG_log2sz - 5)
  let a := rd s F.EVT_TRC_LO_addr * 4096 + 2 ^ 32 * rd s F.EVT_TRC_HI_addr + 32 * (k.toNat % m)
  let beyond := decide (memCap s < a + 32)
  let s := memReach s 7 a 32
  let bs := if beyond || sget false s.mem.gpoison (a / 64) || sget false s.mem.spent (16 * (a / 64) + 7) then
      leBytes 0 4 ++ leBytes (15 * 2 ^ 12 + clsGap * 2 ^ 16 + srcOf blkEVT 0 * 2 ^ 20) 4 ++ List.replicate 24 0#8
    else gddrRd s a 32
  (List.range 8).foldl (fun s i => wr s (F.EVT_TRC_DATA_data i) (leAt bs (4 * i) 4)) s

/-- EVT_CLR_CNT (R475). -/
def evtClrCnt (s : State) : State :=
  clearRegs s [F.EVT_DROP.off, F.EVT_CNT_COAL.off, F.EVT_CNT_LOGSUP.off, F.EVT_CNT_ERR.off]

end Sys2Proof.Machine
end

