-- ==== Sys2Proof/Machine/Blq.lean ====
section
/-!
DEFINITION. Surfaces and block queues (spec/04_ingest_block_queues.md, R109 to R132): descriptors, plane block addresses, queue
order, replacement, completion, resolution, and host submissions.
-/

namespace Sys2Proof.Machine

/-! Geometry -/

/-- Active width and height in pixels (R174). -/
def panelW (s : State) : Nat := rd s F.SCN_ACTIVE_width_m1 + 1
def panelH (s : State) : Nat := rd s F.SCN_ACTIVE_height_m1 + 1

/-- Blocks across and down. -/
def blocksOf (n : Nat) : Nat := (n + 31) / 32
def panelBW (s : State) : Nat := blocksOf (panelW s)
def panelBH (s : State) : Nat := blocksOf (panelH s)

/-- Key of a block. -/
def blkKey (bx by_ : Nat) : Nat := 256 * by_ + bx

/-! Surfaces (R109 to R112) -/

/-- A surface descriptor (Table 4.7). -/
structure Surf where
  base : Nat
  w : Nat
  h : Nat
  depth : Nat
  sub : Nat
  model : Nat
  matrix : Nat
  transfer : Nat
  full : Bool
  prim : Nat
  prot : Bool
  valid : Bool
  owner : Nat
  deriving DecidableEq, Repr

/-- Local-store offset of descriptor i. -/
def surfOff (s : State) (i : Nat) : Nat := rd s F.BLQ_SURF_BASE_offset + 32 * i

/-- Decode a descriptor's bytes. -/
def surfOf (b : List Byte) : Surf :=
  let f := leAt b 12 1
  let c := leAt b 13 1
  let v := leAt b 14 1
  { base := leAt b 0 5, w := leAt b 8 2 % 8192 + 1, h := leAt b 10 2 % 8192 + 1, depth := f / 16 % 4, sub := f / 4 % 4,
    model := f % 4, matrix := c / 64, transfer := c / 16 % 4, full := c / 8 % 2 == 1, prim := c / 4 % 2,
    prot := v / 2 % 2 == 1, valid := v % 2 == 1, owner := leAt b 15 1 % 16 }

/-- Surface i of the table. A descriptor with an uncorrectable word is a failed read: no valid surface (R403; DESIGN CHOICE, log entry 73). -/
def surf (s : State) (i : Nat) : Surf :=
  surfOf (if wordsPoisoned s (surfOff s i) 32 then List.replicate 32 0#8 else lstRd s (surfOff s i) 32)

/-- Horizontal and vertical subsampling of plane p (R110). -/
def planeSub (u : Surf) (p : Nat) : Nat × Nat :=
  if u.model = 0 && (p = 1 || p = 2) then (if u.sub = 1 then (2, 1) else if u.sub = 2 then (2, 2) else (1, 1)) else (1, 1)

/-- Planes of a surface model (Table 4.5). -/
def planeCount (u : Surf) : Nat := match u.model with | 0 => 3 | 1 => 3 | 2 => 4 | _ => 1

/-- Width and height of plane p. -/
def planeDim (u : Surf) (p : Nat) : Nat × Nat :=
  let q := planeSub u p
  ((u.w + q.1 - 1) / q.1, (u.h + q.2 - 1) / q.2)

/-- Allocation of a plane block of the surface. -/
def surfAlloc (u : Surf) : Nat := allocLen (depthBits u.depth)

/-- Bytes of plane p. -/
def planeBytes (u : Surf) (p : Nat) : Nat :=
  let d := planeDim u p
  blocksOf d.1 * blocksOf d.2 * surfAlloc u

/-- Start of plane p (R110). -/
def planeStart (u : Surf) (p : Nat) : Nat := (List.range p).foldl (fun a q => a + planeBytes u q) u.base

/-- Address of plane block (i, j) of plane p (R110). -/
def planeBlockAddr (u : Surf) (p i j : Nat) : Nat := planeStart u p + (j * blocksOf (planeDim u p).1 + i) * surfAlloc u

/-- Bytes of the whole surface. -/
def surfBytes (u : Surf) : Nat := (List.range (planeCount u)).foldl (fun a q => a + planeBytes u q) 0

/-! Tokens (R123, R125) -/

/-- Token a is later than b (R125). -/
def later (a b : Nat) : Bool :=
  let d := (a + 2 ^ 32 - b % 2 ^ 32) % 2 ^ 32
  1 ≤ d && d ≤ 2 ^ 31 - 1

/-- Token a is earlier than b. -/
def earlier (a b : Nat) : Bool := later b a

/-- The token in effect for a submission of this tick: a write of GEN.FENCE in the same tick does not count (R132). -/
def fenceToken (s : State) : Nat := if s.blq.fenceAt == some s.tick then s.blq.fenceOld else rd s F.GEN_FENCE_token

/-- The token of an own submission of a source, never earlier than its previous one (Table 4.9). -/
def ownToken (s : State) (src : Nat) : Nat × State :=
  let t := fenceToken s
  let t := match s.blq.lastTok.getD src none with | some l => if earlier t l then l else t | none => t
  (t, { s with blq.lastTok := s.blq.lastTok.set src (some t) })

/-! Queues (R126, R130) -/

/-- Pending entries of a block. -/
def queueOf (s : State) (k : Nat) : List QEntry := sget [] s.blq.queues k

/-- Replace a block's queue. -/
def setQueue (s : State) (k : Nat) (q : List QEntry) : State := { s with blq.queues := sset [] s.blq.queues k q }

/-- Place an entry immediately before the first pending entry with a later token; entries accepted in the same tick with the same
token go in ascending source code (R126, R132). -/
def placeEntry (e : QEntry) : List QEntry → List QEntry
  | [] => [e]
  | x :: l =>
    if later x.token e.token || (x.accAt = e.accAt && x.token = e.token && e.source < x.source) then e :: x :: l
    else x :: placeEntry e l

/-- The most entries a queue holds (R121). -/
def queueMax : Nat := 4

/-- The drop counter of a source (Table 4.14). -/
def dropFld : Nat → Fld
  | 0 => F.BLQ_DROP0_src0 | 1 => F.BLQ_DROP0_src1 | 2 => F.BLQ_DROP1_src2 | 3 => F.BLQ_DROP1_src3
  | 4 => F.BLQ_DROP2_src4 | 5 => F.BLQ_DROP2_src5 | 6 => F.BLQ_DROP3_src6 | _ => F.BLQ_DROP3_src7

/-- An input beside its registers. -/
def inp (s : State) (n : Nat) : Inp := sget Inp.reset s.ing.inputs n

/-- Count a removed or discarded entry, and the picture of an input once (ING.INn_CNT.replaced). -/
def countDrop (s : State) (e : QEntry) : State :=
  let s := bump s (dropFld e.source)
  if 5 ≤ e.source then s else
  let i := inp s e.source
  if i.replaced.contains e.seq then s
  else
    let live := fun (q : Nat) => i.pic.any (fun p => p.seq = q) || s.blq.queues.any (fun l => l.2.any (fun x => x.source = e.source && x.seq = q))
    bump { s with ing.inputs := sset Inp.reset s.ing.inputs e.source { i with replaced := e.seq :: i.replaced.filter live } }
      (F.ING_IN_CNT_replaced e.source)

/-- The pending replaceable entry of the slot accepted last (R130). -/
def lastReplaceable (q : List QEntry) (slot : Nat) : Option QEntry :=
  q.foldl (fun b e => if e.repl && e.slot = slot then
      (match b with | some x => if x.accNo < e.accNo then some e else b | none => some e) else b) none

/-- Enqueue a replaceable entry: a full queue gives up its last replaceable entry of the slot, or the new entry is discarded
(R130). -/
def enqueueRepl (s : State) (k : Nat) (e : QEntry) : State :=
  let q := queueOf s k
  if q.length < queueMax then setQueue s k (placeEntry e q)
  else match lastReplaceable q e.slot with
    | some x => countDrop (setQueue s k (placeEntry e (q.filter (fun y => y.accNo != x.accNo)))) x
    | none => countDrop s e

/-- Enqueue an entry that is not replaceable; the caller has found room (R131). -/
def enqueueFirm (s : State) (k : Nat) (e : QEntry) : State := setQueue s k (placeEntry e (queueOf s k))

/-- Enqueue by the entry's kind. -/
def enqueue (s : State) (k : Nat) (e : QEntry) : State := if e.repl then enqueueRepl s k e else enqueueFirm s k e

/-- Take the next acceptance number. -/
def nextAcc (s : State) : Nat × State := (s.blq.accNo, { s with blq.accNo := s.blq.accNo + 1 })

/-- Take the next submission number. -/
def nextId (s : State) : Nat × State := (s.blq.nextId, { s with blq.nextId := s.blq.nextId + 1 })

/-! References (R113) -/

/-- Pending and current entries naming a surface. -/
def queueRefs (s : State) (f : Nat) : Nat :=
  s.blq.queues.foldl (fun a q => a + (q.2.filter (fun e => e.surface = f)).length) 0
  + s.blq.cur.foldl (fun a c => match c.2 with | some v => if v.surface = f then a + 1 else a | none => a) 0

/-- Writes in progress for entries that have left the queues: one for each submission of whose entries none is queued any more (DESIGN CHOICE, log
entry 76). -/
def writeRefs (s : State) (f : Nat) : Nat :=
  (s.blq.writes.filter (fun w => w.surface = f &&
    !s.blq.queues.any (fun q => q.2.any (fun e => e.id = w.id)))).length

/-! Writes and completion (R116, R129) -/

/-- Open a submission's writes. -/
def openWrites (s : State) (id f n : Nat) : State :=
  { s with blq.writes := s.blq.writes ++ [{ id := id, surface := f, left := n }] }

/-- One block of the submission has been written. -/
def blockWritten (s : State) (id : Nat) : State :=
  { s with blq.writes := s.blq.writes.map (fun w => if w.id = id then { w with left := w.left - 1 } else w) }

/-- ENTRY_COMPLETE: every block written, verified and acknowledged, the entries become complete and the write reference ends
(R116, R129). -/
def entryComplete (s : State) (id : Nat) : State :=
  match s.blq.writes.find? (fun w => w.id = id) with
  | some w =>
    if w.left != 0 then s else
    { s with blq := { s.blq with
        writes := s.blq.writes.filter (fun w => w.id != id)
        queues := s.blq.queues.map (fun q => (q.1, q.2.map (fun e => if e.id = id then { e with compAt := some s.tick } else e))) } }
  | none => s

/-- Withdraw a submission: its entries leave the queues; its surface reference ends when its writes do (R169, R378). -/
def withdraw (s : State) (id : Nat) : State :=
  let ks := s.blq.queues.filterMap (fun q => if q.2.any (fun e => e.id = id) then some q.1 else none)
  ks.foldl (fun s k => setQueue s k ((queueOf s k).filter (fun e => e.id != id))) s

/-- End a submission's writes, whatever is left of them. -/
def dropWrites (s : State) (id : Nat) : State := { s with blq.writes := s.blq.writes.filter (fun w => w.id != id) }

/-! Resolution (R127) -/

/-- An entry is a candidate at a refresh start. -/
def candidate (tick : Nat) (pos : Option (Nat × Nat)) (e : QEntry) : Bool :=
  e.accAt < tick && (match e.compAt with | some t => decide (t < tick) | none => false) &&
  (match e.apply, pos with
    | none, _ => true
    | some a, some p => decide (a.1 < p.1) || (a.1 = p.1 && decide (a.2 ≤ p.2))
    | some _, none => false)

/-- The last candidate of a slot in queue order. -/
def lastCandidate (tick : Nat) (pos : Option (Nat × Nat)) (slot : Nat) (q : List QEntry) : Option QEntry :=
  (q.filter (fun e => e.slot = slot && candidate tick pos e)).getLast?

/-- The version an entry names. -/
def QEntry.toCur (e : QEntry) : Cur := { source := e.source, surface := e.surface, seq := e.seq, si := e.si, sj := e.sj }

/-- Entries of the slot up to and including the new current leave the queue; later ones and other slots stay (R127). -/
def retireTo (slot accNo : Nat) : List QEntry → List QEntry
  | [] => []
  | e :: l =>
    if e.slot = slot then (if e.accNo = accNo then l else retireTo slot accNo l) else e :: retireTo slot accNo l

/-- Resolve one slot of one block. -/
def resolveSlot (tick : Nat) (pos : Option (Nat × Nat)) (k : Nat) (s : State) (slot : Nat) : State :=
  match lastCandidate tick pos slot (queueOf s k) with
  | some e =>
    let s := setQueue s k (retireTo slot e.accNo (queueOf s k))
    { s with blq.cur := sset none s.blq.cur (32 * k + slot) (some e.toCur) }
  | none => s

/-- Resolve every slot of every block at a refresh start (R127). -/
def resolveAll (s : State) (tick : Nat) (pos : Option (Nat × Nat)) : State :=
  (s.blq.queues.map (fun q => q.1)).foldl (fun s k => (List.range 21).foldl (resolveSlot tick pos k) s) s

/-- The current version of a block and slot. -/
def curOf (s : State) (k slot : Nat) : Option Cur := sget none s.blq.cur (32 * k + slot)

/-! Version descriptors (Table 4.8) -/

/-- A version descriptor's fields. -/
structure VerDesc where
  applyEn : Bool
  open_ : Bool
  repl : Bool
  slot : Nat
  surface : Nat
  seq : Nat
  token : Nat
  h : Nat
  w : Nat
  by0 : Nat
  bx0 : Nat
  pic : Nat
  phase : Nat
  sbx0 : Nat
  sby0 : Nat
  /-- some reserved field is not 0 -/
  rsv : Bool
  deriving DecidableEq, Repr

/-- Decode a version descriptor's eight words. -/
def verDesc (ws : List Nat) : VerDesc :=
  let w := fun i => ws.getD i 0
  { applyEn := bits (w 0) 30 30 == 1, open_ := bits (w 0) 29 29 == 1, repl := bits (w 0) 28 28 == 1, slot := bits (w 0) 20 16,
    surface := bits (w 0) 9 0, seq := w 1, token := w 2, h := bits (w 3) 31 24 + 1, w := bits (w 3) 23 16 + 1,
    by0 := bits (w 3) 15 8, bx0 := bits (w 3) 7 0, pic := w 4 + 2 ^ 32 * w 5, phase := w 6, sbx0 := bits (w 7) 7 0,
    sby0 := bits (w 7) 15 8,
    rsv := bits (w 0) 31 31 != 0 || bits (w 0) 23 21 != 0 || bits (w 0) 15 10 != 0 || bits (w 7) 31 16 != 0 }

/-- The panel blocks of a descriptor's rectangle, row by row. -/
def rectBlocks (v : VerDesc) : List (Nat × Nat) :=
  (List.range v.h).flatMap (fun j => (List.range v.w).map (fun i => (v.bx0 + i, v.by0 + j)))

/-- The INVALID causes every path shares: slot, surface, rectangle (Table 4.10). -/
def verInvalid (s : State) (v : VerDesc) : Bool :=
  let u := surf s v.surface
  20 ≤ v.slot || !u.valid || v.rsv
  || panelBW s < v.bx0 + v.w || panelBH s < v.by0 + v.h
  || blocksOf u.w < v.sbx0 + v.w || blocksOf u.h < v.sby0 + v.h

/-- The first block, row by row, whose queue is full (R124). -/
def firstFull (s : State) (v : VerDesc) : Option (Nat × Nat) :=
  (rectBlocks v).find? (fun b => queueMax ≤ (queueOf s (blkKey b.1 b.2)).length)

/-- Enqueue a version on every block of its rectangle at one accept tick (R124). -/
def acceptVersion (s : State) (v : VerDesc) (source id : Nat) (repl : Bool) (done : Bool) : State :=
  (rectBlocks v).foldl (fun s b =>
    let a := nextAcc s
    enqueue a.2 (blkKey b.1 b.2)
      { id := id, source := source, slot := v.slot, surface := v.surface, seq := v.seq, token := v.token, repl := repl,
        apply := if v.applyEn then some (v.pic, v.phase) else none, accAt := s.tick, accNo := a.1,
        compAt := if done then some s.tick else none, si := v.sbx0 + (b.1 - v.bx0), sj := v.sby0 + (b.2 - v.by0) }) s

/-- The result of a submission on a host path, in the order INVALID, ORDER, BUSY (Table 4.10). -/
def hostResult (s : State) (v : VerDesc) (openMustBe0 : Bool) : Nat :=
  if verInvalid s v || (openMustBe0 && v.open_) then 2
  else if s.blq.hostAcc && earlier v.token s.blq.hostLast then 3
  else if !v.repl && (firstFull s v).isSome then 1 else 0

/-- A host submission with the given result and, when accepted, its number (R124, R125, R131). -/
def hostSubmit (s : State) (v : VerDesc) (forJob : Bool) (blocks : Nat) : Nat × Nat × State :=
  match hostResult s v (!forJob) with
  | 0 =>
    let i := nextId s
    let s := wr { i.2 with blq := { i.2.blq with hostAcc := true, hostLast := v.token } } F.BLQ_SRC_LAST_token v.token
    let s := if forJob then openWrites s i.1 v.surface blocks else s
    (0, i.1, acceptVersion s v 5 i.1 v.repl (!forJob))
  | 1 =>
    let b := (firstFull s v).getD (0, 0)
    let s := if forJob then s else wr (wr s F.BLQ_SUB_STAT_busy_bx b.1) F.BLQ_SUB_STAT_busy_by b.2
    (1, 0, bump s F.BLQ_BUSY_CNT_host)
  | r => (r, 0, s)

/-- BLQ_SUB_GO (R124): the descriptor is taken and running reads 1; ignored while a submission runs. -/
def blqSubGo (s : State) : State :=
  match s.blq.sub with
  | some _ => s
  | none =>
    wrB { s with blq.sub := some ((List.range 8).map (fun k => rd s (F.BLQ_SUB_DESC_word k))) } F.BLQ_SUB_STAT_running true

/-- HOST_SUBMISSION_DONE (R124): the submission ends all-or-nothing at the accept tick. -/
def hostSubmissionDone (s : State) : State :=
  match s.blq.sub with
  | none => s
  | some ws =>
    let r := hostSubmit { s with blq.sub := none } (verDesc ws) false 0
    wrB (wr r.2.2 F.BLQ_SUB_STAT_result r.1) F.BLQ_SUB_STAT_running false

/-- BLQ.INSP_CUR as a read finds it (Table 4.14), with the seq of the version. -/
def inspCur (s : State) : State :=
  let k := blkKey (rd s F.BLQ_INSP_SEL_bx) (rd s F.BLQ_INSP_SEL_by)
  let s := wr s F.BLQ_INSP_CUR_pending (queueOf s k).length
  match curOf s k (rd s F.BLQ_INSP_SEL_slot) with
  | some c => wr (wr (wrB s F.BLQ_INSP_CUR_none false) F.BLQ_INSP_CUR_source c.source) F.BLQ_INSP_CUR_surface c.surface
  | none => wr (wr (wrB s F.BLQ_INSP_CUR_none true) F.BLQ_INSP_CUR_source 0) F.BLQ_INSP_CUR_surface 0

/-- BLQ_INSP_CUR_READ (R134): the read latches BLQ.INSP_SEQ from the same tick. With no current version the manual names no
sequence number: a free value (log entry 16). -/
def blqInspCurRead (s : State) : State :=
  let k := blkKey (rd s F.BLQ_INSP_SEL_bx) (rd s F.BLQ_INSP_SEL_by)
  let s := inspCur s
  let s := match curOf s k (rd s F.BLQ_INSP_SEL_slot) with
    | some c => wr s F.BLQ_INSP_SEQ_seq c.seq
    | none => let v := free s 6; wr v.2 F.BLQ_INSP_SEQ_seq v.1
  { s with host.readData := leBytes (rdW s F.BLQ_INSP_CUR.off).toNat 4, host.readEp := false }

/-- BLQ_CLR_CNT (R134). -/
def blqClrCnt (s : State) : State :=
  clearRegs s [F.BLQ_DROP0.off, F.BLQ_DROP1.off, F.BLQ_DROP2.off, F.BLQ_DROP3.off, F.BLQ_BUSY_CNT.off]

end Sys2Proof.Machine
end

