-- ==== Sys2Proof/Machine/Lanes.lean ====
section
/-!
DEFINITION. Codec lanes (spec/05_frame_codec.md, R154 to R160): waiting users, assignment at block boundaries, the outcome of a
compressed and of a decoded block. What each user does with its block stands with the user.
-/

namespace Sys2Proof.Machine

/-- Compress lanes that code blocks; 3 and 7 verify (R154). -/
def cmpLaneNos : List Nat := [0, 1, 2, 4, 5, 6]

/-- PD_CDC1's lanes are available (Table 5.14). -/
def cdc1On (s : State) : Bool := on s F.CDC_STATUS_cdc1_on

/-- PD_CDC0 is on (Table 16.1). -/
def cdc0On (s : State) : Bool := bitOf s F.PWR_DOM_ON_on 10

/-- Decode priority of a user (Table 5.8). -/
def decPrio : Nat → Nat
  | 0 => 1 | 1 => 2 | 3 => 3 | 5 => 4 | _ => 5

/-- Compress priority of a user (Table 5.8). -/
def cmpPrio : Nat → Nat
  | 0 => 1 | 2 => 2 | 4 => 3 | 5 => 4 | _ => 5

/-- Lanes user 6 holds. -/
def hostDecLanes (s : State) : Nat := (s.cdc.decLanes.filter (fun l => match l with | some r => r.user = 6 | none => false)).length
def hostCmpLanes (s : State) : Nat := (s.cdc.cmpLanes.filter (fun l => match l with | some r => r.user = 6 | none => false)).length

/-- The element of least key, the first among equals. -/
def minBy {α : Type} (key : α → Nat) : List α → Option α
  | [] => none
  | x :: l => match minBy key l with
    | some y => if key y < key x then some y else some x
    | none => some x

/-- Remove the first element equal to x. -/
def eraseOne {α : Type} [DecidableEq α] (x : α) : List α → List α
  | [] => []
  | y :: l => if y = x then l else y :: eraseOne x l

/-- Busy bits of CDC.STATUS. Bits 3 and 7 of cmp_busy, of the verify lanes, read 0: those lanes hold no block of their own (DESIGN CHOICE, log
entry 65). -/
def laneStatus (s : State) : State :=
  let m := fun (l : List Bool) => l.foldr (fun b a => 2 * a + b2n b) 0
  wr (wr s F.CDC_STATUS_dec_busy (m (s.cdc.decLanes.map (fun l => l.isSome))))
    F.CDC_STATUS_cmp_busy (m (s.cdc.cmpLanes.map (fun l => l.isSome)))

/-- Free decode lanes that may take a block. -/
def freeDec (s : State) : List Nat :=
  (List.range 16).filter (fun i => (s.cdc.decLanes.getD i none).isNone && (if i < 8 then cdc0On s else cdc1On s))

/-- Free compress lanes that may take a block. -/
def freeCmp (s : State) : List Nat :=
  cmpLaneNos.filter (fun i => (s.cdc.cmpLanes.getD i none).isNone && (if i < 4 then cdc0On s else cdc1On s))

/-- Assign free decode lanes to waiting users in priority and fetch-urgency order (R156, R157). The read of a block in GDDR6 waits in the
memory scheduler from then on (R399). -/
def assignDec : Nat → State → State
  | 0, s => s
  | n + 1, s =>
    match freeDec s with
    | [] => s
    | i :: _ =>
      let ok := s.cdc.decWait.filter (fun r => r.user != 6 || decide (hostDecLanes s < rd s F.CDC_CFG_host_dec))
      match minBy (fun r => 8 * decPrio r.user + (3 - r.urg)) ok with
      | none => s
      | some r =>
        let s := if r.bytes.isNone && !r.lst then { s with mem.waiting := s.mem.waiting ++ [⟨i, s.tick, false⟩] } else s
        assignDec n { s with cdc := { s.cdc with decWait := eraseOne r s.cdc.decWait
                                                 decLanes := s.cdc.decLanes.set i (some r) } }

/-- Assign free compress lanes to waiting users (R156, R157). -/
def assignCmp : Nat → State → State
  | 0, s => s
  | n + 1, s =>
    match freeCmp s with
    | [] => s
    | i :: _ =>
      let ok := s.cdc.cmpWait.filter (fun r => r.user != 6 || decide (hostCmpLanes s < rd s F.CDC_CFG_host_cmp))
      match minBy (fun r => cmpPrio r.user) ok with
      | none => s
      | some r => assignCmp n { s with cdc := { s.cdc with cmpWait := eraseOne r s.cdc.cmpWait
                                                           cmpLanes := s.cdc.cmpLanes.set i (some { r with ad := rd s F.CDC_CFG_ad }) } }

/-- Assign every free lane. -/
def assignLanes (s : State) : State := laneStatus (assignCmp 8 (assignDec 16 s))

/-- Put blocks on the decode queue. -/
def askDec (s : State) (rs : List DecReq) : State := assignLanes { s with cdc.decWait := s.cdc.decWait ++ rs }

/-- Put blocks on the compress queue. -/
def askCmp (s : State) (rs : List CmpReq) : State := assignLanes { s with cdc.cmpWait := s.cdc.cmpWait ++ rs }

/-- Is any granule of [a, a + n) poisoned? -/
def granulesPoisoned (s : State) (a n : Nat) : Bool :=
  s.mem.gpoison.any (fun g => decide (a / 64 ≤ g.1) && decide (64 * g.1 < a + n))

/-- Is what a request of a class outside the decode lanes reads of [a, a + n) poisoned: a granule stored so, or a burst whose repeats were spent (R394,
R395)? -/
def readPoisoned (s : State) (cls a n : Nat) : Bool :=
  granulesPoisoned s a n ||
  s.mem.spent.any (fun g => g.1 % 16 = cls && decide (a / 64 ≤ g.1 / 16) && decide (64 * (g.1 / 16) < a + n))

/-- Bytes of the block at an address: its header and what the header says follows. -/
def blockLen (s : State) (lst : Bool) (addr : Nat) : Nat := 16 + hdrLen (if lst then lstRd s addr 16 else gddrRd s addr 16)

/-- Decode a block at an address; a poisoned granule or word, and an address beyond the usable capacity, is a block error with
cause 7 (R150, R391, R397). -/
def decodeAt (s : State) (lst : Bool) (addr depth : Nat) : Decoded :=
  let n := 16 + rawLen (depthBits depth)
  let bs := if lst then lstRd s addr n else gddrRd s addr n
  let used := 16 + hdrLen bs
  if (if lst then wordsPoisoned s addr used else memCap s < addr + used || granulesPoisoned s addr used) then .err 7 else decodeBlock depth bs

/-- A block error in a decode lane: counted, recorded and posted (R151). -/
def blockError (s : State) (cause user lane : Nat) (lst : Bool) (addr : Nat) : State :=
  let s := bump s F.CDC_CNT_BERR_blocks
  let s := wrB (wr (wr (wr s F.CDC_BERR_INFO_cause cause) F.CDC_BERR_INFO_user user) F.CDC_BERR_INFO_lane lane)
    F.CDC_BERR_INFO_space lst
  let s := wr (wr s F.CDC_BERR_ADDR_LO_addr addr) F.CDC_BERR_ADDR_HI_addr (addr / 2 ^ 32)
  errorRec s blkCDC lane F.CDC_CNT_BERR_blocks [(cause, 1), (user, 1), (lane, 1), (addr, 5)]

/-- Scheduler class of a block's fetch (Table 12.4): scan-out by its urgency, a host job 7. -/
def decClass (r : DecReq) : Nat :=
  match r.tag with
  | .scan _ _ => (match r.urg with | 3 => 1 | 2 => 3 | 1 => 4 | _ => 6)
  | _ => 7

/-- The class of a waiting read: 2 once promoted (R400), else that of its block as it stands. -/
def memClass (s : State) (m : MemReq) : Nat :=
  if m.promoted then 2 else match s.cdc.decLanes.getD m.lane none with
    | some r => decClass r
    | none => 8

/-- The read of a lane no longer waits. -/
def memDone (s : State) (lane : Nat) : State :=
  { s with mem := { s.mem with waiting := s.mem.waiting.filter (fun m => m.lane != lane), bad := s.mem.bad.filter (fun l => l != lane) } }

/-- Take a finished block off a decode lane with its result: a read delivered poisoned is a block error with cause 7 (R395, R397), and a
transient (`upset`) makes a block that decoded fail its CRC. -/
def finishDec (s : State) (lane : Nat) (r : DecReq) (upset : Bool) : Decoded × State :=
  let n := blockLen s r.lst r.addr
  let d : Decoded := match r.bytes with
    | some bs => decodeBlock r.depth bs
    | none => if s.mem.bad.contains lane && !r.lst then .err 7 else decodeAt s r.lst r.addr r.depth
  let s := memDone { s with cdc.decLanes := s.cdc.decLanes.set lane none } lane
  let s := if r.bytes.isSome then s else if r.lst then wordsUnc s r.addr n else memReach s (decClass r) r.addr n
  match d with
  | Decoded.ok xs o => if upset then (Decoded.err 7, blockError s 7 r.user lane r.lst r.addr) else (Decoded.ok xs o, s)
  | Decoded.err c => (Decoded.err c, blockError s c r.user lane r.lst r.addr)

/-- Count a block written by its mode (R173). -/
def countMode (s : State) (bs : List Byte) : State :=
  match hdrMode bs with
  | 0 => bump s F.CDC_CNT_RAW_blocks
  | 1 => bump s F.CDC_CNT_CODED_blocks
  | _ => bump s F.CDC_CNT_CONST_blocks

/-- The verified block of a compress lane: a failed one is replaced by a raw block of the source samples, and reported (R159, R160). -/
def verdict (s : State) (lane : Nat) (r : CmpReq) (v : Verify) : List Byte × State :=
  match v with
  | .pass => (encodeBlock r.depth r.ad r.opaque_ r.samples, s)
  | .fail c =>
    (rawBlock r.depth r.opaque_ r.samples,
     warning (bump s F.CDC_CNT_VFAIL_blocks) blkCDC lane F.CDC_CNT_VFAIL_blocks [(r.user, 1), (lane, 1), (c.val, 1)])

/-- The verified block of a finished compress lane, which is free again. -/
def verifiedCmp (s : State) (lane : Nat) (r : CmpReq) (v : Verify) : List Byte × State :=
  verdict { s with cdc.cmpLanes := s.cdc.cmpLanes.set lane none } lane r v

/-- A verified block that is written counts by its mode (R173). -/
def finishCmp (s : State) (lane : Nat) (r : CmpReq) (v : Verify) : List Byte × State :=
  let x := verifiedCmp s lane r v
  (x.1, countMode x.2 x.1)

/-- CDC_CLR_CNT (R173). -/
def cdcClrCnt (s : State) : State :=
  clearRegs s [F.CDC_CNT_CODED.off, F.CDC_CNT_RAW.off, F.CDC_CNT_CONST.off, F.CDC_CNT_VFAIL.off, F.CDC_CNT_BERR.off]


end Sys2Proof.Machine
end

