-- ==== Sys2Proof/Machine/Compose.lean ====
section
/-!
DEFINITION. Layers, layer space and composition (spec/06_scanout.md, R176 to R194): which plane blocks a layer needs, which are
covered, and the composited value of a panel pixel.
-/

namespace Sys2Proof.Machine

/-! Registers of a run (R183) -/

/-- A field in the registers latched at the run's refresh start. -/
def Run.f (u : Run) (f : Fld) : Nat := f.ofWord (sget 0#32 u.cfg f.off)

/-- A signed field of the run's registers. -/
def Run.fS (u : Run) (f : Fld) : Int := signed f.w (u.f f)

/-- Active width and height of the run. -/
def Run.w (u : Run) : Nat := u.f F.SCN_ACTIVE_width_m1 + 1
def Run.h (u : Run) : Nat := u.f F.SCN_ACTIVE_height_m1 + 1
def Run.bw (u : Run) : Nat := blocksOf u.w
def Run.bh (u : Run) : Nat := blocksOf u.h
def Run.lc (u : Run) : Bool := u.f F.SCN_MODE_family = 1

/-- Panel line of a scan row (R176). -/
def Run.line (u : Run) (y : Nat) : Nat := if u.f F.SCN_MODE_dir = 1 then u.h - 1 - y else y

/-- Block rows in scan order. -/
def Run.blockRows (u : Run) : List Nat := if u.f F.SCN_MODE_dir = 1 then (List.range u.bh).reverse else List.range u.bh

/-! Layers (R179, R180) -/

/-- A layer's settings (R179). -/
structure Layer where
  en : Bool
  slot : Nat
  scale : Nat
  x0 : Int
  y0 : Int
  w : Nat
  h : Nat
  g : Nat
  deriving DecidableEq, Repr

/-- Layer ℓ of the run's view; content slots 20 and up are reserved, and such a layer shows nothing. -/
def Run.layer (u : Run) (l : Nat) : Layer :=
  let m := 4 * u.view + l
  let slot := u.f (F.SCN_LAY_CFG_slot m)
  { en := u.f (F.SCN_LAY_CFG_en m) = 1 && decide (slot < 20) && !u.transp.getD l false, slot := slot,
    scale := u.f (F.SCN_LAY_CFG_scale m) + 1, x0 := u.fS (F.SCN_LAY_POS_x0 m), y0 := u.fS (F.SCN_LAY_POS_y0 m),
    w := u.f (F.SCN_LAY_SIZE_w_m1 m) + 1, h := u.f (F.SCN_LAY_SIZE_h_m1 m) + 1, g := u.f (F.SCN_LAY_ALPHA_g m) }

/-- Panel columns [lo, hi) of a layer's rectangle, clipped to [a, b). -/
def clipX (y : Layer) (a b : Nat) : Nat × Nat := ((max y.x0 a).toNat, (min (y.x0 + y.w) b).toNat)
def clipY (y : Layer) (a b : Nat) : Nat × Nat := ((max y.y0 a).toNat, (min (y.y0 + y.h) b).toNat)

/-- Layer-space block range of a clipped span. -/
def lblk (org : Int) (scale : Nat) (r : Nat × Nat) : List Nat :=
  if r.2 ≤ r.1 then [] else
  let a := ((r.1 : Int) - org).toNat / scale / 32
  let b := ((r.2 - 1 : Nat) - org : Int).toNat / scale / 32
  (List.range (b + 1 - a)).map (fun i => a + i)

/-- Layer-space blocks of the layer inside panel columns [xa, xb) and lines [ya, yb), row by row (R180). -/
def layerBlocks (u : Run) (y : Layer) (xa xb ya yb : Nat) : List (Nat × Nat) :=
  let cs := lblk y.x0 y.scale (clipX y xa (min xb u.w))
  let rs := lblk y.y0 y.scale (clipY y ya (min yb u.h))
  rs.flatMap (fun j => cs.map (fun i => (i, j)))

/-- The current version of a layer-space block in the run, where the block lies on the panel's grid (R181). -/
def Run.verAt (u : Run) (slot : Nat) (b : Nat × Nat) : Option Cur :=
  if u.bw ≤ b.1 || u.bh ≤ b.2 then none else sget none u.vers (32 * blkKey b.1 b.2 + slot)

/-- Models a layer accepts (Table 6.2). -/
def accepts (l model : Nat) : Bool := if l = 0 then model = 0 || model = 1 else model = 2 || model = 3

/-- The version of a layer block that the layer shows, with its surface. -/
def shown (s : State) (u : Run) (l slot : Nat) (b : Nat × Nat) : Option (Cur × Surf) :=
  match u.verAt slot b with
  | some c => let f := surf s c.surface; if accepts l f.model then some (c, f) else none
  | none => none

/-- Block columns (or rows) of a subsampled plane that a block at luma block i needs, chroma margins included (R186). -/
def chromaSpan (n i lo hi : Nat) : List Nat :=
  let a := edge n ((16 * i : Int) - lo) / 32
  let b := edge n ((16 * i + 15 + hi : Nat) : Int) / 32
  (List.range (b + 1 - a)).map (fun k => a + k)

/-- The plane blocks a version's block needs: plane, column, row (R180, R186). -/
def planeNeeds (f : Surf) (si sj : Nat) : List (Nat × Nat × Nat) :=
  (List.range (planeCount f)).flatMap (fun p =>
    let q := planeSub f p
    let d := planeDim f p
    let cs := if q.1 = 2 then chromaSpan d.1 si 1 2 else [si]
    let rs := if q.2 = 2 then chromaSpan d.2 sj 2 2 else [sj]
    rs.flatMap (fun j => cs.map (fun i => (p, i, j))))

/-- Key of a fetch: address, depth and layer. -/
def fetchKey (layer addr depth : Nat) : Nat := (addr * 4 + depth) * 8 + layer

/-! Tables (R222): the uniformity surface is layer code 4, the slot-20 versions layer code 5 -/

/-- The table of code l is in use in the pass. -/
def tableOn (u : Run) (l : Nat) : Bool := if l = 4 then u.f F.PPX_CFG_uni_en = 1 else u.f F.PPX_CFG_age_en = 1

/-- The surface and block a panel block takes its table values from, with the version where it is one: none where the block uses no table. -/
def tableAt (s : State) (u : Run) (l bx by_ : Nat) : Option (Option Cur × Surf × Nat × Nat) :=
  if !tableOn u l then none
  else if l = 4 then some (none, surf s (u.f F.PPX_UNI_surface), bx, by_)
  else (sget none u.vers (32 * blkKey bx by_ + 20)).map (fun c => (some c, surf s c.surface, c.si, c.sj))

/-- Keys and addresses of the three plane blocks of a table at block (i, j). -/
def tableKeys (l : Nat) (f : Surf) (i j : Nat) : List (Nat × Nat) :=
  (List.range 3).map (fun p => (fetchKey l (planeBlockAddr f p i j) f.depth, planeBlockAddr f p i j))

/-- Keys of the fetches that a layer block needs. -/
def blockKeys (l : Nat) (c : Cur) (f : Surf) : List (Nat × Nat) :=
  (planeNeeds f c.si c.sj).map (fun t => (fetchKey l (planeBlockAddr f t.1 t.2.1 t.2.2) f.depth, planeBlockAddr f t.1 t.2.1 t.2.2))

/-! Covered layers (R193) -/

/-- The opaque flag of a version's coverage block, from its header (R153, R194). -/
def opaqueAt (s : State) (c : Cur) (f : Surf) : Bool :=
  let p := if f.model = 2 then 3 else 0
  let a := planeBlockAddr f p c.si c.sj
  hdrOpaque (gddrRd s a 16) && !granulesPoisoned s a 16

/-- Panel block (bx, by) is covered by layer ℓ (R193). -/
def coveredBy (s : State) (u : Run) (bx by_ l : Nat) : Bool :=
  let y := u.layer l
  1 ≤ l && y.en && y.g = 65535 &&
  decide (y.x0 ≤ 32 * bx) && decide (y.y0 ≤ 32 * by_) &&
  decide ((min (32 * bx + 32) u.w : Int) ≤ y.x0 + y.w) && decide ((min (32 * by_ + 32) u.h : Int) ≤ y.y0 + y.h) &&
  (layerBlocks u y (32 * bx) (32 * bx + 32) (32 * by_) (32 * by_ + 32)).all (fun b =>
    match shown s u l y.slot b with
    | some (c, f) => opaqueAt s c f
    | none => false)

/-- The highest layer that covers a panel block; 0 where none does. -/
def coverOf (s : State) (u : Run) (bx by_ : Nat) : Nat :=
  if coveredBy s u bx by_ 3 then 3 else if coveredBy s u bx by_ 2 then 2 else if coveredBy s u bx by_ 1 then 1 else 0

/-- Panel columns that layer columns [32 i, 32 i + 32) reach. -/
def reachOf (org : Int) (scale i n : Nat) : List Nat :=
  let lo := org + (32 * scale * i : Nat)
  let hi := lo + (32 * scale : Nat)
  let a := (max lo 0).toNat
  let b := (min hi n).toNat
  if b ≤ a then [] else (List.range ((b - 1) / 32 + 1 - a / 32)).map (fun k => a / 32 + k)

/-- Panel blocks that a layer block supplies, inside the layer's rectangle. -/
def suppliedBy (u : Run) (y : Layer) (b : Nat × Nat) : List (Nat × Nat) :=
  let xe := (min (y.x0 + y.w) u.w).toNat
  let ye := (min (y.y0 + y.h) u.h).toNat
  (reachOf y.y0 y.scale b.2 ye).flatMap (fun j => (reachOf y.x0 y.scale b.1 xe).map (fun i => (i, j)))

/-- A layer block is not fetched when every panel block it supplies is covered by a higher layer (R193). -/
def notFetched (s : State) (u : Run) (l : Nat) (y : Layer) (b : Nat × Nat) : Bool :=
  (suppliedBy u y b).all (fun p => decide (l < coverOf s u p.1 p.2))

/-- Key of a layer block in the skipped table. -/
def skipKey (l : Nat) (b : Nat × Nat) : Nat := 65536 * l + blkKey b.1 b.2

/-! Readiness (R191, R195) -/

/-- The state of one fetch before tick `t`: a block decoded at `t` itself is not ready (R43, R535). -/
def fetchReady (u : Run) (t : Nat) (k : Nat) : Bool :=
  match sget none u.fetch k with
  | some x => (match x.st with | .ok _ a => decide (a < t) | _ => false)
  | none => false

/-- A layer block's pixels are ready: fetched and decoded, not fetched by R193, or needing no fetch (R181). -/
def layerBlockReady (s : State) (u : Run) (t l : Nat) (y : Layer) (b : Nat × Nat) : Bool :=
  match shown s u l y.slot b with
  | none => true
  | some (c, f) => sget false u.skipped (skipKey l b) || (blockKeys l c f).all (fun k => fetchReady u t k.1)

/-- Some fetch of the layer block met a block error (R23). -/
def layerBlockFailed (s : State) (u : Run) (l : Nat) (y : Layer) (b : Nat × Nat) : Bool :=
  match shown s u l y.slot b with
  | none => false
  | some (c, f) => (blockKeys l c f).any (fun k =>
      match sget none u.fetch k.1 with
      | some x => (match x.st with | .again => true | .bad => true | _ => false)
      | none => false)

/-- The table blocks of a panel block are ready before tick t (R222). -/
def tableReady (s : State) (u : Run) (t l bx by_ : Nat) : Bool :=
  match tableAt s u l bx by_ with
  | some (_, f, i, j) => (tableKeys l f i j).all (fun k => fetchReady u t k.1)
  | none => true

/-- Some table block of the panel block met a block error (R23, R222). -/
def tableFailed (s : State) (u : Run) (l bx by_ : Nat) : Bool :=
  match tableAt s u l bx by_ with
  | some (_, f, i, j) => (tableKeys l f i j).any (fun k =>
      match sget none u.fetch k.1 with
      | some x => (match x.st with | .again => true | .bad => true | _ => false)
      | none => false)
  | none => false

/-- Strips of a layer in scan order: the rows of layer-space blocks its clipped rectangle touches (R190). -/
def stripsOf (u : Run) (y : Layer) : List Nat :=
  let l := lblk y.y0 y.scale (clipY y 0 u.h)
  if !y.en then [] else if u.f F.SCN_MODE_dir = 1 then l.reverse else l

/-- The blocks of a strip in scan order. -/
def stripBlocks (u : Run) (y : Layer) (j : Nat) : List (Nat × Nat) := (lblk y.x0 y.scale (clipX y 0 u.w)).map (fun i => (i, j))

/-- The layer-space strip that a panel line reads, if it lies in the rectangle. -/
def stripOfLine (y : Layer) (Y : Nat) : Option Nat :=
  if y.en && decide (y.y0 ≤ Y) && decide ((Y : Int) < y.y0 + y.h) then some (((Y : Int) - y.y0).toNat / y.scale / 32) else none

/-- Strips to fetch for a layer code: a layer's, or a table's rows of panel blocks (R190, R222). -/
def fetchRows (u : Run) (l : Nat) : List Nat :=
  if l < 4 then stripsOf u (u.layer l) else if tableOn u l then u.blockRows else []

/-- The strip of a layer code that a panel line reads. -/
def rowOfLine (u : Run) (l Y : Nat) : Option Nat := if l < 4 then stripOfLine (u.layer l) Y else if tableOn u l then some (Y / 32) else none

/-- A run's strips of every layer code have been begun, and no block of them is outstanding (R113). -/
def Run.fetched (u : Run) : Bool :=
  (List.range 6).all (fun l => decide ((fetchRows u l).length ≤ u.begun.getD l 0)) &&
  u.fetch.all (fun e => match e.2 with | some x => (match x.st with | .wait => false | .again => false | _ => true) | none => true)

/-- Lines ahead of a layer, up to 64 (R191), and in the same way of a table (DESIGN CHOICE, log entry 66). -/
def linesAhead (s : State) (u : Run) (l : Nat) : Nat :=
  let y := u.layer l
  let ready := fun j => if l < 4 then (stripBlocks u y j).all (layerBlockReady s u (s.tick + 1) l y)
    else (List.range u.bw).all (fun i => tableReady s u (s.tick + 1) l i j)
  (((List.range 64).takeWhile (fun k =>
    let r := u.yTake + k
    decide (r < u.h) && (match rowOfLine u l (u.line r) with | some j => ready j | none => true)))).length

/-- Fetch urgency of a layer (Table 6.4); 0 for a layer that has no strip to fetch in the pass (DESIGN CHOICE, log entry 66). -/
def urgencyOf (s : State) (u : Run) (l : Nat) : Nat :=
  if (fetchRows u l).isEmpty then 0 else
  let a := linesAhead s u l
  if u.f F.SCN_WMARK_low ≤ a then 0 else if u.f F.SCN_WMARK_mid ≤ a then 1 else if u.f F.SCN_WMARK_crit ≤ a then 2 else 3

/-! Pixels (R184 to R189) -/

/-- The decoded plane blocks of one layer block. -/
structure Src where
  b : Nat × Nat
  cur : Cur
  surf : Surf
  planes : List ((Nat × Nat × Nat) × Array Nat)

/-- Samples of a fetch. -/
def fetchSamples (u : Run) (k : Nat) : Array Nat :=
  match sget none u.fetch k with
  | some x => (match x.st with | .ok xs _ => xs.toArray | _ => #[])
  | none => #[]

/-- The layer blocks that supply a panel block, with their samples; those not fetched are left out. -/
def sources (s : State) (u : Run) (l bx by_ : Nat) : List Src :=
  let y := u.layer l
  if !y.en || decide (l < coverOf s u bx by_) then [] else
  (layerBlocks u y (32 * bx) (32 * bx + 32) (32 * by_) (32 * by_ + 32)).filterMap (fun b =>
    match shown s u l y.slot b with
    | some (c, f) =>
      some { b := b, cur := c, surf := f, planes := (planeNeeds f c.si c.sj).map (fun t =>
        (t, fetchSamples u (fetchKey l (planeBlockAddr f t.1 t.2.1 t.2.2) f.depth))) }
    | none => none)

/-- Sample (i, j) of plane p of a source's surface. -/
def Src.at (r : Src) (p i j : Nat) : Nat :=
  match r.planes.find? (fun e => e.1 = (p, i / 32, j / 32)) with
  | some e => e.2.getD (32 * (j % 32) + i % 32) 0
  | none => 0

/-- A palette entry: R, G, B and A of layer ℓ, index i (R187, R210). -/
def Run.palette (u : Run) (l i : Nat) : (Nat × Nat × Nat) × Nat :=
  let w := fun k => (sget 0#32 u.cfg (0x78000 + 0x800 * (3 * u.view + l - 1) + 8 * i + 4 * k)).toNat
  ((w 0 % 65536, w 0 / 65536, w 1 % 65536), w 1 / 65536)

/-- The matrix SCN.PRIM in effect for the run. -/
def Run.prim (u : Run) : List Int :=
  [F.SCN_PRIM0_m00, F.SCN_PRIM0_m01, F.SCN_PRIM1_m02, F.SCN_PRIM1_m10, F.SCN_PRIM2_m11, F.SCN_PRIM2_m12, F.SCN_PRIM3_m20,
   F.SCN_PRIM3_m21, F.SCN_PRIM4_m22].map u.fS

/-- BAR0 offset of the scan-out transfer table t. -/
def scnXferBase (t : Nat) : Nat := 0x71000 + 0x2100 * (t - 1)

/-- The linear colour of a source's pixel at surface position (X, Y), its opacity source a16 if it has one (R184 to R188). -/
def srcPixel (s : State) (u : Run) (l : Nat) (r : Src) (X Y : Nat) : (Nat × Nat × Nat) × Option Nat :=
  let f := r.surf
  let d := depthBits f.depth
  if f.model = 3 then
    let e := u.palette l (r.at 0 X Y)
    (e.1, some e.2)
  else
    let comp := fun p =>
      let v := fun i j => let x := r.at p i j
        if f.transfer = 0 then expand16 d x else dequant d (f.model = 0 && p != 0) f.full x
      if f.model = 0 && p != 0 then let q := planeDim f p; chromaAt f.sub v q.1 q.2 X Y else v X Y
    let c := (comp 0, comp 1, comp 2)
    let c := if f.transfer = 0 then c else toLinear (rdW s) (scnXferBase f.transfer) (if f.model = 0 then f.matrix else 0) f.prim u.prim c
    (c, if f.model = 2 then some (expand16 d (r.at 3 X Y)) else none)

/-- One channel of a layer over the result below it (R188). -/
def overOn (c a o : Nat) : Nat := (c * a + o * (65535 - a) + 32767) / 65535

/-- A layer's pixel over the result below it (R188). -/
def layerOver (s : State) (u : Run) (l : Nat) (y : Layer) (rs : List Src) (X Y : Nat) (o : Nat × Nat × Nat) : Nat × Nat × Nat :=
  if !(y.en && decide (y.x0 ≤ X) && decide ((X : Int) < y.x0 + y.w) && decide (y.y0 ≤ Y) && decide ((Y : Int) < y.y0 + y.h)) then o else
  let lu := ((X : Int) - y.x0).toNat / y.scale
  let lt := ((Y : Int) - y.y0).toNat / y.scale
  match rs.find? (fun r => r.b = (lu / 32, lt / 32)) with
  | none => o
  | some r =>
    let p := srcPixel s u l r (32 * r.cur.si + lu % 32) (32 * r.cur.sj + lt % 32)
    let a := match p.2 with | some a16 => (a16 * y.g + 32767) / 65535 | none => y.g
    (overOn p.1.1 a o.1, overOn p.1.2.1 a o.2.1, overOn p.1.2.2 a o.2.2)

/-- The composited pixel (X, Y) of panel block (bx, by) (R189). -/
def composite (s : State) (u : Run) (ls : List (Nat × Layer × List Src)) (X Y : Nat) : Nat × Nat × Nat :=
  ls.foldl (fun o e => layerOver s u e.1 e.2.1 e.2.2 X Y o) (u.f F.SCN_BG0_r, u.f F.SCN_BG0_g, u.f F.SCN_BG1_b)

/-- The layers of a panel block with their sources. -/
def blockLayers (s : State) (u : Run) (bx by_ : Nat) : List (Nat × Layer × List Src) :=
  (List.range 4).map (fun l => (l, u.layer l, sources s u l bx by_))

end Sys2Proof.Machine
end

