-- ==== Sys2Proof/Machine/Packed.lean ====
section
/-!
DEFINITION. Packed segments and linear regions (spec/05_frame_codec.md, R164 to R168), as host jobs, the capture tap and the
ageing checkpoints use them.
-/

namespace Sys2Proof.Machine

/-- A segment header (Table 5.12). -/
def segHeader (depth w h first count bytes tag : Nat) : List Byte :=
  let b := leBytes 0x314A435A 4 ++ leBytes 1 2 ++ leBytes depth 1 ++ [0#8] ++ leBytes ((w - 1) + 65536 * (h - 1)) 4
    ++ leBytes first 4 ++ leBytes count 4 ++ leBytes bytes 4 ++ leBytes tag 4 ++ List.replicate 32 0#8
  b ++ leBytes (crc32 b) 4

/-- A block padded with zero bytes to a multiple of 16 (R165). -/
def pad16 (bs : List Byte) : List Byte := bs ++ List.replicate ((16 - bs.length % 16) % 16) 0#8

/-- The segment header checks of R168 on its 64 bytes: first block, count and length. -/
def segCheck (b : List Byte) (depth w h avail : Nat) : Option (Nat × Nat × Nat) :=
  let n := (w + 31) / 32 * ((h + 31) / 32)
  if leAt b 0 4 = 0x314A435A && leAt b 4 2 = 1 && leAt b 60 4 = crc32 (slice b 0 60) && leAt b 6 1 % 4 = depth
    && leAt b 8 2 % 8192 = w - 1 && leAt b 10 2 % 8192 = h - 1 && leAt b 12 4 + leAt b 16 4 ≤ n && leAt b 20 4 ≤ avail
  then some (leAt b 12 4, leAt b 16 4, leAt b 20 4) else none

/-- Pack coded blocks after a header while they fit in `limit` bytes: the blocks' bytes and how many (R166). -/
def packFit (limit : Nat) : List (List Byte) → Nat → List Byte × Nat
  | [], _ => ([], 0)
  | b :: bs, used =>
    let p := pad16 b
    if limit < used + p.length then ([], 0) else
    let r := packFit limit bs (used + p.length)
    (p ++ r.1, r.2 + 1)

/-- A packed segment of blocks from region block `first`, as much of it as fits; empty where not even the first does (R166). -/
def packSegment (depth w h first tag limit : Nat) (blocks : List (List Byte)) : List Byte × Nat :=
  let r := packFit limit blocks 64
  if r.2 = 0 && !blocks.isEmpty then ([], 0)
  else (segHeader depth w h first r.2 (64 + r.1.length) tag ++ r.1, r.2)

/-- The samples of region block i of a w × h region, edges copied (R111, R164). -/
def regionBlock (get : Nat → Nat → Nat) (w h i : Nat) : List Nat :=
  let bw := (w + 31) / 32
  let c0 := i % bw * 32
  let r0 := i / bw * 32
  (List.range 1024).map (fun k => get (min (r0 + k / 32) (h - 1)) (min (c0 + k % 32) (w - 1)))

/-- Decode `n` blocks of a packed segment's body: samples of each, in order; the list stops at a block that fails. -/
def unpackBlocks (depth : Nat) : Nat → List Byte → List (List Nat)
  | 0, _ => []
  | n + 1, bs =>
    match decodeBlock depth bs with
    | .ok xs _ => xs :: unpackBlocks depth n (bs.drop ((16 + hdrLen bs + 15) / 16 * 16))
    | .err _ => []

end Sys2Proof.Machine
end

