-- ==== Sys2Proof/Machine/Ppx.lean ====
section
/-!
DEFINITION. Panel processing (spec/07_panel_processing.md): the seven stages, histories and their headers, temperature bands,
polarity, the zoned backlight, checksums and drive capture.
-/

namespace Sys2Proof.Machine

/-- The panel family in effect is LC (R174). -/
def isLC (s : State) : Bool := on s F.SCN_MODE_family

/-- The drive depth D (R289). -/
def driveDepth (s : State) : Nat := if on s F.DRV_CFG_d12 then 12 else 10

/-- The 12-bit form of a drive value (R15). -/
def form12 (s : State) (v : Nat) : Nat := if on s F.DRV_CFG_d12 then v else 4 * v

/-- The black drive value in 12-bit form (R330). -/
def black12 (s : State) : Nat := form12 s (rd s F.PSQ_BLACK_code % 2 ^ driveDepth s)

/-! Tables (R214 to R218) -/

/-- Key of a table word: tables 0 to 6 are banked (Table 7.3). -/
def tblKey (bank table idx : Nat) : Nat := 2 ^ 21 * (if table ≤ 6 then bank else 0) + 2 ^ 17 * table + idx

/-- A table word. -/
def tblW (s : State) (bank table idx : Nat) : Nat := sget 0 s.ppx.tbl (tblKey bank table idx)

/-- Words of a table; 0 for a reserved one (Table 7.3). -/
def tblLen (table : Nat) : Nat :=
  if table ≤ 2 || (4 ≤ table && table ≤ 6) then 4096 else if table = 3 then 71874 else if table = 7 then 78408
  else if table = 8 then 4096 else 0

/-- The bits a word of a table holds (Table 7.3). -/
def tblMask (table idx : Nat) : Nat := if table = 3 && idx % 2 = 0 then 2 ^ 32 else if table = 8 then 2 ^ 8 else 2 ^ 16

/-- Store a table word without the ignore rules (R218, R419). -/
def tblPut (s : State) (bank table idx v : Nat) : State :=
  if idx < tblLen table then { s with ppx.tbl := sset 0 s.ppx.tbl (tblKey bank table idx) (v % tblMask table idx) } else s

/-- A write that is ignored (R218). PPX.LUT_SEL counts in effect and in a pending commit set. -/
def tblIgnored (s : State) (bank table : Nat) : Bool :=
  let sel := fun m => F.PPX_LUT_SEL_bank.ofWord m
  let uses := fun m => if bank = 1 then sel m != 0 else sel m != 31
  if table ≤ 6 then
    uses (rdW s F.PPX_LUT_SEL.off) ||
    (match s.scn.set with | some c => c.v.isSome && uses (sget 0#32 c.snap F.PPX_LUT_SEL.off) | none => false)
  else if table = 7 then on s F.PPX_CFG_od_en
  else if table = 8 then on s F.PPX_CFG_dith_en
  else false

/-- An ignored write of the block (R218, R252). -/
def ppxIgn (s : State) : State := bump (wrB s F.PPX_STATUS_wr_ign true) F.PPX_CNT_WR_IGN_writes

/-- PPX_TBL_DATA_ACCESS (R217): a write stores or is ignored, a read leaves the word in PPX.TBL_DATA; the index moves on. -/
def tblAccess (s : State) (w : Option Word) : State :=
  let t := rd s F.PPX_TBL_SEL_table
  let b := rd s F.PPX_TBL_SEL_bank
  let i := rd s F.PPX_TBL_IDX_index
  let s := match w with
    | some v => if tblLen t ≤ i then s else if tblIgnored s b t then ppxIgn s else tblPut s b t i v.toNat
    | none => wr s F.PPX_TBL_DATA_data (if i < tblLen t then tblW s b t i else 0)
  wr s F.PPX_TBL_IDX_index (i + 1)

/-! Stages 1 and 2 (R214 to R216) -/

/-- A 1D LUT (R215). -/
def lut1 (t : Nat → Nat) (v : Nat) : Nat :=
  let i := v / 16
  if 4095 ≤ i then t 4095 else
  let a : Int := t i
  let b : Int := t (i + 1)
  (a + ((b - a) * (v % 16 : Nat) + 8) / 16).toNat

/-- The nodes and weights of Table 7.2: three offsets after 000 and four weights. -/
def tetra (fr fg fb : Nat) : List ((Nat × Nat × Nat) × Nat) :=
  if fg ≤ fr && fb ≤ fg then [((0,0,0), 2048 - fr), ((1,0,0), fr - fg), ((1,1,0), fg - fb), ((1,1,1), fb)]
  else if fb ≤ fr && fg < fb then [((0,0,0), 2048 - fr), ((1,0,0), fr - fb), ((1,0,1), fb - fg), ((1,1,1), fg)]
  else if fr < fb && fg ≤ fr then [((0,0,0), 2048 - fb), ((0,0,1), fb - fr), ((1,0,1), fr - fg), ((1,1,1), fg)]
  else if fr < fg && fb ≤ fr then [((0,0,0), 2048 - fg), ((0,1,0), fg - fr), ((1,1,0), fr - fb), ((1,1,1), fb)]
  else if fb ≤ fg && fr < fb then [((0,0,0), 2048 - fg), ((0,1,0), fg - fb), ((0,1,1), fb - fr), ((1,1,1), fr)]
  else [((0,0,0), 2048 - fb), ((0,0,1), fb - fg), ((0,1,1), fg - fr), ((1,1,1), fr)]

/-- The 3D LUT (R216). -/
def lut3 (s : State) (bank : Nat) (p : Nat × Nat × Nat) : Nat × Nat × Nat :=
  let ws := tetra (p.1 % 2048) (p.2.1 % 2048) (p.2.2 % 2048)
  let node := fun o : Nat × Nat × Nat => 1089 * (p.2.2 / 2048 + o.2.2) + 33 * (p.2.1 / 2048 + o.2.1) + (p.1 / 2048 + o.1)
  let sum := fun get : Nat → Nat => (ws.foldl (fun a e => a + e.2 * get (node e.1)) 1024) / 2048
  (sum (fun n => tblW s bank 3 (2 * n) % 65536), sum (fun n => tblW s bank 3 (2 * n) / 65536),
   sum (fun n => tblW s bank 3 (2 * n + 1) % 65536))

/-- Stages 1 and 2 with the colour bank of the view (R214). -/
def stages12 (s : State) (u : Run) (p : Nat × Nat × Nat) : Nat × Nat × Nat :=
  let bank := u.f F.PPX_LUT_SEL_bank / 2 ^ u.view % 2
  let one := fun (t0 : Nat) (p : Nat × Nat × Nat) =>
    (lut1 (tblW s bank t0) p.1, lut1 (tblW s bank (t0 + 1)) p.2.1, lut1 (tblW s bank (t0 + 2)) p.2.2)
  let p := if u.f F.PPX_CFG_in_en = 1 then one 0 p else p
  let p := if u.f F.PPX_CFG_lut3d_en = 1 then lut3 s bank p else p
  if u.f F.PPX_CFG_out_en = 1 then one 4 p else p

/-! Stage 3: uniformity gain and dimming factor (R219, R220, R243) -/

/-- G[0] to G[31] of R220. -/
def uniTab0 : List Nat := [
  46341, 46467, 46593, 46719, 46846, 46973, 47100, 47228,
  47356, 47484, 47613, 47742, 47871, 48001, 48131, 48262,
  48393, 48524, 48655, 48787, 48920, 49052, 49185, 49319,
  49452, 49586, 49721, 49856, 49991, 50126, 50262, 50399]

/-- G[32] to G[63] of R220. -/
def uniTab1 : List Nat := [
  50535, 50672, 50810, 50947, 51085, 51224, 51363, 51502,
  51642, 51782, 51922, 52063, 52204, 52346, 52488, 52630,
  52773, 52916, 53059, 53203, 53347, 53492, 53637, 53782,
  53928, 54074, 54221, 54368, 54515, 54663, 54811, 54960]

/-- G[64] to G[95] of R220. -/
def uniTab2 : List Nat := [
  55109, 55258, 55408, 55558, 55709, 55860, 56012, 56163,
  56316, 56468, 56622, 56775, 56929, 57083, 57238, 57393,
  57549, 57705, 57861, 58018, 58176, 58333, 58491, 58650,
  58809, 58968, 59128, 59289, 59449, 59611, 59772, 59934]

/-- G[96] to G[127] of R220. -/
def uniTab3 : List Nat := [
  60097, 60260, 60423, 60587, 60751, 60916, 61081, 61247,
  61413, 61579, 61746, 61914, 62081, 62250, 62419, 62588,
  62757, 62928, 63098, 63269, 63441, 63613, 63785, 63958,
  64132, 64306, 64480, 64655, 64830, 65006, 65182, 65359]

/-- G[128] to G[159] of R220. -/
def uniTab4 : List Nat := [
  65536, 65714, 65892, 66071, 66250, 66429, 66609, 66790,
  66971, 67153, 67335, 67517, 67700, 67884, 68068, 68252,
  68438, 68623, 68809, 68996, 69183, 69370, 69558, 69747,
  69936, 70126, 70316, 70507, 70698, 70889, 71082, 71274]

/-- G[160] to G[191] of R220. -/
def uniTab5 : List Nat := [
  71468, 71661, 71856, 72050, 72246, 72442, 72638, 72835,
  73032, 73230, 73429, 73628, 73828, 74028, 74229, 74430,
  74632, 74834, 75037, 75240, 75444, 75649, 75854, 76060,
  76266, 76473, 76680, 76888, 77096, 77305, 77515, 77725]

/-- G[192] to G[223] of R220. -/
def uniTab6 : List Nat := [
  77936, 78147, 78359, 78572, 78785, 78998, 79212, 79427,
  79642, 79858, 80075, 80292, 80510, 80728, 80947, 81166,
  81386, 81607, 81828, 82050, 82273, 82496, 82719, 82944,
  83169, 83394, 83620, 83847, 84074, 84302, 84531, 84760]

/-- G[224] to G[255] of R220. -/
def uniTab7 : List Nat := [
  84990, 85220, 85451, 85683, 85915, 86148, 86382, 86616,
  86851, 87086, 87322, 87559, 87796, 88034, 88273, 88513,
  88752, 88993, 89234, 89476, 89719, 89962, 90206, 90451,
  90696, 90942, 91188, 91436, 91684, 91932, 92181, 92431]

/-- The gain G[u] of R220. -/
def uniGain : Array Nat := (uniTab0 ++ uniTab1 ++ uniTab2 ++ uniTab3 ++ uniTab4 ++ uniTab5 ++ uniTab6 ++ uniTab7).toArray

/-- Zone columns, zone rows and zone size (R241). -/
def zoneCols (s : State) : Nat := rd s F.PPX_BL_GRID_zc_m1 + 1
def zoneRows (s : State) : Nat := rd s F.PPX_BL_GRID_zr_m1 + 1
def zoneW (s : State) : Nat := (panelW s + zoneCols s - 1) / zoneCols s
def zoneH (s : State) : Nat := (panelH s + zoneRows s - 1) / zoneRows s

/-- The light L at pixel (X, Y) from the zone values of the pass (R243). -/
def lightAt (s : State) (q : Array Nat) (X Y : Nat) : Nat :=
  let zc := zoneCols s
  let zw := zoneW s
  let zh := zoneH s
  let axis := fun (p z n : Nat) =>
    let a := min (2 * p + 1 - z) (2 * z * (n - 1))
    let i := min (a / (2 * z)) (n - 2)
    (i, a - 2 * z * i)
  let x := axis X zw zc
  let y := axis Y zh (zoneRows s)
  let v := fun i j => q.getD (j * zc + i) 4095
  (v x.1 y.1 * (2 * zw - x.2) * (2 * zh - y.2) + v (x.1 + 1) y.1 * x.2 * (2 * zh - y.2)
    + v x.1 (y.1 + 1) * (2 * zw - x.2) * y.2 + v (x.1 + 1) (y.1 + 1) * x.2 * y.2 + 2 * zw * zh) / (4 * zw * zh)

/-- Stage 3 on one subpixel: the gain where enabled, the dimming factor on LC panels (R220). -/
def stage3 (uni : Option Nat) (light : Option Nat) (v : Nat) : Nat :=
  let v := match uni with | some c => min 65535 ((v * uniGain.getD c 65536 + 32768) / 65536) | none => v
  match light with | some l => if l = 0 then 65535 else min 65535 (v * 4095 / l) | none => v

/-- Stage 4 with a compensation sample (R221). -/
def stage4 (code v : Nat) : Nat :=
  (clampI (((v * (1024 + code / 256) + 512) / 1024 : Nat) + 16 * signed 8 (code % 256)) 0 65535).toNat

/-! Stage 5 (R224 to R226) -/

/-- The overdrive value of table 7 (R225). -/
def overdrive (s : State) (band page c p12 t : Nat) : Nat :=
  let ip := p12 / 128
  let fp := p12 % 128
  let jt := t / 2048
  let ft := t % 2048
  let e := fun i j => tblW s 0 7 ((((band * 3 + page) * 3 + c) * 33 + i) * 33 + j)
  min 65535 ((e ip jt * (128 - fp) * (2048 - ft) + e (ip + 1) jt * fp * (2048 - ft) + e ip (jt + 1) * (128 - fp) * ft
    + e (ip + 1) (jt + 1) * fp * ft + 131072) / 262144)

/-- A waveform's length: PPX.OD.len on LC panels, 1 on EL panels (R224). -/
def wfLen (u : Run) : Nat := if u.lc then u.f F.PPX_OD_len else 1

/-! Stage 6 (R236, R237) -/

/-- The common of a column-driver group (R236). -/
def commonOf (s : State) (g : Nat) : Nat := rd s (F.PPX_POL_MAP_com (g / 10)) / 8 ^ (g % 10) % 8

/-- The group that drives colour c of pixel X (R288). -/
def groupOf (s : State) (X c : Nat) : Nat :=
  let n := rd s F.DRV_CFG_n_ch
  if n = 0 then 0 else (3 * X + (if on s F.DRV_CFG_order then 2 - c else c)) / n

/-- The inversion pattern's bit (Table 7.6). -/
def patternBit (pattern xs Y : Nat) : Bool :=
  match pattern with
  | 0 => xs % 2 = 1
  | 1 => Y % 2 = 1
  | 2 => (xs ^^^ Y) % 2 = 1
  | _ => (xs ^^^ (Y / 2)) % 2 = 1

/-- The polarity (true: negative) of subpixel column xs on line Y, where its common is enabled (R236). -/
def polarityAt (s : State) (u : Run) (g xs Y : Nat) : Option Bool :=
  let c := commonOf s g
  if u.lc && on s (F.PPX_POL_CFG_en c) then
    some ((u.pol / 2 ^ c % 2 == 1) != patternBit (rd s (F.PPX_POL_CFG_pattern c)) xs Y)
  else none

/-- Stage 6: the offset of the subpixel's polarity, clamped (R237). -/
def stage6 (s : State) (u : Run) (X c Y v : Nat) : Nat :=
  let g := groupOf s X c
  match polarityAt s u g (3 * X + c) Y with
  | some neg =>
    let k := commonOf s g
    let o := if neg then rdS s (F.PPX_POL_CFG_ofs_neg k) else rdS s (F.PPX_POL_CFG_ofs_pos k)
    clamp16 ((v : Int) + 16 * o)
  | none => v

/-! Stage 7 (R234) -/

/-- The dither stage: a D-bit code (R234). -/
def stage7 (s : State) (u : Run) (X c Y v : Nat) : Nat :=
  let d := driveDepth s
  let k := 16 - d
  if u.f F.PPX_CFG_dith_en = 1 then
    let ix := (3 * X + c + u.f F.PPX_DITHER_x_org + 32 * (u.phi % 2)) % 64
    let iy := (Y + u.f F.PPX_DITHER_y_org + 32 * (u.phi / 2)) % 64
    let th := tblW s 0 8 (64 * iy + ix) / 2 ^ (8 - k)
    min (2 ^ d - 1) (v / 2 ^ k + (if th < v % 2 ^ k then 1 else 0))
  else min (2 ^ d - 1) ((v + 2 ^ (k - 1)) / 2 ^ k)

/-! Histories (R16, R223) -/

/-- The base of H[v]. -/
def histBase (s : State) (v : Nat) : Nat := 4096 * rd s (F.PPX_HIST_BASE_LO_addr v) + 2 ^ 32 * rd s (F.PPX_HIST_BASE_HI_addr v)

/-- Address of plane block (bx, by) of plane c of H[v]: 12-bit layout of R110 at panel size. -/
def histAddr (s : State) (v c bx by_ : Nat) : Nat :=
  histBase s v + (c * (panelBW s * panelBH s) + by_ * panelBW s + bx) * allocLen 12

/-- Local-store offset of a block's history header word (R223). -/
def hhdrAddr (s : State) (v bx by_ : Nat) : Nat := rd s F.PPX_HHDR_BASE_offset + 0x20000 * v + 4 * (by_ * panelBW s + bx)

/-- A block's history header word; an uncorrectable one is a failed read: the block's history is taken as empty (R403; DESIGN CHOICE, log entry
73). -/
def hhdr (s : State) (v bx by_ : Nat) : Nat :=
  if wordsPoisoned s (hhdrAddr s v bx by_) 4 then 0 else lst32 s (hhdrAddr s v bx by_)

def hdrFilled (h : Nat) : Bool := h / 128 % 2 == 1
def hdrStep (h : Nat) : Nat := h / 8 % 4
def hdrBand (h : Nat) : Nat := h % 8

/-- A header word. -/
def mkHdr (filled : Bool) (step band : Nat) : Nat := 128 * b2n filled + 8 * step + band

/-- Clear every filled bit: the history is marked empty (R207, R223, R325). -/
def emptyHistories (s : State) : State :=
  (List.range 5).foldl (fun s v =>
    (List.range (panelBH s)).foldl (fun s j => (List.range (panelBW s)).foldl (fun s i =>
      let a := hhdrAddr s v i j
      let h := lst32 s a
      if hdrFilled h then lstKeep s a (leBytes (h - 128) 4) else s) s) s) { s with scn.lastView := none }

/-- The samples of a history plane block that is still on its way through a compress lane, the latest first. -/
def pendHist (s : State) (a : Nat) : Option (List Nat) :=
  (((s.cdc.cmpLanes.filterMap id ++ s.cdc.cmpWait).filter (fun r => r.tag == .history && r.addr = a)).getLast?).map (fun r => r.samples)

/-- Read a block's history: 3,072 values, colour planes one after the other; a plane that fails its check is a block error of the history user
(R151, R526), a block on its way to memory is what is being written. Reads are served before everything else (R17, R156) and end in the tick
that asks; the lane is a free value (log entry 17). -/
def readHist (s : State) (v bx by_ : Nat) : Option (List Nat) × State :=
  (List.range 3).foldl (fun (a : Option (List Nat) × State) c =>
    let p := histAddr a.2 v c bx by_
    match pendHist a.2 p with
    | some xs => (a.1.map (fun l => l ++ xs), a.2)
    | none =>
      let n := blockLen a.2 false p
      let d := if readPoisoned a.2 0 p n then Decoded.err 7 else decodeAt a.2 false p 2
      let s := memReach a.2 0 p n
      match d with
      | .ok xs _ => (a.1.map (fun l => l ++ xs), s)
      | .err e =>
        let k := freeBelow s 7 16
        (none, blockError k.2 e 0 k.1 false p)) (some [], s)

/-- Write a block's history and header (R16, R223): its planes go through compress lanes (R156, R159), at raw-size allocation. -/
def writeHist (s : State) (v bx by_ : Nat) (vals : List Nat) (hdr : Nat) : State :=
  let reqs := (List.range 3).map (fun c =>
    (⟨0, histAddr s v c bx by_, 2, true, (vals.drop (1024 * c)).take 1024, 0, .history⟩ : CmpReq))
  askCmp (lstKeep s (hhdrAddr s v bx by_) (leBytes hdr 4)) reqs

/-! Temperature bands (R228 to R233) -/

/-- A read's temperature in 1/16 °C, or none where the read fails (R228). -/
def snsTemp (r : SnsRead) : Option Int :=
  match r with
  | some b => let v := signed 16 b.toNat; if v < -40 * 256 || 125 * 256 < v then none else some (v / 16)
  | none => none

/-- PPX.SNS_VALID from the sensors' states. -/
def snsBits (s : State) : State :=
  wr s F.PPX_SNS_VALID_valid (s.ppx.sns.foldr (fun e a => 2 * a + b2n e.valid) 0)

/-- Some sensor is valid. -/
def anyValid (s : State) : Bool := s.ppx.sns.any (fun e => e.valid)

/-- While no sensor is valid, PPX.STATUS.no_sensor reads 1 and the seconds of R231 count from the tick at which the last one became invalid. -/
def noSensor (s : State) : State :=
  if anyValid s then s else
  let s := wrB s F.PPX_STATUS_no_sensor true
  { s with ppx := { s.ppx with fresh := true, noSince := some (s.ppx.noSince.getD s.tick) } }

/-- A sensor whose enable is 0 is not valid, with no event (R229). -/
def snsSync (s : State) : State :=
  let had := anyValid s
  let s := snsBits { s with ppx.sns := (List.range 16).map (fun i =>
    if on s (F.PPX_SNS_en i) then s.ppx.sns.getD i ⟨false, 0, false⟩ else ⟨false, 0, false⟩) }
  if had then noSensor s else s

/-- The bytes of a read of sensor i (R228): the address for a write, the pointer, and, after a repeated start, the address for a read. -/
def snsBytes (s : State) (i : Nat) : List Byte :=
  [2 * rd s (F.PPX_SNS_addr i), rd s (F.PPX_SNS_ptr i), 2 * rd s (F.PPX_SNS_addr i) + 1].map (BitVec.ofNat 8)

/-- One sensor's read in a cycle (R229). -/
def snsRead (reads : List SnsRead) (s : State) (i : Nat) : State :=
  if !on s (F.PPX_SNS_en i) then s else
  let e := s.ppx.sns.getD i ⟨false, 0, false⟩
  match snsTemp (reads.getD i none) with
  | some t =>
    let s := wrS s (F.PPX_SNS_temp i) t
    let s := { s with ppx.sns := s.ppx.sns.set i ⟨true, 0, true⟩ }
    if e.valid then s else info (snsBits s) blkPPX i F.PPX_SNS_VALID_valid
  | none =>
    let s := bump s F.PPX_CNT_SNSFAIL_reads
    let n := e.fails + 1
    if e.valid && 3 ≤ n then
      info (snsBits { s with ppx.sns := s.ppx.sns.set i ⟨false, n, e.good⟩ }) blkPPX i F.PPX_SNS_VALID_valid
    else { s with ppx.sns := s.ppx.sns.set i { e with fails := n } }

/-- The current band. -/
def bandNow (s : State) : Nat := rd s F.PPX_STATUS_band

/-- Subframes and mask of the band current at the build point (R227); one subframe on LC panels. -/
def subPattern (c : State) : Nat × Nat :=
  if isLC c then (1, 1) else
  let b := bandNow c
  if b % 2 = 1 then (rd c (F.PPX_ELWF_n_m1_hi (b / 2)) + 1, rd c (F.PPX_ELWF_mask_hi (b / 2)))
  else (rd c (F.PPX_ELWF_n_m1_lo (b / 2)) + 1, rd c (F.PPX_ELWF_mask_lo (b / 2)))

/-- The build point of the next boundary, while that boundary's bank is not built (R82). -/
def buildPoint (s : State) : Option Nat :=
  match s.tmb.next with
  | none => none
  | some b => if (match s.exs.next with | some n => decide (n.at_ = b) | none => false) then none else some (b - rd s F.EXS_BUILD_lead)

/-- A change at or after the build point of a bank not built yet: the build takes the pattern as it stood before it (R82, R227). -/
def freezeSub (s : State) : State :=
  match buildPoint s with
  | some t => if t ≤ s.tick && s.exs.frozenSub.isNone then { s with exs.frozenSub := some (subPattern s) } else s
  | none => s

/-- Change the band (R230). -/
def setBand (s : State) (b : Nat) : State :=
  if b = bandNow s then s else
  let s := freezeSub s
  info (bump (wr s F.PPX_STATUS_band b) F.PPX_CNT_BAND_changes) blkPPX 0 F.PPX_CNT_BAND_changes

/-- Thresholds t1 to t7 (R230). -/
def bandThr (s : State) (k : Nat) : Int :=
  match k with
  | 1 => rdS s F.PPX_TEMP_THR0_t1 | 2 => rdS s F.PPX_TEMP_THR1_t2 | 3 => rdS s F.PPX_TEMP_THR1_t3
  | 4 => rdS s F.PPX_TEMP_THR2_t4 | 5 => rdS s F.PPX_TEMP_THR2_t5 | 6 => rdS s F.PPX_TEMP_THR3_t6
  | _ => rdS s F.PPX_TEMP_THR3_t7

/-- The largest band with T ≥ t_b. -/
def bandAt (s : State) (t : Int) : Nat := ((List.range 8).filter (fun b => b = 0 || decide (bandThr s b ≤ t))).getLastD 0

/-- The two rules of R230, each as often as it holds; each step is a change of the band. -/
def bandSteps (t : Int) : Nat → State → State
  | 0, s => s
  | n + 1, s =>
    let b := bandNow s
    if b < 7 && decide (bandThr s (b + 1) + 24 ≤ t) then bandSteps t n (setBand s (b + 1))
    else if 0 < b && decide (t < bandThr s b - 24) then bandSteps t n (setBand s (b - 1)) else s

/-- The panel temperature of the valid sensors' last readings (R229); none where none is valid. -/
def panelTemp (s : State) : Option Int :=
  let l := ((List.range 16).filter (fun i => (s.ppx.sns.getD i ⟨false, 0, false⟩).valid)).map (fun i => rdS s (F.PPX_SNS_temp i))
  match l with
  | [] => none
  | x :: r => some (if on s F.PPX_TEMP_CFG_agg then r.foldl max x else (x :: r).foldl (· + ·) 0 / (l.length : Int))

/-- SENSOR_CYCLE (R228 to R231): TEMP_CFG.period ms after the last one. -/
def sensorCycle (s : State) (reads : List SnsRead) : State :=
  let s := reach s (s.ppx.cycleAt + rd s F.PPX_TEMP_CFG_period * Config.tickMs)
  let ens := (List.range 16).filter (fun i => on s (F.PPX_SNS_en i))
  let s := snsSync { s with ppx := { s.ppx with cycleAt := s.tick, snsTx := ens.map (snsBytes s) } }
  let s := (List.range 16).foldl (snsRead reads) s
  match panelTemp s with
  | some t =>
    let s := wrB (wrS s F.PPX_TEMP_panel t) F.PPX_STATUS_no_sensor false
    let first := s.ppx.fresh
    let s := { s with ppx := { s.ppx with fresh := false, startBand := false, noSince := none, fellBack := false } }
    if first then setBand s (bandAt s t) else bandSteps t 8 s
  | none => noSensor s

/-- SENSOR_FAIL_TIMEOUT (R231): the band falls back once TEMP_CFG.fail seconds have passed without a valid sensor. -/
def sensorFailTimeout (s : State) : State :=
  match s.ppx.noSince with
  | some t0 =>
    if s.ppx.fellBack then s else
    let s := reach s (t0 + rd s F.PPX_TEMP_CFG_fail * Config.tickHz)
    warning (setBand { s with ppx.fellBack := true } (rd s F.PPX_TEMP_CFG_fb_band)) blkPPX 0 F.PPX_TEMP_CFG_fb_band
  | none => s

/-- From the end of start-up step 5 to the first cycle with a valid sensor the band is the fallback band (R231). -/
def startBandSync (s : State) : State := if s.ppx.startBand then setBand s (rd s F.PPX_TEMP_CFG_fb_band) else s

/-- The end of start-up step 5 (R230, R231): cycles run from here, and the seconds without a sensor count. -/
def bandStart (s : State) : State :=
  startBandSync (wrB { s with ppx := { s.ppx with fresh := true, startBand := true, cycleAt := s.tick, noSince := some s.tick, fellBack := false } }
    F.PPX_STATUS_no_sensor true)

/-! Polarity and balance (R238 to R240) -/

/-- The phase of a common's next refresh (R238, R239). -/
def nextPhase (s : State) (c : Nat) (p : PolC) (pic : Nat) (first : Bool) : Bool :=
  if !p.started then on s (F.PPX_POL_CFG_init c) else
  let alt := !p.phase
  let want := !p.first
  if first && on s (F.PPX_POL_CFG_view_bal c) && p.firstPic = some (pic - 1) && pic != 0
    && decide ((p.bal + (if want then -1 else 1)).natAbs ≤ 1) then want else alt

/-- POL_STAT from the commons' states. -/
def polStat (s : State) : State :=
  let ph := s.ppx.pol.foldr (fun e a => 2 * a + b2n e.phase) 0
  let b := s.ppx.pol.foldr (fun e a => 4 * a + (e.bal % 4).toNat) 0
  wr (wr s F.PPX_POL_STAT_phase ph) F.PPX_POL_STAT_balance b

/-- One refresh of every enabled common (R238): the phases it is driven at. -/
def polRefresh (s : State) (pic : Nat) (first : Bool) : Nat × State :=
  if !isLC s then (0, s) else
  let pol := (List.range 8).map (fun c =>
    let p := s.ppx.pol.getD c ⟨0, false, false, false, none⟩
    if !on s (F.PPX_POL_CFG_en c) then p else
    let ph := nextPhase s c p pic first
    { p with bal := p.bal + (if ph then -1 else 1), phase := ph, started := true,
             first := if first then ph else p.first, firstPic := if first then some pic else p.firstPic })
  let s := polStat { s with ppx.pol := pol }
  (pol.foldr (fun e a => 2 * a + b2n e.phase) 0, s)

/-- Panel power-on: the balance starts at 0 and the first refresh takes POLc_CFG.init (R238, R325). -/
def polReset (s : State) : State := polStat { s with ppx.pol := List.replicate 8 ⟨0, false, false, false, none⟩ }

/-! Zoned backlight (R241 to R246) -/

/-- Key of a view's zone value. -/
def zoneKey (v z : Nat) : Nat := 4096 * v + z

/-- Zone values of a view for its next pass: 4,095 until a pass of the view has completed (R242). -/
def zoneValues (s : State) (v : Nat) : List Nat :=
  (List.range (zoneCols s * zoneRows s)).map (fun z => if s.ppx.zoned.getD v false then sget 4095 s.ppx.zones (zoneKey v z) else 4095)

/-- Every zone value of every view is 4,095 again: panel power-on, end of a non-seamless transition (R242). -/
def zonesReset (s : State) : State := { s with ppx := { s.ppx with zoned := List.replicate 5 false, zones := [] } }

/-- A BL_CLK period in ticks (R244). -/
def blBit (s : State) : Nat := 30 * 2 ^ rd s F.PPX_BL_GRID_clk

/-- CRC-6 of the 26 bits above the check field (R244). -/
def crc6 (v : Nat) : Nat :=
  ((List.range 26).reverse.foldl (fun c i =>
    let fb := (c / 32 + v / 2 ^ i) % 2
    let c := c * 2 % 64
    if fb = 1 then c ^^^ 3 else c) 63)

/-- A backlight word with its check field (Table 7.7). -/
def blWord (hi : Nat) : Nat := hi * 64 + crc6 hi

/-- A VALUE word of zone z. -/
def blValue (z v : Nat) : Nat := blWord (2 ^ 24 + 2 ^ 12 * (z % 4096) + v % 4096)

/-- A STROBE word of zone row j. -/
def blStrobe (j : Nat) (on_ : Bool) : Nat := blWord (2 ^ 25 + 2 ^ 23 * b2n on_ + 2 ^ 16 * (j % 128))

/-- Rows of zone row j as scan rows of the pass: every scan row whose panel line lies in the zone. -/
def zoneLines (s : State) (j : Nat) : Nat × Nat := (j * zoneH s, min ((j + 1) * zoneH s) (panelH s))

/-- The lit span of zone row j for a pass given w(y) and e(y) of its scan rows, with G and S of the pass's own bank (R81, R85); empty where the
first bound is not below the second. -/
def litSpan (s : State) (dir : Bool) (p : Pass) (j : Nat) : Nat × Nat :=
  let z := zoneLines s j
  let h := panelH s
  let rows := ((List.range (z.2 - z.1)).map (fun k => let Y := z.1 + k; if dir then h - 1 - Y else Y)).filterMap (fun y => p.rows[y]?)
  let a := rows.foldl (fun m r => max m (r.w + p.gap + p.settle)) 0
  let e := rows.foldl (fun m r => min m (r.spans.foldl (fun x t => max x t.2) 0)) (2 ^ 80)
  (a, if rows.isEmpty then 0 else e)

/-- The strobes of a pass in time order: (calendar tick of the latch, zone row, on). -/
def strobeList (s : State) (dir : Bool) (p : Pass) : List (Nat × Nat × Bool) :=
  let l := (List.range (zoneRows s)).flatMap (fun j =>
    let t := litSpan s dir p j
    if t.1 < t.2 then [(t.1, j, true), (t.2, j, false)] else [])
  sortBy l (fun a b => decide (a.1 ≤ b.1))

/-- A pass lights the backlight: an LC panel whose backlight is enabled for the pass, by its refresh start (R200), state ON, and a write scan that
starts at or after b_on (R329, R331; the strobes of b_off are the sequencer's). -/
def backlit (s : State) (p : Pass) : Bool :=
  isLC s && (if p.started then p.bl else on s F.PPX_BL_CFG_en) && psqState s = 5 && (match s.psq.bOn with | some t => decide (t ≤ p.start) | none => false)

/-- The strobes of the calendar's passes that are still to be sent, in time order: (tick of the latch at the pin, pass, zone row, on). -/
def strobesDue (s : State) (ps : List Pass) : List (Nat × Nat × Nat × Bool) :=
  sortBy ((ps.filter (backlit s)).flatMap (fun p =>
      ((strobeList s (on s F.SCN_MODE_dir) p).filter (fun e => !s.ppx.blDone.contains (p.start, e.2.1, e.2.2))).map
        (fun e => (e.1 + 49152, p.start, e.2.1, e.2.2))))
    (fun a b => decide (a.1 ≤ b.1))

/-- Word starts of the interface between the strobe words, in time order: `free` is the tick it is free. -/
def wordSlots (bit : Nat) : Nat → Nat → Nat → List Nat
  | 0, _, _ => []
  | n + 1, free, stop => if free + 32 * bit ≤ stop then free :: wordSlots bit n (free + 32 * bit) stop else []

/-- A word the interface is still to send, by the tick it is due to start: a strobe (pass, zone row, on), or a VALUE word already planned (none). -/
abbrev BlWord := Nat × Option (Nat × Nat × Bool)

/-- Walk the words in hand: for each zone row of pass `p`, the starts of its VALUE words, where all of them fit before its ON strobe word
(R246). `slots` are the word times passed and not used. -/
def valueFit (bit zc p : Nat) : List BlWord → Nat → List Nat → List (Nat × List Nat)
  | [], _, _ => []
  | (t, x) :: r, free, slots =>
    let start := max free t
    let slots := slots ++ wordSlots bit ((start - free) / (32 * bit)) free start
    match x with
    | some (q, j, on_) =>
      if on_ && q = p && decide (zc ≤ slots.length) then (j, slots.take zc) :: valueFit bit zc p r (start + 32 * bit) (slots.drop zc)
      else valueFit bit zc p r (start + 32 * bit) slots
    | none => valueFit bit zc p r (start + 32 * bit) slots

/-- Prepare the zone values of a pass: those that the zone rows latch at its ON strobes; a zone row whose words do not fit keeps its values
(R246). Its VALUE words are sent from the take of its first row on, when the values of every earlier pass are known (DESIGN CHOICE, log
entry 18); words of earlier passes that are still to be sent keep their places. `ps` are the calendar's passes. -/
def zonesForPass (s : State) (view start : Nat) (ps : List Pass) : List Nat × State :=
  let zc := zoneCols s
  if !(isLC s && on s F.PPX_BL_CFG_en) then ([], s) else
  let l := strobesDue s ps
  let ons := (l.filter (fun e => e.2.1 = start && e.2.2.2)).length
  let bit := blBit s
  let old := s.ppx.blVals.filter (fun e => decide (s.tick < e.1 + 32 * bit))
  let work : List BlWord := sortBy (l.map (fun e => (e.1 - 33 * bit, some (e.2.1, e.2.2.1, e.2.2.2))) ++ old.map (fun e => (e.1, none)))
    (fun a b => decide (a.1 ≤ b.1))
  let fit := valueFit bit zc start work (max s.ppx.blFree s.tick) []
  let want := zoneValues s view
  let lat := (List.range (zc * zoneRows s)).map (fun z => if fit.any (fun e => e.1 = z / zc) then want.getD z 4095 else sget 4095 s.ppx.latched z)
  let words := fit.flatMap (fun e => (e.2.zip (List.range zc)).map (fun x => (x.1, blValue (e.1 * zc + x.2) (want.getD (e.1 * zc + x.2) 4095))))
  (lat, bumpN { s with ppx := { s.ppx with latched := ssetList 4095 [] 0 lat, blVals := old ++ words } } F.PPX_BL_CNT_val_late (ons - fit.length))

/-- BACKLIGHT_STROBE (R245): the next ON or OFF strobe of zone row j is sent so that BL_LAT falls at its lit span's start or end plus L_out;
behind a word still being sent it is late. No pass lights outside ON (R329). `ps` are the calendar's passes. -/
def backlightStrobe (s : State) (ps : List Pass) (j : Nat) (on_ : Bool) : State :=
  match (strobesDue s ps).find? (fun e => e.2.2.1 = j && e.2.2.2 == on_ && (on_ || s.ppx.blDone.contains (e.2.1, j, true))) with
  | none => s
  | some (t, q, _) =>
    let bit := blBit s
    let s := reach s (t - 33 * bit)
    let s := if t - 33 * bit < s.ppx.blFree then bump s F.PPX_BL_CNT_strobe_late else s
    let start := max s.tick s.ppx.blFree
    { s with ppx := { s.ppx with blFree := start + 32 * bit, blWord := blStrobe j on_, blLat := start + 33 * bit, blDone := (q, j, on_) :: s.ppx.blDone } }

/-- Z of a zone from its maxima (R242). -/
def zoneZ (s : State) (a : Nat × Nat × Nat) : Nat :=
  let mix := rd s F.PPX_BL_CFG_mix
  let mean := if a.2.2 = 0 then 0 else a.2.1 / a.2.2
  max (rd s F.PPX_BL_CFG_min) ((mix * a.1 + (256 - mix) * mean + 128) / 256 / 16)

/-- The zone values that a completed pass leaves for the next pass of its view (R242). -/
def zonesEnd (s : State) (u : Run) : State :=
  if !(u.lc && u.kind = .content) then s else
  let s := (List.range (zoneCols s * zoneRows s)).foldl (fun s z =>
    { s with ppx.zones := sset 4095 s.ppx.zones (zoneKey u.view z) (zoneZ s (sget (0, 0, 0) u.zacc z)) }) s
  { s with ppx.zoned := s.ppx.zoned.set u.view true }

/-! Checksums (R247, R248) -/

/-- Fold the bytes of one driven line into a region's CRC: pixels left to right, R, G, B, two bytes each. -/
def crcLine (u : Run) (r : Nat) (Y : Nat) (vals : Array Nat) (c : Nat) : Nat :=
  let x0 := u.f (F.PPX_CRC_RECT0_x0 r)
  let y0 := u.f (F.PPX_CRC_RECT0_y0 r)
  let x1 := min (x0 + u.f (F.PPX_CRC_RECT1_w_m1 r) + 1) u.w
  if u.f (F.PPX_CRC_RECT0_views r) / 2 ^ u.view % 2 = 0 || Y < y0 || y0 + u.f (F.PPX_CRC_RECT1_h_m1 r) < Y then c else
  (List.range (3 * (x1 - x0))).foldl (fun c k => (leBytes (vals.getD (3 * x0 + k) 0) 2).foldl crcByte c) c

/-- The checksums of a pass whose write scan has ended (R248). -/
def crcEnd (s : State) (u : Run) : State :=
  (List.range 16).foldl (fun s r =>
    if u.f (F.PPX_CRC_RECT0_views r) / 2 ^ u.view % 2 = 0 then s else
    let s := wr s (F.PPX_CRC_crc r) (u.crc.getD r 0 ^^^ 0xFFFFFFFF)
    { s with ppx.tags := s.ppx.tags.set r (u.view * 2 ^ 29 + u.ordinal % 64 * 2 ^ 23 + u.pic % 2 ^ 23) }) s

/-- PPX_CRC_READ (R248). -/
def ppxCrcRead (s : State) (r : Nat) : State := wr s (F.PPX_CRC_TAG r) (s.ppx.tags.getD r 0)

/-! Drive capture (R249 to R251) -/

/-- CAP_ARM (R249): captures in hand are dropped with the buffer they were in. -/
def capArm (s : State) : State :=
  let s := wr (wr (wr s F.PPX_CAP_STAT_state 1) F.PPX_CAP_STAT_recs 0) F.PPX_CAP_USED_granules 0
  { s with ppx := { s.ppx with cap := some ⟨0, rd s F.PPX_CAP_CFG_count, false, s.tick⟩, capJobs := [] }
           cdc.cmpWait := s.cdc.cmpWait.filter (fun r => r.user != 4) }

/-- The session ends once nothing is left to capture and no capture is outstanding. -/
def capSettle (s : State) : State :=
  match s.ppx.cap with
  | some c => if (c.stop || c.left = 0) && s.ppx.capJobs.isEmpty then wr { s with ppx.cap := none } F.PPX_CAP_STAT_state 0 else s
  | none => s

/-- CAP_STOP (R249): captures that are running complete. -/
def capStop (s : State) : State := capSettle { s with ppx.cap := s.ppx.cap.map (fun c => { c with stop := true }) }

/-- The worst case of a capture in bytes (R250). -/
def capWorst (s : State) : Nat := 3 * (64 + panelBW s * panelBH s * 1552)

/-- The capture buffer's address and length. -/
def capBase (s : State) : Nat := 4096 * rd s F.PPX_CAP_BASE_LO_addr + 2 ^ 32 * rd s F.PPX_CAP_BASE_HI_addr
def capBytes (s : State) : Nat := 4096 * rd s F.PPX_CAP_LEN_len

/-- At a refresh start: is the pass captured (1), refused (2) or not (0)? The worst case is reserved first, beside that of captures still
being written; when it does not fit the session ends FULL with an event (R249 to R251). A refused pass is no capture of the session's count
(DESIGN CHOICE, log entry 67). -/
def capSelect (s : State) (u : Run) : Nat × State :=
  match s.ppx.cap with
  | none => (0, s)
  | some c =>
    if c.stop || c.left = 0 || u.start ≤ c.armAt || rd s F.PPX_CAP_CFG_views / 2 ^ u.view % 2 = 0 then (0, s)
    else if c.skip != 0 then (0, { s with ppx.cap := some { c with skip := c.skip - 1 } })
    else
      let job : CapJob := ⟨u.num, u.pic, u.view, u.ordinal, u.prot, false, false, []⟩
      let c := { c with skip := rd s F.PPX_CAP_CFG_every_m1 }
      if u.prot then (2, bump { s with ppx := { s.ppx with cap := some c, capJobs := s.ppx.capJobs ++ [job] } } F.PPX_CAP_CNT_refused)
      else if capBytes s < 64 * rd s F.PPX_CAP_USED_granules + capWorst s * ((s.ppx.capJobs.filter (fun j => !j.refused)).length + 1) then
        (0, info (wr { s with ppx.cap := none } F.PPX_CAP_STAT_state 2) blkPPX 0 F.PPX_CAP_STAT_state)
      else (1, { s with ppx := { s.ppx with cap := some { c with left := c.left - 1 }, capJobs := s.ppx.capJobs ++ [job] } })

/-- Change the capture of a run. -/
def modCapJob (s : State) (run : Nat) (f : CapJob → CapJob) : State :=
  { s with ppx.capJobs := s.ppx.capJobs.map (fun j => if j.run = run then f j else j) }

/-- The capture of a run that still goes on. -/
def capLive (s : State) (run : Nat) : Option CapJob := s.ppx.capJobs.find? (fun j => j.run = run && !j.refused && !j.abandoned)

/-- A block row of a captured pass has been driven: its blocks go to the compress lanes, plane by plane (R156, R250). -/
def capRow (s : State) (u : Run) (by_ : Nat) (bs : List (Nat × List Nat)) : State :=
  if (capLive s u.num).isNone then s else
  askCmp s (bs.flatMap (fun b => (List.range 3).map (fun p =>
    (⟨4, 0, 2, true, (b.2.drop (1024 * p)).take 1024, 0, .capture u.num p (blkKey b.1 by_)⟩ : CmpReq))))

/-- Scan row of the pass's direction at which block row by_ begins. -/
def capRowStart (u : Run) (by_ : Nat) : Nat := if u.f F.SCN_MODE_dir = 1 then u.h - min u.h (32 * by_ + 32) else 32 * by_

/-- The first scan row whose block row the capture does not hold whole. -/
def capBehind (s : State) (u : Run) (j : CapJob) : Nat :=
  match u.blockRows.find? (fun r => (List.range (panelBW s)).any (fun i => (List.range 3).any (fun p =>
    (sget [] j.blocks (65536 * p + blkKey i r)).isEmpty))) with
  | some r => capRowStart u r
  | none => u.h

/-- A capture more than 64 scan rows behind its pass, whose next row is y, is abandoned and counted: blocks that wait for a lane are dropped, those
it has stay its own until its segments are closed (R251; how the distance is counted is DESIGN CHOICE, log entry 67). -/
def capLag (s : State) (u : Run) (y : Nat) : State :=
  match capLive s u.num with
  | none => s
  | some j =>
    if y ≤ capBehind s u j + 64 then s else
    let s := bump (modCapJob s u.num (fun j => { j with abandoned := true })) F.PPX_CAP_CNT_abandoned
    { s with cdc.cmpWait := s.cdc.cmpWait.filter (fun r => match r.tag with | .capture k _ _ => k != u.num | _ => true) }

/-- A verified block of a capture (R159, R250). -/
def capBlock (s : State) (run plane blk : Nat) (bs : List Byte) : State :=
  if (capLive s run).isNone then s else
  countMode (modCapJob s run (fun j => { j with blocks := sset [] j.blocks (65536 * plane + blk) bs })) bs

/-- A pass that is captured or refused has been driven. -/
def capDriven (s : State) (u : Run) : State := modCapJob s u.num (fun j => { j with driven := true })

/-- The record of a capture (Table 7.8). -/
def capRecord (s : State) (j : CapJob) (status bytes addr : Nat) : State :=
  let n := rd s F.PPX_CAP_STAT_recs
  let a := rd s F.PPX_CAP_REC_offset + 32 * (n % 2 ^ rd s F.PPX_CAP_REC_log2n)
  let s := lstKeep s a (leBytes j.pic 8 ++ leBytes j.view 1 ++ leBytes j.ordinal 1 ++ leBytes status 1 ++ [0#8] ++ leBytes bytes 4
    ++ leBytes addr 8 ++ List.replicate 8 0#8)
  wr s F.PPX_CAP_STAT_recs (n + 1)

/-- The blocks a capture has of one plane, by region index in region order, as far as they follow one another: from the region's start, or, where
the scan runs upwards, whole block rows to the region's end (R165, R251; log entry 67). -/
def capRun (s : State) (j : CapJob) (plane : Nat) : Nat × List (List Byte) :=
  let nb := panelBW s * panelBH s
  let b := fun i => sget [] j.blocks (65536 * plane + blkKey (i % panelBW s) (i / panelBW s))
  let front := ((List.range nb).takeWhile (fun i => !(b i).isEmpty)).length
  if front != 0 || !on s F.SCN_MODE_dir then (0, (List.range front).map b)
  else
    let rows := ((List.range (panelBH s)).reverse.takeWhile (fun r => (List.range (panelBW s)).all (fun i => !(b (r * panelBW s + i)).isEmpty))).length
    let first := nb - rows * panelBW s
    (first, (List.range (rows * panelBW s)).map (fun i => b (first + i)))

/-- One segment of a capture (R250, R251). -/
def capSegment (s : State) (j : CapJob) (plane : Nat) : List Byte :=
  let r := capRun s j plane
  let body := r.2.flatMap pad16
  segHeader 2 (panelW s) (panelH s) r.1 r.2.length (64 + body.length) (plane * 2 ^ 30 + j.view * 2 ^ 27 + j.pic % 2 ^ 27) ++ body

/-- A capture is over: refused and driven, abandoned, or driven with every block verified. -/
def capOver (s : State) (j : CapJob) : Bool :=
  j.abandoned || (j.driven && (j.refused || (List.range 3).all (fun p => (List.range (panelBW s * panelBH s)).all (fun i =>
    !(sget [] j.blocks (65536 * p + blkKey (i % panelBW s) (i / panelBW s))).isEmpty))))

/-- CAPTURE_DONE (R250, R251): the oldest capture, once it is over: its segments are in the buffer, whole or as far as the capture came, and its
record is written. `abandoned` says which end the command tells of: of a capture with the other one it tells nothing. -/
def captureDone (s : State) (abandoned : Bool) : State :=
  match s.ppx.capJobs with
  | [] => s
  | j :: rest =>
    if !capOver s j || j.abandoned != abandoned then s else
    let s := { s with ppx.capJobs := rest }
    let s :=
      if j.refused then capRecord s j 2 0 0
      else
        let addr := capBase s + 64 * rd s F.PPX_CAP_USED_granules
        let bs := (List.range 3).flatMap (capSegment s j)
        let s := gddrPut s 7 addr bs
        let s := wr s F.PPX_CAP_USED_granules (rd s F.PPX_CAP_USED_granules + (bs.length + 63) / 64)
        capRecord s j (b2n j.abandoned) bs.length addr
    capSettle s

/-- PPX_CLR_CNT (R253). -/
def ppxClrCnt (s : State) : State :=
  wrB (clearRegs s [F.PPX_CNT_WF.off, F.PPX_CNT_BAND.off, F.PPX_CNT_SNSFAIL.off, F.PPX_CNT_WR_IGN.off, F.PPX_BL_CNT.off,
    F.PPX_CAP_CNT.off]) F.PPX_STATUS_wr_ign false

/-! Meanings -/

def execSensorCycle (reads : List SnsRead) (s : State) : Host.Outcome State Fault Refusal := .next (sensorCycle s reads)
def execSensorFailTimeout (s : State) : Host.Outcome State Fault Refusal := .next (sensorFailTimeout s)
def execCaptureDone (abandoned : Bool) (s : State) : Host.Outcome State Fault Refusal := .next (captureDone s abandoned)

end Sys2Proof.Machine
end

