-- ==== Sys2Proof/Machine/Tmb.lean ====
section
/-!
DEFINITION. The time base (spec/02_time_base.md): reference edges and their windows, lock, holdover and re-lock, picture
numbers and boundaries, lockstep.
-/

namespace Sys2Proof.Machine

/-! States of Table 2.3 -/

def tmFREE : Nat := 0
def tmACQUIRE : Nat := 1
def tmLOCKED : Nat := 2
def tmHOLDOVER : Nat := 3
def tmSLEW : Nat := 4
def tmOOR : Nat := 5

/-- The time base's state code (R34). -/
def tmbState (s : State) : Nat := rd s F.TMB_STATUS_state

/-- The picture period P in effect (R29). -/
def picPeriod (s : State) : Nat := rd s F.TMB_PIC_PERIOD_ticks

/-- The reference period T_ref (R30). -/
def tRef (s : State) : Nat := picPeriod s * rd s F.TMB_REF_RATIO_pic_mul / rd s F.TMB_REF_RATIO_ref_div

/-- TMB.REF_OFFSET, signed (R31). -/
def refOffset (s : State) : Int := rdS s F.TMB_REF_OFFSET_ticks

/-- The selected reference source (R27). -/
def refSrc (s : State) : Nat := rd s F.TMB_REF_CFG_src

/-- The phase of the running picture period (R32). -/
def phaseNow (s : State) : Nat := s.tick - s.tmb.bound

/-- The first boundary strictly after `t` on the grid that falls REF_OFFSET ticks after `align` and every P ticks (R31). -/
def gridAfter (align : Int) (off : Int) (p t : Nat) : Nat :=
  if p = 0 then t + 1 else
  let g : Int := align + off
  (g + (((t : Int) - g) / p + 1) * p).toNat

/-! Frequency applied (Table 2.3, R26, R39) -/

/-- The average of the offsets applied over the last second of LOCKED, log newest first, with their total span. -/
def freqSum (lo : Nat) : Nat → List (Nat × Int) → Int × Nat
  | _, [] => (0, 0)
  | e, (t, f) :: r =>
    let t' := max t lo
    let here : Int × Nat := (f * ((e - t' : Nat) : Int), e - t')
    if t ≤ lo then here else
    let rest := freqSum lo t' r
    (here.1 + rest.1, here.2 + rest.2)

/-- The log of the last second: entries back to the one in force at tick `lo`. -/
def keepLog (lo : Nat) : List (Nat × Int) → List (Nat × Int)
  | [] => []
  | e :: r => if e.1 ≤ lo then [e] else e :: keepLog lo r

/-- The frozen offset of HOLDOVER and OUT_OF_RANGE: the average of the last 1 s of LOCKED, which may have been left for SLEW since, or the
offset in force where LOCKED has not been entered (Table 2.3). -/
def frozenOffset (s : State) : Int :=
  let e := if tmbState s = tmLOCKED then s.tick else s.tmb.lockEnd
  let a := freqSum (e - Config.tickHz) e s.tmb.freqLog
  if a.2 = 0 then (match s.tmb.freqLog with | (_, f) :: _ => f | [] => rdS s F.TMB_FREQ_OFS_ppb) else a.1 / a.2

/-- The offset limit of R26 in parts per 10^9. -/
def freqLimit : Nat := 200000

/-- Apply an offset from nominal; it never exceeds ±200 ppm (R26). -/
def setOffset (s : State) (ppb : Int) : State :=
  let f := clampI ppb (-200000) 200000
  let s := wrS s F.TMB_FREQ_OFS_ppb f
  if tmbState s = tmLOCKED then { s with tmb.freqLog := (s.tick, f) :: keepLog (s.tick - Config.tickHz) s.tmb.freqLog } else s

/-- The loop's output in ACQUIRE and LOCKED: the loop filter is not given, so the offset is a free value within R26
(log entry 5). -/
def loopOffset (s : State) : State :=
  let r := freeInt s 1 freqLimit
  setOffset r.2 r.1

/-- The reference's measured offset in ppb over the 16 most recent edges (R37); none before 16 edges. -/
def refMeasured (s : State) : Option Int :=
  match s.tmb.recent with
  | t0 :: r =>
    if r.length = 15 then
      let span := r.getLastD t0 - t0
      if span = 0 then none else some (((15 * tRef s * 1000000000 : Nat) : Int) / span - 1000000000)
    else none
  | [] => none

/-- SLEW: the reference's frequency plus a correction of at most max_ppm, changing by at most `rate` ppm per second, against the
sign of the wrapped phase error (R39); how fast the correction moves within these bounds is a free value (log entry 5). -/
def slewOffset (s : State) (err : Int) : State :=
  let mx := rd s F.TMB_SLEW_max_ppm * 1000
  let st : Int := ((rd s F.TMB_SLEW_rate * 1000 * (s.tick - s.tmb.corrAt) / Config.tickHz : Nat) : Int)
  let r := freeBelow s 2 (mx + 1)
  let s := r.2
  let want : Int := if 0 < err then -(r.1 : Int) else if err < 0 then r.1 else 0
  let c := clampI (clampI want (s.tmb.corr - st) (s.tmb.corr + st)) (-(mx : Int)) mx
  let s := { s with tmb := { s.tmb with corr := c, corrAt := s.tick } }
  match refMeasured s with
  | some f => setOffset s (f + c)
  | none =>
    let q := freeInt s 3 freqLimit
    setOffset q.2 (q.1 + c)

/-! State changes -/

/-- The nearest whole number of periods from b to a. -/
def boundaryDist (a b : Int) (p : Nat) : Int := (a - b + (p / 2 : Nat)) / p

/-- The number of the boundary at tick b: on a worker the manager's, by its last usable beacon (R33). -/
def numberAt (s : State) (b : Nat) : Nat :=
  match s.tmb.mgr with
  | some (n, t) => ((n : Int) + boundaryDist b t (picPeriod s)).toNat
  | none => s.tmb.picNext

/-- Place the first boundary when the time base leaves ACQUIRE with no boundary placed yet (R33). -/
def placeFirst (s : State) : State :=
  match s.tmb.next, s.tmb.align with
  | none, some a =>
    let b := gridAfter a (refOffset s) (picPeriod s) s.tick
    { s with tmb := { s.tmb with next := some b, picNext := numberAt s b } }
  | _, _ => s

/-- Step 8 of start-up ends (R520); once the image stands, step 9 asks the panel on while PSQ.CFG.auto is 1 (R521). -/
def step8End (s : State) : State :=
  let s := { s with boot.step8 := true }
  if s.boot.imageOk && on s F.PSQ_CFG_auto then wr { s with psq.req := true } F.PSQ_FAULT 0 else s

/-- Enter a state of Table 2.3 with what its entry does (R34, R38, Table 2.3). LOCKED ends step 8 of start-up (R520). -/
def tmbEnter (s : State) (new : Nat) : State :=
  let old := tmbState s
  if old = new then s else
  let frozen := frozenOffset s
  let s := if old = tmLOCKED then { s with tmb.lockEnd := s.tick } else s
  let s := wr s F.TMB_STATUS_state new
  let s := if old = tmACQUIRE && new != tmFREE then placeFirst s else s
  let s := if new = tmHOLDOVER then
      info (bump s F.TMB_REF_CNT_holdovers) blkTMB 0 F.TMB_REF_CNT_holdovers
    else s
  let s := if new = tmHOLDOVER || new = tmOOR then
      setOffset { s with tmb := { s.tmb with holdAt := s.tick, held60 := false, missRun := 0 } } frozen
    else s
  let s := if new = tmLOCKED then { s with tmb.freqLog := [(s.tick, rdS s F.TMB_FREQ_OFS_ppb)] } else s
  let s := if new = tmLOCKED && s.boot.end5.isSome && !s.boot.step8 then step8End s else s
  if new = tmSLEW then { s with tmb := { s.tmb with corr := 0, corrAt := s.tick } } else s

/-- Discard the calendar banks built on the old phase with all they put into the calendar: passes, windows and guards, pulses, sense slots with
their packets and the rows not yet asked for (R40). -/
def discardBanks (s : State) : State :=
  { s with exs := { s.exs with bank := none, next := none, carried := [], built := [], deferred := [], oldSlots := [], frozen := [], frozenSub := none
                               cams := s.exs.cams.map (fun e => (e.1, { e.2 with guard := [] })) }
           drv := { s.drv with pulses := [], queue := s.drv.queue.filter (fun p => p.typ != 3) }
           age.rows := s.age.rows.filter (fun r => r.asked)
           ppx.blDone := [] }

/-- Step phase to the grid of an alignment edge (R31, R40): the phase counts from the grid's boundary at or before now, the last boundary keeps
its number, and the next one on the grid carries the next number. -/
def stepPhase (s : State) (ts : Int) : State :=
  match s.tmb.next with
  | some _ =>
    let b := gridAfter ts (refOffset s) (picPeriod s) s.tick
    discardBanks { s with tmb := { s.tmb with next := some b, bound := b - picPeriod s } }
  | none => s

/-- The tick at which miss_cnt windows after window k have passed without an accepted edge (TMB.STATUS.ref_present, R44). -/
def presentUntil (s : State) (k : Int) : Nat :=
  ((s.tmb.align.getD 0) + (k + rd s F.TMB_LOCK_CFG_miss_cnt) * tRef s + rd s F.TMB_REF_WIN_ticks + syncLat).toNat

/-- Take an edge as the alignment edge and step phase to it; only while panel outputs do not run (R40). The boundaries placed
from it carry on the numbering (R32). The edge counts as the first good accepted edge of R36 (DEDUCED, log entry 6). -/
def alignTo (s : State) (ts : Int) : State :=
  let s := { s with tmb := { s.tmb with align := some ts, realign := false, wide := false, acc := some 0, win := 1,
                                        good := 1, bad := 0, missRun := 0 } }
  let s := wrB (wr s F.TMB_PHASE_ERR_ticks 0) F.TMB_STATUS_ref_present true
  let s := stepPhase { s with tmb.presentTo := presentUntil s 0 } ts
  let s := loopOffset (tmbEnter s tmACQUIRE)
  if rd s F.TMB_LOCK_CFG_lock_cnt ≤ 1 then tmbEnter s tmLOCKED else s

/-- What every accepted edge leaves: its window, its phase error, given in 1/64 tick, and the run of good or bad edges (R35, R36, R364). -/
def noteEdge (s : State) (k : Int) (err : Int) : State :=
  let ok := decide (err.natAbs ≤ 64 * rd s F.TMB_LOCK_CFG_lock_thr)
  let s := { s with tmb := { s.tmb with acc := some k, win := max s.tmb.win (k + 1), missRun := 0, presentTo := presentUntil s k,
                                        good := if ok then s.tmb.good + 1 else 0, bad := if ok then 0 else s.tmb.bad + 1 } }
  wrB (wrS s F.TMB_PHASE_ERR_ticks (err / 64)) F.TMB_STATUS_ref_present true

/-- An accepted edge in window `k` with phase error `err` in 1/64 tick (R36): the first one under wide acceptance moves the time base to SLEW (R570). In
OUT_OF_RANGE, which only measurements leave (R37), it is noted and changes nothing more. -/
def acceptEdge (s : State) (k : Int) (err : Int) (wide : Bool) : State :=
  let s := noteEdge s k err
  let st := tmbState s
  if st = tmOOR then s else
  let s := if st = tmFREE || st = tmHOLDOVER || (wide && (st = tmLOCKED || st = tmACQUIRE)) then tmbEnter s tmSLEW else s
  let st := tmbState s
  let s := if (st = tmACQUIRE || st = tmSLEW) && rd s F.TMB_LOCK_CFG_lock_cnt ≤ s.tmb.good then tmbEnter s tmLOCKED
    else if st = tmLOCKED && 2 ≤ s.tmb.bad then tmbEnter s tmSLEW else s
  if tmbState s = tmSLEW then slewOffset s err else loopOffset s

/-- The measurement of R37 at an edge of the selected reference: entry to and exit from OUT_OF_RANGE. -/
def measureEdge (s : State) (ts : Nat) : State :=
  let rec' := (s.tmb.recent ++ [ts]).drop ((s.tmb.recent.length + 1) - 16)
  let s := { s with tmb.recent := rec' }
  if rec'.length < 16 then s else
  let span := ts - rec'.headD ts
  let nom := 15 * tRef s
  let out := decide (span < (if nom ≤ span then span - nom else nom - span) * 10000)
  if out then tmbEnter { s with tmb.inRange := 0 } tmOOR
  else
    let s := { s with tmb.inRange := s.tmb.inRange + 1 }
    if tmbState s = tmOOR && 16 ≤ s.tmb.inRange then
      tmbEnter { s with tmb := { s.tmb with wide := true, good := 0, bad := 0 } } (if outputsRun s then tmSLEW else tmACQUIRE)
    else s

/-- A stray edge is counted and otherwise ignored (R35). -/
def strayEdge (s : State) : State := bump s F.TMB_REF_CNT_strays

/-- An edge of the selected reference with its timestamp (R35, R37, R40, R570): measured first, then judged in the state the measurement has
left; the edge of the sixteenth measurement in range is the first of the wide acceptance that follows (DESIGN CHOICE, log entry 62). Where
outputs have started to run while ACQUIRE had no alignment edge, no expected time exists, and every edge is ignored until they stop (DESIGN
CHOICE, log entry 62). `frac` is the fraction of a reconstructed instant in 1/64 tick, which the phase error keeps and the window does not (R364); the
alignment edge itself is taken without it (DEDUCED, log entry 6). A realign still pending in OUT_OF_RANGE, or when panel outputs start before the next accepted edge, does not lapse: it acts
at the first accepted edge after that state has been left, or after the outputs have stopped (DESIGN CHOICE, log entry 83). -/
def refEdge (s : State) (ts : Nat) (frac : Nat := 0) : State :=
  let s := measureEdge s ts
  let t := tRef s
  match s.tmb.align with
  | none => if outputsRun s || tmbState s = tmOOR then s else alignTo s ts
  | some a =>
    if t = 0 then s else
    let d : Int := (ts : Int) - a
    let k : Int := (d + (t / 2 : Nat)) / t
    let err : Int := d - k * t
    let w : Int := rd s F.TMB_REF_WIN_ticks
    if s.tmb.wide then
      if outputsRun s || tmbState s = tmOOR then
        let s := if err.natAbs < w then { s with tmb.wide := false } else s
        acceptEdge s k (64 * err + frac) true
      else alignTo s ts
    else if k < 0 || err < -w || w ≤ err || s.tmb.acc = some k then strayEdge s
    else if s.tmb.realign && !outputsRun s && tmbState s != tmOOR then alignTo s ts
    else acceptEdge s k (64 * err + frac) false

/-- Is an edge of this origin an edge of the selected reference (R27)? -/
def isRef (s : State) : EdgeSrc → Bool
  | .pin => refSrc s = 1 || refSrc s = 2
  | .sdi n => refSrc s = 3 && rd s F.TMB_REF_CFG_inp = n.val

/-- GENLOCK_EDGE (R35): known 6 ticks after its timestamp (R42). -/
def genlockEdge (s : State) (src : EdgeSrc) (ts : Nat) : State :=
  let s := reach s (ts + syncLat)
  if isRef s src && (tmbState s != tmFREE || s.tmb.wide) then refEdge s ts else s

/-- ACQUIRE loses its alignment edge after miss_cnt misses (R38). -/
def dropAlign (s : State) : State :=
  info (setOffset { s with tmb := { s.tmb with align := none, good := 0, bad := 0, missRun := 0 } } 0) blkTMB 0 F.TMB_REF_CNT_misses

/-- EDGE_MISS (R35, R38, R44): the window of the next expected edge has ended without an accepted edge, decided at end + 6. -/
def edgeMiss (s : State) : State :=
  match s.tmb.align with
  | none => s
  | some a =>
    let st := tmbState s
    if s.tmb.wide || st = tmFREE || tRef s = 0 then s else
    let s := reach s (a + s.tmb.win * tRef s + rd s F.TMB_REF_WIN_ticks + syncLat).toNat
    let s := { s with tmb := { s.tmb with win := s.tmb.win + 1, missRun := s.tmb.missRun + 1 } }
    let s := bump s F.TMB_REF_CNT_misses
    if s.tmb.missRun < rd s F.TMB_LOCK_CFG_miss_cnt then s else
    let s := wrB s F.TMB_STATUS_ref_present false
    if st = tmLOCKED || st = tmSLEW then tmbEnter s tmHOLDOVER
    else if st = tmACQUIRE then dropAlign s
    else s

/-- HOLDOVER_60S (R38, Table 14.7). -/
def holdover60 (s : State) : State :=
  if tmbState s = tmHOLDOVER && !s.tmb.held60 then
    let s := reach s (s.tmb.holdAt + 60 * Config.tickHz)
    alarmSet (info { s with tmb.held60 := true } blkTMB 0 F.TMB_HOLD_TIME_ms) almHOLD60
  else s

/-- TMB_SNAP (R57). Before picture number 0 the position in time does not exist: its values are free (log entry 7). -/
def tmbSnap (s : State) : State :=
  let s := wr (wr s F.TMB_SNAP_TICK_LO_tick s.tick) F.TMB_SNAP_TICK_HI_tick (s.tick / 2 ^ 32)
  match s.tmb.pic with
  | some n =>
    wr (wr (wr s F.TMB_SNAP_PIC_LO_picture n) F.TMB_SNAP_PIC_HI_picture (n / 2 ^ 32)) F.TMB_SNAP_PHASE_phase (phaseNow s)
  | none =>
    let a := free s 4
    let b := free a.2 5
    wr (wr (wr b.2 F.TMB_SNAP_PIC_LO_picture a.1) F.TMB_SNAP_PIC_HI_picture (a.1 / 2 ^ 32)) F.TMB_SNAP_PHASE_phase b.1

/-- TMB_REALIGN (R40). -/
def tmbRealign (s : State) : State :=
  if outputsRun s then bump s F.TMB_REF_CNT_realign_ign else { s with tmb.realign := true }

/-- TMB_CLR_CNT (R58). -/
def tmbClrCnt (s : State) : State := clearRegs s [F.TMB_REF_CNT.off]

/-! Lockstep (R54, R55, R528, R529) -/

/-- What the copies that hold the same hold. -/
def lockCopy (s : State) : LockCopy :=
  { tick := s.tick, ppb := rdS s F.TMB_FREQ_OFS_ppb, lock := (s.tmb.good, s.tmb.bad, s.tmb.missRun), corr := s.tmb.corr, pic := s.tmb.pic,
    bound := s.tmb.bound, bank := s.exs.bank, next := s.exs.next, carried := s.exs.carried, cams := s.exs.cams }

/-- What copy B (`b` true) or A holds (R54): what the other holds, computed from the same inputs in every tick; nothing that is known while it is
being reloaded (R55). A copy that deviates shows in LOCKSTEP_MISMATCH, whose operands are the two self-checks (log entry 8). -/
def copyOf (s : State) (b : Bool) : Option LockCopy :=
  if on s F.TMB_STATUS_resync && on s F.TMB_STATUS_bad_copy == b then none else some (lockCopy s)

/-- The mod-3 residue code of a counter (R54). -/
def residue3 (n : Nat) : Nat := n % 3

/-- The residue codes a copy carries with its counters: tick, picture number, boundary (R54). -/
def copyResidues (c : LockCopy) : Nat × Option Nat × Nat := (residue3 c.tick, c.pic.map residue3, residue3 c.bound)

/-- The comparison of a tick: suspended while a copy is reloaded (R54, R528). -/
def copiesAgree (s : State) : Bool :=
  match copyOf s false, copyOf s true with
  | some a, some b => a == b && copyResidues a == copyResidues b
  | _, _ => true

/-- A mismatch with no failing self-check, or a second fault: fatal alarm (R55, R529). -/
def lockstepUncovered (s : State) : State := alarmSet (bump s F.TMB_LOCKSTEP_uncovered) almLOCKSTEP

/-- The code of a failing self-check in a record: 1 residue, 2 SEC-DED (DESIGN CHOICE, log entry 8). -/
def selfCheckCode : SelfCheck → Nat
  | .pass => 0 | .residue => 1 | .secded => 2

/-- One copy is marked bad, outputs come from the other, and the reload starts (R55, R528). -/
def lockstepBad (s : State) (b : Bool) (c : SelfCheck) : State :=
  let s := bump s F.TMB_LOCKSTEP_mismatches
  let s := wrB (wrB s F.TMB_STATUS_bad_copy b) F.TMB_STATUS_resync true
  let s := { s with tmb.useB := !b }
  warning s blkTMB 0 F.TMB_LOCKSTEP_mismatches [(if b then 1 else 0, 1), (selfCheckCode c, 1)]

/-- LOCKSTEP_MISMATCH. During a reload comparison is suspended and only a failing self-check of the copy in use matters (R529).
Two failing copies are a second fault and are treated as uncovered (log entry 8). -/
def lockstepMismatch (s : State) (a b : SelfCheck) : State :=
  if on s F.TMB_STATUS_resync then
    if (if s.tmb.useB then b else a) != .pass then lockstepUncovered s else s
  else match a, b with
    | .pass, .pass => lockstepUncovered { s with tmb.useB := false }
    | .pass, c => lockstepBad s true c
    | c, .pass => lockstepBad s false c
    | _, _ => lockstepUncovered { s with tmb.useB := false }

/-- LOCKSTEP_RELOAD_DONE (R55): the reload has completed and comparison resumes. -/
def lockstepReloadDone (s : State) : State := wrB s F.TMB_STATUS_resync false

/-! Anchoring after a commit (R31, R41) -/

/-- The instant b − REF_OFFSET counts as the alignment edge and edges are accepted widely (R31, R570). That instant is an expected edge
still to come where REF_OFFSET is negative. -/
def reanchor (s : State) (b : Int) : State :=
  if refSrc s = 0 then s else
  { s with tmb := { s.tmb with align := some (b - refOffset s), wide := true, win := if refOffset s < 0 then 0 else 1, acc := none,
                               missRun := 0 } }

/-- No reference is in use any more: free run at the frozen offset where panel outputs run, which pass through HOLDOVER (R41); else at the
value the last HOLDOVER set, or nominal (Table 2.3; which of the two is DESIGN CHOICE, log entry 9). -/
def refNone (s : State) : State :=
  let s := wrB { s with tmb := { s.tmb with wide := false, align := none } } F.TMB_STATUS_ref_present false
  let st := tmbState s
  if outputsRun s && st != tmFREE then tmbEnter (tmbEnter s tmHOLDOVER) tmFREE
  else if st = tmHOLDOVER || st = tmOOR then tmbEnter s tmFREE
  else setOffset (tmbEnter s tmFREE) 0

/-- A change of the reference at boundary b (R41). The new reference's edges are compared with the running schedule under wide
acceptance while outputs run (DEDUCED, log entry 9). -/
def refChange (s : State) (b : Nat) : State :=
  let s := { s with tmb := { s.tmb with recent := [], inRange := 0, good := 0, bad := 0, missRun := 0 } }
  if refSrc s = 0 then refNone s
  else if outputsRun s then reanchor (tmbEnter s tmHOLDOVER) b
  else tmbEnter { s with tmb := { s.tmb with align := none, wide := false } } tmACQUIRE

/-! Meanings -/

def execGenlockEdge (src : EdgeSrc) (ts : Nat) (s : State) : Host.Outcome State Fault Refusal := .next (genlockEdge s src ts)
def execEdgeMiss (s : State) : Host.Outcome State Fault Refusal := .next (edgeMiss s)
def execHoldover60s (s : State) : Host.Outcome State Fault Refusal := .next (holdover60 s)
def execLockstepMismatch (a b : SelfCheck) (s : State) : Host.Outcome State Fault Refusal := .next (lockstepMismatch s a b)
def execLockstepReloadDone (s : State) : Host.Outcome State Fault Refusal := .next (lockstepReloadDone s)

end Sys2Proof.Machine
end

