-- ==== Sys2Proof/Machine/Scn.lean ====
section
/-!
DEFINITION. Scan-out (spec/06_scanout.md): refresh starts, strips and their fetches, rows through panel processing, substitution and
Frost (R190 to R197, R526, R527), commit sets and non-seamless transitions (R198 to R209).
-/

namespace Sys2Proof.Machine

/-- L_out (R177). -/
def lOut : Nat := 49152

/-! Passes -/

/-- Passes known to the calendar: those carried from earlier banks, then the active bank's. -/
def allPasses (s : State) : List Pass := s.exs.carried ++ (match s.exs.bank with | some b => b.passes | none => [])

/-- Change the pass that starts at `start`. -/
def modPass (s : State) (start : Nat) (f : Pass → Pass) : State :=
  let g := fun p : Pass => if p.start = start then f p else p
  { s with exs := { s.exs with carried := s.exs.carried.map g, bank := s.exs.bank.map (fun b => { b with passes := b.passes.map g }) } }

/-- The earliest pass satisfying a test. -/
def firstPass (s : State) (p : Pass → Bool) : Option Pass := minBy (fun x : Pass => x.start) ((allPasses s).filter p)

/-- The tick at which row y of a scan is programmed (R74). -/
def rowTick (start q y : Nat) : Nat := start + rndShr (y * q) 16

/-- The take tick of row y (R178). -/
def takeTick (u : Run) (y : Nat) : Nat := rowTick u.start u.q y + lOut - 3072

/-- Replace a run. -/
def setRun (s : State) (u : Run) : State := { s with scn.runs := s.scn.runs.map (fun x => if x.num = u.num then u else x) }

/-- The run of a number. -/
def findRun (s : State) (n : Nat) : Option Run := s.scn.runs.find? (fun u => u.num = n)

/-- Blocks of scan-out that wait for a lane, or whose reads wait in the memory scheduler, take the urgency their layer has now (R192). -/
def freshUrg (s : State) : State :=
  let l := s.scn.runs.map (fun u => (u.num, (List.range 6).map (urgencyOf s u)))
  let f := fun (r : DecReq) => match r.tag with
      | .scan n k => (match l.find? (fun e => e.1 = n) with | some e => { r with urg := e.2.getD k 0 } | none => r)
      | _ => r
  { s with cdc := { s.cdc with decWait := s.cdc.decWait.map f, decLanes := s.cdc.decLanes.map (fun r => r.map f) } }

/-- Fetch urgencies of the run whose rows are next, and of what waits for a lane or in the memory scheduler (R192). SCN.STATUS.urg reads 0 while no
content pass has rows to take (DESIGN CHOICE, log entry 66). -/
def urgStatus (s : State) : State :=
  let s := freshUrg s
  match s.scn.runs.find? (fun u => decide (u.yTake < u.h)) with
  | some u =>
    if u.kind = .content then
      wr s F.SCN_STATUS_urg ((List.range 4).foldl (fun a l => a + urgencyOf s u l * 4 ^ l) 0)
    else wr s F.SCN_STATUS_urg 0
  | none => wr s F.SCN_STATUS_urg 0

/-! Refresh start (R127, R181, R182, R232, R235) -/

/-- The pass latches its band, if it has not yet: the latch of its tick comes before the refresh start (R52, R232). -/
def latchBand (s : State) (p : Pass) : State :=
  if p.latched then s else modPass (wr s F.PPX_STATUS_latched (bandNow s)) p.start (fun p => { p with latched := true })

/-- BAND_LATCH (R232, Table 2.4): the band and the dither phase of the pass about to start; the pass keeps them. -/
def bandLatch (s : State) : State :=
  match firstPass s (fun p => !p.latched) with
  | some p => latchBand (reach s p.start) p
  | none => s

/-- Bytes a strip line takes for a block of the surface, in halves so that subsampled planes count exactly (R182). -/
def lineBytes2 (f : Surf) : Nat :=
  (List.range (planeCount f)).foldl (fun a p => a + 2 * (if f.depth = 0 then 1 else 2) / (planeSub f p).1) 0

/-- A strip of the layer needs more than 49,152 bytes per line (R182). -/
def stripTooWide (s : State) (u : Run) (l : Nat) (y : Layer) : Bool :=
  (stripsOf u y).any (fun j =>
    decide (2 * 49152 < (stripBlocks u y j).foldl (fun a b =>
      match shown s u l y.slot b with | some (_, f) => a + 32 * lineBytes2 f | none => a) 0))

/-- Transparent layers of a pass and their warnings (R181, R182): one record per surface of an unaccepted model, one per layer that is
too wide. -/
def layerChecks (s : State) (u : Run) : List Bool × State :=
  (List.range 4).foldl (fun (a : List Bool × State) l =>
    let y := u.layer l
    if !y.en then (a.1 ++ [false], a.2) else
    let bad := ((layerBlocks u y 0 u.w 0 u.h).filterMap (fun b => (u.verAt y.slot b).bind (fun c =>
      if accepts l (surf a.2 c.surface).model then none else some c.surface))).eraseDups
    let s := bad.foldl (fun s f =>
      warning s blkSCN u.view (F.SCN_LAY_CFG_en (4 * u.view + l)) [(u.view, 1), (l, 1), (f, 2)]) a.2
    if stripTooWide s u l y then
      (a.1 ++ [true], warning s blkSCN u.view (F.SCN_LAY_CFG_en (4 * u.view + l)))
    else (a.1 ++ [false], s)) ([], s)

/-- A version resolved for the pass, in whichever slot, names a protected surface (R127, R251). -/
def runProtected (s : State) (u : Run) : Bool :=
  u.vers.any (fun e => match e.2 with | some c => (surf s c.surface).prot | none => false)

/-- The pass drives the panel: its write scan starts at or after panel power-on (R329). -/
def scanDriven (s : State) : Bool := 4 ≤ psqState s && psqState s ≤ 6

/-- The kind of a pass by the sequencer's state at its scan start (R330). -/
def passKind (s : State) (p : Pass) : RunKind :=
  if psqState s != 5 then .black else if p.repeats then .repeats else .content

/-- Forget Frost entries of a view whose block has a new version (R527). -/
def dropStaleFrost (s : State) (u : Run) : State :=
  { s with scn.fails := s.scn.fails.filter (fun e =>
      let v := e.1 / 2 ^ 19
      let l := e.1 / 2 ^ 16 % 8
      let k := e.1 % 2 ^ 16
      v != u.view || (match e.2 with
        | some (c, true) => sget none u.vers (32 * k + (if l = 5 then 20 else (u.layer l).slot)) == some c
        | _ => true)) }

/-- H[v] is protected from the refresh start of a pass that resolves a version naming a protected surface (R493). -/
def protMark (s : State) (u : Run) : Run × State :=
  if runProtected s u then ({ u with prot := true }, { s with scn.histProt := s.scn.histProt.set u.view true }) else (u, s)

/-- Refresh starts due by now resolve before a submission of this tick sees its queues (Table 4.11): those of the calendar's passes, and the one at
a boundary that falls now. Their commands find nothing left to resolve. -/
def resolveDue (s : State) : State :=
  let due := fun (p : Pass) => !p.started && !p.repeats && decide (p.start ≤ s.tick)
  let pos := s.tmb.pic.map (fun n => (n, phaseNow s))
  let s := ((allPasses s).filter due).foldl (fun s p => resolveAll s p.start pos) s
  match s.exs.next with
  | some b => if b.at_ = s.tick && b.passes.any (fun p => p.start = s.tick) then resolveAll s s.tick (some (s.tmb.picNext, 0)) else s
  | none => s

/-- Start a pass (R127, R238, R254): resolution, then, where the pass drives the panel, its run. `pos` is its position in time. -/
def startPass (s : State) (p : Pass) : State :=
  let pos := s.tmb.pic.map (fun n => (n, phaseNow s))
  let s := latchBand (if p.repeats then s else resolveAll s p.start pos) p
  let s := modPass s p.start (fun p => { p with started := true, bl := on s F.PPX_BL_CFG_en })
  if !scanDriven s then s else
  let s := wr s F.SCN_STATUS_view p.view
  let kind := passKind s p
  let no := s.age.passNo.getD p.view 0
  let s := { s with age.passNo := s.age.passNo.set p.view (no + 1) }
  let accum := on s F.AGE_CFG_acc_en && no % 16 = 0
  let pol := polRefresh s p.pic (p.ordinal = 0)
  let s := pol.2
  let u : Run :=
    { num := s.scn.nextRun, kind := kind, view := p.view, pic := p.pic, ordinal := p.ordinal, start := p.start, q := p.q,
      dur := p.dur, prog := p.rows.map (fun r => r.prog), accum := accum, cfg := s.reg, vers := s.blq.cur, transp := [],
      band := rd s F.PPX_STATUS_latched, phi := (p.pic + p.ordinal) % 4, pol := pol.1, zq := [], fetch := [], skipped := [],
      due := [0, 0, 0, 0, 0, 0], begun := [0, 0, 0, 0, 0, 0], subst := [], firstSub := none, subs := 0, brow := none, blocks := [], yTake := 0,
      lines := [], ySlot := 0, vbp := false, fin := false, crc := List.replicate 16 0xFFFFFFFF, failed := [], zacc := [],
      accDue := accum, cap := 0, capVals := [], prot := false }
  let s := { s with scn.nextRun := u.num + 1 }
  let s := modPass s p.start (fun p => { p with accum := accum })
  if kind = .content then
    let t := layerChecks s u
    let u := { u with transp := t.1 }
    let s := dropStaleFrost t.2 u
    let u := protMark s u
    let c := capSelect u.2 u.1
    let u := u.1
    let u := { u with cap := c.1, due := (List.range 6).map (fun l => min 2 (fetchRows u l).length) }
    { c.2 with scn.runs := c.2.scn.runs ++ [u] }
  else
    let p := if kind = .black then protMark s u else (u, s)
    let c := capSelect p.2 p.1
    { c.2 with scn.runs := c.2.scn.runs ++ [{ p.1 with cap := c.1 }] }

/-- REFRESH_START (R127): the earliest pass of the calendar that has not started. -/
def refreshStart (s : State) : State :=
  match firstPass s (fun p => !p.started && !p.repeats) with
  | some p => urgStatus (startPass (reach s p.start) p)
  | none => s

/-! Strips (R190, R193, R194) -/

/-- Key of a failure: view, layer (5: slot 20) and block (R527). -/
def failKey (v l k : Nat) : Nat := v * 2 ^ 19 + l * 2 ^ 16 + k

/-- Frost holds the block's version (R527). -/
def frozen (s : State) (v l k : Nat) (c : Cur) : Bool := sget none s.scn.fails (failKey v l k) == some (c, true)

/-- The due tick of the fetches of a strip of layer code l (R195, R399): the take tick of the first scan row of the first panel block that the strip
supplies. -/
def stripDueTick (u : Run) (l j : Nat) : Nat :=
  match (List.range u.h).find? (fun y => rowOfLine u l (u.line y) == some j) with
  | some y => takeTick u (((List.range u.h).find? (fun z => u.line z / 32 = u.line y / 32)).getD y)
  | none => takeTick u 0

/-- Ask for one layer block: skipped where covered, left out where Frost holds it, else its plane blocks are requested. -/
def fetchLayerBlock (l : Nat) (y : Layer) (due : Nat) (a : State × Run × List DecReq) (b : Nat × Nat) : State × Run × List DecReq :=
  let s := a.1
  let u := a.2.1
  match shown s u l y.slot b with
  | none => a
  | some (c, f) =>
    if notFetched s u l y b then
      (bump s F.SCN_CNT_SKIP_blocks, { u with skipped := sset false u.skipped (skipKey l b) true }, a.2.2)
    else if frozen s u.view l (blkKey b.1 b.2) c then a
    else
      let urg := urgencyOf s u l
      let new := (blockKeys l c f).filter (fun k => (sget none u.fetch k.1).isNone)
      (s, { u with fetch := new.foldl (fun m k => sset none m k.1 (some ⟨l, k.2, f.depth, .wait⟩)) u.fetch },
       a.2.2 ++ new.map (fun k => ⟨1, false, k.2, f.depth, urg, none, .scan u.num l, due⟩))

/-- Ask for the plane blocks of a table that a panel block needs (R222). -/
def fetchTableBlock (l due : Nat) (a : State × Run × List DecReq) (b : Nat × Nat) : State × Run × List DecReq :=
  let s := a.1
  let u := a.2.1
  match tableAt s u l b.1 b.2 with
  | none => a
  | some (c, f, i, j) =>
    if (match c with | some c => frozen s u.view l (blkKey b.1 b.2) c | none => false) then a
    else
      let urg := urgencyOf s u l
      let new := (tableKeys l f i j).filter (fun k => (sget none u.fetch k.1).isNone)
      (s, { u with fetch := new.foldl (fun m k => sset none m k.1 (some ⟨l, k.2, f.depth, .wait⟩)) u.fetch },
       a.2.2 ++ new.map (fun k => ⟨1, false, k.2, f.depth, urg, none, .scan u.num l, due⟩))

/-- Begin the due strips of a layer or rows of a table, in scan order. -/
def fetchLayerStrips (a : State × Run × List DecReq) (l : Nat) : State × Run × List DecReq :=
  let u := a.2.1
  let y := u.layer l
  let js := ((fetchRows u l).take (u.due.getD l 0)).drop (u.begun.getD l 0)
  let r := js.foldl (fun a j =>
    if l < 4 then (stripBlocks u y j).foldl (fetchLayerBlock l y (stripDueTick u l j)) a
    else ((List.range u.bw).map (fun i => (i, j))).foldl (fetchTableBlock l (stripDueTick u l j)) a) a
  (r.1, { r.2.1 with begun := r.2.1.begun.set l (r.2.1.due.getD l 0) }, r.2.2)

/-- A run has strips due that have not been begun. -/
def stripDue (u : Run) : Bool := u.kind = .content && (List.range 6).any (fun l => decide (u.begun.getD l 0 < u.due.getD l 0))

/-- STRIP_FETCH_START (R190): the due strips of the earliest run that has any, all those of L3 first and those of L0 last, then the tables' (DESIGN
CHOICE, log entry 66: the rule orders the layers within a strip only). -/
def stripFetchStart (s : State) : State :=
  match s.scn.runs.find? stripDue with
  | some u =>
    let r := [3, 2, 1, 0, 4, 5].foldl fetchLayerStrips (s, u, [])
    urgStatus (askDec (setRun r.1 r.2.1) r.2.2)
  | none => s

/-- After a row, the next strip of each layer whose oldest strip no later row needs becomes due (R190). -/
def advanceStrips (u : Run) (y : Nat) : Run :=
  { u with due := (List.range 6).map (fun l =>
      let st := fetchRows u l
      let d := u.due.getD l 0
      let o := st[d - 2]?
      let here := rowOfLine u l (u.line y)
      if 2 ≤ d && d < st.length && o.isSome && here == o &&
         (decide (u.h ≤ y + 1) || rowOfLine u l (u.line (y + 1)) != o) then d + 1 else d) }

/-! Block errors (R23, R527) -/

/-- The layer blocks (or panel blocks, for the slot-20 table) of the run's begun strips that need a fetch. -/
def blocksOfKey (s : State) (u : Run) (l key : Nat) : List ((Nat × Nat) × Cur) :=
  if 4 ≤ l then
    (((fetchRows u l).take (u.begun.getD l 0)).flatMap (fun j => (List.range u.bw).map (fun i => (i, j)))).filterMap (fun b =>
      match tableAt s u l b.1 b.2 with
      | some (some c, f, i, j) => if (tableKeys l f i j).any (fun k => k.1 = key) then some (b, c) else none
      | _ => none)
  else
  let y := u.layer l
  ((((stripsOf u y).take (u.begun.getD l 0)).flatMap (stripBlocks u y))).filterMap (fun b =>
    match shown s u l y.slot b with
    | some (c, f) => if (blockKeys l c f).any (fun k => k.1 = key) then some (b, c) else none
    | none => none)

/-- A version fails its check in a pass: the second consecutive pass of a view posts an error record and begins Frost (R527). -/
def versionFailed (s : State) (u : Run) (l k : Nat) (c : Cur) : State × Run :=
  if (sget none u.failed (65536 * l + k)).isSome then (s, u) else
  let u := { u with failed := sset none u.failed (65536 * l + k) (some c) }
  if sget none s.scn.fails (failKey u.view l k) == some (c, false) then
    (errorRec { s with scn.fails := sset none s.scn.fails (failKey u.view l k) (some (c, true)) } blkSCN u.view
      F.SCN_CNT_CRCSUB_blocks [(l, 1), (k % 256, 1), (k / 256, 1)], u)
  else (s, u)

/-- A decoded block reaches scan-out (R23): kept, or refetched once. -/
def scanDecoded (s : State) (run l addr depth due : Nat) (d : Decoded) : State :=
  match findRun s run with
  | none => s
  | some u =>
    let key := fetchKey l addr depth
    match sget none u.fetch key with
    | none => s
    | some x =>
      let put := fun (u : Run) (st : FetSt) => { u with fetch := sset none u.fetch key (some { x with st := st }) }
      match d with
      | .ok xs _ => urgStatus (setRun s (put u (.ok xs s.tick)))
      | .err _ =>
        let r := (blocksOfKey s u l key).foldl (fun (a : State × Run) b => versionFailed a.1 a.2 l (blkKey b.1.1 b.1.2) b.2) (s, u)
        if x.st = .wait then
          let s := bump (setRun r.1 (put r.2 .again)) F.SCN_CNT_REFETCH_blocks
          askDec s [⟨1, false, addr, depth, urgencyOf s u l, none, .scan run l, due⟩]
        else setRun r.1 (put r.2 .bad)

/-! Panel blocks (R195, R196, R224, R572) -/

/-- The values a substituted block is driven with: H[v], or black where it is empty or fails its check; `rec` says whether a failed
read posts an error record (R196, R526). -/
def substValues (s : State) (v bx by_ : Nat) : List Nat × State :=
  if hdrFilled (hhdr s v bx by_) then
    match readHist s v bx by_ with
    | (some l, s) => (l, s)
    | (none, s) => (List.replicate 3072 (black12 s), errorRec s blkPPX v F.CDC_CNT_BERR_blocks [(bx, 1), (by_, 1)])
  else (List.replicate 3072 (black12 s), s)

/-- Substitute a block, counting it and recording it (R197). -/
def substitute (s : State) (u : Run) (bx by_ cause : Nat) : (List Nat × Nat) × State × Run :=
  let s := if cause = 1 then bump s F.SCN_CNT_CRCSUB_blocks else bump s F.SCN_CNT_UNDERRUN_blocks
  let s := wr (wr (wr (wr s F.SCN_UNDER_INFO_view u.view) F.SCN_UNDER_INFO_cause cause) F.SCN_UNDER_INFO_by by_) F.SCN_UNDER_INFO_bx bx
  let u := { u with subst := sset 0 u.subst (blkKey bx by_) (cause + 1), subs := u.subs + 1,
                    firstSub := some (u.firstSub.getD (blkKey bx by_)) }
  let r := substValues s u.view bx by_
  ((r.1, mkHdr true 0 u.band), r.2, u)

/-- Why a panel block is not ready at tick t: none where it is (R195); 1 for a block error, 0 for an underrun (R197). -/
def notReady (s : State) (u : Run) (t bx by_ : Nat) : Option Nat :=
  let cov := coverOf s u bx by_
  let bs := (List.range 4).flatMap (fun l =>
    let y := u.layer l
    if !y.en || l < cov then [] else
    (layerBlocks u y (32 * bx) (32 * bx + 32) (32 * by_) (32 * by_ + 32)).map (fun b => (l, y, b)))
  let frost := bs.any (fun e => match shown s u e.1 e.2.1.slot e.2.2 with
    | some (c, _) => frozen s u.view e.1 (blkKey e.2.2.1 e.2.2.2) c
    | none => false) ||
    (match tableAt s u 5 bx by_ with | some (some c, _) => frozen s u.view 5 (blkKey bx by_) c | _ => false)
  let tab := fun l => tableReady s u t l bx by_
  if frost || bs.any (fun e => !layerBlockReady s u t e.1 e.2.1 e.2.2 && layerBlockFailed s u e.1 e.2.1 e.2.2)
    || [4, 5].any (fun l => !tab l && tableFailed s u l bx by_) then some 1
  else if bs.all (fun e => layerBlockReady s u t e.1 e.2.1 e.2.2) && tab 4 && tab 5 then none else some 0

/-- A pixel's result before stage 5: its stage-2 maximum and its three targets. -/
def targetPixel (s : State) (u : Run) (ls : List (Nat × Layer × List Src)) (uni cmp : Option (List (Array Nat))) (q : Array Nat)
    (X Y k : Nat) : Nat × List Nat :=
  let p := stages12 s u (composite s u ls X Y)
  let light := if u.lc && u.f F.PPX_BL_CFG_en = 1 then some (lightAt s q X Y) else none
  let one := fun (c v : Nat) =>
    let v := stage3 (uni.map (fun l => (l.getD c #[]).getD k 128)) light v
    match cmp with | some l => stage4 ((l.getD c #[]).getD k 0) v | none => v
  (max p.1 (max p.2.1 p.2.2), [one 0 p.1, one 1 p.2.1, one 2 p.2.2])

/-- Stages 5 to 7 of a block from its targets (R224 to R226, R234, R237): 12-bit-form values and the header, and whether a waveform
starts. -/
def driveBlock (s : State) (u : Run) (bx by_ : Nat) (tg : Array (List Nat)) (prev : Option (Array Nat)) (ph : Nat) : List Nat × Nat × Bool :=
  let inside := fun k => 32 * bx + k % 32 < u.w && 32 * by_ + k / 32 < u.h
  let t := fun c k => (tg.getD k []).getD c 0
  let p12 := fun c k => match prev with | some a => a.getD (1024 * c + k) 0 | none => t c k / 16
  let od := u.f F.PPX_CFG_od_en = 1
  let thr := u.f F.PPX_OD_thr
  let start := od && (List.range 1024).any (fun k => inside k && (List.range 3).any (fun c =>
    let a := t c k / 16
    let b := p12 c k
    decide (thr ≤ (if a ≤ b then b - a else a - b))))
  let st := hdrStep ph
  let step := if start then 1 else if od && prev.isSome && 1 ≤ st && st < wfLen u then st + 1 else 0
  let band := if start || step = 0 then u.band else hdrBand ph
  let vals := (List.range 3072).map (fun i =>
    let c := i / 1024
    let k := i % 1024
    if !inside k then 0 else
    let X := 32 * bx + k % 32
    let Y := 32 * by_ + k / 32
    let v := if step = 0 then t c k else overdrive s band (step - 1) c (p12 c k) (t c k)
    form12 s (stage7 s u X c Y (stage6 s u X c Y v)))
  (vals, mkHdr true step band, start)

/-- Add a block's stage-2 maxima to the zone accumulators (R242). -/
def zoneAdd (s : State) (u : Run) (bx by_ : Nat) (ms : List Nat) : Run :=
  if !(u.lc) then u else
  { u with zacc := (ms.zip (List.range 1024)).foldl (fun z e =>
      let X := 32 * bx + e.2 % 32
      let Y := 32 * by_ + e.2 / 32
      if X < u.w && Y < u.h then
        let k := Y / zoneH s * zoneCols s + X / zoneW s
        let a := sget (0, 0, 0) z k
        sset (0, 0, 0) z k (max a.1 e.1, a.2.1 + e.1, a.2.2 + 1)
      else z) u.zacc }

/-- The samples of a table's three planes for a panel block; none where it uses no table. -/
def tableSamples (s : State) (u : Run) (l bx by_ : Nat) : Option (List (Array Nat)) :=
  (tableAt s u l bx by_).map (fun e => (tableKeys l e.2.1 e.2.2.1 e.2.2.2).map (fun k => fetchSamples u k.1))

/-- One panel block of a content pass (R13, R195, R221, R222, R224, R526). -/
def contentBlock (s : State) (u : Run) (t bx by_ : Nat) : (List Nat × Nat) × State × Run :=
  match notReady s u t bx by_ with
  | some cause => substitute s u bx by_ cause
  | none =>
    let uc := tableSamples s u 4 bx by_
    let cc := tableSamples s u 5 bx by_
    let ls := blockLayers s u bx by_
    let q := u.zq.toArray
    let px := (List.range 1024).map (fun k =>
      let X := 32 * bx + k % 32
      let Y := 32 * by_ + k / 32
      if X < u.w && Y < u.h then targetPixel s u ls uc cc q X Y k else (0, [0, 0, 0]))
    let u := zoneAdd s u bx by_ (px.map (fun p => p.1))
    let ph := match s.scn.lastView with | some v => hhdr s v bx by_ | none => 0
    let prev : Option (Array Nat) × State := match s.scn.lastView with
      | some v =>
        if u.f F.PPX_CFG_od_en = 1 && hdrFilled ph then let r := readHist s v bx by_; (r.1.map (fun l => l.toArray), r.2)
        else (none, s)
      | none => (none, s)
    let d := driveBlock prev.2 u bx by_ (px.map (fun p => p.2)).toArray prev.1 ph
    let s := if d.2.2 then bump prev.2 F.PPX_CNT_WF_starts else prev.2
    ((d.1, d.2.1), s, u)

/-- One panel block of a run by its kind. -/
def runBlock (s : State) (u : Run) (t bx by_ : Nat) : (List Nat × Nat) × State × Run :=
  match u.kind with
  | .content => contentBlock s u t bx by_
  | .black => ((List.replicate 3072 (black12 s), mkHdr true 0 u.band), s, u)
  | .repeats => let r := substValues s u.view bx by_; ((r.1, mkHdr true 0 u.band), r.2, u)

/-- The whole block row whose first scan row is taken at tick t. -/
def startBlockRow (s : State) (u : Run) (t by_ : Nat) : State × Run :=
  let r := (List.range u.bw).foldl (fun (a : State × Run × List (List Nat × Nat)) bx =>
    let b := runBlock a.1 a.2.1 t bx by_
    (b.2.1, b.2.2, a.2.2 ++ [b.1])) (s, u, [])
  (r.1, { r.2.1 with brow := some by_, blocks := r.2.2 })

/-- The values of panel line Y, subpixel by subpixel. -/
def lineValues (u : Run) (Y : Nat) : List Nat :=
  let bs := (u.blocks.map (fun b => b.1.toArray)).toArray
  (List.range (3 * u.w)).map (fun i =>
    let X := i / 3
    (bs.getD (X / 32) #[]).getD (1024 * (i % 3) + 32 * (Y % 32) + X % 32) 0)

/-- Rows of the block row that the pass does not program keep what the panel shows: the preceding pass's values (R92, R16; DEDUCED,
log entry 19). -/
def keepSkipped (s : State) (u : Run) (bx by_ : Nat) (vals : List Nat) : List Nat × State :=
  let prog := fun r => let Y := 32 * by_ + r; (u.prog.getD (if u.f F.SCN_MODE_dir = 1 then u.h - 1 - Y else Y) true) || u.h ≤ Y
  if (List.range 32).all prog then (vals, s) else
  let r := match s.scn.lastView with | some v => substValues s v bx by_ | none => (List.replicate 3072 (black12 s), s)
  let a := r.1.toArray
  ((vals.zip (List.range 3072)).map (fun e => if prog (e.2 % 1024 / 32) then e.1 else a.getD e.2 0), r.2)

/-- The last row of a block row has been taken: its history is written back (R14, R16). -/
def finishBlockRow (s : State) (u : Run) (by_ : Nat) : State × Run :=
  let r := ((List.range u.bw).zip u.blocks).foldl (fun (a : State × Run) e =>
    let k := keepSkipped a.1 u e.1 by_ e.2.1
    let s := writeHist k.2 u.view e.1 by_ k.1 e.2.2
    (s, if u.cap = 1 || u.accum then { a.2 with capVals := sset [] a.2.capVals (blkKey e.1 by_) k.1 } else a.2)) (s, u)
  let bs := (List.range u.bw).map (fun i => (i, sget [] r.2.capVals (blkKey i by_)))
  (if u.cap = 1 then capRow r.1 r.2 by_ bs else r.1, { r.2 with brow := none, blocks := [] })

/-- Drop the runs that nothing waits for. -/
def pruneRuns (s : State) : State :=
  { s with scn.runs := s.scn.runs.filter (fun u => !(u.fin && !u.accDue && (u.lines.isEmpty || !scanDriven s))) }

/-- The end of a pass's write scan, once its last row has been taken (R242, R248, R527). -/
def finishRun (s : State) (u : Run) : State :=
  if u.fin || !u.vbp || u.yTake < u.h then s else
  let s := crcEnd s u
  let s := if u.kind = .content then
      let keep := s.scn.fails.filter (fun e => e.1 / 2 ^ 19 != u.view || (match e.2 with | some (_, b) => b | none => false))
      { s with scn.fails := u.failed.foldl (fun m e =>
          let k := failKey u.view (e.1 / 65536) (e.1 % 65536)
          if (sget none m k).isSome then m else sset none m k (e.2.map (fun c => (c, false)))) keep }
    else s
  let s := capDriven s u
  pruneRuns (setRun s { u with fin := true })

/-- ROW_TAKE (R178): the next row of the earliest run that has one. -/
def rowTake (s : State) : State :=
  match s.scn.runs.find? (fun u => decide (u.yTake < u.h)) with
  | none => s
  | some u =>
    let y := u.yTake
    let t := takeTick u y
    let s := reach s t
    let Y := u.line y
    let z := if y = 0 && u.kind != .black then zonesForPass s u.view u.start (allPasses s) else (u.zq, s)
    let s := z.2
    let u := { u with zq := z.1 }
    let r := if u.brow = some (Y / 32) then (s, u) else startBlockRow s u t (Y / 32)
    let s := r.1
    let u := r.2
    let vals := lineValues u Y
    let driven := u.prog.getD y true
    let crc := if driven then let a := vals.toArray; (List.range 16).map (fun r => crcLine u r Y a (u.crc.getD r 0)) else u.crc
    let u := { advanceStrips u y with yTake := y + 1, crc := crc, lines := u.lines ++ [(y, if driven then some vals else none)] }
    let last := decide (u.h ≤ y + 1) || u.line (y + 1) / 32 != Y / 32
    let r := if last then finishBlockRow s u (Y / 32) else (s, u)
    let u := r.2
    let s := setRun (capLag r.1 u (y + 1)) u
    if y + 1 < u.h then urgStatus s else
    let s := zonesEnd { s with scn.lastView := some u.view } u
    let s := match u.firstSub with
      | some k => warning s blkSCN u.view F.SCN_UNDER_INFO_view [(k % 256, 1), (k / 256, 1), (u.subs, 2)]
      | none => s
    urgStatus (finishRun s u)

/-- The write scan of a pass ends: its part in scan-out (R200, R248). -/
def scanEnd (s : State) (p : Pass) : State :=
  let s := wr s F.SCN_STATUS_view 15
  let s := modPass s p.start (fun p => { p with ended := true })
  match s.scn.runs.find? (fun u => u.start = p.start && !u.vbp) with
  | some u =>
    let u := { u with vbp := true }
    let s := if u.prot || u.kind = .repeats then s else { s with scn.histProt := s.scn.histProt.set u.view false }
    finishRun (setRun s u) u
  | none => s

/-- SCN_CLR_CNT (R211). -/
def scnClrCnt (s : State) : State :=
  clearRegs s [F.SCN_CNT_UNDERRUN.off, F.SCN_CNT_REFETCH.off, F.SCN_CNT_CRCSUB.off, F.SCN_CNT_SKIP.off, F.SCN_CNT_NSL.off]

/-- Passes that resolved a version naming the surface and have not fetched their last strip (R113). -/
def runRefs (s : State) (f : Nat) : Nat :=
  (s.scn.runs.filter (fun u => u.kind = .content && !u.fetched &&
    u.vers.any (fun e => match e.2 with | some c => c.surface = f | none => false))).length

/-! Timing mode and link limits (R175, R290) -/

/-- Ticks per symbol at a lane rate as a fraction (Table 9.1); none for a reserved code. -/
def symTicks : Nat → Option (Nat × Nat)
  | 0 => some (10, 1) | 1 => some (20, 3) | 2 => some (5, 1) | 3 => some (4, 1) | 4 => some (10, 3) | _ => none

/-- Row payload per lane in bytes (R290). -/
def rowPayload (s : State) : Nat := rd s F.DRV_CFG_n_ch * driveDepth s / 32

/-- T_row (R290); none at a reserved rate. -/
def tRow (s : State) : Option Nat := (symTicks (rd s F.DRV_CFG_rate)).map (fun r => ((rowPayload s + 10) * r.1 + r.2 - 1) / r.2 + 4)

/-- T_r of a mode (R75). -/
def refreshTime (h q vmin : Nat) : Nat := rndShr (h * q) 16 + vmin

/-- A timing mode passes the checks of R175, with the link limits of R290 under the DRV values in effect. -/
def timingOk (s : State) (w h q vmin : Nat) : Bool :=
  let n := blocksOf w * blocksOf h
  let nch := rd s F.DRV_CFG_n_ch
  decide (64 ≤ w) && decide (w ≤ 8192) && decide (64 ≤ h) && decide (h ≤ 8192) && decide (n ≤ 32768)
  && decide (65536 * ((w + 7) / 8 + 64) ≤ q) && decide (1500 ≤ vmin) && decide (vmin ≤ 16777215)
  && decide (3125000 ≤ refreshTime h q vmin) && (decide (n ≤ 16384) || decide (6250000 ≤ refreshTime h q vmin))
  && decide (nch != 0) && decide (rd s F.DRV_GROUPS_en = 2 ^ ((3 * w + nch - 1) / nch) - 1)
  && (match tRow s with | some t => decide (t + 64 ≤ q / 65536) | none => false)

/-! Commit (R198 to R204) -/

/-- Put a commit set's values of some bits of every register into effect. -/
def applyBits (s : State) (snap : SMap Word) (mask : RegDesc → Nat) : State :=
  let offs := (s.reg.map (fun e => e.1)) ++ (snap.map (fun e => e.1)).filter (fun o => sget 0#32 s.reg o = 0#32)
  offs.foldl (fun s o =>
    match regAt o with
    | some d =>
      let m := BitVec.ofNat 32 (mask d)
      if m = 0#32 then s else wrW s o ((rdW s o &&& ~~~m) ||| (sget 0#32 snap o &&& m))
    | none => s) s

/-- N-class bits of a set differ from the values in effect (R205). -/
def nDiffers (s : State) (snap : SMap Word) : Bool :=
  [F.SCN_MODE.off, F.SCN_ACTIVE.off, F.SCN_LINE.off, F.SCN_VBLANK.off].any (fun o =>
    match regAt o with
    | some d => (rdW s o &&& BitVec.ofNat 32 d.n) != (sget 0#32 snap o &&& BitVec.ofNat 32 d.n)
    | none => false)

/-- A set has nothing left to take effect. -/
def CommitSet.spent (c : CommitSet) : Bool := c.v.isNone && c.s.isNone && c.n.isNone

/-- SCN.COMMIT.pending (R201). -/
def pendStatus (s : State) : State :=
  let live := fun (c : Option CommitSet) => c.filter (fun c => !c.spent)
  let s := { s with scn := { s.scn with set := live s.scn.set, prev := live s.scn.prev } }
  wrB s F.SCN_COMMIT_pending (s.scn.set.isSome || s.scn.prev.isSome)

/-- A class set at `t0` has its commit point at `t`: strictly after (R199). -/
def dueAt (t0 : Option Nat) (t : Nat) : Bool := match t0 with | some a => decide (a < t) | none => false

/-- The boundary b ends the transition in progress (R206). -/
def nslEnds (s : State) (b : Nat) : Bool := match s.scn.nsl with | some n => decide (n.b = b) | none => false

/-- Put the S class of a set that is due at boundary b into effect, and its N class where b ends a transition or panel outputs do not run;
what is left of the set (R200, R206, R209). -/
def putSet (b : Nat) (x : State) (c : CommitSet) : CommitSet × State :=
  let doS := dueAt c.s b
  let doN := dueAt c.n b && (nslEnds x b || !outputsRun x)
  let s1 := if doS then applyBits x c.snap (fun d => d.s) else x
  ({ c with s := if doS then none else c.s, n := if doN then none else c.n }, if doN then applyBits s1 c.snap (fun d => d.n) else s1)

/-- Put what is due at boundary b of the sets into effect, the earlier set first; during a transition nothing is before its end. -/
def putSets (s : State) (b : Nat) : State :=
  if s.scn.nsl.isSome && !nslEnds s b then s else
  let p := match s.scn.prev with | some c => let r := putSet b s c; (some r.1, r.2) | none => (none, s)
  let q := match s.scn.set with | some c => let r := putSet b p.2 c; (some r.1, r.2) | none => (none, p.2)
  { q.2 with scn := { q.2.scn with prev := p.1, set := q.1 } }

/-- Put the V class into effect at a vertical blanking point (R200, R206: not before the end of a running transition). -/
def commitV (s : State) (t : Nat) : State :=
  match s.scn.set with
  | some c =>
    if s.scn.nsl.isSome || !dueAt c.v t then s else
    let s := freezeSub s
    pendStatus { applyBits s c.snap (fun d => d.v) with scn.set := some { c with v := none } }
  | none => s

/-- The last pass whose write scan has started (R205). -/
def lastStarted (s : State) : Option Pass := minBy (fun p : Pass => 2 ^ 80 - p.start) ((allPasses s).filter (fun p => p.started))

/-- The next boundary strictly after `t`, on the running grid, at or after the first boundary that meets a test of R206. -/
def nslBoundary (s : State) (need : Nat) : Nat :=
  let b := s.tmb.next.getD (s.tick + 1)
  let p := picPeriod s
  if need ≤ b || p = 0 then b else b + (need - b + p - 1) / p * p

/-- Sense slots from here on are cancelled: their rows will give no result, their SENSE packets are not sent (R205, R283). -/
def cancelSlots (s : State) : State :=
  let on_ := fun (x : SenseSlot) => decide (x.a < s.tick)
  let gone := (match s.exs.bank with | some b => b.slots | none => []).filter (fun x => !on_ x) ++
    (match s.exs.next with | some b => b.slots | none => [])
  let keep := fun b : Bank => { b with slots := b.slots.filter on_ }
  { s with exs := { s.exs with bank := s.exs.bank.map keep, next := s.exs.next.map (fun b => { b with slots := [] }) }
           age.rows := s.age.rows.filter (fun r => r.asked || !gone.any (fun x => x.row = r.row && x.b = r.slotEnd))
           drv.queue := s.drv.queue.filter (fun p => p.typ != 3) }

/-- Passes that have not started are cancelled, with their emission (R205). -/
def cancelPasses (s : State) : State :=
  let started := fun p : Pass => p.started
  let gone := ((allPasses s ++ (match s.exs.next with | some b => b.passes | none => [])).filter (fun p => !p.started)).map (fun p => p.start)
  let keep := fun b : Bank => { b with passes := b.passes.filter started }
  { s with exs := { s.exs with bank := s.exs.bank.map keep, next := s.exs.next.map keep, carried := s.exs.carried.filter started }
           drv.pulses := s.drv.pulses.filter (fun e => !gone.contains e.pass) }

/-- Start a non-seamless transition (R205): the final pass stays, every later pass and every sense slot from here on is cancelled. Where no pass has
started before the set tick there is no final pass and none to repeat: the hold begins at once (DESIGN CHOICE, log entry 79). -/
def startNsl (s : State) : State :=
  let s := info (bump (wrB s F.SCN_COMMIT_nsl true) F.SCN_CNT_NSL_count) blkSCN 0 F.SCN_COMMIT_nsl
  let vmin := rd s F.SCN_VBLANK_v_min
  let fin := lastStarted s
  let s := cancelPasses (cancelSlots s)
  let lead := rd s F.EXS_BUILD_lead
  match fin with
  | some p =>
    let rep := max (p.start + p.dur + vmin) s.tick
    let endR := rep + rndShr (panelH s * p.q) 16
    { s with scn.nsl := some { view := p.view, q := p.q, final := true, rep := rep, endR := endR, begun := false,
                               b := nslBoundary s (endR + vmin + lead) } }
  | none =>
    { s with scn.nsl := some { view := 4, q := rd s F.SCN_LINE_q_min, final := false, rep := s.tick, endR := s.tick, begun := true,
                               b := nslBoundary s (s.tick + vmin + lead) } }

/-- A set has become set: its N-class values are compared (R204, R205, R209). -/
def setNow (s : State) : State :=
  match s.scn.set with
  | some c =>
    match c.n with
    | some t =>
      if s.tick < t || s.scn.nsl.isSome then s
      else if !nDiffers s c.snap then pendStatus { s with scn.set := some { c with n := none } }
      else if outputsRun s then startNsl s else s
    | none => s
  | none => s

/-- The tick at which a set written now is set (R199). -/
def setTick (s : State) : Nat :=
  match s.scn.nsl, s.tmb.next with
  | some n, _ => n.b
  | none, some b => if b - rd s F.EXS_BUILD_lead ≤ s.tick && s.tick < b then b else s.tick
  | none, none => s.tick

/-- What the pending set keeps when a set is written that is set at a later tick t: the bank for boundary t is built from the pending set's S-class and
N-class values, which take effect there; the rest is replaced (R83, R199, R201; DEDUCED, log entry 79). -/
def keptSet (t : Nat) (c prev : Option CommitSet) : Option CommitSet :=
  match c with
  | some c => if dueAt c.s t || dueAt c.n t then
      some { c with v := none, s := if dueAt c.s t then c.s else none, n := if dueAt c.n t then c.n else none } else prev
  | none => prev

/-- COMMIT_GO (R198 to R202). -/
def commitGo (s : State) : State :=
  let s := wrB s F.SCN_COMMIT_err false
  let f := fun g : Fld => g.ofWord (sget 0#32 s.shadow g.off)
  if !timingOk s (f F.SCN_ACTIVE_width_m1 + 1) (f F.SCN_ACTIVE_height_m1 + 1) (f F.SCN_LINE_q_min) (f F.SCN_VBLANK_v_min) then
    errorRec (wrB s F.SCN_COMMIT_err true) blkSCN 0 F.SCN_COMMIT_err
  else
    let t := setTick s
    setNow (pendStatus { s with scn := { s.scn with
        prev := if s.tick < t then keptSet t s.scn.set s.scn.prev else s.scn.prev
        set := some { snap := s.shadow, v := some t, s := some t, n := some t } } })

/-! Meanings -/

def execBandLatch (s : State) : Host.Outcome State Fault Refusal := .next (bandLatch s)
def execStripFetchStart (s : State) : Host.Outcome State Fault Refusal := .next (stripFetchStart s)
def execBacklightStrobe (j : Fin 128) (on_ : Bool) (s : State) : Host.Outcome State Fault Refusal := .next (backlightStrobe s (allPasses s) j.val on_)
def execRowTake (s : State) : Host.Outcome State Fault Refusal := .next (rowTake s)

end Sys2Proof.Machine
end

