-- ==== Sys2Proof/Machine/Ingest.lean ====
section
/-!
DEFINITION. Picture ingest (spec/04_ingest_block_queues.md, R98 to R117): locks, picture starts, surface pools, conversion or source
storage, and the submission of each block row.
-/

namespace Sys2Proof.Machine

/-- Inputs 2 to 4 are disabled while input 1 is a quad link (R101). -/
def quadOff (s : State) (n : Nat) : Bool := 2 ≤ n && on s (F.ING_IN_CFG_quad 1)

/-- An input is enabled (R101). -/
def inEnabled (s : State) (n : Nat) : Bool := on s (F.ING_IN_CFG_en n) && !quadOff s n

/-- Change input n. -/
def modIn (s : State) (n : Nat) (f : Inp → Inp) : State := { s with ing.inputs := sset Inp.reset s.ing.inputs n (f (inp s n)) }

/-- ING.STATUS.active (Table 4.13). -/
def ingStatus (s : State) : State :=
  wr s F.ING_STATUS_active ((List.range 5).foldr (fun n a => 2 * a + b2n (inp s n).pic.isSome) 0)

/-! Free surfaces and pools (R113, R115) -/

/-- Distributions of a surface that have not ended (R376). -/
def distRefs (s : State) (f : Nat) : Nat := (s.orl.dists.filter (fun d => d.surface = f)).length

/-- References of a surface (R113, R376). -/
def surfRefs (s : State) (f : Nat) : Nat := queueRefs s f + writeRefs s f + runRefs s f + distRefs s f

/-- Ingest is writing the surface: a picture goes into it, or plane blocks of one still wait for a compress lane or lie in one (R113). -/
def ingWriting (s : State) (f : Nat) : Bool :=
  (List.range 5).any (fun n => match (inp s n).pic with | some p => p.surface = f | none => false) ||
  (s.cdc.cmpLanes.filterMap id ++ s.cdc.cmpWait).any (fun r => match r.tag with | .ingest _ _ g => g = f | _ => false)

/-- The surface is free (R113). -/
def surfFree (s : State) (f : Nat) : Bool := surfRefs s f = 0 && !ingWriting s f

/-- The free surface of a pool written longest ago, the lowest index among equals (R115). -/
def poolChoice (s : State) (first count : Nat) : Option Nat :=
  minBy (fun f => sget 0 s.ing.stamps f) (((List.range count).map (fun k => first + k)).filter (surfFree s))

/-- Stamp a surface as written now. -/
def stampSurf (s : State) (f : Nat) : State :=
  { s with ing := { s.ing with stamp := s.ing.stamp + 1, stamps := sset 0 s.ing.stamps f (s.ing.stamp + 1) } }

/-! Pictures -/

/-- The encoding in use, with whether the forced fields stand in for the signal's (R104). -/
def inEnc (s : State) (n : Nat) (sig : InSignal) : (Nat × Nat × Nat × Nat) × Bool :=
  let forced := (rd s (F.ING_IN_CFG_f_mtx n), rd s (F.ING_IN_CFG_f_tf n), rd s (F.ING_IN_CFG_f_range n), rd s (F.ING_IN_CFG_f_prim n))
  if on s (F.ING_IN_CFG_enc_src n) then (forced, false) else
  match sig.enc with
  | some e => ((e.mtx.val, e.tf.val + 1, b2n e.range, b2n e.prim), false)
  | none => (forced, true)

/-- The detected signal in ING.INn_STAT and ING.INn_SIZE, and the encoding in use (Table 4.13). -/
def inStatus (s : State) (n : Nat) (sig : InSignal) (e : Nat × Nat × Nat × Nat) (fb : Bool) : State :=
  let s := wr (wr s (F.ING_IN_STAT_sub n) sig.sub.val) (F.ING_IN_STAT_depth n) sig.depth.val
  let s := wr (wr (wr (wr s (F.ING_IN_STAT_mtx n) e.1) (F.ING_IN_STAT_tf n) e.2.1) (F.ING_IN_STAT_range n) e.2.2.1) (F.ING_IN_STAT_prim n) e.2.2.2
  let s := wr (wr s (F.ING_IN_SIZE_height_m1 n) (sig.h - 1)) (F.ING_IN_SIZE_width_m1 n) (sig.w - 1)
  let s := wrB s (F.ING_IN_STAT_protected n) (n = 0 && sig.hdcp)
  if fb then info (wrB s (F.ING_IN_STAT_enc_fb n) true) blkING n (F.ING_IN_STAT_enc_fb n)
  else wrB s (F.ING_IN_STAT_enc_fb n) false

/-- Bytes 8 to 14 of the descriptor of the surface a picture is written to (R103, R105, R108). -/
def inDescriptor (s : State) (n f : Nat) (sig : InSignal) (store : Bool) (e : Nat × Nat × Nat × Nat) : State :=
  let a := surfOff s f
  let fmt := if store then sig.depth.val * 16 + (if e.1 = 0 then 0 else sig.sub.val) * 4 + (if e.1 = 0 then 1 else 0) else 3 * 16 + 1
  let col := if store then e.1 * 64 + e.2.1 * 16 + e.2.2.1 * 8 + e.2.2.2 * 4 else 8 + 4
  let v := lstRd s (a + 14) 1
  let p := n = 0 && sig.hdcp
  let v := ofLe v - (ofLe v / 2 % 2) * 2 + 2 * b2n p
  let s := { s with ing.prot := if p then (a + 14) :: s.ing.prot.filter (fun x => x != a + 14) else s.ing.prot.filter (fun x => x != a + 14) }
  lstWr s (a + 8) (leBytes (sig.w - 1) 2 ++ leBytes (sig.h - 1) 2 ++ leBytes fmt 1 ++ leBytes col 1 ++ leBytes v 1)

/-- The signal is one that the input supports (Tables 4.2 and 4.3): on any other its receiver takes no picture (DEDUCED, log entry 74). -/
def inSupported (n : Nat) (sig : InSignal) : Bool :=
  let rgb := match sig.enc with | some e => e.mtx.val = 0 | none => false
  !(rgb && sig.sub.val != 0) &&
  (if n = 0 then !sig.fields && !(sig.sub.val = 2 && sig.depth.val = 3)
   else (sig.sub.val = 1 && (sig.depth.val = 1 || sig.depth.val = 2)) || (sig.sub.val = 0 && sig.depth.val = 2))

/-- Weave the rows of width w of two fields, one after the other, into those of the picture: the first field has rows 0, 2, 4, … (R100; PRESUMED, log
entry 74). -/
def weave (w h : Nat) (rows : List Nat) : List Nat :=
  (List.range h).flatMap (fun y => (rows.drop (w * (if y % 2 = 0 then y / 2 else (h + 1) / 2 + y / 2))).take w)

/-- The picture a signal carries: two fields are woven into one (R100). SDI planes are subsampled across only. -/
def wovenSig (sig : InSignal) : InSignal :=
  if !sig.fields then sig else
  { sig with planes := (sig.planes.zip (List.range 3)).map (fun e => weave (if e.2 != 0 && sig.sub.val = 1 then (sig.w + 1) / 2 else sig.w) sig.h e.1) }

/-- INPUT_PICTURE_START (R99, R100, R102 to R104, R115, R117): the first active line of a picture. -/
def inputPictureStart (s : State) (n : Nat) (sig : InSignal) : State :=
  if !(on s (F.ING_IN_STAT_lock n) && inEnabled s n && inSupported n sig) then s else
  let e := inEnc s n sig
  let s := inStatus s n sig e.1 e.2
  let bx0 := rd s (F.ING_IN_DST_bx0 n)
  let by0 := rd s (F.ING_IN_DST_by0 n)
  if rd s (F.ING_IN_MAX_w_max n) + 1 < sig.w || rd s (F.ING_IN_MAX_h_max n) + 1 < sig.h || panelBW s ≤ bx0 || panelBH s ≤ by0 then
    info (bump s (F.ING_IN_CNT_too_big n)) blkING n (F.ING_IN_CNT_too_big n)
  else
    match poolChoice s (rd s (F.ING_IN_POOL_first n)) (rd s (F.ING_IN_POOL_count n)) with
    | none => info (bump s (F.ING_IN_CNT_no_surf n)) blkING n (F.ING_IN_CNT_no_surf n)
    | some f =>
      let store := on s (F.ING_IN_CFG_store n)
      let s := stampSurf (inDescriptor s n f sig store e.1) f
      let i := inp s n
      let apply := if on s (F.ING_IN_ALIGN_en n) then s.tmb.pic.map (fun p => (p + rd s (F.ING_IN_ALIGN_pics n), 0)) else none
      let m := [F.ING_IN_PRIM0_m00 n, F.ING_IN_PRIM0_m01 n, F.ING_IN_PRIM1_m02 n, F.ING_IN_PRIM1_m10 n, F.ING_IN_PRIM2_m11 n,
                F.ING_IN_PRIM2_m12 n, F.ING_IN_PRIM3_m20 n, F.ING_IN_PRIM3_m21 n, F.ING_IN_PRIM4_m22 n].map (rdS s)
      let p : InPic := { sig := wovenSig sig, surface := f, seq := i.taken % 2 ^ 32, store := store, mtx := e.1.1, tf := e.1.2.1,
                         range := e.1.2.2.1, prim := e.1.2.2.2, slot := rd s (F.ING_IN_DST_slot n), bx0 := bx0, by0 := by0,
                         apply := apply, m := m, row := 0, ids := [], at_ := s.tick }
      ingStatus (modIn s n (fun i => { i with pic := some p, taken := i.taken + 1 }))

/-- Entries of panel blocks whose chroma block has not been asked for cannot complete any more (R102, R116). -/
def dropOpenRows (s : State) (p : InPic) : State :=
  if p.store && p.mtx != 0 && p.sig.sub.val = 2 && p.row % 2 = 1 then
    (p.ids.filter (fun e => e.1 / 256 + 1 = p.row)).foldl (fun s e => dropWrites s e.2) s
  else s

/-- RECEIVER_LOCK_CHANGE: an input writes a picture only while its receiver is locked (R102). -/
def receiverLock (s : State) (n : Nat) (lock : Bool) : State :=
  let s := wrB s (F.ING_IN_STAT_lock n) lock
  if lock then s else
  let s := modIn s n (fun i => { i with since := s.tick })
  match (inp s n).pic with
  | some p => ingStatus (modIn (dropOpenRows s p) n (fun i => { i with pic := none }))
  | none => s

/-! Block rows (R105, R108, R116) -/

/-- Subsampling of plane p of the source. A forced matrix RGB has the planes read as 4:4:4 whatever the signal's sampling (DESIGN CHOICE, log entry
75). -/
def srcSub (p : InPic) (pl : Nat) : Nat × Nat :=
  if p.mtx != 0 && pl != 0 then (if p.sig.sub.val = 1 then (2, 1) else if p.sig.sub.val = 2 then (2, 2) else (1, 1)) else (1, 1)

/-- Size of plane p of the source. -/
def srcDim (p : InPic) (pl : Nat) : Nat × Nat :=
  let q := srcSub p pl
  ((p.sig.w + q.1 - 1) / q.1, (p.sig.h + q.2 - 1) / q.2)

/-- The source planes as arrays. -/
def srcPlanes (p : InPic) : List (Array Nat) := (List.range 3).map (fun k => (p.sig.planes.getD k []).toArray)

/-- A source sample, of its depth's bits. -/
def srcAt (p : InPic) (pls : List (Array Nat)) (pl i j : Nat) : Nat :=
  (pls.getD pl #[]).getD (j * (srcDim p pl).1 + i) 0 % 2 ^ depthBits p.sig.depth.val

/-- The internal 16-bit R, G, B of a source pixel (R105). -/
def srcLinear (s : State) (n : Nat) (p : InPic) (pls : List (Array Nat)) (X Y : Nat) : Nat × Nat × Nat :=
  let d := depthBits p.sig.depth.val
  let comp := fun pl =>
    let c := p.mtx != 0 && pl != 0
    let v := fun i j => dequant d c (p.range = 1) (srcAt p pls pl i j)
    if c then let q := srcDim p pl; chromaAt p.sig.sub.val v q.1 q.2 X Y else v X Y
  toLinear (rdW s) (0x44000 + 0x2100 * n) p.mtx p.prim p.m (comp 0, comp 1, comp 2)

/-- Samples of plane block (i, j) of plane pl, edges copied (R111). -/
def inBlock (s : State) (n : Nat) (p : InPic) (pls : List (Array Nat)) (pl i j : Nat) : List Nat :=
  let q := if p.store then srcDim p pl else (p.sig.w, p.sig.h)
  (List.range 1024).map (fun k =>
    let x := min (32 * i + k % 32) (q.1 - 1)
    let y := min (32 * j + k / 32) (q.2 - 1)
    if p.store then srcAt p pls pl x y
    else let c := srcLinear s n p pls x y; if pl = 0 then c.1 else if pl = 1 then c.2.1 else c.2.2)

/-- Submit the panel block at picture block (i, j): an open, replaceable entry of three plane blocks (R116). -/
def submitBlock (n : Nat) (p : InPic) (j : Nat) (a : State × List (Nat × Nat)) (i : Nat) : State × List (Nat × Nat) :=
  let s := a.1
  if panelBW s ≤ p.bx0 + i || panelBH s ≤ p.by0 + j then a else
  let id := nextId s
  let t := ownToken id.2 n
  let c := nextAcc t.2
  let s := openWrites c.2 id.1 p.surface 3
  let s := enqueueRepl s (blkKey (p.bx0 + i) (p.by0 + j))
    { id := id.1, source := n, slot := p.slot, surface := p.surface, seq := p.seq, token := t.1, repl := true, apply := p.apply,
      accAt := s.tick, accNo := c.1, compAt := none, si := i, sj := j }
  (s, a.2 ++ [(256 * j + i, id.1)])

/-- The plane blocks to compress when block row j is written: every plane at this row, subsampled rows with their lower row
(R116). -/
def rowBlocks (p : InPic) (j last : Nat) : List (Nat × Nat × Nat) :=
  (List.range 3).flatMap (fun pl =>
    let q := if p.store then srcSub p pl else (1, 1)
    let w := if p.store then (srcDim p pl).1 else p.sig.w
    if q.2 = 2 then (if j % 2 = 1 || j = last then (List.range (blocksOf w)).map (fun i => (pl, i, j / 2)) else [])
    else (List.range (blocksOf w)).map (fun i => (pl, i, j)))

/-- The entries that plane block (i, j) of a plane belongs to. -/
def blockIds (p : InPic) (ids : List (Nat × Nat)) (pl i j : Nat) : List Nat :=
  let q := if p.store then srcSub p pl else (1, 1)
  (ids.filter (fun e => e.1 % 256 / q.1 = i && e.1 / 256 / q.2 = j)).map (fun e => e.2)

/-- INGEST_BLOCK_ROW_START (R116): the next block row of the picture is submitted and goes to the compress lanes. The picture counts
as written when its last row has begun. -/
def ingestRow (s : State) (n : Nat) : State :=
  match (inp s n).pic with
  | none => s
  | some p =>
    let s := resolveDue s
    let last := blocksOf p.sig.h - 1
    let j := p.row
    let r := (List.range (blocksOf p.sig.w)).foldl (submitBlock n p j) (s, p.ids)
    let s := r.1
    let u := surf s p.surface
    let pls := srcPlanes p
    let depth := if p.store then p.sig.depth.val else 3
    let reqs := (rowBlocks p j last).map (fun b =>
      ({ user := 2, addr := planeBlockAddr u b.1 b.2.1 b.2.2, depth := depth, opaque_ := true,
         samples := inBlock s n p pls b.1 b.2.1 b.2.2, ad := 0, tag := .ingest n (blockIds p r.2 b.1 b.2.1 b.2.2) p.surface } : CmpReq))
    let s := if j = last then
        bump (modIn s n (fun i => { i with pic := none })) (F.ING_IN_PIC_pictures n)
      else modIn s n (fun i => { i with pic := some { p with row := j + 1, ids := r.2 } })
    askCmp (ingStatus s) reqs

/-- A verified plane block of an ingest picture has been written (R116). -/
def ingestDone (s : State) (ids : List Nat) : State := ids.foldl blockWritten s

/-- ING_CLR_CNT. -/
def ingClrCnt (s : State) : State := clearRegs s ((List.range 5).map (fun n => (F.ING_IN_CNT n).off))

/-- HOST_SUBMISSION_DONE (R124, R132). -/
def execHostSubmissionDone (s : State) : Host.Outcome State Fault Refusal :=
  .next (if s.blq.sub.isSome then hostSubmissionDone (resolveDue s) else s)
def execReceiverLockChange (n : Fin 5) (lock : Bool) (s : State) : Host.Outcome State Fault Refusal := .next (receiverLock s n.val lock)
def execInputPictureStart (n : Fin 5) (sig : InSignal) (s : State) : Host.Outcome State Fault Refusal := .next (inputPictureStart s n.val sig)

end Sys2Proof.Machine
end

