-- ==== Sys2Proof/Machine/Age.lean ====
section
/-!
DEFINITION. Ageing compensation (spec/08_ageing_compensation.md): stress accumulation, the model curves, Drizzle sensing and the blend
rule, table rebuild, checkpoints and emission time.
-/

namespace Sys2Proof.Machine

/-- The engine is completing a block or a row: results of a sensed row, an accumulation, a submission held for a full queue, or a slot-20 block on its
way through a lane (R284). -/
def ageBusy (s : State) : Bool :=
  s.age.rbHeld.isSome || !s.age.rows.isEmpty || s.scn.runs.any (fun u => u.accDue) ||
  (s.cdc.cmpLanes.filterMap id ++ s.cdc.cmpWait).any (fun r => match r.tag with | .ageing _ => true | _ => false)

/-- AGE.STATUS.run and the checkpoint status bits (R284). -/
def ageStatus (s : State) : State :=
  let s := wrB s F.AGE_STATUS_run (on s F.AGE_CFG_acc_en || on s F.AGE_CFG_drz_en || on s F.AGE_CFG_rb_en || ageBusy s)
  wrB (wrB s F.AGE_STATUS_ckpt_busy s.age.ckpt.isSome) F.AGE_STATUS_ckpt_held s.age.held.isSome

/-! Tables (R284) -/

/-- Words of an AGE table. -/
def ageTblLen : Nat → Nat
  | 0 => 48 | 1 => 51 | 2 => 51 | _ => 0

/-- A table word. -/
def ageTbl (s : State) (table idx : Nat) : Nat := sget 0 s.age.tbl (64 * table + idx)

/-- Store a table word (R284, R419). -/
def ageTblPut (s : State) (table idx v : Nat) : State :=
  if idx < ageTblLen table then { s with age.tbl := sset 0 s.age.tbl (64 * table + idx) (v % 65536) } else s

/-- An ignored write of the block (Table 8.2). -/
def ageIgn (s : State) : State := bump (wrB s F.AGE_STATUS_wr_ign true) F.AGE_CNT_WR_IGN_writes

/-- AGE_TBL_DATA_ACCESS (R217, R284). -/
def ageTblAccess (s : State) (w : Option Word) : State :=
  let s := ageStatus s
  let t := rd s F.AGE_TBL_SEL_table
  let i := rd s F.AGE_TBL_IDX_index
  let s := match w with
    | some v =>
      if ageTblLen t ≤ i then s else if on s F.AGE_STATUS_run then ageIgn s else ageTblPut s t i v.toNat
    | none => wr s F.AGE_TBL_DATA_data (if i < ageTblLen t then ageTbl s t i else 0)
  wr s F.AGE_TBL_IDX_index (i + 1)

/-! Stress accumulation (R254 to R259) -/

/-- The weight a of a 12-bit drive value of colour c (R256). -/
def weightOf (s : State) (c d : Nat) : Nat :=
  let i := min (d / 273) 14
  let f : Int := (d - 273 * i : Nat)
  let a : Int := ageTbl s 0 (16 * c + i)
  let b : Int := ageTbl s 0 (16 * c + i + 1)
  (a + ((b - a) * f + 136) / 273).toNat

/-- One step of the dither word generator (R257). -/
def lfsrStep (x : Nat) : Nat := (2 * x + (x / 2 ^ 30 + x / 2 ^ 27) % 2) % 2 ^ 31

/-- The 31 steps before an increment (R257). -/
def lfsr31 (x : Nat) : Nat := Nat.repeat lfsrStep 31 x

/-- The stress increment (R255). -/
def stressInc (a e rho : Nat) : Nat := (16 * a * e + rho * 2 ^ 12) / 2 ^ 43

/-- Address of a subpixel's counter (R259). -/
def stressAddr (s : State) (X Y c : Nat) : Nat :=
  4096 * rd s F.AGE_STRESS_LO_addr + 2 ^ 32 * rd s F.AGE_STRESS_HI_addr + (Y / 32 * panelBW s + X / 32) * 12288
    + 4 * (1024 * c + 32 * (Y % 32) + X % 32)

/-- A subpixel's counter. -/
def stressOf (s : State) (X Y c : Nat) : Nat := ofLe (gddrRd s (stressAddr s X Y c) 4)

/-- Set a subpixel's counter. -/
def setStress (s : State) (X Y c v : Nat) : State := gddrWr s 6 (stressAddr s X Y c) (leBytes v 4)

/-- Emission of subframes of a span whose mask bit is set (R227). -/
def litTicks (n m : Nat) (t : Nat × Nat) : Nat :=
  ((List.range n).filter (fun i => m / 2 ^ i % 2 == 1)).foldl (fun a i =>
    a + ((i + 1) * (t.2 - t.1) / n - i * (t.2 - t.1) / n)) 0

/-- Ticks of a repeat pass's emission that fall in the hold, which are not accumulated (R260). -/
def heldTicks (u : Run) (p : Pass) (l : List (Nat × Nat)) : Nat :=
  if u.kind = .repeats then l.foldl (fun a t => a + (min p.hold.2 t.2 - max p.hold.1 t.1)) 0 else 0

/-- The emission e of row y in a pass, capped (R255). -/
def emissionOf (s : State) (u : Run) (p : Option Pass) (y : Nat) : Nat :=
  match p with
  | none => 0
  | some p =>
    let spans := (p.rows[y]?.map (fun r => r.spans)).getD []
    let lit := litSpan s (u.f F.SCN_MODE_dir = 1) p (u.line y / zoneH s)
    if u.kind = .black || !u.prog.getD y true then 0 else
    let e := if u.lc then lit.2 - lit.1 - heldTicks u p [lit] else spans.foldl (fun a t => a + litTicks p.sub.1 p.sub.2 t) 0 - heldTicks u p spans
    min e (2 ^ 28 - 1)

/-- One subpixel's accumulation (R255); the counters of a poisoned granule are skipped (R397). -/
def accSub (u : Run) (Y e : Nat) (s : State) (i : Nat) : State :=
  let X := i / 3
  let c := i % 3
  let d := (sget [] u.capVals (blkKey (X / 32) (Y / 32))).getD (1024 * c + 32 * (Y % 32) + X % 32) 0
  let rho := lfsr31 s.age.lfsr
  let s := { s with age.lfsr := rho }
  let inc := stressInc (weightOf s c d) e rho
  let v := stressOf s X Y c
  let a := stressAddr s X Y c
  if memCap s < a + 4 || readPoisoned s 6 a 4 then memReach s 6 a 4 else
  if v = 0xFFFFFFFF then (if inc = 0 then s else bump s F.AGE_CNT_SAT_increments)
  else if 0xFFFFFFFF < v + inc then bump (setStress s X Y c 0xFFFFFFFF) F.AGE_CNT_SAT_increments
  else setStress s X Y c (v + inc)

/-- Everything the accumulation of a pass needs is known: its drive values, and the end of its emission (DESIGN CHOICE, log entry 68). -/
def accReady (s : State) (u : Run) : Bool :=
  u.accDue && decide (u.h ≤ u.yTake) &&
  (match (allPasses s).find? (fun p => p.start = u.start) with
   | some p => p.rows.all (fun r => r.spans.all (fun t => decide (t.2 ≤ s.tick)))
   | none => true)

/-- STRESS_ACCUMULATION (R255): the earliest accumulation pass whose drive values and emission are complete. Rows that the pass does not drive
take no dither word. -/
def stressAccumulation (s : State) : State :=
  match s.scn.runs.find? (accReady s) with
  | none => s
  | some u =>
    let p := (allPasses s).find? (fun p => p.start = u.start)
    let s := (List.range u.h).foldl (fun s y =>
      if !u.prog.getD y true then s else
      let e := emissionOf s u p y
      (List.range (3 * u.w)).foldl (accSub u (u.line y) e) s) s
    ageStatus (pruneRuns (setRun s { u with accDue := false }))

/-! The stress model (R261 to R263) -/

/-- A curve's value at a counter value (R262): `get i` is entry i. -/
def curveAt (sh : Nat) (get : Nat → Int) (S : Nat) : Int :=
  let sc := min S (16 * 2 ^ sh)
  let i := min (sc / 2 ^ sh) 15
  let f : Int := (sc - i * 2 ^ sh : Nat)
  get i + ((get (i + 1) - get i) * f + 2 ^ (sh - 1)) / 2 ^ sh

/-- Efficiency and threshold entries. -/
def etaOf (s : State) (c i : Nat) : Int := ageTbl s 1 (17 * c + i)
def thetaOf (s : State) (c i : Nat) : Int := signed 16 (ageTbl s 2 (17 * c + i))

/-- The compensation sample of a subpixel: ga in bits 15:8, of in bits 7:0 (R263, R274). -/
def compCode (s : State) (c S : Nat) : Nat :=
  let sh := rd s F.AGE_MODEL_sh
  let eta := max 1 (curveAt sh (etaOf s c) S)
  let ga := clampI ((33554432 + eta / 2) / eta - 1024) 0 255
  let of_ := clampI ((curveAt sh (thetaOf s c) S + 8) / 16) (-128) 127
  ga.toNat * 256 + (of_ % 256).toNat

/-! Drizzle (R264 to R272) -/

/-- Drizzle runs (R264). -/
def drizzleOn (s : State) : Bool := on s F.AGE_CFG_drz_en && outputsRun s && !isLC s

/-- DRIZZLE_TOKEN (R265): gap_ms milliseconds after the last one. -/
def drizzleToken (s : State) : State :=
  if !drizzleOn s then s else
  let s := reach s (s.age.tokenAt + rd s F.AGE_DRZ_CFG_gap_ms * Config.tickMs)
  let t := rd s F.AGE_DRZ_STAT_tokens
  let s := { s with age.tokenAt := s.tick }
  wr s F.AGE_DRZ_STAT_tokens (min (t + 1) (rd s F.AGE_DRZ_CFG_max_rows))

/-- Drizzle starts afresh: cursor 0 and one token (R265). Results that are outstanding are still used (R283). -/
def drizzleReset (s : State) : State :=
  wr (wr { s with age := { s.age with fails := [], past := [], sweepAt := s.tick, tokenAt := s.tick } } F.AGE_DRZ_STAT_tokens 1)
    F.AGE_DRZ_STAT_cursor 0

/-- The sense slots of a dark window, or none where it is declined (R266); rows of an earlier window count as outstanding from the
moment they are placed (DEDUCED, log entry 24). `nextEnd b` is the end of the picture period after the slot's. -/
def drizzleOffer (s : State) (w : DarkWin) (deadline : Nat) : List SenseSlot × State :=
  let setup := rd s F.AGE_DRZ_TIME_setup
  let rt := rd s F.AGE_DRZ_TIME_row_ticks
  let tok := rd s F.AGE_DRZ_STAT_tokens
  let n := if rt = 0 then 0 else min w.n (min tok ((w.b - w.a - 2 * setup) / rt))
  if n = 0 || !drizzleOn s || !s.age.rows.isEmpty then ([], bump s F.AGE_CNT_WIN_declined)
  else
    let slots := (List.range n).map (fun k => (⟨w.a + setup + k * rt, w.a + setup + (k + 1) * rt, w.row + k, false, false⟩ : SenseSlot))
    let rows := (List.range n).map (fun k =>
      (⟨w.row + k, k, w.a + setup + (k + 1) * rt, deadline, [], false⟩ : SenseRow))
    (slots, bump (wr { s with age.rows := rows } F.AGE_DRZ_STAT_tokens (tok - n)) F.AGE_CNT_WIN_used)

/-- The cursor moves to the next row; past the last one a sweep is complete (R268). -/
def cursorStep (s : State) : State :=
  let c := rd s F.AGE_DRZ_STAT_cursor
  if c + 1 < panelH s then wr s F.AGE_DRZ_STAT_cursor (c + 1)
  else
    let s := wr s F.AGE_DRZ_STAT_cursor 0
    let s := wr (bump s F.AGE_SWEEP_CNT_sweeps) F.AGE_SWEEP_seconds ((s.tick - s.age.sweepAt) / Config.tickHz)
    info { s with age.sweepAt := s.tick } blkAGE 0 F.AGE_SWEEP_CNT_sweeps

/-- The cursor moves on while the row it stands on has been passed. -/
def cursorRun : Nat → State → State
  | 0, s => s
  | n + 1, s =>
    let c := rd s F.AGE_DRZ_STAT_cursor
    if s.age.past.contains c then cursorRun n (cursorStep { s with age.past := s.age.past.filter (fun r => r != c) }) else s

/-- The cursor passes a row that has been sensed or skipped (R267): a row beyond the cursor waits for the rows before it, which are retried
(DEDUCED, log entry 69). A row that a repeated bank has sensed again lies behind the cursor, which stays. -/
def cursorPast (s : State) (row : Nat) : State :=
  let s := { s with age.fails := sset 0 s.age.fails row 0 }
  let ahead := (row + panelH s - rd s F.AGE_DRZ_STAT_cursor) % max 1 (panelH s)
  if ahead < 8 then cursorRun 9 { s with age.past := row :: s.age.past } else s

/-- S_η or S_θ by inverting a curve (R271): `le a b` orders the curve's values. -/
def invertCurve (sh : Nat) (get : Nat → Int) (down : Bool) (m : Int) : Nat :=
  let at0 := if down then decide (get 0 ≤ m) else decide (m ≤ get 0)
  if at0 then 0 else
  match (List.range 16).find? (fun i => if down then decide (get (i + 1) ≤ m) else decide (m ≤ get (i + 1))) with
  | some i =>
    let n := if down then get i - m else m - get i
    let d := if down then get i - get (i + 1) else get (i + 1) - get i
    i * 2 ^ sh + (n * 2 ^ sh / d).toNat
  | none => 16 * 2 ^ sh

/-- The measured stress (R271). -/
def measuredStress (s : State) (c : Nat) (etaM : Int) (thetaM : Int) : Nat :=
  let sh := rd s F.AGE_MODEL_sh
  let mix := rd s F.AGE_MODEL_mix
  (invertCurve sh (etaOf s c) true etaM * (256 - mix) + invertCurve sh (thetaOf s c) false thetaM * mix + 128) / 256

/-- A block of a baseline surface, read as a request of class 6 (R151, R395). -/
def baseBlock (s : State) (a depth : Nat) : Decoded :=
  if readPoisoned s 6 a (blockLen s false a) then .err 7 else decodeAt s false a depth

/-- A baseline sample of pixel (X, Y), colour c (R270). -/
def baseline (s : State) (f : Nat) (X Y c : Nat) : Option Nat :=
  let u := surf s f
  match baseBlock s (planeBlockAddr u c (X / 32) (Y / 32)) u.depth with
  | .ok xs _ => some (xs.getD (32 * (Y % 32) + X % 32) 0)
  | .err _ => none

/-- The baseline blocks of a row's results that fail their check are block errors of the ageing engine, each once (R151). The lane is a free
value (log entry 17). -/
def baselineErrors (Y : Nat) (s : State) (l : List (Nat × Nat)) : State :=
  let blocks := ([rd s F.AGE_BASE_base_e, rd s F.AGE_BASE_base_t].flatMap (fun f =>
    let u := surf s f
    l.map (fun p => (planeBlockAddr u p.2 (p.1 / 32) (Y / 32), u.depth)))).eraseDups
  blocks.foldl (fun s b =>
    let d := baseBlock s b.1 b.2
    let s := memReach s 6 b.1 (blockLen s false b.1)
    match d with
    | .ok _ _ => s
    | .err e => let k := freeBelow s 7 16; blockError k.2 e 5 k.1 false b.1) s

/-- Blend one subpixel's result into its counter (R270 to R272). A baseline block that fails its check leaves the subpixel
unblended (DEDUCED, log entry 25). -/
def blendSub (Y : Nat) (s : State) (r : (Nat × Nat) × (Bool × Nat × Nat)) : State :=
  let X := r.1.1
  let c := r.1.2
  match baseline s (rd s F.AGE_BASE_base_e) X Y c, baseline s (rd s F.AGE_BASE_base_t) X Y c with
  | some be, some bt =>
    if !r.2.1 || be = 0 then bump s F.AGE_CNT_INVALID_subpixels else
    let etaM := min 65535 (r.2.2.1 * 32768 / be)
    let thetaM : Int := (((r.2.2.2 : Int) - bt) * (rd s F.AGE_DRZ_SCALE_t_scale : Nat) + 128) / 256
    let sm := measuredStress s c etaM thetaM
    let a := stressAddr s X Y c
    if memCap s < a + 4 || readPoisoned s 6 a 4 then memReach s 6 a 4 else
    let S := stressOf s X Y c
    let d : Int := (sm : Int) - S
    if rd s F.AGE_MAX_DEV_units < d.natAbs then bump s F.AGE_CNT_OUTLIER_subpixels
    else setStress s X Y c (clampI ((S : Int) + ((rd s F.AGE_BLEND_beta : Nat) * d + 128) / 256) 0 0xFFFFFFFF).toNat
  | _, _ => bump s F.AGE_CNT_INVALID_subpixels

/-- Subpixel (X, colour) of channel i of group g (R288). -/
def subOfChannel (s : State) (g i : Nat) : Option (Nat × Nat) :=
  let k := g * rd s F.DRV_CFG_n_ch + i
  if 3 * panelW s ≤ k then none
  else some (k / 3, if on s F.DRV_CFG_order then 2 - k % 3 else k % 3)

/-- The channel results of a row, as subpixels. -/
def rowResults (s : State) (r : SenseRow) : List ((Nat × Nat) × (Bool × Nat × Nat)) :=
  r.got.flatMap (fun e => (e.2.zip (List.range e.2.length)).filterMap (fun x => (subOfChannel s e.1 x.2).map (fun p => (p, x.1))))

/-- The groups in use (R286). -/
def groupsInUse (s : State) : List Nat := bitList (rd s F.DRV_GROUPS_en) 24

/-- Panel line of a scan row under the direction in effect (R176). -/
def lineOf (s : State) (y : Nat) : Nat := if on s F.SCN_MODE_dir then panelH s - 1 - y else y

/-- A row's results have come from every group in use. -/
def rowComplete (s : State) (r : SenseRow) : Bool := (groupsInUse s).all (fun g => r.got.any (fun e => e.1 = g))

/-- SENSE_RESULTS_COMPLETE (R267): the oldest sensed row whose results are complete, within the period after its slot. -/
def senseComplete (s : State) : State :=
  match s.age.rows.find? (fun r => rowComplete s r && decide (s.tick ≤ r.deadline)) with
  | none => s
  | some r =>
    let s := { s with age.rows := s.age.rows.filter (fun x => x != r) }
    let s := baselineErrors (lineOf s r.row) s ((rowResults s r).map (fun x => x.1))
    let s := (rowResults s r).foldl (blendSub (lineOf s r.row)) s
    ageStatus (cursorPast (bump s F.AGE_CNT_SENSED_rows) r.row)

/-- SENSE_RESULTS_TIMEOUT (R267): the oldest row's time is over; it is retried, or skipped after AGE.DRZ_CFG.retry consecutive failures. Rows
sensed after it in the same window are kept. -/
def senseTimeout (s : State) : State :=
  match s.age.rows with
  | [] => s
  | r :: rest =>
    let s := reach { s with age.rows := rest } r.deadline
    let n := sget 0 s.age.fails r.row + 1
    let s := { s with age.fails := sset 0 s.age.fails r.row n }
    ageStatus (if rd s F.AGE_DRZ_CFG_retry ≤ n then
      cursorPast (warning (bump s F.AGE_CNT_ROWS_skipped) blkAGE 0 F.AGE_CNT_ROWS_skipped) r.row
    else bump s F.AGE_CNT_ROWS_retried)

/-! Rebuild (R273 to R275) -/

/-- The compensation samples of panel block (bx, by), colour c, from one snapshot: pixels beyond the panel take the samples of its edge (R111,
R259). -/
def compBlock (s : State) (bx by_ c : Nat) : List Nat :=
  regionBlock (fun r x => compCode s c (stressOf s x r c)) (panelW s) (panelH s) (by_ * panelBW s + bx)

/-- CRC fields of the blocks of the current slot-20 version (R274). -/
def compCrc (s : State) (k c : Nat) : Option Nat :=
  (curOf s k 20).map (fun v => ofLe (gddrRd s (planeBlockAddr (surf s v.surface) c v.si v.sj) 4))

/-- Submit a block's new codes (R274): false where its queue is full. -/
def submitComp (s : State) (bx by_ : Nat) (codes : List (List Nat)) : Bool × State :=
  let s := resolveDue s
  let k := blkKey bx by_
  if queueMax ≤ (queueOf s k).length then (false, s) else
  let x0 := rd s F.AGE_CMP_SURF_surf0
  let f := match curOf s k 20 with | some v => (if v.surface = x0 then rd s F.AGE_CMP_SURF_surf1 else x0) | none => x0
  let u := surf s f
  let id := nextId s
  let t := ownToken id.2 7
  let a := nextAcc t.2
  let s := openWrites a.2 id.1 f 3
  let s := enqueueFirm s k { id := id.1, source := 7, slot := 20, surface := f, seq := s.age.subs % 2 ^ 32, token := t.1, repl := false,
                             apply := none, accAt := s.tick, accNo := a.1, compAt := none, si := bx, sj := by_ }
  let reqs := (List.range 3).map (fun c =>
    ({ user := 5, addr := planeBlockAddr u c bx by_, depth := 3, opaque_ := true, samples := codes.getD c [], ad := 0, tag := .ageing id.1 } : CmpReq))
  (true, askCmp (bump { s with age.subs := s.age.subs + 1 } F.AGE_CNT_BLK_blocks) reqs)

/-- What came of a block: it was passed over, examined, or its submission is held, with its codes, for a full queue. -/
inductive Examined where
  | skipped
  | done
  | held (codes : List (List Nat))
  deriving DecidableEq, Repr

/-- Examine one panel block (R274). -/
def examineBlock (s : State) (bx by_ : Nat) : Examined × State :=
  let k := blkKey bx by_
  if (queueOf s k).any (fun e => e.slot = 20) then (.skipped, s) else
  let codes := (List.range 3).map (compBlock s bx by_)
  if (List.range 3).all (fun c => compCrc s k c == some (crc32 (rawForm 16 (codes.getD c [])))) then (.done, s)
  else
    let r := submitComp s bx by_ codes
    (if r.1 then .done else .held codes, r.2)

/-- Move the cursor over up to n blocks while the limit `left` of blocks to examine (none: no limit) lasts, stopping at a held one, which counts as
examined. -/
def examineRun : Nat → Option Nat → State → State
  | 0, _, s => s
  | _ + 1, some 0, s => s
  | n + 1, left, s =>
    let nb := panelBW s * panelBH s
    let i := s.age.rbBlock
    let r := examineBlock s (i % panelBW s) (i / panelBW s)
    let a := r.2.age
    let past := r.1 = .skipped
    let used := if past || left.isNone then a.rbUsed else a.rbUsed + 1
    match r.1 with
    | .held codes => { r.2 with age := { a with rbHeld := some (i, codes), rbUsed := used } }
    | _ =>
      examineRun n (if past then left else left.map (fun k => k - 1))
        { r.2 with age := { a with rbBlock := (i + 1) % nb, rbFirst := min nb (a.rbFirst + 1), rbUsed := used } }

/-- The submission held for a full queue is offered again, as it stands, after a refresh start (R131). -/
def rebuildOffer (s : State) : State :=
  match s.age.rbHeld with
  | some (i, codes) =>
    let nb := panelBW s * panelBH s
    let r := submitComp s (i % panelBW s) (i / panelBW s) codes
    if r.1 then
      ageStatus { r.2 with age := { r.2.age with rbHeld := none, rbBlock := (i + 1) % nb, rbFirst := min nb (r.2.age.rbFirst + 1) } }
    else r.2
  | none => s

/-- AGE_REBUILD_STEP (R274): the engine examines what the picture period's limit per_pic, as it stands, leaves; before panel power-on, every block once with
no limit (R275), and a held submission is offered first, as it stands (DESIGN CHOICE, log entry 86: no refresh starts while the panel is dark). No
rebuild runs while the panel is dark once that first pass over the panel is made (Table 8.2). -/
def rebuildStep (s : State) : State :=
  if !on s F.AGE_CFG_rb_en then s else
  let nb := panelBW s * panelBH s
  if outputsRun s then (if s.age.rbHeld.isSome then s else ageStatus (examineRun nb (some (rd s F.AGE_REBUILD_per_pic - s.age.rbUsed)) s))
  else if s.age.rebuilt then s
  else
    let s := rebuildOffer s
    if s.age.rbHeld.isSome then s else
    let s := examineRun (nb - s.age.rbFirst) none s
    { s with age.rebuilt := decide (nb ≤ s.age.rbFirst) }

/-- The rebuild before panel power-on has completed: every block examined and every submission complete (R275). -/
def rebuildDone (s : State) : Bool :=
  !on s F.AGE_CFG_rb_en ||
  (s.age.rebuilt && s.age.rbHeld.isNone && s.blq.queues.all (fun q => q.2.all (fun e => e.source != 7 || e.compAt.isSome)))

/-- A verified block of a rebuild submission has been written. -/
def ageingDone (s : State) (id : Nat) : State := ageStatus (blockWritten s id)

/-! Emission time (R279, R431) -/

/-- Emission ticks since the last checkpoint start, and in all. -/
def emitNow (s : State) : Nat := match s.age.emitAt with | some t => s.tick - t | none => 0
def sinceTicks (s : State) : Nat := s.age.sinceAcc + emitNow s

/-- AGE.EMIT_SINCE (R279). -/
def emitStatus (s : State) : State := wr s F.AGE_EMIT_SINCE_seconds (sinceTicks s / Config.tickHz)

/-- Emission switches on: entry to ON. -/
def emissionOn (s : State) : State := { s with age.emitAt := some (s.age.emitAt.getD s.tick) }

/-- Emission switches off. -/
def emissionOff (s : State) : State :=
  let d := emitNow s
  emitStatus { s with age := { s.age with sinceAcc := s.age.sinceAcc + d, emitAcc := s.age.emitAcc + d, emitAt := none } }

/-- Panel outputs start and stop (R323, R431). The rebuild that comes before them is over (R275). -/
def outputsOn (s : State) : State :=
  { s with age := { s.age with onAt := some (s.age.onAt.getD s.tick), rebuilt := true, rbUsed := 0 } }
def outputsOff (s : State) : State :=
  match s.age.onAt with
  | some t => { s with age := { s.age with onAcc := s.age.onAcc + (s.tick - t), onAt := none } }
  | none => s

/-- Ticks in an hour. -/
def hourTicks : Nat := 3600 * Config.tickHz

/-- EMISSION_HOUR (R279): an hour of emission time has passed. -/
def emissionHour (s : State) : State :=
  match s.age.emitAt with
  | none => s
  | some t =>
    let s := reach s (t + (hourTicks - s.age.emitAcc))
    let all := s.age.emitAcc + emitNow s
    incCounter { s with age := { s.age with sinceAcc := sinceTicks s, emitAcc := all - hourTicks, emitAt := some s.tick } } 1

/-- PANEL_ON_HOUR (R431). -/
def panelOnHour (s : State) : State :=
  match s.age.onAt with
  | none => s
  | some t =>
    let s := reach s (t + (hourTicks - s.age.onAcc))
    incCounter { s with age := { s.age with onAcc := s.age.onAcc + (s.tick - t) - hourTicks, onAt := some s.tick } } 0

/-! Checkpoints (R276 to R282) -/

/-- Flash offset and length of a checkpoint slot. -/
def slotBase (s : State) (k : Nat) : Nat := 65536 * (if k = 0 then rd s F.AGE_CKPT_SLOT0_base else rd s F.AGE_CKPT_SLOT1_base)
def slotLen (s : State) (k : Nat) : Nat := 65536 * (if k = 0 then rd s F.AGE_CKPT_SLOT0_len else rd s F.AGE_CKPT_SLOT1_len)

/-- Erase a flash range. -/
def flashErase (s : State) (a n : Nat) : State := { s with flash := sfilter (fun k => !(decide (a ≤ k) && decide (k < a + n))) s.flash }

/-- The next block of a checkpoint's body goes to a compress lane, from one snapshot of its counters (R277, R278); one block at a time (DESIGN
CHOICE, log entry 70). The header's pic_end is the picture number of the last snapshot (R276). A poisoned granule ends the body there (R397). -/
def ckptAsk (s : State) : State :=
  match s.age.ckpt with
  | none => s
  | some c =>
    if 6 ≤ c.plane || c.bad then s else
    let low := decide (3 ≤ c.plane)
    let bx := c.next % panelBW s
    let by_ := c.next / panelBW s
    let a := stressAddr s (32 * bx) (32 * by_) (c.plane % 3)
    if memCap s < a + 4096 || readPoisoned s 6 a 4096 then memReach { s with age.ckpt := some { c with bad := true } } 6 a 4096 else
    let xs := regionBlock (fun r x => let S := stressOf s x r (c.plane % 3); if low then S / 256 % 256 else S / 65536) (panelW s) (panelH s) c.next
    askCmp { s with age.ckpt := some { c with picEnd := s.tmb.pic.getD 0 } } [⟨5, 0, if low then 0 else 3, true, xs, 0, .ckpt c.seq⟩]

/-- Close the segment of the plane in hand: its header is programmed where it holds a block, and the next plane begins (R165, R277). -/
def ckptClose (s : State) (c : Ckpt) (whole : Bool) : State :=
  let low := decide (3 ≤ c.plane)
  let tag := b2n low * 2 ^ 30 + c.plane % 3 * 2 ^ 28 + c.seq % 2 ^ 28
  let s := if c.count = 0 then s else
    flashWr s (slotBase s c.slot + 4096 + c.off) (segHeader (if low then 0 else 3) (panelW s) (panelH s) 0 c.count c.used tag)
  let len := if c.count = 0 then 0 else c.used
  { s with age.ckpt := some { c with plane := c.plane + 1, next := 0, off := c.off + len, used := 64, count := 0
                                     dir := c.dir ++ [(if len = 0 then 0 else c.off, len)]
                                     full := if low && whole then c.full + 2 ^ (c.plane % 3) else c.full } }

/-- A verified block of the checkpoint of a sequence number: it is programmed where it fits in the slot, and the next one follows (R159, R277). -/
def ckptBlock (s : State) (seq : Nat) (bs : List Byte) : State :=
  match s.age.ckpt with
  | none => s
  | some c =>
    if c.seq != seq then s else
    let p := pad16 bs
    if slotLen s c.slot - 4096 < c.off + c.used + p.length then ckptAsk (ckptClose s c false)
    else
      let s := countMode (flashWr s (slotBase s c.slot + 4096 + c.off + c.used) p) bs
      let c := { c with used := c.used + p.length, count := c.count + 1, next := c.next + 1 }
      ckptAsk (if panelBW s * panelBH s ≤ c.next then ckptClose s c true else { s with age.ckpt := some c })

/-- Start a checkpoint (R278): the slot is chosen and erased, header sector first, and the body begins. A periodic one takes the place of the retry that
waits (R281). -/
def ckptStart (s : State) (kind : Nat) : State :=
  let slot := match s.age.newest with | some (k, _) => 1 - k | none => 0
  let seq := match s.age.newest with | some (_, q) => q + 1 | none => 1
  let s := flashErase s (slotBase s slot) (slotLen s slot)
  let s := { s with age := { s.age with
      ckpt := some { slot := slot, seq := seq, kind := kind, pic := s.tmb.pic.getD 0, hours := rd s (F.NVM_CNT_value 1), plane := 0, next := 0,
                     off := 0, used := 64, count := 0, dir := [], full := 0, bad := false }
      sinceAcc := 0, emitAcc := s.age.emitAcc + emitNow s, emitAt := s.age.emitAt.map (fun _ => s.tick)
      retryAt := if kind = 0 then none else s.age.retryAt } }
  ageStatus (ckptAsk (emitStatus s))

/-- A trigger (R279, Table 8.2): starts, or is held at most once, behind a checkpoint or a flash command (R437); a shutdown takes the
held place. -/
def ckptTrigger (s : State) (kind : Nat) : State :=
  match s.age.ckpt, s.nv.xf with
  | none, none => ckptStart s kind
  | _, _ => ageStatus { s with age.held := some (max kind (s.age.held.getD 0)) }

/-- The header bytes of a checkpoint whose body is complete (Table 8.1). -/
def ckptHeader (s : State) (c : Ckpt) : List Byte :=
  let body := flashRd s (slotBase s c.slot + 4096) c.off
  let b := leBytes 0x314B415A 4 ++ leBytes 1 2 ++ leBytes (c.full + (if c.kind = 2 then 16 else 0)) 2 ++ leBytes c.seq 8 ++ leBytes c.pic 8
    ++ leBytes c.picEnd 8 ++ leBytes (panelW s - 1) 2 ++ leBytes (panelH s - 1) 2 ++ leBytes c.hours 4
    ++ leBytes c.off 4 ++ leBytes (crc32 body) 4 ++ c.dir.flatMap (fun d => leBytes d.1 4 ++ leBytes d.2 4) ++ List.replicate 28 0#8
  b ++ leBytes (crc32 b) 4

/-- A held trigger runs after the checkpoint or flash command that ended (Table 8.2, R437), before a held flash command. -/
def ckptNext (s : State) : State :=
  match s.age.held with
  | some kind => ckptStart { s with age.held := none } kind
  | none => xfNext (ageStatus s)

/-- A checkpoint that does not become valid is counted and reported (R281). -/
def ckptCounted (s : State) : State := errorRec (bump s F.AGE_CNT_CKPT_failed) blkAGE 0 F.AGE_CNT_CKPT_failed

/-- A checkpoint ends without becoming valid (R281): a periodic one is tried again later; a block of it that waits for a lane is dropped. -/
def ckptAbandon (s : State) : State :=
  match s.age.ckpt with
  | none => s
  | some c =>
    let retry := if c.kind = 0 then some (s.tick + rd s F.AGE_CKPT_CFG_retry * 60 * Config.tickHz) else s.age.retryAt
    let s := { s with age := { s.age with ckpt := none, retryAt := retry, shutBy := if c.kind = 2 then none else s.age.shutBy }
                      cdc.cmpWait := s.cdc.cmpWait.filter (fun r => match r.tag with | .ckpt _ => false | _ => true) }
    ckptCounted s

/-- The body of the checkpoint in progress is in flash. -/
def ckptBody (s : State) : Bool := match s.age.ckpt with | some c => decide (6 ≤ c.plane) | none => false

/-- CKPT_DONE (R277, R278): the header has been programmed after the body; the checkpoint is valid. A checkpoint that met a poisoned granule
fails (R397). -/
def ckptDone (s : State) : State :=
  match s.age.ckpt with
  | none => s
  | some c =>
    if c.bad then ckptNext (ckptAbandon s) else
    if !ckptBody s then s else
    let s := flashWr s (slotBase s c.slot) (ckptHeader s c)
    let s := { s with age := { s.age with ckpt := none, newest := some (c.slot, c.seq), shutBy := if c.kind = 2 then none else s.age.shutBy } }
    let s := wr (wr (wr s F.AGE_STATUS_newest c.slot) F.AGE_CKPT_SEQ_LO_seq c.seq) F.AGE_CKPT_SEQ_HI_seq (c.seq / 2 ^ 32)
    ckptNext (bump s F.AGE_CNT_CKPT_written)

/-- CKPT_FAIL (R281). -/
def ckptFail (s : State) : State := if s.age.ckpt.isSome then ckptNext (ckptAbandon s) else s

/-- CKPT_SHUT_TIMEOUT (R280): the shutdown checkpoint, running or held, is abandoned. One that was held counts as one that ended without
becoming valid (DEDUCED, log entry 70). -/
def ckptShutTimeout (s : State) : State :=
  match s.age.shutBy with
  | none => s
  | some t =>
    let s := reach { s with age.shutBy := none } t
    if (match s.age.ckpt with | some c => decide (c.kind = 2) | none => false) then ckptNext (ckptAbandon s)
    else ageStatus (ckptCounted { s with age.held := s.age.held.filter (fun k => k != 2) })

/-- CKPT_INTERVAL (R279): the interval of emission time has been reached. -/
def ckptInterval (s : State) : State :=
  match s.age.emitAt with
  | none => s
  | some t =>
    let due := rd s F.AGE_CKPT_CFG_interval * 60 * Config.tickHz
    ckptTrigger (emitStatus (reach s (t + (due - s.age.sinceAcc)))) 0

/-- AGE_CKPT (R279): ignored while a trigger is held (Table 8.2). -/
def ageCkpt (s : State) : State := if s.age.held.isSome then s else ckptTrigger s 1

/-- CKPT_RETRY (R281). -/
def ckptRetry (s : State) : State :=
  match s.age.retryAt with
  | some t => ckptTrigger (reach { s with age.retryAt := none } t) 0
  | none => s

/-- An orderly shutdown asks for its checkpoint, which starts when emission has ended (R280). -/
def ckptShutdown (s : State) : State :=
  ckptTrigger { s with age.shutBy := some (s.tick + rd s F.AGE_CKPT_CFG_shut_max * Config.tickHz) } 2

/-- A shutdown checkpoint is still to become valid or be abandoned. -/
def shutPending (s : State) : Bool := s.age.shutBy.isSome

/-! Restore (R282) -/

/-- A segment of a checkpoint body: its blocks in region order, where it is present and passes R168. -/
def ckptSegRead (s : State) (body : List Byte) (off len depth : Nat) : Option (List (List Nat)) :=
  let b := slice body off len
  match segCheck (slice b 0 64) depth (panelW s) (panelH s) len with
  | some (0, n, _) => some (unpackBlocks depth n (b.drop 64))
  | _ => none

/-- A slot's content when it is valid: seq, and the six planes' blocks. -/
def ckptRead (s : State) (k : Nat) : Option (Nat × List (Option (List (List Nat)))) :=
  let h := flashRd s (slotBase s k) 128
  let len := leAt h 40 4
  if leAt h 0 4 != 0x314B415A || leAt h 4 2 != 1 || leAt h 124 4 != crc32 (slice h 0 124) || leAt h 32 2 % 8192 != panelW s - 1
    || leAt h 34 2 % 8192 != panelH s - 1 || slotLen s k < len + 4096 then none
  else
    let body := flashRd s (slotBase s k + 4096) len
    if crc32 body != leAt h 44 4 then none else
    let segs := (List.range 6).map (fun i =>
      let o := leAt h (48 + 8 * i) 4
      let n := leAt h (52 + 8 * i) 4
      if n = 0 then (true, none) else
      let r := ckptSegRead s body o n (if i < 3 then 3 else 0)
      (r.isSome, r))
    if segs.all (fun x => x.1) && (segs.take 3).all (fun x => match x.2 with
      | some l => decide (l.length = panelBW s * panelBH s) | none => false)
    then some (leAt h 8 8, segs.map (fun x => x.2)) else none

/-- The first block of a segment that fails its check: cause and offset in the segment (R168). -/
def segBad (depth : Nat) : Nat → Nat → List Byte → Option (Nat × Nat)
  | 0, _, _ => none
  | n + 1, o, bs =>
    match decodeBlock depth bs with
    | .ok _ _ => let k := (16 + hdrLen bs + 15) / 16 * 16; segBad depth n (o + k) (bs.drop k)
    | .err c => some (c, o)

/-- Blocks of a slot's present segments that fail their check as the slot is read are block errors of the ageing engine (R151), at the flash offset
they are read from (DEDUCED, log entry 17). -/
def ckptErrors (s : State) (k : Nat) : State :=
  let h := flashRd s (slotBase s k) 128
  if slotLen s k = 0 || leAt h 0 4 != 0x314B415A || leAt h 124 4 != crc32 (slice h 0 124) then s else
  (List.range 6).foldl (fun s i =>
    let o := slotBase s k + 4096 + leAt h (48 + 8 * i) 4
    let n := leAt h (52 + 8 * i) 4
    let d := if i < 3 then 3 else 0
    let b := flashRd s o n
    match segCheck (slice b 0 64) d (panelW s) (panelH s) n with
    | some (_, m, _) =>
      (match segBad d m 64 (b.drop 64) with
       | some (c, e) => let f := freeBelow s 7 16; blockError f.2 c 5 f.1 false (o + e)
       | none => s)
    | none => s) s

/-- Restore the counters of a slot (R282). -/
def ckptApply (s : State) (planes : List (Option (List (List Nat)))) : State :=
  (List.range 3).foldl (fun s c =>
    let hi := (planes.getD c none).getD []
    let lo := (planes.getD (3 + c) none).getD []
    (List.range (panelBW s * panelBH s)).foldl (fun s i =>
      let a := stressAddr s (32 * (i % panelBW s)) (32 * (i / panelBW s)) c
      let h := hi.getD i []
      let bytes := (h.zip (List.range 1024)).flatMap (fun e =>
        leBytes (e.1 * 65536 + (match lo[i]? with | some l => l.getD e.2 0 * 256 + 0x80 | none => 0x8000)) 4)
      gddrWr s 6 a bytes) s) s

/-- Count a torn slot: not valid, and its header sector not wholly erased (R282). -/
def ckptTorn (s : State) (k : Nat) (r : Option (Nat × List (Option (List (List Nat))))) : State :=
  if r.isNone && slotLen s k != 0 && (flashRd s (slotBase s k) 4096).any (fun b => b != 0xFF#8) then
    warning (bump s F.AGE_CNT_CKPT_torn) blkAGE k F.AGE_CNT_CKPT_torn else s

/-- The table-load step's restore (R282). -/
def ckptRestore (s : State) : State :=
  let a := if slotLen s 0 = 0 then none else ckptRead s 0
  let b := if slotLen s 1 = 0 then none else ckptRead s 1
  let s := ckptTorn (ckptTorn (ckptErrors (ckptErrors s 0) 1) 0 a) 1 b
  let best := match a, b with
    | some x, some y => if x.1 < y.1 then some (1, y) else some (0, x)
    | some x, none => some (0, x)
    | none, some y => some (1, y)
    | none, none => none
  match best with
  | some (k, q, pl) =>
    let s := ckptApply { s with age.newest := some (k, q) } pl
    wrB (wr (wr (wr s F.AGE_STATUS_newest k) F.AGE_CKPT_SEQ_LO_seq q) F.AGE_CKPT_SEQ_HI_seq (q / 2 ^ 32)) F.AGE_STATUS_ckpt_none false
  | none =>
    let z := List.replicate 12288 0#8
    let s := (List.range (panelBW s * panelBH s)).foldl (fun s i => gddrWr s 6 (stressAddr s (32 * (i % panelBW s)) (32 * (i / panelBW s)) 0) z) s
    alarmSet (errorRec (wrB { s with age.newest := none } F.AGE_STATUS_ckpt_none true) blkAGE 0 F.AGE_STATUS_ckpt_none) almCKPT

/-- AGE_CLR_CNT (R285). -/
def ageClrCnt (s : State) : State :=
  wrB (clearRegs s [F.AGE_CNT_ROWS.off, F.AGE_CNT_SENSED.off, F.AGE_CNT_OUTLIER.off, F.AGE_CNT_INVALID.off, F.AGE_CNT_WIN.off,
    F.AGE_CNT_CKPT.off, F.AGE_CNT_BLK.off, F.AGE_CNT_SAT.off, F.AGE_CNT_WR_IGN.off]) F.AGE_STATUS_wr_ign false

/-- Panel power-on (R254, R257, R265, R325). -/
def agePowerOn (s : State) : State :=
  drizzleReset { s with age := { s.age with rows := [], passNo := [0, 0, 0, 0, 0], lfsr := rd s F.AGE_SEED_seed } }

/-! Meanings -/

def execStressAccumulation (s : State) : Host.Outcome State Fault Refusal := .next (stressAccumulation s)
def execDrizzleToken (s : State) : Host.Outcome State Fault Refusal := .next (drizzleToken s)
def execSenseResultsComplete (s : State) : Host.Outcome State Fault Refusal := .next (senseComplete s)
def execSenseResultsTimeout (s : State) : Host.Outcome State Fault Refusal := .next (senseTimeout s)
def execAgeRebuildStep (s : State) : Host.Outcome State Fault Refusal := .next (rebuildStep s)
/-- XF_DONE: a checkpoint trigger that waited for the flash command runs (R437). -/
def execXfDone (flashErr : Bool) (s : State) : Host.Outcome State Fault Refusal :=
  .next (if s.nv.xf.isNone then s else ckptNext (xfDone s flashErr))
def execCkptInterval (s : State) : Host.Outcome State Fault Refusal := .next (ckptInterval s)
def execCkptRetry (s : State) : Host.Outcome State Fault Refusal := .next (ckptRetry s)
def execEmissionHour (s : State) : Host.Outcome State Fault Refusal := .next (emissionHour s)
def execPanelOnHour (s : State) : Host.Outcome State Fault Refusal := .next (panelOnHour s)

end Sys2Proof.Machine
end

