-- ==== Sys2Proof/Machine/Drv.lean ====
section
/-!
DEFINITION. The drive block (spec/09_panel_drive.md): packets and slots of the column link, training, lane faults and the spare, the back
channel, and the gate-timing and emission outputs.
-/

namespace Sys2Proof.Machine

/-- Q0 (R290). -/
def q0 (s : State) : Nat := rd s F.SCN_LINE_q_min / 65536

/-- DRV.SLOT (Table 9.10). -/
def slotStatus (s : State) : State := wr (wr s F.DRV_SLOT_q0 (q0 s)) F.DRV_SLOT_t_row ((tRow s).getD 0)

/-- An ignored write of the block (R319). -/
def drvIgn (s : State) : State := bump (wrB s F.DRV_STATUS_wr_ign true) F.DRV_CNT_WR_IGN_writes

/-! Groups (R286, R303) -/

/-- A group beside its registers. -/
def grp (s : State) (g : Nat) : Grp := sget Grp.off s.drv.grps g
def setGrp (s : State) (g : Nat) (x : Grp) : State := { s with drv.grps := sset Grp.off s.drv.grps g x }

/-- The group sends slots. -/
def grpLive (s : State) (g : Nat) : Bool := (grp s g).step = 6

/-- Groups in use that send slots, and groups in use that are up. -/
def liveGroups (s : State) : List Nat := (groupsInUse s).filter (grpLive s)
def upGroups (s : State) : List Nat := (groupsInUse s).filter (fun g => on s (F.DRV_GRP_STAT_up g))

/-- Report a group as up or not. -/
def setUp (s : State) (g : Nat) (b : Bool) : State := setBitOf (wrB s (F.DRV_GRP_STAT_up g) b) F.DRV_STATUS_up g b

/-- DRV.STATUS.training. -/
def trainStatus (s : State) : State :=
  wrB s F.DRV_STATUS_training ((List.range 24).any (fun g => decide (1 ≤ (grp s g).step) && decide ((grp s g).step ≤ 5)))

/-- A group fails (R303, R309): it is no longer up; in service its remaining lanes go on sending. -/
def groupFails (s : State) (g : Nat) : State :=
  if bitOf s F.DRV_GRP_FAIL_failed g then s
  else errorRec (setUp (setBitOf s F.DRV_GRP_FAIL_failed g true) g false) blkDRV g F.DRV_GRP_FAIL_failed [(g, 1)]

/-! Packets (R291 to R296) -/

/-- A packet's bytes without symbols: header, payload, CRC (R292, R293). -/
def packet (typ lane : Nat) (rep : Bool) (seq arg : Nat) (pay : List Byte) : List Byte :=
  let b := beBytes (typ * 2 ^ 28 + lane * 2 ^ 26 + b2n rep * 2 ^ 25 + seq % 256 * 2 ^ 16 + arg % 2 ^ 16) 4 ++ pay
  b ++ beBytes (crc16 b) 2

/-- Symbols of a packet with the idle pair that follows it (R292). -/
def pktSymbols (pay : Nat) : Nat := pay + 10

/-- Special symbols as numbers of 256 and up: SOP, EOP and COM; the idle pair is COM, D10.2 (Table 9.2). -/
def symSOP : Nat := 256 + 0xFB
def symEOP : Nat := 256 + 0xFD
def symCOM : Nat := 256 + 0xBC
def idlePair : List Nat := [symCOM, 0x4A]

/-- A packet as sent on a lane, with the idle pair that separates it from the next (R292). -/
def symsOf (bs : List Byte) : List Nat := symSOP :: bs.map (fun b => b.toNat) ++ symEOP :: idlePair

/-- A training set: COM, the lane number, the group, and 13 times the mark of the set (Table 9.5). -/
def trainSet (mark lane g : Nat) : List Nat := [symCOM, lane, g] ++ List.replicate 13 mark

/-- What lane l (4: the spare) of group g sends, as the symbols it repeats, or has sent in the running slot: nothing in electrical idle, the
training patterns of Table 9.5, of step 3 with the status request after the sets, packets and idle pairs in slots. The lanes of a group that is not in
use are switched off (R286); the lane that the spare stands in for is in electrical idle (R306). -/
def laneSyms (s : State) (g l : Nat) : List Nat :=
  if !(groupsInUse s).contains g then [] else
  match (grp s g).step with
  | 0 => [] | 1 => []
  | 2 => [0xB5]
  | 3 => (List.replicate 64 (trainSet 0x4A l g)).flatten ++ sget [] s.drv.sent (5 * g + l)
  | 4 => trainSet 0x45 l g
  | 5 => sget idlePair s.drv.sent (5 * g + l)
  | _ =>
    if l < 4 && on s (F.DRV_GRP_STAT_spare_active g) && rd s (F.DRV_GRP_STAT_spare_lane g) = l then []
    else sget idlePair s.drv.sent (5 * g + l)

/-- The IDLE packet of a lane. -/
def idlePacket (lane seq : Nat) : List Byte := packet 0 lane false seq 0 []

/-- Concatenate codes of d bits, most significant bit first (R296). -/
def packCodes (d : Nat) (vals : List Nat) : List Byte := beBytes (vals.foldl (fun a v => a * 2 ^ d + v) 0) (vals.length * d / 8)

/-- Subpixel 3X + c of channel i of group g; none where the channel is beyond the panel (R288). -/
def chanSub (s : State) (g i : Nat) : Option Nat := (subOfChannel s g i).map (fun p => 3 * p.1 + p.2)

/-- The payload of the ROW packet of logical lane l (R296): `vals` are the row's values in the 12-bit form. -/
def rowPay (s : State) (g l : Nat) (vals : Array Nat) : List Byte :=
  let d := driveDepth s
  packCodes d ((List.range (rd s F.DRV_CFG_n_ch / 4)).map (fun k =>
    match chanSub s g (l + 4 * k) with
    | some i => vals.getD i 0 / 2 ^ (12 - d)
    | none => 0))

/-- The arg of a ROW packet (R296, Table 9.4). -/
def rowArg (s : State) (u : Run) (g y : Nat) : Nat :=
  let Y := u.line y
  let xs := (chanSub s g 0).getD 0
  let pa := match polarityAt s u g xs Y with
    | some neg => b2n neg * 4 + b2n (rd s (F.PPX_POL_CFG_pattern (commonOf s g)) != 1) * 2
    | none => 0
  y * 8 + pa + rd s F.DRV_CFG_d12

/-- Put a packet on a lane in the running slot. -/
def sendOn (s : State) (g lane : Nat) (bs : List Byte) : State :=
  let s := { s with drv.lag := sset [] s.drv.lag (4 * g + lane) (sget [] s.drv.lag (4 * g + lane) ++ [bs]) }
  if on s (F.DRV_GRP_STAT_spare_active g) && rd s (F.DRV_GRP_STAT_spare_lane g) = lane then s
  else { s with drv.sent := sset [] s.drv.sent (5 * g + lane) (sget [] s.drv.sent (5 * g + lane) ++ symsOf bs) }

/-! Read-back requests (R294, R310 to R312) -/

/-- Ticks of a back-channel bit. -/
def bcBit : Nat := 30

/-- Bits of a frame without the turnaround (Table 9.7). -/
def frameBits (s : State) (r : BackReq) : Nat :=
  16 + 32 + 16 + (match r.kind with
    | 0 => 32 * (bitList r.mask 8).length
    | 1 => 32 + 31 * rd s F.DRV_CFG_n_ch
    | _ => 96)

/-- The bc_ofs of a request whose last symbol leaves its pin at tick `eop`: the least that keeps every expected frame DRV.BACK.guard bit times
behind the one before it (R311; DESIGN CHOICE among the offsets that do, log entry 26). -/
def bcOfs (s : State) (eop : Nat) : Nat :=
  let t := s.drv.backFree + rd s F.DRV_BACK_guard * bcBit
  if t ≤ eop then 0 else (t - eop + bcBit - 1) / bcBit

/-- A request reaches its group at the last symbol of its packet, or, while the spare stands in for lane 0, of the packet's copy, which lags by the
running slot's Q0 (R306, R321). -/
def reqLag (s : State) (g : Nat) : Nat :=
  if on s (F.DRV_GRP_STAT_spare_active g) && rd s (F.DRV_GRP_STAT_spare_lane g) = 0 then s.drv.slotLen else 0

/-- The request can be sent now: its bc_ofs fits its field (R294); until then it waits. -/
def reqFits (s : State) (r : BackReq) (eop : Nat) : Bool := decide (bcOfs s (eop + reqLag s r.group.val) < 2 ^ 16)

/-- Precedence of a kind of request (R298). -/
def reqPrec : Nat → Nat
  | 0 => 1 | 1 => 3 | _ => 4

/-- Queue a request (R298). -/
def queueReq (s : State) (r : BackReq) : State :=
  { s with drv.queue := s.drv.queue ++ [⟨reqPrec r.kind, 2 ^ r.group.val, 4, r.kind * 2 ^ 14 + r.id, [], some r, none⟩] }

/-- Issue a new request to a group. -/
def newReq (s : State) (kind g mask tag row : Nat) : State :=
  let id := s.drv.nextReq
  queueReq { s with drv.nextReq := (id + 1) % 256 } ⟨kind, Fin.ofNat 24 g, id, mask, tag, row, 0, 0⟩

/-- A request is sent: the tick at which its frame is expected to begin, and CL_BACK is taken until its end. -/
def issueReq (s : State) (r : BackReq) (eop : Nat) : Nat × State :=
  let e := eop + reqLag s r.group.val
  let o := bcOfs s e
  let start := e + o * bcBit
  (o, { s with drv := { s.drv with backFree := start + (frameBits s r + 4) * bcBit, reqs := s.drv.reqs ++ [{ r with due := start }] } })

/-- The payload of a queued packet when its last symbol leaves its pin at tick `eop`, with what sending a request changes. -/
def pktPay (s : State) (p : Pkt) (eop : Nat) : List Byte × State :=
  match p.req with
  | none =>
    (if p.typ = 3 then beBytes (rd s F.DRV_SENSE_level * 2 ^ 16 + rd s F.DRV_SENSE_meas_t * 2 + rd s F.DRV_SENSE_meas_e) 4 else p.pay, s)
  | some r =>
    let x := issueReq s r eop
    (beBytes (x.1 * 2 ^ 16 + (if r.kind = 0 then r.mask * 2 ^ 8 else 0) + (if r.kind = 1 then r.tag else 0)) 4, x.2)

/-! Slots (R297, R298) -/

/-- The tick at which n symbols that begin at tick t have been sent, with the 4 ticks of R287. -/
def symEnd (s : State) (t n : Nat) : Nat :=
  match symTicks (rd s F.DRV_CFG_rate) with
  | some (a, b) => t + (n * a + b - 1) / b + 4
  | none => t + 2 ^ 32

/-- The write scan counts for the panel's outputs (R325, R329): it starts at or after panel power-on and before the link stop. -/
def passDriven (s : State) (p : Pass) : Bool :=
  (match s.psq.onAt with | some t => decide (t ≤ p.start) | none => false)
  && (match s.psq.stopAt with | some t => decide (p.start < t) | none => true)

/-- A run's Q0 (R297). -/
def Run.q0 (u : Run) : Nat := u.f F.SCN_LINE_q_min / 65536

/-- Q0 of a pass that has not started: of the timing mode that a transition brings, from its end on (R206). -/
def passQ0 (s : State) (p : Pass) : Nat :=
  match s.scn.nsl, s.scn.set with
  | some n, some c => if n.b ≤ p.start then F.SCN_LINE_q_min.ofWord (sget 0#32 c.snap F.SCN_LINE_q_min.off) / 65536 else q0 s
  | _, _ => q0 s

/-- The start of the next row slot at or after tick t: the next row of a run, or row 0 of a pass to come (R297). -/
def nextRow (s : State) (t : Nat) : Option Nat :=
  let runs := (s.scn.runs.filter (fun u => decide (u.ySlot < u.h))).map (fun u => rowTick u.start u.q u.ySlot - 2 * u.q0)
  let ps := ((allPasses s ++ (match s.exs.next with | some b => b.passes | none => [])).filter (fun p => !p.started && passDriven s p)).map
    (fun p => p.start - 2 * passQ0 s p)
  minBy (fun x : Nat => x) ((runs ++ ps).filter (fun x => decide (t ≤ x)))

/-- The grid in force at tick t: its origin and Q0 (R297). -/
def gridAt (s : State) (t : Nat) : Nat × Nat := (s.drv.grids.find? (fun g => decide (g.1 ≤ t))).getD (0, q0 s)

/-- A grid of gap slots starts at tick t (R297). -/
def newGrid (s : State) (t q : Nat) : State := { s with drv.grids := ((t, q) :: s.drv.grids).take 4 }

/-- The next restart of the grid after tick t: of a grid that starts later, as at the boundary of a transition that has ended, or at the boundary b of
one that is to come (R206, R297). -/
def gridRestart (s : State) (t : Nat) : Option Nat :=
  minBy (fun x : Nat => x) (((s.drv.grids.map (fun g => g.1)) ++ (s.scn.nsl.map (fun n => n.b)).toList).filter (fun o => decide (t < o)))

/-- The first gap slot at or after tick t on the grid in force there: it ends by the start of the next row slot, `row`, and at least Q0 before the
grid's next restart (R297). -/
def gapOn (s : State) (t : Nat) (row : Option Nat) : Option (Nat × Nat) :=
  let g := gridAt s t
  if g.2 = 0 then none else
  let a := g.1 + (t - g.1 + g.2 - 1) / g.2 * g.2
  let ok := (match row with | some r => decide (a + g.2 ≤ r) | none => true) &&
    (match gridRestart s t with | some o => decide (a + 2 * g.2 ≤ o) | none => true)
  if ok then some (a, g.2) else none

/-- The first gap slot at or after tick t: its start and length; where the running grid has no room for one before it restarts, the first after the
restart (R297). -/
def nextGap (s : State) (t : Nat) : Option (Nat × Nat) :=
  match gapOn s t (nextRow s t), s.drv.grids.filter (fun g => decide (t < g.1)) with
  | some x, _ => some x
  | none, [] => none
  | none, gs => (minBy (fun x : Nat => x) (gs.map (fun g => g.1))).bind (fun o => gapOn s o (nextRow s t))

/-- The end of the slot after the one that ends at `e`. -/
def nextSlotEnd (s : State) (e : Nat) : Nat :=
  match nextGap s e, nextRow s e with
  | some (a, q), _ => a + q
  | none, some r => r + q0 s
  | none, none => e + q0 s

/-- A queued packet may go in the slot that ends at `e`: a SENSE packet only in the last slot that ends in time (R313). -/
def pktDue (e nextEnd : Nat) (p : Pkt) : Bool := match p.endBy with | some t => decide (e ≤ t) && decide (t < nextEnd) | none => true

/-- What a slot has sent so far: the state, the symbols on logical lane 0 of each group, and the queued packets sent, by place and group. -/
structure SlotOut where
  s : State
  used : List Nat
  gone : List (Nat × Nat)

/-- Send the queued packet p, at place i of the queue, to group g, where it is due and fits in the slot [t, e) (R298). -/
def sendQueued (t e nextEnd : Nat) (x : SlotOut) (p : Pkt) (i g : Nat) : SlotOut :=
  let n := x.used.getD g 0
  let len := pktSymbols (if p.req.isSome || p.typ = 3 then 4 else p.pay.length)
  let eop := symEnd x.s t (n + len - 2) + lOut
  let fits := match p.req with | some r => reqFits x.s r eop | none => true
  if !pktDue e nextEnd p || e - 64 < symEnd x.s t (n + len) || !fits then x
  else
    let y := pktPay x.s p eop
    { s := sendOn y.2 g 0 (packet p.typ 0 false x.s.drv.seq p.arg y.1), used := x.used.set g (n + len), gone := (i, g) :: x.gone }

/-- The queue in order of precedence, first come first within one, each packet with its place in the queue. -/
def byPrec (l : List Pkt) : List (Pkt × Nat) := [1, 2, 3, 4, 5].flatMap (fun k => (l.zip (List.range l.length)).filter (fun p => p.1.prec = k))

/-- Send what the queue holds after `len` symbols of the slot [t, e) on lane 0 of every group that sends slots: in order of precedence over all
groups, which share CL_BACK (R298, R311). -/
def sendSlot (s : State) (t e nextEnd len : Nat) : SlotOut :=
  let x := (byPrec s.drv.queue).foldl (fun x p => ((liveGroups s).filter (fun g => p.1.mask / 2 ^ g % 2 = 1)).foldl
    (fun x g => sendQueued t e nextEnd x p.1 p.2 g) x) (⟨s, List.replicate 24 len, []⟩ : SlotOut)
  let left := (s.drv.queue.zip (List.range s.drv.queue.length)).map (fun p =>
    { p.1 with mask := (x.gone.filter (fun k => k.1 = p.2)).foldl (fun m k => m - 2 ^ k.2) p.1.mask })
  { x with s := { x.s with drv.queue := left.filter (fun p => p.mask != 0) } }

/-- Packets go only to groups that send slots, requests only to those that are up, and SENSE packets only while a slot still ends in time (R300, R313,
R321). -/
def dropPkts (s : State) (e : Nat) : State :=
  let mask := fun (l : List Nat) => l.foldl (fun a g => a + 2 ^ g) 0
  let live := mask (liveGroups s)
  let up := mask ((liveGroups s).filter (fun g => on s (F.DRV_GRP_STAT_up g)))
  { s with drv.queue := ((s.drv.queue.map (fun p => { p with mask := p.mask &&& (if p.req.isSome then up else live) })).filter
      (fun p => p.mask != 0)).filter (fun p => match p.endBy with | some t => decide (e ≤ t) | none => true) }

/-- A slot [t, t + q) begins, in calendar ticks: `row` gives each group's packets for lanes 0 to 3 and the symbols of the first of them; a gap
slot has none. Data lanes of a gap slot that carry nothing else carry an IDLE packet. Copies that the spares send in the slot after the one
they belong to stay on them, where the new slot starts before they have been sent (R306). -/
def beginSlot (s : State) (t q nextEnd : Nat) (row : Option (Nat → Nat → List Byte)) (len : Nat) : State :=
  let copies := if t < s.drv.slotFrom + s.drv.slotLen then s.drv.sent.filter (fun e => e.1 % 5 = 4) else []
  let s := dropPkts { s with drv := { s.drv with slotAt := some t, slotLen := q, slotFrom := t + q, sent := copies, lag := [] } } (t + q)
  let s := match row with
    | some f => (sendSlot ((liveGroups s).foldl (fun s g => (List.range 4).foldl (fun s l => sendOn s g l (f g l)) s) s) t (t + q) nextEnd len).s
    | none =>
      let x := sendSlot s t (t + q) nextEnd 0
      (liveGroups s).foldl (fun s g => (List.range 4).foldl (fun s l =>
        if l = 0 && x.used.getD g 0 != 0 then s else sendOn s g l (idlePacket l s.drv.seq)) s) x.s
  { s with drv.seq := (s.drv.seq + 1) % 256 }

/-! Lane faults and the spare (R304 to R309) -/

/-- The packets of a logical lane of the slot just ended go out on the spare (R306). -/
def spareCopy (s : State) (g l : Nat) : State :=
  let mark := fun (bs : List Byte) =>
    let b := (bs.take (bs.length - 2)).modify 0 (fun x => x ||| 2#8)
    b ++ beBytes (crc16 b) 2
  { s with drv.sent := sset [] s.drv.sent (5 * g + 4) ((sget [] s.drv.lag (4 * g + l)).flatMap (fun bs => symsOf (mark bs))) }

/-- The spare takes over logical lane l of group g (R306). -/
def takeover (s : State) (g l : Nat) : State :=
  let s := wr (wrB s (F.DRV_GRP_STAT_spare_active g) true) (F.DRV_GRP_STAT_spare_lane g) l
  warning (bump s F.DRV_CNT_TAKEOVER_count) blkDRV g F.DRV_CNT_TAKEOVER_count [(g, 1), (l, 1)]

/-- The end of a slot for one group: takeover by the monitor, then by the driver's counts, and the copy on the spare (R305, R306, R308,
R321). -/
def slotEndGroup (s : State) (g : Nat) : State :=
  let x := grp s g
  let s := setGrp s g { x with det := [0, 0, 0, 0], rxTake := none }
  let active := on s (F.DRV_GRP_STAT_spare_active g)
  let thr := rd s F.DRV_TAKEOVER_tx_thr
  let hit := (List.range 4).filter (fun l => decide (thr ≤ x.det.getD l 0) && decide (0 < x.det.getD l 0))
  let s := if active || !on s (F.DRV_GRP_STAT_spare_ok g) then s else
    match hit, x.rxTake with
    | l :: more, r =>
      let s := takeover s g l
      if !more.isEmpty || (match r with | some k => k != l | none => false) then groupFails s g else s
    | [], some l => takeover s g l
    | [], none => s
  if on s (F.DRV_GRP_STAT_spare_active g) then spareCopy s g (rd s (F.DRV_GRP_STAT_spare_lane g)) else s

/-- The monitor of a group's lane detects a fault (R304, R309). -/
def detected (s : State) (g lane : Nat) : State :=
  let active := on s (F.DRV_GRP_STAT_spare_active g)
  if active && lane = rd s (F.DRV_GRP_STAT_spare_lane g) then s else
  let s := bump s (F.DRV_GRP_STAT_tx_err g)
  if lane = 4 then
    let s := warning (wrB s (F.DRV_GRP_STAT_spare_ok g) false) blkDRV g (F.DRV_GRP_STAT_spare_ok g)
    if active then groupFails s g else s
  else
    let x := grp s g
    let s := setGrp s g { x with det := x.det.modify lane (fun n => n + 1) }
    if active then groupFails s g else s

/-! Driver table (R300) -/

/-- Parse the driver table's words into CFG packets for the groups in use: (mask, arg, payload). -/
def driverRecords (s : State) : Nat → Nat → Nat → List (Nat × Nat × List Byte)
  | 0, _, _ => []
  | fuel + 1, a, left =>
    if left < 2 then [] else
    let mask := lst32 s a % 2 ^ 24
    let w := lst32 s (a + 4) % 2 ^ 16
    let n := min (w % 256) (left - 2)
    (mask &&& rd s F.DRV_GROUPS_en, w, (List.range n).flatMap (fun k => beBytes (lst32 s (a + 8 + 4 * k)) 4))
      :: driverRecords s fuel (a + 8 + 4 * n) (left - 2 - n)

/-- The records of the driver table. -/
def driverTable (s : State) : List (Nat × Nat × List Byte) :=
  let n := rd s F.DRV_DCFG_LEN_words
  driverRecords s n (rd s F.DRV_DCFG_BASE_offset) n

/-- The swing that the first record sets (Table 19.9). -/
def tableSwing (s : State) : State :=
  match driverTable s with
  | r :: _ => { s with drv.swing := 400 + Config.swingCode (ofBe (leBytes r.1 3 ++ leBytes r.2.1 2 ++ r.2.2)) % 401 }
  | [] => s

/-- A group is sending the driver table in its training. -/
def cfgTraining (s : State) : Bool := (List.range 24).any (fun g => (grp s g).step = 5)

/-- Start sending the driver table, or hold the send while one is in progress (R300, R321). -/
def sendCfg (s : State) : State :=
  if on s F.DRV_STATUS_cfg_busy then { s with drv.cfgHeld := true } else
  let ps := (driverTable s).filterMap (fun r => if r.1 = 0 then none else some (⟨5, r.1, 2, r.2.1, r.2.2, none, none⟩ : Pkt))
  tableSwing (wrB { s with drv.queue := s.drv.queue ++ ps } F.DRV_STATUS_cfg_busy true)

/-- CFG_SEND_DONE: the last CFG packet has been sent, and no group is at training step 5; a held send follows (R300, R321). -/
def cfgSendDone (s : State) : State :=
  if !on s F.DRV_STATUS_cfg_busy || s.drv.queue.any (fun p => p.prec = 5) || cfgTraining s then s else
  let s := wrB s F.DRV_STATUS_cfg_busy false
  if s.drv.cfgHeld then sendCfg { s with drv.cfgHeld := false } else s

/-! Training (R301 to R303) -/

/-- The column-link PHY domain of a group is on (R286, Table 16.1). -/
def phyOn (s : State) (g : Nat) : Bool := bitOf s F.PWR_DOM_ON_on (if g < 12 then 22 else 23)

/-- Every group in use begins step 1 (Table 9.5). A takeover lasts until then (R309). -/
def beginTraining (s : State) : State :=
  let s := wr { s with drv := { s.drv with slotAt := none, sent := [], lag := [], reqs := [], held := false } } F.DRV_GRP_FAIL_failed 0
  let s := wrB s F.DRV_STATUS_re_pend false
  trainStatus ((groupsInUse s).foldl (fun s g =>
    let s := setUp (setGrp s g { Grp.off with step := 1, at_ := s.tick }) g false
    wrB (wrB (wr s (F.DRV_GRP_STAT_spare_lane g) 0) (F.DRV_GRP_STAT_spare_active g) false) (F.DRV_GRP_STAT_spare_ok g) false) s)

/-- An enable of the column link: held while a shut-down is in progress (R301, R339). -/
def linkEnable (s : State) : State :=
  if s.drv.stopping then wrB { s with drv.held := true } F.DRV_STATUS_re_pend true else beginTraining s

/-- Every lane goes to electrical idle, and a held enable is cancelled (R301, R339, Table 10.3; at once, within the bound of 64 ticks: DESIGN CHOICE, log entry 27). -/
def linkStop (s : State) : State :=
  let s := (List.range 24).foldl (fun s g => setUp (setGrp s g Grp.off) g false) s
  let s := { s with drv := { s.drv with slotAt := none, sent := [], lag := [], reqs := [], queue := [], held := false } }
  cfgSendDone (trainStatus (wrB s F.DRV_STATUS_re_pend false))

/-- The tick at which the next status request of step 3 ends: it follows the first 64 sets that end after tick t (Table 9.5; while a request
waits for its response no other is sent: DESIGN CHOICE, log entry 26). -/
def trainEop (s : State) (g t : Nat) : Nat :=
  let a := (grp s g).at_
  let d := max 1 (symEnd s 0 1024 - 4)
  a + max 1 ((t - a + d - 1) / d) * d + (symEnd s 0 12 - 4)

/-- A status request of step 3 is sent: the same packet on all five lanes (Table 9.5). -/
def trainReq (s : State) (g : Nat) : State :=
  let id := s.drv.nextReq
  let r : BackReq := ⟨2, Fin.ofNat 24 g, id, 0, 0, 0, 0, 0⟩
  let x := issueReq { s with drv.nextReq := (id + 1) % 256 } r (trainEop s g s.tick)
  let bs := packet 4 0 false s.drv.seq (2 * 2 ^ 14 + id) (beBytes (x.1 * 2 ^ 16) 4)
  { x.2 with drv.sent := (List.range 5).foldl (fun m l => sset [] m (5 * g + l) (symsOf bs)) x.2.drv.sent }

/-- The lanes of a group send nothing of their own any more. -/
def clearSent (s : State) (g : Nat) : State := { s with drv.sent := s.drv.sent.filter (fun e => e.1 / 5 != g) }

/-- The outcome of step 3 (R303): the group goes on, with the spare standing in where one data lane is not good, or fails. -/
def trainOutcome (s : State) (g : Nat) : State :=
  let x := grp s g
  let s := clearSent { s with drv.reqs := s.drv.reqs.filter (fun r => !(r.group.val = g && r.kind = 2)) } g
  let good := fun l => x.deskew && x.lock / 2 ^ l % 2 == 1
  let bad := (List.range 4).filter (fun l => !good l)
  match bad with
  | [] => wrB (setGrp s g { x with step := 4, at_ := s.tick }) (F.DRV_GRP_STAT_spare_ok g) (good 4)
  | [l] =>
    if good 4 then takeover (wrB (setGrp s g { x with step := 4, at_ := s.tick }) (F.DRV_GRP_STAT_spare_ok g) true) g l
    else groupFails (setGrp s g Grp.off) g
  | _ => groupFails (setGrp s g Grp.off) g

/-- The group's driver table at step 5, on logical lane 0, or on the spare that stands in for it, with rep = 1 (R293, R300). A group with no record
sends idle pairs (R292). -/
def trainCfg (s : State) (g : Nat) : State :=
  let spare := on s (F.DRV_GRP_STAT_spare_active g) && rd s (F.DRV_GRP_STAT_spare_lane g) = 0
  let ps := ((driverTable s).filter (fun r => r.1 / 2 ^ g % 2 == 1)).flatMap (fun r => symsOf (packet 2 0 spare s.drv.seq r.2.1 r.2.2))
  let lane := if spare then 4 else 0
  tableSwing (wrB { s with drv.sent := sset idlePair s.drv.sent (5 * g + lane) (if ps.isEmpty then idlePair else ps) } F.DRV_STATUS_cfg_busy true)

/-- A group's training step ends (Table 9.5): on its time, or at step 3 when a response reports five lanes locked and deskewed or the limit
has passed. The first group that comes up starts the slots, with a seq that the manual leaves open (free value 8). -/
def trainStep (s : State) (g : Nat) : State :=
  let x := grp s g
  let next := fun (s : State) n => setGrp s g { grp s g with step := n, at_ := s.tick }
  let s := match x.step with
    | 1 => if phyOn s g then next (reach s (x.at_ + 10 * Config.tickUs)) 2 else s
    | 2 => trainReq (next (reach s (x.at_ + rd s F.DRV_TRAIN_t_cdr * Config.tickUs)) 3) g
    | 3 =>
      if x.lock = 31 && x.deskew then trainOutcome s g
      else trainOutcome (reach s (x.at_ + rd s F.DRV_TRAIN_timeout * Config.tickMs)) g
    | 4 => trainCfg (next (reach s (symEnd s x.at_ 256 - 4)) 5) g
    | 5 =>
      let first := (liveGroups s).isEmpty
      let s := setUp (setGrp s g { grp s g with step := 6, at_ := s.tick, det := [0, 0, 0, 0] }) g true
      cfgSendDone (if first then
          let f := freeBelow s 8 256
          newGrid { f.2 with drv := { f.2.drv with seq := f.1, slotFrom := s.tick } } s.tick (q0 s)
        else s)
    | _ => s
  trainStatus s

/-- Training of every group in use has ended (Table 10.2). -/
def trained (s : State) : Bool := (groupsInUse s).all (fun g => grpLive s g || bitOf s F.DRV_GRP_FAIL_failed g)

/-! Back channel (R310 to R312) -/

/-- STATUS_POLL (R308): a status request to each group that is up. -/
def statusPoll (s : State) : State :=
  let s := reach s (s.drv.pollAt + rd s F.DRV_BACK_poll_ms * Config.tickMs)
  (upGroups s).foldl (fun s g => newReq s 2 g 0 0 0) { s with drv.pollAt := s.tick }

/-- CRC failures reported for the lanes (R308): counted, and a lane at rx_thr is taken over at the next slot boundary; a second lane fails
the group (R309). -/
def rxCounts (s : State) (g : Nat) (cnt : List Nat) : State :=
  let s := bumpN s (F.DRV_GRP_STAT_rx_err g) (cnt.foldl (fun a n => a + n) 0)
  let thr := rd s F.DRV_TAKEOVER_rx_thr
  let hit := (List.range 4).filter (fun l => thr != 0 && decide (thr ≤ cnt.getD l 0))
  let active := on s (F.DRV_GRP_STAT_spare_active g)
  if active then (if hit.any (fun l => l != rd s (F.DRV_GRP_STAT_spare_lane g)) then groupFails s g else s)
  else match hit with
    | [] => s
    | l :: more =>
      if !on s (F.DRV_GRP_STAT_spare_ok g) then s else
      let s := setGrp s g { grp s g with rxTake := some l }
      if more.isEmpty then s else groupFails s g

/-- A good status response (Table 9.7, kind 2). -/
def statusResponse (s : State) (g : Nat) (pay : List Byte) : State :=
  let w := fun k => ofBe (slice pay (4 * k) 4)
  let x := grp s g
  let s := setGrp s g { x with lock := w 0 % 32, deskew := w 0 / 32 % 2 == 1 }
  if x.step = 3 then trainReq s g
  else rxCounts s g ([24, 16, 8, 0].map (fun b => w 1 / 2 ^ b % 256) ++ [w 2 / 2 ^ 24 % 256])

/-- The results of a good kind-1 frame: (valid, e_raw, t_raw) for each channel (Table 9.7). -/
def senseResults (s : State) (pay : List Byte) : List (Bool × Nat × Nat) :=
  let n := rd s F.DRV_CFG_n_ch
  let v := ofBe (slice pay 4 (31 * n / 8))
  (List.range n).map (fun i =>
    let x := v / 2 ^ (31 * (n - 1 - i)) % 2 ^ 31
    (x / 2 ^ 30 == 1, x / 2 ^ 14 % 2 ^ 16, x % 2 ^ 14))

/-- A good sense-result frame from group g (R312). -/
def senseFrame (s : State) (g : Nat) (pay : List Byte) : State :=
  let w := ofBe (slice pay 0 4)
  let res := senseResults s pay
  { s with age.rows := s.age.rows.map (fun r =>
      if r.row = w % 2 ^ 13 && r.tag % 8 = w / 2 ^ 29 then { r with got := r.got.filter (fun e => e.1 != g) ++ [(g, res)] } else r) }

/-- The request whose frame is expected next has not been answered by a good frame: it is issued again, or fails; the flag says that it
has failed (R312). To a group that is training or has failed none is sent again (R321, R345). -/
def frameLost (s : State) (r : BackReq) : Bool × State :=
  let s := bump (bump s (F.DRV_GRP_STAT_bc_err r.group)) F.DRV_CNT_BCERR_frames
  if (grp s r.group).step = 3 then (false, trainReq s r.group)
  else if r.tries < rd s F.DRV_BACK_retries && on s (F.DRV_GRP_STAT_up r.group) then (false, queueReq s { r with tries := r.tries + 1 })
  else (true, s)

/-- The frame answers the request: its group and id match, its length is that of its kind, and its CRC is correct (R312). -/
def frameGood (s : State) (r : BackReq) (bs : List Byte) : Bool :=
  let h := ofBe (slice bs 0 4)
  let n := bs.length
  decide (8 * n + 16 = frameBits s r) && h / 2 ^ 28 = r.kind && h / 2 ^ 23 % 32 = r.group.val && h % 256 = r.id &&
    ofBe (bs.drop (n - 2)) = crc16 (bs.take (n - 2))

/-! Gate-timing outputs (R314) -/

/-- The signed on and off offsets of a function of Table 9.8. -/
def gtOn (s : State) (f : Nat) : Int := rdS s (F.DRV_T_GATE_on (f - 1))
def gtOff (s : State) (f : Nat) : Int := rdS s (F.DRV_T_GATE_off (f - 1))

/-- Move a span's bounds by offsets; ticks before 0 count as 0. -/
def spanAt (a b : Nat) (x y : Int) : Nat × Nat := (((a : Int) + x).toNat, ((b : Int) + y).toNat)

/-- Every sense slot of the calendar, in time order: those of earlier banks first (R53). -/
def allSlots (s : State) : List SenseSlot := s.exs.oldSlots ++ (match s.exs.bank with | some b => b.slots | none => [])

/-- The high spans of output n before inversion, in calendar ticks (Table 9.8). -/
def gtSpans (s : State) (n : Nat) : List (Nat × Nat) :=
  let f := rd s (F.DRV_GT_CFG_func n)
  let sel := rd s (F.DRV_GT_CFG_sel n)
  let ps := (allPasses s ++ (match s.exs.next with | some b => b.passes | none => [])).filter (passDriven s)
  let rows := fun (p : Pass) (ok : Nat → Row → Bool) =>
    (p.rows.zip (List.range p.rows.length)).filterMap (fun e => if ok e.2 e.1 then some (spanAt e.1.w e.1.w (gtOn s f) (gtOff s f)) else none)
  match f with
  | 1 => ps.map (fun p => spanAt p.start p.start (gtOn s 1) (gtOff s 1))
  | 2 => ps.flatMap (fun p => rows p (fun y _ => y % (rd s F.DRV_GATE_nph_m1 + 1) = sel))
  | 3 => ps.flatMap (fun p => rows p (fun _ r => r.prog))
  | 4 => ps.flatMap (fun p => rows p (fun _ r => r.prog))
  | 5 => (allSlots s).map (fun x => spanAt x.a x.b (gtOn s 5) (gtOff s 5))
  | 6 => (allSlots s).filterMap (fun x =>
      if lineOf s x.row / 2 ^ sel % 2 = 1 then some (x.a - rd s F.DRV_T_RA_setup, x.b) else none)
  | _ => []

/-- The end of the merged span that covers tick t, walking up from e. -/
def spanEnd (l : List (Nat × Nat)) : Nat → Nat → Nat
  | 0, e => e
  | n + 1, e =>
    let e' := l.foldl (fun m t => if t.1 ≤ e && m < t.2 then t.2 else m) e
    if e' = e then e else spanEnd l n e'

/-- The next edge after tick t of an output whose level is `high`, over its spans; none where there is none (R314). -/
def nextEdge (l : List (Nat × Nat)) (high : Bool) (t : Nat) : Option Nat :=
  if high then some (spanEnd l l.length (l.foldl (fun m x => if x.1 ≤ t && t < x.2 then max m x.2 else m) (t + 1)))
  else minBy (fun x : Nat => x) (l.filterMap (fun x => if x.1 < x.2 && t + 1 < x.2 then some (max x.1 (t + 1)) else none))

/-- The tick lies in the hold of a non-seamless transition (Table 6.6). -/
def inHold (s : State) (t : Nat) : Bool := (allPasses s).any (fun p => p.repeats && decide (p.hold.1 ≤ t) && decide (t < p.hold.2))

/-- The spans of an output of functions 1 to 4 as they make edges: none is made in a hold, where the output keeps its level (DEDUCED, log
entry 72). -/
def outsideHold (s : State) (l : List (Nat × Nat)) : List (Nat × Nat) :=
  let ends := fun t => if inHold s t then ((allPasses s).filter (fun p => p.repeats && decide (p.hold.1 ≤ t))).foldl (fun m p => max m p.hold.2) t else t
  (l.filter (fun t => !inHold s t.1)).map (fun t => (t.1, ends t.2))

/-- GT_EDGE (R314): the next edge of output n, at the pin L_out after its calendar tick. Function 7 follows the panel outputs at once. -/
def gtEdge (s : State) (n : Nat) : State :=
  let f := rd s (F.DRV_GT_CFG_func n)
  let high := s.drv.gt / 2 ^ n % 2 == 1
  let put := fun (s : State) (b : Bool) (t : Nat) =>
    { s with drv := { s.drv with gt := s.drv.gt - b2n high * 2 ^ n + b2n b * 2 ^ n, gtAt := s.drv.gtAt.set n t } }
  if f = 7 then put s (outputsRun s) s.tick
  else if f = 0 || psqState s < 4 || 6 < psqState s then put s false s.tick
  else match nextEdge (if f ≤ 4 then outsideHold s (gtSpans s n) else gtSpans s n) high (s.drv.gtAt.getD n 0) with
    | some t => put (reach s (t + lOut)) (!high) t
    | none => s

/-- The level on pin GT[n], after inversion (R314). -/
def gtPin (s : State) (n : Nat) : Bool := (s.drv.gt / 2 ^ n % 2 == 1) != on s (F.DRV_GT_CFG_inv n)

/-! Emission outputs (R316 to R318) -/

/-- The pulses that emit: those of passes that start at or after b_on (R331). -/
def livePulses (s : State) : List EmPulse :=
  s.drv.pulses.filter (fun p => match s.psq.bOn with | some t => decide (t ≤ p.pass) | none => false)

/-- The calendar tick from which EM functions 1 to 3 make no edge: b_off of an orderly power-off from ON (R329, R332). -/
def emStop (s : State) : Option Nat := if psqState s = 5 || s.psq.fromBlack then none else s.psq.bOff

/-- What is left of spans when the output goes inactive at tick `stop`. -/
def cutAt (stop : Option Nat) (l : List (Nat × Nat)) : List (Nat × Nat) :=
  match stop with | some t => (l.filter (fun e => decide (e.1 < t))).map (fun e => (e.1, min e.2 t)) | none => l

/-- The high spans of EM output n before inversion (Table 9.9). -/
def emSpans (s : State) (n : Nat) : List (Nat × Nat) :=
  let c := rd s (F.DRV_EM_CFG_sel n)
  let h := (rd s F.DRV_EM_min_clk + 1) / 2
  let mine := (livePulses s).filter (fun p => p.chain = some c)
  cutAt (emStop s) <| match rd s (F.DRV_EM_CFG_func n) with
  | 1 => mine.filterMap (fun p => p.edges.head?.map (fun t => (t - h, t + h)))
  | 2 => mine.flatMap (fun p => p.edges.map (fun t => (t, t + h)))
  | 3 => (livePulses s).filterMap (fun p => if p.chain.isNone then p.edges.head?.map (fun t => (t, t + rd s F.DRV_EM_gw)) else none)
  | _ => []

/-- EM_EDGE (R316, R329): the next edge of EM output n; edges of calendar ticks before b_off still reach their pins after it (R177, R332; DEDUCED,
log entry 20). -/
def emEdge (s : State) (n : Nat) : State :=
  let f := rd s (F.DRV_EM_CFG_func n)
  let high := s.drv.em / 2 ^ n % 2 == 1
  let put := fun (s : State) (b : Bool) (t : Nat) =>
    { s with drv := { s.drv with em := s.drv.em - b2n high * 2 ^ n + b2n b * 2 ^ n, emAt := s.drv.emAt.set n t } }
  if f = 4 then put s (outputsRun s) s.tick
  else if f = 0 || (psqState s != 5 && (emStop s).isNone) then put s false s.tick
  else match nextEdge (emSpans s n) high (s.drv.emAt.getD n 0) with
    | some t => put (reach s (t + lOut)) (!high) t
    | none => s

/-- The level on EM output n, after inversion. -/
def emPin (s : State) (n : Nat) : Bool := (s.drv.em / 2 ^ n % 2 == 1) != on s (F.DRV_EM_CFG_inv n)

/-- A write of DRV.GROUPS takes effect: the lanes of a group no longer in use are switched off, and it is not up (R286). -/
def groupsFollow (s : State) : State :=
  trainStatus (((List.range 24).filter (fun g => !(groupsInUse s).contains g && (grp s g).step != 0)).foldl
    (fun s g => setUp (setGrp (clearSent s g) g Grp.off) g false) s)

/-- Bring outputs of the functions up to `f` to their inactive level (Table 10.3). -/
def gtInactive (s : State) : State :=
  { s with drv.gt := ((List.range 32).filter (fun n => rd s (F.DRV_GT_CFG_func n) = 7 && s.drv.gt / 2 ^ n % 2 == 1)).foldl (fun a n => a + 2 ^ n) 0 }
def emInactive (s : State) : State :=
  { s with drv.em := ((List.range 16).filter (fun n => rd s (F.DRV_EM_CFG_func n) = 4 && s.drv.em / 2 ^ n % 2 == 1)).foldl (fun a n => a + 2 ^ n) 0 }

/-- DRV_CLR_CNT (R320). -/
def drvClrCnt (s : State) : State :=
  let s := wrB (clearRegs s [F.DRV_CNT_TAKEOVER.off, F.DRV_CNT_EMDROP.off, F.DRV_CNT_BCERR.off, F.DRV_CNT_WR_IGN.off]) F.DRV_STATUS_wr_ign false
  (List.range 24).foldl (fun s g => clearCnt (clearCnt (clearCnt s (F.DRV_GRP_STAT_tx_err g)) (F.DRV_GRP_STAT_rx_err g)) (F.DRV_GRP_STAT_bc_err g)) s

end Sys2Proof.Machine
end

