-- ==== Sys2Proof/Machine/Psq.lean ====
section
/-!
DEFINITION. The panel sequencer (spec/10_panel_power_integrity.md): power-on, power-off, PMBus, rail faults, crack loops and monitor
read-back.
-/

namespace Sys2Proof.Machine

/-! States of Table 10.1 -/

def psOFF : Nat := 0
def psPRECHECK : Nat := 1
def psRAILS_UP : Nat := 2
def psLINK : Nat := 3
def psBLACK : Nat := 4
def psON : Nat := 5
def psBLACK_OFF : Nat := 6
def psRAILS_DOWN : Nat := 7
def psFAULT : Nat := 8

/-- Set the state; panel outputs run in states 1 to 7 (R323), and emission is on in ON only. -/
def psqTo (s : State) (st : Nat) : State :=
  let was := outputsRun s
  let s := wrB (wr s F.PSQ_STATUS_state st) F.PSQ_STATUS_emit (st = psON)
  if outputsRun s && !was then outputsOn s else if was && !outputsRun s then outputsOff s else s

/-- An ignored write of the block (R347). -/
def psqIgn (s : State) : State := bump (wrB s F.PSQ_STATUS_wr_ign true) F.PSQ_CNT_WR_IGN_writes

/-- A safe power-off is running (R335). -/
def safeRunning (s : State) : Bool := s.psq.safe.isSome

/-- Rail of step k. -/
def railOf (s : State) (k : Nat) : Nat := rd s (F.PSQ_UP_rail k)

/-- RAIL_PG of a rail as counted (R328). -/
def pgOf (s : State) (r : Nat) : Bool := bitOf s F.PSQ_STATUS_pg r

/-- Whether bit k of a mask is set, and the mask with it set or cleared. -/
def maskHas (m k : Nat) : Bool := m / 2 ^ k % 2 == 1
def maskSet (m k : Nat) (b : Bool) : Nat := m - b2n (maskHas m k) * 2 ^ k + b2n b * 2 ^ k

/-! Rails down and the end of a power-off (Table 10.3) -/

/-- STROBE off for every zone row, back to back (Table 10.3). -/
def strobesOff (s : State) : State :=
  if !(isLC s && on s F.PPX_BL_CFG_en) then s else
  let n := zoneRows s
  let e := max s.ppx.blFree s.tick + n * 32 * blBit s
  { s with ppx := { s.ppx with blFree := e, blWord := blStrobe (n - 1) false, blLat := e + blBit s } }

/-- The power-off ends (Table 10.3): FAULT after a safe one, else OFF, once no checkpoint is waited for (R334); a held enable then runs
from its first step (R339). -/
def psqEnd (s : State) : State :=
  if safeRunning s then alarmSet { psqTo s psFAULT with psq.safe := none } almSAFE_OFF
  else if s.psq.ckptReq || (s.psq.ckptWait && shutPending s) then wrB s F.PSQ_STATUS_ckpt_wait true
  else
    let s := wrB { psqTo s psOFF with psq.ckptWait := false } F.PSQ_STATUS_ckpt_wait false
    if on s F.PSQ_STATUS_re_pend then
      wr (wrB { s with psq.req := true } F.PSQ_STATUS_re_pend false) F.PSQ_FAULT 0
    else s

/-- Lower the rail of the step in hand and wait out its discharge. -/
def railLow (s : State) : State :=
  let s := setBitOf s F.PSQ_STATUS_rail_en (railOf s s.psq.k) false
  { s with psq.phase := .discharge s.tick }

/-- The PMBus record the sequencer sends: its table index. -/
def pmbRecord (s : State) : Nat :=
  if psqState s = psRAILS_UP then rd s (F.PSQ_UP_pmb_idx s.psq.k) else rd s (F.PSQ_DN_pmb_idx s.psq.k)

/-- The bytes of record i's transaction, without PEC: address with write, command, byte count of a block write, data (R337, Table 10.5). -/
def pmbBytes (s : State) (i : Nat) : List Byte :=
  let b := lstRd s (rd s F.PSQ_PMB_CFG_offset + 8 * i) 8
  let len := min 4 ((b.getD 2 0#8).toNat % 8)
  [BitVec.ofNat 8 (2 * ((b.getD 0 0#8).toNat % 128)), b.getD 1 0#8] ++ (if 3 ≤ len then [BitVec.ofNat 8 len] else []) ++ slice b 4 len

/-- Send the record of the step in hand, with PEC while PSQ.PMB_CFG.pec is 1 (R327, R337). -/
def pmbSend (s : State) : State :=
  let b := pmbBytes s (pmbRecord s)
  { s with psq := { s.psq with phase := .pmbus, pmb := if on s F.PSQ_PMB_CFG_pec then b ++ [BitVec.ofNat 8 (pec8 b)] else b } }

/-- Begin the next rails-down step: the highest step whose rail is still to be lowered (Table 10.3). -/
def railsNext (s : State) : State :=
  match (bitList s.psq.begun 8).getLast? with
  | none => psqEnd { s with psq.phase := .none }
  | some k =>
    let s := { s with psq := { s.psq with k := Fin.ofNat 8 k, begun := maskSet s.psq.begun k false, watched := maskSet s.psq.watched k false } }
    if on s (F.PSQ_DN_pmb_en k) then pmbSend s else railLow s

/-- Link stop and rails down (Table 10.3). -/
def railsDown (s : State) : State :=
  let s := linkStop (psqTo { s with psq := { s.psq with stopAt := some s.tick, offReq := false } } psRAILS_DOWN)
  railsNext s

/-! Safe power-off (R335, R336, R346) -/

/-- Record a fault's cause in PSQ.FAULT. -/
def faultRec (s : State) (cause group monitor index value : Nat) : State :=
  wr (wr (wr (wr (wr s F.PSQ_FAULT_cause cause) F.PSQ_FAULT_group group) F.PSQ_FAULT_monitor monitor) F.PSQ_FAULT_index index)
    F.PSQ_FAULT_value value

/-- The instance that a cause names (R449): its group for causes 5, 6 and 8, its loop for 3 and 4. -/
def causeInst (cause group index : Nat) : Nat :=
  if cause = 5 || cause = 6 || cause = 8 then group else if cause = 3 || cause = 4 then index else 0

/-- Emission of passes ends at calendar tick t (Table 10.3, R255). -/
def cutEmission (s : State) (t : Nat) : State :=
  let cut := fun p : Pass => { p with rows := p.rows.map (fun r => { r with spans := (r.spans.map (fun e => (e.1, min e.2 t))).filter (fun e => decide (e.1 < e.2)) }) }
  { s with exs := { s.exs with carried := s.exs.carried.map cut, bank := s.exs.bank.map (fun b => { b with passes := b.passes.map cut }) } }

/-- A fault reaction: a safe power-off, unless one runs already or the panel is dark (R335, Table 10.9). -/
def safeOff (s : State) (cause group monitor index value : Nat) : State :=
  if psqState s = psOFF || psqState s = psFAULT then s else
  let s := errorRec s blkPSQ (causeInst cause group index) F.PSQ_FAULT_cause
  match s.psq.safe with
  | some t => if t = s.tick && cause < rd s F.PSQ_FAULT_cause then faultRec s cause group monitor index value else s
  | none =>
    let s := faultRec s cause group monitor index value
    let s := wrB (wrB s F.PSQ_STATUS_re_pend false) F.PSQ_STATUS_ckpt_wait false
    let st := psqState s
    let s := if st = psON then cutEmission (emissionOff s) (s.tick - 49152) else s
    let s := { s with psq := { s.psq with safe := some s.tick, offReq := false, ckptReq := false, ckptWait := false, req := false,
                                           onAt := none, bOn := none, bOff := none } }
    let s := strobesOff (emInactive (gtInactive s))
    if st = psRAILS_DOWN then (match s.psq.phase with | .none => railsNext s | _ => s)
    else railsDown s

/-! Power-off (R332 to R334) -/

/-- BLACK_OFF is entered from BLACK: emission was never switched on (R333). -/
def blackOffDark (s : State) : State :=
  psqTo { s with psq := { s.psq with fromBlack := true, blackOff := 0, bOn := none } } psBLACK_OFF

/-- Emission off at b_off, now: BLACK_OFF (Table 10.3). -/
def blackOffLit (s : State) : State :=
  let s := strobesOff (cutEmission (emissionOff s) s.tick)
  psqTo { s with psq := { s.psq with fromBlack := false, blackOff := 0, bOff := some s.tick } } psBLACK_OFF

/-- The black step of BLACK_OFF ends once n_off black scans that started at or after b_off have ended (Table 10.3). -/
def blackOffCheck (s : State) : State :=
  if psqState s = psBLACK_OFF && s.psq.bOff.isSome && rd s F.PSQ_BLACK_n_off ≤ s.psq.blackOff then railsDown s else s

/-- Undo the entry to ON of this very tick: an off request at b_on means that ON is never entered, and the pass whose write scan started at it is
black (R333, Table 10.9). -/
def undoOn (s : State) : State :=
  let n := rd s F.PSQ_CNT_ON_count
  let s := wr s F.PSQ_CNT_ON_count (if n = min (s.psq.onCnt + 1) (2 ^ 32 - 1) then s.psq.onCnt else n - 1)
  let dark := fun u : Run => u.start = s.tick && u.kind != .black
  let gone := (s.scn.runs.filter dark).map (fun u => u.num)
  { s with now := { tickLog s with incs := (tickLog s).incs.filter (fun e => e.1 != F.PSQ_CNT_ON_count) }
           evt.posted := s.evt.posted.filter (fun r => !(r.tick = s.tick && r.src = srcOf blkPSQ 0 && r.cls = clsInfo))
           scn.runs := s.scn.runs.map (fun u => if dark u then
             { u with kind := .black, fetch := [], skipped := [], due := List.replicate 6 0, begun := List.replicate 6 0 } else u)
           cdc.decWait := s.cdc.decWait.filter (fun r => match r.tag with | .scan k _ => !gone.contains k | _ => true)
           age := { s.age with emitAt := none } }

/-- An off request (R324, R332, R333, R339), with a checkpoint or not (R334). During an orderly power-off it cancels a held enable and may still ask for
the checkpoint, which starts at once where b_off has passed (R280; DEDUCED, log entry 28). -/
def psqOff (s : State) (ckpt : Bool) : State :=
  let st := psqState s
  if st = psOFF || st = psFAULT then { s with psq.req := false }
  else if safeRunning s then s
  else if st = psBLACK_OFF || st = psRAILS_DOWN || s.psq.offReq then
    let s := wrB s F.PSQ_STATUS_re_pend false
    if !ckpt || s.psq.ckptReq || s.psq.ckptWait then s
    else if st = psRAILS_DOWN || s.psq.bOff.isSome then ckptShutdown { s with psq.ckptWait := true }
    else { s with psq.ckptReq := true }
  else
    let s := { s with psq := { s.psq with offReq := true, bOff := none, ckptReq := ckpt } }
    if st = psBLACK then blackOffDark s
    else if st = psON && s.psq.bOn = some s.tick then blackOffDark (undoOn s)
    else s

/-- Black write scans whose end falls at or before this tick and has not been taken yet. -/
def blackEnding (s : State) : Nat :=
  ((allPasses s).filter (fun p => p.started && !p.ended && passDriven s p && decide (p.start + p.dur ≤ s.tick))).length

/-- ON is entered at b_on (R331). -/
def enterOn (s : State) : State :=
  let s := emissionOn (psqTo { s with psq := { s.psq with bOn := some s.tick, onCnt := rd s F.PSQ_CNT_ON_count } } psON)
  info (bump s F.PSQ_CNT_ON_count) blkPSQ 0 F.PSQ_CNT_ON_count

/-- A PICTURE_BOUNDARY for the sequencer: b_on, b_off, the start of the shutdown checkpoint (R331, R332, R334). -/
def psqBoundary (s : State) : State :=
  let st := psqState s
  let s := if s.psq.ckptReq then ckptShutdown { s with psq := { s.psq with ckptReq := false, ckptWait := true } } else s
  if st = psBLACK then
    if rd s F.PSQ_BLACK_n_on ≤ s.psq.blackOn + blackEnding s then enterOn s else s
  else if st = psON && s.psq.offReq then blackOffCheck (blackOffLit s)
  else if st = psBLACK_OFF && s.psq.bOff.isNone then blackOffCheck { s with psq.bOff := some s.tick }
  else if st = psRAILS_DOWN && s.psq.phase = .none && !safeRunning s then psqEnd s
  else s

/-- A black scan ends (R331, Table 10.3): a driven pass of BLACK, or of BLACK_OFF at or after b_off. -/
def psqScanEnd (s : State) (p : Pass) (kind : RunKind) : State :=
  if !passDriven s p || kind != .black then s
  else if psqState s = psBLACK then { s with psq.blackOn := s.psq.blackOn + 1 }
  else if psqState s = psBLACK_OFF then
    match s.psq.bOff with
    | some b => if b ≤ p.start then blackOffCheck { s with psq.blackOff := s.psq.blackOff + 1 } else s
    | none => s
  else s

/-! Power-on (R324 to R331) -/

/-- PSQ_ON (R324, R339, R340). -/
def psqOn (s : State) : State :=
  let st := psqState s
  if safeRunning s then psqIgn s
  else if st = psOFF || st = psFAULT then wr { s with psq.req := true } F.PSQ_FAULT 0
  else if st = psBLACK_OFF || st = psRAILS_DOWN || s.psq.offReq then wrB s F.PSQ_STATUS_re_pend true
  else psqIgn s

/-- Wait out a settle. -/
def beginSettle (s : State) : State := { s with psq.phase := .settle s.tick }

/-- Enable the rail of the step in hand (R327); a power-good already counted high is not waited for (DEDUCED, log entry 28). -/
def railHigh (s : State) : State :=
  let k := s.psq.k
  let s := setBitOf { s with psq.enAt := s.tick } F.PSQ_STATUS_rail_en (railOf s k) true
  if on s (F.PSQ_UP_pg_chk k) && !pgOf s (railOf s k) then { s with psq.phase := .pgWait } else beginSettle s

/-- Begin step k of RAILS_UP. -/
def beginUp (s : State) (k : Nat) : State :=
  let s := { s with psq := { s.psq with k := Fin.ofNat 8 k, begun := maskSet s.psq.begun k true } }
  if on s (F.PSQ_UP_pmb_en k) then pmbSend s else railHigh s

/-- The next enabled step from k on; after the last one, LINK (Table 10.2). -/
def upFrom (s : State) (k : Nat) : State :=
  match (List.range 8).find? (fun i => decide (k ≤ i) && on s (F.PSQ_UP_en i)) with
  | some i => beginUp s i
  | none => psqTo { s with psq.phase := .none } psLINK

/-- RAILS_UP begins, or a waiting off request ends the power-on here (R333). -/
def afterPrecheck (s : State) : State :=
  if s.psq.offReq then railsDown s else upFrom (psqTo s psRAILS_UP) 0

/-- Start a crack test (R342, Table 10.7). -/
def crackStart (s : State) : State :=
  let en := rd s F.PSQ_CRK_EN_en
  if en = 0 then s else
  { s with psq := { s.psq with crkOut := en, crk := some ⟨s.tick, 0, 0⟩ } }

/-- POWER_ON_START (R324): the conditions of a held request hold. -/
def powerOnStart (s : State) : State :=
  let st := psqState s
  if !(s.psq.req && (st = psOFF || st = psFAULT) && s.boot.imageOk && s.boot.step8 && rebuildDone s) then s else
  let s := { s with psq := { Psq.reset with crkRun := s.psq.crkRun, alertTo := s.psq.alertTo } }
  let s := psqTo s psPRECHECK
  if on s F.PSQ_CFG_pre_chk && rd s F.PSQ_CRK_EN_en != 0 then crackStart s else afterPrecheck s

/-- Panel power-on (R325): LINK ends and BLACK begins. -/
def panelPowerOn (s : State) : State :=
  let s := psqTo { s with psq := { s.psq with onAt := some s.tick, stopAt := none, blackOn := 0, monAt := s.tick, monRun := [],
                                              missRun := [] },
                          drv.pollAt := s.tick, scn.lastView := none } psBLACK
  zonesReset (agePowerOn (polReset (emptyHistories s)))

/-- LINK ends when every group in use is up or has failed (Table 10.2). -/
def linkCheck (s : State) : State :=
  if psqState s != psLINK || !trained s then s
  else if s.psq.offReq then railsDown s else panelPowerOn s

/-! Rails (R327, R328, R341) -/

/-- RAIL_PG_CHANGE (R328): counted at its tick; ends a wait within its window, or is a rail fault (R341). -/
def railPgChange (s : State) (r : Nat) (level : Bool) : State :=
  let s := setBitOf s F.PSQ_STATUS_pg r level
  let k := s.psq.k
  let s := if level && psqState s = psRAILS_UP && s.psq.phase = .pgWait && railOf s k = r then
      if s.tick < s.psq.enAt + rd s (F.PSQ_UP_timeout k) * Config.tickMs then beginSettle s
      else safeOff s 1 0 0 r 0
    else s
  if !level && (bitList s.psq.watched 8).any (fun k => railOf s k = r) then
    let s := errorRec (bump s F.PSQ_CNT_PG_faults) blkPSQ 0 F.PSQ_CNT_PG_faults
    let st := psqState s
    if st = psRAILS_UP || st = psLINK || st = psBLACK || ((st = psON || st = psBLACK_OFF) && on s F.PSQ_CFG_pg_react) then
      safeOff s 7 0 0 r 0
    else s
  else s

/-- RAIL_PG_TIMEOUT (R327, R336). -/
def railPgTimeout (s : State) : State :=
  if psqState s = psRAILS_UP && s.psq.phase = .pgWait then
    let k := s.psq.k
    safeOff (reach s (s.psq.enAt + rd s (F.PSQ_UP_timeout k) * Config.tickMs)) 1 0 0 (railOf s k) 0
  else s

/-- RAIL_SETTLE_DONE (R327, R333, R341). -/
def railSettleDone (s : State) : State :=
  match s.psq.phase with
  | .settle t =>
    if psqState s != psRAILS_UP then s else
    let k := s.psq.k
    let s := reach s (t + rd s (F.PSQ_UP_settle k) * Config.tickMs)
    let chk := on s (F.PSQ_UP_pg_chk k)
    let s := { s with psq := { s.psq with phase := .none, watched := maskSet s.psq.watched k chk } }
    if chk && !pgOf s (railOf s k) then railPgChange s (railOf s k) false
    else if s.psq.offReq then railsDown s else upFrom s (k + 1)
  | _ => s

/-- RAIL_DISCHARGE_DONE (Table 10.3). -/
def railDischargeDone (s : State) : State :=
  match s.psq.phase with
  | .discharge t => railsNext (reach { s with psq.phase := .none } (t + rd s (F.PSQ_DN_dis s.psq.k) * Config.tickMs))
  | _ => s

/-! PMBus (R337, R338) -/

/-- PMBUS_DONE (R327, R335, R336): the transaction has completed, or failed on a NACK or stretching. -/
def pmbusDone (s : State) (ok : Bool) : State :=
  if s.psq.phase != .pmbus then s else
  let s := if ok then s else bump s F.PSQ_CNT_PG_pmb_fail
  if psqState s = psRAILS_UP then (if ok then railHigh s else safeOff s 2 0 0 (railOf s s.psq.k) 0)
  else railLow s

/-- PSQ.STATUS.alert reads 1 while PMB_ALERT_N is low (R341). -/
def alertStatus (s : State) : State := wrB s F.PSQ_STATUS_alert (s.tick < s.psq.alertTo)

/-- PMB_ALERT_FALL (R341): the pin falls and stays low for `low` ticks. -/
def pmbAlertFall (s : State) (low : Nat) : State :=
  let s := alertStatus { s with psq.alertTo := s.tick + low }
  postRec s (pmbAlertRec s false)

/-! Crack loops (R342, R343) -/

/-- A loop is broken (R343). -/
def loopBroken (react : Bool) (s : State) (k : Nat) : State :=
  let s := errorRec (hwSet s F.PSQ_CRK_STAT_broken k) blkPSQ k F.PSQ_CRK_STAT_broken [(k, 1)]
  if react && bitOf s F.PSQ_CRK_EN_react k then safeOff s 4 0 0 k 0 else s

/-- One loop's result of a test outside PRECHECK (R343): its n-th failure in a row is a break, and so is a later one once the host has cleared its bit
(DESIGN CHOICE, log entry 29). -/
def loopResult (bad : Nat) (s : State) (k : Nat) : State :=
  let fail := maskHas bad k
  let s := setBitOf s F.PSQ_CRK_STAT_fail k fail
  if !fail then { s with psq.crkRun := sset 0 s.psq.crkRun k 0 } else
  let n := sget 0 s.psq.crkRun k + 1
  let s := bump { s with psq.crkRun := sset 0 s.psq.crkRun k n } F.PSQ_CNT_CRK_tests
  let m := rd s F.PSQ_CRK_CFG_n
  if n = m || (m < n && !bitOf s F.PSQ_CRK_STAT_broken k) then loopBroken true s k else s

/-- One loop's result of a test of PRECHECK (Table 10.2). -/
def preResult (bad : Nat) (s : State) (k : Nat) : State :=
  let fail := maskHas bad k
  let s := setBitOf s F.PSQ_CRK_STAT_fail k fail
  if !fail then { s with psq.crkRun := sset 0 s.psq.crkRun k 0 } else
  bump { s with psq := { s.psq with preRun := sset 0 s.psq.preRun k (sget 0 s.psq.preRun k + 1), crkRun := sset 0 s.psq.crkRun k (sget 0 s.psq.crkRun k + 1) } }
    F.PSQ_CNT_CRK_tests

/-- The tests of PRECHECK are done (Table 10.2): a loop failing all n is broken; with its react bit the sequencer enters FAULT with cause 3
and enables no rail. -/
def precheckDone (s : State) : State :=
  let n := rd s F.PSQ_CRK_CFG_n
  let bad := (bitList (rd s F.PSQ_CRK_EN_en) 16).filter (fun k => decide (n ≤ sget 0 s.psq.preRun k))
  let s := bad.foldl (loopBroken false) s
  match bad.find? (fun k => bitOf s F.PSQ_CRK_EN_react k) with
  | some k =>
    let s := errorRec (faultRec s 3 0 0 k 0) blkPSQ k F.PSQ_FAULT_cause
    alarmSet { psqTo (wrB s F.PSQ_STATUS_re_pend false) psFAULT with psq.offReq := false } almSAFE_OFF
  | none => afterPrecheck s

/-- CRACK_SAMPLE (Table 10.7): the next of t + s, t + 2s, t + 3s and t + 4s, with the levels on CRK_IN. The result is taken when the
test ends at t + 4s (DEDUCED, log entry 29). -/
def crackSample (s : State) (inp : Nat) : State :=
  match s.psq.crk with
  | none => s
  | some c =>
    let en := rd s F.PSQ_CRK_EN_en
    let s := reach s (c.at_ + (c.step + 1) * rd s F.PSQ_CRK_CFG_settle)
    match c.step with
    | 0 =>
      let miss := (bitList en 16).foldl (fun a k => if maskHas inp k then a else a + 2 ^ k) 0
      { s with psq.crk := some { c with step := 1, bad := miss } }
    | 1 => { s with psq := { s.psq with crkOut := 0, crk := some { c with step := 2 } } }
    | 2 =>
      let bad := (bitList en 16).foldl (fun a k => if maskHas inp k || maskHas c.bad k then a + 2 ^ k else a) 0
      { s with psq.crk := some { c with step := 3, bad := bad } }
    | _ =>
      let s := { s with psq.crk := none }
      if psqState s = psPRECHECK then
        let s := (bitList en 16).foldl (preResult c.bad) { s with psq.pre := s.psq.pre + 1 }
        if s.psq.pre < rd s F.PSQ_CRK_CFG_n then crackStart s else precheckDone s
      else (bitList en 16).foldl (loopResult c.bad) s

/-- A vertical blanking point tests every enabled loop while panel outputs run outside PRECHECK (R342). -/
def crackBlanking (s : State) : State :=
  if outputsRun s && psqState s != psPRECHECK && s.psq.crk.isNone then crackStart s else s

/-! Monitors (R344, R345) -/

/-- MONITOR_POLL (R344). -/
def monitorPoll (s : State) : State :=
  let en := rd s F.PSQ_MON_EN_en
  if en = 0 || psqState s < psBLACK || psBLACK_OFF < psqState s then s else
  let s := reach s (s.psq.monAt + rd s F.PSQ_MON_CFG_period_ms * Config.tickMs)
  (upGroups s).foldl (fun s g => newReq s 0 g en 0 0) { s with psq.monAt := s.tick }

/-- One monitor value of a good frame (R344). A run is reported when it reaches n as n stands then (DESIGN CHOICE, log entry 29). -/
def monitorValue (g : Nat) (s : State) (e : Nat × Nat) : State :=
  let m := e.1
  let v := e.2
  let x := rd s (F.PSQ_MON_expect m)
  if (if x ≤ v then v - x else x - v) ≤ rd s (F.PSQ_MON_tol m) then { s with psq.monRun := sset 0 s.psq.monRun (8 * g + m) 0 } else
  let n := sget 0 s.psq.monRun (8 * g + m) + 1
  let s := bump { s with psq.monRun := sset 0 s.psq.monRun (8 * g + m) n } F.PSQ_CNT_MON_mismatch
  let s := wr (wr (wr s F.PSQ_MON_LAST_group g) F.PSQ_MON_LAST_monitor m) F.PSQ_MON_LAST_value v
  if n != rd s F.PSQ_MON_CFG_n then s else
  let s := errorRec s blkPSQ g F.PSQ_CNT_MON_mismatch
  if maskHas (rd s F.PSQ_MON_CFG_react) m then safeOff s 5 g m 0 v else s

/-- A good kind-0 frame from group g (R344, R345, Table 9.7). -/
def monitorFrame (s : State) (g mask : Nat) (pay : List Byte) : State :=
  let ms := bitList mask 8
  let vals := (List.range ms.length).map (fun k => let w := ofBe (slice pay (4 * k) 4); (w / 2 ^ 29, w % 2 ^ 16))
  vals.foldl (monitorValue g) { s with psq.missRun := sset 0 s.psq.missRun g 0 }

/-- A kind-0 request to group g has failed (R345). A run is reported when it reaches miss_n as it stands then (DESIGN CHOICE, log entry 29). -/
def monitorMissing (s : State) (g : Nat) : State :=
  let n := sget 0 s.psq.missRun g + 1
  let s := bump { s with psq.missRun := sset 0 s.psq.missRun g n } F.PSQ_CNT_MON_missing
  if n != rd s F.PSQ_MON_CFG_miss_n then s else
  let s := errorRec s blkPSQ g F.PSQ_CNT_MON_missing
  if on s F.PSQ_MON_CFG_miss_react then safeOff s 6 g 0 0 0 else s

/-- PSQ_CLR_CNT (R348). -/
def psqClrCnt (s : State) : State :=
  wrB (clearRegs s [F.PSQ_CNT_CRK.off, F.PSQ_CNT_MON.off, F.PSQ_CNT_PG.off, F.PSQ_CNT_ON.off, F.PSQ_CNT_WR_IGN.off]) F.PSQ_STATUS_wr_ign false

/-- A checkpoint that the power-off waits for has ended (R334). -/
def psqCkptEnd (s : State) : State :=
  if psqState s = psRAILS_DOWN && s.psq.phase = .none && !safeRunning s then psqEnd s else s

/-! Meanings -/

def execPowerOnStart (s : State) : Host.Outcome State Fault Refusal := .next (powerOnStart s)
def execRailPgChange (k : Fin 8) (level : Bool) (s : State) : Host.Outcome State Fault Refusal := .next (railPgChange s k.val level)
def execRailPgTimeout (s : State) : Host.Outcome State Fault Refusal := .next (railPgTimeout s)
def execRailSettleDone (s : State) : Host.Outcome State Fault Refusal := .next (railSettleDone s)
def execRailDischargeDone (s : State) : Host.Outcome State Fault Refusal := .next (railDischargeDone s)
def execPmbusDone (ok : Bool) (s : State) : Host.Outcome State Fault Refusal := .next (pmbusDone s ok)
def execPmbAlertFall (low : Nat) (s : State) : Host.Outcome State Fault Refusal := .next (pmbAlertFall s low)
def execCrackSample (inp : BitVec 16) (s : State) : Host.Outcome State Fault Refusal := .next (crackSample s inp.toNat)
def execMonitorPoll (s : State) : Host.Outcome State Fault Refusal := .next (monitorPoll s)

end Sys2Proof.Machine
end

