-- ==== Sys2Proof/Machine/Drive.lean ====
section
/-!
DEFINITION. The commands of the drive block, with what they do to the panel sequencer and the ageing engine, and the vertical blanking
point (spec/09_panel_drive.md, R200, R301, R312, R313).
-/

namespace Sys2Proof.Machine

/-! Slots -/

/-- A group that fails while the sequencer is in LINK starts a safe power-off with cause 8 (R303, R336): `s` is the state before, `t` after. -/
def linkFails (s t : State) : State :=
  if psqState t != psLINK then t else
  match (List.range 24).find? (fun g => bitOf t F.DRV_GRP_FAIL_failed g && !bitOf s F.DRV_GRP_FAIL_failed g) with
  | some g => safeOff t 8 g 0 0 0
  | none => t

/-- The running slot ends (R305). In LINK a group that it fails stops the link. -/
def slotEnd (s : State) : State :=
  match s.drv.slotAt with
  | none => s
  | some t =>
    let s := reach s (t + s.drv.slotLen + lOut)
    let s := { s with drv := { s.drv with slotAt := none, sent := [] } }
    linkFails s ((liveGroups s).foldl slotEndGroup s)

/-- LANE_MONITOR_DETECTION (R304, R309): lane 4 is the spare. Lanes in electrical idle are not monitored, among them the one that the spare stands
in for. A detection at the tick of a slot's end counts in the next slot (R305, R321). -/
def laneDetect (s : State) (g lane : Nat) : State :=
  if !(groupsInUse s).contains g || (grp s g).step < 2 then s else
  let s := match s.drv.slotAt with | some t => if t + s.drv.slotLen + lOut ≤ s.tick then slotEnd s else s | none => s
  if (grp s g).step < 2 then s else linkFails s (detected s g lane)

/-- The packets of a row slot: ROW packets, or IDLE packets for a row the pass skips (R296, R297). -/
def rowPackets (s : State) (u : Run) (y : Nat) (vals : Option (List Nat)) : (Nat → Nat → List Byte) × Nat :=
  match vals with
  | some v =>
    let a := v.toArray
    ((fun g l => packet 1 l false s.drv.seq (rowArg s u g y) (rowPay s g l a)), pktSymbols (rowPayload s))
  | none => ((fun _ l => idlePacket l s.drv.seq), pktSymbols 0)

/-- ROW_SLOT (R297): the next row slot of the earliest driven run whose row has been taken; the slot before it has ended. -/
def rowSlot (s : State) : State :=
  match s.scn.runs.find? (fun u => decide (u.ySlot < u.h)) with
  | some u =>
    match u.lines with
    | (y, vals) :: rest =>
      if (liveGroups s).isEmpty then s else
      let s := slotEnd s
      if (liveGroups s).isEmpty then s else
      let q := u.q0
      let t := rowTick u.start u.q y - 2 * q
      let s := setRun (reach s (t + lOut)) { u with lines := rest, ySlot := y + 1 }
      let p := rowPackets s u y vals
      let s := beginSlot s t q (nextSlotEnd s (t + q)) (some p.1) p.2
      pruneRuns (if u.h ≤ y + 1 then newGrid s (t + q) q else s)
    | [] => s
  | none => s

/-- GAP_SLOT (R297): the next gap slot of the grid begins, where one fits before the next row slot. -/
def gapSlot (s : State) : State :=
  if (liveGroups s).isEmpty then s else
  let s := slotEnd s
  if (liveGroups s).isEmpty then s else
  match nextGap s (max s.drv.slotFrom (s.tick - lOut)) with
  | some (t, q) => let s := reach s (t + lOut); beginSlot s t q (nextSlotEnd s (t + q)) none 0
  | none => s

/-! Training -/

/-- DRV.CTRL.retrain, accepted only while panel outputs do not run (R301, R319) and once every check of the image has passed (R19; DEDUCED, log
entry 80). -/
def retrain (s : State) : State := if outputsRun s || !s.boot.imageOk then drvIgn s else linkEnable s

/-- TRAINING_START (R301): at the LINK step, else the retrain of DRV.CTRL. -/
def trainingStart (s : State) : State :=
  if psqState s = psLINK then
    if on s F.DRV_STATUS_training || s.drv.held then s
    else if (groupsInUse s).isEmpty then linkCheck s else linkEnable s
  else retrain s

/-- TRAINING_STEP_END of group g (Table 9.5): a group that fails in LINK starts a safe power-off with cause 8 (R303, R336); LINK ends when
every group is up or has failed. -/
def trainingStepEnd (s : State) (g : Nat) : State :=
  linkCheck (linkFails s (trainStep s g))

/-! Back channel -/

/-- A request has failed (R312): of a group that is up, a kind-0 one counts as missing (R345). -/
def reqFailed (s : State) (r : BackReq) : State :=
  if r.kind = 0 && on s (F.DRV_GRP_STAT_up r.group) then monitorMissing s r.group else s

/-- BACKCHANNEL_FRAME (R312): a frame comes for the request whose frame is expected next. -/
def backFrame (s : State) (onTime : Bool) (bs : List Byte) : State :=
  match s.drv.reqs with
  | [] => s
  | r :: rest =>
    let s := { s with drv.reqs := rest }
    if onTime && frameGood s r bs then
      let pay := (bs.take (bs.length - 2)).drop 4
      match r.kind with
      | 0 => monitorFrame s r.group r.mask pay
      | 1 => senseFrame s r.group pay
      | _ => linkFails s (statusResponse s r.group pay)
    else
      let x := frameLost s r
      if x.1 then reqFailed x.2 r else x.2

/-- BACKCHANNEL_FRAME_MISSING (R312): no preamble within 8 bit times of the expected start. -/
def backMissing (s : State) : State :=
  match s.drv.reqs with
  | [] => s
  | r :: rest =>
    let x := frameLost (reach { s with drv.reqs := rest } (r.due + 8 * bcBit)) r
    if x.1 then reqFailed x.2 r else x.2

/-! Sense slots (R313) -/

/-- Change a slot of the calendar. -/
def modSlot (s : State) (x : SenseSlot) (f : SenseSlot → SenseSlot) : State :=
  let g := fun y => if y = x then f y else y
  { s with exs := { s.exs with bank := s.exs.bank.map (fun b => { b with slots := b.slots.map g }), oldSlots := s.exs.oldSlots.map g } }

/-- DRIZZLE_SLOT_START: the earliest sense slot that has not started. Its SSEL and RA edges are GT_EDGEs. -/
def drizzleStart (s : State) : State :=
  match (allSlots s).find? (fun x => !x.started) with
  | some x => reach (modSlot s x (fun y => { y with started := true })) (x.a + lOut)
  | none => s

/-- DRIZZLE_SLOT_END: the row's results are requested from every group in use. -/
def drizzleEnd (s : State) : State :=
  match (allSlots s).find? (fun x => x.started && !x.ended) with
  | some x =>
    let s := reach (modSlot s x (fun y => { y with ended := true })) (x.b + lOut)
    match s.age.rows.find? (fun r => r.row = x.row && r.slotEnd = x.b) with
    | some r =>
      let s := (liveGroups s).foldl (fun s g => newReq s 1 g 0 (r.tag % 8) r.row) s
      { s with age.rows := s.age.rows.map (fun y => if y.tag = r.tag then { y with asked := true } else y) }
    | none => s
  | none => s

/-- The SENSE packets of a bank's slots (R313): each is sent in the latest slot that ends at or before t_s − Q0, the Q0 of the bank's timing, with the
level and meas bits of that moment. -/
def queueSense (s : State) (q0 : Nat) (slots : List SenseSlot) : State :=
  let ps := (slots.zip (List.range slots.length)).map (fun e =>
    (⟨2, rd s F.DRV_GROUPS_en, 3, e.2 % 8 * 2 ^ 13 + e.1.row, [], none, some (e.1.a - q0)⟩ : Pkt))
  { s with drv.queue := s.drv.queue ++ ps }

/-! Vertical blanking point (R200) -/

/-- The run that drives a pass. -/
def runOf (s : State) (p : Pass) : Option Run := s.scn.runs.find? (fun u => u.start = p.start)

/-- The write scan of pass p ends at its tick: scan-out, panel processing and the sequencer take it, V-class values take effect, and a
crack test begins. The end of a repeat pass begins the hold, which has no blanking point: the driver configuration is sent (Table 6.6). -/
def blankingPoint (s : State) (p : Pass) : State :=
  let kind := (runOf s p).map (fun u => u.kind)
  let s := reach s (p.start + p.dur)
  let s := scanEnd s p
  let s := match kind with | some k => psqScanEnd s p k | none => s
  if p.repeats then sendCfg s else crackBlanking (commitV s s.tick)

/-- VERTICAL_BLANKING_POINT: the earliest write scan that has started and not ended. -/
def verticalBlankingPoint (s : State) : State :=
  match firstPass s (fun p => p.started && !p.ended) with
  | some p => blankingPoint s p
  | none => s

/-! Meanings -/

def execRowSlot (s : State) : Host.Outcome State Fault Refusal := .next (rowSlot s)
def execGapSlot (s : State) : Host.Outcome State Fault Refusal := .next (gapSlot s)
def execSlotEnd (s : State) : Host.Outcome State Fault Refusal := .next (slotEnd s)
def execGtEdge (n : Fin 32) (s : State) : Host.Outcome State Fault Refusal := .next (gtEdge s n.val)
def execEmEdge (n : Fin 16) (s : State) : Host.Outcome State Fault Refusal := .next (emEdge s n.val)
def execLaneMonitorDetection (g : Fin 24) (lane : Fin 5) (s : State) : Host.Outcome State Fault Refusal :=
  .next (laneDetect s g.val lane.val)
def execTrainingStepEnd (g : Fin 24) (s : State) : Host.Outcome State Fault Refusal := .next (trainingStepEnd s g.val)
def execCfgSendDone (s : State) : Host.Outcome State Fault Refusal := .next (cfgSendDone s)
def execStatusPoll (s : State) : Host.Outcome State Fault Refusal := .next (statusPoll s)
def execBackchannelFrame (onTime : Bool) (bytes : List Byte) (s : State) : Host.Outcome State Fault Refusal :=
  .next (backFrame s onTime bytes)
def execBackchannelFrameMissing (s : State) : Host.Outcome State Fault Refusal := .next (backMissing s)
def execDrizzleSlotStart (s : State) : Host.Outcome State Fault Refusal := .next (drizzleStart s)
def execDrizzleSlotEnd (s : State) : Host.Outcome State Fault Refusal := .next (drizzleEnd s)
def execVerticalBlankingPoint (s : State) : Host.Outcome State Fault Refusal := .next (verticalBlankingPoint s)
def execCkptDone (s : State) : Host.Outcome State Fault Refusal := .next (psqCkptEnd (ckptDone s))
def execCkptFail (s : State) : Host.Outcome State Fault Refusal := .next (psqCkptEnd (ckptFail s))
def execCkptShutTimeout (s : State) : Host.Outcome State Fault Refusal := .next (psqCkptEnd (ckptShutTimeout s))

end Sys2Proof.Machine
end

