-- ==== Sys2Proof/Machine/Cam.lean ====
section
/-!
DEFINITION. Camera channels (spec/03_exposure_scheduling.md, R59 to R71): derived and measured timing, tracking, escapes, windows.
-/

namespace Sys2Proof.Machine

/-! States of Table 3.1 -/

def cmOFF : Nat := 0
def cmACQUIRE : Nat := 1
def cmTRACK : Nat := 2
def cmCOAST : Nat := 3
def cmLOST : Nat := 4

/-- A camera channel beside its registers. -/
def cam (s : State) (n : Nat) : Cam := sget Cam.reset s.exs.cams n
def setCam (s : State) (n : Nat) (c : Cam) : State := { s with exs.cams := sset Cam.reset s.exs.cams n c }

/-- The channel's state code. -/
def camState (s : State) (n : Nat) : Nat := rd s (F.EXS_CAM_STAT_state n)

/-- Every state change posts an event (R64). -/
def camTo (s : State) (n st : Nat) : State :=
  if camState s n = st then s else info (wr s (F.EXS_CAM_STAT_state n) st) blkEXS n (F.EXS_CAM_STAT_state n)

/-- A channel is active while its mode is derived or measured; a reserved mode or view code counts as off (R59). -/
def camActive (s : State) (n : Nat) : Bool :=
  let m := rd s (F.EXS_CAM_CFG_mode n)
  (m = 1 || m = 2) && decide (rd s (F.EXS_CAM_CFG_view n) ≤ 3)

/-- The channel runs in measured mode. -/
def camMeasured (s : State) (n : Nat) : Bool := camActive s n && rd s (F.EXS_CAM_CFG_mode n) = 2

/-- r and T_c (R60). -/
def camRate (s : State) (n : Nat) : Nat := rd s (F.EXS_CAM_CFG_rate n) + 1
def camPeriod (s : State) (n : Nat) : Nat := picPeriod s / camRate s n

/-- E in derived mode (R61). -/
def camExposure (s : State) (n : Nat) : Nat := (camPeriod s n * rd s (F.EXS_CAM_ANGLE_angle n) + 18000) / 36000

/-- T_m (R66). -/
def predPeriod (s : State) (n : Nat) : Nat :=
  match (cam s n).opens with
  | t :: r =>
    let l := r.take 8
    let j := l.length
    if j = 0 then camPeriod s n else (t - l.getLastD t + j / 2) / j
  | [] => camPeriod s n

/-- The drift test of R67: the flag is set with an event, and cleared when the inequality no longer holds. -/
def driftCheck (s : State) (n : Nat) : State :=
  let tc := camPeriod s n
  let tm := predPeriod s n
  let drift := rd s (F.EXS_CAM_TRACK_drift_max n) * tc < (if tc ≤ tm then tm - tc else tc - tm) * 1000000
  if drift then
    if on s (F.EXS_CAM_STAT_unlocked n) then s
    else info (wrB s (F.EXS_CAM_STAT_unlocked n) true) blkEXS n (F.EXS_CAM_STAT_unlocked n)
  else wrB s (F.EXS_CAM_STAT_unlocked n) false

/-- An escape (R68). -/
def escape (s : State) (n : Nat) : State :=
  let s := { s with exs.esc := maskSet s.exs.esc n true }
  info (bump s (F.EXS_CAM_CNT_escapes n)) blkEXS n (F.EXS_CAM_CNT_escapes n)

/-- A measured exposure of row y0 is checked against the guarded windows built for it (R68); in measured mode while windows are built
(TRACK and COAST), and never while EXS.CTRL.enable is 0 (R59; DEDUCED, log entry 30). -/
def escapeCheck (s : State) (n a b : Nat) : State :=
  let st := camState s n
  let checks := on s F.EXS_CTRL_enable && (!camMeasured s n || st = cmTRACK || st = cmCOAST)
  if checks && !(cam s n).guard.any (fun g => decide (g.1 ≤ a) && decide ((b : Int) ≤ g.2)) then escape s n else s

/-- An accepted open edge in TRACK or COAST (R65, R66). -/
def openAccepted (s : State) (n ts : Nat) : State :=
  let c := cam s n
  let s := setCam s n { c with opens := ts :: c.opens.take 8, win := 1, missRun := 0, coast := 0, seen := true, pend := some ts, pendAcc := true }
  driftCheck (if camState s n = cmCOAST then camTo s n cmTRACK else s) n

/-- The predicted open nearest to an edge has it in its window (R65). -/
def inPredicted (s : State) (n ts : Nat) : Bool :=
  match (cam s n).opens with
  | t :: _ =>
    let tm := predPeriod s n
    let w : Int := rd s (F.EXS_CAM_TRACK_acc_win n)
    if tm = 0 then false else
    let m := max 1 ((ts - t + tm / 2) / tm)
    let d : Int := (ts : Int) - (t + m * tm : Nat)
    decide (-w ≤ d) && decide (d < w)
  | [] => false

/-- An open edge in ACQUIRE (R64): the run of edges, each followed by a close edge and each interval within acc_win of T_c; an interval that
differs by exactly acc_win is within it (DESIGN CHOICE, log entry 63). The drift is judged on the new prediction (R67). -/
def openAcquire (s : State) (n ts : Nat) : State :=
  let c := cam s n
  let good := match c.lastOpen with
    | some t => c.closed && decide (((ts : Int) - t - camPeriod s n).natAbs ≤ rd s (F.EXS_CAM_TRACK_acc_win n))
    | none => false
  let opens := if good then ts :: c.opens.take 8 else [ts]
  driftCheck (setCam s n { c with lastOpen := some ts, closed := false, run := if good then c.run + 1 else 1, opens := opens, pend := some ts,
                                  pendAcc := true }) n

/-- An open edge of the channel (R64, R65). The edge that moves LOST to ACQUIRE counts as the first of the acq_cnt edges (DESIGN CHOICE, log entry
63). In TRACK and COAST an edge outside every window is ignored here: the window it failed to reach
counts its miss when it ends without an accepted edge; where that window has one, no miss is counted (DESIGN CHOICE, log entry 63). -/
def openEdge (s : State) (n ts : Nat) : State :=
  if !camMeasured s n then setCam s n { cam s n with pend := some ts, pendAcc := false } else
  let st := camState s n
  if st = cmLOST then openAcquire (camTo (setCam s n { cam s n with lastOpen := none, run := 0 }) n cmACQUIRE) n ts
  else if st = cmACQUIRE then openAcquire s n ts
  else if inPredicted s n ts then openAccepted s n ts
  else setCam s n { cam s n with pend := some ts, pendAcc := false }

/-- A close edge of the channel (R64, R66, R68): TRACK is entered when the last of acq_cnt good open edges has been followed by its close
edge (DEDUCED, log entry 31). -/
def closeEdge (s : State) (n ts : Nat) : State :=
  let c := cam s n
  match c.pend with
  | none => s
  | some o =>
    let s := setCam s n { c with pend := none, closed := true }
    let s := if camMeasured s n && c.pendAcc then wr s (F.EXS_CAM_MEAS_WIDTH_ticks n) (ts - o) else s
    let s := escapeCheck s n o ts
    if camMeasured s n && camState s n = cmACQUIRE && rd s (F.EXS_CAM_CFG_acq_cnt n) ≤ c.run then
      driftCheck (camTo (setCam s n { cam s n with win := 1, missRun := 0, coast := 0 }) n cmTRACK) n
    else s

/-- The edge of SHUT_IN[n] that is an edge of the time base's reference (R27, source 4). -/
def shutIsRef (s : State) (n : Nat) (level : Bool) : Bool :=
  refSrc s = 4 && rd s F.TMB_REF_CFG_inp = n && (level != on s F.TMB_REF_CFG_pol)

/-- An edge stamped at or after the build point of a bank not built yet: the build takes the channel as it stood before it (R82, R44). -/
def freezeCam (s : State) (n ts : Nat) : State :=
  match buildPoint s with
  | some t =>
    if ts < t || s.exs.frozen.any (fun e => e.1 = n) then s
    else { s with exs.frozen := (n, cam s n, camState s n, rd s (F.EXS_CAM_MEAS_WIDTH_ticks n)) :: s.exs.frozen }
  | none => s

/-- The channels a build takes: those frozen at its build point, the others as they stand. -/
def frozenCams (s : State) : State :=
  s.exs.frozen.foldl (fun s e => wr (wr (setCam s e.1 e.2.1) (F.EXS_CAM_STAT_state e.1) e.2.2.1) (F.EXS_CAM_MEAS_WIDTH_ticks e.1) e.2.2.2) s

/-- SHUT_IN_EDGE (R63, R42): known 6 ticks after its timestamp. -/
def shutInEdge (s : State) (n : Nat) (level : Bool) (ts : Nat) : State :=
  let s := reach s (ts + syncLat)
  if level = (cam s n).level then s else
  let s := setCam s n { cam s n with level := level }
  let s := if shutIsRef s n level && (tmbState s != tmFREE || s.tmb.wide) then refEdge s ts else s
  let s := freezeCam s n ts
  if !camActive s n then setCam s n { cam s n with pend := none }
  else if level != on s (F.EXS_CAM_CFG_pol n) then openEdge s n ts
  else closeEdge s n ts

/-- CAMERA_OPEN_MISS (R64, R65): the next predicted window has ended without an accepted edge, decided at its end + 6. -/
def cameraOpenMiss (s : State) (n : Nat) : State :=
  let st := camState s n
  match (cam s n).opens with
  | t :: _ =>
    if st != cmTRACK && st != cmCOAST then s else
    let c := cam s n
    let s := reach s (t + c.win * predPeriod s n + rd s (F.EXS_CAM_TRACK_acc_win n) + syncLat)
    let s := bump (setCam s n { c with win := c.win + 1, missRun := c.missRun + 1 }) (F.EXS_CAM_CNT_misses n)
    if st = cmTRACK && rd s (F.EXS_CAM_CFG_miss_max n) ≤ c.missRun + 1 then camTo (setCam s n { cam s n with coast := 0 }) n cmCOAST
    else s
  | [] => s

/-- CAMERA_COAST_EXPIRY (R64). -/
def cameraCoastExpiry (s : State) (n : Nat) : State :=
  if camState s n = cmCOAST && rd s (F.EXS_CAM_CFG_coast_max n) ≤ (cam s n).coast then camTo s n cmLOST else s

/-- The mode in effect of a channel (R64): OFF is left when it is measured, and entered, with the drift flag clear, when it is not (DESIGN
CHOICE, log entry 63). -/
def camMode (s : State) (n : Nat) : State :=
  let st := camState s n
  if camMeasured s n then
    if st = cmOFF then camTo (setCam s n { cam s n with opens := [], lastOpen := none, run := 0, closed := false }) n cmACQUIRE else s
  else if st = cmOFF then s else wrB (camTo s n cmOFF) (F.EXS_CAM_STAT_unlocked n) false

/-- A picture boundary for the channels: a period of COAST without an accepted open edge has passed, a change of mode takes effect, and the
drift is judged against the values in effect (R64, R67, R83). -/
def camBoundary (s : State) (n : Nat) : State :=
  let c := cam s n
  let s := if camState s n = cmCOAST && !c.seen then setCam s n { c with coast := c.coast + 1, seen := false }
    else setCam s n { c with seen := false }
  let s := camMode s n
  if camMeasured s n then driftCheck s n else s

/-! Windows (R60 to R62, R66, R69, R70) -/

/-- d_k(y) (R69). -/
def CamWin.d (w : CamWin) (y : Nat) : Nat := rndShr (w.sl * (min (max y w.y0) w.y1 - w.y0)) 16

/-- The guarded window of row y (R70). -/
def CamWin.gOpen (w : CamWin) (y : Nat) : Int := w.o + w.d y - w.brim
def CamWin.gClose (w : CamWin) (y : Nat) : Int := w.c + w.d y + w.brim

/-- The window of camera n with an exposure of row y0. -/
def mkWin (s : State) (n : Nat) (o c : Int) : CamWin :=
  let sl := rd s (F.EXS_CAM_SLOPE_sl n)
  { cam := n, o := o, c := c, view := rd s (F.EXS_CAM_CFG_view n), sl := sl, q := max (rd s F.SCN_LINE_q_min) sl,
    brim := rd s (F.EXS_CAM_BRIM_ticks n), y0 := rd s (F.EXS_CAM_SPAN_y0 n), y1 := rd s (F.EXS_CAM_SPAN_y1 n) }

/-- The exposures of camera n's row y0 whose passes can start in [b, b + P): derived (R62), or predicted (R66); `keep` are windows left to
this build. -/
def camWindows (s : State) (n b : Nat) (keep : List Int) : List CamWin :=
  let p := picPeriod s
  if camMeasured s n then
    let st := camState s n
    if st != cmTRACK && st != cmCOAST then [] else
    match (cam s n).opens with
    | [] => []
    | t :: _ =>
      let tm := predPeriod s n
      let e := rd s (F.EXS_CAM_MEAS_WIDTH_ticks n)
      if tm = 0 then [] else
      let m0 := max 1 ((b - t) / tm)
      (keep ++ (List.range (3 * p / tm + 2)).map (fun k => ((t + (m0 + k) * tm : Nat) : Int))).eraseDups.map (fun o => mkWin s n o (o + e))
  else
    let r := camRate s n
    let tc := camPeriod s n
    let o := rd s (F.EXS_CAM_OPEN_phase n)
    (keep ++ (List.range (3 * r)).map (fun k => ((b + k / r * p + o + k % r * tc : Nat) : Int))).eraseDups.map
      (fun t => mkWin s n t (t + camExposure s n))

/-- EXS_CLR_CNT (R97). -/
def exsClrCnt (s : State) : State :=
  clearRegs s ([F.EXS_HOUSE_CNT.off, F.EXS_DRZ_CNT.off] ++ (List.range 4).map (fun n => (F.EXS_CAM_CNT n).off))

/-! Meanings -/

def execShutInEdge (n : Fin 4) (level : Bool) (ts : Nat) (s : State) : Host.Outcome State Fault Refusal := .next (shutInEdge s n.val level ts)
def execCameraOpenMiss (n : Fin 4) (s : State) : Host.Outcome State Fault Refusal := .next (cameraOpenMiss s n.val)
def execCameraCoastExpiry (n : Fin 4) (s : State) : Host.Outcome State Fault Refusal := .next (cameraCoastExpiry s n.val)

end Sys2Proof.Machine
end

