-- ==== Sys2Proof/Machine/Build.lean ====
section
/-!
DEFINITION. Building a calendar bank (spec/03_exposure_scheduling.md, R72 to R95, R571; spec/09_panel_drive.md, R317, R318).
-/

namespace Sys2Proof.Machine

/-! The configuration a build reads (R82, R83, R206) -/

/-- The state as the build for boundary b sees its registers: the pending S-class values that take effect at b, and the N-class values
where b ends a transition or panel outputs do not run. -/
def buildCfg (s : State) (b : Nat) : State := putSets s b

/-- Settings of a build: b, e, H, G, S, V_min, q_min. -/
structure BuildCfg where
  b : Nat
  e : Nat
  h : Nat
  g : Nat
  settle : Nat
  vmin : Nat
  qmin : Nat
  deriving DecidableEq, Repr

/-- The settings in state c for boundary b. -/
def buildSettings (c : State) (b : Nat) : BuildCfg :=
  { b := b, e := b + picPeriod c, h := panelH c, g := rd c F.EXS_SCAN_prog_gap, settle := rd c F.EXS_LC_settle, vmin := rd c F.SCN_VBLANK_v_min,
    qmin := rd c F.SCN_LINE_q_min }

/-- T_r and n_max (R75, R79). -/
def BuildCfg.tr (k : BuildCfg) : Nat := refreshTime k.h k.qmin k.vmin
def BuildCfg.nMax (k : BuildCfg) : Nat := if k.tr = 0 then 0 else (k.e - k.b) / k.tr

/-! Camera passes (R74 to R77, R84, R88 to R90) -/

/-- Row offset of a line step (R74). -/
def stepOf (q y : Nat) : Nat := rndShr (y * q) 16

/-- The nominal scan start of windows that one pass covers (R76). -/
def nomStart (h : Nat) (ws : List CamWin) : Int :=
  match ws with
  | [] => 0
  | w :: r => (List.range h).foldl (fun m y => min m ((r.foldl (fun a x => min a (x.gOpen y)) (w.gOpen y)) - stepOf w.q y))
      ((r.foldl (fun a x => min a (x.gOpen 0)) (w.gOpen 0)) - stepOf w.q 0)

/-- Nominal occupancies of two windows intersect on some row (R77, R89); `ax`, `ay` are their own scan starts. -/
def occMeet (h g : Nat) (x : CamWin) (ax : Int) (y : CamWin) (ay : Int) : Bool :=
  (List.range h).any (fun r =>
    let w := max ax ay + stepOf x.q r
    decide (w < max (x.gClose r) (ax + stepOf x.q r + g)) && decide (w < max (y.gClose r) (ay + stepOf y.q r + g)))

/-- Windows of different cameras join into one pass (R89). -/
def joins (h g : Nat) (x y : CamWin × Int) : Bool :=
  x.1.cam != y.1.cam && x.1.view = y.1.view && x.1.sl = y.1.sl && occMeet h g x.1 x.2 y.1 y.2

/-- Group the windows by R89. A chain of joined windows reaches no further than the windows listed, those of three periods from the boundary (DESIGN
CHOICE, log entry 84). -/
def joinWins (h g : Nat) (ws : List CamWin) : List (List CamWin) :=
  ((ws.map (fun w => (w, nomStart h [w]))).foldl (fun (gs : List (List (CamWin × Int))) w =>
    let hit := gs.filter (fun l => l.any (joins h g w))
    gs.filter (fun l => !l.any (joins h g w)) ++ [hit.flatten ++ [w]]) []).map (fun l => l.map (fun w => w.1))

/-- Lowest camera of a group. -/
def lowCam (ws : List CamWin) : Nat := ws.foldl (fun m w => min m w.cam) 4

/-- Union of half-open intervals, given in order of their starts. -/
def unionIv : List (Int × Int) → List (Int × Int)
  | [] => []
  | (a, b) :: r =>
    match unionIv r with
    | (c, d) :: t => if c ≤ b then (a, max b d) :: t else (a, b) :: (c, d) :: t
    | [] => [(a, b)]

/-- The guarded windows of row y that a pass covers, merged, in time order (R70, R89). -/
def guardIvs (ws : List CamWin) (y : Nat) : List (Int × Int) :=
  unionIv (sortBy (ws.map (fun w => (w.gOpen y, w.gClose y))) (fun p q => decide (p.1 ≤ q.1)))

/-- The emission spans of a row (R77, R88): the first begins at w + G, all end at `cut` at the latest. -/
def emitSpans (ivs : List (Int × Int)) (w g cut : Nat) : List (Nat × Nat) :=
  ((ivs.zip (List.range ivs.length)).map (fun e =>
    (if e.2 = 0 then w + g else max e.1.1.toNat (w + g), min e.1.2.toNat cut))).filter (fun t => decide (t.1 < t.2))

/-- A pass that others yield to, with its rows for reading by number. -/
abbrev Winner := Pass × Array Row

/-- The camera a pass is named by (R89, R90). -/
def winnerTag (w : Winner) : Nat := w.1.cams.headD 15

/-- Where a scan starting at a must start at the earliest to clear every pass it yields to at that place, and the pass that says so
(R78, R88). -/
def delayOnce (k : BuildCfg) (steps : Array Nat) (dur a : Nat) (ws : List Winner) : Nat × Option Nat :=
  ws.foldl (fun (m : Nat × Option Nat) w =>
    let stop := w.1.start + w.1.dur + k.vmin
    let m := if a < stop && w.1.start < a + dur + k.vmin && m.1 < stop then (stop, some (winnerTag w)) else m
    (List.range k.h).foldl (fun (m : Nat × Option Nat) y =>
      match w.2[y]? with
      | some r =>
        let st := steps.getD y 0
        if r.prog && r.w ≤ a + st && a + st < r.occEnd && m.1 < r.occEnd - st then (r.occEnd - st, some (winnerTag w)) else m
      | none => m) m) (a, none)

/-- The delayed scan start (R88): repeat until nothing is left to clear. -/
def delayFix (k : BuildCfg) (steps : Array Nat) (dur : Nat) (ws : List Winner) : Nat → Nat → Option Nat → Nat × Option Nat
  | 0, a, tag => (a, tag)
  | n + 1, a, tag =>
    let m := delayOnce k steps dur a ws
    if m.1 = a then (a, tag) else delayFix k steps dur ws n m.1 (m.2 <|> tag)

/-- Where a winner's occupancy begins inside the loser's on row y: the earliest, with its camera (R88). -/
def cutRow (w occEnd y : Nat) (ws : List Winner) : Nat × Option Nat :=
  ws.foldl (fun (m : Nat × Option Nat) x =>
    match x.2[y]? with
    | some r => if r.prog && w ≤ r.w && r.w < m.1 then (r.w, some (winnerTag x)) else m
    | none => m) (occEnd, none)

/-- Ticks of [lo, hi) inside spans. -/
def overlapTicks (lo hi : Int) (l : List (Nat × Nat)) : Nat :=
  l.foldl (fun a t => a + (min hi t.2 - max lo t.1).toNat) 0

/-- Ticks a camera loses on a row, and the pass that takes them (R90). -/
structure RowLoss where
  cam : Nat
  row : Nat
  ticks : Nat
  winner : Nat
  deriving DecidableEq, Repr

/-- A camera pass whose scan starts at `from_` or later, resolved against the passes it yields to, with the losses of its cameras (R76, R77,
R88, R90). Where several passes take ticks of one row, the one whose programming ends the emission is named, else the one that delayed the
scan. -/
def resolveCam (k : BuildCfg) (ws : List CamWin) (win : List Winner) (sub : Nat × Nat) (from_ : Nat) : Pass × List RowLoss :=
  let q := (ws.head?.map (fun w => w.q)).getD k.qmin
  let steps := ((List.range k.h).map (stepOf q)).toArray
  let dur := stepOf q k.h
  let a0 := nomStart k.h ws
  let d := delayFix k steps dur win (win.length * (k.h + 1) + 1) from_ none
  let a := d.1
  let mk := fun y =>
    let ivs := guardIvs ws y
    let w := a + steps.getD y 0
    let gc := (ivs.getLastD (0, 0)).2
    let occ := max gc.toNat (w + k.g)
    let c := cutRow w occ y win
    let w0 := (a0 + steps.getD y 0).toNat
    (({ prog := true, w := w, gOpen := (ivs.headD (0, 0)).1, gClose := gc, occEnd := occ, spans := emitSpans ivs w k.g c.1 } : Row),
     emitSpans ivs w0 k.g gc.toNat, c.2)
  let rows := (List.range k.h).map mk
  let p : Pass := { cams := sortBy (ws.map (fun w => w.cam)).eraseDups (fun a b => decide (a ≤ b)), wins := ws,
                    view := (ws.head?.map (fun w => w.view)).getD 0, start := a, q := q, dur := dur, rows := rows.map (fun r => r.1),
                    ordinal := 0, pic := 0, accum := false, sub := sub, gap := k.g, settle := k.settle, bl := false, repeats := false, hold := (0, 0), latched := false,
                    started := false, ended := false, marked := false }
  let lossOf := fun (m : CamWin) =>
    (rows.zip (List.range k.h)).filterMap (fun e =>
      let lo := m.o + m.d e.2
      let hi := m.c + m.d e.2
      let lost := overlapTicks lo hi e.1.2.1 - overlapTicks lo hi e.1.1.spans
      if lost = 0 then none else some { cam := m.cam, row := e.2, ticks := lost, winner := (e.1.2.2 <|> d.2).getD 15 })
  (p, ws.flatMap lossOf)

/-- The losses of a period, one for each camera that has any, over all its passes: the first affected row, the affected rows, the greatest
loss and, as the winner, the pass that took it (R90; naming that one is DESIGN CHOICE, log entry 64). -/
def lossesOf (l : List RowLoss) : List Loss :=
  (List.range 4).filterMap (fun i =>
    let m := l.filter (fun x => x.cam = i)
    (minBy (fun x : RowLoss => 2 ^ 64 - x.ticks) m).map (fun g =>
      { cam := i, winner := g.winner, row := m.foldl (fun a x => min a x.row) g.row, rows := ((m.map (fun x => x.row)).eraseDups).length,
        ticks := g.ticks }))

/-- The window's key among those already built. -/
def winKey (w : CamWin) : Nat × Int := (w.cam, w.o)

/-- The result of building camera passes: the passes with their losses, and the windows left to the next bank. -/
structure CamBuild where
  passes : List (Pass × List RowLoss)
  deferred : List CamWin

/-- The passes of earlier banks that a build's camera passes yield to: camera passes, and any pass whose scan still holds the link (R88). -/
def carriedWinners (k : BuildCfg) (carried : List Pass) : List Winner :=
  (carried.filter (fun p => !p.cams.isEmpty || decide (k.b < p.start + p.dur + k.vmin))).map (fun p => (p, p.rows.toArray))

/-- Step 2 of R84: groups in order of camera and scan start, each against carried passes, passes of lower cameras and earlier passes of its
own. A pass whose delay moves it past the period's end is left to the next bank, which resolves it afresh from its boundary; until then its
guarded windows stay reserved (DESIGN CHOICE, log entry 64). -/
def buildCams (k : BuildCfg) (groups : List (List CamWin)) (carried : List Pass) (deferred : List (Nat × Int)) (sub : Nat × Nat) : CamBuild :=
  let fixed := carriedWinners k carried
  let here := groups.filterMap (fun ws =>
    let a := nomStart k.h ws
    if (decide ((k.b : Int) ≤ a) && decide (a < k.e)) || ws.any (fun w => deferred.contains (winKey w)) then some (ws, lowCam ws, a) else none)
  let order := sortBy here (fun x y => decide (x.2.1 < y.2.1) || (x.2.1 = y.2.1 && decide (x.2.2 ≤ y.2.2)))
  order.foldl (fun (r : CamBuild) g =>
    let win := fixed ++ (r.passes.filter (fun p => lowCam p.1.wins ≤ g.2.1)).map (fun p => (p.1, p.1.rows.toArray))
    let ws := sortBy g.1 (fun a b => decide (a.cam ≤ b.cam))
    let x := resolveCam k ws win sub (max g.2.2 (k.b : Int)).toNat
    if k.e ≤ x.1.start then { r with deferred := r.deferred ++ ws } else { r with passes := r.passes ++ [x] })
    { passes := [], deferred := [] }

/-! House passes (R92 to R94) -/

/-- A house pass placed at `a`: its rows, with no emission yet. -/
def housePass (k : BuildCfg) (sub : Nat × Nat) (occ : List Winner) (a : Nat) : Pass :=
  let row := fun y =>
    let w := a + stepOf k.qmin y
    let free := occ.all (fun c => match c.2[y]? with
      | some r => !(r.prog && decide (r.w < w + k.g) && decide (w < r.occEnd))
      | none => true)
    ({ prog := free, w := w, gOpen := w, gClose := w, occEnd := w, spans := [] } : Row)
  { cams := [], wins := [], view := 4, start := a, q := k.qmin, dur := stepOf k.qmin k.h, rows := (List.range k.h).map row, ordinal := 0, pic := 0,
    accum := false, sub := sub, gap := k.g, settle := k.settle, bl := false, repeats := false, hold := (0, 0), latched := false, started := false,
    ended := false, marked := false }

/-- Starts of house passes in one gap (R92): while the rest of the gap is at least T_r and room is left. -/
def gapStarts (tr : Nat) : Nat → Nat → Nat → List Nat
  | 0, _, _ => []
  | room + 1, t, e => if tr != 0 && t + tr ≤ e then t :: gapStarts tr room (t + tr) e else []

/-- The link gaps of the period: between the scans, each shortened by V_min after the scan before it (R92). -/
def linkGaps (k : BuildCfg) (scans : List (Nat × Nat)) : List (Nat × Nat) :=
  let l := sortBy scans (fun a b => decide (a.1 ≤ b.1)) ++ [(k.e, k.e)]
  (l.foldl (fun (r : List (Nat × Nat) × Nat) x => (r.1 ++ [(r.2, min x.1 k.e)], max r.2 (x.2 + k.vmin))) ([], k.b)).1

/-- Place house passes, earliest first (R92). -/
def placeHouse (k : BuildCfg) (scans : List (Nat × Nat)) (room : Nat) : List Nat :=
  (linkGaps k scans).foldl (fun l g => l ++ gapStarts k.tr (room - l.length) g.1 g.2) []

/-- The end of house emission that begins at x with `left` ticks to the target: the first later programming of the row, or the tick the target
is reached within the period. Emission that goes on past the period's end counts for the next period, whose build ends it; until then it is
given whole periods (R93). -/
def houseEnd (k : BuildCfg) (x left : Nat) (cuts : List Nat) : Nat :=
  let p := max (k.e - k.b) 1
  max x (cuts.foldl min (if x < k.e && x + left ≤ k.e then x + left else x + ((k.e - x) / p + 1) * p))

/-- House emission of one row (R93): `progs` are its programmings (tick and pass number), `occ` the camera programmings of the row, `left` what
the target leaves of the period. -/
def houseRow (k : BuildCfg) (occ : List Nat) : List (Nat × Nat) → Nat → List (Nat × Nat × Nat)
  | [], _ => []
  | (w, i) :: r, left =>
    let x := w + k.g
    let e := houseEnd k x left ((occ.filter (fun t => decide (w < t))) ++ (match r with | (w', _) :: _ => [w'] | [] => []))
    (i, x, e) :: houseRow k occ r (left - (min k.e e - x))

/-- The programmings of row y by passes. -/
def progsOf (arr : List (Array Row)) (y : Nat) : List Nat :=
  arr.filterMap (fun a => match a[y]? with | some r => if r.prog then some r.w else none | none => none)

/-- What an earlier pass still emits on a row in the period: it ends at the next programming of the row, and house emission at its target
(R77, R93, Table 6.6). -/
def carryRow (k : BuildCfg) (th : Nat) (house : Bool) (cuts : List Nat) (r : Row) : Row :=
  let c := cuts.filter (fun w => decide (r.w < w))
  { r with spans := r.spans.map (fun t =>
      if t.2 ≤ k.b then t
      else if house then (t.1, max t.1 (houseEnd k (max t.1 k.b) th c))
      else (t.1, c.foldl (fun e w => if w < e then max w t.1 else e) t.2)) }

/-- The open emission of an earlier house or repeat pass in the period being built. -/
def carryEmission (k : BuildCfg) (th : Nat) (arr : List (Array Row)) (p : Pass) : Pass :=
  if !p.cams.isEmpty then p else
  { p with rows := (p.rows.zip (List.range p.rows.length)).map (fun e => carryRow k th (!p.repeats) (progsOf arr e.2) e.1) }

/-- House emission of row y in [lo, hi) by house passes. -/
def houseTicks (arr : List (Array Row)) (y lo hi : Nat) : Nat :=
  arr.foldl (fun a r => match r[y]? with
    | some x => x.spans.foldl (fun m t => m + (min hi t.2 - max lo t.1)) a | none => a) 0

/-- House passes with rows for reading by number. What a repeat pass emits is not house emission, even after a final pass of the house view (DESIGN
CHOICE, log entry 32). -/
def houseArr (ps : List Pass) : List (Array Row) := (ps.filter (fun p => p.cams.isEmpty && !p.repeats)).map (fun p => p.rows.toArray)

/-- Give the new house passes their emission, `old` being the earlier passes (R93): what an earlier house pass emits in the period counts
towards the target. -/
def houseEmission (k : BuildCfg) (th : Nat) (old cams ps : List Pass) : List Pass :=
  let arr := (ps.zip (List.range ps.length)).map (fun e => (e.1.rows.toArray, e.2))
  let camArr := ((old ++ cams).filter (fun p => !p.cams.isEmpty)).map (fun p => p.rows.toArray)
  let all := (old ++ cams ++ ps).map (fun p => p.rows.toArray)
  let oldArr := houseArr (old.map (carryEmission k th all))
  let spans := (List.range k.h).map (fun y =>
    let progs := arr.filterMap (fun a => match a.1[y]? with | some r => if r.prog then some (r.w, a.2) else none | none => none)
    houseRow k (progsOf camArr y) progs (th - houseTicks oldArr y k.b k.e))
  (ps.zip (List.range ps.length)).map (fun e =>
    { e.1 with rows := (e.1.rows.zip spans).map (fun r =>
        { r.1 with spans := (r.2.filter (fun t => t.1 = e.2 && decide (t.2.1 < t.2.2))).map (fun t => t.2) }) })

/-- Least house emission of any row over the ticks [lo, hi) of a period (R94). -/
def houseLeast (h : Nat) (ps : List Pass) (lo hi : Nat) : Nat :=
  let arr := houseArr ps
  ((List.range h).map (fun y => houseTicks arr y lo hi)).foldl min (2 ^ 64)

/-! Entries (R571, Table 3.5) -/

/-- Divide ticks into runs that one sequence entry holds each (R50, R571): the run in hand (first, last, events, bounds of q), then the
runs made, as (first, last). -/
def seqRuns : Option (Nat × Nat × Nat × Nat × Nat) → List Nat → List (Nat × Nat)
  | none, [] => []
  | some (a, z, _), [] => [(a, z)]
  | none, t :: r => seqRuns (some (t, t, 1, 0, 2 ^ 64)) r
  | some (a, z, n, lo, hi), t :: r =>
    let d := t - a
    let lo' := max lo ((65536 * d - 32768 + n - 1) / n)
    let hi' := min hi ((65536 * d + 32767) / n)
    if a ≤ t && lo' ≤ hi' && n < 16384 then seqRuns (some (a, t, n + 1, lo', hi')) r
    else (a, z) :: seqRuns (some (t, t, 1, 0, 2 ^ 64)) r

/-- Subframes of a span that are lit (R227). -/
def litSubs (sub : Nat × Nat) (t : Nat × Nat) : List (Nat × Nat) :=
  if sub.1 = 0 then [] else
  (bitList sub.2 sub.1).map (fun i => (t.1 + i * (t.2 - t.1) / sub.1, t.1 + (i + 1) * (t.2 - t.1) / sub.1))

/-- The pulses of a pass (R317): for each lit subframe its ON ticks and its OFF ticks, row by row. -/
def passPulses (p : Pass) : List (List Nat × List Nat) :=
  let rows := p.rows.map (fun r => (r.spans.flatMap (litSubs p.sub)).toArray)
  let n := rows.foldl (fun m r => max m r.size) 0
  (List.range n).map (fun j =>
    let l := rows.filterMap (fun r => r[j]?)
    (l.map (fun t => t.1), l.map (fun t => t.2)))

/-- Single entries of a pass and its sequence entries (Table 3.5); `pulses` are the emission pulses carried for it (R317). Both single entries of a
pulse count at its first edge, and so in that edge's bank (DESIGN CHOICE, log entry 84). -/
def passEntries (c : State) (accum : Bool) (pulses : List EmPulse) (p : Pass) : List Nat × List (Nat × Nat) :=
  let h := p.rows.length
  let nst := (h + 31) / 32
  let rows := p.rows.map (fun r => r.w)
  let strips := (List.range nst).map (fun j => if j < 2 then p.start else p.start + stepOf p.q (32 * j - 33) + lOut - 3072)
  let mine := pulses.filter (fun e => e.pass = p.start)
  let ons := if isLC c then strobeList c (on c F.SCN_MODE_dir) p else []
  (([p.start, p.start, p.start + p.dur] ++ (if accum then [p.start] else []) ++
      mine.flatMap (fun e => if e.chain.isSome then [e.edges.headD 0, e.edges.headD 0] else [e.edges.headD 0])),
   seqRuns none rows ++ seqRuns none strips ++ mine.flatMap (fun e => if e.chain.isSome then seqRuns none e.edges else []) ++
     seqRuns none ((ons.filter (fun e => e.2.2)).map (fun e => e.1)) ++ seqRuns none ((ons.filter (fun e => !e.2.2)).map (fun e => e.1)))

/-- Entries of the bank that belong to no pass: the swap, a manager's beacons and the retraining slots (Table 3.5); a retraining slot is
placed at each blanking point whose span holds one, for each channel whose period ends by then (DESIGN CHOICE, log entry 33). -/
def bankEntries (c : State) (k : BuildCfg) (ps : List Pass) : Nat :=
  let beacons := if isManager c then rd c F.ORL_TIME_bdiv else 0
  let slot := 1500 * rd c F.MEM_TRAIN_slot
  let due := (c.mem.trainAt.filter (fun t => decide (t + 1500000 * rd c F.MEM_TRAIN_period_ms < k.e))).length
  let vbps := (ps.filter (fun p =>
    let v := p.start + p.dur
    decide (k.b ≤ v) && decide (v < k.e) && ps.all (fun o => decide (o.start ≤ p.start) || decide (v + slot ≤ o.start)))).length
  1 + beacons + min due vbps

/-- The pass is, or will be, an accumulation pass (R254, R255): every sixteenth pass of its view. -/
def willAccum (c : State) (ps : List Pass) (p : Pass) : Bool :=
  if p.started then p.accum else
  on c F.AGE_CFG_acc_en &&
    (c.age.passNo.getD p.view 0 + (ps.filter (fun o => !o.started && o.view = p.view && o.start < p.start)).length) % 16 = 0

/-- Single and sequence entries of the bank [b, e) (R85, R571), the pulses being those carried. -/
def countEntries (c : State) (k : BuildCfg) (pulses : List EmPulse) (ps : List Pass) (slots : Nat) : Nat × Nat :=
  ps.foldl (fun (a : Nat × Nat) p =>
    let e := passEntries c (willAccum c ps p) pulses p
    (a.1 + (e.1.filter (fun t => decide (k.b ≤ t) && decide (t < k.e))).length,
     a.2 + (e.2.filter (fun t => decide (t.1 < k.e) && decide (k.b ≤ t.2))).length)) (bankEntries c k ps + 2 * slots, 0)

/-! Emission pulses (R317, R318) -/

/-- Edges rise strictly, at least m apart. -/
def riseBy (m : Nat) : List Nat → Bool
  | a :: b :: r => decide (a < b) && decide (a + m ≤ b) && riseBy m (b :: r)
  | _ => true

/-- The lowest free chain of a kind for edges beginning at t (R317). -/
def freeChain (c : State) (ps : List EmPulse) (kind : Bool) (t : Nat) : Option Nat :=
  (List.range 8).find? (fun n => (rd c F.DRV_EM_on_mask / 2 ^ n % 2 == 1) == kind &&
    ps.all (fun p => p.chain != some n || decide (p.edges.getLastD 0 + rd c F.DRV_EM_min_clk ≤ t)))

/-- Some EM output carries GOFF. -/
def hasGoff (c : State) : Bool := (List.range 16).any (fun n => rd c (F.DRV_EM_CFG_func n) = 3)

/-- The pair of pulses of a subframe, where it can be carried (R317). -/
def carryPair (c : State) (h : Nat) (ps : List EmPulse) (start j : Nat) (e : List Nat × List Nat) : Option (List EmPulse) :=
  let m := rd c F.DRV_EM_min_clk
  if e.1.length != h || e.2.length != h || !riseBy m e.1 then none else
  match freeChain c ps true (e.1.headD 0) with
  | none => none
  | some n =>
    let onP : EmPulse := ⟨start, j, true, some n, e.1⟩
    if e.2.all (fun t => t == e.2.headD 0) && hasGoff c then some [onP, ⟨start, j, false, none, [e.2.headD 0]⟩]
    else if !riseBy m e.2 then none else
    match freeChain c ps false (e.2.headD 0) with
    | some f => some [onP, ⟨start, j, false, some f, e.2⟩]
    | none => none

/-- Carry the pulses of a new pass; a subframe whose pair cannot be carried is dropped, counted once for the pass, with a warning
record (R318). -/
def carryPass (c : State) (s : State) (p : Pass) : State :=
  if isLC c then s else
  let l := passPulses p
  let r := (l.zip (List.range l.length)).foldl (fun (a : List EmPulse × Bool) e =>
    match carryPair c p.rows.length a.1 p.start e.2 e.1 with
    | some l => (a.1 ++ l, a.2)
    | none => (a.1, true)) (s.drv.pulses, false)
  let s := { s with drv.pulses := r.1 }
  if r.2 then warning (bump s F.DRV_CNT_EMDROP_passes) blkDRV 0 F.DRV_CNT_EMDROP_passes else s

/-- Chain n has min_clk of room before and after edges on it (R317). -/
def chainClear (c : State) (ps : List EmPulse) (n : Nat) (edges : List Nat) : Bool :=
  let m := rd c F.DRV_EM_min_clk
  ps.all (fun p => p.chain != some n || decide (p.edges.getLastD 0 + m ≤ edges.headD 0) || decide (edges.getLastD 0 + m ≤ p.edges.headD 0))

/-- The OFF pulse of a subframe with its new edges, tested again: on its chain, another one or as a global-off instant (R317); none where it cannot
be carried. -/
def moveOff (c : State) (h : Nat) (others : List EmPulse) (e : EmPulse) (edges : List Nat) : Option EmPulse :=
  if edges.length != h then none
  else if edges.all (fun t => t == edges.headD 0) && hasGoff c then some { e with chain := none, edges := [edges.headD 0] }
  else if !riseBy (rd c F.DRV_EM_min_clk) edges then none
  else (match e.chain.toList ++ (List.range 8).filter (fun n => rd c F.DRV_EM_on_mask / 2 ^ n % 2 == 0) |>.find? (fun n => chainClear c others n edges) with
    | some n => some { e with chain := some n, edges := edges }
    | none => none)

/-- A pass whose open emission has changed: its OFF pulses take their new edges, each tested again (R317). A subframe whose pair can no longer be
carried is dropped as R318 has it, unless its rows are already lit: then the OFF pulse is sent as it is (DESIGN CHOICE, log entry 84). -/
def refreshPulses (s : State) (p : Pass) : State :=
  let l := passPulses p
  let h := p.rows.length
  let s := { s with drv.pulses := s.drv.pulses.filter (fun e => e.pass != p.start || decide (e.j < l.length)) }
  let r := (s.drv.pulses.filter (fun e => e.pass = p.start && !e.rise)).foldl (fun (a : List EmPulse × Bool) e =>
    let edges := (l.getD e.j ([], [])).2
    let others := a.1.filter (fun x => x != e)
    let on_ := others.find? (fun x => x.pass = p.start && x.rise && x.j = e.j)
    match moveOff s h others e edges with
    | some x => (a.1.map (fun y => if y = e then x else y), a.2)
    | none =>
      if (match on_ with | some x => decide (s.tick < x.edges.headD 0) | none => false) then
        (others.filter (fun x => !(x.pass = p.start && x.rise && x.j = e.j)), true)
      else (a.1.map (fun y => if y = e then { e with edges := if e.chain.isSome then edges else [edges.headD 0] } else y), a.2)) (s.drv.pulses, false)
  let s := { s with drv.pulses := r.1 }
  if r.2 then warning (bump s F.DRV_CNT_EMDROP_passes) blkDRV 0 F.DRV_CNT_EMDROP_passes else s

/-- The calendar takes new programmings: the open emission of earlier house and repeat passes ends there or at its target, and their pulses
take their new edges. -/
def carryOld (s : State) (k : BuildCfg) (th : Nat) (new : List Pass) : State :=
  let arr := (allPasses s ++ new).map (fun p => p.rows.toArray)
  let f := carryEmission k th arr
  let s1 := { s with exs := { s.exs with carried := s.exs.carried.map f, bank := s.exs.bank.map (fun b => { b with passes := b.passes.map f }) } }
  (allPasses s1).foldl (fun s p => if p.cams.isEmpty then refreshPulses s p else s) s1

/-! Dark windows (R95) -/

/-- The intervals of [lo, hi) free of a list of busy intervals. -/
def freeIvs (lo hi : Nat) (busy : List (Nat × Nat)) : List (Nat × Nat) :=
  let l := sortBy busy (fun a b => decide (a.1 ≤ b.1))
  let r := l.foldl (fun (r : List (Nat × Nat) × Nat) x => (r.1 ++ [(r.2, min x.1 hi)], max r.2 x.2)) ([], lo)
  (r.1 ++ [(r.2, hi)]).filter (fun t => decide (t.1 < t.2))

/-- The guarded windows of row y, as ticks. -/
def guardTicks (ws : List CamWin) (y : Nat) : List (Nat × Nat) := ws.map (fun w => ((w.gOpen y).toNat, (w.gClose y).toNat))

/-- What keeps row y from being dark: guarded windows, those of passes left to the next bank among them, emission and programming gaps (R18,
R95). -/
def rowBusy (ps : List Winner) (ex : List CamWin) (y : Nat) : List (Nat × Nat) :=
  guardTicks ex y ++ ps.flatMap (fun p => match p.2[y]? with
    | some r => (if r.prog then [(r.w, r.w + p.1.gap)] else []) ++ guardTicks p.1.wins y ++ r.spans
    | none => [])

/-- Row y is dark throughout [a, b). -/
def rowDark (ps : List Winner) (ex : List CamWin) (y a b : Nat) : Bool :=
  (rowBusy ps ex y).all (fun t => decide (t.2 ≤ t.1) || decide (t.2 ≤ a) || decide (b ≤ t.1))

/-- How many consecutive rows from y stay dark in [a, b), at most n. -/
def darkRows (h : Nat) (ps : List Winner) (ex : List CamWin) (a b : Nat) : Nat → Nat → Nat
  | 0, _ => 0
  | n + 1, y => if y < h && rowDark ps ex y a b then darkRows h ps ex a b n (y + 1) + 1 else 0

/-- Offer the dark windows of the period to the ageing engine (R95, R266). -/
def offerDark (c : State) (k : BuildCfg) (ps : List Pass) (ex : List CamWin) (s : State) : List SenseSlot × State :=
  let ws : List Winner := ps.map (fun p => (p, p.rows.toArray))
  let y := rd s F.AGE_DRZ_STAT_cursor
  let ivs := (freeIvs k.b k.e (ps.map (fun p => (p.start, p.start + p.dur)) ++ rowBusy ws ex y)).filter
    (fun t => decide (rd c F.EXS_DRZ_min_len ≤ t.2 - t.1))
  (ivs.take (rd c F.EXS_DRZ_max_win)).foldl (fun (r : List SenseSlot × State) t =>
    let w : DarkWin := ⟨t.1, t.2, y, darkRows k.h ws ex t.1 t.2 (rd s F.AGE_DRZ_CFG_max_rows) y⟩
    let d := drizzleOffer (bump r.2 F.EXS_DRZ_CNT_windows) w (k.e + (k.e - k.b))
    (r.1 ++ d.1, d.2)) ([], s)

/-! The build (R82 to R87) -/

/-- The subframe pattern of a build: as it stood at the build point (R82, R227). -/
def buildSub (c s : State) : Nat × Nat := if isLC c then (1, 1) else s.exs.frozenSub.getD (subPattern c)

/-- How far a pass reaches (R85). -/
def passReach (p : Pass) : Nat :=
  p.rows.foldl (fun m r => r.spans.foldl (fun x t => max x t.2) (max m r.occEnd)) (p.start + p.dur)

/-- Warnings of R59 at a build point. -/
def reservedCams (c s : State) : State :=
  (List.range 4).foldl (fun s n =>
    if rd c (F.EXS_CAM_CFG_mode n) = 3 || 3 < rd c (F.EXS_CAM_CFG_view n) then warning s blkEXS n (F.EXS_CAM_CFG n) else s) s

/-- MEAS_PERIOD and MEAS_OPEN of a measured camera (R66, Table 3.4): T_m at every build point, and the predicted open where the build uses
one. -/
def measRegs (c : State) (b : Nat) (s : State) (n : Nat) : State :=
  if !camMeasured c n then s else
  let tm := predPeriod c n
  let s := wr s (F.EXS_CAM_MEAS_PERIOD_ticks n) tm
  match (cam c n).opens with
  | t :: _ =>
    if tm = 0 || !on c F.EXS_CTRL_enable || (camState c n != cmTRACK && camState c n != cmCOAST) then s
    else wr s (F.EXS_CAM_MEAS_OPEN_phase n) (t + max 1 ((b - t + tm - 1) / tm) * tm - b)
  | [] => s

/-- Add the guarded windows of row y0 built for a camera, and those reserved for a pass that is left to the next bank (R68). -/
def addGuards (s : State) (ws : List CamWin) : State :=
  ws.foldl (fun s w =>
    let x := cam s w.cam
    setCam s w.cam { x with guard := ((w.gOpen w.y0, w.gClose w.y0) :: x.guard).take 32 }) s

/-- T_h (R93) and the house minimum (R94) of the period, in ticks. -/
def houseTarget (c : State) (k : BuildCfg) : Nat := (k.e - k.b) * rd c F.EXS_HOUSE_target / 1024
def houseFloor (c : State) (k : BuildCfg) : Nat := (k.e - k.b) * rd c F.EXS_HOUSE_min_duty / 1024

/-- A bank with no pass, while a transition runs (R206), or where none has been completed (R51). What earlier passes, a repeat pass among them, still
place in its period counts in it (R571); its period is judged for the house minimum like any other (DESIGN CHOICE, log entry 32). -/
def emptyBank (c : State) (k : BuildCfg) : Bank :=
  let n := countEntries c k c.drv.pulses (allPasses c) 0
  { at_ := k.b, period := k.e - k.b, passes := [], slots := [], singles := n.1, seqs := n.2, nMax := k.nMax, active := 0,
    losses := [], houseMin := houseFloor c k }

/-- Order passes by scan start and give them their place in the period (R85). -/
def numberPasses (pic : Nat) (ps : List Pass) : List Pass :=
  let l := sortBy ps (fun a b => decide (a.start ≤ b.start))
  (l.zip (List.range l.length)).map (fun e => { e.1 with ordinal := e.2, pic := pic })

/-- A bank put into the calendar: its passes in order, its sense slots, the state with what they change (emission of earlier passes, pulses,
dark windows), and its entry counts. -/
structure Placed where
  passes : List Pass
  slots : List SenseSlot
  st : State
  count : Nat × Nat

/-- Steps 4 to 6 of R84 for given camera and house passes; `ex` are windows left to the next bank. -/
def placeBank (c s : State) (k : BuildCfg) (cams house : List Pass) (ex : List CamWin) : Placed :=
  let th := houseTarget c k
  let ps := numberPasses s.tmb.picNext (cams ++ houseEmission k th (allPasses s) cams house)
  let s := carryOld s k th ps
  let s := { s with drv.pulses := s.drv.pulses.filter (fun p => decide (k.b ≤ p.edges.getLastD 0 + (k.e - k.b))) }
  let s := ps.foldl (carryPass c) s
  let d := offerDark c k (allPasses s ++ ps) ex s
  { passes := ps, slots := d.1, st := d.2, count := countEntries c k d.2.drv.pulses (allPasses d.2 ++ ps) d.1.length }

/-- House passes with room for at most `m` in the gaps the camera passes and earlier scans leave (R92). -/
def houseIn (s : State) (k : BuildCfg) (cams : List Pass) (sub : Nat × Nat) (m : Nat) : List Pass :=
  let others := allPasses s ++ cams
  let occ : List Winner := (others.filter (fun p => !p.cams.isEmpty)).map (fun p => (p, p.rows.toArray))
  (placeHouse k (others.map (fun p => (p.start, p.start + p.dur))) (min m (k.nMax - cams.length))).map (housePass k sub occ)

/-- The most house passes, at most `m`, with which the bank stays within its capacity (R86). -/
def fitHouse (c s : State) (k : BuildCfg) (cams : List Pass) (ex : List CamWin) (sub : Nat × Nat) : Nat → Option (Placed × Nat)
  | 0 =>
    let x := placeBank c s k cams [] ex
    if x.count.1 ≤ 4096 && x.count.2 ≤ 256 then some (x, 0) else none
  | m + 1 =>
    let x := placeBank c s k cams (houseIn s k cams sub (m + 1)) ex
    if x.count.1 ≤ 4096 && x.count.2 ≤ 256 then some (x, m + 1) else fitHouse c s k cams ex sub m

/-- The bank's passes (R84 steps 3 to 6, R86): house passes are dropped latest first, then camera passes, highest index and latest first, and
each dropped camera's time is offered to house passes again. Camera passes beyond n_max (R79) are dropped in the same order (DESIGN CHOICE,
log entry 64). Answers the camera passes kept, the bank, and how many drops named each camera (4: house). -/
def fitPasses (c s : State) (k : BuildCfg) (ex : List CamWin) (sub : Nat × Nat) : Nat → List (Pass × List RowLoss) →
    List (Pass × List RowLoss) × Placed × List Nat
  | 0, cams => (cams, placeBank c s k (cams.map (fun p => p.1)) [] ex, [])
  | fuel + 1, cams =>
    let cp := cams.map (fun p => p.1)
    let m := (houseIn s k cp sub k.nMax).length
    match (if k.nMax < cp.length then none else fitHouse c s k cp ex sub m) with
    | some (x, n) => (cams, x, List.replicate (m - n) 4)
    | none =>
      match minBy (fun p : Pass × List RowLoss => (4 - lowCam p.1.wins) * 2 ^ 80 + (2 ^ 79 - p.1.start)) cams with
      | some d =>
        let r := fitPasses c s k ex sub fuel (cams.filter (fun p => p.1.start != d.1.start))
        (r.1, r.2.1, lowCam d.1.wins :: r.2.2)
      | none => (cams, placeBank c s k [] [] ex, [])

/-- The windows of every active camera that a bank can hold (R84 step 1). -/
def bankWins (c s : State) (b : Nat) : List CamWin :=
  if !on c F.EXS_CTRL_enable then [] else
  ((List.range 4).filter (camActive c)).flatMap (fun n =>
    (camWindows c n b ((s.exs.deferred.filter (fun d => d.1 = n)).map (fun d => d.2))).filter (fun w => !s.exs.built.contains (winKey w)))

/-- Build the bank for boundary b (R84), from the registers and channels of its build point (R82). -/
def buildBank (s : State) (b : Nat) : State :=
  let c := frozenCams (buildCfg s b)
  let k := buildSettings c b
  let sub := buildSub c s
  let s := reservedCams c { s with exs := { s.exs with frozen := [], frozenSub := none } }
  let s := (List.range 4).foldl (measRegs c b) s
  if (match s.scn.nsl with | some n => decide (b < n.b) | none => false) then { s with exs.next := some (emptyBank c k) } else
  let cb := buildCams k (joinWins k.h k.g (bankWins c s b)) (allPasses s) s.exs.deferred sub
  let f := fitPasses c s k cb.deferred sub (cb.passes.length + 1) cb.passes
  let kept := f.1.flatMap (fun p => p.1.wins)
  let s := f.2.2.foldl (fun s n => info s blkEXS (if n = 4 then 0 else n) F.EXS_CTRL_enable) f.2.1.st
  let s := addGuards (queueSense s (q0 c) f.2.1.slots) (kept ++ cb.deferred.filter (fun w => !s.exs.deferred.contains (winKey w)))
  let oldest : Int := (b : Int) - 2 * (k.e - k.b : Nat)
  { s with exs := { s.exs with
      next := some { at_ := b, period := k.e - k.b, passes := f.2.1.passes, slots := f.2.1.slots, singles := f.2.1.count.1,
                     seqs := f.2.1.count.2, nMax := k.nMax,
                     active := (List.range 4).foldl (fun a i => if kept.any (fun w => w.cam = i) then a + 2 ^ i else a) 0,
                     losses := lossesOf (f.1.flatMap (fun p => p.2)), houseMin := houseFloor c k }
      built := (s.exs.built ++ kept.map winKey).filter (fun w => decide (oldest ≤ w.2))
      deferred := cb.deferred.map winKey } }

/-- BANK_BUILD (R82): the decision for the next boundary is taken 6 ticks after the build point. -/
def bankBuild (s : State) : State :=
  match s.tmb.next with
  | none => s
  | some b =>
    if (match s.exs.next with | some n => decide (n.at_ = b) | none => false) then s else
    buildBank (reach s (b - rd s F.EXS_BUILD_lead + syncLat)) b

end Sys2Proof.Machine
end

