-- ==== Sys2Proof/Machine/Bound.lean ====
section
/-!
DEFINITION. The picture boundary (spec/02_time_base.md, R31 to R33, R49, R51, R52): bank swap or repeat, the register commit, and what
the chapters tie to a boundary; and the rest of the camera build and commit commands.
-/

namespace Sys2Proof.Machine

/-! Repeated banks (R51) -/

/-- A window d ticks later. -/
def shiftWin (d : Nat) (w : CamWin) : CamWin := { w with o := w.o + d, c := w.c + d }

/-- A pass shifted by d ticks into the next period, to run again. -/
def shiftPass (d : Nat) (p : Pass) : Pass :=
  { p with start := p.start + d, wins := p.wins.map (shiftWin d), latched := false, started := false, ended := false, marked := false,
           accum := false, hold := (0, 0),
           rows := p.rows.map (fun r => { r with w := r.w + d, gOpen := r.gOpen + d, gClose := r.gClose + d, occEnd := r.occEnd + d,
                                                 spans := r.spans.map (fun t => (t.1 + d, t.2 + d)) }) }

/-- A repeated house pass keeps clear of the scans it meets, programs no row inside a camera occupancy, and its emission ends at the next
programming (R51, R78, R92). -/
def resolveHouse (k : BuildCfg) (win : List Winner) (p : Pass) : Pass :=
  let a := (delayFix k #[] p.dur (win.map (fun w => (w.1, #[]))) (win.length + 1) p.start none).1
  let d := a - p.start
  { p with start := a
           rows := (p.rows.zip (List.range p.rows.length)).map (fun e =>
             let r := e.1
             let w := r.w + d
             let free := win.all (fun x => match x.2[e.2]? with
               | some o => !(o.prog && decide (o.w < w + k.g) && decide (w < o.occEnd))
               | none => true)
             let cut := (progsOf (win.map (fun x => x.2)) e.2).filter (fun t => decide (w < t))
             { r with prog := r.prog && free, w := w, gOpen := w, gClose := w, occEnd := w,
                      spans := if r.prog && free then
                          (r.spans.map (fun t => (t.1 + d, cut.foldl min (t.2 + d)))).filter (fun t => decide (t.1 < t.2)) else [] }) }

/-- A row of a repeated camera pass emits no longer than it did in the period just ended. -/
def keepCut (r old : Row) : Row :=
  let e := old.spans.foldl (fun m t => max m t.2) 0
  { r with spans := (r.spans.map (fun t => (t.1, min t.2 e))).filter (fun t => decide (t.1 < t.2)) }

/-- The passes of a repeated bank (R51): camera passes by index and scan start, each at its phase unless a pass it yields to delays it, then
house passes that still fit whole (R92); with the losses of the repeated period, and the windows whose pass a delay moves past its end. A row that
lost emission in the period just ended repeats at the same phases, without it. -/
def repeatPasses (k : BuildCfg) (carried ps : List Pass) : CamBuild :=
  let fixed := carriedWinners k carried
  let order := sortBy (ps.filter (fun p => !p.cams.isEmpty)) (fun x y =>
    decide (lowCam x.wins < lowCam y.wins) || (lowCam x.wins = lowCam y.wins && decide (x.start ≤ y.start)))
  let cams := order.foldl (fun (r : CamBuild) p =>
    let win := fixed ++ (r.passes.filter (fun q => lowCam q.1.wins ≤ lowCam p.wins)).map (fun q => (q.1, q.1.rows.toArray))
    let r0 := resolveCam k p.wins win p.sub p.start
    let x := ({ r0.1 with gap := p.gap, settle := p.settle, rows := (r0.1.rows.zip p.rows).map (fun e => keepCut e.1 e.2) }, r0.2)
    if k.e ≤ x.1.start then { r with deferred := r.deferred ++ p.wins } else { r with passes := r.passes ++ [x] })
    { passes := [], deferred := [] }
  (sortBy (ps.filter (fun p => p.cams.isEmpty && !p.repeats)) (fun x y => decide (x.start ≤ y.start))).foldl (fun (r : CamBuild) p =>
    let x := resolveHouse k (fixed ++ r.passes.map (fun q => (q.1, q.1.rows.toArray))) p
    if k.e < x.start + x.dur + k.vmin then r else { r with passes := r.passes ++ [(x, [])] }) cams

/-- The rows of repeated sense slots are sensed again: their results are read by the end of the period after (R267, R313). No token is taken again
(DEDUCED, log entry 24). -/
def repeatRows (s : State) (k : BuildCfg) (slots : List SenseSlot) : State :=
  let rows := (slots.zip (List.range slots.length)).map (fun e => (⟨e.1.row, e.2, e.1.b, k.e + (k.e - k.b), [], false⟩ : SenseRow))
  { s with age.rows := s.age.rows.filter (fun r => !rows.any (fun x => x.tag = r.tag)) ++ rows }

/-- Repeat bank o for the period that starts at b (R51): its passes and the entries that belong to no pass, at the same phases, the sense slots with
their packets; the guarded windows of the repeated passes stand for their cameras as built ones do (R68). -/
def repeatBank (s : State) (o : Bank) (b : Nat) : State :=
  let k := buildSettings s b
  let d := b - o.at_
  let s := { s with exs := { s.exs with carried := s.exs.carried ++ o.passes, bank := none, next := none } }
  if s.scn.nsl.isSome then { s with exs := { s.exs with bank := some (emptyBank s k) } } else
  let r := repeatPasses k s.exs.carried (o.passes.map (shiftPass d))
  let ps := numberPasses s.tmb.picNext (r.passes.map (fun p => p.1))
  let slots := o.slots.map (fun x => { x with a := x.a + d, b := x.b + d, started := false, ended := false })
  let s := ps.foldl (carryPass s) (carryOld s k (houseTarget s k) ps)
  let n := countEntries s k s.drv.pulses (allPasses s ++ ps) slots.length
  let s := addGuards (repeatRows (queueSense s (q0 s) slots) k slots) (ps.flatMap (fun p => p.wins) ++ r.deferred)
  { s with exs := { s.exs with
      bank := some { o with at_ := b, passes := ps, slots := slots, singles := n.1, seqs := n.2, losses := lossesOf (r.passes.flatMap (fun p => p.2)),
                            houseMin := houseFloor s k }
      deferred := s.exs.deferred ++ r.deferred.map winKey } }

/-! The swap (R49, R90, R94, Table 3.4) -/

/-- The period [a, b) has ended: its house shortfall (R94). `floor_` is what each row was to have at least. -/
def houseShort (s : State) (floor_ a b : Nat) : State :=
  let low := decide (houseLeast (panelH s) (allPasses s) a b < floor_)
  let s := wrB s F.EXS_STATUS_shortfall low
  if low then info (bump s F.EXS_HOUSE_CNT_shortfalls) blkEXS 0 F.EXS_HOUSE_CNT_shortfalls else s

/-- The last period's conflicts, escapes and house shortfall (R68, R90, R94). A period that no bank served has no pass of its own; before the
first boundary there is no period. -/
def periodEnd (s : State) (old : Option Bank) (had : Bool) (b : Nat) : State :=
  let s := wr { s with exs.esc := 0 } F.EXS_STATUS_escape s.exs.esc
  match old with
  | none =>
    let s := wr s F.EXS_STATUS_conflict 0
    if had then houseShort s (houseFloor s (buildSettings s (b - picPeriod s))) (b - picPeriod s) b else wrB s F.EXS_STATUS_shortfall false
  | some o =>
    houseShort (wr s F.EXS_STATUS_conflict (o.losses.foldl (fun m l => maskSet m l.cam true) 0)) o.houseMin o.at_ (o.at_ + o.period)

/-- The losses of the period that begins (R90). -/
def countLosses (s : State) (n : Bank) : State :=
  n.losses.foldl (fun s l =>
    warning (wr (bump s (F.EXS_CAM_CNT_conflicts l.cam)) (F.EXS_CAM_LOSS_ticks l.cam) l.ticks) blkEXS l.cam (F.EXS_CAM_CNT_conflicts l.cam)
      [(l.cam, 1), (l.winner, 1), (l.row, 2), (l.rows, 2), (l.ticks, 4)]) s

/-- The status registers of the active bank (Tables 2.5, 3.4). -/
def bankStatus (s : State) (n : Bank) (late : Bool) : State :=
  let s := wr (wr s F.TMB_CAL_STAT_seq_used (min n.seqs 256)) F.TMB_CAL_STAT_single_used (min n.singles 4096)
  let s := wr (wr s F.EXS_STATUS_passes (min n.passes.length 255)) F.EXS_STATUS_n_max (min n.nMax 255)
  wrB (wr s F.EXS_STATUS_active n.active) F.EXS_STATUS_late late

/-- The event of R51. -/
def lateEvent (s : State) : State := info s blkEXS 0 F.EXS_STATUS_late

/-- Passes of earlier banks are forgotten once a period has passed since all they hold and no accumulation waits for them, with the note of their
strobes; slots once their last edge has left the pins. -/
def pruneExs (s : State) (b : Nat) : State :=
  let due := fun p : Pass => s.scn.runs.any (fun u => u.start = p.start && u.accDue)
  let s := { s with exs := { s.exs with carried := s.exs.carried.filter (fun p => decide (b < passReach p + picPeriod s) || due p),
                                        oldSlots := s.exs.oldSlots.filter (fun x => decide (b < x.b + 2 * lOut)) } }
  let here := (allPasses s).map (fun p => p.start)
  { s with ppx.blDone := s.ppx.blDone.filter (fun e => here.contains e.1) }

/-- The entries of a bank counted again, with what earlier passes now place in its period (R571). -/
def recount (s : State) (o : Bank) : Bank :=
  let n := countEntries s { buildSettings s o.at_ with e := o.at_ + o.period } s.drv.pulses
    ((s.exs.carried ++ o.passes)) o.slots.length
  { o with singles := n.1, seqs := n.2 }

/-- The slots of a bank that no longer serves. -/
def keepSlots (s : State) (o : Option Bank) : State :=
  match o with
  | some o => { s with exs.oldSlots := s.exs.oldSlots ++ o.slots }
  | none => s

/-- The banks swap at boundary b, the current bank repeats, or a period with no pass opens (R49, R51); and whether commits are taken. -/
def swapBanks (s : State) (b : Nat) (had : Bool) : Bool × State :=
  let old := s.exs.bank
  let s := pruneExs (keepSlots (periodEnd s old had b) old) b
  match s.exs.next, old with
  | some n, _ =>
    let s := { s with exs := { s.exs with carried := s.exs.carried ++ (match old with | some o => o.passes | none => []),
                                          bank := some n, next := none } }
    let s := wrB s F.TMB_CAL_STAT_bank (!on s F.TMB_CAL_STAT_bank)
    let n := if n.passes.isEmpty then recount s n else n
    (true, countLosses (bankStatus s n false) n)
  | none, some o =>
    let s := repeatBank s o b
    match s.exs.bank with
    | some n => (false, lateEvent (countLosses (bankStatus s n true) n))
    | none => (false, s)
  | none, none => (true, lateEvent (bankStatus s (emptyBank s (buildSettings s b)) false))

/-! The register commit (R31, R41, R200, R206, R209) -/

/-- What a change of the time base's registers at boundary b does (R31, R41). Where T_ref changes, the measurement of R37 starts again: edges of the
old period say nothing of the new one (DEDUCED, log entry 62). -/
def tmbCommitted (old s : State) (b : Nat) : State :=
  if refSrc old != refSrc s || rd old F.TMB_REF_CFG_inp != rd s F.TMB_REF_CFG_inp then refChange s b
  else if picPeriod old != picPeriod s || rdW old F.TMB_REF_RATIO.off != rdW s F.TMB_REF_RATIO.off || refOffset old != refOffset s then
    reanchor (if tRef old = tRef s then s else { s with tmb := { s.tmb with recent := [], inRange := 0 } }) b
  else s

/-! Non-seamless transitions (R205 to R208) -/

/-- NSL_REPEAT_PASS (Table 6.6): the repeat pass starts, programming every row with the final pass's values; every row emits from
then on. -/
def nslRepeatPass (s : State) : State :=
  match s.scn.nsl with
  | none => s
  | some n =>
    if n.begun then s else
    let s := reach s n.rep
    let g := rd s F.EXS_SCAN_prog_gap
    let w := rowTick n.rep n.q
    let pic := s.tmb.pic.getD 0
    let ord := ((allPasses s).filter (fun p => p.pic = pic && p.started)).length
    let far := fun y => n.b + 2 * picPeriod s + (w y - n.rep)
    let row := fun y => ({ prog := true, w := w y, gOpen := w y, gClose := w y, occEnd := w y + g, spans := [(w y + g, far y)] } : Row)
    let p : Pass := { cams := [], wins := [], view := n.view, start := n.rep, q := n.q, dur := n.endR - n.rep, rows := (List.range (panelH s)).map row,
                      ordinal := ord, pic := pic, accum := false, sub := (1, 1), gap := g, settle := rd s F.EXS_LC_settle, bl := false,
                      repeats := true, hold := (n.endR, n.b), latched := false,
                      started := false, ended := false, marked := false }
    let cut := fun x : Pass => { x with rows := (x.rows.zip (List.range (panelH s))).map (fun e =>
      { e.1 with spans := (e.1.spans.map (fun t => (t.1, min t.2 (w e.2)))).filter (fun t => decide (t.1 < t.2)) }) }
    let s := { s with exs := { s.exs with bank := s.exs.bank.map (fun b => { b with passes := b.passes.map cut }),
                                          carried := s.exs.carried.map cut }
                      scn.nsl := some { n with begun := true } }
    let s := carryPass s ((allPasses s).foldl refreshPulses s) p
    let s := startPass { s with exs.carried := s.exs.carried ++ [p] } p
    match s.exs.bank with
    | some o =>
      let o := recount s o
      wr (wr { s with exs.bank := some o } F.TMB_CAL_STAT_seq_used (min o.seqs 256)) F.TMB_CAL_STAT_single_used (min o.singles 4096)
    | none => s

/-- The end of a non-seamless transition at b (R206 to R208): the grid of gap slots starts again (R297). -/
def endNsl (s : State) (b : Nat) : State :=
  let s := newGrid (wrB { s with scn.nsl := none } F.SCN_COMMIT_nsl false) b (q0 s)
  let s := drizzleReset (zonesReset (emptyHistories s))
  info { s with scn.lastView := none } blkSCN 0 F.SCN_COMMIT_nsl

/-- The S class, and the N class where its point is this boundary, take effect at b. -/
def commitBoundary (s : State) (b : Nat) : State :=
  if s.scn.set.isNone && s.scn.prev.isNone && s.scn.nsl.isNone then s else
  let t := pendStatus (putSets s b)
  tmbCommitted s (if nslEnds s b then endNsl t b else t) b

/-- A transition whose boundary finds no completed bank ends at the next one (R51). -/
def deferNsl (s : State) (b : Nat) : State :=
  match s.scn.nsl with
  | some n =>
    if n.b != b then s else
    let d := picPeriod s
    let late := fun (t : Option Nat) => if t = some b then some (b + d) else t
    let far := fun (r : Row) => { r with spans := r.spans.map (fun t => (t.1, t.2 + d)) }
    let hold := fun (p : Pass) => if p.repeats && p.hold.2 = b then { p with hold := (p.hold.1, b + d), rows := p.rows.map far } else p
    let s := { s with scn := { s.scn with nsl := some { n with b := b + d }
                                          set := s.scn.set.map (fun (c : CommitSet) => { c with v := late c.v, s := late c.s, n := late c.n }) }
                      exs.carried := s.exs.carried.map hold }
    s.exs.carried.foldl (fun (s : State) (p : Pass) => if p.repeats then refreshPulses s p else s) s
  | none => s

/-- PICTURE_BOUNDARY (R31 to R33, R49, R52). -/
def boundaryAt (s : State) (b : Nat) : State :=
  let s := reach s b
  let n := s.tmb.picNext
  let s := { s with age.rbUsed := 0 }
  let x := swapBanks { s with tmb := { s.tmb with pic := some n, bound := b }, exs := { s.exs with frozen := [], frozenSub := none } } b s.tmb.pic.isSome
  let s := { x.2 with tmb := { x.2.tmb with picNext := n + 1 } }
  let s := if x.1 then commitBoundary s b else deferNsl s b
  let s := { s with tmb.next := some (b + picPeriod s) }
  let s := (List.range 4).foldl camBoundary s
  setNow (psqBoundary s)

/-- The next boundary arrives. -/
def pictureBoundary (s : State) : State := match s.tmb.next with | some b => boundaryAt s b | none => s

/-- REGISTER_COMMIT (R200): a V-class entry at a vertical blanking point, an S-class entry at a boundary with a completed bank. -/
def registerCommit (s : State) : CommitCls → State
  | .v => if (allPasses s).any (fun p => p.ended && p.start + p.dur = s.tick) then commitV s s.tick else s
  | .s => if s.tmb.pic.isSome && s.tmb.bound = s.tick && !on s F.EXS_STATUS_late then commitBoundary s s.tick else s

/-! Meanings -/

def execRefreshStart (s : State) : Host.Outcome State Fault Refusal :=
  .next (if (firstPass s (fun p => !p.started && !p.repeats)).isSome then rebuildOffer (refreshStart s) else s)
def execBankBuild (s : State) : Host.Outcome State Fault Refusal := .next (bankBuild s)
def execNslRepeatPass (s : State) : Host.Outcome State Fault Refusal := .next (nslRepeatPass s)
def execRegisterCommit (c : CommitCls) (s : State) : Host.Outcome State Fault Refusal := .next (registerCommit s c)

end Sys2Proof.Machine
end

