-- ==== Sys2Proof/Machine/Orl.lean ====
section
/-!
DEFINITION. The Orsal link (spec/11_orsal_link.md): ports, frames, time across the wall, the manager's requests, event forwarding and
picture distribution. A worker's answer to a control request needs the host access functions and stands in a later file.
-/

namespace Sys2Proof.Machine

/-! Positions and paths (R349, R350) -/

def ringPos (s : State) : Nat := rd s F.ORL_CFG_pos
def nDev (s : State) : Nat := rd s F.ORL_CFG_n_dev_m1 + 1
def isRing (s : State) : Bool := on s F.ORL_CFG_topo

/-- The neighbour on port x (0: A, 1: B), and the break position of its link (R350, R382). -/
def nbrPos (s : State) (x : Nat) : Nat := if x = 0 then (ringPos s + 1) % nDev s else (ringPos s + nDev s - 1) % nDev s
def linkPos (s : State) (x : Nat) : Nat := if x = 0 then ringPos s else (ringPos s + nDev s - 1) % nDev s

/-- The manager's port on the shorter path to worker p. -/
def shortPort (s : State) (p : Nat) : Nat := if isRing s && decide (nDev s - p < p) then 1 else 0

/-- The path to worker p that leaves on port x crosses link k. -/
def pathHas (x p k : Nat) : Bool := if x = 0 then decide (k < p) else decide (p ≤ k)

/-- A port register's index. -/
def portNo (x : Bool) : Nat := if x then 1 else 0

/-! Ports (R353 to R355) -/

def poOFF : Nat := 0
def poTRAIN : Nat := 1
def poCHECK : Nat := 2
def poUP : Nat := 3
def poDOWN : Nat := 4
def poMISWIRED : Nat := 5

def oport (s : State) (x : Nat) : OrlPort := sget OrlPort.reset s.orl.ports x
def setOPort (s : State) (x : Nat) (p : OrlPort) : State := { s with orl.ports := sset OrlPort.reset s.orl.ports x p }
def portState (s : State) (x : Nat) : Nat := rd s (F.ORL_PORT_STAT_state x)
def portUp (s : State) (x : Nat) : Bool := portState s x = poUP

/-- UP ports. -/
def upPorts (s : State) : List Nat := [0, 1].filter (portUp s)

/-- A port's state changes with an event; what waits at a port that leaves CHECK or UP is dropped, and its lanes count as unlocked (R353;
DESIGN CHOICE, log entry 34). Its blocks are numbered from the entry to TRAIN. -/
def portTo (s : State) (x st : Nat) : State :=
  if portState s x = st then s else
  let s := info (wr s (F.ORL_PORT_STAT_state x) st) blkORL x (F.ORL_PORT_STAT_state x)
  if st = poUP || st = poCHECK then s else
  let s := setOPort s x { oport s x with queue := [], sending := none, line := [], t1 := none, lastBcn := none, runBcn := none }
  let s := if st = poTRAIN then setOPort s x { oport s x with blk := 0, lineAt := s.tick } else s
  wr s (F.ORL_PORT_STAT_lock x) 0

/-! Frames (R356 to R359) -/

/-- A frame's bytes (R356). -/
def frameBytes (f : TxFrame) (pay : List Byte) : List Byte :=
  let h := leBytes (f.typ * 16) 1 ++ leBytes f.src 1 ++ leBytes (b2n f.bcast * 128 + f.dst) 1 ++ leBytes f.hops 1 ++ leBytes f.seq 4
    ++ leBytes pay.length 2 ++ List.replicate 6 0#8
  let b := h ++ pay ++ List.replicate ((8 - pay.length % 8) % 8) 0#8
  b ++ leBytes (crc32 b) 4 ++ List.replicate 4 0#8

/-- The line's blocks from index `i` on (R352): block i goes out on lane i mod 4, and every 16,384th of each lane is an ALIGN block that names
its lane. What is given is each block's sync header and bytes; the index after the last block comes with them. -/
def lineBlocks : Nat → List (Nat × List Byte) → List LineBlk × Nat
  | i, [] => ([], i)
  | i, b :: l =>
    let j := if i / 4 % 16384 = 16383 then 4 * (i / 4) + 4 else i
    let al := (List.range (j - i)).map (fun d => (⟨(i + d) % 4, 2, [0x33#8, BitVec.ofNat 8 ((i + d) % 4)] ++ List.replicate 6 0#8⟩ : LineBlk))
    let r := lineBlocks (j + 1) l
    (al ++ ⟨j % 4, b.1, b.2⟩ :: r.1, r.2)

/-- A frame's blocks (R352, R356): SOF, then data blocks of 8 bytes, byte 0 first. -/
def frameBlocks (bs : List Byte) : List (Nat × List Byte) :=
  (2, 0x2D#8 :: List.replicate 7 0#8) :: (List.range ((bs.length + 7) / 8)).map (fun k => (1, slice bs (8 * k) 8))

/-- Blocks that four lanes of 25.78125 Gb/s carry in `t` ticks: 25 in 24 ticks (Table 11.1). -/
def blocksIn (t : Nat) : Nat := 25 * t / 24

/-- The ticks that `n` blocks take. -/
def blockTicks (n : Nat) : Nat := (24 * n + 24) / 25

/-- The frame passes its CRC (R356). -/
def frameOk (bs : List Byte) : Bool :=
  decide (24 ≤ bs.length) && bs.length % 8 = 0 && leAt bs (bs.length - 8) 4 = crc32 (bs.take (bs.length - 8))

/-- Precedence of a frame type (R358); a forwarded VER or BLOCK ranks with the distribution rules. -/
def framePrec : Nat → Nat
  | 0 => 0 | 1 => 1 | 2 => 1 | 3 => 2 | 4 => 3 | 5 => 3 | 6 => 4 | 8 => 5 | 10 => 5 | _ => 6

/-- A received frame's fields (Table 11.3). -/
def parseFrame (bs : List Byte) : TxFrame :=
  let len := leAt bs 8 2 % 4096
  { prec := framePrec (leAt bs 0 1 / 16), typ := leAt bs 0 1 / 16, src := leAt bs 1 1 % 64, bcast := leAt bs 2 1 / 128 % 2 == 1,
    dst := leAt bs 2 1 % 64, hops := leAt bs 3 1, seq := leAt bs 4 4, pay := slice bs 16 len, stamp := .none, blk := none }

/-- A frame of the device's own (R359): BEACON, DLY and hello frames take no number. -/
def ownFrame (s : State) (typ : Nat) (bcast : Bool) (dst : Nat) (pay : List Byte) : TxFrame :=
  { prec := framePrec typ, typ := typ, src := ringPos s, bcast := bcast, dst := dst, hops := 1, seq := s.orl.seq, pay := pay,
    stamp := .none, blk := none }

/-- Take the next frame number. -/
def nextSeq (s : State) : State := { s with orl.seq := (s.orl.seq + 1) % 2 ^ 32 }

/-- The payload as it leaves at a stamp (R361 to R363). -/
def leavingPay (s : State) (f : TxFrame) (stamp : Nat) : List Byte :=
  let p := match f.stamp with
    | .none => f.pay
    | .beacon i _ => f.pay.take 16 ++ leBytes (((stamp : Int) - i) % 2 ^ 32).toNat 4 ++ f.pay.drop 20
    | .dlyReq => leBytes stamp 8
    | .dlyRsp => f.pay ++ leBytes stamp 8
  match f.blk with
  | some a => p ++ gddrRd s a (16 + hdrLen (gddrRd s a 16))
  | none => p

/-- A BEACON that did not leave within its 3,000 ticks is not sent (R363). -/
def stale (s : State) (f : TxFrame) : Bool := match f.stamp with | .beacon _ (some t) => decide (t < s.tick) | _ => false

/-- Start the next waiting frame of an idle port, by precedence (R358). A frame that carries its stamp takes the tick with a free fraction of it: at
which 1/64 tick the SOF leaves the manual does not say (R360; free value 17). -/
def startPort (s : State) (x : Nat) : State :=
  let p := oport s x
  if p.sending.isSome then s else
  let q := p.queue.filter (fun f => !stale s f)
  match minBy (fun f : TxFrame => f.prec) q with
  | none => setOPort s x { p with queue := q }
  | some f =>
    let fr := if f.stamp = .none then (0, s) else freeBelow s 17 64
    let s := fr.2
    let st := (64 * s.tick + fr.1) % 2 ^ 64
    let bs := frameBytes f (leavingPay s f st)
    let l := lineBlocks (max p.blk (blocksIn (s.tick - p.lineAt))) (frameBlocks bs)
    setOPort s x { p with queue := eraseOne f q, sending := some bs, sentTyp := f.typ, line := l.1, blk := l.2,
                          t1 := if f.stamp = .dlyReq then some st else p.t1, dlyAt := if f.stamp = .dlyReq then s.tick else p.dlyAt }

/-- Hand a frame to port x: only a hello leaves in CHECK. -/
def sendOrl (s : State) (x : Nat) (f : TxFrame) : State :=
  if portUp s x || (portState s x = poCHECK && f.typ = 3 && !f.bcast) then
    startPort (setOPort s x { oport s x with queue := (oport s x).queue ++ [f] }) x
  else s

/-- The same frame on several ports. -/
def sendPorts (s : State) (xs : List Nat) (f : TxFrame) : State := xs.foldl (fun s x => sendOrl s x f) s

/-- A new numbered frame on several ports. -/
def sendNew (s : State) (xs : List Nat) (typ : Nat) (bcast : Bool) (dst : Nat) (pay : List Byte) : State :=
  sendPorts (nextSeq s) xs (ownFrame s typ bcast dst pay)

/-- A frame is forwarded by R358: out of the other port, with one hop more. -/
def forwardFrame (s : State) (x : Nat) (f : TxFrame) : State :=
  let hello := f.typ = 3 && leAt f.pay 0 1 = 0
  if f.typ < 3 || 10 < f.typ || hello || (!f.bcast && f.dst = ringPos s) || f.src = ringPos s || (isRing s && f.hops = nDev s - 1) then s
  else sendOrl s (1 - x) { f with hops := f.hops + 1 }

/-! Events towards the manager (R372) -/

/-- An EVENT waits or is being sent on a port. -/
def eventBusy (s : State) (x : Nat) : Bool :=
  let p := oport s x
  p.queue.any (fun f => f.typ = 6 && f.src = ringPos s) || (p.sending.isSome && p.sentTyp = 6)

/-- Give the ports the next EVENT of the forward queue; a kind-1 frame goes as soon as the queue has room (R372). -/
def evtPump (s : State) : State :=
  let xs := if isRing s then upPorts s else (upPorts s).filter (fun x => x = 1)
  if !isWorker s || xs.isEmpty || xs.any (eventBusy s) then s
  else if s.evt.fwdDrop.any (fun n => n != 0) && s.evt.fwdQ.length < 64 then
    let pay := List.replicate 32 0#8 ++ [1#8, 0#8, 0#8, 0#8] ++ s.evt.fwdDrop.flatMap (fun n => leBytes (min n 0xFFFFFFFF) 4)
    sendNew { s with evt.fwdDrop := List.replicate 7 0 } xs 6 false 0 pay
  else match s.evt.fwdQ with
    | r :: rest => sendNew { s with evt.fwdQ := rest } xs 6 false 0 (r ++ List.replicate 32 0#8)
    | [] => s

/-- ORSAL_FRAME_SENT (R358): the port's frame has left with its last block; the next one starts. -/
def frameSent (s : State) (x : Nat) : State :=
  match (oport s x).sending with
  | none => s
  | some _ =>
    let p := oport s x
    evtPump (startPort (setOPort (reach s (p.lineAt + blockTicks p.blk)) x { p with sending := none, line := [] }) x)

/-! Links, breaks and heals (R354, R355, R382 to R385) -/

/-- The payload of a LINK frame (Table 11.4). -/
def linkPay (s : State) (kind k : Nat) : List Byte :=
  leBytes kind 1 ++ leBytes (ringPos s) 1 ++ leBytes (nDev s - 1) 1 ++ leBytes (b2n (isRing s) + 2 * b2n (isWorker s)) 1 ++ leBytes k 1
    ++ List.replicate 3 0#8

/-- ORL.STATUS.dual: dual-path delivery in use. -/
def dualStatus (s : State) : State := wrB s F.ORL_STATUS_dual (isManager s && on s F.ORL_DIST_CFG_dual && (upPorts s).length = 2)

/-- The port or ports a new distribution to worker p takes (R381, R384, R385). -/
def distPort (s : State) (p : Nat) : Option Nat :=
  if on s F.ORL_DIST_CFG_dual then none else
  let x := shortPort s p
  match s.orl.route with
  | some k =>
    let live := match s.orl.routeEnd with | some b => decide (s.tick ≤ b) | none => true
    some (if live && pathHas x p k && isRing s then 1 - x else x)
  | none => some x

/-- Ports of a distribution. -/
def distPorts (d : Dist) : List Nat := match d.port with | some x => [x] | none => [0, 1]

/-- The plane blocks of a rectangle of a surface: key (plane, row, column within the rectangle) and address (R110, R122). -/
def rectPlaneBlocks (u : Surf) (sbx sby w h : Nat) : List (Nat × Nat) :=
  (List.range (planeCount u)).flatMap (fun p =>
    let q := planeSub u p
    let i0 := sbx / q.1
    let j0 := sby / q.2
    (List.range ((sby + h - 1) / q.2 + 1 - j0)).flatMap (fun j => (List.range ((sbx + w - 1) / q.1 + 1 - i0)).map (fun i =>
      (65536 * p + 256 * j + i, planeBlockAddr u p (i0 + i) (j0 + j)))))

/-- Send a distribution's VER (R375). -/
def sendVer (s : State) (d : Dist) : State :=
  let f := { ownFrame s 7 false d.dst (leBytes d.vid 4 ++ d.ver) with prec := if d.rule.isNone then 7 else 6 }
  sendPorts (nextSeq s) (distPorts d) f

/-- Send a block of a distribution (R375). -/
def sendBlock (s : State) (d : Dist) (key : Nat) : State :=
  match d.blocks.find? (fun b => b.1 = key) with
  | some b =>
    let pay := leBytes d.vid 4 ++ leBytes (key / 65536) 1 ++ leBytes (key % 256) 1 ++ leBytes (key / 256) 1 ++ List.replicate 9 0#8
    let f := { ownFrame s 9 false d.dst pay with prec := if d.rule.isNone then 7 else 6, blk := some b.2 }
    sendPorts (nextSeq s) (distPorts d) f
  | none => s

/-- Send every verified block of a distribution. -/
def sendReady (s : State) (d : Dist) : State := d.ready.foldl (fun s k => sendBlock s d k) s

/-- Change a distribution. -/
def setDist (s : State) (d : Dist) : State := { s with orl.dists := s.orl.dists.map (fun x => if x.vid = d.vid then d else x) }

/-- The manager turns to the other way for every worker whose shorter path has the broken link (R384). -/
def reroute (s : State) (k : Nat) : State :=
  if !isManager s || !isRing s || on s F.ORL_DIST_CFG_dual then s else
  let hit := (List.range (nDev s)).filter (fun p => p != 0 && pathHas (shortPort s p) p k)
  let s := bumpN { s with orl := { s.orl with route := some k, routeEnd := none } } F.ORL_CNT_MISC_reroute hit.length
  (s.orl.dists.filter (fun d => hit.contains d.dst)).foldl (fun s d =>
    let d := { d with port := some (1 - shortPort s d.dst), retryAt := none }
    let s := sendVer (setDist s d) d
    if d.waits then s else sendReady s d) s

/-- The device learns of a break (R382). -/
def learnBreak (s : State) (k : Nat) : State :=
  if on s F.ORL_STATUS_brk && rd s F.ORL_STATUS_brk_pos = k then s else
  let s := wr (wrB s F.ORL_STATUS_brk true) F.ORL_STATUS_brk_pos k
  reroute (alarmSet (warning s blkORL 0 F.ORL_STATUS_brk [(k, 1)]) almRING_BRK) k

/-- The device learns that the broken link is whole again (R385). -/
def learnHeal (s : State) : State :=
  let s := wrB s F.ORL_STATUS_brk false
  if s.orl.route.isSome then { s with orl.routeEnd := some (s.tmb.next.getD s.tick) } else s

/-- Link loss (R354, R382). -/
def portLoss (s : State) (x : Nat) : State :=
  let st := portState s x
  if st != poCHECK && st != poUP then s else
  let s := portTo s x poDOWN
  let s := errorRec (bump s (F.ORL_PORT_STAT_downs x)) blkORL x (F.ORL_PORT_STAT_downs x)
  let s := setOPort s x { oport s x with downAt := s.tick }
  if st = poUP then
    let k := linkPos s x
    learnBreak (sendNew s [1 - x] 3 true 0 (linkPay s 1 k)) k
  else s

/-- A port enters UP (R355, R361, R385). -/
def portEnterUp (s : State) (x : Nat) : State :=
  let s := portTo s x poUP
  let s := setOPort s x { oport s x with delays := [], t1 := none, lastBcn := none, runBcn := none }
  let k := linkPos s x
  if on s F.ORL_STATUS_brk && rd s F.ORL_STATUS_brk_pos = k then learnHeal (sendNew s [1 - x] 3 true 0 (linkPay s 2 k)) else s

/-- The port is enabled and connected (R349, R350). -/
def portWanted (s : State) (x : Nat) : Bool :=
  on s F.ORL_CFG_en && on s (if x = 0 then F.ORL_PORT_CFG_en_a else F.ORL_PORT_CFG_en_b)
  && (isRing s || (if x = 0 then decide (ringPos s + 1 < nDev s) else decide (0 < ringPos s)))

/-- The port's power domain is on (Table 16.1). -/
def portDomOn (s : State) (x : Nat) : Bool := bitOf s F.PWR_DOM_ON_on (26 + x)

/-- A port follows its enables and its domain (R339, R353, R355). -/
def portFollow (s : State) (x : Nat) : State :=
  let p := oport s x
  if portState s x = poOFF then
    if !portWanted s x then wrB (setOPort s x { p with held := false }) (F.ORL_PORT_STAT_re_pend x) false
    else if p.stopping then wrB (setOPort s x { p with held := true }) (F.ORL_PORT_STAT_re_pend x) true
    else if portDomOn s x then portTo s x poTRAIN else s
  else if portWanted s x && portDomOn s x then s
  else
    let off := !(on s F.ORL_CFG_en && on s (if x = 0 then F.ORL_PORT_CFG_en_a else F.ORL_PORT_CFG_en_b)) && portDomOn s x
    let s := portTo s x poOFF
    setOPort s x { oport s x with stopping := off }

/-- Both ports follow. -/
def portsFollow (s : State) : State := dualStatus (portFollow (portFollow s 0) 1)

/-- The domain of port x has been switched off: its shut-down is complete (R355). -/
def portDomainOff (s : State) (x : Nat) : State :=
  portFollow (wrB (setOPort s x { oport s x with stopping := false, held := false }) (F.ORL_PORT_STAT_re_pend x) false) x

/-- PORT_TRAIN_DONE (R353). -/
def portTrainDone (s : State) (x : Nat) : State :=
  if portState s x = poTRAIN then portTo (wr s (F.ORL_PORT_STAT_lock x) 15) x poCHECK else s

/-- PORT_RETRY_TIMEOUT (R353). -/
def portRetry (s : State) (x : Nat) : State :=
  let st := portState s x
  if st = poDOWN || st = poMISWIRED then
    portTo (reach s ((oport s x).downAt + rd s F.ORL_PORT_CFG_retry_ms * Config.tickMs)) x poTRAIN
  else s

/-- ORL_RETRAIN (Table 11.8): a port that is off stays off. -/
def orlRetrain (s : State) (x : Nat) : State := if portState s x = poOFF then s else dualStatus (portTo s x poTRAIN)

/-- LINK_HELLO_TIMER (R355). -/
def helloTimer (s : State) (x : Nat) : State :=
  let st := portState s x
  if st != poCHECK && st != poUP then s else
  let s := reach s ((oport s x).helloAt + Config.tickMs)
  let s := setOPort s x { oport s x with helloAt := s.tick }
  sendOrl s x { ownFrame s 3 false (nbrPos s x) (linkPay s 0 0) with seq := 0 }

/-! Receiving (R356, R358, R359) -/

/-- The device hears frames on the port. -/
def portHears (s : State) (x : Nat) : Bool := portState s x = poCHECK || portUp s x

/-- A frame already acted on. -/
def frameSeen (s : State) (f : TxFrame) : Bool := s.orl.seen.any (fun e => e.1 = f.src && e.2.1 = f.seq)

/-- Remember a frame acted on: the last 4,096 of each source (R359). -/
def markSeen (s : State) (f : TxFrame) (ans : Option (Nat × Nat)) : State :=
  let mine := (s.orl.seen.filter (fun e => e.1 = f.src)).take 4095
  { s with orl.seen := (f.src, f.seq, ans) :: mine ++ s.orl.seen.filter (fun e => e.1 != f.src) }

/-- The frame is for this device. -/
def frameMine (s : State) (f : TxFrame) : Bool := f.bcast || f.dst = ringPos s

/-- A record of a worker is posted to the manager's event controller, at its delivery tick and in the order of its source (R450, R471). -/
def postFwd (s : State) (bs : List Byte) : State :=
  let w := leAt bs 4 4
  postRec s { tick := s.tick, src := bits w 31 20, cls := bits w 19 16, alarm := bits w 4 4 == 1, level := bits w 0 0 == 1, rpt := bits w 2 2 == 1,
              pay := slice bs 16 12, pic := leAt bs 29 3, fwd := some bs }

/-- An EVENT payload is delivered to the event controller (R373, R471): every field kept, fwd set, origin the worker's position. -/
def deliverEvent (s : State) (pos : Nat) (pay : List Byte) : State :=
  if leAt pay 32 1 = 0 then
    let bs := pay.take 32
    let bs := (bs.set 4 ((bs.getD 4 0#8) ||| 0x08#8)).set 28 (BitVec.ofNat 8 pos)
    postFwd s bs
  else
    let c := fun k => min 0xFFFF (leAt pay (36 + 4 * k) 4)
    let r : Rec := { tick := s.tick, src := srcOf blkEVT 0, cls := clsGap, alarm := false, level := false, rpt := false,
                     pay := ([0, 1, 2, 3, 4, 6].map c).flatMap (fun n => leBytes n 2), pic := s.tmb.pic.getD 0 }
    postFwd s (recBytes r 0 15 false true false pos)

/-- The manager's view of a worker. -/
def workerRx (s : State) (p : Nat) : WorkerRx := (s.orl.workers.find? (fun w => w.pos = p)).getD ⟨p, 0, [], []⟩
def setWorkerRx (s : State) (w : WorkerRx) : State :=
  { s with orl.workers := w :: s.orl.workers.filter (fun x => x.pos != w.pos) }

/-- Deliver what is next in seq, as far as frames have come (R373). -/
def advanceWorker : Nat → State → Nat → State
  | 0, s, _ => s
  | n + 1, s, p =>
    let w := workerRx s p
    if w.got.contains w.next then
      let s := setWorkerRx s { w with next := (w.next + 1) % 2 ^ 32, got := w.got.filter (fun q => q != w.next),
                                      held := w.held.filter (fun h => h.1 != w.next) }
      let s := match w.held.find? (fun h => h.1 = w.next) with | some h => deliverEvent s p h.2.2 | none => s
      advanceWorker n s p
    else s

/-- How far seq q lies ahead of the next one of a worker. -/
def aheadOf (w : WorkerRx) (q : Nat) : Nat := (q + 2 ^ 32 - w.next) % 2 ^ 32

/-- A numbered frame of a worker has come to the manager. One that lies behind what has been delivered comes too late: its place has been counted
lost, and it is not delivered (R373: ascending seq). -/
def noteWorker (s : State) (f : TxFrame) : State :=
  if !isManager s || f.src = 0 then s else
  let w := workerRx s f.src
  if 2 ^ 31 ≤ aheadOf w f.seq then s else
  let w := { w with got := f.seq :: w.got, held := if f.typ = 6 then w.held ++ [(f.seq, s.tick, f.pay)] else w.held }
  advanceWorker (w.got.length + 1) (setWorkerRx s w) f.src

/-- Receive a frame of a type (R356, R358, R359): one that fails its CRC is counted; a copy of one acted on is a duplicate and goes no
further (DEDUCED, log entry 35); the rest is forwarded and, where it is this device's, acted on. A link hello is taken whatever its dst: it is how a
neighbour of the wrong position shows (R353; DEDUCED, log entry 35). -/
def receive (s : State) (x typ : Nat) (bs : List Byte) (numbered : Bool) (act : State → TxFrame → State) : State :=
  if !portHears s x then s
  else if !frameOk bs then bump s (F.ORL_PORT_CNT_crc x)
  else
    let f := parseFrame bs
    if f.typ != typ then s
    else if numbered && frameMine s f && frameSeen s f then bump s F.ORL_CNT_MISC_dup
    else
      let s := if numbered then forwardFrame s x f else s
      if !frameMine s f && typ != 3 || !frameMine s f && numbered then s else
      let s := if numbered then noteWorker (markSeen s f none) f else s
      act s f

/-- LINK_HELLO_RX (R353, R355). -/
def helloRx (s : State) (x : Nat) (bs : List Byte) : State :=
  receive s x 3 bs false (fun s f =>
    if leAt f.pay 0 1 != 0 then s else
    let pos := leAt f.pay 1 1
    let fl := leAt f.pay 3 1
    let s := wr s (F.ORL_PORT_STAT_nbr_pos x) pos
    if portState s x != poCHECK then s else
    let ok := leAt f.pay 2 1 = nDev s - 1 && (fl % 2 == 1) == isRing s && pos = nbrPos s x && ((fl / 2 % 2 == 0) == (pos == 0))
    if ok then dualStatus (portEnterUp s x)
    else
      let s := portTo s x poMISWIRED
      setOPort s x { oport s x with downAt := s.tick })

/-- LINK_BREAK_RX and LINK_HEAL_RX (R382, R385). -/
def breakRx (s : State) (x : Nat) (bs : List Byte) : State :=
  receive s x 3 bs true (fun s f => match leAt f.pay 0 1 with
    | 1 => learnBreak s (leAt f.pay 4 1 % 64)
    | 2 => learnHeal s
    | _ => s)

/-! Time (R360 to R367) -/

/-- d_x in 1/64 tick (R361). -/
def portDelay (s : State) (x : Nat) : Int :=
  let l := (oport s x).delays
  l.foldl (· + ·) 0 / max l.length 1 + rdS s (F.ORL_PORT_ASYM_asym x)

/-- ORL.PORTx_DELAY, once 16 measurements have completed. -/
def delayStatus (s : State) (x : Nat) : State :=
  if (oport s x).delays.length < 16 then s else wrS s (F.ORL_PORT_DELAY_delay x) (portDelay s x)

/-- DELAY_MEASURE_TIMER (R361). -/
def delayTimer (s : State) (x : Nat) : State :=
  if !portUp s x then s else
  let s := reach s ((oport s x).dlyAt + rd s F.ORL_TIME_dly_ms * Config.tickMs)
  sendOrl s x { ownFrame s 1 false (nbrPos s x) [] with stamp := .dlyReq, seq := 0 }

/-- DLY_REQ_RX (R361): answered at once. -/
def dlyReqRx (s : State) (x : Nat) (bs : List Byte) (stamp : Nat) : State :=
  receive s x 1 bs false (fun s f =>
    sendOrl s x { ownFrame s 2 false (nbrPos s x) (f.pay.take 8 ++ leBytes stamp 8) with stamp := .dlyRsp, seq := 0 })

/-- DLY_RSP_RX (R361): a response that comes later than 1 ms after its request is discarded. Time values wrap at 64 bits (R356). -/
def dlyRspRx (s : State) (x : Nat) (bs : List Byte) (stamp : Nat) : State :=
  receive s x 2 bs false (fun s f =>
    let p := oport s x
    if p.t1 != some (leAt f.pay 0 8) || decide (p.dlyAt + Config.tickMs < s.tick) then s else
    let t1 : Int := leAt f.pay 0 8
    let d : Int := signed 64 (((stamp : Int) - t1 - ((leAt f.pay 16 8 : Int) - leAt f.pay 8 8)) % 2 ^ 64).toNat / 2
    delayStatus (setOPort s x { p with t1 := none, delays := d :: p.delays.take 15 }) x)

/-- DLY_RSP_TIMEOUT (R361): 1 ms after its request has left. -/
def dlyTimeout (s : State) (x : Nat) : State :=
  match (oport s x).t1 with
  | some _ => setOPort (reach s ((oport s x).dlyAt + Config.tickMs)) x { oport s x with t1 := none }
  | none => s

/-- The payload of a BEACON, o still to come (Table 11.4). -/
def beaconPay (pic phase p bdiv : Nat) : List Byte :=
  leBytes pic 8 ++ leBytes phase 4 ++ leBytes p 4 ++ leBytes 0 4 ++ leBytes bdiv 1 ++ List.replicate 11 0#8

/-- ORSAL_BEACON_ENTRY (R362): the next nominal instant of the running period. A BEACON is addressed to every device (R358; DEDUCED, log entry 35). -/
def beaconEntry (s : State) : State :=
  if !isManager s then s else
  match s.tmb.pic with
  | none => s
  | some n =>
    let p := picPeriod s
    let d := rd s F.ORL_TIME_bdiv
    if d = 0 || p = 0 then s else
    let k := match s.orl.bcnAt with | some t => if t < s.tmb.bound then 0 else (t - s.tmb.bound) * d / p + 1 | none => 0
    if d ≤ k then s else
    let t := s.tmb.bound + k * p / d
    let s := reach { s with orl.bcnAt := some t } t
    sendPorts s (upPorts s) { ownFrame s 0 true 0 (beaconPay n (k * p / d) p d) with stamp := .beacon (64 * t) none, seq := 0 }

/-- The preferred timing port of a worker (R365). -/
def prefPort (s : State) : Nat := if isRing s && decide (nDev s - ringPos s < ringPos s) then 0 else 1

/-- The timing port in use; the preferred one before any beacon. -/
def timePort (s : State) : Nat := match rd s F.ORL_STATUS_tsrc with | 1 => 0 | 2 => 1 | _ => prefPort s

/-- Take time from port x (R365). -/
def timeFrom (s : State) (x : Nat) : State :=
  info (bump (wr s F.ORL_STATUS_tsrc (x + 1)) F.ORL_CNT_MISC_switch) blkORL x F.ORL_STATUS_tsrc

/-- A usable beacon's picture number is kept for the first boundary, and compared while outputs run (R33, R364). -/
def beaconPicture (s : State) (e phase n : Nat) : State :=
  let tb : Int := (e : Int) - phase
  let s := { s with tmb.mgr := some (n, tb) }
  if !outputsRun s || picPeriod s = 0 then s else
  match s.tmb.pic with
  | some own =>
    if (n : Int) = own + boundaryDist tb s.tmb.bound (picPeriod s) then wrB s F.ORL_STATUS_pic_mis false
    else alarmSet (errorRec (wrB s F.ORL_STATUS_pic_mis true) blkORL 0 F.ORL_STATUS_pic_mis) almPIC_MIS
  | none => s

/-- While outputs do not run, a worker's boundaries carry the manager's numbers, on the grid the beacon's edge has left (R33, R364). -/
def beaconNumbers (s : State) : State :=
  if outputsRun s || picPeriod s = 0 then s else
  let s := match s.tmb.next with
    | some b => { s with tmb.picNext := numberAt s b }
    | none => s
  match s.tmb.pic, s.tmb.mgr with
  | some _, some (n, t) => { s with tmb.pic := some ((n : Int) + boundaryDist s.tmb.bound t (picPeriod s)).toNat }
  | _, _ => s

/-- An edge of source 5 (R364): where it becomes the alignment edge, the aligned edges are those of phase 0. -/
def beaconEdge (s : State) (e frac phase : Nat) : State :=
  if refSrc s != 5 || !(tmbState s != tmFREE || s.tmb.wide) then s else
  let s := refEdge s e frac
  if s.tmb.align = some (e : Int) && phase != 0 && tRef s != 0 then
    let a : Int := (e : Int) - phase
    let k := phase / tRef s
    let s := { s with tmb := { s.tmb with align := some a, acc := some k, win := k + 1 } }
    stepPhase { s with tmb.presentTo := presentUntil s k } a
  else s

/-- BEACON_RX (R361, R363 to R365). -/
def beaconRx (s : State) (x : Nat) (bs : List Byte) (stamp : Nat) : State :=
  receive s x 0 bs false (fun s f =>
    if !isWorker s || (oport s x).delays.length < 16 then s else
    let p := leAt f.pay 12 4
    let d := leAt f.pay 20 1
    if p != picPeriod s || rd s F.TMB_REF_RATIO_pic_mul != 1 || rd s F.TMB_REF_RATIO_ref_div != d then
      info (wrB s F.ORL_STATUS_tmis true) blkORL x F.ORL_STATUS_tmis
    else
      let s := wrB s F.ORL_STATUS_tmis false
      let n := leAt f.pay 0 8
      let phase := leAt f.pay 8 4
      let e : Int := (stamp : Int) - portDelay s x - signed 32 (leAt f.pay 16 4)
      let gap := 2 * p / max d 1
      let q := oport s x
      let run := match q.lastBcn, q.runBcn with | some t, some r => if s.tick ≤ t + gap then r else s.tick | _, _ => s.tick
      let s := setOPort s x { q with lastBcn := some s.tick, runBcn := some run }
      let s := wr (bump s (F.ORL_PORT_CNT_bcn x)) (F.ORL_PORT_STAT_hops x) f.hops
      let s := if f.src = ringPos s || (isRing s && f.hops = nDev s - 1) then s else
        sendOrl s (1 - x) { f with prec := 0, hops := f.hops + 1, stamp := .beacon e (some (s.tick + 3000)) }
      let s := if rd s F.ORL_STATUS_tsrc = 0 && x = prefPort s then wr s F.ORL_STATUS_tsrc (x + 1)
        else if rd s F.ORL_STATUS_tsrc = 0 && !portUp s (prefPort s) then timeFrom s x
        else if x = prefPort s && timePort s != x && decide (run + Config.tickHz ≤ s.tick) then timeFrom s x else s
      if rd s F.ORL_STATUS_tsrc = x + 1 then
        beaconNumbers (beaconEdge (beaconPicture s (e / 64).toNat phase n) (e / 64).toNat (e % 64).toNat phase) else s)

/-- TIMING_PORT_TIMEOUT (R365): 2 × P / bdiv after the last usable beacon of the port in use, while it is UP. -/
def timingTimeout (s : State) : State :=
  if !isWorker s || !isRing s then s else
  let x := timePort s
  let gap := 2 * picPeriod s / max (rd s F.TMB_REF_RATIO_ref_div) 1
  let s := match (oport s x).lastBcn with | some t => if portUp s x then reach s (t + gap) else s | none => s
  let quiet := fun y => match (oport s y).lastBcn with | some t => decide (t + gap ≤ s.tick) | none => true
  if (!portUp s x || quiet x) && !quiet (1 - x) then timeFrom s (1 - x) else s

/-! Control requests (R368, R369) -/

/-- The tick at which a COMMIT_AT for picture n is carried out: b − lead − 1 (R369); none where its boundary has passed. -/
def commitTick (s : State) (n : Nat) : Option Nat :=
  match s.tmb.next with
  | some b => if n < s.tmb.picNext then none else some (b + (n - s.tmb.picNext) * picPeriod s - rd s F.EXS_BUILD_lead - 1)
  | none => none

/-- Hold a COMMIT_AT for picture n; false where its tick has passed (R369, Table 11.7). -/
def holdCommit (s : State) (n : Nat) : Bool × State :=
  match commitTick s n with
  | some t => if s.tick ≤ t then (true, { s with orl.commits := s.orl.commits ++ [n] }) else (false, s)
  | none => (false, s)

/-- COMMIT_AT_TICK (R369): the earliest COMMIT_AT held. -/
def commitAtTick (s : State) : State :=
  match minBy (fun n : Nat => n) s.orl.commits with
  | some n =>
    let s := { s with orl.commits := s.orl.commits.filter (fun m => m != n) }
    match commitTick s n with
    | some t => commitGo (reach s t)
    | none => s
  | none => s

/-- A request ends (R368): the highest result that applies, and the mask of targets that did not answer OK. -/
def ctlEnd (s : State) (r : CtlReq) (timeout : Bool) : State :=
  let bad := r.bad ++ (if timeout then r.open_ else [])
  let m := bad.foldl (fun a p => maskSet a p true) 0
  let res := if r.nak then 4 else if r.late then 3 else if timeout then 1 else 0
  let s := wr (wr { s with orl.ctl := none } F.ORL_CTL_NAK_LO_mask m) F.ORL_CTL_NAK_HI_mask (m / 2 ^ 32)
  wrB (wr s F.ORL_CTL_STAT_result res) F.ORL_CTL_STAT_running false

/-- Send the request, or send it again with its seq (R368). -/
def ctlSend (s : State) (r : CtlReq) : State :=
  let pay := leBytes r.op 1 ++ leBytes (b2n r.self) 1 ++ leBytes 0 2 ++ leBytes r.addr 4 ++ leBytes r.data 4 ++ leBytes 0 4 ++ leBytes r.pic 8
  sendPorts { s with orl.ctl := some { r with at_ := s.tick } } (upPorts s)
    { ownFrame s 4 r.bcast (if r.bcast then 0 else r.dst) pay with seq := r.seq }

/-- A write of ORL.CTL_CMD with go = 1 and an op (R368). -/
def ctlGo (s : State) (op : Nat) : State :=
  if !isManager s || s.orl.ctl.isSome then s else
  let s := wr s F.ORL_CTL_CMD_op op
  let bc := on s F.ORL_CTL_CMD_bcast
  let dst := rd s F.ORL_CTL_CMD_dst
  let a := rd s F.ORL_CTL_ADDR_addr
  let bad := decide (5 ≤ op) || (bc && (op = 1 || op = 3)) || (op = 4 && !bc) || (!bc && (dst = 0 || decide (nDev s ≤ dst)))
    || ((op = 0 || op = 1) && decide (0x1000000 ≤ a)) || ((op = 2 || op = 3) && (decide (0x7FFFC < a) || a % 4 != 0))
  if bad then wr s F.ORL_CTL_STAT_result 2 else
  let pic := rd64 s F.ORL_CTL_PIC_LO_pic F.ORL_CTL_PIC_HI_pic
  let self := on s F.ORL_CTL_CMD_self
  let r : CtlReq := { op := op, bcast := bc, dst := dst, self := self, addr := a, data := rd s F.ORL_CTL_DATA_data, pic := pic,
                      open_ := if bc then (List.range (nDev s)).filter (fun p => p != 0) else [dst], bad := [], late := false, nak := false,
                      seq := s.orl.seq, tries := rd s F.ORL_CTL_CFG_retries, at_ := s.tick }
  let s := if op = 4 && self then (holdCommit s pic).2 else s
  ctlSend (wrB (nextSeq s) F.ORL_CTL_STAT_running true) r

/-- CTL_RSP_RX (R368). -/
def ctlRspRx (s : State) (x : Nat) (bs : List Byte) : State :=
  receive s x 5 bs true (fun s f =>
    match s.orl.ctl with
    | none => s
    | some r =>
      if leAt f.pay 4 4 != r.seq || !r.open_.contains f.src then s else
      let st := leAt f.pay 0 1
      let s := if (r.op = 1 || r.op = 3) && st = 0 then wr s F.ORL_CTL_DATA_data (leAt f.pay 8 4) else s
      let r := { r with open_ := r.open_.filter (fun p => p != f.src), bad := if st = 0 then r.bad else f.src :: r.bad,
                        late := r.late || st = 3, nak := r.nak || st = 4 }
      if r.open_.isEmpty then ctlEnd s r false else { s with orl.ctl := some r })

/-- CTL_TIMEOUT (R368). -/
def ctlTimeout (s : State) : State :=
  match s.orl.ctl with
  | none => s
  | some r =>
    let s := reach s (r.at_ + rd s F.ORL_CTL_CFG_timeout_us * Config.tickUs)
    if r.tries = 0 then ctlEnd s r true else ctlSend s { r with tries := r.tries - 1 }

/-- EVENT_FRAME_RX (R373). -/
def eventRx (s : State) (x : Nat) (bs : List Byte) : State := receive s x 6 bs true (fun s _ => s)

/-- The EVENT held longest, with the worker it is of. -/
def longestHeld (s : State) : Option (WorkerRx × Nat × Nat × List Byte) :=
  minBy (fun x : WorkerRx × Nat × Nat × List Byte => x.2.2.1) (s.orl.workers.flatMap (fun w => w.held.map (fun h => (w, h))))

/-- EVENT_HOLD_TIMEOUT (R373): the EVENT that has been held longest waits no more: the frames missing before it are counted lost, and it is delivered
after those held that precede it. -/
def eventHoldTimeout (s : State) : State :=
  match longestHeld s with
  | none => s
  | some (w, h) =>
    let s := reach s (h.2.1 + rd s F.ORL_EVT_CFG_hold_us * Config.tickUs)
    let m := aheadOf w h.1
    let n := m - (w.got.filter (fun q => aheadOf w q < m)).length
    let s := warning (bumpN s F.ORL_CNT_EVT_lost n) blkORL 0 F.ORL_CNT_EVT_lost
    let now := sortBy (w.held.filter (fun k => aheadOf w k.1 ≤ m)) (fun x y => aheadOf w x.1 ≤ aheadOf w y.1)
    let s := setWorkerRx s { w with next := (h.1 + 1) % 2 ^ 32, got := w.got.filter (fun q => m < aheadOf w q)
                                    held := w.held.filter (fun k => m < aheadOf w k.1) }
    advanceWorker (w.got.length + 1) (now.foldl (fun s k => deliverEvent s w.pos k.2.2) s) w.pos

/-! Distribution on the manager (R374 to R380) -/

/-- A version descriptor's bytes (Table 4.8). -/
def verBytes (apply : Option (Nat × Nat)) (slot seq token h w by0 bx0 : Nat) : List Byte :=
  leBytes (b2n apply.isSome * 2 ^ 30 + 2 ^ 29 + slot * 2 ^ 16) 4 ++ leBytes seq 4 ++ leBytes token 4
    ++ leBytes ((h - 1) * 2 ^ 24 + (w - 1) * 2 ^ 16 + by0 * 2 ^ 8 + bx0) 4 ++ leBytes (apply.getD (0, 0)).1 8
    ++ leBytes (apply.getD (0, 0)).2 4 ++ leBytes 0 4

/-- Bytes 12 and 13 of a surface's descriptor. -/
def surfFmt (s : State) (f : Nat) : List Byte := lstRd s (surfOff s f + 12) 2

/-- An older version of the rule that has not been accepted is abandoned (R379). -/
def supersede (s : State) (r : Nat) : State :=
  let old := s.orl.dists.filter (fun d => d.rule = some r && !d.accepted)
  let s := { s with orl.dists := s.orl.dists.filter (fun d => !(d.rule = some r && !d.accepted)) }
  old.foldl (fun s _ => warning (bump s F.ORL_CNT_DIST_superseded) blkORL 0 F.ORL_CNT_DIST_superseded) s

/-- Start a distribution: its VER goes out. -/
def startDist (s : State) (d : Dist) : State := sendVer { s with orl := { s.orl with dists := s.orl.dists ++ [d], vid := (s.orl.vid + 1) % 2 ^ 32 } } d

/-- Rule r for a picture of its input whose first block row is being submitted (R375). -/
def ruleStart (n : Nat) (p : InPic) (s : State) (r : Nat) : State :=
  if !on s (F.ORL_DIST_SRC_en r) || rd s (F.ORL_DIST_SRC_inp r) != n then s else
  let rate := rd s (F.ORL_DIST_SRC_rate r)
  let sbx := rd s (F.ORL_DIST_RECT_sbx0 r)
  let sby := rd s (F.ORL_DIST_RECT_sby0 r)
  let w := rd s (F.ORL_DIST_RECT_w_m1 r) + 1
  let h := rd s (F.ORL_DIST_RECT_h_m1 r) + 1
  let u := surf s p.surface
  let early := match s.orl.rulePrev.getD r none with | some t => decide (p.at_ - t < Config.tickHz / max rate 1) | none => false
  if u.prot then warning (bump s F.ORL_CNT_DIST_prot) blkORL 0 F.ORL_CNT_DIST_prot
  else if early || decide (blocksOf p.sig.w < sbx + w) || decide (blocksOf p.sig.h < sby + h) then bump s F.ORL_CNT_DIST_skipped
  else
    let s := supersede s r
    let s := { s with orl.rulePrev := s.orl.rulePrev.set r (some p.at_) }
    let dst := rd s (F.ORL_DIST_SRC_dst r)
    let tok := (s.blq.lastTok.getD n none).getD 0
    let ver := verBytes p.apply (rd s (F.ORL_DIST_SRC_slot r)) p.seq tok h w (rd s (F.ORL_DIST_DST_by0 r)) (rd s (F.ORL_DIST_DST_bx0 r))
      ++ surfFmt s p.surface ++ List.replicate 10 0#8
    startDist s { vid := s.orl.vid, rule := some r, dst := dst, surface := p.surface, ver := ver, blocks := rectPlaneBlocks u sbx sby w h,
                  ready := [], accepted := false, port := distPort s dst, retryAt := none }

/-- INGEST_BLOCK_ROW_START with what it does on a manager (R375). -/
def ingestRowOrl (s : State) (n : Nat) : State :=
  match (inp s n).pic with
  | some p =>
    let s' := ingestRow s n
    if p.row = 0 && isManager s' then (List.range 16).foldl (ruleStart n p) s' else s'
  | none => s

/-- A verified plane block has been written at an address: the rules that carry it send it, where its version does not wait for an answer after BUSY or
NO_SURF (R375, R379). -/
def blockVerified (s : State) (addr : Nat) : State :=
  s.orl.dists.foldl (fun s d =>
    if d.rule.isNone then s else
    match d.blocks.find? (fun b => b.2 = addr) with
    | some b =>
      if d.ready.contains b.1 then s else
      let s := setDist s { d with ready := d.ready ++ [b.1] }
      if d.waits then s else sendBlock s d b.1
    | none => s) s

/-- A distribution ends. -/
def dropDist (s : State) (vid : Nat) : State := { s with orl.dists := s.orl.dists.filter (fun d => d.vid != vid) }

/-- A host transfer reports its result (R380, Table 11.8). -/
def txResult (s : State) (r : Nat) (running : Bool) : State := wrB (wr s F.ORL_TX_STAT_result r) F.ORL_TX_STAT_running running

/-- VER_RSP_RX (R379, R380). -/
def verRspRx (s : State) (x : Nat) (bs : List Byte) : State :=
  receive s x 8 bs true (fun s f =>
    match s.orl.dists.find? (fun d => d.vid = leAt f.pay 0 4 && d.dst = f.src) with
    | none => s
    | some d =>
      let c := leAt f.pay 4 1
      let host := d.rule.isNone
      if c = 0 then
        if d.accepted then s else
        let s := if d.waits then sendReady s d else s
        let s := setDist s { d with accepted := true, retryAt := none, waits := false }
        if host then wr s F.ORL_TX_STAT_result 0 else s
      else if c = 1 || c = 4 then
        if host then
          txResult (wr (wr (dropDist s d.vid) F.ORL_TX_STAT_busy_bx (leAt f.pay 6 1)) F.ORL_TX_STAT_busy_by (leAt f.pay 7 1)) c false
        else setDist s { d with retryAt := some (s.tick + rd s F.ORL_DIST_CFG_retry_us * Config.tickUs), waits := true }
      else if 6 < c then s
      else
        let s := dropDist s d.vid
        let s := if host then txResult s c false else s
        if c = 5 then s else errorRec s blkORL 0 (match d.rule with | some r => F.ORL_DIST_SRC_en r | none => F.ORL_TX_STAT_result))

/-- VER_RETRY_TIMEOUT (R379). -/
def verRetry (s : State) : State :=
  match minBy (fun d : Dist => d.retryAt.getD 0) (s.orl.dists.filter (fun d => d.retryAt.isSome)) with
  | some d =>
    let s := reach s (d.retryAt.getD 0)
    let d := { d with retryAt := none }
    sendVer (setDist s d) d
  | none => s

/-- NACK_RX (R378): the block is sent again on the path in use. -/
def nackRx (s : State) (x : Nat) (bs : List Byte) : State :=
  receive s x 10 bs true (fun s f =>
    match s.orl.dists.find? (fun d => d.vid = leAt f.pay 0 4 && d.dst = f.src) with
    | some d => sendBlock s d (65536 * leAt f.pay 4 1 + 256 * leAt f.pay 6 1 + leAt f.pay 5 1)
    | none => s)

/-- An UP path leads to worker p: its first port is UP and no known break lies on it (R380). -/
def reachable (s : State) (p : Nat) : Bool :=
  [0, 1].any (fun x => portUp s x && !(on s F.ORL_STATUS_brk && pathHas x p (rd s F.ORL_STATUS_brk_pos)) && (isRing s || x = 0))

/-- ORL_TX_GO (R375, R380): the VER goes out and, since the surface's blocks stand in memory, the blocks behind it. -/
def orlTxGo (s : State) : State :=
  if !isManager s || on s F.ORL_TX_STAT_running then s else
  let ws := (List.range 8).map (fun k => rd s (F.ORL_TX_DESC_word k))
  let v := verDesc ws
  let dst := rd s F.ORL_TX_DST_dst
  let u := surf s v.surface
  if verInvalid s v || dst = 0 || nDev s ≤ dst then wr s F.ORL_TX_STAT_result 2
  else if u.prot then wr s F.ORL_TX_STAT_result 7
  else if !reachable s dst then wr s F.ORL_TX_STAT_result 8
  else
    let bl := rectPlaneBlocks u v.sbx0 v.sby0 v.w v.h
    let ver := ws.flatMap (fun w => leBytes w 4) ++ surfFmt s v.surface ++ List.replicate 10 0#8
    let d : Dist := { vid := s.orl.vid, rule := none, dst := dst, surface := v.surface, ver := ver, blocks := bl, ready := bl.map (fun b => b.1),
                      accepted := false, port := distPort s dst, retryAt := none }
    sendReady (startDist (wrB s F.ORL_TX_STAT_running true) d) d

/-! Distribution on a worker (R377, R378) -/

/-- Answer a VER on every UP port. -/
def verRsp (s : State) (vid code : Nat) (busy : Nat × Nat) : State :=
  sendNew s (upPorts s) 8 false 0 (leBytes vid 4 ++ leBytes code 1 ++ [0#8] ++ leBytes busy.1 1 ++ leBytes busy.2 1)

/-- The surface a received version would take: the pool's free surface written longest ago, else its first. -/
def rxChoice (s : State) : Option Nat := poolChoice s (rd s F.ORL_RX_POOL_first) (rd s F.ORL_RX_POOL_count)
def rxSurf (s : State) : Nat := (rxChoice s).getD (rd s F.ORL_RX_POOL_first)

/-- The version that a VER payload describes, on that surface. -/
def rxVer (s : State) (pay : List Byte) : VerDesc :=
  let v := verDesc ((List.range 8).map (fun k => leAt pay (4 + 4 * k) 4))
  { v with surface := rxSurf s, sbx0 := 0, sby0 := 0
           rsv := v.rsv || leAt pay 36 1 / 64 != 0 || leAt pay 37 1 % 4 != 0 || (slice pay 38 10).any (fun b => b != 0#8) }

/-- The state with the surface's size and format described as the payload says. -/
def rxPut (s : State) (pay : List Byte) : State :=
  let v := rxVer s pay
  lstWr s (surfOff s (rxSurf s) + 8) (leBytes (32 * v.w - 1) 2 ++ leBytes (32 * v.h - 1) 2 ++ slice pay 36 2)

/-- Why a VER is not accepted (R377, Table 11.6): its code, with the full block of BUSY; none where it is. -/
def verRefusal (s : State) (pay : List Byte) : Option (Nat × Nat × Nat) :=
  let v := rxVer s pay
  let m := rxPut s pay
  if v.rsv || 20 ≤ v.slot || panelBW s < v.bx0 + v.w || panelBH s < v.by0 + v.h
    || decide (rd s F.ORL_RX_POOL_stride * 2 ^ 20 < surfBytes (surf m (rxSurf s))) then some (2, 0, 0)
  else if s.blq.orsalAcc && earlier v.token s.blq.orsalLast then some (3, 0, 0)
  else if (rxChoice s).isNone then some (4, 0, 0)
  else (firstFull s v).map (fun b => (1, b.1, b.2))

/-- Accept a version: its entries are made, and its plane blocks are awaited. -/
def verAccept (s : State) (pay : List Byte) : State :=
  let v := { rxVer s pay with rsv := false }
  let f := rxSurf s
  let s := stampSurf (rxPut s pay) f
  let i := nextId s
  let left := (rectPlaneBlocks (surf i.2 f) 0 0 v.w v.h).map (fun b => b.1)
  let s := { i.2 with blq := { i.2.blq with orsalAcc := true, orsalLast := v.token } }
  let s := acceptVersion (openWrites s i.1 f left.length) v 6 i.1 false false
  { s with orl.rx := s.orl.rx ++ [{ vid := leAt pay 0 4, id := i.1, surface := f, left := left, fails := [], lastAt := s.tick, total := left.length }] }

/-- VER_RX (R377): a version already accepted is continued, and answered with how it stands (DEDUCED, log entry 36). -/
def verRx (s : State) (x : Nat) (bs : List Byte) : State :=
  receive s x 7 bs true (fun s f =>
    if !isWorker s then s else
    let vid := leAt f.pay 0 4
    match s.orl.rx.find? (fun r => r.vid = vid), s.orl.ended.find? (fun e => e.1 = vid) with
    | some r, _ => verRsp { s with orl.rx := s.orl.rx.map (fun y => if y.vid = r.vid then { y with lastAt := s.tick } else y) } vid 0 (0, 0)
    | none, some e => verRsp s vid e.2 (0, 0)
    | none, none =>
      let s := resolveDue s
      match verRefusal s f.pay with
      | some (c, b) => verRsp (if c = 1 then bump s F.BLQ_BUSY_CNT_orsal else s) vid c b
      | none => verRsp (verAccept s f.pay) vid 0 (0, 0))

/-- A received version ends with COMPLETE or WITHDRAWN. -/
def rxEnd (s : State) (r : RxVer) (code : Nat) : State :=
  verRsp { s with orl := { s.orl with rx := s.orl.rx.filter (fun y => y.vid != r.vid), ended := ((r.vid, code) :: s.orl.ended).take 4096 } } r.vid code (0, 0)

/-- A received version is withdrawn (R378): no block of it is written any more, and its surface reference ends when those written are complete, at
once where none has been. -/
def rxWithdraw (s : State) (r : RxVer) : State :=
  let s := withdraw s r.id
  let s := if r.left.length = r.total then dropWrites s r.id
    else { s with blq.writes := s.blq.writes.map (fun w => if w.id = r.id then { w with left := 0 } else w) }
  errorRec (bump (rxEnd s r 6) F.ORL_CNT_RX_withdrawn) blkORL 0 F.ORL_CNT_RX_withdrawn

/-- BLOCK_RX (R378): to a decode lane as user 3. -/
def blockRx (s : State) (x : Nat) (bs : List Byte) : State :=
  receive s x 9 bs true (fun s f =>
    if !isWorker s then s else
    let vid := leAt f.pay 0 4
    match s.orl.rx.find? (fun r => r.vid = vid) with
    | none => bump s F.ORL_CNT_RX_unknown
    | some r =>
      let key := 65536 * leAt f.pay 4 1 + 256 * leAt f.pay 6 1 + leAt f.pay 5 1
      let s := { s with orl.rx := s.orl.rx.map (fun y => if y.vid = vid then { y with lastAt := s.tick } else y) }
      if !r.left.contains key then s else
      let u := surf s r.surface
      let a := planeBlockAddr u (key / 65536) (key % 256) (key / 256 % 256)
      askDec s [{ user := 3, lst := false, addr := a, depth := u.depth, urg := 0, bytes := some (f.pay.drop 16), due := 0, tag := .orsal vid key }])

/-- A received block's check has ended (R378): `bytes` are the block's. -/
def orsalChecked (s : State) (vid key addr : Nat) (bytes : List Byte) (d : Decoded) : State :=
  match s.orl.rx.find? (fun r => r.vid = vid) with
  | none => s
  | some r =>
    if !r.left.contains key then s else
    match d with
    | .ok _ _ =>
      let s := { gddrPut s 5 addr bytes with
        orl.rx := s.orl.rx.map (fun (y : RxVer) => if y.vid = vid then { y with left := y.left.filter (fun k => k != key) } else y) }
      blockWritten s r.id
    | .err _ =>
      let s := bump s F.ORL_CNT_RX_berr
      let n := (match r.fails.find? (fun e => e.1 = key) with | some e => e.2 | none => 0) + 1
      let r := { r with fails := (key, n) :: r.fails.filter (fun e => e.1 != key) }
      let s := { s with orl.rx := s.orl.rx.map (fun y => if y.vid = vid then r else y) }
      if rd s F.ORL_RX_CFG_retries < n then rxWithdraw s r
      else sendNew s (upPorts s) 10 false 0 (leBytes vid 4 ++ leBytes (key / 65536) 1 ++ leBytes (key % 256) 1 ++ leBytes (key / 256) 1)

/-- ORSAL_BLOCK_CHECKED: the check of the block in a decode lane ends. -/
def orsalBlockChecked (s : State) (lane : Nat) (upset : Bool) : State :=
  match s.cdc.decLanes.getD lane none with
  | some r =>
    match r.tag with
    | .orsal vid key =>
      let x := finishDec s lane r upset
      assignLanes (orsalChecked x.2 vid key r.addr (r.bytes.getD []) x.1)
    | _ => s
  | none => s

/-- RX_STALL_TIMEOUT (R378): a version is incomplete until its COMPLETE goes out, so one whose last block has just been written is withdrawn
too (Table 11.7). -/
def rxStall (s : State) : State :=
  match minBy (fun r : RxVer => r.lastAt) s.orl.rx with
  | some r => rxWithdraw (reach s (r.lastAt + rd s F.ORL_RX_CFG_stall_us * Config.tickUs)) r
  | none => s

/-- ENTRY_COMPLETE, with the COMPLETE a worker sends for a received version (R378). -/
def entryCompleteOrl (s : State) (id : Nat) : State :=
  let done := s.blq.writes.any (fun w => w.id = id && w.left = 0)
  let s := entryComplete s id
  match s.orl.rx.find? (fun r => r.id = id && r.left.isEmpty) with
  | some r => if done then rxEnd s r 5 else s
  | none => s

/-- ORL_CLR_CNT (R389). -/
def orlClrCnt (s : State) : State :=
  let s := clearRegs s [F.ORL_CNT_DIST.off, F.ORL_CNT_RX.off, F.ORL_CNT_EVT.off, F.ORL_CNT_MISC.off, (F.ORL_PORT_CNT 0).off, (F.ORL_PORT_CNT 1).off]
  clearCnt (clearCnt s (F.ORL_PORT_STAT_downs 0)) (F.ORL_PORT_STAT_downs 1)

/-! Meanings -/

def execOrsalBeaconEntry (s : State) : Host.Outcome State Fault Refusal := .next (beaconEntry s)
def execPortTrainDone (x : Bool) (s : State) : Host.Outcome State Fault Refusal := .next (portTrainDone s (portNo x))
def execPortLinkLoss (x : Bool) (s : State) : Host.Outcome State Fault Refusal := .next (dualStatus (portLoss s (portNo x)))
def execPortRetryTimeout (x : Bool) (s : State) : Host.Outcome State Fault Refusal := .next (portRetry s (portNo x))
def execLinkHelloTimer (x : Bool) (s : State) : Host.Outcome State Fault Refusal := .next (helloTimer s (portNo x))
def execLinkHelloRx (x : Bool) (frame : List Byte) (s : State) : Host.Outcome State Fault Refusal := .next (helloRx s (portNo x) frame)
def execLinkBreakRx (x : Bool) (frame : List Byte) (s : State) : Host.Outcome State Fault Refusal := .next (breakRx s (portNo x) frame)
def execLinkHealRx (x : Bool) (frame : List Byte) (s : State) : Host.Outcome State Fault Refusal := .next (breakRx s (portNo x) frame)
def execDelayMeasureTimer (x : Bool) (s : State) : Host.Outcome State Fault Refusal := .next (delayTimer s (portNo x))
def execDlyReqRx (x : Bool) (frame : List Byte) (stamp : Nat) (s : State) : Host.Outcome State Fault Refusal :=
  .next (dlyReqRx s (portNo x) frame stamp)
def execDlyRspRx (x : Bool) (frame : List Byte) (stamp : Nat) (s : State) : Host.Outcome State Fault Refusal :=
  .next (dlyRspRx s (portNo x) frame stamp)
def execDlyRspTimeout (x : Bool) (s : State) : Host.Outcome State Fault Refusal := .next (dlyTimeout s (portNo x))
def execBeaconRx (x : Bool) (frame : List Byte) (stamp : Nat) (s : State) : Host.Outcome State Fault Refusal :=
  .next (beaconRx s (portNo x) frame stamp)
def execTimingPortTimeout (s : State) : Host.Outcome State Fault Refusal := .next (timingTimeout s)
def execCommitAtTick (s : State) : Host.Outcome State Fault Refusal := .next (commitAtTick s)
def execCtlRspRx (x : Bool) (frame : List Byte) (s : State) : Host.Outcome State Fault Refusal := .next (ctlRspRx s (portNo x) frame)
def execCtlTimeout (s : State) : Host.Outcome State Fault Refusal := .next (ctlTimeout s)
def execEventFrameRx (x : Bool) (frame : List Byte) (s : State) : Host.Outcome State Fault Refusal := .next (eventRx s (portNo x) frame)
def execEventHoldTimeout (s : State) : Host.Outcome State Fault Refusal := .next (eventHoldTimeout s)
def execVerRx (x : Bool) (frame : List Byte) (s : State) : Host.Outcome State Fault Refusal := .next (verRx s (portNo x) frame)
def execVerRspRx (x : Bool) (frame : List Byte) (s : State) : Host.Outcome State Fault Refusal := .next (verRspRx s (portNo x) frame)
def execVerRetryTimeout (s : State) : Host.Outcome State Fault Refusal := .next (verRetry s)
def execBlockRx (x : Bool) (frame : List Byte) (s : State) : Host.Outcome State Fault Refusal := .next (blockRx s (portNo x) frame)
def execOrsalBlockChecked (lane : Fin 16) (upset : Bool) (s : State) : Host.Outcome State Fault Refusal :=
  .next (orsalBlockChecked s lane.val upset)
def execNackRx (x : Bool) (frame : List Byte) (s : State) : Host.Outcome State Fault Refusal := .next (nackRx s (portNo x) frame)
def execRxStallTimeout (s : State) : Host.Outcome State Fault Refusal := .next (rxStall s)
def execOrsalFrameSent (x : Bool) (s : State) : Host.Outcome State Fault Refusal := .next (frameSent s (portNo x))
def execEntryComplete (id : Nat) (s : State) : Host.Outcome State Fault Refusal := .next (entryCompleteOrl s id)
def execIngestBlockRowStart (n : Fin 5) (s : State) : Host.Outcome State Fault Refusal := .next (ingestRowOrl s n.val)
def execEventRecordCommit (s : State) : Host.Outcome State Fault Refusal := .next (evtPump (eventCommit s))
def execSquallWindowEnd (src : BitVec 12) (s : State) : Host.Outcome State Fault Refusal := .next (evtPump (squallWindowEnd s src))

end Sys2Proof.Machine
end

