-- ==== Sys2Proof/Machine/Mem.lean ====
section
/-!
DEFINITION. The frame memory and the local store (ch. 12, R390 to R411): what a GDDR6 burst's EDC and ECC checks leave, the patrol
scrub, retraining, local-store accesses with SEC-DED and bank conflicts, and collisions of the mailbox's two ports.
-/

namespace Sys2Proof.Machine

/-- Channels trained and in use. -/
def chanInUse (s : State) (c : Nat) : Bool := bitOf s F.MEM_STATUS_trained c

/-! Retraining (R393) -/

/-- The channel in use that was retrained longest ago, the lowest of equals (log entry 33). -/
def slotChannel (s : State) : Option Nat := minBy (fun c => s.mem.trainAt.getD c 0) ((List.range 8).filter (chanInUse s))

/-- Write scans of the calendar: those known, and those of the next bank. -/
def allScans (s : State) : List Pass := allPasses s ++ (match s.exs.next with | some b => b.passes | none => [])

/-- The first vertical blanking point at or after `from_` that opens a span of at least `len` ticks between two write scans. While the
next bank is not built, its first scan lies at or after the boundary. -/
def blankingSlot (s : State) (from_ len : Nat) : Option Nat :=
  let ps := allScans s
  let next := fun (p : Pass) => match minBy id ((ps.filter (fun o => decide (p.start < o.start))).map (fun o => o.start)) with
    | some t => t
    | none => s.tmb.next.getD 0
  minBy id ((ps.filter (fun p => decide (from_ ≤ p.start + p.dur) && decide (p.start + p.dur + len ≤ next p))).map (fun p => p.start + p.dur))

/-- RETRAINING_SLOT (R393): once a channel's period has passed it is retrained in the first span that holds a slot, one channel at a time; its
overdue bit clears, and requests to it wait until the slot ends. -/
def retrainingSlot (s : State) : State :=
  if !outputsRun s then s else
  match slotChannel s with
  | none => s
  | some c =>
    let len := 1500 * rd s F.MEM_TRAIN_slot
    let from_ := max (max s.tick (s.mem.trainAt.getD c 0 + rd s F.MEM_TRAIN_period_ms * Config.tickMs)) ((s.mem.slot.map (fun x => x.2)).getD 0)
    match blankingSlot s from_ len with
    | none => s
    | some v =>
      let s := reach s v
      setBitOf { s with mem := { s.mem with trainAt := s.mem.trainAt.set c s.tick, slot := some (c, s.tick + len) } } F.MEM_STATUS_overdue c false

/-- RETRAIN_OVERDUE (R393): a channel in use has had no slot for max_ms beyond its period. The time counts from its last slot or from
panel power-on, whichever is later (DEDUCED, log entry 38). -/
def retrainOverdue (s : State) (c : Nat) : State :=
  if !outputsRun s || !chanInUse s c || bitOf s F.MEM_STATUS_overdue c then s else
  let from_ := max (s.mem.trainAt.getD c 0) (s.psq.onAt.getD 0)
  let s := reach s (from_ + (rd s F.MEM_TRAIN_period_ms + rd s F.MEM_TRAIN_max_ms) * (Config.tickHz / 1000))
  warning (setBitOf s F.MEM_STATUS_overdue c true) blkMEM c F.MEM_STATUS_overdue

/-! The memory scheduler (R399 to R401) -/

/-- The due tick of the scan-out fetch a waiting read is for. -/
def memDue (s : State) (m : MemReq) : Nat := match s.cdc.decLanes.getD m.lane none with | some r => r.due | none => 0

/-- The waiting reads of a channel in the order in which they are taken: by class, the scan-out fetches of one urgency by their due ticks, others by
arrival (R399). -/
def memOrder (s : State) (c : Nat) : List MemReq :=
  let here := s.mem.waiting.filter (fun m => match s.cdc.decLanes.getD m.lane none with
    | some r => memChan s r.addr == c
    | none => false)
  (List.range 9).flatMap (fun k =>
    let l := here.filter (fun m => memClass s m == k)
    if k ∈ [1, 3, 4, 6] then sortBy l (fun x y => decide (memDue s x ≤ memDue s y)) else l)

/-- The lane reads a block that holds address `a`. -/
def laneReads (s : State) (lane a : Nat) : Bool :=
  match s.cdc.decLanes.getD lane none with
  | some r => r.bytes.isNone && !r.lst && decide (r.addr ≤ a) && decide (a < r.addr + 16 + rawLen (depthBits r.depth))
  | none => false

/-- A burst of channel `c` is served, at `a`: not before the end of the channel's retraining slot, and the refresh issued ahead of it is
over (R393, R401). The read it belongs to, first in the scheduler's order, waits no longer. -/
def memServe (s : State) (a : Nat) : State :=
  let c := memChan s a
  let s := match s.mem.slot with
    | some (d, t) => if c = d then reach s t else s
    | none => s
  let s := { s with mem.refresh := maskSet s.mem.refresh c false }
  match (memOrder s c).find? (fun m => laneReads s m.lane a) with
  | some m => { s with mem.waiting := eraseOne m s.mem.waiting }
  | none => s

/-- REQUEST_PROMOTION (R400): the first read of class 5 to 7 that has waited age_us joins the back of class 2. -/
def requestPromotion (s : State) : State :=
  match s.mem.waiting.find? (fun m => decide (5 ≤ memClass s m) && decide (memClass s m ≤ 7)) with
  | none => s
  | some m =>
    let s := reach s (m.at_ + rd s F.MEM_SCHED_age_us * 1500)
    { s with mem.waiting := eraseOne m s.mem.waiting ++ [{ m with promoted := true }] }

/-- REFRESH_LIMIT (R401): the refresh of a channel in use goes ahead of every class; nothing of the channel is taken in it. Which channel has
reached its limit is a free value. -/
def refreshLimit (s : State) : State :=
  let cs := (List.range 8).filter (chanInUse s)
  if cs.isEmpty then s else
  let f := freeBelow s 16 cs.length
  { f.2 with mem.refresh := maskSet s.mem.refresh (cs.getD f.1 0) true }

/-- The read that the scheduler takes next on a channel: none in a refresh or a retraining slot of the channel. -/
def memNext (s : State) (c : Nat) : Option MemReq :=
  if maskHas s.mem.refresh c || (match s.mem.slot with | some (d, t) => decide (d = c) && decide (s.tick < t) | none => false) then none
  else (memOrder s c).head?

/-- A granule that a read finds uncorrectable is counted and recorded (R394). -/
def uncRecord (s : State) (cls a : Nat) : State :=
  alarmSet (errorRec (memErr (bump s F.MEM_ECC_CNT_uncorrected) 1 cls a) blkMEM 0 F.MEM_ECC_CNT_uncorrected) almG6_UNC

/-- A granule is found uncorrectable (R394). -/
def granuleUnc (s : State) (cls a : Nat) : State :=
  uncRecord { s with mem.gpoison := sset false s.mem.gpoison (a / 64) true } cls a

/-- The ECC check of a granule read: a stored uncorrectable granule is uncorrectable whatever the read finds (R394). -/
def eccCheck (s : State) (cls a : Nat) (e : Ecc) : State :=
  if sget false s.mem.gpoison (a / 64) then granuleUnc s cls a else
  match e with
  | .clean => s
  | .single => bump s F.MEM_ECC_CNT_corrected
  | .double => granuleUnc s cls a

/-- Repeats of a burst: each increments the counter, up to the limit (R395). -/
def edcRepeats (s : State) (misses : Nat) : State := bumpN s F.MEM_EDC_CNT_retries (min misses (rd s F.MEM_EDC_retries))

/-- G6_READ_DONE (R391, R394, R395). A read whose repeats are spent is delivered poisoned: to the decode lanes that read the address, else to the
requests of its class, until another burst of the granule comes through (DESIGN CHOICE, log entry 37). -/
def g6ReadDone (s : State) (cls a misses : Nat) (e : Ecc) : State :=
  if memCap s ≤ a then memReach s cls a 1 else
  let s := memServe s a
  let spent := decide (rd s F.MEM_EDC_retries < misses)
  let s := edcRepeats s misses
  if spent then
    let ls := (List.range 16).filter (fun l => laneReads s l a)
    let s := { s with mem := { s.mem with bad := s.mem.bad.filter (fun l => !ls.contains l) ++ ls
                                          spent := if ls.isEmpty then sset false s.mem.spent (16 * (a / 64) + cls) true else s.mem.spent } }
    memErr (bump s F.MEM_EDC_CNT_failed) 2 cls a
  else eccCheck { s with mem.spent := sset false s.mem.spent (16 * (a / 64) + cls) false } cls a e

/-- G6_WRITE_DONE (R391, R395): a burst whose repeats are spent is treated as completed. -/
def g6WriteDone (s : State) (cls a misses : Nat) : State :=
  if memCap s ≤ a then memReach s cls a 1 else
  let s := memServe s a
  let spent := decide (rd s F.MEM_EDC_retries < misses)
  let s := edcRepeats s misses
  if spent then errorRec (memErr (bump s F.MEM_EDC_CNT_failed) 3 cls a) blkMEM 0 F.MEM_EDC_CNT_failed [(a, 5)] else s

/-- SCRUB_READ (R398): the next granule in address order. Where a user's write has been accepted since the scrub read the granule (`written`), what the
read found is recorded and the user's content stands. A pass is late by its time from start to end (DEDUCED, log entry 78). -/
def scrubRead (s : State) (e : Ecc) (written : Bool) : State :=
  if !on s F.MEM_SCRUB_en then s else
  let a := 64 * s.mem.scrubPos
  let s := if !written then eccCheck s 8 a e else match e with
    | .clean => s
    | .single => bump s F.MEM_ECC_CNT_corrected
    | .double => uncRecord s 8 a
  if a + 64 < memCap s then { s with mem.scrubPos := s.mem.scrubPos + 1 }
  else
    let late := decide (rd s F.MEM_SCRUB_period_h * 3600 * Config.tickHz < s.tick - s.mem.scrubAt)
    wrB (bump { s with mem := { s.mem with scrubPos := 0, scrubAt := s.tick } } F.MEM_SCRUB_STAT_passes) F.MEM_SCRUB_STAT_late late

/-! Local store (R402 to R405) -/

/-- The conflict counter of a master (R404). -/
def conflictOf (m : Nat) : Fld := if m % 2 = 1 then F.MEM_LS_CONF_hi (m / 2) else F.MEM_LS_CONF_lo (m / 2)

/-- The place of a master in a bank's order after `prev` was served (R404): master 0 first, the others round robin. -/
def arbRank (prev m : Nat) : Nat := if m = 0 then 0 else 1 + (m + 7 - prev) % 8

/-- The bank serves up to `n` of its accesses, one a tick. -/
def arbServe : Nat → BankArb → BankArb
  | 0, b => b
  | n + 1, b => match minBy (fun e : Nat × Bool => arbRank b.prev e.1) b.wait with
    | some e => arbServe n { b with prev := if e.1 = 0 then b.prev else e.1, wait := eraseOne e b.wait }
    | none => b

/-- An access of a master to a bank (R404): each access that is not served in the tick of its request counts once. An access across a line
boundary takes two ticks (R405). `late`: it is served late for an access of which no command tells. -/
def arbitrate (s : State) (m off len : Nat) (late : Bool) : State :=
  let k := off / 0x40000
  let b := sget BankArb.reset s.mem.arbs k
  let b := arbServe (min (s.tick - b.tick) b.wait.length) b
  let two := if off % 16 + len ≤ 16 then [] else [(m, true)]
  let late := late && m != 0
  let wait := b.wait ++ [(m, late)]
  let first := (minBy (fun e : Nat × Bool => arbRank b.prev e.1) wait).getD (m, late)
  let due := eraseOne first wait
  let lateOnes := (if late then [m] else []) ++ (due.filter (fun e => !e.2)).map (fun e => e.1)
  let wait := first :: due.map (fun e => (e.1, true)) ++ two
  lateOnes.foldl (fun s m => bump s (conflictOf m)) { s with mem.arbs := sset BankArb.reset s.mem.arbs k { b with tick := s.tick, wait := wait } }

/-- The lines of an access that starts at tick t: one, or the lower line and then, a tick later, the upper (R405). -/
def lsLines (t off len : Nat) (write : Bool) (req : Option (Nat × Nat)) : List MbxAcc :=
  let n := 16 - off % 16
  if len ≤ n then [⟨t, t, off, len, write, req⟩]
  else [⟨t, t, off, n, write, req⟩, ⟨t, t + 1, off + n, len - n, write, req⟩]

/-- Two lines of the two ports that touch one 8-byte word in one tick, at least one of them a write (R407). -/
def mbxCollide (x y : MbxAcc) : Bool :=
  decide (x.tick = y.tick) && (x.write || y.write) && decide (x.off / 8 ≤ (y.off + y.len - 1) / 8) && decide (y.off / 8 ≤ (x.off + x.len - 1) / 8)

/-- A byte at an offset lies in a word that a line touches. -/
def inWords (x : MbxAcc) (o : Nat) : Bool := decide (x.off / 8 ≤ o / 8) && decide (o / 8 ≤ (x.off + x.len - 1) / 8)

/-- Make bytes of the words that lie in a line's words undefined (R407): free values. -/
def undefWords (s : State) (x : MbxAcc) (off : Nat) (bs : List Byte) : List Byte × State :=
  (bs.zip (List.range bs.length)).foldl (fun (a : List Byte × State) e =>
    if inWords x (off + e.2) then
      let f := freeBelow a.2 9 256
      (a.1 ++ [BitVec.ofNat 8 f.1], f.2)
    else (a.1 ++ [e.1], a.2)) ([], s)

/-- The line's blocks of a frame with its bytes replaced by others of the same length (R352): data block k carries bytes 8 k on. -/
def relay (bs : List Byte) : Nat → List LineBlk → List LineBlk
  | _, [] => []
  | k, b :: l => if b.sync = 1 then { b with bytes := slice bs (8 * k) 8 } :: relay bs (k + 1) l else b :: relay bs k l

/-- A CTL_RSP that port p is sending for request `seq` answers NAK (R408). -/
def nakSending (p : OrlPort) (seq : Nat) : OrlPort :=
  match p.sending with
  | some bs =>
    let f := parseFrame bs
    if f.typ = 5 && leAt f.pay 4 4 = seq then
      let b := frameBytes f (leBytes 4 1 ++ f.pay.drop 1)
      { p with sending := some b, line := relay b 0 p.line }
    else p
  | none => p

/-- The answer of a forwarded access becomes NAK where its frame has not left (R408): the stored answer, the frames that wait, and one that is being
sent. -/
def nakAnswer (s : State) (req : Option (Nat × Nat)) : State :=
  match req with
  | none => s
  | some (src, seq) =>
    { s with orl.seen := s.orl.seen.map (fun e => if e.1 = src && e.2.1 = seq then (e.1, e.2.1, e.2.2.map (fun a => (4, a.2))) else e)
             orl.ports := s.orl.ports.map (fun (e : Nat × OrlPort) => (e.1, { nakSending e.2 seq with queue := e.2.queue.map (fun (f : TxFrame) =>
               if f.typ = 5 && decide (leAt f.pay 4 4 = seq) then { f with pay := leBytes 4 1 ++ f.pay.drop 1 } else f) })) }

/-- Record a collision of port A's line `x` and port B's `y` (R408): the port whose access started later is the later port, B where both
started in one tick. -/
def mbxRecord (s : State) (x y : MbxAcc) : State :=
  if y.start < x.start then
    let s := bump (hwSet (hwSet s F.MEM_MBX_STAT_coll_a 0) F.GEN_MGT_STAT_mbx_coll 0) F.MEM_MBX_STAT_cnt_a
    { s with mem.busyTo := some (max (s.mem.busyTo.getD 0) (x.tick + 1500)) }
  else nakAnswer (bump (hwSet s F.MEM_MBX_STAT_coll_b 0) F.MEM_MBX_STAT_cnt_b) y.req

/-- Bytes of a write by port A (`b` false) or B that stand: where port B's write of the same tick overlaps, B's bytes do (R407). -/
def mbxPut (s : State) (b : Bool) (x : MbxAcc) (bs : List Byte) : State :=
  lstWr s x.off ((bs.zip (lstRd s x.off bs.length)).zip (List.range bs.length) |>.map (fun e =>
    let o := x.off + e.2
    if !b && s.mem.mbxB.any (fun y => y.write && decide (y.tick = x.tick) && decide (y.off ≤ o) && decide (o < y.off + y.len)) then e.1.2
    else e.1.1))

/-- Collisions of a new access of port A or B with the other port's last access: recorded, and where this access writes, what the other
port read of the words is undefined. -/
def mbxMeet (s : State) (b : Bool) (lines : List MbxAcc) : State :=
  lines.foldl (fun s x => (if b then s.mem.mbxA else s.mem.mbxB).foldl (fun s y =>
    if !mbxCollide x y then s else
    let s := if b then mbxRecord s y x else mbxRecord s x y
    if x.write && !y.write then
      let r := undefWords s x s.mem.lsOff s.mem.lsData
      let s := { r.2 with mem.lsData := r.1 }
      match b, s.host.readOff with
      | true, some o => let r := undefWords s x o s.host.readData; { r.2 with host.readData := r.1 }
      | _, _ => s
    else s) s) s

/-- What an access of a read finds: its words' SEC-DED state, `e` for the first (R403). -/
def lsCheck (s : State) (strip : Bool) (off len : Nat) (e : Ecc) : State :=
  let s := match e with
    | .clean => s
    | .single => if sget false s.mem.lpoison (off / 8) && !strip then s else bump s F.MEM_LS_ECC_corrected
    | .double => if strip then wordUnc s true (off / 8 * 8) else { s with mem.lpoison := sset false s.mem.lpoison (off / 8) true }
  if strip then s else
  (List.range ((off + len + 7) / 8 - off / 8)).foldl (fun s i =>
    if sget false s.mem.lpoison (off / 8 + i) then wordUnc s false (8 * (off / 8 + i)) else s) s

/-- An access of 1 to 16 bytes to the local store by a master (R402 to R408), for the request `req` of the Orsal link, `dt` ticks after the command's:
the pieces of one host request follow each other, a tick apart (R406). A read leaves its bytes in `mem.lsData`. An access across a bank boundary, or of
the mailbox by a master that has no port, is refused. -/
def lsPiece (s : State) (master off : Nat) (write : Bool) (data : List Byte) (len : Nat) (e : Ecc) (req : Option (Nat × Nat)) (dt : Nat) : State :=
  let n := if write then data.length else len
  if n = 0 then s else
  if off / 0x40000 != (off + n - 1) / 0x40000 || (mbxBase ≤ off && master != 5 && master != 6) then
    let s := errorRec s blkMEM 0 F.MEM_LS_ERR_ADDR_offset
    if write then s else { s with mem := { s.mem with lsOff := off, lsData := List.replicate n 0#8, lsEp := false } }
  else
  let s := if write then s else lsCheck s false off n e
  let lines := if mbxBase ≤ off then lsLines (s.tick + dt) off n write req else []
  let b := master == 6
  let s := if write then (if lines.isEmpty then lstKeep s off data else s)
    else { s with mem := { s.mem with lsOff := off, lsData := lstRd s off n, lsEp := wordsPoisoned s off n } }
  if lines.isEmpty then s else
  let s := lines.foldl (fun s x =>
    if write then mbxPut s b x ((data.drop (x.off - off)).take x.len)
    else (if b then s.mem.mbxA else s.mem.mbxB).foldl (fun s y => if mbxCollide x y then
      (let r := undefWords s y off s.mem.lsData; { r.2 with mem.lsData := r.1 }) else s) s) s
  let s := mbxMeet s b lines
  if b then { s with mem.mbxB := lines } else { s with mem.mbxA := if dt = 0 then lines else s.mem.mbxA ++ lines }

/-- An access at the command's own tick. -/
def lsAccess (s : State) (master off : Nat) (write : Bool) (data : List Byte) (len : Nat) (e : Ecc) (req : Option (Nat × Nat)) : State :=
  lsPiece s master off write data len e req 0

/-- A strip-buffer access: its SEC-DED counts (R403). The buffers' content is the scan-out's fetched blocks. -/
def stripAccess (s : State) (off : Nat) (e : Ecc) : State := lsCheck s true off 0 e

/-- LS_ACCESS (R402 to R408). -/
def lsRequest (s : State) (r : LsReq) : State :=
  let n := if r.write then (r.data.take 16).length else min r.len.val 16
  let s := if r.strip || n = 0 then s else arbitrate s r.master.val r.off.toNat n r.late
  if r.strip then (if r.write then s else stripAccess s r.off.toNat r.ecc)
  else lsAccess s r.master.val r.off.toNat r.write (r.data.take 16) (min r.len.val 16) r.ecc none

/-- MBX_BUSY_RELEASE (R408): not before the 1,500 ticks have passed; the release of a longer management-port transaction is the command's own tick. -/
def mbxBusyRelease (s : State) : State :=
  match s.mem.busyTo with
  | some t => reach { s with mem.busyTo := none } t
  | none => s

/-- MBX_BUSY_N is driven low (R408). -/
def mbxBusyLow (s : State) : Bool := s.mem.busyTo.isSome

/-- MEM_CLR_CNT (R411). -/
def memClrCnt (s : State) : State :=
  let s := clearRegs s ([F.MEM_ECC_CNT.off, F.MEM_EDC_CNT.off, F.MEM_LS_ECC.off] ++ (List.range 4).map (fun k => (F.MEM_LS_CONF k).off))
  wrB (clearCnt (clearCnt s F.MEM_MBX_STAT_cnt_a) F.MEM_MBX_STAT_cnt_b) F.MEM_STATUS_wr_ign false

/-- Step 6 of start-up has trained the channels (R391, R392): the trained set, the capacity, the start of retraining and scrub periods. -/
def memTrained (s : State) (mask : Nat) : State :=
  let s := wr s F.MEM_STATUS_trained mask
  let s := wr (wr s F.MEM_CAP_LO_bytes (memCap s)) F.MEM_CAP_HI_bytes (memCap s / 2 ^ 32)
  { s with mem := { s.mem with trainAt := List.replicate 8 s.tick, scrubPos := 0, scrubAt := s.tick } }

/-! Meanings -/

def execRetrainingSlot (s : State) : Host.Outcome State Fault Refusal := .next (retrainingSlot s)
def execG6ReadDone (cls : Fin 9) (addr : BitVec 40) (misses : Fin 17) (e : Ecc) (s : State) : Host.Outcome State Fault Refusal :=
  .next (g6ReadDone s cls.val addr.toNat misses.val e)
def execG6WriteDone (cls : Fin 9) (addr : BitVec 40) (misses : Fin 17) (s : State) : Host.Outcome State Fault Refusal :=
  .next (g6WriteDone s cls.val addr.toNat misses.val)
def execScrubRead (e : Ecc) (written : Bool) (s : State) : Host.Outcome State Fault Refusal := .next (scrubRead s e written)
def execRetrainOverdue (c : Fin 8) (s : State) : Host.Outcome State Fault Refusal := .next (retrainOverdue s c.val)
def execRefreshLimit (s : State) : Host.Outcome State Fault Refusal := .next (refreshLimit s)
def execRequestPromotion (s : State) : Host.Outcome State Fault Refusal := .next (requestPromotion s)
def execLsAccess (r : LsReq) (s : State) : Host.Outcome State Fault Refusal := .next (lsRequest s r)
def execMbxBusyRelease (s : State) : Host.Outcome State Fault Refusal := .next (mbxBusyRelease s)

end Sys2Proof.Machine
end

