-- ==== Sys2Proof/Machine/P384.lean ====
section
/-!
DEFINITION. ECDSA and ECDH over NIST P-384 (R416, R478, R484, R486). The manual names the algorithms; the curve and the definitions
are those of FIPS 186-5 and SP 800-56A (PRESUMED, log entry 40).
-/

namespace Sys2Proof.Machine

/-- The field prime, the order of the base point, and the curve's b (a = -3). -/
def pP : Nat := 0xFFFFFFFFFFFFFFFFFFFFFFFFFFFFFFFFFFFFFFFFFFFFFFFFFFFFFFFFFFFFFFFEFFFFFFFF0000000000000000FFFFFFFF
def pN : Nat := 0xFFFFFFFFFFFFFFFFFFFFFFFFFFFFFFFFFFFFFFFFFFFFFFFFC7634D81F4372DDF581A0DB248B0A77AECEC196ACCC52973
def pB : Nat := 0xB3312FA7E23EE7E4988E056BE3F82D19181D9C6EFE8141120314088F5013875AC656398D8A2ED19D2A85C8EDD3EC2AEF
/-- The base point. -/
def pG : Nat × Nat :=
  (0xAA87CA22BE8B05378EB1C71EF320AD746E1D3B628BA79B9859F741E082542A385502F25DBF55296C3A545E3872760AB7,
   0x3617DE4A96262C6F5D9E98BF9292DC29F8F41DBD289A147CE9DA3113B5F0B8C00A60B1CE1D7E819D7A431D7C90EA0E5F)

/-- x to the power e modulo m by the low `fuel` bits of e. -/
def powMod (m : Nat) : Nat → Nat → Nat → Nat → Nat
  | 0, _, _, acc => acc
  | fuel + 1, x, e, acc => powMod m fuel (x * x % m) (e / 2) (if e % 2 = 1 then acc * x % m else acc)

/-- The inverse modulo a prime m below 2^384. -/
def invMod (m x : Nat) : Nat := powMod m 384 (x % m) (m - 2) 1

/-- A point in Jacobian coordinates; z = 0 is the point at infinity. -/
structure Jac where
  x : Nat
  y : Nat
  z : Nat
  deriving DecidableEq, Repr

/-- a - b modulo p, for a and b below p. -/
def subP (a b : Nat) : Nat := (a + pP - b) % pP

/-- Doubling (a = -3). -/
def jDouble (p : Jac) : Jac :=
  if p.z = 0 || p.y = 0 then ⟨1, 1, 0⟩ else
  let zz := p.z * p.z % pP
  let m := 3 * subP p.x zz * ((p.x + zz) % pP) % pP
  let yy := p.y * p.y % pP
  let s := 4 * p.x * yy % pP
  let x := subP (m * m % pP) (2 * s % pP)
  ⟨x, subP (m * subP s x % pP) (8 * yy * yy % pP), 2 * p.y * p.z % pP⟩

/-- Addition. -/
def jAdd (p q : Jac) : Jac :=
  if p.z = 0 then q else if q.z = 0 then p else
  let pz := p.z * p.z % pP
  let qz := q.z * q.z % pP
  let u1 := p.x * qz % pP
  let u2 := q.x * pz % pP
  let s1 := p.y * qz * q.z % pP
  let s2 := q.y * pz * p.z % pP
  if u1 = u2 then (if s1 = s2 then jDouble p else ⟨1, 1, 0⟩) else
  let h := subP u2 u1
  let r := subP s2 s1
  let hh := h * h % pP
  let hhh := h * hh % pP
  let v := u1 * hh % pP
  let x := subP (subP (r * r % pP) hhh) (2 * v % pP)
  ⟨x, subP (r * subP v x % pP) (s1 * hhh % pP), p.z * q.z * h % pP⟩

/-- The low `fuel` bits of k times a point, added to `acc`. -/
def jMul : Nat → Nat → Jac → Jac → Jac
  | 0, _, _, acc => acc
  | fuel + 1, k, p, acc => jMul fuel (k / 2) (jDouble p) (if k % 2 = 1 then jAdd acc p else acc)

/-- The affine point; none at infinity. -/
def affine (p : Jac) : Option (Nat × Nat) :=
  if p.z = 0 then none else
  let i := invMod pP p.z
  some (p.x * i * i % pP, p.y * i * i % pP * i % pP)

/-- k times a point. -/
def ecMul (k : Nat) (p : Nat × Nat) : Jac := jMul 384 k ⟨p.1, p.2, 1⟩ ⟨1, 1, 0⟩

/-- A point is on the curve. -/
def onCurve (p : Nat × Nat) : Bool := decide (p.1 < pP) && decide (p.2 < pP)
  && decide ((p.2 * p.2) % pP = (p.1 * p.1 * p.1 + (pP - 3) * p.1 + pB) % pP)

/-- ECDSA verification of a 48-byte digest (as a number). -/
def ecdsaVerify (q : Nat × Nat) (e r s : Nat) : Bool :=
  if !(decide (1 ≤ r) && decide (r < pN) && decide (1 ≤ s) && decide (s < pN) && onCurve q) then false else
  let w := invMod pN s
  match affine (jAdd (ecMul (e * w % pN) pG) (ecMul (r * w % pN) q)) with
  | some p => decide (p.1 % pN = r)
  | none => false

/-- ECDSA signature of a digest with private key d and per-signature secret k. -/
def ecdsaSign (d k e : Nat) : Nat × Nat :=
  match affine (ecMul k pG) with
  | some p => (p.1 % pN, invMod pN k * (e + p.1 % pN * d) % pN)
  | none => (0, 0)

/-- The public key of a private key. -/
def ecPublic (d : Nat) : Nat × Nat := (affine (ecMul d pG)).getD (0, 0)

/-- The x coordinate of the ECDH shared point, 48 bytes big-endian; none for a point not on the curve. -/
def ecdhX (d : Nat) (q : Nat × Nat) : Option (List Byte) :=
  if onCurve q then (affine (ecMul d q)).map (fun p => beBytes p.1 48) else none

end Sys2Proof.Machine
end

