-- ==== Sys2Proof/Machine/Sec.lean ====
section
/-!
DEFINITION. The security enclave (ch. 15, R476 to R499) but for the register accesses of sealed commands: fuses and lifecycle,
enrolment, sessions, the check of a sealed command and its answer, certificate and attestation, protected allocations. A command's
duration is timing only: SEC.STATUS.busy reads 0 after it (log entry 41).
-/

namespace Sys2Proof.Machine

/-! Fuses and lifecycle (R476, R480) -/

/-- Lifecycle states (Table 15.1). -/
def lcMANUFACTURE : Nat := 0
def lcOPEN : Nat := 1
def lcOWNED : Nat := 2
def lcRETIRED : Nat := 3

/-- The lifecycle the fuses give (Table 15.1). -/
def lifecycleOf (x : Sec) : Nat := if !x.mfgDone then lcMANUFACTURE else if x.retired then lcRETIRED else if x.ownerLock then lcOWNED else lcOPEN

/-- The anti-rollback counter: the highest blown fuse plus one, 0 when none is blown (R480). -/
def arbCounter (row : Nat) : Nat := (List.range 255).foldl (fun a i => if row / 2 ^ i % 2 = 1 then i + 1 else a) 0

/-- SEC.FUSE and SEC.STATUS.lifecycle follow the fuses. -/
def fuseStatus (s : State) : State :=
  let x := s.sec
  let s := wrB (wrB (wrB (wrB s F.SEC_FUSE_mfg_done x.mfgDone) F.SEC_FUSE_owner_lock x.ownerLock) F.SEC_FUSE_retired x.retired)
    F.SEC_FUSE_jtag_lock x.jtagLock
  wr (wr s F.SEC_FUSE_arb (arbCounter x.arbRow)) F.SEC_STATUS_lifecycle (lifecycleOf x)

/-- Ticks in which one fuse is blown (the example of R479). -/
def fuseTicks : Nat := 15000

/-- The fuses still being blown, and the tick from which another can be. -/
def blowLeft (s : State) : List (Nat × Nat) := s.sec.blow.filter (fun e => decide (s.tick < e.2))
def blowFrom (s : State) : Nat := (blowLeft s).foldl (fun t e => max t e.2) s.tick

/-- Fuses are blown one after another from now on, after those of an earlier command (R476). -/
def blowing (s : State) (fs : List Nat) : State :=
  { s with sec.blow := blowLeft s ++ (fs.zip (List.range fs.length)).map (fun e => (e.1, blowFrom s + fuseTicks * (e.2 + 1))) }

/-- A fuse reads a value. -/
def setFuse (x : Sec) (i : Nat) (b : Bool) : Sec :=
  if i < 384 then { x with hash := if b then x.hash ||| 2 ^ i else x.hash - (x.hash &&& 2 ^ i) }
  else if i = 384 then { x with ownerLock := b }
  else if i = 385 then { x with jtagLock := b }
  else if i = 386 then { x with retired := b, erased := x.erased && b }
  else { x with arbRow := if b then x.arbRow ||| 2 ^ (i - 387) else x.arbRow - (x.arbRow &&& 2 ^ (i - 387)) }

/-- Power is lost (R476, R497): a fuse not yet reached reads 0, and the one in hand reads either value. -/
def tornFuses (s : State) : State :=
  let s := s.sec.blow.foldl (fun s e =>
    if e.2 ≤ s.tick then s
    else if s.tick + fuseTicks < e.2 then { s with sec := setFuse s.sec e.1 false }
    else
      let f := freeBelow s 14 2
      { f.2 with sec := setFuse f.2.sec e.1 (f.1 = 1) }) s
  { s with sec.blow := [] }

/-- Step 3 of start-up: fuses sensed, per-device values, sealed values loaded; in RETIRED the erasure is repeated (R476, R490, R498, R542). -/
def gauntletStart (s : State) : State :=
  let s := wr (wr s F.SEC_SERIAL_LO_serial Config.serial.toNat) F.SEC_SERIAL_HI_serial (Config.serial.toNat / 2 ^ 32)
  let s := wr (wr s F.SEC_HDCP_RXID_LO_id Config.hdcpRxId.toNat) F.SEC_HDCP_RXID_HI_id (Config.hdcpRxId.toNat / 2 ^ 32)
  let s := { wr s F.SEC_CFG s.sec.cfg with sec.erased := s.sec.erased || s.sec.retired }
  fuseStatus s

/-! Results, sessions (R485, R489) -/

def rsOK : Nat := 0
def rsBAD_STATE : Nat := 1
def rsBAD_MSG : Nat := 2
def rsAUTH : Nat := 3
def rsREPLAY : Nat := 4
def rsDENIED : Nat := 5
def rsFUSE_CONFLICT : Nat := 6
def rsRANGE : Nat := 7

/-- A command ends with a result. -/
def secResult (s : State) (r : Nat) : State := wr s F.SEC_STATUS_result r

/-- Path codes (Table 15.10). -/
def pathCode : Path → Nat
  | .pcie => 0 | .mgt => 1 | .orsal => 2

def sesState (s : State) : Nat := rd s F.SEC_STATUS_session

/-- The session closes (R489). -/
def sesClose (s : State) : State :=
  { wr s F.SEC_STATUS_session 0 with sec := { s.sec with keys := [], nonce := [], fails := 0 } }

/-- A session command from another path than the session's is refused (R485). -/
def otherPath (s : State) (p : Path) : Bool := sesState s != 0 && rd s F.SEC_STATUS_path != pathCode p

/-- The end of the idle window (R489). -/
def idleEnd (s : State) : Nat := s.sec.lastAt + rd s F.SEC_CFG_ses_idle * Config.tickHz

/-- Numbers and points of a message: 48-byte big-endian integers (R486). -/
def beAt (bs : List Byte) (i : Nat) : Nat := ofBe (slice bs i 48)
def pointAt (bs : List Byte) (i : Nat) : Nat × Nat := (beAt bs i, beAt bs (i + 48))

/-- SHA-384 as a number. -/
def shaNum (bs : List Byte) : Nat := ofBe (sha384 bs)

/-- Gauntlet reads the local store as master 7: an uncorrectable word is a failed read that posts an error record (R403). -/
def secRead (s : State) (off n : Nat) : Option (List Byte) × State :=
  if wordsPoisoned s off n then (none, wordsUnc s off n) else (some (lstRd s off n), s)

/-- The identity private key (R482), and a signature under it with a secret drawn from the random number generator: a free value. -/
def identityD : Nat := 1 + Config.identityKey % (pN - 1)
def signId (s : State) (e : Nat) : List Byte × State :=
  let f := freeBelow s 11 (pN - 1)
  let g := ecdsaSign identityD (1 + f.1) e
  (beBytes g.1 48 ++ beBytes g.2 48, f.2)

/-- A message of Gauntlet in SEC.SES_BUF, `k` bytes into it: unlike any other user's buffer it may lie in the mailbox, and on a worker it must, so
that the manager reaches it (R485, Table 15.10). -/
def sesWr (s : State) (k : Nat) (bs : List Byte) : State :=
  let a := rd s F.SEC_SES_BUF_offset + k
  lstWr s a ((keepProt s a bs).take (0x1000000 - a))

/-- SES_START (R485, R486): a nonce is drawn and S1 written. A session that exists is not replaced (log entry 41). -/
def sesStart (s : State) (p : Path) : State :=
  let lc := lifecycleOf s.sec
  if lc = lcOPEN || lc = lcRETIRED || sesState s != 0 || s.tick < s.sec.refuseTo then secResult s rsBAD_STATE else
  let f := freeBytes s 12 48
  let s := { f.2 with sec.nonce := f.1 }
  let s := sesWr s 0 (leBytes 0x3153535A 4 ++ leBytes 0 4 ++ leBytes Config.serial.toNat 8 ++ f.1)
  secResult (wr (wr s F.SEC_STATUS_session 1) F.SEC_STATUS_path (pathCode p)) rsOK

/-- The opening of a session fails (R486): AUTH, no session, ses_start refused for 1 s. -/
def openFails (s : State) : State :=
  let s := bump (sesClose s) F.SEC_CNT_AUTH_ses_fail
  secResult { s with sec.refuseTo := s.tick + Config.tickHz } rsAUTH

/-- The owner key named by a message is the enrolled one: the SHA-384 of qx and qy equals the hash fuses (R416, R486). -/
def ownerKeyOk (s : State) (key : List Byte) : Bool := ofLe (sha384 key) = s.sec.hash

/-- The info of the key derivation: ASCII "ZT-8820 session v1" (R486). -/
def sesInfo : List Byte := [0x5A#8, 0x54#8, 0x2D#8, 0x38#8, 0x38#8, 0x32#8, 0x30#8, 0x20#8, 0x73#8, 0x65#8, 0x73#8, 0x73#8, 0x69#8, 0x6F#8, 0x6E#8,
  0x20#8, 0x76#8, 0x31#8]

/-- SES_FINISH (R486): S2 checked, S3 written, keys derived. -/
def sesFinish (s : State) (p : Path) : State :=
  if otherPath s p || sesState s != 1 then secResult s rsBAD_STATE else
  let buf := rd s F.SEC_SES_BUF_offset
  match secRead s buf 296 with
  | (none, s) => openFails s
  | (some m, s) =>
    let nd := s.sec.nonce
    let ok := leAt m 0 4 = 0x3253535A && leAt m 4 4 = 0 && ownerKeyOk s (slice m 104 96)
      && ecdsaVerify (pointAt m 104) (shaNum (m.take 200 ++ nd)) (beAt m 200) (beAt m 248)
    let f := freeBelow s 13 (pN - 1)
    let d := 1 + f.1
    match ok, ecdhX d (pointAt m 8) with
    | true, some x =>
      let q := ecPublic d
      let head := leBytes 0x3353535A 4 ++ leBytes 0 4 ++ beBytes q.1 48 ++ beBytes q.2 48
      let g := signId f.2 (shaNum (head ++ nd ++ slice m 8 96))
      let s := sesWr g.2 0 (head ++ g.1)
      let s := { s with sec := { s.sec with keys := hkdf72 x nd sesInfo, fails := 0, lastAt := s.tick } }
      secResult (wr (wr (wr s F.SEC_STATUS_session 2) F.SEC_SES_CTR_LO_ctr 0) F.SEC_SES_CTR_HI_ctr 0) rsOK
    | _, _ => openFails s

/-- SESSION_IDLE_TIMEOUT (R489). -/
def sesIdle (s : State) : State := if sesState s = 2 then sesClose (reach s (idleEnd s)) else s

/-! Sealed commands (R487) -/

/-- A command fails its check (R487, R489). -/
def cmdFails (s : State) (r : Nat) : State :=
  let s := secResult (bump s F.SEC_CNT_AUTH_cmd_fail) r
  if r = rsAUTH then
    let s := { s with sec.fails := s.sec.fails + 1 }
    if 3 ≤ s.sec.fails then sesClose s else s
  else { s with sec.fails := 0 }

/-- The last accepted ctr. -/
def sesCtr (s : State) : Nat := rd64 s F.SEC_SES_CTR_LO_ctr F.SEC_SES_CTR_HI_ctr

/-- Check the command at SEC.SES_BUF: its ctr and body when it is to be performed (R485, R487, R497). -/
def cmdCheck (s : State) (p : Path) : Option (Nat × List Byte) × State :=
  let badMsg := fun (s : State) => secResult { s with sec.fails := 0 } rsBAD_MSG
  if sesState s != 2 || otherPath s p then (none, secResult s rsBAD_STATE)
  else if idleEnd s ≤ s.tick then (none, secResult (sesClose s) rsBAD_STATE)
  else
    match secRead s (rd s F.SEC_SES_BUF_offset) 128 with
    | (none, s) => (none, badMsg s)
    | (some m, s) =>
      let k := s.sec.keys
      let ctr := leAt m 8 8
      if leAt m 0 4 != 0x3143535A || leAt m 4 4 != 0 || leAt m 112 16 != 0 then (none, badMsg s) else
      match gcmOpen (k.take 32) (slice k 64 4 ++ beBytes ctr 8) (m.take 16) (slice m 16 80) (slice m 96 16) with
      | none => (none, cmdFails s rsAUTH)
      | some body =>
        if ctr ≤ sesCtr s || ctr = 2 ^ 64 - 1 then (none, cmdFails s rsREPLAY) else
        let s := wr (wr s F.SEC_SES_CTR_LO_ctr ctr) F.SEC_SES_CTR_HI_ctr (ctr / 2 ^ 32)
        (some (ctr, body), { s with sec := { s.sec with fails := 0, lastAt := s.tick } })

/-- Write the response of a performed command (R487, Table 15.5). -/
def cmdReply (s : State) (keys : List Byte) (ctr result data : Nat) : State :=
  let head := leBytes 0x3152535A 4 ++ leBytes 0 4 ++ leBytes ctr 8
  let c := gcmSeal (slice keys 32 32) (slice keys 68 4 ++ beBytes ctr 8) head (leBytes result 4 ++ leBytes data 4 ++ leBytes 0 8)
  secResult (sesWr s 128 (head ++ c.1 ++ c.2 ++ leBytes 0 16)) result

/-- The bytes of a body that its op does not name are 0 (R487). -/
def bodyZero (body : List Byte) (named : List Nat) : Bool :=
  (List.range 80).all (fun i => i = 0 || named.contains i || body.getD i 0#8 = 0#8)

/-- A host write of a protected page by a sealed command waits like any host access (R437, R487). -/
def cmdNvmWrite (s : State) (body : List Byte) : Nat × State :=
  let page := leAt body 4 2
  let off := leAt body 6 1
  let len := leAt body 7 1 + 1
  if !bodyZero body ([4, 5, 6, 7] ++ List.range' 16 64) || 64 ≤ off || 64 < len then (rsBAD_MSG, s)
  else if page < 512 || 1535 < page then (rsRANGE, s)
  else if !nvmUnlocked s 0 1 then (rsDENIED, s)
  else (rsOK, nvmAccess s (.secured page off (slice body 16 len)))

/-- PW_SET: as NVM.UNLOCK with set = 1 for the protected partition (R436, R487). -/
def cmdPwSet (s : State) (body : List Byte) : Nat × State :=
  let kind := leAt body 4 1
  if !bodyZero body ([4] ++ List.range' 16 16) || 1 < kind then (rsBAD_MSG, s)
  else if nvmUnlocked s 0 kind then (rsOK, storePw s kind (leAt body 16 16))
  else (rsDENIED, wrongAttempt s 0)

/-- ARB_COMMIT (R481): fuses blown in ascending order up to the loaded image's arb. -/
def cmdArbCommit (s : State) : Nat × State :=
  let a := rd s F.NVM_IMG_ARB_arb
  if s.sec.imgHash.isNone then (rsBAD_STATE, s)
  else if 255 < a then (rsRANGE, s)
  else
    let c := arbCounter s.sec.arbRow
    let row := (List.range a).foldl (fun m i => if c ≤ i then m ||| 2 ^ i else m) s.sec.arbRow
    let s := blowing s ((List.range' c (a - c)).map (fun i => 387 + i))
    (rsOK, fuseStatus { s with sec.arbRow := row })

/-- JTAG_LOCK (R477). -/
def cmdJtagLock (s : State) : Nat × State :=
  let s := if s.sec.jtagLock then s else blowing s [385]
  (rsOK, fuseStatus { s with sec.jtagLock := true })

/-- RETIRE (R490): the fuse first, then the keys. -/
def cmdRetire (s : State) : Nat × State :=
  let s := if s.sec.retired then s else blowing s [386]
  (rsOK, fuseStatus { s with sec := { s.sec with retired := true, erased := true } })

/-! Enrolment (R478, R479) -/

/-- SEC_ENROLL. -/
def secEnroll (s : State) (p : Path) : State :=
  if otherPath s p || lifecycleOf s.sec != lcOPEN then secResult s rsBAD_STATE else
  match secRead s (rd s F.SEC_SES_BUF_offset) 200 with
  | (none, s) => secResult s rsBAD_MSG
  | (some m, s) =>
    if leAt m 0 4 != 0x314E455A || leAt m 4 4 != 0 then secResult s rsBAD_MSG
    else if !ecdsaVerify (pointAt m 8) (shaNum (m.take 104 ++ leBytes Config.serial.toNat 8)) (beAt m 104) (beAt m 152) then secResult s rsAUTH
    else
      let h := ofLe (sha384 (slice m 8 96))
      if (List.range 384).any (fun i => s.sec.hash / 2 ^ i % 2 = 1 && h / 2 ^ i % 2 = 0) then secResult s rsFUSE_CONFLICT
      else
        let new := (List.range 384).filter (fun i => h / 2 ^ i % 2 = 1 && s.sec.hash / 2 ^ i % 2 = 0)
        let s := blowing s (new ++ [384])
        secResult (fuseStatus { s with sec := { s.sec with hash := h, ownerLock := true } }) rsOK

/-! Certificate and attestation (R483, R484) -/

/-- SEC_CERT. -/
def secCert (s : State) (p : Path) : State :=
  if otherPath s p || lifecycleOf s.sec = lcRETIRED then secResult s rsBAD_STATE else
  let c := Config.certChain.take 4096
  secResult (wr (lstKeep s (rd s F.SEC_ATT_BUF_offset) c) F.SEC_CERT_LEN_bytes c.length) rsOK

/-! Certified configuration and protected allocations (R493, R496) -/

/-- The device is in its certified configuration (R496). -/
def certified (s : State) : Bool :=
  lifecycleOf s.sec = lcOWNED && s.sec.jtagLock && s.nv.pws.getD 0 0 != 0 && s.nv.pws.getD 1 0 != 0 && !on s F.SEC_CFG_host_boot
    && on s F.EVT_LOG_CFG_en && bitOf s F.EVT_LOG_CFG_classes 2 && rd s F.SEC_FUSE_arb = rd s F.NVM_IMG_ARB_arb

/-- The protected allocations: base and length of every protected surface and history (R493). -/
def protSpans (s : State) : List (Nat × Nat) :=
  ((List.range 1024).filterMap (fun i => let u := surf s i; if u.prot then some (u.base, surfBytes u) else none))
    ++ (List.range 5).filterMap (fun v => if s.scn.histProt.getD v false then
        some (histBase s v, 3 * (panelBW s * panelBH s) * allocLen 12) else none)

/-- [a, a + n) touches a protected allocation. -/
def touchesProt (s : State) (a n : Nat) : Bool := (protSpans s).any (fun x => decide (x.1 < a + n) && decide (a < x.1 + x.2))

/-- The receiver has authenticated, on input 0 while it is enabled for HDCP and the lifecycle is OWNED (R491). -/
def hdcpLive (s : State) : Bool := on s (F.ING_IN_CFG_hdcp_en 0) && lifecycleOf s.sec = lcOWNED

/-- SEC.STATUS.cc and prot, and SEC.HDCP_STAT, read what holds (R491, R493, R496). -/
def secLive (s : State) : State :=
  let s := wrB (wrB s F.SEC_STATUS_cc (certified s)) F.SEC_STATUS_prot (!(protSpans s).isEmpty)
  if hdcpLive s then s else wrB (wrB s F.SEC_HDCP_STAT_auth false) F.SEC_HDCP_STAT_type1 false

/-- The bytes of the attestation report that are signed (Table 15.4). -/
def attBody (s : State) : List Byte :=
  let s := secLive s
  let flags := b2n (on s F.SEC_STATUS_cc) + 2 * b2n (on s F.SEC_HDCP_STAT_auth) + 4 * b2n (sesState s = 2) + 8 * b2n (on s F.SEC_STATUS_prot)
  let lc := lifecycleOf s.sec
  leBytes 0x3154415A 4 ++ leBytes 1 2 ++ leBytes lc 1 ++ leBytes flags 1 ++ leBytes Config.serial.toNat 8
    ++ (List.range 12).flatMap (fun k => leBytes (rd s (F.SEC_NONCE_nonce k)) 4)
    ++ (s.sec.imgHash.getD (List.replicate 48 0#8)) ++ leBytes (if lc = lcOPEN then 0 else s.sec.hash) 48
    ++ leBytes (rd s F.NVM_IMG_VER_ver) 4 ++ leBytes (rd s F.NVM_IMG_ARB_arb) 4 ++ leBytes (arbCounter s.sec.arbRow) 4
    ++ (List.range 3).flatMap (fun k => leBytes (rd s (F.NVM_CNT_value k)) 4) ++ leBytes s.tick 8 ++ leBytes (s.tmb.pic.getD 0) 8
    ++ leBytes (rd s F.NVM_BOOT_STAT) 4 ++ leBytes (rd s F.SEC_FUSE) 4 ++ List.replicate 48 0#8

/-- SEC_ATT (R484). -/
def secAtt (s : State) (p : Path) : State :=
  if otherPath s p || lifecycleOf s.sec = lcRETIRED then secResult s rsBAD_STATE else
  let b := attBody s
  let g := signId s (shaNum b)
  secResult (lstKeep g.2 (rd s F.SEC_ATT_BUF_offset) (b ++ g.1)) rsOK

/-! HDCP and JTAG (R477, R491, R492) -/

/-- HDCP_AUTHENTICATION (R492). The protocol itself is the licence's; what it leaves here is its outcome (log entry 41). -/
def hdcpAuth (s : State) (ok type1 : Bool) : State :=
  if !hdcpLive s || s.sec.erased || !bitOf s F.PWR_DOM_ON_on 6 then s
  else wrB (wrB s F.SEC_HDCP_STAT_auth ok) F.SEC_HDCP_STAT_type1 (ok && type1)

/-- JTAG_INSTRUCTION (R477). -/
def jtagRun (s : State) (i : JtagInstr) : State :=
  let free := i != .other || (!s.sec.jtagLock && (lifecycleOf s.sec != lcOWNED || sesState s = 2))
  { s with sec.jtag := some (i, free) }

/-- SEC_CLR_CNT (R499). -/
def secClrCnt (s : State) : State := clearRegs s [F.SEC_CNT_REFUSE.off, F.SEC_CNT_AUTH.off, F.SEC_CNT_PLAIN.off]

/-! Meanings -/

def execSessionIdleTimeout (s : State) : Host.Outcome State Fault Refusal := .next (sesIdle s)
def execHdcpAuthentication (ok type1 : Bool) (s : State) : Host.Outcome State Fault Refusal := .next (hdcpAuth s ok type1)
def execJtagInstruction (i : JtagInstr) (s : State) : Host.Outcome State Fault Refusal := .next (jtagRun s i)

end Sys2Proof.Machine
end

