-- ==== Sys2Proof/Machine/Pwr.lean ====
section
/-!
DEFINITION. Power domains and device states (ch. 16, R500 to R515), the wake sources, and the die sensors (R564). Latencies are timing
only: a domain's switch-on and switch-off end when their commands come (log entries 1 and 42).
-/

namespace Sys2Proof.Machine

/-- The device state and the state being entered (Table 16.5). -/
def pwrState (s : State) : Nat := rd s F.PWR_STATUS_state
def pwrTarget (s : State) : Nat := rd s F.PWR_STATUS_target

/-- A mask of bits. -/
def domSet (l : List Nat) : Nat := l.foldl (fun a i => a ||| 2 ^ i) 0

/-- Every domain. -/
def allDoms : Nat := 2 ^ 30 - 1

/-- A write of PWR is ignored (R501, R513). -/
def pwrIgn (s : State) : State := wrB s F.PWR_STATUS_wr_ign true

/-! Domains (R500 to R503) -/

/-- Table 16.1: the domains marked on, without condition, in P1 to P4. -/
def domAlways : Nat → Nat
  | 1 => domSet [0, 1, 2, 3, 4, 10, 11, 12, 13, 14, 15, 16, 17, 18, 20, 21, 24, 25, 28, 29]
  | 2 => domSet [0, 1, 2, 3, 4, 10, 12, 13, 14, 15, 16, 17, 18, 20, 21, 24, 25, 28, 29]
  | 3 => domSet [0, 1, 2, 3, 4, 15, 20, 28, 29]
  | 4 => domSet [0, 2]
  | _ => 0

/-- Table 16.1: the domains on because their condition holds, in P1 to P3. -/
def domCond (s : State) (st : Nat) : Nat :=
  let use := fun c l => if c then domSet l else 0
  let inp := use (inEnabled s 0) [5, 6] ||| use ([1, 2, 3, 4].any (inEnabled s)) [7, 8] ||| use ((List.range 5).any (inEnabled s)) [9]
  let panel := use (on s F.AGE_STATUS_run || s.age.ckpt.isSome) [19] ||| use (rd s F.DRV_GROUPS_en % 2 ^ 12 != 0) [22]
    ||| use (rd s F.DRV_GROUPS_en / 2 ^ 12 != 0) [23]
  let orl := use (on s F.ORL_CFG_en && on s F.ORL_PORT_CFG_en_a) [26] ||| use (on s F.ORL_CFG_en && on s F.ORL_PORT_CFG_en_b) [27]
  match st with
  | 1 => inp ||| panel ||| orl
  | 2 => panel ||| orl
  | 3 => orl
  | _ => 0

/-- The domains that Table 16.1 requires to be on in a state. -/
def domWant (s : State) (st : Nat) : Nat := if st = 0 then allDoms else domAlways st ||| domCond s st

/-- The controller domain of a PHY domain, and the PHY domains of a controller domain (R502). -/
def domCtl : Nat → Option Nat
  | 3 => some 4 | 5 => some 6 | 7 => some 8 | 12 => some 14 | 13 => some 14 | 22 => some 21 | 23 => some 21 | _ => none
def domPhys : Nat → List Nat
  | 4 => [3] | 6 => [5] | 8 => [7] | 14 => [12, 13] | 21 => [22, 23] | _ => []

def domOn (s : State) (d : Nat) : Bool := bitOf s F.PWR_DOM_ON_on d

/-- Step 1 of a domain's shut-down: its function stops (R158, R339, R503). The ageing engine's does so once no shutdown checkpoint is
waited for; a checkpoint that still runs then does not become valid (R280, R281). -/
def domStop (s : State) (d : Nat) : State :=
  if d = 11 then wrB s F.CDC_STATUS_cdc1_on false
  else if d = 22 || d = 23 then { s with drv.stopping := true }
  else if d = 19 then ckptAbandon s
  else s

/-- What one domain does for the domains a state requires (R502, R503): a shut-down or a switch-on begins, or an enable is held: during a
shut-down, and in the tick in which the switch opens (Table 16.4). -/
def domFollow1 (want : Nat) (s : State) (d : Nat) : State :=
  let w := maskHas want d
  let off := maskHas s.pwr.offing d
  if w && off then setBitOf s F.PWR_DOM_PEND_pend d true
  else if !w && off then setBitOf s F.PWR_DOM_PEND_pend d false
  else if w && !domOn s d && !maskHas s.pwr.oning d then
    if maskHas s.pwr.opened d && s.pwr.openAt = s.tick then setBitOf s F.PWR_DOM_PEND_pend d true else
    let s := setBitOf s F.PWR_DOM_PEND_pend d false
    (match domCtl d with
     | some c => if domOn s c then { s with pwr.oning := maskSet s.pwr.oning d true } else s
     | none => { s with pwr.oning := maskSet s.pwr.oning d true })
  else if !w && domOn s d && (domPhys d).all (fun p => !domOn s p && !maskHas s.pwr.oning p) then
    domStop { s with pwr.offing := maskSet s.pwr.offing d true } d
  else s

/-- Every domain follows the device state, or the state being entered or left for (R500). -/
def domFollow (s : State) : State :=
  let st := match s.pwr.stage with | .enter => pwrTarget s | .exit => 0 | _ => pwrState s
  (List.range 30).foldl (domFollow1 (domWant s st)) s

/-- An enable held because the domain's switch opened in its tick begins a tick later (Table 16.4). -/
def heldFollow (s : State) : State := if s.pwr.opened != 0 && decide (s.pwr.openAt < s.tick) then domFollow { s with pwr.opened := 0 } else s

/-! Sleep of the inputs (R505) -/

/-- Note enables that changed since the last look. -/
def inputsSeen (s : State) : State :=
  (List.range 5).foldl (fun s n =>
    let e := inEnabled s n
    if (inp s n).seen = e then s else modIn s n (fun i => { i with seen := e, since := s.tick })) s

/-- The tick at which input n fell asleep; none while it is awake. -/
def asleepAt (s : State) (n : Nat) : Option Nat :=
  let i := inp s n
  if !inEnabled s n then some i.since else
  match i.dpDown with
  | some t => some t
  | none =>
    let t := i.since + rd s F.PWR_IDLE_idle_ms * Config.tickMs
    if !on s (F.ING_IN_STAT_lock n) && decide (t ≤ s.tick) then some t else none

/-- Ticks spent in P2 since the counter of PWR.OVC_TIME was cleared. -/
def ovcTicks (s : State) : Nat := s.pwr.ovc + (if pwrState s = 2 then s.tick - s.pwr.ovcFrom else 0)

/-- PWR.STATUS.asleep and PWR.OVC_TIME read what holds (R505, Table 16.5). -/
def pwrLive (s : State) : State :=
  let s := heldFollow s
  let s := wr s F.PWR_STATUS_asleep (domSet ((List.range 5).filter (fun n => (asleepAt s n).isSome)))
  wr s F.PWR_OVC_TIME_seconds (min (ovcTicks s / Config.tickHz) (2 ^ 32 - 1))

/-! The choice of a state (R504, R506) -/

/-- Exit latencies in µs (Table 16.2). -/
def exitLat : Nat → Nat
  | 0 => 0 | 1 => 250 | 2 => 300 | 3 => 60000 | _ => 700000

/-- The permission and the latency of R506. -/
def permitted (s : State) (st : Nat) : Bool :=
  decide (st ≤ rd s F.PWR_REQ_max_state) && (let l := rd s F.PWR_LAT_TOL_us
    if st = 5 then l = 0xFFFFFFFF else l = 0xFFFFFFFF || decide (exitLat st ≤ l))

/-- Every input has been asleep for the sleep window, and no ingest entry is still writing (Table 16.2). -/
def idleInputs (s : State) : Bool :=
  (List.range 5).all (fun n => match asleepAt s n with
    | some t => decide (max t s.pwr.idleFrom + rd s F.PWR_IDLE_idle_ms * Config.tickMs ≤ s.tick)
    | none => false)
  && (List.range 5).all (fun n => (inp s n).pic.isNone) && s.blq.writes.isEmpty

/-- P3's own entry condition: a held sleep request, or hold_s seconds in P2. -/
def holdDue (s : State) : Bool :=
  on s F.PWR_STATUS_sleep_pend ||
  (let h := rd s F.PWR_IDLE_hold_s
   h != 0 && pwrState s = 2 && decide (max s.pwr.entered s.pwr.idleFrom + h * Config.tickHz ≤ s.tick))

/-- The entry conditions of a state (Table 16.2). -/
def entryOk (s : State) : Nat → Bool
  | 0 => true
  | 1 => true
  | 2 => idleInputs s
  | 3 => idleInputs s && holdDue s
  | 4 => idleInputs s && holdDue s && ((s.host.d3hot && s.host.l2) || !on s F.GEN_STATUS_link_up)
  | _ => on s F.PWR_STATUS_sleep_pend

/-- The deepest state that meets R506. -/
def deepest (s : State) : Nat := ((List.range 6).filter (fun k => permitted s k && entryOk s k)).getLastD 0

/-- The present state still stands: P2 while its conditions and R506 hold, P3 while R506 holds (Table 16.2). -/
def stands (s : State) : Bool :=
  match pwrState s with
  | 0 => true
  | 1 => permitted s 1
  | 2 => permitted s 2 && idleInputs s
  | 3 => permitted s 3
  | _ => true

/-! Transitions (R504, R506 to R509) -/

/-- A transition ends in state st: counted and reported (R506). -/
def enterState (s : State) (st : Nat) : State :=
  let ovc := ovcTicks s
  let s := wrB (wr (wr s F.PWR_STATUS_state st) F.PWR_STATUS_target st) F.PWR_STATUS_busy false
  let s := { s with pwr := { s.pwr with stage := .none, entered := s.tick, ovc := ovc, ovcFrom := s.tick, idleFrom := if st = 0 then s.tick else s.pwr.idleFrom } }
  let s := if 3 ≤ st then wrB s F.PWR_STATUS_sleep_pend false else s
  match st with
  | 2 => info (bump s F.PWR_CNT_STATE_p2) blkPWR 0 F.PWR_CNT_STATE_p2
  | 3 => info (bump s F.PWR_CNT_STATE_p3) blkPWR 0 F.PWR_CNT_STATE_p3
  | 4 => info (bump s F.PWR_CNT_STATE_p4) blkPWR 0 F.PWR_CNT_STATE_p4
  | _ => info s blkPWR 0 F.PWR_STATUS_state

/-- An exit begins (R506): from P1 and P2 the domains switch on; from P3 and P4 its own command carries it out. -/
def exitBegin (s : State) : State :=
  let s := wrB (wrB (wr s F.PWR_STATUS_target 0) F.PWR_STATUS_busy true) F.PWR_STATUS_sleep_pend false
  let s := { s with pwr.begun := s.tick }
  if 3 ≤ pwrState s then { s with pwr.exitDue := true }
  else domFollow { s with pwr := { s.pwr with stage := .exit, exitDue := false, fromP3 := false } }

/-- The exit from P3 is complete: the panel is asked on while PSQ.CFG.auto is 1 (R508). -/
def exitDone (s : State) : State :=
  let p3 := s.pwr.fromP3
  let s := enterState { s with pwr.fromP3 := false } 0
  if p3 && on s F.PSQ_CFG_auto then psqOn s else s

/-- Move a transition on as far as it can go: the panel is off and the checkpoint taken; every domain stands as required. -/
def pwrProgress (s : State) : State :=
  let quiet := fun (s : State) => s.pwr.offing = 0 && s.pwr.oning = 0
  let s := match s.pwr.stage with
    | .shutdown =>
      if (psqState s = psOFF || psqState s = psFAULT) && !safeRunning s && !shutPending s && !s.psq.ckptReq
      then domFollow { s with pwr.stage := .enter } else s
    | _ => s
  match s.pwr.stage with
  | .enter =>
    if quiet s && rd s F.PWR_DOM_ON_on = domWant s (pwrTarget s) then
      let s := enterState s (pwrTarget s)
      if s.pwr.exitDue then exitBegin { s with pwr.exitDue := false } else s
    else s
  | .exit => if quiet s && rd s F.PWR_DOM_ON_on = allDoms then exitDone s else s
  | _ => s

/-- Entry to state st begins (R506, R507): P3 to P5 with an orderly shutdown. While a safe power-off runs, the panel is already on its way
off, and the checkpoint is asked for at once. -/
def entryBegin (s : State) (st : Nat) : State :=
  let s := wrB (wr s F.PWR_STATUS_target st) F.PWR_STATUS_busy true
  let s := { s with pwr := { s.pwr with begun := s.tick, exitDue := false } }
  if st < 3 then pwrProgress (domFollow { s with pwr.stage := .enter })
  else
    let s := { s with pwr.stage := .shutdown }
    pwrProgress (if psqState s = psOFF || psqState s = psFAULT || safeRunning s then ckptShutdown { s with psq.req := false } else psqOff s true)

/-- The choice (R506), made while no transition is in progress. In P4 and P5 nothing but their exits ends the state. -/
def pwrChoose (s : State) : State :=
  let s := inputsSeen s
  let st := pwrState s
  if on s F.PWR_STATUS_busy || s.pwr.stage != .none || 4 ≤ st then pwrProgress s else
  let d := deepest s
  if st < d then entryBegin s d
  else if stands s then domFollow s
  else exitBegin (wr s F.PWR_STATUS_last_wake 2)

/-- The entry to P2 decided in this tick is taken back (Table 16.4): what the present state requires keeps running. -/
def cancelEntry (s : State) : State :=
  let st := pwrState s
  let back := s.pwr.offing &&& domWant s st
  let s := wrB (wr s F.PWR_STATUS_target st) F.PWR_STATUS_busy false
  let s := { s with pwr := { s.pwr with stage := .none, offing := s.pwr.offing - back, idleFrom := s.tick } }
  let s := wr s F.PWR_DOM_PEND_pend (rd s F.PWR_DOM_PEND_pend - (rd s F.PWR_DOM_PEND_pend &&& back))
  let s := if maskHas back 11 then assignLanes (wrB s F.CDC_STATUS_cdc1_on true) else s
  let s := if maskHas s.pwr.offing 22 || maskHas s.pwr.offing 23 then s else { s with drv.stopping := false }
  domFollow s

/-- An exit event with its wake code (R504, R513): in the tick in which entry to P2 began a wake of an input wins; during any other
transition the exit follows it. -/
def wakeUp (s : State) (code : Nat) : State :=
  let st := pwrState s
  match s.pwr.stage with
  | .none => if st = 0 || st = 5 || s.pwr.exitDue then s else exitBegin (wr s F.PWR_STATUS_last_wake code)
  | .exit => s
  | _ =>
    let s := wr s F.PWR_STATUS_last_wake code
    if code = 1 && pwrTarget s = 2 && s.pwr.begun = s.tick then cancelEntry s
    else wrB { s with pwr.exitDue := true } F.PWR_STATUS_sleep_pend false

/-- A wake source other than PERST_N drives WAKE_N low in P4 (R509). -/
def wakeN (s : State) : State := if pwrState s = 4 then { s with pwr.wakeLow := true } else s

/-- PWR_WAKE (R506). -/
def pwrWake (s : State) : State := wakeUp s 2

/-- PWR_SLEEP (R507): the request is held and the choice made (R506). -/
def pwrSleep (s : State) : State := pwrChoose (wrB s F.PWR_STATUS_sleep_pend true)

/-- POWER_STATE_CHOICE (R506): a millisecond after the last one. The first counts from tick 0 (DESIGN CHOICE, log entry 77). -/
def powerStateChoice (s : State) : State :=
  let s := reach s (s.pwr.choiceAt + Config.tickMs)
  pwrChoose { s with pwr.choiceAt := s.tick }

/-- The twelve groups of a PHY domain from group g on: one at training step 1 waits from now (Table 9.5). -/
def groupsWake (s : State) (g : Nat) : State :=
  (List.range 12).foldl (fun s i => if (grp s (g + i)).step = 1 then setGrp s (g + i) { grp s (g + i) with at_ := s.tick } else s) s

/-- DOMAIN_SWITCH_ON_DONE (R502). A group's training step 1 waits for its PHY domain (Table 9.5). -/
def domOnDone (s : State) (d : Nat) : State :=
  let s := heldFollow s
  if !maskHas s.pwr.oning d then s else
  let s := setBitOf { s with pwr.oning := maskSet s.pwr.oning d false } F.PWR_DOM_ON_on d true
  let s := match d with
    | 10 => assignLanes s
    | 11 => assignLanes (wrB s F.CDC_STATUS_cdc1_on true)
    | 22 => groupsWake s 0
    | 23 => groupsWake s 12
    | 26 => portsFollow s
    | 27 => portsFollow s
    | _ => s
  pwrProgress (domFollow s)

/-- The lanes of a codec domain are empty: PD_CDC1's by R158, and PD_CDC0's likewise (DEDUCED, log entry 77). Of the other domains nothing is
asked. -/
def lanesEmpty (s : State) (d : Nat) : Bool :=
  match d with
  | 10 => (s.cdc.decLanes.take 8).all (fun l => l.isNone) && (s.cdc.cmpLanes.take 4).all (fun l => l.isNone)
  | 11 => (s.cdc.decLanes.drop 8).all (fun l => l.isNone) && (s.cdc.cmpLanes.drop 4).all (fun l => l.isNone)
  | _ => true

/-- DOMAIN_SWITCH_OFF_DONE (R502, R503): the switch opens; a held enable begins. -/
def domOffDone (s : State) (d : Nat) : State :=
  let s := pwrProgress s
  if !maskHas s.pwr.offing d || !lanesEmpty s d then s else
  let s := setBitOf { s with pwr.offing := maskSet s.pwr.offing d false } F.PWR_DOM_ON_on d false
  let s := { s with pwr := { s.pwr with opened := maskSet (if s.pwr.openAt = s.tick then s.pwr.opened else 0) d (bitOf s F.PWR_DOM_PEND_pend d)
                                        openAt := s.tick } }
  let s := match d with
    | 22 | 23 =>
      if maskHas s.pwr.offing 22 || maskHas s.pwr.offing 23 then s else
      let s := { s with drv.stopping := false }
      if s.drv.held then beginTraining s else s
    | 26 => portDomainOff s 0
    | 27 => portDomainOff s 1
    | _ => s
  pwrProgress (domFollow s)

/-- An input wakes (R505). -/
def inputWake (s : State) (n : Nat) : State := modIn (inputsSeen s) n (fun i => { i with since := s.tick, dpDown := none })

/-- Wake by an input (R504, R505): an exit event of P2, and of P3 and P4 when enabled; of P0 and P1 it is none. -/
def inputWakes (s : State) (n : Nat) (en : Bool) : State :=
  let s := inputWake s n
  let deep := pwrState s = 3 || pwrState s = 4 || 3 ≤ pwrTarget s
  if deep then (if en then wakeUp (wakeN s) 1 else s)
  else if pwrState s = 2 || pwrTarget s = 2 then wakeUp s 1 else s

/-- AUX_TRANSACTION (R505, R511). -/
def auxTransaction (s : State) (r : AuxReq) : State :=
  let deferred := !domOn s 6
  let s := { s with pwr.auxDefer := deferred }
  match deferred, r with
  | false, .setPower true => modIn s 0 (fun i => { i with dpDown := some s.tick })
  | _, _ => inputWakes s 0 (on s F.PWR_WAKE_EN_aux)

/-- SDI_CARRIER_DETECT (R505): pair n carries input n + 1. -/
def sdiCarrier (s : State) (n : Nat) : State :=
  if !inEnabled s (n + 1) && !(on s (F.ING_IN_CFG_quad 1) && inEnabled s 1) then s
  else inputWakes s (if on s (F.ING_IN_CFG_quad 1) then 1 else n + 1) (bitOf s F.PWR_WAKE_EN_sdi n)

/-- MGT_CS_N_WAKE (R504). -/
def mgtWake (s : State) : State :=
  if on s F.PWR_WAKE_EN_mgt && (pwrState s = 3 || pwrState s = 4 || 3 ≤ pwrTarget s) then wakeUp (wakeN s) 4 else s

/-- PERST_N_WAKE (R509): from P4. -/
def perstWake (s : State) : State :=
  if on s F.PWR_WAKE_EN_perst && (pwrState s = 4 || pwrTarget s = 4) then wakeUp { s with pwr.perst := true } 3 else s

/-- PERST_N_RISE (R509): WAKE_N is released; enumeration is the host's. -/
def perstRise (s : State) : State := { s with pwr := { s.pwr with wakeLow := false, perst := true } }

/-- P3_EXIT (R508): self-refresh ends, every channel in use is retrained, every domain is switched on. -/
def p3Exit (s : State) : State :=
  if pwrState s = 3 && s.pwr.exitDue then
    let s := { s with mem.trainAt := List.replicate 8 s.tick }
    pwrProgress (domFollow { s with pwr := { s.pwr with stage := .exit, exitDue := false, fromP3 := true } })
  else s

/-- DIE_SENSOR_SAMPLE (R564, Table 14.7): the hottest reading; alarm THERM at 110 degrees or more. -/
def dieSample (s : State) (rs : List (BitVec 16)) : State :=
  match rs with
  | [] => s
  | r :: l =>
    let t := l.foldl (fun (m : Int) x => max m x.toInt) r.toInt
    let s := wrS s F.PPX_TEMP_die t
    if 110 * 16 ≤ t then alarmSet s almTHERM else s

/-- PWR_CLR_CNT (R515): a second of P2 that ends in this tick still counts (R569); the part of a second begun is dropped (DESIGN CHOICE, log
entry 82). -/
def pwrClrCnt (s : State) : State :=
  let n := ovcTicks s
  let ends := pwrState s = 2 && n != 0 && n % Config.tickHz = 0
  let s := clearRegs s [F.PWR_CNT_STATE.off, F.PWR_OVC_TIME.off]
  wrB { s with pwr := { s.pwr with ovc := if ends then Config.tickHz else 0, ovcFrom := s.tick } } F.PWR_STATUS_wr_ign false

/-! Meanings -/

def execPowerStateChoice (s : State) : Host.Outcome State Fault Refusal := .next (powerStateChoice s)
def execDomainSwitchOnDone (d : Dom) (s : State) : Host.Outcome State Fault Refusal := .next (domOnDone s d.val)
def execDomainSwitchOffDone (d : Dom) (s : State) : Host.Outcome State Fault Refusal := .next (domOffDone s d.val)
def execAuxTransaction (r : AuxReq) (s : State) : Host.Outcome State Fault Refusal := .next (auxTransaction s r)
def execSdiCarrierDetect (n : Fin 4) (s : State) : Host.Outcome State Fault Refusal := .next (sdiCarrier s n.val)
def execMgtCsNWake (s : State) : Host.Outcome State Fault Refusal := .next (mgtWake s)
def execPerstNWake (s : State) : Host.Outcome State Fault Refusal := .next (perstWake s)
def execP3Exit (s : State) : Host.Outcome State Fault Refusal := .next (p3Exit s)
def execDieSensorSample (readings : List (BitVec 16)) (s : State) : Host.Outcome State Fault Refusal := .next (dieSample s readings)
def execPerstNRise (s : State) : Host.Outcome State Fault Refusal := .next (perstRise s)

end Sys2Proof.Machine
end

