-- ==== Sys2Proof/Machine/Image.lean ====
section
/-!
DEFINITION. The configuration image (ch. 13, R412 to R421): its layout, the checks of Tables 13.6 and 13.7, and its sections.
-/

namespace Sys2Proof.Machine

/-! Layout (R415) -/

/-- A directory entry (Table 13.3); `clean` says that its reserved fields are 0. -/
structure Sect where
  typ : Nat
  ext : Bool
  off : Nat
  len : Nat
  crc : Nat
  dest : Nat
  blk : Nat
  bank : Nat
  table : Nat
  clean : Bool
  sha : List Byte
  deriving DecidableEq, Repr

/-- Where an image is read: its source (0 flash, 1 local store) and offset, directory entries and length. -/
structure Img where
  src : Nat
  base : Nat
  n : Nat
  len : Nat
  deriving DecidableEq, Repr

/-- Bytes of the image. -/
def imgRd (s : State) (m : Img) (off n : Nat) : List Byte := if m.src = 0 then flashRd s off n else lstRd s (m.base + off) n

/-- A word of a staged image that Gauntlet reads is uncorrectable (R403, R421). -/
def imgBad (s : State) (m : Img) (off n : Nat) : Bool := m.src = 1 && wordsPoisoned s (m.base + off) n

/-- A directory entry from its bytes. -/
def sectOf (b : List Byte) : Sect :=
  let t := leAt b 2 2
  let d := leAt b 16 8
  let x := leAt b 24 4
  let typ := leAt b 0 2
  let ext := t % 2 == 1
  { typ := typ, ext := ext, off := leAt b 4 4, len := leAt b 8 4, crc := leAt b 12 4, dest := d % 2 ^ 40,
    blk := bits x 17 16, bank := bits x 8 8, table := bits x 3 0,
    clean := t / 2 = 0 && d / 2 ^ 40 = 0 && x / 2 ^ 18 = 0 && bits x 15 9 = 0 && bits x 7 4 = 0 && leAt b 28 20 = 0
      && (!ext || typ = 4) && (typ = 2 || typ = 4 || d = 0)
    sha := slice b 48 48 }

/-- The directory. -/
def imgSects (s : State) (m : Img) : List Sect := (List.range m.n).map (fun i => sectOf (imgRd s m (64 + 96 * i) 96))

/-- The body of an entry. -/
def sectBody (s : State) (m : Img) (c : Sect) : List Byte := if c.ext then flashRd s c.off c.len else imgRd s m c.off c.len

/-! Sections applied (R419, Table 13.4) -/

/-- The bits of a register that a record writes. -/
def RegDesc.writable (d : RegDesc) : Nat := d.rw ||| d.cnd ||| d.v ||| d.s ||| d.n

/-- EVT.RING_CFG.en has become 1: the MSI-X vector is armed (R455). -/
def ringArm (old s : State) : State :=
  if !on old F.EVT_RING_CFG_en && on s F.EVT_RING_CFG_en then wrB s F.EVT_STATUS_armed true else s

/-- One REG record: value and shadow of every field it touches (R419). The data word of a table access stores its word. -/
def applyReg (s : State) (off : Nat) (v : Word) : State :=
  if off = F.PPX_TBL_DATA_data.off then
    let t := rd s F.PPX_TBL_SEL_table
    let i := rd s F.PPX_TBL_IDX_index
    wr (if i < tblLen t then tblPut s (rd s F.PPX_TBL_SEL_bank) t i v.toNat else s) F.PPX_TBL_IDX_index (i + 1)
  else if off = F.AGE_TBL_DATA_data.off then
    let t := rd s F.AGE_TBL_SEL_table
    let i := rd s F.AGE_TBL_IDX_index
    wr (if i < ageTblLen t then ageTblPut s t i v.toNat else s) F.AGE_TBL_IDX_index (i + 1)
  else match regAt off with
    | none => s
    | some d =>
      let m := BitVec.ofNat 32 d.writable
      let r := BitVec.ofNat 32 d.rws
      let t := wrW s off ((rdW s off &&& ~~~m) ||| (v &&& m))
      ringArm s (if d.rws = 0 then t else wrShW t off ((rdShW t off &&& ~~~r) ||| (v &&& r)))

/-- The records of a REG body. -/
def regRecords (bs : List Byte) : List (Nat × Word) :=
  (List.range (bs.length / 8)).map (fun i => (leAt bs (8 * i) 4, BitVec.ofNat 32 (leAt bs (8 * i + 4) 4)))

/-- Apply one section of step 5. -/
def applySect (m : Img) (s : State) (c : Sect) : State :=
  let b := sectBody s m c
  match c.typ with
  | 1 => (regRecords b).foldl (fun s r => applyReg s r.1 r.2) s
  | 2 => lstKeep s c.dest b
  | 3 => (List.range (c.len / 4)).foldl (fun s i =>
      if c.blk = 0 then tblPut s c.bank c.table i (leAt b (4 * i) 4) else ageTblPut s c.table i (leAt b (4 * i) 4)) s
  | 5 => { s with boot.did := b }
  | _ => s

/-- Apply the sections of step 5 in directory order. -/
def applySects (s : State) (m : Img) : State := (imgSects s m).foldl (applySect m) s

/-! Content (R418) -/

/-- A REG record is allowed. SCN.COMMIT, whose fields are RO and WO, is neither wholly RO nor wholly WO; no other register of that kind has no
writable bit. -/
def regRecordOk (r : Nat × Word) : Bool :=
  match regAt r.1 with
  | none => false
  | some d => r.1 / 65536 != 0x10 && (d.writable != 0 || r.1 = F.SCN_COMMIT.off) && (r.2 &&& ~~~(BitVec.ofNat 32 d.writable)) == 0#32

/-- A section's content is allowed; `t` is the state that the step-5 sections would leave. -/
def sectOk (s t : State) (m : Img) (c : Sect) : Bool :=
  let b := sectBody s m c
  match c.typ with
  | 1 => c.len % 8 = 0 && (regRecords b).all regRecordOk
  | 2 => decide (c.dest + c.len ≤ 0xF80000)
  | 3 => c.len % 4 = 0 && (if c.blk = 0 then decide (c.table ≤ 8) && decide (c.len / 4 ≤ tblLen c.table)
      else c.blk = 1 && decide (c.table ≤ 2) && decide (c.len / 4 ≤ ageTblLen c.table))
  | 4 => (List.range 1024).any (fun i => let u := surf t i
      u.valid && decide (u.base ≤ c.dest) && decide (c.dest + c.len ≤ u.base + surfBytes u))
  | 5 => decide (1 ≤ c.len) && decide (c.len ≤ 1024)
  | _ => c.len = 16 && leAt b 10 6 = 0

/-! Semantic checks (Table 13.7), on the values the records would leave -/

/-- Reference periods of Table 2.1. -/
def triRates : List Nat := [62562500, 62500000, 60000000, 50050000, 50000000, 30000000, 25025000, 25000000]

/-- Row 1: R28 and R30. -/
def checkTmb (s : State) : Bool :=
  let p := picPeriod s
  let m := p * rd s F.TMB_REF_RATIO_pic_mul
  let d := rd s F.TMB_REF_RATIO_ref_div
  let t := tRef s
  decide (isWorker s = decide (refSrc s = 5)) && d != 0 && m % d = 0 &&
  (match refSrc s with
   | 0 => decide (12500000 ≤ p) && decide (p ≤ 150000000)
   | 1 => triRates.contains t
   | 2 => [30000000, 25025000].contains t
   | 3 => decide (25000000 ≤ t) && decide (t ≤ 62562500)
   | 4 => decide (6250000 ≤ t) && decide (t ≤ 150000000)
   | 5 => true
   | _ => false)

/-- The state with every measured camera at its configured open phase (R79). -/
def nominalCams (s : State) : State := (List.range 4).foldl (fun s n => if camMeasured s n then wr s (F.EXS_CAM_CFG_mode n) 1 else s) s

/-- A nominal pass of the check: its windows and its scan start. -/
abbrev NomPass := List CamWin × Int

/-- Occupancy of row y of a nominal pass (R77). -/
def nomOcc (g : Nat) (p : NomPass) (y : Nat) : Int × Int :=
  let w := p.2 + (match p.1 with | x :: _ => stepOf x.q y | [] => 0)
  (w, p.1.foldl (fun m x => max m (x.gClose y)) (w + g))

/-- Two nominal passes break R78 or have overlapping occupancies of different cameras (R79). -/
def nomClash (h g vmin : Nat) (x y : NomPass) : Bool :=
  let dx : Int := match x.1 with | w :: _ => stepOf w.q h | [] => 0
  let dy : Int := match y.1 with | w :: _ => stepOf w.q h | [] => 0
  (decide (x.2 < y.2 + dy + vmin) && decide (y.2 < x.2 + dx + vmin)) ||
  (lowCam x.1 != lowCam y.1 && (List.range h).any (fun r =>
    let a := nomOcc g x r
    let b := nomOcc g y r
    decide (a.1 < b.2) && decide (b.1 < a.2)))

/-- Some pair of a list is related. -/
def anyPair {α : Type} (f : α → α → Bool) : List α → Bool
  | [] => false
  | x :: r => r.any (f x) || anyPair f r

/-- The nominal passes of three periods from boundary b. -/
def nomPasses (s : State) (b : Nat) : List NomPass :=
  let h := panelH s
  ((joinWins h (rd s F.EXS_SCAN_prog_gap) (((List.range 4).filter (camActive s)).flatMap (fun n => camWindows s n b []))).map
    (fun g => (match g with
      | w :: r => (({ w with cam := lowCam g } :: r : List CamWin), nomStart h g)
      | [] => ([], 0))))

/-- The periods of the nominal schedule, one boundary after another (R94, R318). -/
def nomCycle : Nat → Nat → State → State
  | 0, _, s => s
  | n + 1, b, s =>
    let s := buildBank { s with tmb := { s.tmb with next := some b, picNext := s.tmb.picNext + 1 } } b
    nomCycle n (b + picPeriod s) (swapBanks { s with tmb := { s.tmb with pic := some s.tmb.picNext, bound := b } } b true).2

/-- The state after four periods of the nominal schedule. -/
def nominal (s : State) : State :=
  let s := nominalCams s
  nomCycle 4 (16 * picPeriod s) { s with exs := Exs.reset, tmb := Tmb.reset, scn := Scn.reset, drv.pulses := [] }

/-- Row 2: R59, R60, R71, R79, R94. -/
def checkExs (s : State) : Bool :=
  let s := nominalCams s
  let p := picPeriod s
  let act := (List.range 4).filter (camActive s)
  let b := 16 * p
  let k := buildSettings s b
  let ps := nomPasses s b
  (List.range 4).all (fun n => rd s (F.EXS_CAM_CFG_mode n) != 3 && decide (rd s (F.EXS_CAM_CFG_view n) ≤ 3))
  && act.all (fun n => p % camRate s n = 0 && decide (rd s (F.EXS_CAM_OPEN_phase n) < camPeriod s n))
  && act.all (fun n => let w := mkWin s n 0 (camExposure s n)
      decide (camExposure s n + 2 * w.brim + w.d w.y1 < p))
  && decide ((ps.filter (fun x => decide (((b + p : Nat) : Int) ≤ x.2) && decide (x.2 < ((b + 2 * p : Nat) : Int)))).length ≤ k.nMax)
  && !anyPair (nomClash k.h k.g k.vmin) ps
  && decide (rd s F.EXS_HOUSE_min_duty ≤ rd s F.EXS_HOUSE_target) && !on (nominal s) F.EXS_STATUS_shortfall

/-- A transfer table is monotonically non-decreasing (R106). -/
def xferMono (s : State) (base : Nat) : Bool :=
  (List.range 4096).all (fun i => decide (tblEntry (rdW s) base i ≤ tblEntry (rdW s) base (i + 1)))

/-- Surfaces of input n's pool, and the room each needs (Table 13.7, row 3). -/
def poolOf (s : State) (n : Nat) : List Nat := List.range' (rd s (F.ING_IN_POOL_first n)) (rd s (F.ING_IN_POOL_count n))
def poolRoom (s : State) (n : Nat) : Nat :=
  3 * (blocksOf (rd s (F.ING_IN_MAX_w_max n) + 1) * blocksOf (rd s (F.ING_IN_MAX_h_max n) + 1)) * allocLen 16

/-- The receive pool of a worker (R377). -/
def rxPool (s : State) : List Nat :=
  if isWorker s then List.range' (rd s F.ORL_RX_POOL_first) (rd s F.ORL_RX_POOL_count) else []

/-- Bytes that surface i takes: its planes, and the room of a pool it belongs to. -/
def surfRoom (s : State) (i : Nat) : Nat :=
  let u := surf s i
  let a := if u.valid then surfBytes u else 0
  let b := (List.range 5).foldl (fun m n => if inEnabled s n && (poolOf s n).contains i then max m (poolRoom s n) else m) a
  if (rxPool s).contains i then max b (rd s F.ORL_RX_POOL_stride * 2 ^ 20) else b

/-- The surfaces' allocations. -/
def surfAllocs (s : State) : List (Nat × Nat) :=
  ((List.range 1024).map (fun i => ((surf s i).base, surfRoom s i))).filter (fun x => x.2 != 0)

/-- Two spans meet. -/
def spansMeet (x y : Nat × Nat) : Bool := x.2 != 0 && y.2 != 0 && decide (x.1 < y.1 + y.2) && decide (y.1 < x.1 + x.2)

/-- Row 3: R101, R106, pools. -/
def checkIng (s : State) : Bool :=
  let ins := (List.range 5).filter (inEnabled s)
  let surfs := surfAllocs s
  [0, 2, 3, 4].all (fun n => !on s (F.ING_IN_CFG_quad n))
  && ins.all (fun n => xferMono s (0x44000 + 0x2100 * n))
  && !anyPair (fun a b => (poolOf s a).any (fun i => (poolOf s b).contains i)) ins
  && ins.all (fun n => (poolOf s n).all (fun i =>
      let a := ((surf s i).base, poolRoom s n)
      decide (i < 1024) && decide (a.1 + a.2 ≤ memCap s) && ((surfs.filter (fun x => spansMeet a x)).length ≤ 1)))

/-- Row 4: R175, R185, R192. -/
def checkScn (s : State) : Bool :=
  timingOk s (panelW s) (panelH s) (rd s F.SCN_LINE_q_min) (rd s F.SCN_VBLANK_v_min)
  && [1, 2, 3].all (fun t => xferMono s (scnXferBase t))
  && decide (rd s F.SCN_WMARK_crit < rd s F.SCN_WMARK_mid) && decide (rd s F.SCN_WMARK_mid < rd s F.SCN_WMARK_low)
  && decide (rd s F.SCN_WMARK_low ≤ 64)

/-- Row 5: R213 with the META bytes, R227, R230, R243. -/
def checkPpx (s : State) (mb : List Byte) : Bool :=
  (List.range 10).all (fun i => let h := leAt mb i 1; h = 0xFF || h = rd s F.PPX_CFG_headroom)
  && (List.range 4).all (fun b =>
      rd s (F.PPX_ELWF_mask_lo b) % 2 ^ (rd s (F.PPX_ELWF_n_m1_lo b) + 1) != 0
      && rd s (F.PPX_ELWF_mask_hi b) % 2 ^ (rd s (F.PPX_ELWF_n_m1_hi b) + 1) != 0)
  && (List.range 6).all (fun k => decide (bandThr s (k + 1) + 49 ≤ bandThr s (k + 2)))
  && rd s F.PPX_BL_CFG_min != 0

/-- Row 6: R261, R264, R269, R276; `img` is the length of an image in the flash. -/
def checkAge (s : State) (img : Nat) : Bool :=
  let nch := rd s F.DRV_CFG_n_ch
  let ng := if nch = 0 then 0 else (3 * panelW s + nch - 1) / nch
  let a := ckptSpan s 0
  let b := ckptSpan s 1
  let least := 4096 + 3 * (64 + panelBW s * panelBH s * 2064)
  (List.range 3).all (fun c => (List.range 16).all (fun i =>
    decide (etaOf s c (i + 1) ≤ etaOf s c i) && decide (thetaOf s c i ≤ thetaOf s c (i + 1))))
  && !(on s F.AGE_CFG_drz_en && isLC s)
  && decide (rd s F.AGE_DRZ_CFG_max_rows * ng * (100 + 31 * nch + rd s F.DRV_BACK_guard) ≤ 50000 * rd s F.AGE_DRZ_CFG_gap_ms)
  && !spansMeet a b && !spansMeet a (0, img) && !spansMeet b (0, img) && decide (least ≤ a.2) && decide (least ≤ b.2)

/-- Row 7: R290, R315, R318. -/
def checkDrv (s : State) : Bool :=
  let outs := (List.range 32).map (fun n => (rd s (F.DRV_GT_CFG_func n), rd s (F.DRV_GT_CFG_sel n)))
  let used := fun f => outs.any (fun o => o.1 = f)
  timingOk s (panelW s) (panelH s) (rd s F.SCN_LINE_q_min) (rd s F.SCN_VBLANK_v_min)
  && [1, 2, 3, 4, 5].all (fun f => !used f || decide (gtOn s f < gtOff s f))
  && (!used 4 || decide (0 ≤ gtOn s 4)) && (!used 1 || decide (-(2 * q0 s : Int) ≤ gtOn s 1))
  && outs.all (fun o => (o.1 != 2 || decide (o.2 ≤ rd s F.DRV_GATE_nph_m1)) && (o.1 != 6 || decide (o.2 ≤ 12)))
  && (if isLC s then (List.range 16).all (fun n => rd s (F.DRV_EM_CFG_func n) = 0) else rd (nominal s) F.DRV_CNT_EMDROP_passes = 0)

/-- PMBus records that some step names. -/
def pmbReferenced (s : State) : List Nat :=
  ((List.range 8).filter (fun k => on s (F.PSQ_UP_en k) && on s (F.PSQ_UP_pmb_en k))).map (fun k => rd s (F.PSQ_UP_pmb_idx k))
  ++ ((List.range 8).filter (fun k => on s (F.PSQ_DN_pmb_en k))).map (fun k => rd s (F.PSQ_DN_pmb_idx k))

/-- Row 8: R327, R330, R338, R342. -/
def checkPsq (s : State) : Bool :=
  let steps := (List.range 8).filter (fun k => on s (F.PSQ_UP_en k))
  !steps.isEmpty && !anyPair (fun a b => railOf s a = railOf s b) steps
  && decide (rd s F.PSQ_BLACK_code < 2 ^ driveDepth s) && rd s F.PSQ_BLACK_n_on != 0
  && (pmbReferenced s).all (fun i => decide (leAt (lstRd s (rd s F.PSQ_PMB_CFG_offset + 8 * i) 8) 2 1 % 8 ≤ 4))
  && decide (4 * rd s F.PSQ_CRK_CFG_settle ≤ rd s F.SCN_VBLANK_v_min)

/-- Bits per second that rule r distributes at worst (R381). -/
def ruleLoad (s : State) (r : Nat) : Nat :=
  let n := rd s (F.ORL_DIST_SRC_inp r)
  let blocks := (rd s (F.ORL_DIST_RECT_w_m1 r) + 1) * (rd s (F.ORL_DIST_RECT_h_m1 r) + 1)
  let depth := if on s (F.ING_IN_CFG_store n) && n != 0 then 12 else 16
  blocks * 3 * (allocLen depth + 56) * 8 * rd s (F.ORL_DIST_SRC_rate r)

/-- Row 9: R349, R362, R374, R381, and the receive pool's surfaces, which no other pool has. -/
def checkOrl (s : State) : Bool :=
  if !on s F.ORL_CFG_en then true else
  let rules := (List.range 16).filter (fun r => on s (F.ORL_DIST_SRC_en r))
  let bdiv := rd s F.ORL_TIME_bdiv
  let load := rules.foldl (fun a r => a + ruleLoad s r) (rd s F.ORL_DIST_CFG_host_gbps * 10 ^ 9)
  decide (ringPos s < nDev s) && (isWorker s != (ringPos s = 0))
  && decide (1 ≤ bdiv) && decide (bdiv ≤ 64) && picPeriod s % bdiv = 0
  && decide (load ≤ 96 * 10 ^ 9) && (!on s F.ORL_DIST_CFG_dual || (isRing s && decide (2 * load ≤ 96 * 10 ^ 9)))
  && (rxPool s).all (fun i => decide (i < 1024) && (List.range 5).all (fun n => !inEnabled s n || !(poolOf s n).contains i))
  && (isWorker s || rules.all (fun r =>
      let n := rd s (F.ORL_DIST_SRC_inp r)
      let x := rd s (F.ORL_DIST_RECT_sbx0 r)
      let y := rd s (F.ORL_DIST_RECT_sby0 r)
      let w := rd s (F.ORL_DIST_RECT_w_m1 r) + 1
      let h := rd s (F.ORL_DIST_RECT_h_m1 r) + 1
      let d := rd s (F.ORL_DIST_SRC_dst r)
      d != 0 && decide (d < nDev s) && decide (n < 5)
      && decide (x + w ≤ blocksOf (rd s (F.ING_IN_MAX_w_max n) + 1)) && decide (y + h ≤ blocksOf (rd s (F.ING_IN_MAX_h_max n) + 1))
      && (!on s (F.ING_IN_CFG_store n) || [x, y, w, h].all (fun k => k % 2 = 0)) && rd s (F.ORL_DIST_SRC_rate r) != 0))

/-- The GDDR6 allocations (Table 13.7, row 11). -/
def gddrAllocs (s : State) : List (Nat × Nat) :=
  let nb := panelBW s * panelBH s
  surfAllocs s ++ (List.range 5).map (fun v => (histBase s v, 3 * nb * allocLen 12))
  ++ [(stressAddr s 0 0 0, 12288 * nb), (capBase s, capBytes s),
      (4096 * rd s F.EVT_TRC_LO_addr + 2 ^ 32 * rd s F.EVT_TRC_HI_addr,
       if on s F.EVT_TRC_CFG_en then 2 ^ rd s F.EVT_TRC_CFG_log2sz else 0)]

/-- Row 10: R392 with the capacity of Table 12.2. -/
def checkMem (s : State) : Bool := (gddrAllocs s).all (fun x => x.2 = 0 || decide (x.1 + x.2 ≤ memCap s))

/-- Gauntlet's session buffer, which may lie in the mailbox (Table 15.10). -/
def sesSpan (s : State) : Nat × Nat := (rd s F.SEC_SES_BUF_offset, 512)

/-- The tables of the local store (the first six), an event ring in it (R453), Gauntlet's report buffer (Table 15.10), and a staged image. -/
def lstAllocs (s : State) (m : Img) : List (Nat × Nat) :=
  [(rd s F.BLQ_SURF_BASE_offset, 32768), (rd s F.CDC_JOB_BASE_offset, 128 * 2 ^ rd s F.CDC_JOB_SIZE_log2n),
   (rd s F.PPX_CAP_REC_offset, 32 * 2 ^ rd s F.PPX_CAP_REC_log2n), (rd s F.DRV_DCFG_BASE_offset, 4 * rd s F.DRV_DCFG_LEN_words),
   (rd s F.PSQ_PMB_CFG_offset, 512), (rd s F.PPX_HHDR_BASE_offset, 5 * 0x20000)]
  ++ [(4096 * rd s F.EVT_RING_LO_addr, if on s F.EVT_RING_CFG_en && on s F.EVT_RING_CFG_space then 2 ^ rd s F.EVT_RING_CFG_log2sz else 0),
      (rd s F.SEC_ATT_BUF_offset, 4096)]
  ++ (if m.src = 1 then [(m.base, m.len)] else [])

/-- Row 11: R406, and allocations without overlap, those of spec/14_host_events.md and spec/15_security.md among them. An LST destination that lies wholly inside a table is that table's content (DEDUCED, log
entry 44). -/
def checkAlloc (s : State) (m : Img) (sects : List Sect) : Bool :=
  let low := lstAllocs s m
  let tabs := low ++ [sesSpan s]
  let dests := (sects.filter (fun c => c.typ = 2)).map (fun c => (c.dest, c.len))
  !anyPair spansMeet (gddrAllocs s)
  && !(rxPool s).any (fun i => (List.range 5).any (fun n => inEnabled s n && (poolOf s n).contains i))
  && (low ++ dests).all (fun x => x.2 = 0 || decide (x.1 + x.2 ≤ 0xF80000)) && decide ((sesSpan s).1 + (sesSpan s).2 ≤ 0x1000000)
  && !anyPair spansMeet tabs && !anyPair spansMeet dests
  && dests.all (fun d => (tabs.zip (List.range tabs.length)).all (fun t =>
      !spansMeet d t.1 || (decide (t.2 < 6) && decide (t.1.1 ≤ d.1) && decide (d.1 + d.2 ≤ t.1.1 + t.1.2))))

/-- The first row of Table 13.7 that fails. -/
def semantic (t : State) (m : Img) (sects : List Sect) (mb : List Byte) : Option Nat :=
  if !checkTmb t then some 1 else if !checkExs t then some 2 else if !checkIng t then some 3 else if !checkScn t then some 4
  else if !checkPpx t mb then some 5 else if !checkAge t (if m.src = 0 then m.len else 0) then some 6 else if !checkDrv t then some 7
  else if !checkPsq t then some 8 else if !checkOrl t then some 9 else if !checkMem t then some 10
  else if !checkAlloc t m sects then some 11 else none

/-! Register scopes of a reset (R516, R540) -/

/-- Registers of the blocks that `keep` names hold their values; the others read their reset values. -/
def resetBlocks (s : State) (keep : List Nat) : State :=
  let k := fun o : Nat => keep.contains (o / 65536)
  { s with reg := (regResets.filter (fun e => !k e.1)).foldl (fun m e => sset 0#32 m e.1 e.2) (sfilter k s.reg)
           shadow := shadowResets }

/-! The checks in order (R417, Table 13.6) -/

/-- What the checks answer: the image, or the boot status with its row of Table 13.7 and its directory entry. -/
inductive ImgResult where
  | ok (m : Img)
  | fail (code check sect : Nat)
  deriving DecidableEq, Repr

/-- The first index of a list whose element fails a test, with the element. -/
def firstFail {α : Type} (f : α → Bool) : List α → Nat → Option (Nat × α)
  | [], _ => none
  | x :: r, i => if f x then firstFail f r (i + 1) else some (i, x)

/-- Check 6 (Table 13.6); the checkpoint slots are those the REG records would leave. -/
def dirOk (s t : State) (m : Img) (sects : List Sect) : Bool :=
  let lo := 64 + 96 * m.n
  let hi := m.len - 256
  let inside := sects.filter (fun c => !c.ext)
  sects.all (fun c => decide (1 ≤ c.typ) && decide (c.typ ≤ 6) && c.clean)
  && inside.all (fun c => decide (lo ≤ c.off) && decide (c.off + c.len ≤ hi) && c.off % 16 = 0)
  && !anyPair (fun a b => spansMeet (a.off, a.len) (b.off, b.len)) inside
  && (sects.filter (fun c => c.ext)).all (fun c =>
      decide (c.off + c.len ≤ s.nv.flashSize) && (m.src = 1 || !spansMeet (c.off, c.len) (0, m.len))
      && !spansMeet (c.off, c.len) (ckptSpan t 0) && !spansMeet (c.off, c.len) (ckptSpan t 1))
  && (sects.filter (fun c => c.typ = 6)).length = 1 && decide ((sects.filter (fun c => c.typ = 5)).length ≤ 1)

/-- Checks 12 to 14. -/
def bodyChecks (s t : State) (m : Img) (sects : List Sect) : ImgResult :=
  let crcOk := fun c : Sect => c.typ = 4 || (!(!c.ext && imgBad s m c.off c.len) && crc32 (sectBody s m c) = c.crc)
  let shaOk := fun c : Sect => c.typ = 4 || sha384 (sectBody s m c) == c.sha
  match firstFail (fun c => crcOk c && shaOk c) sects 0 with
  | some (i, c) => .fail (if crcOk c then 0x0D else 0x0C) 0 i
  | none =>
    match firstFail (sectOk s t m) sects 0 with
    | some (i, _) => .fail 0x0E 0 i
    | none =>
      match semantic t m sects ((sects.filter (fun c => c.typ = 6)).flatMap (sectBody s m)) with
      | some k => .fail 0x10 k 0
      | none => .ok m

/-- Checks 2 to 14 of Table 13.6, for an image in the flash (src 0) or staged at NVM.HBOOT.offset (src 1). A register that no record writes
counts at its reset value (R417). -/
def imgCheck (s : State) (src : Nat) : ImgResult :=
  let base := if src = 0 then 0 else rd s F.NVM_HBOOT_offset
  let h0 : Img := ⟨src, base, 0, 0⟩
  let h := imgRd s h0 0 64
  let m : Img := ⟨src, base, leAt h 6 2, leAt h 8 4⟩
  let n := m.n
  let lim := if src = 0 then s.nv.flashSize else if s.nv.flashSize = 0 then 0xF80000 - base else min (0xF80000 - base) s.nv.flashSize
  if leAt h 0 4 = 0xFFFFFFFF then .fail 0x02 0 0
  else if leAt h 0 4 != 0x3149435A then .fail 0x03 0 0
  else if imgBad s h0 0 64 || leAt h 60 4 != crc32 (h.take 60) then .fail 0x04 0 0
  else if leAt h 4 2 != 1 || leAt h 20 2 != 0x8820 || leAt h 22 1 != 0xA1 || leAt h 23 37 != 0 || n < 1 || 1024 < n
    || m.len < 64 + 96 * n + 256 || lim < m.len || m.len % 16 != 0 || base % 16 != 0 then .fail 0x05 0 0
  else
    let sects := imgSects s m
    let t := applySects (resetBlocks s []) m
    let g := imgRd s m (m.len - 256) 256
    let e := shaNum (imgRd s m 0 (64 + 96 * n))
    if !dirOk s t m sects then .fail 0x06 0 0
    else if leAt g 0 4 != 0x3147535A || leAt g 4 2 != 1 || leAt g 6 2 != 0 || leAt g 200 56 != 0 then .fail 0x07 0 0
    else if lifecycleOf s.sec != lcOWNED then .fail 0x08 0 0
    else if !ownerKeyOk s (slice g 8 96) then .fail 0x09 0 0
    else if imgBad s m 0 (64 + 96 * n) || imgBad s m (m.len - 256) 256 || !ecdsaVerify (pointAt g 8) e (beAt g 104) (beAt g 152)
      then .fail 0x0A 0 0
    else if leAt h 16 4 < arbCounter s.sec.arbRow then .fail 0x0B 0 0
    else bodyChecks s t m sects

/-- What a loaded image reports: its version, anti-rollback value and hash (R415, R484). -/
def imgReport (s : State) (m : Img) : State :=
  let h := imgRd s m 0 64
  let s := { s with sec.imgHash := some (sha384 (imgRd s m 0 (64 + 96 * m.n))) }
  wr (wr s F.NVM_IMG_VER_ver (leAt h 12 4)) F.NVM_IMG_ARB_arb (leAt h 16 4)

/-- Step 7's GDR bodies, in directory order (R417): the state, and the boot status and entry of the first failure. -/
def loadGdr (m : Img) (errs : List Nat) : List (Sect × Nat) → State → State × Option (Nat × Nat)
  | [], s => (s, none)
  | (c, i) :: r, s =>
    if c.typ != 4 then loadGdr m errs r s else
    let b := sectBody s m c
    if errs.contains i then (s, some (0x14, i)) else
    let s := gddrWr s 7 c.dest b
    if (!c.ext && imgBad s m c.off c.len) || crc32 b != c.crc then (s, some (0x12, i))
    else if sha384 b != c.sha then (s, some (0x13, i))
    else loadGdr m errs r s

end Sys2Proof.Machine
end

