-- ==== Sys2Proof/Machine/Jobs.lean ====
section
/-!
DEFINITION. Host codec jobs (ch. 5, R162 to R171), and what a finished compress or decode lane hands to its user (R150, R159). A job has one
block in a lane at a time (DESIGN CHOICE, log entry 47).
-/

namespace Sys2Proof.Machine

/-! The job descriptor (R163, Table 5.9) -/

/-- A field of the descriptor: n bytes at i. -/
def Job.at_ (j : Job) (i n : Nat) : Nat := leAt j.desc i n
def Job.op (j : Job) : Nat := j.at_ 0 4 % 16
def Job.depth (j : Job) : Nat := bits (j.at_ 0 4) 5 4
def Job.srcLst (j : Job) : Bool := bits (j.at_ 0 4) 6 6 == 1
def Job.dstLst (j : Job) : Bool := bits (j.at_ 0 4) 7 7 == 1
def Job.submit (j : Job) : Bool := bits (j.at_ 0 4) 8 8 == 1
def Job.opaq (j : Job) : Bool := bits (j.at_ 0 4) 9 9 == 1
def Job.irq (j : Job) : Bool := bits (j.at_ 0 4) 10 10 == 1
def Job.w (j : Job) : Nat := j.at_ 4 2 % 8192 + 1
def Job.h (j : Job) : Nat := j.at_ 6 2 % 8192 + 1
def Job.src (j : Job) : Nat := j.at_ 8 8 % 2 ^ 40
def Job.srcAux (j : Job) : Nat := j.at_ 16 4
def Job.tag (j : Job) : Nat := j.at_ 20 4
def Job.dst (j : Job) : Nat := j.at_ 24 8 % 2 ^ 40
def Job.dstAux (j : Job) : Nat := j.at_ 32 4
def Job.surface (j : Job) : Nat := j.at_ 36 2 % 1024
def Job.plane (j : Job) : Nat := j.at_ 38 1 % 4
def Job.bx0 (j : Job) : Nat := j.at_ 40 1
def Job.by0 (j : Job) : Nat := j.at_ 41 1
def Job.first (j : Job) : Nat := j.at_ 44 4
def Job.ver (j : Job) : VerDesc := verDesc ((List.range 8).map (fun k => j.at_ (64 + 4 * k) 4))

/-- COMPRESS operations, and those that name a surface. -/
def Job.compress (j : Job) : Bool := decide (j.op ≤ 1)
def Job.surfOp (j : Job) : Bool := j.op = 0 || j.op = 2

/-- A reserved field of Table 5.9 is not 0. -/
def Job.rsv (j : Job) : Bool :=
  j.at_ 0 4 / 2 ^ 11 != 0 || bits (j.at_ 4 4) 31 29 != 0 || bits (j.at_ 4 4) 15 13 != 0 || j.at_ 8 8 / 2 ^ 40 != 0
  || j.at_ 24 8 / 2 ^ 40 != 0 || j.at_ 36 2 / 1024 != 0 || j.at_ 38 1 / 4 != 0 || j.at_ 39 1 != 0 || j.at_ 42 2 != 0 || j.at_ 96 32 != 0

/-- Region in blocks (R164). -/
def Job.bw (j : Job) : Nat := blocksOf j.w
def Job.bh (j : Job) : Nat := blocksOf j.h

/-- Bytes per linear sample (R164). -/
def Job.t (j : Job) : Nat := if j.depth = 0 then 1 else 2

/-- The linear region: in the local store, base and pitch. -/
def Job.linear (j : Job) : Bool × Nat × Nat := if j.compress then (j.srcLst, j.src, j.srcAux) else (j.dstLst, j.dst, j.dstAux)

/-- Bytes from the linear region's base to its end. -/
def Job.linLen (j : Job) : Nat := (j.h - 1) * j.linear.2.2 + j.w * j.t

/-- The plane block that region block i is (R164). -/
def jobBlockAddr (s : State) (j : Job) (i : Nat) : Nat :=
  planeBlockAddr (surf s j.surface) j.plane (j.bx0 + i % j.bw) (j.by0 + i / j.bw)

/-- The spans of memory a job touches: in the local store, base and length. A linear region counts whole, with the bytes between its rows (DESIGN
CHOICE, log entry 73). -/
def jobSpans (s : State) (j : Job) : List (Bool × Nat × Nat) :=
  (j.linear.1, j.linear.2.1, j.linLen) ::
  (match j.op with
   | 1 => [(j.dstLst, j.dst, j.dstAux)]
   | 3 => [(j.srcLst, j.src, j.srcAux)]
   | _ => (List.range j.bh).map (fun r => (false, jobBlockAddr s j (r * j.bw), j.bw * surfAlloc (surf s j.surface))))

/-- A span lies in memory that the codec reaches (R391, R406). An address in the local store counts with all its 40 bits: one with a bit above 23 set
lies outside (DESIGN CHOICE, log entry 73). -/
def spanInMem (s : State) (x : Bool × Nat × Nat) : Bool := decide (x.2.1 + x.2.2 ≤ if x.1 then mbxBase else memCap s)

/-- The job is refused at its start as INVALID (Table 5.11). A surface that is not valid ends it so too, and whether the region lies in the plane is
judged in whole blocks (DESIGN CHOICE, log entry 73). -/
def jobInvalid (s : State) (j : Job) : Bool :=
  let u := surf s j.surface
  let pitch := j.linear.2.2
  3 < j.op || j.rsv || (j.submit && j.op != 0) || pitch % 16 != 0 || pitch < j.w * j.t || !(jobSpans s j).all (spanInMem s)
  || (j.compress && j.bw * j.bh ≤ j.first)
  || (j.surfOp && (!u.valid || u.depth != j.depth || planeCount u ≤ j.plane || blocksOf (planeDim u j.plane).1 < j.bx0 + j.bw
        || blocksOf (planeDim u j.plane).2 < j.by0 + j.bh))
  || (j.op = 0 && (surfRefs s j.surface != 0 || ingWriting s j.surface || u.owner ≤ 4))

/-- A source or destination touches a protected allocation (R494). -/
def jobProtected (s : State) (j : Job) : Bool := (jobSpans s j).any (fun x => !x.1 && touchesProt s x.2.1 x.2.2)

/-- Set the running job. -/
def setJob (s : State) (j : Job) : State := { s with cdc.job := some j }

/-- The job's end becomes due: a job that an earlier tick's abort stops ends ABORTED, whatever its last block brings; one that ends in the abort's
tick keeps its result (R171). -/
def jobEnds (s : State) (j : Job) (result cause sub : Nat) : State :=
  let late := match j.abort with | some t => decide (t < s.tick) | none => false
  setJob s { j with ended := some (if late then (6, 0, 0) else (result, cause, sub)), busy := false }

/-- A refusal under R494 is counted and posted. -/
def jobRefused (s : State) (j : Job) : State :=
  jobEnds (warning (bump s F.SEC_CNT_REFUSE_job) blkSEC 0 F.SEC_CNT_REFUSE_job) j 5 0 0

/-! Blocks -/

/-- Bytes at an address of either memory. -/
def spaceRd (s : State) (lst : Bool) (a n : Nat) : List Byte := if lst then lstRd s a n else gddrRd s a n
def spaceWr (s : State) (lst : Bool) (a : Nat) (bs : List Byte) : State := if lst then lstKeep s a bs else gddrWr s 7 a bs

/-- The linear rows of region block i: region row, address, samples. -/
def jobRows (j : Job) (i : Nat) : List (Nat × Nat × Nat) :=
  let c0 := i % j.bw * 32
  let r0 := i / j.bw * 32
  (List.range (min 32 (j.h - r0))).map (fun k => (r0 + k, j.linear.2.1 + (r0 + k) * j.linear.2.2 + c0 * j.t, min 32 (j.w - c0)))

/-- Sample (r, c) of the linear source: the bits above the depth are ignored (R164). -/
def jobSample (s : State) (j : Job) (r c : Nat) : Nat :=
  ofLe (spaceRd s j.linear.1 (j.linear.2.1 + r * j.linear.2.2 + c * j.t) j.t) % 2 ^ depthBits j.depth

/-- A row of the block's source is poisoned (R397, R403). -/
def jobPoisoned (s : State) (j : Job) (i : Nat) : Bool :=
  (jobRows j i).any (fun x => if j.linear.1 then wordsPoisoned s x.2.1 (x.2.2 * j.t) else readPoisoned s 7 x.2.1 (x.2.2 * j.t))

/-- The opaque flag of a compressed block (R152). -/
def jobOpaque (s : State) (j : Job) (xs : List Nat) : Bool :=
  if j.op = 0 && (surf s j.surface).model = 2 && j.plane = 3 then xs.all (fun x => x = 2 ^ depthBits j.depth - 1) else j.opaq

/-- The block's source rows in the local store are read: every uncorrectable word of them is found (R403). -/
def jobRowsUnc (s : State) (j : Job) (i : Nat) : State :=
  if j.linear.1 then (jobRows j i).foldl (fun s x => wordsUnc s x.2.1 (x.2.2 * j.t)) s else s

/-- The next block of the job goes to the lanes, or the job's end becomes due (R170, R171, R494). A poisoned row of the source ends the job with
cause 7: of one in GDDR6 Table 12.3 says so, of one in the local store it is a DESIGN CHOICE (log entry 73). -/
def jobNext (s : State) : State :=
  match s.cdc.job with
  | none => s
  | some j =>
    if j.ended.isSome || j.busy then s
    else if j.stop ≤ j.next then jobEnds s j 0 0 0
    else if j.abort.isSome then jobEnds s j 6 0 0
    else if jobProtected s j then jobRefused s j
    else if j.compress then
      (if jobPoisoned s j j.next then jobEnds (jobRowsUnc s j j.next) j 4 7 0 else
       let xs := regionBlock (jobSample s j) j.w j.h j.next
       askCmp (setJob s { j with busy := true })
         [{ user := 6, addr := if j.op = 0 then jobBlockAddr s j j.next else j.dst, depth := j.depth, opaque_ := jobOpaque s j xs, samples := xs,
            ad := 0, tag := .job }])
    else
      askDec (setJob s { j with busy := true })
        [⟨6, j.op = 3 && j.srcLst, if j.op = 2 then jobBlockAddr s j j.next else j.src + j.srcPos, j.depth, 0, none, .job, 0⟩]

/-- A verified block of the job (R160, R166, R169). -/
def jobCompressed (s : State) (r : CmpReq) (bs : List Byte) (raw : Bool) : State :=
  match s.cdc.job with
  | none => s
  | some j =>
    let j := { j with busy := false, vfail := if raw then j.vfail + 1 else j.vfail }
    if j.op = 0 then
      let s := countMode (gddrPut s 7 r.addr bs) bs
      let s := match j.version with | some id => blockWritten s id | none => s
      jobNext (setJob s { j with next := j.next + 1, done := j.done + 1 })
    else
      let p := pad16 bs
      let at_ := if j.done = 0 then 64 else j.bytes
      if j.dstAux < at_ + p.length then jobEnds s j (if j.done = 0 then 2 else 1) 0 0 else
      jobNext (setJob (countMode (spaceWr s j.dstLst (j.dst + at_) p) bs) { j with next := j.next + 1, done := j.done + 1, bytes := at_ + p.length })

/-- A decoded block of the job: its samples inside the region are written (R164), or the job stops at it (R170). -/
def jobDecoded (s : State) (d : Decoded) : State :=
  match s.cdc.job with
  | none => s
  | some j =>
    let j := { j with busy := false }
    match d with
    | .err c => jobEnds s j 4 c 0
    | .ok xs _ =>
      let len := if j.op = 3 then (16 + hdrLen (spaceRd s j.srcLst (j.src + j.srcPos) 16) + 15) / 16 * 16 else 0
      let s := (jobRows j j.next).foldl (fun s x =>
        spaceWr s j.linear.1 x.2.1 ((slice' xs (32 * (x.1 % 32)) x.2.2).flatMap (fun v => leBytes v j.t))) s
      jobNext (setJob s { j with next := j.next + 1, done := j.done + 1, srcPos := j.srcPos + len })
where
  slice' (xs : List Nat) (i n : Nat) : List Nat := (xs.drop i).take n

/-! Start and end of a job -/

/-- Ring entries. -/
def ringJobs (s : State) : Nat := 2 ^ rd s F.CDC_JOB_SIZE_log2n

/-- Offset of the descriptor of job number k. -/
def jobOff (s : State) (k : Nat) : Nat := rd s F.CDC_JOB_BASE_offset + 128 * (k % ringJobs s)

/-- Jobs written and not started. -/
def jobWaits (s : State) : Bool := s.cdc.job.isNone && rd s F.CDC_JOB_CONS_index != rd s F.CDC_JOB_PROD_index

/-- The job that starts next. -/
def nextJob (s : State) : Job :=
  let k := rd s F.CDC_JOB_CONS_index
  { entry := k, desc := lstRd s (jobOff s k) 128, next := 0, stop := 0, done := 0, bytes := 0, vfail := 0, version := none, srcPos := 0,
    ended := none, busy := false, abort := none }

/-- A job is taken from the ring (R162). -/
def takeJob (s : State) (j : Job) : State :=
  setJob (wrB (wr s F.CDC_JOB_CONS_index (j.entry + 1)) F.CDC_STATUS_job_running true) j

/-- COMPRESS_SURF submits its version when it starts (R169). -/
def jobSubmit (s : State) (j : Job) : State :=
  if !j.submit then jobNext (setJob s j) else
  let r := hostSubmit (resolveDue s) j.ver true (j.stop - j.next)
  if r.1 = 0 then jobNext (setJob r.2.2 { j with version := some r.2.1 }) else jobEnds r.2.2 j 7 0 r.1

/-- DECOMPRESS_PACK checks the segment header before it writes any sample (R168). A header that is poisoned or uncorrectable, or longer than the source,
fails the check (DESIGN CHOICE, log entry 73). -/
def jobHeader (s : State) (j : Job) : State :=
  let ok := decide (64 ≤ j.srcAux) && !(if j.srcLst then wordsPoisoned s j.src 64 else readPoisoned s 7 j.src 64)
  let s := if j.srcLst then wordsUnc s j.src 64 else s
  match ok, segCheck (spaceRd s j.srcLst j.src 64) j.depth j.w j.h j.srcAux with
  | true, some (first, count, _) => jobNext (setJob s { j with next := first, stop := first + count, srcPos := 64 })
  | _, _ => jobEnds s j 4 8 0

/-- The next waiting job starts, where its operation is `op` (R162, R170). A descriptor with an uncorrectable word ends it INVALID (DESIGN CHOICE, log
entry 73). -/
def jobStart (s : State) (op : Nat) : State :=
  let j := nextJob s
  if !jobWaits s || j.op != op then s else
  let s := takeJob s j
  if wordsPoisoned s (jobOff s j.entry) 128 then jobEnds (wordsUnc s (jobOff s j.entry) 128) j 3 0 0
  else if jobInvalid s j then jobEnds s j 3 0 0
  else if jobProtected s j then jobRefused s j
  else
    let j := { j with next := if j.compress then j.first else 0, stop := j.bw * j.bh }
    match j.op with
    | 0 => jobSubmit s j
    | 3 => jobHeader s j
    | _ => jobNext (setJob s j)

/-- Write a job's status fields, advance CDC.JOB_DONE and post its record (R162, R166, R168, R169, R170). -/
def jobStatus (s : State) (j : Job) (e : Nat × Nat × Nat) : State :=
  let s := if j.op = 1 && j.done != 0 then spaceWr s j.dstLst j.dst (segHeader j.depth j.w j.h j.first j.done j.bytes j.tag) else s
  let s := match j.version with
    | some id => if e.1 = 0 then s else dropWrites (withdraw s id) id
    | none => s
  let s := lstKeep s (jobOff s j.entry + 48) ([e.1, e.2.1, e.2.2, 0].flatMap (fun x => leBytes x 1) ++ leBytes j.done 4 ++ leBytes j.bytes 4
    ++ leBytes j.vfail 4)
  let s := wrB (wr { s with cdc.job := none } F.CDC_JOB_DONE_index (j.entry + 1)) F.CDC_STATUS_job_running false
  if j.irq then info s blkCDC 0 F.CDC_JOB_DONE_index [(j.entry + 1, 2), (e.1, 1)] else s

/-- Jobs that an abort ends without running (R171): as far as the limit. -/
def abortWaiting : Nat → State → State
  | 0, s => s
  | n + 1, s =>
    match s.cdc.abortTo with
    | none => s
    | some t =>
      if s.cdc.job.isSome then s
      else
        let c := rd s F.CDC_JOB_CONS_index
        if c = t % 65536 || (rd s F.CDC_JOB_PROD_index + 65536 - c) % 65536 < (t + 65536 - c) % 65536 then { s with cdc.abortTo := none }
      else
        let j := nextJob s
        abortWaiting n (jobStatus (takeJob s j) { j with version := none } (6, 0, 0))

/-- CODEC_JOB_END (R170): the running job's end, once it is due; a waiting job whose operation is reserved starts and ends INVALID. -/
def jobEnd' (s : State) : State :=
  let s := if 3 < (nextJob s).op && jobWaits s then jobStart s (nextJob s).op else s
  match s.cdc.job with
  | some j =>
    match j.ended with
    | some e => abortWaiting 65536 (jobStatus s j e)
    | none => s
  | none => s

/-- The job was made visible by a CDC.JOB_PROD write of this very tick (R171). -/
def jobFresh (s : State) (j : Job) : Bool :=
  s.cdc.prodAt == some s.tick &&
    decide ((j.entry + 65536 - s.cdc.prodOld) % 65536 < (rd s F.CDC_JOB_PROD_index + 65536 - s.cdc.prodOld) % 65536)

/-- CDC_ABORT (R171): a block in a lane completes; one that still waits for a lane does not start. A job made visible in this tick runs on. -/
def cdcAbort (s : State) : State :=
  let limit := if s.cdc.prodAt == some s.tick then s.cdc.prodOld else rd s F.CDC_JOB_PROD_index
  if (match s.cdc.job with | some j => jobFresh s j | none => false) then s else
  let s := { s with cdc.abortTo := some limit }
  match s.cdc.job with
  | some j =>
    if j.ended.isSome then s else
    let waits := s.cdc.cmpWait.any (fun r => r.tag == .job) || s.cdc.decWait.any (fun r => r.tag == .job)
    let s := { s with cdc := { s.cdc with cmpWait := s.cdc.cmpWait.filter (fun r => r.tag != .job), decWait := s.cdc.decWait.filter (fun r => r.tag != .job) } }
    jobNext (setJob s { j with abort := some (j.abort.getD s.tick), busy := j.busy && !waits })
  | none => abortWaiting 65536 s

/-- CDC_JOB_PROD_WRITE (R162). -/
def jobProdWrite (s : State) (v : Nat) : State :=
  let old := rd s F.CDC_JOB_PROD_index
  let s := if s.cdc.prodAt == some s.tick then s else { s with cdc := { s.cdc with prodAt := some s.tick, prodOld := old } }
  wr s F.CDC_JOB_PROD_index v

/-! Lanes -/

/-- What a verified block does for its user (R16, R116, R160, R250, R274, R277). -/
def cmpDeliver (s : State) (r : CmpReq) (bs : List Byte) (raw : Bool) : State :=
  match r.tag with
  | .ingest _ ids _ => blockVerified (ingestDone (countMode (gddrPut s 5 r.addr bs) bs) ids) r.addr
  | .ageing id => ageingDone (countMode (gddrPut s 6 r.addr bs) bs) id
  | .history => countMode (gddrPut s 2 r.addr bs) bs
  | .capture run plane blk => capBlock s run plane blk bs
  | .ckpt seq => ckptBlock s seq bs
  | .job => jobCompressed s r bs raw

/-- COMPRESS_BLOCK_DONE (R159, R160). -/
def compressBlockDone (s : State) (lane : Nat) (v : Verify) : State :=
  match s.cdc.cmpLanes.getD lane none with
  | none => s
  | some r =>
    let x := verifiedCmp s lane r v
    assignLanes (cmpDeliver x.2 r x.1 (v != .pass))

/-- DECODE_BLOCK_DONE (R150). -/
def decodeBlockDone (s : State) (lane : Nat) (upset : Bool) : State :=
  match s.cdc.decLanes.getD lane none with
  | none => s
  | some r =>
    match r.tag with
    | .orsal _ _ => orsalBlockChecked s lane upset
    | .scan run layer =>
      let x := finishDec s lane r upset
      assignLanes (scanDecoded x.2 run layer r.addr r.depth r.due x.1)
    | .job =>
      let x := finishDec s lane r upset
      assignLanes (jobDecoded x.2 x.1)

/-! Meanings -/

def execCompressBlockDone (lane : Fin 8) (v : Verify) (s : State) : Host.Outcome State Fault Refusal := .next (compressBlockDone s lane.val v)
def execDecodeBlockDone (lane : Fin 16) (upset : Bool) (s : State) : Host.Outcome State Fault Refusal := .next (decodeBlockDone s lane.val upset)
def execCompressSurf (s : State) : Host.Outcome State Fault Refusal := .next (jobStart s 0)
def execCompressPack (s : State) : Host.Outcome State Fault Refusal := .next (jobStart s 1)
def execDecompressSurf (s : State) : Host.Outcome State Fault Refusal := .next (jobStart s 2)
def execDecompressPack (s : State) : Host.Outcome State Fault Refusal := .next (jobStart s 3)
def execCodecJobEnd (s : State) : Host.Outcome State Fault Refusal := .next (jobEnd' s)

end Sys2Proof.Machine
end

