-- ==== Sys2Proof/Machine/Start.lean ====
section
/-!
DEFINITION. Resets and start-up (ch. 17, R516 to R523; R412, R421, R425): POR_N, exit from P4, boot commands, the PCIe resets, and the steps of
Table 17.2. Steps run in order within the command that begins them, up to the end of step 7; their ends are placed at the ticks the
command's environment gives.
-/

namespace Sys2Proof.Machine

/-! Boot status (R420, R523) -/

/-- NVM.BOOT_STAT. -/
def bootStat (s : State) (st code check sect : Nat) : State :=
  wr (wr (wr (wr s F.NVM_BOOT_STAT_state st) F.NVM_BOOT_STAT_code code) F.NVM_BOOT_STAT_check check) F.NVM_BOOT_STAT_sect sect

/-- A check fails: start-up stops there and waits (R420). -/
def bootFail (s : State) (step code check sect : Nat) : State :=
  let s := bootStat { s with boot := { s.boot with step := step, imageOk := false } } 2 code check sect
  alarmSet (errorRec s blkNVM 0 F.NVM_BOOT_STAT_code [(code, 1)]) almBOOT

/-! Steps 6 and 7 -/

/-- The end of step 7, with step 8 ended already where the reference has locked or none is in use (R520, R521). -/
def end7 (s : State) : State :=
  let s := bootStat { s with boot := { s.boot with step := 8, imageOk := true } } 1 0 0 0
  if s.boot.step8 || refSrc s = 0 then step8End s else s

/-- A block of the rebuild. -/
def isRebuild (r : CmpReq) : Bool := match r.tag with | .ageing _ => true | _ => false

/-- Blocks of the rebuild that wait or lie in a lane. A block that waits takes CDC.CFG.ad as it starts (R172). -/
def rebuildBlocks (s : State) : List CmpReq :=
  (s.cdc.cmpLanes.filterMap id).filter isRebuild ++ (s.cdc.cmpWait.filter isRebuild).map (fun r => { r with ad := rd s F.CDC_CFG_ad })

/-- Finish every submission of the rebuild (R275): each block is coded, verified and written, and its entries complete. `fails` names the blocks that
fail their verification, by their place, with the lane and the cause (R159, R160). -/
def finishRebuild (s : State) (fails : List (Nat × Fin 8 × Fin 8)) : State :=
  let rs := rebuildBlocks s
  let ids := (rs.filterMap (fun r => match r.tag with | .ageing id => some id | _ => none)).eraseDups
  let s := { s with cdc := { s.cdc with cmpWait := s.cdc.cmpWait.filter (fun r => !isRebuild r),
                                        cmpLanes := s.cdc.cmpLanes.map (fun l => l.filter (fun r => !isRebuild r)) } }
  let s := (rs.zip (List.range rs.length)).foldl (fun s r =>
    let f := fails.find? (fun f => f.1 = r.2)
    let x := verdict s ((f.map (fun f => f.2.1.val)).getD 0) r.1 (match f with | some f => .fail f.2.2 | none => .pass)
    cmpDeliver x.2 r.1 x.1 f.isSome) s
  assignLanes (ids.foldl entryComplete s)

/-- The rebuild before panel power-on (R275). -/
def fullRebuild (s : State) (fails : List (Nat × Fin 8 × Fin 8)) : State :=
  finishRebuild (rebuildStep { s with age := { s.age with rbFirst := 0, rebuilt := false, rbBlock := 0, rbHeld := none } }) fails

/-- Step 7: GDR bodies, checkpoint, full rebuild. -/
def step7 (s : State) (m : Img) (e : BootEnv) (t0 : Nat) : State :=
  let s := reach { s with boot.step := 7 } (t0 + e.t7)
  let sects := imgSects s m
  match loadGdr m e.flashErrs (sects.zip (List.range sects.length)) s with
  | (s, some (code, i)) => bootFail s 7 code 0 i
  | (s, none) => end7 (fullRebuild (ckptRestore s) e.rebuildFails)

/-- The channels in use: every channel but one mapped out (R391, R392). -/
def chansInUse (s : State) : Nat := if on s F.MEM_CFG_map_en then maskSet 0xFF (rd s F.MEM_CFG_map_ch) false else 0xFF

/-- Step 6 (R392, R544): every channel in use trains, and GDDR6 is written with zeros. A channel that does not train leaves step 6 waiting for
its time limit; those that did read trained. -/
def step6 (s : State) (m : Img) (e : BootEnv) (t0 : Nat) : State :=
  let use := chansInUse s
  if (List.range 8).all (fun c => !maskHas use c || maskHas e.g6Trained.toNat c) then
    let s := memTrained s use
    step7 { s with gddr := [], mem := { s.mem with gpoison := [] } } m e t0
  else wr s F.MEM_STATUS_trained (use &&& e.g6Trained.toNat)

/-- G6_TRAIN_TIMEOUT (R392, R523). -/
def g6Timeout (s : State) (c : Nat) : State :=
  if s.boot.step != 6 || !maskHas (chansInUse s) c then s else
  let s := reach s ((s.boot.end5.getD s.tick) + rd s F.MEM_TRAIN_init_ms * Config.tickMs)
  bootFail (setBitOf s F.MEM_STATUS_fail c true) 6 0x21 0 0

/-! Steps 2 to 5 -/

/-- The end of step 5 (R419, R520, R522): what the loaded registers enable starts from the whole loaded state. In free run the first boundary
falls at a tick the manual leaves open (log entry 45). -/
def end5 (s : State) : State :=
  let s := { s with boot := { s.boot with step := 6, end5 := some s.tick } }
  let s := if refSrc s = 0 then
      let f := freeBelow s 15 (picPeriod s)
      (match f.2.tmb.next with
       | none => { f.2 with tmb.next := some (f.2.tick + f.1) }
       | some _ => f.2)
    else tmbEnter s tmACQUIRE
  (List.range 4).foldl camMode (domFollow (inputsSeen (ageStatus (bandStart (snsSync (portsFollow s))))))

/-- Step 4 has passed: the image is reported, the start counted, and step 5 applies its sections (R417, R419, R431). -/
def step5 (s : State) (m : Img) (e : BootEnv) (t0 : Nat) : State :=
  let s := applySects (incCounter (imgReport s m) 2) m
  step6 (end5 (reach s (t0 + e.t5))) m e t0

/-- Step 4 as it begins: the source is shown, and the size of a flash that answers (R412, R417). -/
def atStep4 (s : State) (src : Nat) (e : BootEnv) : State :=
  let s := wr { s with boot.step := 4 } F.NVM_BOOT_STAT_src src
  if src = 0 then { s with nv.flashSize := if e.sfdpOk then e.flashSize else 0 } else s

/-- Step 4 from the check the source begins with (R417, R421). -/
def step4 (s : State) (src : Nat) (e : BootEnv) : State :=
  let s := atStep4 s src e
  if src = 0 && !e.sfdpOk then bootFail s 4 0x01 0 0 else
  match imgCheck s src with
  | .fail code check sect => bootFail s 4 code check sect
  | .ok m => step5 s m e s.tick

/-- Step 2, and step 3 as it begins (R519, R544, R431). -/
def atStep3 (s : State) : State :=
  let s := { s with boot := { Boot.reset with step := 2 }, lst := [], mem := { s.mem with lpoison := [] } }
  let s := wrB (wr s F.PWR_DOM_ON_on allDoms) F.CDC_STATUS_cdc1_on true
  let s := bootStat s 0 0 0 0
  let s := (List.range 3).foldl (fun s k => wr s (F.NVM_CNT_value k) (readCounter s k)) s
  { s with boot.step := 3 }

/-- Steps 2 and 3. -/
def startFrom2 (s : State) (e : BootEnv) : State :=
  let s := atStep3 s
  if !e.selfTestOk then bootFail s 3 0x20 0 0 else step4 (gauntletStart s) 0 e

/-! POR_N (R516, R517) -/

/-- Does a group that an interrupted write touched lie in a record that would read as valid, or, torn as it was cleared, in a tally that would
count? The record layer rules out both (R430, R433, R434). -/
def tornCounts (s : State) (j : PgJob) (g : Nat) : Bool :=
  let s := { s with nv.jobs := [] }
  let inRing := fun (r : NvRing) => let a := 64 * j.page + 8 * g
    decide (r.page ≤ j.page) && decide (a < 64 * r.page + r.size * r.slots) && ringSeq s s.nvm r ((a - 64 * r.page) / r.size) != 0
  inRing logRing || (List.range 3).any (fun k => inRing (cntRing k) ||
    (j.kind == .own && (List.range 32).any (fun i => tallyAt k i = (j.page, g) &&
      (match cntBase s s.nvm k with | some (_, q) => tallyCounts s s.nvm k q i | none => false))))

/-- A page write in progress is torn (R425, Table 13.9): the group in hand reads as free bytes with a free ECC class, but such that no record and
no tally is taken for one that was written; groups not yet reached are old. -/
def tornPage (s : State) : State :=
  match s.nv.jobs with
  | [] => s
  | j :: _ =>
    match j.todo with
    | [] => s
    | (g, _) :: _ =>
      let f := freeBytes s 14 8
      let c := freeBelow f.2 14 3
      let t := setGrpEcc (nvmWr c.2 (64 * j.page + 8 * g) f.1) j.page g c.1
      if tornCounts t j g then setGrpEcc t j.page g 2 else t

/-- A flash command in progress is torn (log entry 39). -/
def tornFlash (s : State) : State :=
  match s.nv.xf with
  | some j => if j.result = 0 && j.op != 0 then xfTorn s j else s
  | none => s

/-- A checkpoint in progress is torn: its slot holds free bytes that are no valid checkpoint (R278, R282; log entry 43). -/
def tornCkpt (s : State) : State :=
  match s.age.ckpt with
  | none => s
  | some c =>
    let f := freeBytes s 14 (slotLen s c.slot)
    let t := flashWr f.2 (slotBase s c.slot) f.1
    if (ckptRead t c.slot).isSome then flashErase t (slotBase s c.slot) 4096 else t

/-- What Gauntlet keeps without power: the fuses, the sealed values and the erasure (R476, R490, R498). -/
def secKept (x : Sec) : Sec :=
  { Sec.reset with mfgDone := x.mfgDone, jtagLock := x.jtagLock, ownerLock := x.ownerLock, retired := x.retired, hash := x.hash,
                   arbRow := x.arbRow, erased := x.erased, cfg := x.cfg }

/-- POR_N_LOW (R517): everything but the non-volatile memories returns to reset; the tick counter is cleared (R24). -/
def porLow (s : State) : State :=
  let s := tornFuses (tornCkpt (tornFlash (tornPage s)))
  { State.reset with
      flash := s.flash
      nvm := s.nvm
      nv := { Nvm.reset with ecc := s.nv.ecc, pws := s.nv.pws }
      sec := secKept s.sec
      host := { HostIf.reset with mem := s.host.mem }
      fresh := s.fresh
      pending := s.pending }

/-- POR_N_RISE (R519, R427). -/
def porRise (s : State) (e : BootEnv) : State := if s.boot.step != 0 then s else startFrom2 (journalled s) e

/-- What is left when P4 ends (R509): only the registers and state of PD_AON and PD_NVM survive; the tick counter runs on (log entry 42). -/
def p4State (s : State) : State :=
  let k := resetBlocks s [blkPWR, blkNVM]
  enterState { State.reset with
      reg := k.reg
      shadow := k.shadow
      tick := s.tick
      flash := s.flash
      nvm := s.nvm
      nv := s.nv
      sec := secKept s.sec
      host := { HostIf.reset with mem := s.host.mem, rstAt := some s.tick, rstKeep := [blkPWR, blkNVM] }
      pwr := { s.pwr with exitDue := false }
      fresh := s.fresh
      pending := s.pending } 0

/-- P4_EXIT (R509): start-up from step 2. -/
def p4Exit (s : State) (e : BootEnv) : State := if pwrState s = 4 && s.pwr.exitDue then startFrom2 (p4State s) e else s

/-! Boot commands (R421) -/

/-- What a boot command resets: the registers outside GEN, PWR, NVM, SEC and EVT, with the state behind them (log entry 46), but for
what counts since power-on reset (R115, R123, R125). No image is loaded then (R484). -/
def bootReset (s : State) : State :=
  let s := resetBlocks s [blkGEN, blkPWR, blkNVM, blkSEC, blkEVT]
  let s := { s with
      tmb := Tmb.reset, exs := Exs.reset, cdc := Cdc.reset, scn := Scn.reset, ppx := Ppx.reset, drv := Drv.reset, psq := Psq.reset, orl := Orl.reset
      blq := { Blq.reset with hostAcc := s.blq.hostAcc, orsalAcc := s.blq.orsalAcc, hostLast := s.blq.hostLast, orsalLast := s.blq.orsalLast,
                              lastTok := s.blq.lastTok }
      age := { Age.reset with subs := s.age.subs }
      ing := { inputs := (List.range 5).foldl (fun m n => sset Inp.reset m n { Inp.reset with since := s.tick, taken := (inp s n).taken }) []
               stamps := s.ing.stamps, stamp := s.ing.stamp, prot := s.ing.prot }
      mem := { s.mem with waiting := [], bad := [], spent := [], refresh := 0, slot := none }
      boot := Boot.reset
      sec := { s.sec with imgHash := none }
      host := { s.host with rstAt := some s.tick, rstKeep := [blkGEN, blkPWR, blkNVM, blkSEC, blkEVT] } }
  wrB s F.CDC_STATUS_cdc1_on (domOn s 11 && !maskHas s.pwr.offing 11)

/-- BOOT_FLASH and BOOT_HOST: accepted in WAIT, unless the failure was Gauntlet's self-test (R523); a staged image only while SEC.CFG.host_boot
is 1. At any other time it is ignored. -/
def bootCmd (s : State) (src : Nat) (e : BootEnv) : State :=
  if rd s F.NVM_BOOT_STAT_state != 2 || rd s F.NVM_BOOT_STAT_code = 0x20 || (src = 1 && !on s F.SEC_CFG_host_boot) then nvmWrIgn s
  else step4 (bootStat (bootReset s) 0 0 0 0) src e

/-! PCIe resets (R516, R518) -/

/-- The scope of a function-level reset: configuration space, MSI-X table and PBA, aperture base, any open session. -/
def pcieFunctionReset (s : State) : State :=
  let s := [F.GEN_BAR2_LO.off, F.GEN_BAR2_HI.off, 0x1000, 0x1004, 0x1008, F.GEN_MSIX_PBA_pending.off].foldl (fun s o => wrW s o 0#32) s
  let s := wrW s 0x100C 1#32
  sesClose { s with host := { s.host with busMaster := false, d3hot := false, aspmL1 := false, msixMask := false, maxPayload := 128, pcieAt := some s.tick } }

/-- PERST_N_LOW: the link as well. -/
def perstLow (s : State) : State :=
  let s := wr (wr (wrB (pcieFunctionReset s) F.GEN_STATUS_link_up false) F.GEN_STATUS_gen 0) F.GEN_STATUS_width 0
  { s with host := { s.host with l1 := false, l2 := false }, pwr := { s.pwr with perst := false } }

/-! Step 8 (R520) -/

/-- The boundary of the running schedule, at or before the last one, whose picture number is a multiple of pic_mul: an aligned edge is expected
REF_OFFSET ticks before it (R520). -/
def alignedBoundary (s : State) : Int := (s.tmb.bound : Int) - (s.tmb.pic.getD 0 % rd s F.TMB_REF_RATIO_pic_mul : Nat) * picPeriod s

/-- STEP8_TIMEOUT: 10 s after step 5 ended with no LOCKED, the time base leaves ACQUIRE for FREE; a boundary falls now and carries picture number 0,
on a worker the manager's number where that is known (R33), unless a number has been given before; and the reference is accepted widely against the
running schedule (R520, R570). -/
def step8Timeout (s : State) : State :=
  match s.boot.end5 with
  | none => s
  | some t5 =>
    if s.boot.step != 8 || s.boot.step8 then s else
    let s := reach s (t5 + 10 * Config.tickHz)
    let s := errorRec s blkTMB 0 F.TMB_STATUS_state
    let s := if tmbState s = tmACQUIRE then setOffset (tmbEnter s tmFREE) 0 else s
    let s := if s.tmb.pic.isNone then
        (let b := s.tick
         let s := { s with tmb := { s.tmb with picNext := 0, next := some b } }
         boundaryAt { s with tmb.picNext := numberAt s b } b)
      else s
    step8End (reanchor s (alignedBoundary s))

/-! Meanings -/

def execPorNLow (s : State) : Host.Outcome State Fault Refusal := .next (porLow s)
def execPorNRise (e : BootEnv) (s : State) : Host.Outcome State Fault Refusal := .next (porRise s e)
def execG6TrainTimeout (c : Fin 8) (s : State) : Host.Outcome State Fault Refusal := .next (g6Timeout s c.val)
def execP4Exit (e : BootEnv) (s : State) : Host.Outcome State Fault Refusal := .next (p4Exit s e)
def execPerstNLow (s : State) : Host.Outcome State Fault Refusal := .next (perstLow s)
def execFunctionLevelReset (s : State) : Host.Outcome State Fault Refusal := .next (pcieFunctionReset s)
def execStep8Timeout (s : State) : Host.Outcome State Fault Refusal := .next (step8Timeout s)
def execPictureBoundary (s : State) : Host.Outcome State Fault Refusal := .next (pictureBoundary s)

end Sys2Proof.Machine
end

