-- ==== Sys2Proof/Machine/Host.lean ====
section
/-!
DEFINITION. Host accesses (R10, R440 to R446, R488, R494, R501, R522): register reads with their side effects, register writes with what each
field of a write does, the local-store and GDDR6 windows, the management port, the PCIe function, sealed commands, and a worker's
answer to a control request.
-/

namespace Sys2Proof.Machine

/-! Register reads -/

/-- Status fields that read what holds at the tick of the read, brought up to date (R38, R113, R134, R297, R341, R361, R445, R505). -/
def sync (s : State) : State :=
  let st := tmbState s
  let held := if st = tmHOLDOVER || st = tmOOR then (s.tick - s.tmb.holdAt) / Config.tickMs else 0
  let s := wrB (wr s F.TMB_HOLD_TIME_ms (min held (2 ^ 32 - 1))) F.TMB_STATUS_outputs (outputsRun s)
  let s := wrB s F.TMB_STATUS_ref_present (on s F.TMB_STATUS_ref_present && decide (s.tick < s.tmb.presentTo))
  let s := wr s F.BLQ_STATUS_pending (s.blq.queues.foldl (fun a q => a + q.2.length) 0)
  let f := rd s F.BLQ_SURF_SEL_surface
  let s := wrB (wr s F.BLQ_SURF_REF_refs (surfRefs s f)) F.BLQ_SURF_REF_writing (ingWriting s f)
  let s := alertStatus (slotStatus (emitStatus (ageStatus (inspCur s))))
  let s := pwrLive (secLive (delayStatus (delayStatus (dualStatus s) 0) 1))
  let s := wrB s F.GEN_MGT_STAT_mbx_coll (on s F.MEM_MBX_STAT_coll_a)
  wr s F.GEN_ID_variant (if Config.variantS then 1 else 0)

/-- Before an access to the NVM block's registers, a host page read whose tick has come completes (R422). -/
def nvmSettled (s : State) (off : Nat) : State := if off / 65536 = 0xE then nvmNow s else s

/-- What a read of a register does beside returning it (R134, R217, R248, R284). -/
def readEffect (s : State) (off : Nat) : State :=
  if off = F.BLQ_INSP_CUR_none.off then blqInspCurRead s
  else if off = F.PPX_TBL_DATA_data.off then tblAccess s none
  else if off = F.AGE_TBL_DATA_data.off then ageTblAccess s none
  else match (List.range 16).find? (fun r => off = (F.PPX_CRC_crc r).off) with
    | some r => ppxCrcRead s r
    | none => s

/-- The word a host reads at an offset (R10, R440): shadows for shadowed fields, 0 for write-only and reserved bits and unassigned space. -/
def regRead (s : State) (off : Nat) : Word × State :=
  match regAt off with
  | none => (0#32, s)
  | some d =>
    let s := readEffect (nvmSettled s off) off
    let r := BitVec.ofNat 32 d.rws
    ((((rdW (sync s) off &&& ~~~r) ||| (rdShW s off &&& r)) &&& ~~~BitVec.ofNat 32 d.wo), s)

/-! Conditions of a register write -/

/-- The domain that holds a block's registers (Table 16.1). -/
def blkDomain : Nat → Option Nat
  | 0 => some 4 | 1 => some 0 | 2 => some 20 | 3 => some 20 | 4 => some 9 | 5 => some 15 | 6 => some 10 | 7 => some 16 | 8 => some 17
  | 9 => some 19 | 10 => some 21 | 11 => some 25 | 13 => some 14 | 14 => some 2 | 15 => some 28 | 16 => some 1 | _ => none

/-- The block's registers are in the retention store (R501). -/
def blkOff (s : State) (off : Nat) : Bool := match blkDomain (off / 65536) with | some d => !domOn s d | none => false

/-- The conditional bits of a register may be written (R133, R252, R284, R319, R347, R388, R410, R498). -/
def condOk (s : State) (d : RegDesc) (off : Nat) (sealed : Bool) : Bool :=
  match d.cond with
  | .always => true
  | .off => if off / 65536 = blkPSQ then psqState s = psOFF || psqState s = psFAULT else !outputsRun s
  | .stop => !on (ageStatus s) F.AGE_STATUS_run
  | .init => decide (s.boot.step < 6)
  | .sealed => sealed
  | .intab => !on s (F.ING_IN_CFG_en ((off - 0x44000) / 0x2100))

/-- A write of conditional bits is ignored: what the block records (R252, R284, R319, R347, R388, R410). -/
def condIgn (s : State) (off : Nat) : State :=
  match off / 65536 with
  | 8 => ppxIgn s | 9 => ageIgn s | 10 => drvIgn s | 11 => psqIgn s
  | 13 => wrB s F.MEM_STATUS_wr_ign true
  | _ => s

/-- The registers that only a sealed command writes (R488). -/
def isProtReg (off : Nat) : Bool := off = F.SEC_CFG_ses_idle.off || off = F.EVT_LOG_CFG_en.off || off = F.ORL_CFG_en.off

/-- A write in the tick of a reset whose scope holds the register is lost (R545). -/
def lostWrite (s : State) (off : Nat) : Bool :=
  (s.host.pcieAt == some s.tick && (off = F.GEN_BAR2_LO.off || off = F.GEN_BAR2_HI.off || (0x1000 ≤ off && off < 0x1010) || off = F.GEN_MSIX_PBA.off))
    || (s.host.rstAt == some s.tick && !s.host.rstKeep.contains (off / 65536))

/-- Blocks whose registers may be written before step 5 has ended (R522). -/
def earlyBlk (off : Nat) : Bool := [blkGEN, blkPWR, blkNVM, blkSEC, blkEVT].contains (off / 65536)

/-- Step 5 of start-up has not ended before this tick (R522, Table 17.6). -/
def step5Runs (s : State) : Bool := match s.boot.end5 with | some t => decide (s.tick ≤ t) | none => true

/-! What a write does beside storing bits. `w` holds the bits written under the enabled bytes; a clear acts first (R569). -/

/-- A field's value in a written word is not 0. -/
def wbit (f : Fld) (w : Word) : Bool := f.ofWord w != 0

/-- A message held in the PBA is sent once the vector is unmasked (R455). -/
def msixRelease (s : State) : State :=
  if !msixMasked s && on s F.GEN_MSIX_PBA_pending then msixEmit (wrB s F.GEN_MSIX_PBA_pending false) else s

/-- GEN: bit 0 of MGT_STAT is MEM.MBX_STAT.coll_a itself, where the write enables it (R445, log entry 49). -/
def hookGen (s : State) (off : Nat) (m : Word) : State :=
  if off = F.GEN_MGT_STAT_mbx_coll.off then
    (if m.getLsbD 0 then wrB s F.MEM_MBX_STAT_coll_a (on s F.GEN_MGT_STAT_mbx_coll) else s)
  else if off = (F.GEN_MSIX_TABLE_word 3).off then msixRelease s
  else s

/-- PWR (R506, R507, R513, R515): the choice of a state is made again at every write. -/
def hookPwr (s : State) (off : Nat) (w : Word) : State :=
  let s := if off = F.PWR_CTRL_wake.off then
      let s := if wbit F.PWR_CTRL_clr_cnt w then pwrClrCnt s else s
      if wbit F.PWR_CTRL_wake w && wbit F.PWR_CTRL_sleep w then pwrIgn s
      else if wbit F.PWR_CTRL_wake w then pwrWake s
      else if wbit F.PWR_CTRL_sleep w then wrB s F.PWR_STATUS_sleep_pend true else s
    else s
  pwrChoose s

def hookTmb (s : State) (off : Nat) (w : Word) : State :=
  if off != F.TMB_CTRL_snap.off then s else
  let s := if wbit F.TMB_CTRL_clr_cnt w then tmbClrCnt s else s
  let s := if wbit F.TMB_CTRL_realign w then tmbRealign s else s
  if wbit F.TMB_CTRL_snap w then tmbSnap s else s

def hookBlq (s : State) (off : Nat) (w : Word) : State :=
  if off = F.BLQ_CTRL_clr_cnt.off && wbit F.BLQ_CTRL_clr_cnt w then blqClrCnt s
  else if off = F.BLQ_SUB_GO_go.off && wbit F.BLQ_SUB_GO_go w then blqSubGo s
  else s

def hookCdc (s : State) (off : Nat) (w : Word) : State :=
  if off = F.CDC_CTRL_abort.off then
    let s := if wbit F.CDC_CTRL_clr_cnt w then cdcClrCnt s else s
    if wbit F.CDC_CTRL_abort w then cdcAbort s else s
  else if off = F.CDC_CFG_ad.off then assignLanes s
  else s

def hookScn (s : State) (off : Nat) (w : Word) : State :=
  if off = F.SCN_COMMIT_go.off && wbit F.SCN_COMMIT_go w then commitGo s
  else if off = F.SCN_CTRL_clr_cnt.off && wbit F.SCN_CTRL_clr_cnt w then scnClrCnt s
  else s

def hookPpx (s : State) (off : Nat) (w : Word) : State :=
  if off = F.PPX_CTRL_clr_cnt.off && wbit F.PPX_CTRL_clr_cnt w then ppxClrCnt s
  else if off = F.PPX_CAP_CTRL_arm.off then
    let s := if wbit F.PPX_CAP_CTRL_stop w then capStop s else s
    if wbit F.PPX_CAP_CTRL_arm w then capArm s else s
  else if (List.range 16).any (fun i => off = (F.PPX_SNS_en i).off) then snsSync s
  else if off = F.PPX_TEMP_CFG_fb_band.off then startBandSync s
  else s

def hookAge (s : State) (off : Nat) (w : Word) : State :=
  if off = F.AGE_CTRL_ckpt.off then
    let s := if wbit F.AGE_CTRL_clr_cnt w then ageClrCnt s else s
    if wbit F.AGE_CTRL_ckpt w then ageCkpt s else s
  else if off = F.AGE_CFG_acc_en.off then domFollow (ageStatus s)
  else s

/-- DRV.CTRL (R300, R319): a retrain written while panel outputs run is ignored. -/
def hookDrv (s : State) (off : Nat) (w : Word) : State :=
  if off = F.DRV_CTRL_retrain.off then
    let s := if wbit F.DRV_CTRL_clr_cnt w then drvClrCnt s else s
    let s := if wbit F.DRV_CTRL_retrain w then retrain s else s
    if wbit F.DRV_CTRL_send_cfg w then sendCfg s else s
  else if off = F.DRV_GROUPS_en.off then domFollow (groupsFollow s)
  else s

/-- PSQ.CTRL (R324, R333, R334, Table 10.9): on and off in one write are both ignored. -/
def hookPsq (s : State) (off : Nat) (w : Word) : State :=
  if off != F.PSQ_CTRL_on.off then s else
  let s := if wbit F.PSQ_CTRL_clr_cnt w then psqClrCnt s else s
  if wbit F.PSQ_CTRL_on w && wbit F.PSQ_CTRL_off w then psqIgn s
  else if wbit F.PSQ_CTRL_on w then psqOn s
  else if wbit F.PSQ_CTRL_off w then psqOff s (wbit F.PSQ_CTRL_ckpt w) else s

def hookOrl (s : State) (off : Nat) (w : Word) : State :=
  if off = F.ORL_CTRL_retrain_a.off then
    let s := if wbit F.ORL_CTRL_clr_cnt w then orlClrCnt s else s
    let s := if wbit F.ORL_CTRL_retrain_a w then orlRetrain s 0 else s
    if wbit F.ORL_CTRL_retrain_b w then orlRetrain s 1 else s
  else if off = F.ORL_CFG_en.off || off = F.ORL_PORT_CFG_en_a.off then domFollow (portsFollow s)
  else if off = F.ORL_DIST_CFG_dual.off then dualStatus s
  else if off = F.ORL_CTL_CMD_go.off && wbit F.ORL_CTL_CMD_go w then ctlGo s (rd s F.ORL_CTL_CMD_op)
  else if off = F.ORL_TX_GO_go.off && wbit F.ORL_TX_GO_go w then orlTxGo s
  else s

/-- A boot command by a register write: accepted ones wait for BOOT_FLASH or BOOT_HOST, which say what start-up meets (log entry 48). -/
def bootWrite (s : State) (src : Bool) : State :=
  if rd s F.NVM_BOOT_STAT_state != 2 || rd s F.NVM_BOOT_STAT_code = 0x20 || (src && !on s F.SEC_CFG_host_boot) then nvmWrIgn s else s

def hookNvm (s : State) (off : Nat) (w : Word) (sealed : Bool) : State :=
  if off = F.NVM_CTRL_relock.off then
    let s := if wbit F.NVM_CTRL_clr_cnt w then nvmClrCnt s else s
    if wbit F.NVM_CTRL_relock w then nvmRelock s else s
  else if off = F.NVM_BOOT_CMD_go.off && wbit F.NVM_BOOT_CMD_go w then bootWrite s (wbit F.NVM_BOOT_CMD_src w)
  else if off = F.NVM_ACC_go.off && wbit F.NVM_ACC_go w then
    (match rd s F.NVM_ACC_op with
     | 0 => nvmAccess s (.read (rd s F.NVM_ACC_page) 0 0)
     | 1 => nvmAccess s (.write (rd s F.NVM_ACC_page) (rd s F.NVM_ACC_offset) (rd s F.NVM_ACC_len_m1 + 1))
     | _ => s)
  else if off = F.NVM_UNLOCK_go.off && wbit F.NVM_UNLOCK_go w then
    (if wbit F.NVM_UNLOCK_set w then nvmPwSet s sealed (wbit F.NVM_UNLOCK_part w) (wbit F.NVM_UNLOCK_kind w)
     else nvmUnlock s (wbit F.NVM_UNLOCK_part w) (wbit F.NVM_UNLOCK_kind w))
  else if off = F.NVM_XF_CMD_go.off && wbit F.NVM_XF_CMD_go w then xfStart s (rd s F.NVM_XF_CMD_op)
  else s

/-- EVT (R455, R459, R460, R461): `old` is the state before the write. -/
def hookEvt (old s : State) (off : Nat) (w : Word) : State :=
  if off = F.EVT_CTRL_stk_init.off then
    let s := if wbit F.EVT_CTRL_clr_cnt w then evtClrCnt s else s
    if wbit F.EVT_CTRL_stk_init w then evtStkInit s else s
  else if off = F.EVT_RING_CFG_en.off then ringStatus (ringArm old s)
  else if off = F.EVT_MASK_mask.off then
    maskNote s (rd old F.EVT_MASK_mask)
  else if off = F.EVT_CLAIM_source.off then evtClaim s (BitVec.ofNat 12 (F.EVT_CLAIM_source.ofWord w)) (BitVec.ofNat 4 (F.EVT_CLAIM_prio.ofWord w))
  else if off = F.EVT_COMPLETE_source.off then evtComplete s (BitVec.ofNat 12 (F.EVT_COMPLETE_source.ofWord w))
  else s

/-- A clear of a block that has no other command bit. -/
def hookClr (s : State) (off : Nat) (w : Word) (f : Fld) (clr : State → State) : State := if off = f.off && wbit f w then clr s else s

/-- Store the writable bits that `m` selects: values in effect, write-only words kept for later use (NVM.PW), and shadows (R10, R539). -/
def storeBits (s : State) (d : RegDesc) (off : Nat) (v m : Word) (ok : Bool) : State :=
  let b := BitVec.ofNat 32 (d.rw ||| (if ok then d.cnd else 0) ||| (if off / 65536 = blkNVM && d.wo = 0xFFFFFFFF then d.wo else 0)) &&& m
  let r := BitVec.ofNat 32 d.rws &&& m
  let s := if b = 0#32 then s else wrW s off ((rdW s off &&& ~~~b) ||| ((v ||| setsNow s off) &&& b))
  if r = 0#32 then s else wrShW s off ((rdShW s off &&& ~~~r) ||| (v &&& r))

/-- What the write of a block does beside storing its bits. -/
def writeHook (old s : State) (off : Nat) (w m : Word) (sealed : Bool) : State :=
  match off / 65536 with
  | 0 => hookGen s off m
  | 1 => hookPwr s off w
  | 2 => hookTmb s off w
  | 3 => hookClr s off w F.EXS_CTRL_clr_cnt exsClrCnt
  | 4 => hookClr s off w F.ING_CTRL_clr_cnt ingClrCnt
  | 5 => hookBlq s off w
  | 6 => hookCdc s off w
  | 7 => hookScn s off w
  | 8 => hookPpx s off w
  | 9 => hookAge s off w
  | 10 => hookDrv s off w
  | 11 => hookPsq s off w
  | 12 => hookOrl s off w
  | 13 => hookClr s off w F.MEM_CTRL_clr_cnt memClrCnt
  | 14 => hookNvm s off w sealed
  | 15 => hookEvt old s off w
  | _ => if sealed && off = F.SEC_CFG_ses_idle.off then { s with sec.cfg := rd s F.SEC_CFG } else s

/-- Registers whose write is one operation of its own: FENCE, CONS, JOB_PROD, TRC_IDX, ALARM, the table windows, SUB_DESC, BLACK. `x` is the
merged word. -/
def specialWrite (s : State) (off : Nat) (v m : Word) : Option State :=
  let x := (rdW s off &&& ~~~m) ||| (v &&& m)
  if off = F.GEN_FENCE_token.off then some (genFence s x)
  else if off = F.EVT_CONS_index.off then some (evtConsWrite s x)
  else if off = F.EVT_TRC_IDX_index.off then some (trcLoad s x)
  else if off = F.EVT_ALARM_alarm.off then
    let held := alarmsHeld s
    let keep := wr s F.EVT_ALARM_alarm (rd s F.EVT_ALARM_alarm &&& (F.EVT_ALARM_alarm.ofWord x ||| held ||| (setsNow s off).toNat))
    some ((bitList (F.EVT_ALARM_alarm.ofWord x) 11).foldl alarmWrite keep)
  else if off = F.CDC_JOB_PROD_index.off then some (jobProdWrite s (F.CDC_JOB_PROD_index.ofWord x))
  else if off = F.PPX_TBL_DATA_data.off then
    let c := BitVec.ofNat 32 (tblW s (rd s F.PPX_TBL_SEL_bank) (rd s F.PPX_TBL_SEL_table) (rd s F.PPX_TBL_IDX_index))
    some (tblAccess s (some ((c &&& ~~~m) ||| (v &&& m))))
  else if off = F.AGE_TBL_DATA_data.off then
    let c := BitVec.ofNat 32 (ageTbl s (rd s F.AGE_TBL_SEL_table) (rd s F.AGE_TBL_IDX_index))
    some (ageTblAccess s (some ((c &&& ~~~m) ||| (v &&& m))))
  else if s.blq.sub.isSome && (List.range 8).any (fun k => off = (F.BLQ_SUB_DESC_word k).off) then some s
  else if off = F.PSQ_BLACK_n_on.off && F.PSQ_BLACK_n_on.ofWord x = 0 then some (psqIgn s)
  else none

/-- The number whose bits a list spells, the lowest first. -/
def ofBitsLe : List Bool → Nat
  | [] => 0
  | b :: r => (if b then 1 else 0) + 2 * ofBitsLe r

/-- The bits of a word that four byte enables select (R440). -/
def beMask (be : Nat) : Word :=
  BitVec.ofNat 32 ((List.range 4).foldl (fun a i => if be / 2 ^ i % 2 = 1 then a + 0xFF * 2 ^ (8 * i) else a) 0)

/-- A plain write to a protected register (R488). -/
def plainRefused (s : State) : State := warning (bump s F.SEC_CNT_PLAIN_writes) blkSEC 0 F.SEC_CNT_PLAIN_writes

/-- A register write of the bits `m` selects, for every register but SEC.CTRL (R10, R440, R488, R501, R522, R539). A write to unassigned space
is ignored. -/
def regWriteBits (s : State) (sealed : Bool) (off : Nat) (v m : Word) : State :=
  match regAt off with
  | none => s
  | some d =>
    if m = 0#32 || lostWrite s off then s else
    let s := nvmSettled s off
    if step5Runs s && !earlyBlk off then nvmWrIgn s
    else if isProtReg off && !sealed then plainRefused s
    else
      let off_ := blkOff s off && (m &&& BitVec.ofNat 32 d.wo) != 0#32
      let s := if off_ then pwrIgn s else s
      let w := if off_ then v &&& m &&& ~~~BitVec.ofNat 32 d.wo else v &&& m
      match specialWrite s off v m with
      | some s => s
      | none =>
        let ok := condOk s d off sealed
        let s := if !ok && (m &&& BitVec.ofNat 32 d.cnd) != 0#32 then condIgn s off else s
        let t := if off_ && d.wo = 0xFFFFFFFF then s else storeBits s d off v m ok
        writeHook s t off w m sealed

/-! Sealed commands (R485, R487) -/

/-- REG_WRITE: a register write, protected or not. Gauntlet is busy, so command bits of SEC.CTRL other than ses_close and clr_cnt are ignored
(R498). -/
def cmdRegWrite (s : State) (body : List Byte) : Nat × State :=
  if !bodyZero body (List.range' 4 8) then (rsBAD_MSG, s) else
  let off := leAt body 4 4
  let v := BitVec.ofNat 32 (leAt body 8 4)
  if off = F.SEC_CTRL_ses_cmd.off then
    let s := if wbit F.SEC_CTRL_clr_cnt v then secClrCnt s else s
    (rsOK, if wbit F.SEC_CTRL_ses_close v then sesClose s else s)
  else (rsOK, regWriteBits s true off v 0xFFFFFFFF#32)

/-- REG_READ: the register's value, for the response. -/
def cmdRegRead (s : State) (body : List Byte) : Nat × Nat × State :=
  if !bodyZero body (List.range' 4 4) then (rsBAD_MSG, 0, s) else
  let r := regRead s (leAt body 4 4)
  (rsOK, r.1.toNat, r.2)

/-- Perform a command body (Table 15.6): result, data, state. -/
def cmdRun (s : State) (body : List Byte) : Nat × Nat × State :=
  let nodata := fun (x : Nat × State) => (x.1, 0, x.2)
  let bare := fun (x : Nat × State) => if bodyZero body [] then nodata x else (rsBAD_MSG, 0, s)
  match leAt body 0 1 with
  | 1 => nodata (cmdRegWrite s body)
  | 2 => cmdRegRead s body
  | 3 => nodata (cmdNvmWrite s body)
  | 4 => nodata (cmdPwSet s body)
  | 5 => bare (cmdArbCommit s)
  | 6 => bare (cmdJtagLock s)
  | 7 => bare (cmdRetire s)
  | _ => (rsBAD_MSG, 0, s)

/-- SES_CMD: check the command at SEC.SES_BUF, perform it and write the response; a session that closes meanwhile still answers (R487, R489). -/
def sesCmd (s : State) (p : Path) : State :=
  match cmdCheck s p with
  | (none, s) => s
  | (some (ctr, body), s) =>
    let keys := s.sec.keys
    let r := cmdRun s body
    cmdReply r.2.2 keys ctr r.1 r.2.1

/-- SEC.CTRL (R485, R489, R497): the command bits, with ses_close last. -/
def secCtrlWrite (s : State) (p : Path) (w : Word) : State :=
  let s := if wbit F.SEC_CTRL_clr_cnt w then secClrCnt s else s
  let s := if wbit F.SEC_CTRL_ses_start w then sesStart s p else s
  let s := if wbit F.SEC_CTRL_ses_finish w then sesFinish s p else s
  let s := if wbit F.SEC_CTRL_ses_cmd w then sesCmd s p else s
  let s := if wbit F.SEC_CTRL_enroll w then secEnroll s p else s
  let s := if wbit F.SEC_CTRL_att w then secAtt s p else s
  let s := if wbit F.SEC_CTRL_cert w then secCert s p else s
  if wbit F.SEC_CTRL_ses_close w then sesClose s else s

/-! Register accesses on a path -/

/-- The register space answers (R522), and so does the endpoint or the management port (Table 16.1). -/
def hostAnswers (s : State) : Bool := s.boot.step != 0 && domOn s 4

/-- One 32-bit register write on a path (R440, R446). -/
def pathWrite (s : State) (p : Path) (off : Nat) (v m : Word) : State :=
  if off = F.SEC_CTRL_ses_cmd.off then
    (if lostWrite s off then s else if blkOff s off then pwrIgn s else secCtrlWrite s p (v &&& m))
  else regWriteBits s false off v m

/-- REGISTER_WRITE. A write from PCIe or the management port is not arbitrated against another master's (R446, log entry 51). -/
def registerWrite (s : State) (p : Path) (off : Nat) (v : Word) (be : Nat) : State :=
  if p != .orsal && !hostAnswers s then s else pathWrite s p off v (beMask be)

/-! PCIe BAR0 and BAR2 (R440 to R442) -/

/-- Maximal runs of enabled bytes from offset `off`, cut at multiples of `unit`. -/
def runsOf (unit : Nat) : Nat → List (Byte × Bool) → List (Nat × List Byte)
  | _, [] => []
  | off, (b, e) :: r =>
    let rest := runsOf unit (off + 1) r
    if !e then rest else
    match rest with
    | (o, bs) :: t => if o = off + 1 && o % unit != 0 then (off, b :: bs) :: t else (off, [b]) :: rest
    | [] => [(off, [b])]

/-- Pieces of [off, off + n) cut at multiples of `unit`. -/
def piecesOf (unit off n : Nat) : List (Nat × Nat) :=
  (runsOf unit off (List.replicate n (0#8, true))).map (fun r => (r.1, r.2.length))

/-- The aligned words a write touches, ascending: offset, value and the bits its byte enables select (R440). -/
def dwordsOf (off : Nat) (data : List (Byte × Bool)) : List (Nat × Word × Word) :=
  (List.range ((off % 4 + data.length + 3) / 4)).map (fun k =>
    let a := off / 4 * 4 + 4 * k
    let b := fun j => if a + j < off then (0#8, false) else data.getD (a + j - off) (0#8, false)
    (a, BitVec.ofNat 32 (ofLe ((List.range 4).map (fun j => (b j).1))),
      beMask (ofBitsLe ((List.range 4).map (fun j => (b j).2)))))

/-- Leave the data of a read for the host. -/
def hostData (s : State) (bs : List Byte) (ep : Bool) (at_ : Option Nat) : State :=
  { s with host := { s.host with readData := bs, readEp := ep, readOff := at_ } }

/-- The first register offset past the register space (R440). -/
def regSpace : Nat := 0x1000000

/-- BAR0_REGISTER_ACCESS (R440): aligned 32-bit accesses in ascending address. -/
def bar0Reg (s : State) (r : BarReq) : State :=
  if !hostAnswers s || regSpace < r.off + (if r.write then r.data.length else r.len) then s else
  if r.write then
    ((dwordsOf r.off r.data).filter (fun x => x.2.2 != 0#32)).foldl (fun s x => pathWrite s .pcie x.1 x.2.1 x.2.2) s
  else
    let d := (piecesOf 4 r.off r.len).foldl (fun (a : List Byte × State) x =>
      let w := regRead a.2 (x.1 / 4 * 4)
      (a.1 ++ slice (leBytes w.1.toNat 4) (x.1 % 4) x.2, w.2)) ([], s)
    hostData d.2 d.1 false none

/-- A host write of a piece of the local store, as master 5 (R405, R441), `dt` ticks into its request. -/
def hostLsWrite (s : State) (off : Nat) (bs : List Byte) (dt : Nat) : State :=
  lsPiece s 5 off true bs 0 .clean none dt

/-- A host read of a piece of the local store: bytes, poisoned, state. -/
def hostLsRead (s : State) (off n dt : Nat) : List Byte × Bool × State :=
  let s := lsPiece s 5 off false [] n .clean none dt
  (s.mem.lsData, s.mem.lsEp, s)

/-- BAR0_LOCAL_STORE_ACCESS (R441): pieces within one 16-byte line, in ascending address. -/
def bar0Ls (s : State) (r : BarReq) : State :=
  if !hostAnswers s || r.off < regSpace || 2 * regSpace < r.off + (if r.write then r.data.length else r.len) then s else
  let o := r.off - regSpace
  if r.write then (let l := runsOf 16 o r.data; (l.zip (List.range l.length)).foldl (fun s x => hostLsWrite s x.1.1 x.1.2 x.2) s)
  else
    let l := piecesOf 16 o r.len
    let d := (l.zip (List.range l.length)).foldl (fun (a : (List Byte × Bool) × State) x =>
      let y := hostLsRead a.2 x.1.1 x.1.2 x.2
      ((a.1.1 ++ y.1, a.1.2 || y.2.1), y.2.2)) (([], false), s)
    hostData d.2 d.1.1 d.1.2 (some o)

/-- The base of the BAR2 aperture (R442). -/
def bar2Base (s : State) : Nat := rd s F.GEN_BAR2_LO_base * 2 ^ 20 + rd s F.GEN_BAR2_HI_base * 2 ^ 32

/-- A refused granule of a BAR2 access (R494). -/
def refuse (s : State) (f : Fld) : State := warning (bump s f) blkSEC 0 f

/-- The part of a BAR2 write within one granule (R442, R494). -/
def bar2Put (s : State) (a : Nat) (bs : List Byte) : State :=
  if touchesProt s (a / 64 * 64) 64 then refuse s F.SEC_CNT_REFUSE_wr else gddrWr s 7 a bs

/-- The part of a BAR2 read within one granule: bytes, poisoned, state. -/
def bar2Get (s : State) (a n : Nat) : List Byte × Bool × State :=
  if memCap s < a + n then (List.replicate n 0#8, true, memReach s 7 a n)
  else if touchesProt s (a / 64 * 64) 64 then (List.replicate n 0#8, false, refuse s F.SEC_CNT_REFUSE_rd)
  else (gddrRd s a n, readPoisoned s 7 a n, s)

/-- BAR2_ACCESS (R442, R537): the window never wraps. -/
def bar2 (s : State) (r : BarReq) : State :=
  if !hostAnswers s || 2 ^ 28 < r.off + (if r.write then r.data.length else r.len) then s else
  let o := bar2Base s + r.off
  if r.write then (runsOf 64 o r.data).foldl (fun s x => bar2Put s x.1 x.2) s
  else
    let d := (piecesOf 64 o r.len).foldl (fun (a : (List Byte × Bool) × State) x =>
      let y := bar2Get a.2 x.1 x.2
      ((a.1.1 ++ y.1, a.1.2 || y.2.1), y.2.2)) (([], false), s)
    hostData d.2 d.1.1 d.1.2 none

/-! Management port (R443 to R445) -/

/-- A transaction has been seen. -/
def mgtSeen (s : State) : State := wrB s F.GEN_STATUS_mgt_seen true

def mgtFrameErr (s : State) : State := hwSet s F.GEN_MGT_STAT_frame_err 0
def mgtAccErr (s : State) : State := hwSet s F.GEN_MGT_STAT_acc_err 0

/-- One word write at an offset of the port's space, the i-th of its transaction; beyond it the access is an error (R444, R445). -/
def mgtPut (s : State) (a v i : Nat) : State :=
  if 2 * regSpace ≤ a then mgtAccErr s
  else if regSpace ≤ a then hostLsWrite s (a - regSpace) (leBytes v 4) i
  else pathWrite s .mgt a (BitVec.ofNat 32 v) 0xFFFFFFFF#32

/-- One word read, the i-th of its transaction: the four bytes as they leave, most significant first. -/
def mgtGet (s : State) (a i : Nat) : List Byte × State :=
  if 2 * regSpace ≤ a then (List.replicate 4 0#8, mgtAccErr s)
  else if regSpace ≤ a then
    let y := hostLsRead s (a - regSpace) 4 i
    (y.1.reverse, { (if y.2.1 then mgtAccErr y.2.2 else y.2.2) with host.readOff := some (a - regSpace) })
  else
    let w := regRead s a
    (beBytes w.1.toNat 4, w.2)

/-- MGT_WRITE (R444): each word whole; one cut short is discarded. An unknown opcode is a frame error. -/
def mgtWriteFrame (s : State) (op off : Nat) (bs : List Byte) : State :=
  if !hostAnswers s then s else
  let s := mgtSeen s
  if op != 2 then (if op = 0x0B || op = 5 then s else mgtFrameErr s)
  else if 2 * regSpace ≤ off then mgtAccErr s
  else if off % 4 != 0 then s
  else
    let s := (List.range (bs.length / 4)).foldl (fun s i => mgtPut s (off + 4 * i) (ofBe (slice bs (4 * i) 4)) i) s
    if bs.length % 4 = 0 then s else mgtFrameErr s

/-- What MISO carries from byte 5 on: 4 turnaround bytes of 0x00 before the first word, 1 before each later word (R443, Table 14.2). -/
def misoBytes (d : List Byte) : List Byte :=
  (List.range (d.length / 4)).flatMap (fun i => List.replicate (if i = 0 then 4 else 1) 0#8 ++ slice d (4 * i) 4)

/-- MGT_READ (R444): a read whose turnaround has begun has taken effect. `host.readData` holds the bytes of the words read, `host.miso` what MISO
carried. -/
def mgtReadFrame (s : State) (off words : Nat) (cut : MgtCut) : State :=
  if !hostAnswers s then s else
  let s := mgtSeen s
  if 2 * regSpace ≤ off then mgtAccErr s
  else if off % 4 != 0 then s
  else
    let d := (List.range words).foldl (fun (a : List Byte × State) i =>
      let w := mgtGet a.2 (off + 4 * i) i
      (a.1 ++ w.1, w.2)) ([], s)
    let s := match cut with
      | .whole => d.2
      | .inWord => mgtFrameErr (mgtGet d.2 (off + 4 * words) words).2
    let s := { s with host.miso := misoBytes d.1 }
    hostData s d.1 s.host.readEp (if regSpace ≤ off then some (off - regSpace) else none)

/-- MGT_STATUS (R445): the status byte leaves and clears the three bits, but for those set in this tick (R10); bit 0 is MEM.MBX_STAT.coll_a itself (log entry 49). -/
def mgtStatusFrame (s : State) : State :=
  let e := rd s F.GEN_MGT_STAT_frame_err * 4 + rd s F.GEN_MGT_STAT_acc_err * 2 + rd s F.MEM_MBX_STAT_coll_a
  let b := b2n (hostAnswers s) * 128 + b2n (mbxBusyLow s) * 8 + e
  if !hostAnswers s then hostData s [BitVec.ofNat 8 b] false none else
  let keep := setsNow s F.GEN_MGT_STAT.off
  let s := wrB (wr (mgtSeen s) F.GEN_MGT_STAT keep.toNat) F.MEM_MBX_STAT_coll_a (keep.getLsbD 0)
  hostData s [BitVec.ofNat 8 b] false none

/-! The PCIe function and link (R439, R512, R518) -/

/-- The device ID of the one function's configuration space (Table 14.1). -/
def pcieDeviceId : Nat := 0x8820

/-- PCIE_CONFIG_WRITE. -/
def pcieConfig (s : State) (w : CfgWrite) : State :=
  match w with
  | .busMaster b => { s with host.busMaster := b }
  | .d3hot b => { s with host.d3hot := b }
  | .aspmL1 b => { s with host.aspmL1 := b }
  | .msixFunctionMask b => msixRelease { s with host.msixMask := b }
  | .maxPayload n => { s with host.maxPayload := 128 * 2 ^ n.val }

/-- PCIE_LINK_STATE_CHANGE (R512, Table 14.9). -/
def pcieLink (s : State) (c : LinkChange) : State :=
  match c with
  | .up g n => { wr (wr (wrB s F.GEN_STATUS_link_up true) F.GEN_STATUS_gen g) F.GEN_STATUS_width n with host := { s.host with l1 := false, l2 := false } }
  | .down => { wr (wr (wrB s F.GEN_STATUS_link_up false) F.GEN_STATUS_gen 0) F.GEN_STATUS_width 0 with host := { s.host with l1 := false, l2 := false } }
  | .l1 b => { s with host.l1 := b }
  | .l1sub n => { s with host.l1sub := n.val }
  | .l2 b => { s with host.l2 := b }

/-! A worker's answer to a control request (R368 to R371) -/

/-- Send the answer to request `seq` on every UP port. -/
def ctlAnswer (s : State) (seq : Nat) (a : Nat × Nat) : State :=
  sendNew s (upPorts s) 5 false 0 (leBytes a.1 1 ++ List.replicate 3 0#8 ++ leBytes seq 4 ++ leBytes a.2 4)

/-- Keep the answer of a request, for later copies of it (R368). -/
def setAnswer (s : State) (f : TxFrame) (a : Nat × Nat) : State :=
  { s with orl.seen := s.orl.seen.map (fun e => if e.1 = f.src && e.2.1 = f.seq then (e.1, e.2.1, some a) else e) }

/-- The answer kept. -/
def getAnswer (s : State) (f : TxFrame) : Option (Nat × Nat) :=
  match s.orl.seen.find? (fun e => e.1 = f.src && e.2.1 = f.seq) with
  | some e => e.2.2
  | none => none

/-- A mailbox access of a request through port B; a collision with port A makes its answer NAK (R371, R408). -/
def ctlMbx (s : State) (f : TxFrame) (a : Nat) (write : Bool) (v : Nat) : State :=
  let s := lsAccess (setAnswer s f (0, 0)) 6 (mbxBase + a) write (if write then leBytes v 4 else []) 4 .clean (some (f.src, f.seq))
  match getAnswer s f with
  | some (0, _) => setAnswer s f (0, if write then 0 else ofLe s.mem.lsData)
  | _ => s

/-- Carry out a request: its effect, with the answer kept (R368 to R371, R488). -/
def ctlAct (s : State) (f : TxFrame) : State :=
  let op := leAt f.pay 0 1
  let a := leAt f.pay 4 4
  let v := leAt f.pay 8 4
  let refused := fun (s : State) => setAnswer s f (4, 0)
  match op with
  | 0 =>
    if regSpace ≤ a then refused s
    else if isProtReg a then refused (plainRefused s)
    else setAnswer (registerWrite s .orsal a (BitVec.ofNat 32 v) 15) f (0, 0)
  | 1 =>
    if regSpace ≤ a then refused s
    else if isProtReg a && !(sesState s = 2 && rd s F.SEC_STATUS_path = pathCode .orsal) then
      refused (warning s blkSEC 0 F.SEC_STATUS_session)
    else
      let r := regRead s a
      setAnswer r.2 f (0, r.1.toNat)
  | 2 => if 0x7FFFC < a || a % 4 != 0 then refused s else ctlMbx s f a true v
  | 3 => if 0x7FFFC < a || a % 4 != 0 then refused s else ctlMbx s f a false 0
  | 4 =>
    let h := holdCommit s (leAt f.pay 16 8)
    setAnswer h.2 f (if h.1 then 0 else 3, 0)
  | _ => refused s

/-- CTL_REQ_RX (R358, R359, R368): forwarded; acted on once, and answered again on a later copy; one whose src is not 0 is discarded. -/
def ctlReqRx (s : State) (x : Nat) (bs : List Byte) : State :=
  if !portHears s x then s
  else if !frameOk bs then bump s (F.ORL_PORT_CNT_crc x)
  else
    let f := parseFrame bs
    if f.typ != 4 || (isWorker s && f.src != 0) then s else
    let s := forwardFrame s x f
    if frameMine s f && frameSeen s f then
      (match getAnswer s f with
       | some a => ctlAnswer s f.seq a
       | none => s)
    else
      if !frameMine s f || !isWorker s || f.src != 0 then s else
      let s := ctlAct (markSeen s f none) f
      (match getAnswer s f with
       | some a => ctlAnswer s f.seq a
       | none => s)

/-! Meanings -/

def execBar0RegisterAccess (r : BarReq) (s : State) : Host.Outcome State Fault Refusal := .next (bar0Reg s r)
def execBar0LocalStoreAccess (r : BarReq) (s : State) : Host.Outcome State Fault Refusal := .next (bar0Ls s r)
def execBar2Access (r : BarReq) (s : State) : Host.Outcome State Fault Refusal := .next (bar2 s r)
def execMgtWrite (op : Byte) (off : BitVec 32) (bytes : List Byte) (s : State) : Host.Outcome State Fault Refusal :=
  .next (mgtWriteFrame s op.toNat off.toNat bytes)
def execMgtRead (off : BitVec 32) (words : Nat) (cut : MgtCut) (s : State) : Host.Outcome State Fault Refusal :=
  .next (mgtReadFrame s off.toNat words cut)
def execMgtStatus (s : State) : Host.Outcome State Fault Refusal := .next (mgtStatusFrame s)
def execRegisterWrite (p : Path) (off : BitVec 28) (v : Word) (be : BitVec 4) (s : State) : Host.Outcome State Fault Refusal :=
  .next (registerWrite s p off.toNat v be.toNat)
def execPcieConfigWrite (w : CfgWrite) (s : State) : Host.Outcome State Fault Refusal := .next (pcieConfig s w)
def execPcieLinkStateChange (c : LinkChange) (s : State) : Host.Outcome State Fault Refusal := .next (pcieLink s c)
def execCtlReqRx (x : Bool) (frame : List Byte) (s : State) : Host.Outcome State Fault Refusal := .next (ctlReqRx s (portNo x) frame)

/-! Host commands with rows of their own: the register write that is the command (R501, R522) -/

/-- A host's command by a write of the register at `off`: nothing while the register space does not answer, before the end of step 2 and in P4; ignored and counted before step 5 has
ended outside the early blocks (R522); a write-only field of a domain that is off is ignored (R501); else its effect. -/
def hostCmd (s : State) (off : Nat) (wo : Bool) (act : State → State) : State :=
  if !hostAnswers s || lostWrite s off then s
  else if step5Runs s && !earlyBlk off then nvmWrIgn s
  else if wo && blkOff s off then pwrIgn s
  else act s

/-- A host's read with a side effect (R522: answered at all times once the register space answers). -/
def hostAsk (s : State) (act : State → State) : State := if !hostAnswers s then s else act s

def execTmbSnap (s : State) : Host.Outcome State Fault Refusal := .next (hostCmd s F.TMB_CTRL_snap.off true tmbSnap)
def execTmbRealign (s : State) : Host.Outcome State Fault Refusal := .next (hostCmd s F.TMB_CTRL_realign.off true tmbRealign)
def execTmbClrCnt (s : State) : Host.Outcome State Fault Refusal := .next (hostCmd s F.TMB_CTRL_clr_cnt.off true tmbClrCnt)
def execExsClrCnt (s : State) : Host.Outcome State Fault Refusal := .next (hostCmd s F.EXS_CTRL_clr_cnt.off true exsClrCnt)
def execIngClrCnt (s : State) : Host.Outcome State Fault Refusal := .next (hostCmd s F.ING_CTRL_clr_cnt.off true ingClrCnt)
def execBlqSubGo (s : State) : Host.Outcome State Fault Refusal := .next (hostCmd s F.BLQ_SUB_GO_go.off true blqSubGo)
def execBlqClrCnt (s : State) : Host.Outcome State Fault Refusal := .next (hostCmd s F.BLQ_CTRL_clr_cnt.off true blqClrCnt)
def execCdcJobProdWrite (v : BitVec 16) (s : State) : Host.Outcome State Fault Refusal :=
  .next (hostCmd s F.CDC_JOB_PROD_index.off false (fun s => jobProdWrite s v.toNat))
def execCdcAbort (s : State) : Host.Outcome State Fault Refusal := .next (hostCmd s F.CDC_CTRL_abort.off true cdcAbort)
def execCdcClrCnt (s : State) : Host.Outcome State Fault Refusal := .next (hostCmd s F.CDC_CTRL_clr_cnt.off true cdcClrCnt)
def execCommitGo (s : State) : Host.Outcome State Fault Refusal := .next (hostCmd s F.SCN_COMMIT_go.off true commitGo)
def execScnClrCnt (s : State) : Host.Outcome State Fault Refusal := .next (hostCmd s F.SCN_CTRL_clr_cnt.off true scnClrCnt)
def execCapArm (s : State) : Host.Outcome State Fault Refusal := .next (hostCmd s F.PPX_CAP_CTRL_arm.off true capArm)
def execCapStop (s : State) : Host.Outcome State Fault Refusal := .next (hostCmd s F.PPX_CAP_CTRL_stop.off true capStop)
def execPpxClrCnt (s : State) : Host.Outcome State Fault Refusal := .next (hostCmd s F.PPX_CTRL_clr_cnt.off true ppxClrCnt)
def execAgeCkpt (s : State) : Host.Outcome State Fault Refusal := .next (hostCmd s F.AGE_CTRL_ckpt.off true ageCkpt)
def execAgeClrCnt (s : State) : Host.Outcome State Fault Refusal := .next (hostCmd s F.AGE_CTRL_clr_cnt.off true ageClrCnt)
def execDrvSendCfg (s : State) : Host.Outcome State Fault Refusal := .next (hostCmd s F.DRV_CTRL_send_cfg.off true sendCfg)
def execDrvClrCnt (s : State) : Host.Outcome State Fault Refusal := .next (hostCmd s F.DRV_CTRL_clr_cnt.off true drvClrCnt)
def execPsqOn (s : State) : Host.Outcome State Fault Refusal := .next (hostCmd s F.PSQ_CTRL_on.off true psqOn)
def execPsqOff (s : State) : Host.Outcome State Fault Refusal := .next (hostCmd s F.PSQ_CTRL_off.off true (fun s => psqOff s false))
def execPsqOffCkpt (s : State) : Host.Outcome State Fault Refusal := .next (hostCmd s F.PSQ_CTRL_off.off true (fun s => psqOff s true))
def execPsqClrCnt (s : State) : Host.Outcome State Fault Refusal := .next (hostCmd s F.PSQ_CTRL_clr_cnt.off true psqClrCnt)
def execOrlRetrain (x : Bool) (s : State) : Host.Outcome State Fault Refusal :=
  .next (hostCmd s F.ORL_CTRL_retrain_a.off true (fun s => orlRetrain s (portNo x)))
def execOrlClrCnt (s : State) : Host.Outcome State Fault Refusal := .next (hostCmd s F.ORL_CTRL_clr_cnt.off true orlClrCnt)
def execCtlWrite (s : State) : Host.Outcome State Fault Refusal := .next (hostCmd s F.ORL_CTL_CMD_go.off true (fun s => ctlGo s 0))
def execCtlRead (s : State) : Host.Outcome State Fault Refusal := .next (hostCmd s F.ORL_CTL_CMD_go.off true (fun s => ctlGo s 1))
def execMbxWrite (s : State) : Host.Outcome State Fault Refusal := .next (hostCmd s F.ORL_CTL_CMD_go.off true (fun s => ctlGo s 2))
def execMbxRead (s : State) : Host.Outcome State Fault Refusal := .next (hostCmd s F.ORL_CTL_CMD_go.off true (fun s => ctlGo s 3))
def execCommitAt (s : State) : Host.Outcome State Fault Refusal := .next (hostCmd s F.ORL_CTL_CMD_go.off true (fun s => ctlGo s 4))
def execOrlTxGo (s : State) : Host.Outcome State Fault Refusal := .next (hostCmd s F.ORL_TX_GO_go.off true orlTxGo)
def execMemClrCnt (s : State) : Host.Outcome State Fault Refusal := .next (hostCmd s F.MEM_CTRL_clr_cnt.off true memClrCnt)
def execXfRead (s : State) : Host.Outcome State Fault Refusal := .next (hostCmd s F.NVM_XF_CMD_go.off true (fun s => xfStart s 0))
def execXfProgram (s : State) : Host.Outcome State Fault Refusal := .next (hostCmd s F.NVM_XF_CMD_go.off true (fun s => xfStart s 1))
def execXfErase4k (s : State) : Host.Outcome State Fault Refusal := .next (hostCmd s F.NVM_XF_CMD_go.off true (fun s => xfStart s 2))
def execXfErase64k (s : State) : Host.Outcome State Fault Refusal := .next (hostCmd s F.NVM_XF_CMD_go.off true (fun s => xfStart s 3))
def execNvmPageRead (page : BitVec 12) (cor unc : BitVec 8) (s : State) : Host.Outcome State Fault Refusal :=
  .next (hostCmd s F.NVM_ACC_go.off true (fun s => nvmPageRead s page cor unc))
def execNvmPageWrite (page : BitVec 12) (off lenM1 : BitVec 6) (s : State) : Host.Outcome State Fault Refusal :=
  .next (hostCmd s F.NVM_ACC_go.off true (fun s => nvmPageWrite s page off lenM1))
def execNvmUnlock (user write : Bool) (s : State) : Host.Outcome State Fault Refusal :=
  .next (hostCmd s F.NVM_UNLOCK_go.off true (fun s => nvmUnlock s user write))
def execNvmPwSet (user write : Bool) (s : State) : Host.Outcome State Fault Refusal :=
  .next (hostCmd s F.NVM_UNLOCK_go.off true (fun s => nvmPwSet s false user write))
def execNvmRelock (s : State) : Host.Outcome State Fault Refusal := .next (hostCmd s F.NVM_CTRL_relock.off true nvmRelock)
def execNvmClrCnt (s : State) : Host.Outcome State Fault Refusal := .next (hostCmd s F.NVM_CTRL_clr_cnt.off true nvmClrCnt)
def execBootFlash (e : BootEnv) (s : State) : Host.Outcome State Fault Refusal :=
  .next (hostCmd s F.NVM_BOOT_CMD_go.off true (fun s => bootCmd s 0 e))
def execBootHost (e : BootEnv) (s : State) : Host.Outcome State Fault Refusal :=
  .next (hostCmd s F.NVM_BOOT_CMD_go.off true (fun s => bootCmd s 1 e))
/-- MSIX_UNMASK: a write of the MSI-X table (R455). -/
def execMsixUnmask (s : State) : Host.Outcome State Fault Refusal := .next (hostCmd s (F.GEN_MSIX_TABLE_word 3).off false msixUnmask)
def execGenFenceWrite (tok : Word) (s : State) : Host.Outcome State Fault Refusal :=
  .next (hostCmd s F.GEN_FENCE_token.off false (fun s => genFence s tok))
def execEvtConsWrite (v : Word) (s : State) : Host.Outcome State Fault Refusal :=
  .next (hostCmd s F.EVT_CONS_index.off false (fun s => evtConsWrite s v))
def execEvtClaim (src : BitVec 12) (prio : BitVec 4) (s : State) : Host.Outcome State Fault Refusal :=
  .next (hostCmd s F.EVT_CLAIM_source.off true (fun s => evtClaim s src prio))
def execEvtComplete (src : BitVec 12) (s : State) : Host.Outcome State Fault Refusal :=
  .next (hostCmd s F.EVT_COMPLETE_source.off true (fun s => evtComplete s src))
def execEvtStkInit (s : State) : Host.Outcome State Fault Refusal := .next (hostCmd s F.EVT_CTRL_stk_init.off true evtStkInit)
def execEvtClrCnt (s : State) : Host.Outcome State Fault Refusal := .next (hostCmd s F.EVT_CTRL_clr_cnt.off true evtClrCnt)
def execTrcLoad (k : Word) (s : State) : Host.Outcome State Fault Refusal := .next (hostCmd s F.EVT_TRC_IDX_index.off false (fun s => trcLoad s k))
def execSesStart (p : Path) (s : State) : Host.Outcome State Fault Refusal := .next (hostCmd s F.SEC_CTRL_ses_start.off true (fun s => sesStart s p))
def execSesFinish (p : Path) (s : State) : Host.Outcome State Fault Refusal :=
  .next (hostCmd s F.SEC_CTRL_ses_finish.off true (fun s => sesFinish s p))
/-- SES_CLOSE (R489): from any path. -/
def execSesClose (_p : Path) (s : State) : Host.Outcome State Fault Refusal := .next (hostCmd s F.SEC_CTRL_ses_close.off true sesClose)
def execSecEnroll (p : Path) (s : State) : Host.Outcome State Fault Refusal := .next (hostCmd s F.SEC_CTRL_enroll.off true (fun s => secEnroll s p))
def execSecCert (p : Path) (s : State) : Host.Outcome State Fault Refusal := .next (hostCmd s F.SEC_CTRL_cert.off true (fun s => secCert s p))
def execSecAtt (p : Path) (s : State) : Host.Outcome State Fault Refusal := .next (hostCmd s F.SEC_CTRL_att.off true (fun s => secAtt s p))
def execSecClrCnt (s : State) : Host.Outcome State Fault Refusal := .next (hostCmd s F.SEC_CTRL_clr_cnt.off true secClrCnt)
/-! The seven sealed commands are one write of SEC.CTRL.ses_cmd; which of them it is stands in the sealed body (Table 15.6). -/

def execNvmWrite (p : Path) (s : State) : Host.Outcome State Fault Refusal :=
  .next (hostCmd s F.SEC_CTRL_ses_cmd.off true (fun s => sesCmd s p))
def execPwSet (p : Path) (s : State) : Host.Outcome State Fault Refusal :=
  .next (hostCmd s F.SEC_CTRL_ses_cmd.off true (fun s => sesCmd s p))
def execArbCommit (p : Path) (s : State) : Host.Outcome State Fault Refusal :=
  .next (hostCmd s F.SEC_CTRL_ses_cmd.off true (fun s => sesCmd s p))
def execJtagLock (p : Path) (s : State) : Host.Outcome State Fault Refusal :=
  .next (hostCmd s F.SEC_CTRL_ses_cmd.off true (fun s => sesCmd s p))
def execRetire (p : Path) (s : State) : Host.Outcome State Fault Refusal :=
  .next (hostCmd s F.SEC_CTRL_ses_cmd.off true (fun s => sesCmd s p))
def execRegWrite (p : Path) (s : State) : Host.Outcome State Fault Refusal :=
  .next (hostCmd s F.SEC_CTRL_ses_cmd.off true (fun s => sesCmd s p))
def execRegRead (p : Path) (s : State) : Host.Outcome State Fault Refusal :=
  .next (hostCmd s F.SEC_CTRL_ses_cmd.off true (fun s => sesCmd s p))
def execPwrWake (s : State) : Host.Outcome State Fault Refusal := .next (hostCmd s F.PWR_CTRL_wake.off true (fun s => pwrChoose (pwrWake s)))
def execPwrSleep (s : State) : Host.Outcome State Fault Refusal := .next (hostCmd s F.PWR_CTRL_sleep.off true pwrSleep)
def execPwrClrCnt (s : State) : Host.Outcome State Fault Refusal := .next (hostCmd s F.PWR_CTRL_clr_cnt.off true (fun s => pwrChoose (pwrClrCnt s)))
/-- A read of BLQ.INSP_CUR (R134). -/
def execBlqInspCurRead (s : State) : Host.Outcome State Fault Refusal := .next (hostAsk s blqInspCurRead)
/-- A read of PPX.CRCr (R248). -/
def execPpxCrcRead (r : Fin 16) (s : State) : Host.Outcome State Fault Refusal := .next (hostAsk s (fun s => ppxCrcRead s r.val))
/-- An access of PPX.TBL_DATA (R217). -/
def execPpxTblDataAccess (w : Option Word) (s : State) : Host.Outcome State Fault Refusal :=
  match w with
  | some v => .next (hostCmd s F.PPX_TBL_DATA_data.off false (fun s => tblAccess s (some v)))
  | none => .next (hostAsk s (fun s => tblAccess s none))
/-- An access of AGE.TBL_DATA (R284). -/
def execAgeTblDataAccess (w : Option Word) (s : State) : Host.Outcome State Fault Refusal :=
  match w with
  | some v => .next (hostCmd s F.AGE_TBL_DATA_data.off false (fun s => ageTblAccess s (some v)))
  | none => .next (hostAsk s (fun s => ageTblAccess s none))
/-- TRAINING_START: of itself at the LINK step, else by DRV.CTRL.retrain (R301, R319). -/
def execTrainingStart (s : State) : Host.Outcome State Fault Refusal :=
  .next (if psqState s = psLINK then trainingStart s else hostCmd s F.DRV_CTRL_retrain.off true retrain)

/-! The block on its own -/

/-- What the block does with no command waiting: the event record that comes first commits (R450), else one tick passes (DESIGN CHOICE, log
entry 1). -/
def idle (s : State) : State :=
  if s.evt.posted.isEmpty then nvmNow { s with tick := s.tick + 1 } else evtPump (eventCommit s)

end Sys2Proof.Machine
end

