-- ==== Sys2Proof/Machine/Dispatch.lean ====
section
/-!
DEFINITION. One arm for each command: the call of its meaning.
-/

namespace Sys2Proof.Machine

def exec (i : Instr) (s : State) : Host.Outcome State Fault Refusal :=
  match i with
  | .genlockEdge src ts => Sys2Proof.Machine.execGenlockEdge src ts s
  | .edgeMiss => Sys2Proof.Machine.execEdgeMiss s
  | .holdover60s => Sys2Proof.Machine.execHoldover60s s
  | .tmbSnap => Sys2Proof.Machine.execTmbSnap s
  | .tmbRealign => Sys2Proof.Machine.execTmbRealign s
  | .tmbClrCnt => Sys2Proof.Machine.execTmbClrCnt s
  | .lockstepMismatch a b => Sys2Proof.Machine.execLockstepMismatch a b s
  | .lockstepReloadDone => Sys2Proof.Machine.execLockstepReloadDone s
  | .step8Timeout => Sys2Proof.Machine.execStep8Timeout s
  | .pictureBoundary => Sys2Proof.Machine.execPictureBoundary s
  | .bankBuild => Sys2Proof.Machine.execBankBuild s
  | .shutInEdge n level ts => Sys2Proof.Machine.execShutInEdge n level ts s
  | .cameraOpenMiss n => Sys2Proof.Machine.execCameraOpenMiss n s
  | .cameraCoastExpiry n => Sys2Proof.Machine.execCameraCoastExpiry n s
  | .exsClrCnt => Sys2Proof.Machine.execExsClrCnt s
  | .receiverLockChange n lock => Sys2Proof.Machine.execReceiverLockChange n lock s
  | .inputPictureStart n sig => Sys2Proof.Machine.execInputPictureStart n sig s
  | .ingestBlockRowStart n => Sys2Proof.Machine.execIngestBlockRowStart n s
  | .entryComplete id => Sys2Proof.Machine.execEntryComplete id s
  | .blqSubGo => Sys2Proof.Machine.execBlqSubGo s
  | .hostSubmissionDone => Sys2Proof.Machine.execHostSubmissionDone s
  | .blqInspCurRead => Sys2Proof.Machine.execBlqInspCurRead s
  | .blqClrCnt => Sys2Proof.Machine.execBlqClrCnt s
  | .ingClrCnt => Sys2Proof.Machine.execIngClrCnt s
  | .compressBlockDone lane v => Sys2Proof.Machine.execCompressBlockDone lane v s
  | .decodeBlockDone lane upset => Sys2Proof.Machine.execDecodeBlockDone lane upset s
  | .cdcJobProdWrite v => Sys2Proof.Machine.execCdcJobProdWrite v s
  | .compressSurf => Sys2Proof.Machine.execCompressSurf s
  | .compressPack => Sys2Proof.Machine.execCompressPack s
  | .decompressSurf => Sys2Proof.Machine.execDecompressSurf s
  | .decompressPack => Sys2Proof.Machine.execDecompressPack s
  | .codecJobEnd => Sys2Proof.Machine.execCodecJobEnd s
  | .cdcAbort => Sys2Proof.Machine.execCdcAbort s
  | .cdcClrCnt => Sys2Proof.Machine.execCdcClrCnt s
  | .registerCommit cls => Sys2Proof.Machine.execRegisterCommit cls s
  | .bandLatch => Sys2Proof.Machine.execBandLatch s
  | .refreshStart => Sys2Proof.Machine.execRefreshStart s
  | .stripFetchStart => Sys2Proof.Machine.execStripFetchStart s
  | .rowTake => Sys2Proof.Machine.execRowTake s
  | .verticalBlankingPoint => Sys2Proof.Machine.execVerticalBlankingPoint s
  | .commitGo => Sys2Proof.Machine.execCommitGo s
  | .nslRepeatPass => Sys2Proof.Machine.execNslRepeatPass s
  | .scnClrCnt => Sys2Proof.Machine.execScnClrCnt s
  | .sensorCycle reads => Sys2Proof.Machine.execSensorCycle reads s
  | .sensorFailTimeout => Sys2Proof.Machine.execSensorFailTimeout s
  | .ppxTblDataAccess w => Sys2Proof.Machine.execPpxTblDataAccess w s
  | .ppxCrcRead r => Sys2Proof.Machine.execPpxCrcRead r s
  | .capArm => Sys2Proof.Machine.execCapArm s
  | .capStop => Sys2Proof.Machine.execCapStop s
  | .captureDone abandoned => Sys2Proof.Machine.execCaptureDone abandoned s
  | .ppxClrCnt => Sys2Proof.Machine.execPpxClrCnt s
  | .backlightStrobe row on => Sys2Proof.Machine.execBacklightStrobe row on s
  | .stressAccumulation => Sys2Proof.Machine.execStressAccumulation s
  | .drizzleSlotStart => Sys2Proof.Machine.execDrizzleSlotStart s
  | .drizzleSlotEnd => Sys2Proof.Machine.execDrizzleSlotEnd s
  | .drizzleToken => Sys2Proof.Machine.execDrizzleToken s
  | .senseResultsComplete => Sys2Proof.Machine.execSenseResultsComplete s
  | .senseResultsTimeout => Sys2Proof.Machine.execSenseResultsTimeout s
  | .ageRebuildStep => Sys2Proof.Machine.execAgeRebuildStep s
  | .ckptInterval => Sys2Proof.Machine.execCkptInterval s
  | .ageCkpt => Sys2Proof.Machine.execAgeCkpt s
  | .ckptDone => Sys2Proof.Machine.execCkptDone s
  | .ckptFail => Sys2Proof.Machine.execCkptFail s
  | .ckptShutTimeout => Sys2Proof.Machine.execCkptShutTimeout s
  | .ckptRetry => Sys2Proof.Machine.execCkptRetry s
  | .emissionHour => Sys2Proof.Machine.execEmissionHour s
  | .panelOnHour => Sys2Proof.Machine.execPanelOnHour s
  | .ageTblDataAccess w => Sys2Proof.Machine.execAgeTblDataAccess w s
  | .ageClrCnt => Sys2Proof.Machine.execAgeClrCnt s
  | .rowSlot => Sys2Proof.Machine.execRowSlot s
  | .gapSlot => Sys2Proof.Machine.execGapSlot s
  | .slotEnd => Sys2Proof.Machine.execSlotEnd s
  | .gtEdge n => Sys2Proof.Machine.execGtEdge n s
  | .emEdge n => Sys2Proof.Machine.execEmEdge n s
  | .laneMonitorDetection g lane => Sys2Proof.Machine.execLaneMonitorDetection g lane s
  | .trainingStart => Sys2Proof.Machine.execTrainingStart s
  | .trainingStepEnd g => Sys2Proof.Machine.execTrainingStepEnd g s
  | .drvSendCfg => Sys2Proof.Machine.execDrvSendCfg s
  | .cfgSendDone => Sys2Proof.Machine.execCfgSendDone s
  | .drvClrCnt => Sys2Proof.Machine.execDrvClrCnt s
  | .statusPoll => Sys2Proof.Machine.execStatusPoll s
  | .backchannelFrame onTime bytes => Sys2Proof.Machine.execBackchannelFrame onTime bytes s
  | .backchannelFrameMissing => Sys2Proof.Machine.execBackchannelFrameMissing s
  | .monitorPoll => Sys2Proof.Machine.execMonitorPoll s
  | .psqOn => Sys2Proof.Machine.execPsqOn s
  | .powerOnStart => Sys2Proof.Machine.execPowerOnStart s
  | .psqOff => Sys2Proof.Machine.execPsqOff s
  | .psqOffCkpt => Sys2Proof.Machine.execPsqOffCkpt s
  | .psqClrCnt => Sys2Proof.Machine.execPsqClrCnt s
  | .railPgChange k level => Sys2Proof.Machine.execRailPgChange k level s
  | .railPgTimeout => Sys2Proof.Machine.execRailPgTimeout s
  | .railSettleDone => Sys2Proof.Machine.execRailSettleDone s
  | .railDischargeDone => Sys2Proof.Machine.execRailDischargeDone s
  | .pmbusDone ok => Sys2Proof.Machine.execPmbusDone ok s
  | .pmbAlertFall low => Sys2Proof.Machine.execPmbAlertFall low s
  | .crackSample inp => Sys2Proof.Machine.execCrackSample inp s
  | .orsalBeaconEntry => Sys2Proof.Machine.execOrsalBeaconEntry s
  | .portTrainDone x => Sys2Proof.Machine.execPortTrainDone x s
  | .portLinkLoss x => Sys2Proof.Machine.execPortLinkLoss x s
  | .portRetryTimeout x => Sys2Proof.Machine.execPortRetryTimeout x s
  | .orlRetrain x => Sys2Proof.Machine.execOrlRetrain x s
  | .linkHelloTimer x => Sys2Proof.Machine.execLinkHelloTimer x s
  | .linkHelloRx x frame => Sys2Proof.Machine.execLinkHelloRx x frame s
  | .linkBreakRx x frame => Sys2Proof.Machine.execLinkBreakRx x frame s
  | .linkHealRx x frame => Sys2Proof.Machine.execLinkHealRx x frame s
  | .delayMeasureTimer x => Sys2Proof.Machine.execDelayMeasureTimer x s
  | .dlyReqRx x frame stamp => Sys2Proof.Machine.execDlyReqRx x frame stamp s
  | .dlyRspRx x frame stamp => Sys2Proof.Machine.execDlyRspRx x frame stamp s
  | .dlyRspTimeout x => Sys2Proof.Machine.execDlyRspTimeout x s
  | .beaconRx x frame stamp => Sys2Proof.Machine.execBeaconRx x frame stamp s
  | .timingPortTimeout => Sys2Proof.Machine.execTimingPortTimeout s
  | .ctlWrite => Sys2Proof.Machine.execCtlWrite s
  | .ctlRead => Sys2Proof.Machine.execCtlRead s
  | .mbxWrite => Sys2Proof.Machine.execMbxWrite s
  | .mbxRead => Sys2Proof.Machine.execMbxRead s
  | .commitAt => Sys2Proof.Machine.execCommitAt s
  | .ctlReqRx x frame => Sys2Proof.Machine.execCtlReqRx x frame s
  | .commitAtTick => Sys2Proof.Machine.execCommitAtTick s
  | .ctlRspRx x frame => Sys2Proof.Machine.execCtlRspRx x frame s
  | .ctlTimeout => Sys2Proof.Machine.execCtlTimeout s
  | .eventFrameRx x frame => Sys2Proof.Machine.execEventFrameRx x frame s
  | .eventHoldTimeout => Sys2Proof.Machine.execEventHoldTimeout s
  | .verRx x frame => Sys2Proof.Machine.execVerRx x frame s
  | .verRspRx x frame => Sys2Proof.Machine.execVerRspRx x frame s
  | .verRetryTimeout => Sys2Proof.Machine.execVerRetryTimeout s
  | .blockRx x frame => Sys2Proof.Machine.execBlockRx x frame s
  | .orsalBlockChecked lane upset => Sys2Proof.Machine.execOrsalBlockChecked lane upset s
  | .nackRx x frame => Sys2Proof.Machine.execNackRx x frame s
  | .rxStallTimeout => Sys2Proof.Machine.execRxStallTimeout s
  | .orlTxGo => Sys2Proof.Machine.execOrlTxGo s
  | .orlClrCnt => Sys2Proof.Machine.execOrlClrCnt s
  | .orsalFrameSent x => Sys2Proof.Machine.execOrsalFrameSent x s
  | .retrainingSlot => Sys2Proof.Machine.execRetrainingSlot s
  | .g6ReadDone cls addr misses e => Sys2Proof.Machine.execG6ReadDone cls addr misses e s
  | .g6WriteDone cls addr misses => Sys2Proof.Machine.execG6WriteDone cls addr misses s
  | .scrubRead e written => Sys2Proof.Machine.execScrubRead e written s
  | .retrainOverdue c => Sys2Proof.Machine.execRetrainOverdue c s
  | .refreshLimit => Sys2Proof.Machine.execRefreshLimit s
  | .requestPromotion => Sys2Proof.Machine.execRequestPromotion s
  | .lsAccess r => Sys2Proof.Machine.execLsAccess r s
  | .mbxBusyRelease => Sys2Proof.Machine.execMbxBusyRelease s
  | .memClrCnt => Sys2Proof.Machine.execMemClrCnt s
  | .xfRead => Sys2Proof.Machine.execXfRead s
  | .xfProgram => Sys2Proof.Machine.execXfProgram s
  | .xfErase4k => Sys2Proof.Machine.execXfErase4k s
  | .xfErase64k => Sys2Proof.Machine.execXfErase64k s
  | .xfDone flashErr => Sys2Proof.Machine.execXfDone flashErr s
  | .nvmPageRead page cor unc => Sys2Proof.Machine.execNvmPageRead page cor unc s
  | .nvmPageWrite page off lenM1 => Sys2Proof.Machine.execNvmPageWrite page off lenM1 s
  | .nvmGroupProgrammed => Sys2Proof.Machine.execNvmGroupProgrammed s
  | .nvmScrubPage weak unc => Sys2Proof.Machine.execNvmScrubPage weak unc s
  | .bootFlash e => Sys2Proof.Machine.execBootFlash e s
  | .bootHost e => Sys2Proof.Machine.execBootHost e s
  | .nvmUnlock user write => Sys2Proof.Machine.execNvmUnlock user write s
  | .nvmPwSet user write => Sys2Proof.Machine.execNvmPwSet user write s
  | .nvmRelock => Sys2Proof.Machine.execNvmRelock s
  | .nvmClrCnt => Sys2Proof.Machine.execNvmClrCnt s
  | .genFenceWrite tok => Sys2Proof.Machine.execGenFenceWrite tok s
  | .eventRecordCommit => Sys2Proof.Machine.execEventRecordCommit s
  | .evtConsWrite v => Sys2Proof.Machine.execEvtConsWrite v s
  | .msixUnmask => Sys2Proof.Machine.execMsixUnmask s
  | .evtClaim src prio => Sys2Proof.Machine.execEvtClaim src prio s
  | .evtComplete src => Sys2Proof.Machine.execEvtComplete src s
  | .evtStkInit => Sys2Proof.Machine.execEvtStkInit s
  | .evtClrCnt => Sys2Proof.Machine.execEvtClrCnt s
  | .squallWindowEnd src => Sys2Proof.Machine.execSquallWindowEnd src s
  | .trcLoad k => Sys2Proof.Machine.execTrcLoad k s
  | .bar0RegisterAccess r => Sys2Proof.Machine.execBar0RegisterAccess r s
  | .bar0LocalStoreAccess r => Sys2Proof.Machine.execBar0LocalStoreAccess r s
  | .bar2Access r => Sys2Proof.Machine.execBar2Access r s
  | .mgtWrite op off bytes => Sys2Proof.Machine.execMgtWrite op off bytes s
  | .mgtRead off words cut => Sys2Proof.Machine.execMgtRead off words cut s
  | .mgtStatus => Sys2Proof.Machine.execMgtStatus s
  | .registerWrite path off v be => Sys2Proof.Machine.execRegisterWrite path off v be s
  | .pcieConfigWrite w => Sys2Proof.Machine.execPcieConfigWrite w s
  | .pcieLinkStateChange c => Sys2Proof.Machine.execPcieLinkStateChange c s
  | .nvmWrite p => Sys2Proof.Machine.execNvmWrite p s
  | .pwSet p => Sys2Proof.Machine.execPwSet p s
  | .arbCommit p => Sys2Proof.Machine.execArbCommit p s
  | .jtagLock p => Sys2Proof.Machine.execJtagLock p s
  | .retire p => Sys2Proof.Machine.execRetire p s
  | .sesStart p => Sys2Proof.Machine.execSesStart p s
  | .sesFinish p => Sys2Proof.Machine.execSesFinish p s
  | .sesClose p => Sys2Proof.Machine.execSesClose p s
  | .sessionIdleTimeout => Sys2Proof.Machine.execSessionIdleTimeout s
  | .regWrite p => Sys2Proof.Machine.execRegWrite p s
  | .regRead p => Sys2Proof.Machine.execRegRead p s
  | .secEnroll p => Sys2Proof.Machine.execSecEnroll p s
  | .secCert p => Sys2Proof.Machine.execSecCert p s
  | .secAtt p => Sys2Proof.Machine.execSecAtt p s
  | .secClrCnt => Sys2Proof.Machine.execSecClrCnt s
  | .hdcpAuthentication ok type1 => Sys2Proof.Machine.execHdcpAuthentication ok type1 s
  | .jtagInstruction code => Sys2Proof.Machine.execJtagInstruction code s
  | .pwrWake => Sys2Proof.Machine.execPwrWake s
  | .pwrSleep => Sys2Proof.Machine.execPwrSleep s
  | .pwrClrCnt => Sys2Proof.Machine.execPwrClrCnt s
  | .powerStateChoice => Sys2Proof.Machine.execPowerStateChoice s
  | .domainSwitchOnDone d => Sys2Proof.Machine.execDomainSwitchOnDone d s
  | .domainSwitchOffDone d => Sys2Proof.Machine.execDomainSwitchOffDone d s
  | .auxTransaction r => Sys2Proof.Machine.execAuxTransaction r s
  | .sdiCarrierDetect n => Sys2Proof.Machine.execSdiCarrierDetect n s
  | .mgtCsNWake => Sys2Proof.Machine.execMgtCsNWake s
  | .perstNWake => Sys2Proof.Machine.execPerstNWake s
  | .p3Exit => Sys2Proof.Machine.execP3Exit s
  | .p4Exit e => Sys2Proof.Machine.execP4Exit e s
  | .dieSensorSample readings => Sys2Proof.Machine.execDieSensorSample readings s
  | .perstNRise => Sys2Proof.Machine.execPerstNRise s
  | .porNLow => Sys2Proof.Machine.execPorNLow s
  | .porNRise e => Sys2Proof.Machine.execPorNRise e s
  | .g6TrainTimeout c => Sys2Proof.Machine.execG6TrainTimeout c s
  | .perstNLow => Sys2Proof.Machine.execPerstNLow s
  | .functionLevelReset => Sys2Proof.Machine.execFunctionLevelReset s

end Sys2Proof.Machine
end

