-- ==== Sys2Proof/Machine/Step.lean ====
section
/-!
DEFINITION. A step of the block: the command at the front of the queue; on an empty queue the block goes on by itself (log entry 1).
-/

namespace Sys2Proof.Machine

/-- A step. With a command waiting: its effect on the state with the queue's rest. With none, the block goes on by itself: an event record
that has been posted commits (R450), else one tick passes (DESIGN CHOICE, log entry 1). -/
def step (s : State) : Host.Outcome State Fault Refusal :=
  match s.pending with
  | c :: cs => exec c { s with pending := cs }
  | [] => .next (idle s)

/-- The state with the command that a word spells at the front of its queue; the opcode table gives no row any bits, so no word spells one. -/
def State.withFetchWord (s : State) (nbits w : Nat) : State :=
  match decodeTableWord nbits w with
  | some c => { s with pending := c :: s.pending }
  | none => s

end Sys2Proof.Machine
end

