-- ==== Sys2Proof/WellFormed.lean ====
section
/-!
DEFINITION. Which commands the outside can send: the operands a rule of the manual admits. A command outside these is no event of the
hardware; the block's state never depends on one in a statement.
-/

namespace Sys2Proof

/-- Width and height of plane `k` of a picture: planes 1 and 2 are subsampled by the signal's code (R108, Table 4.7). -/
def InSignal.dim (g : InSignal) (k : Nat) : Nat × Nat :=
  if k = 0 then (g.w, g.h)
  else match g.sub with
    | 0 => (g.w, g.h)
    | 1 => ((g.w + 1) / 2, g.h)
    | 2 => ((g.w + 1) / 2, (g.h + 1) / 2)

/-- Bits of a sample for a depth code (Table 4.7). -/
def InSignal.bitsOf (g : InSignal) : Nat := match g.depth with | 0 => 8 | 1 => 10 | 2 => 12 | 3 => 16

/-- An input picture: 1 to 8,192 on each side (R99), three planes of their sizes, samples within the depth. -/
def InSignal.wellFormed (g : InSignal) : Bool :=
  decide (1 ≤ g.w) && decide (g.w ≤ 8192) && decide (1 ≤ g.h) && decide (g.h ≤ 8192) && decide (g.planes.length = 3)
    && (List.range 3).all (fun k => (g.planes.getD k []).length == (g.dim k).1 * (g.dim k).2)
    && g.planes.all (fun p => p.all (fun x => decide (x < 2 ^ g.bitsOf)))

/-- A PCIe write carries 1 to 512 bytes beside a read's length of 0, a read asks for 1 to 4,096 (Table 14.1). -/
def BarReq.wellFormed (r : BarReq) : Bool :=
  if r.write then decide (1 ≤ r.data.length) && decide (r.data.length ≤ 512) && r.len == 0
  else decide (1 ≤ r.len) && decide (r.len ≤ 4096) && r.data.isEmpty

/-- A local-store access of 1 to 16 bytes (R405) by master 0 to 7. -/
def LsReq.wellFormed (r : LsReq) : Bool :=
  if r.write then decide (1 ≤ r.data.length) && decide (r.data.length ≤ 16) && r.len.val == 0
  else decide (1 ≤ r.len.val) && r.data.isEmpty

/-- A link trains at generation 1 to 4 and width 1, 2 or 4 (Table 14.9). -/
def LinkChange.wellFormed : LinkChange → Bool
  | .up g n => decide (1 ≤ g) && decide (g ≤ 4) && (n == 1 || n == 2 || n == 4)
  | .down => true
  | .l1 _ => true
  | .l1sub _ => true
  | .l2 _ => true

/-- Start-up's environment: step 5 ends before step 7, and a flash that answers SFDP has a size. -/
def BootEnv.wellFormed (e : BootEnv) : Bool := decide (e.t5 ≤ e.t7) && (!e.sfdpOk || decide (0 < e.flashSize))

/-- An Orsal frame as received: a header of 16 bytes, a payload padded to a multiple of 8, a trailer of 8 (R356); its len field holds 12 bits. -/
def frameShape (bs : List Byte) : Bool := decide (24 ≤ bs.length) && bs.length % 8 == 0 && decide (bs.length ≤ 24 + 4096)

/-- A command the outside can send. -/
def Instr.wellFormed : Instr → Bool
  | .inputPictureStart _ g => g.wellFormed
  | .sensorCycle l => l.length == 16
  | .dieSensorSample l => !l.isEmpty
  | .lsAccess r => r.wellFormed
  | .bootFlash e | .bootHost e | .p4Exit e | .porNRise e => e.wellFormed
  | .bar0RegisterAccess r => r.wellFormed && decide (r.off + r.data.length + r.len ≤ 0x1000000)
  | .bar0LocalStoreAccess r =>
    r.wellFormed && decide (0x1000000 ≤ r.off) && decide (r.off + r.data.length + r.len ≤ 0x2000000)
  | .bar2Access r => r.wellFormed && decide (r.off + r.data.length + r.len ≤ 0x10000000)
  | .mgtWrite op _ bs => op != 0x0B#8 && op != 0x05#8 && (op == 0x02#8 || bs.isEmpty)
  | .registerWrite _ off _ _ => off.toNat % 4 == 0 && decide (off.toNat < 0x1000000)
  | .pcieLinkStateChange c => c.wellFormed
  | .linkHelloRx _ f | .linkBreakRx _ f | .linkHealRx _ f | .dlyReqRx _ f _ | .dlyRspRx _ f _ | .beaconRx _ f _ | .ctlReqRx _ f
  | .ctlRspRx _ f | .eventFrameRx _ f | .verRx _ f | .verRspRx _ f | .blockRx _ f | .nackRx _ f => frameShape f
  | .genlockEdge .. | .edgeMiss | .holdover60s | .tmbSnap | .tmbRealign | .tmbClrCnt | .lockstepMismatch .. | .lockstepReloadDone
  | .step8Timeout | .pictureBoundary | .bankBuild | .shutInEdge .. | .cameraOpenMiss .. | .cameraCoastExpiry .. | .exsClrCnt
  | .receiverLockChange .. | .ingestBlockRowStart .. | .entryComplete .. | .blqSubGo | .hostSubmissionDone | .blqInspCurRead
  | .blqClrCnt | .ingClrCnt | .compressBlockDone .. | .decodeBlockDone .. | .cdcJobProdWrite .. | .compressSurf | .compressPack
  | .decompressSurf | .decompressPack | .codecJobEnd | .cdcAbort | .cdcClrCnt | .registerCommit .. | .bandLatch | .refreshStart
  | .stripFetchStart | .rowTake | .verticalBlankingPoint | .commitGo | .nslRepeatPass | .scnClrCnt | .sensorFailTimeout
  | .ppxTblDataAccess .. | .ppxCrcRead .. | .capArm | .capStop | .captureDone .. | .ppxClrCnt | .backlightStrobe ..
  | .stressAccumulation | .drizzleSlotStart | .drizzleSlotEnd | .drizzleToken | .senseResultsComplete | .senseResultsTimeout
  | .ageRebuildStep | .ckptInterval | .ageCkpt | .ckptDone | .ckptFail | .ckptShutTimeout | .ckptRetry | .emissionHour | .panelOnHour
  | .ageTblDataAccess .. | .ageClrCnt | .rowSlot | .gapSlot | .slotEnd | .gtEdge .. | .emEdge .. | .laneMonitorDetection ..
  | .trainingStart | .trainingStepEnd .. | .drvSendCfg | .cfgSendDone | .drvClrCnt | .statusPoll | .backchannelFrame ..
  | .backchannelFrameMissing | .monitorPoll | .psqOn | .powerOnStart | .psqOff | .psqOffCkpt | .psqClrCnt | .railPgChange ..
  | .railPgTimeout | .railSettleDone | .railDischargeDone | .pmbusDone .. | .pmbAlertFall .. | .crackSample .. | .orsalBeaconEntry
  | .portTrainDone .. | .portLinkLoss .. | .portRetryTimeout .. | .orlRetrain .. | .linkHelloTimer .. | .delayMeasureTimer ..
  | .dlyRspTimeout .. | .timingPortTimeout | .ctlWrite | .ctlRead | .mbxWrite | .mbxRead | .commitAt | .commitAtTick | .ctlTimeout
  | .eventHoldTimeout | .verRetryTimeout | .orsalBlockChecked .. | .rxStallTimeout | .orlTxGo | .orlClrCnt | .orsalFrameSent ..
  | .retrainingSlot | .g6ReadDone .. | .g6WriteDone .. | .scrubRead .. | .retrainOverdue .. | .refreshLimit | .requestPromotion
  | .mbxBusyRelease | .memClrCnt | .xfRead | .xfProgram | .xfErase4k | .xfErase64k | .xfDone .. | .nvmPageRead .. | .nvmPageWrite ..
  | .nvmGroupProgrammed | .nvmScrubPage .. | .nvmUnlock .. | .nvmPwSet .. | .nvmRelock | .nvmClrCnt | .genFenceWrite ..
  | .eventRecordCommit | .evtConsWrite .. | .msixUnmask | .evtClaim .. | .evtComplete .. | .evtStkInit | .evtClrCnt
  | .squallWindowEnd .. | .trcLoad .. | .mgtRead .. | .mgtStatus | .pcieConfigWrite .. | .nvmWrite .. | .pwSet .. | .arbCommit ..
  | .jtagLock .. | .retire .. | .sesStart .. | .sesFinish .. | .sesClose .. | .sessionIdleTimeout | .regWrite .. | .regRead ..
  | .secEnroll .. | .secCert .. | .secAtt .. | .secClrCnt | .hdcpAuthentication .. | .jtagInstruction .. | .pwrWake | .pwrSleep
  | .pwrClrCnt | .powerStateChoice | .domainSwitchOnDone .. | .domainSwitchOffDone .. | .auxTransaction .. | .sdiCarrierDetect ..
  | .mgtCsNWake | .perstNWake | .p3Exit | .perstNRise | .porNLow | .g6TrainTimeout .. | .perstNLow | .functionLevelReset => true

end Sys2Proof
end

