-- ==== Sys2Proof/Safety.lean ====
section
/-!
DEFINITION. What statements say about runs: the canonical form of every sparse table, the fuses as one-way bits, when a host's command is
served, and the frames of a step.
-/

namespace Sys2Proof.Machine

/-- Every sparse table of the state is in canonical form: keys strictly rising, no entry equal to what an unlisted key reads as. -/
def tablesOk (s : State) : Bool :=
  swf 0#32 s.reg && swf 0#32 s.shadow && swf 0#8 s.gddr && swf 0#8 s.lst && swf 0xFF#8 s.flash && swf 0#8 s.nvm && swf 0#8 s.host.mem

/-- Fuse i (R476, Table 15.2): hash fuse i below 384, then owner_lock, jtag_lock, retired, and anti-rollback fuse i - 387. -/
def fuse (x : Sec) (i : Nat) : Bool :=
  if i < 384 then x.hash.testBit i else if i = 384 then x.ownerLock else if i = 385 then x.jtagLock else if i = 386 then x.retired
  else x.arbRow.testBit (i - 387)

/-- A host's command by a write of the register at `off` is served: the register space answers, the write is not too early (R522) nor lost to a
reset of its tick (R545), and its domain is on where the command is a write-only field (R501). -/
def served (s : State) (off : Nat) (wo : Bool) : Prop :=
  hostAnswers s = true ∧ lostWrite s off = false ∧ (step5Runs s = false ∨ earlyBlk off = true) ∧ (wo && blkOff s off) = false

/-- The register file reads as before at every offset outside a list. -/
def regsKept (s t : State) (offs : List Nat) : Prop := ∀ o, o ∉ offs → rdW t o = rdW s o

/-- No byte of any memory, and no shadow, changed. -/
def memKept (s t : State) : Prop :=
  t.gddr = s.gddr ∧ t.lst = s.lst ∧ t.flash = s.flash ∧ t.nvm = s.nvm ∧ t.host.mem = s.host.mem ∧ t.shadow = s.shadow

/-- A record of a class and source with an ordinary payload waits for its commit. -/
def posted (t : State) (cls blk inst : Nat) (f : Fld) (qs : List (Nat × Nat)) : Prop :=
  ∃ r, r ∈ t.evt.posted ∧ r.cls = cls ∧ r.src = srcOf blk inst ∧ r.pay = ordPay f qs

/-- No counter in these registers has counted in the running tick. -/
def quiet (s : State) (offs : List Nat) : Prop := ∀ e ∈ (tickLog s).incs, e.1.off ∉ offs

/-- What a clear leaves in its counters' registers (R569): 0, where none has counted in the tick of the clear; in one that has, the increments
of that tick. -/
def cleared (s t : State) (offs : List Nat) : Prop :=
  (quiet s offs → ∀ o ∈ offs, rdW t o = 0#32) ∧
  (∀ (f : Fld) (n : Nat), f.off ∈ offs → f.lo + f.w ≤ 32 → (tickLog s).incs.filter (fun e => e.1.off = f.off) = [(f, n)] →
    rd t f = min n (2 ^ f.w - 1))

/-- Flash after a checkpoint has begun in slot k (R278): the slot is erased, every other byte reads as before. -/
def ckptErased (s t : State) (k : Nat) : Prop :=
  (∀ a, slotBase s k ≤ a → a < slotBase s k + slotLen s k → sget 0xFF#8 t.flash a = 0xFF#8) ∧
  (∀ a, a < slotBase s k ∨ slotBase s k + slotLen s k ≤ a → sget 0xFF#8 t.flash a = sget 0xFF#8 s.flash a)

/-- The next ON or OFF strobe to send for a zone row (R245): the tick of its latch, its pass, the row and which. -/
def strobeNext (s : State) (j : Nat) (o : Bool) : Option (Nat × Nat × Nat × Bool) :=
  (strobesDue s (allPasses s)).find? (fun e => e.2.2.1 = j && e.2.2.2 == o && (o || s.ppx.blDone.contains (e.2.1, j, true)))

/-- Sensor `i` is valid after a cycle with these reads (R229): it is enabled, and its read is good, or it was valid and this is not its third
failure in a row. -/
def sensorValid (s : State) (reads : List SnsRead) (i : Nat) : Bool :=
  let e := s.ppx.sns.getD i ⟨false, 0, false⟩
  on s (F.PPX_SNS_en i) && ((snsTemp (reads.getD i none)).isSome || (e.valid && decide (e.fails + 1 < 3)))

/-- The readings from which a cycle with these reads computes the panel temperature (R229). -/
def sensorList (s : State) (reads : List SnsRead) : List Int :=
  ((List.range 16).filter (sensorValid s reads)).map (fun i => (snsTemp (reads.getD i none)).getD (rdS s (F.PPX_SNS_temp i)))

/-- Some enabled sensor is valid. -/
def sensorWas (s : State) : Prop := ∃ i, i < 16 ∧ on s (F.PPX_SNS_en i) = true ∧ (s.ppx.sns.getD i ⟨false, 0, false⟩).valid = true

/-- The high spans of GT output n as they make edges (R314): functions 1 to 4 make none in a hold. -/
def gtMade (s : State) (n : Nat) : List (Nat × Nat) := if rd s (F.DRV_GT_CFG_func n) ≤ 4 then outsideHold s (gtSpans s n) else gtSpans s n

/-- The value a saturating counter shows after one more event (R58, R569). -/
def counted (s : State) (f : Fld) : Nat := min (rd s f + 1) (2 ^ f.w - 1)

/-- The time base judges edges of its reference against windows counted from the alignment edge `a` (R35): the source is the selected one, the
state is ACQUIRE, LOCKED, HOLDOVER or SLEW, no wide acceptance or realign is pending, the windows do not overlap, and the measurement of R37
does not have its 16 edges yet. -/
def judgesEdges (s : State) (src : EdgeSrc) (a : Int) : Prop :=
  isRef s src = true ∧ tmbState s ∈ [tmACQUIRE, tmLOCKED, tmHOLDOVER, tmSLEW] ∧ s.tmb.align = some a ∧ s.tmb.wide = false ∧
  s.tmb.realign = false ∧ s.tmb.recent.length < 15 ∧ 0 < tRef s ∧ 2 * rd s F.TMB_REF_WIN_ticks ≤ tRef s

/-- Port `x` receives a frame of a type that passes its CRC (R356). -/
def heard (s : State) (x typ : Nat) (bs : List Byte) : Prop :=
  portHears s x = true ∧ frameOk bs = true ∧ (parseFrame bs).typ = typ

/-- A numbered frame for this device that no copy of has been acted on (R359). -/
def firstCopy (s : State) (bs : List Byte) : Prop := frameMine s (parseFrame bs) = true ∧ frameSeen s (parseFrame bs) = false

/-- Port `x` is UP with no frame waiting or being sent. -/
def idlePort (s : State) (x : Nat) : Prop := portUp s x = true ∧ (oport s x).sending = none ∧ (oport s x).queue = []

/-- The payload of a worker's EVENT has been given to the event controller (R373, R471): a record with every field kept, fwd set and the worker's
position as its origin; for kind 1 a gap record with the six counts. -/
def delivered (t : State) (pos : Nat) (pay : List Byte) : Prop :=
  ∃ r ∈ t.evt.posted, ∃ bs, r.fwd = some bs ∧
    (leAt pay 32 1 = 0 → bs = ((pay.take 32).set 4 (((pay.take 32).getD 4 0#8) ||| 0x08#8)).set 28 (BitVec.ofNat 8 pos)) ∧
    (leAt pay 32 1 ≠ 0 → ∃ g : Rec, g.cls = clsGap ∧ bs = recBytes g 0 15 false true false pos ∧
      g.pay = ([0, 1, 2, 3, 4, 6].map (fun k => min 0xFFFF (leAt pay (36 + 4 * k) 4))).flatMap (fun n => leBytes n 2))

/-- The BLOCK frame of a distribution's block (R375, Table 11.4), as it leaves in state `s`. -/
def blockFrame (s : State) (d : Dist) (key addr : Nat) : List Byte :=
  frameBytes (ownFrame s 9 false d.dst []) (leBytes d.vid 4 ++ leBytes (key / 65536) 1 ++ leBytes (key % 256) 1 ++ leBytes (key / 256) 1 ++
    List.replicate 9 0#8 ++ gddrRd s addr (16 + hdrLen (gddrRd s addr 16)))

/-- Port `y` has delivered no usable beacon within 2 × P / bdiv ticks (R365). -/
def noBeacon (s : State) (y : Nat) : Prop :=
  ∀ t, (oport s y).lastBcn = some t → t + 2 * picPeriod s / max (rd s F.TMB_REF_RATIO_ref_div) 1 ≤ s.tick

/-- The response of a performed sealed command, bytes 128 to 191 of SEC.SES_BUF, under a session's keys (R487, Table 15.5). -/
def response (keys : List Byte) (ctr result data : Nat) : List Byte :=
  let head := leBytes 0x3152535A 4 ++ leBytes 0 4 ++ leBytes ctr 8
  let c := gcmSeal (slice keys 32 32) (slice keys 68 4 ++ beBytes ctr 8) head (leBytes result 4 ++ leBytes data 4 ++ leBytes 0 8)
  head ++ c.1 ++ c.2 ++ leBytes 0 16

/-- Bytes [a, a + n) lie in the local store and hold no `protected` flag of a surface descriptor, which only ingest writes (R103). -/
def offProt (s : State) (a n : Nat) : Prop :=
  a + n ≤ 0x1000000 ∧ (a + n ≤ rd s F.BLQ_SURF_BASE_offset ∨ rd s F.BLQ_SURF_BASE_offset + 32768 ≤ a) ∧ ∀ x ∈ s.ing.prot, x < a ∨ a + n ≤ x

/-- They also lie below the mailbox (R406). -/
def offTable (s : State) (a n : Nat) : Prop := a + n ≤ mbxBase ∧ offProt s a n

/-- A sealed command ended with a result: shown, and its response written at SEC.SES_BUF with no other byte of the local store changed. -/
def answered (m t : State) (ctr result data : Nat) : Prop :=
  let a := rd m F.SEC_SES_BUF_offset + 128
  let b := response m.sec.keys ctr result data
  rd t F.SEC_STATUS_result = result ∧ (offProt m a b.length → lstRd t a b.length = b) ∧ ∀ x, x < a ∨ a + b.length ≤ x → sget 0#8 t.lst x = sget 0#8 m.lst x

/-- No transition between device states is in progress or due. -/
def steady (s : State) : Prop := rd s F.PWR_STATUS_busy = 0 ∧ s.pwr.stage = .none ∧ s.pwr.exitDue = false

/-- Start-up stopped at a step with a boot status code, and waits (R420, R523). -/
def waits (t : State) (step code : Nat) : Prop :=
  t.boot.step = step ∧ rd t F.NVM_BOOT_STAT_state = 2 ∧ rd t F.NVM_BOOT_STAT_code = code ∧ bitOf t F.EVT_ALARM_alarm almBOOT = true

/-- Start-up went on from step 4, begun in `u`, with an image that passed its checks (R519, R521): step 5 has ended; with every channel trained
step 7 is reached; it ends, with BOOT_STAT.state OK, or stops at a GDR body; with no GDR body it ends. -/
def started (u t : State) (m : Img) (e : BootEnv) : Prop :=
  t.boot.end5 = some (u.tick + e.t5) ∧ 6 ≤ t.boot.step ∧ t.sec.imgHash = some (sha384 (imgRd u m 0 (64 + 96 * m.n))) ∧
  ((∀ c, c < 8 → maskHas (chansInUse t) c = true → maskHas e.g6Trained.toNat c = true) →
    (t.boot.step = 8 ∧ t.boot.imageOk = true ∧ rd t F.NVM_BOOT_STAT_state = 1) ∨
    (t.boot.step = 7 ∧ rd t F.NVM_BOOT_STAT_state = 2 ∧ rd t F.NVM_BOOT_STAT_code ∈ [0x12, 0x13, 0x14])) ∧
  ((∀ c, c < 8 → maskHas (chansInUse t) c = true → maskHas e.g6Trained.toNat c = true) → m.src = 0 → (∀ c ∈ imgSects u m, c.typ ≠ 4) →
    t.boot.step = 8)

end Sys2Proof.Machine
end

