-- ==== Sys2Proof/Certificates/Slice0/Obligations.lean ====
section
/-!
DEFINITION. The statements for the provers, one definition each. OBLIGATIONS.json holds the title, the text and the rules of each.
-/

open Sys2Proof Sys2Proof.Machine

/-- A step with a command in front is its effect on the queue's rest; with none a record commits or a tick passes (model's choice, log entry
1). Rests on spec/95_what_each_step_holds.md, spec/01_architecture.md, spec/14_host_events.md, spec/02_time_base.md. -/
def Obligations.StepRunsFrontCommand : Prop :=
  (∀ (c : Instr) (cs : List Instr) (s : State), step { s with pending := c :: cs } = exec c { s with pending := cs }) ∧
  (∀ s : State, s.pending = [] →
    (s.evt.posted = [] → step s = .next (nvmNow { s with tick := s.tick + 1 })) ∧
    (s.evt.posted = [] → (∀ d p c u, s.nv.reading = some (d, p, c, u) → s.tick + 1 < d) → step s = .next { s with tick := s.tick + 1 }) ∧
    (s.evt.posted ≠ [] → step s = step { s with pending := [.eventRecordCommit] }))

/-- Every command answers a next state in every state. Rests on spec/17_startup_faults.md, spec/95_what_each_step_holds.md. -/
def Obligations.NoCommandStops : Prop := ∀ (c : Instr) (s : State), ∃ t, exec c s = .next t

/-- No command changes the queue, so commands run first in first out. Rests on spec/95_what_each_step_holds.md. -/
def Obligations.CommandsLeaveTheQueue : Prop :=
  ∀ s t : State, step s = .next t → t.pending = s.pending.tail

/-- At reset every table is in canonical form, and registers of every group read the values the manual gives. Rests on R24, R56, R96, R134,
R172, R210, R252, R347, R474, R498, R514. -/
def Obligations.ResetTablesCanonical : Prop :=
  tablesOk State.reset = true ∧ State.reset.tick = 0 ∧ State.reset.pending = [] ∧
  rd State.reset F.GEN_ID_part = 0x8820 ∧ rd State.reset F.GEN_ID_stepping = 0xA1 ∧ rd State.reset F.PWR_REQ_max_state = 1 ∧
  rd State.reset F.PWR_LAT_TOL_us = 0xFFFFFFFF ∧ rd State.reset F.PWR_IDLE_idle_ms = 1000 ∧ rd State.reset F.PWR_STATUS_state = 0 ∧
  rd State.reset F.PWR_DOM_ON_on = allDoms ∧ rd State.reset F.TMB_STATUS_state = 0 ∧ rd State.reset F.TMB_REF_WIN_ticks = 1500 ∧
  rd State.reset F.TMB_PIC_PERIOD_ticks = 62500000 ∧ F.TMB_PIC_PERIOD_ticks.ofWord (rdShW State.reset F.TMB_PIC_PERIOD_ticks.off) = 62500000 ∧
  rd State.reset F.EXS_BUILD_lead = 1500000 ∧ F.EXS_BUILD_lead.ofWord (rdShW State.reset F.EXS_BUILD_lead.off) = 1500000 ∧
  rd State.reset F.BLQ_SURF_BASE_offset = 16220160 ∧ rd State.reset F.CDC_CFG_ad = 1 ∧ rd State.reset F.CDC_JOB_BASE_offset = 16187392 ∧
  rd State.reset F.SCN_LATENCY_ticks = 49152 ∧ rd State.reset F.SCN_STATUS_view = 15 ∧ rd State.reset F.PPX_CFG_headroom = 4 ∧
  psqState State.reset = psOFF ∧ sesState State.reset = 0

/-- Every step keeps every table in canonical form. Rests on spec/12_memory.md, spec/18_register_map.md. -/
def Obligations.StepKeepsTablesCanonical : Prop :=
  ∀ s t : State, tablesOk s = true → step s = .next t → tablesOk t = true

/-- No step clears a fuse that has been blown. Rests on R476, R497, spec/15_security.md. -/
def Obligations.FusesNeverClear : Prop :=
  ∀ s t : State, step s = .next t →
    (s.sec.mfgDone = true → t.sec.mfgDone = true) ∧
    (∀ i, fuse s.sec i = true → fuse t.sec i = true ∨ (s.pending.head? = some .porNLow ∧ ∃ e ∈ s.sec.blow, e.1 = i ∧ s.tick < e.2))

/-- A block's clear command zeroes its counters and nothing else. Rests on R58, R97, R134, R173, R211, R253, R320, R348, R389, R411, R475,
R569. Its conclusion is exec … = .next t, with the own effect of: tmbClrCnt, exsClrCnt, blqClrCnt, ingClrCnt, cdcClrCnt, scnClrCnt,
ppxClrCnt, ageClrCnt, drvClrCnt, psqClrCnt, orlClrCnt, memClrCnt, nvmClrCnt, evtClrCnt, secClrCnt. -/
def Obligations.ClearCommandsZeroTheirCounters : Prop :=
  (∀ s c f offs, served s f true →
    (c, f, offs) ∈ [(Instr.tmbClrCnt, F.TMB_CTRL_clr_cnt.off, [F.TMB_REF_CNT.off]),
      (.exsClrCnt, F.EXS_CTRL_clr_cnt.off, [F.EXS_HOUSE_CNT.off, F.EXS_DRZ_CNT.off, (F.EXS_CAM_CNT 0).off, (F.EXS_CAM_CNT 1).off,
        (F.EXS_CAM_CNT 2).off, (F.EXS_CAM_CNT 3).off]),
      (.ingClrCnt, F.ING_CTRL_clr_cnt.off, [(F.ING_IN_CNT 0).off, (F.ING_IN_CNT 1).off, (F.ING_IN_CNT 2).off, (F.ING_IN_CNT 3).off,
        (F.ING_IN_CNT 4).off]),
      (.blqClrCnt, F.BLQ_CTRL_clr_cnt.off, [F.BLQ_DROP0.off, F.BLQ_DROP1.off, F.BLQ_DROP2.off, F.BLQ_DROP3.off, F.BLQ_BUSY_CNT.off]),
      (.cdcClrCnt, F.CDC_CTRL_clr_cnt.off, [F.CDC_CNT_CODED.off, F.CDC_CNT_RAW.off, F.CDC_CNT_CONST.off, F.CDC_CNT_VFAIL.off,
        F.CDC_CNT_BERR.off]),
      (.scnClrCnt, F.SCN_CTRL_clr_cnt.off, [F.SCN_CNT_UNDERRUN.off, F.SCN_CNT_REFETCH.off, F.SCN_CNT_CRCSUB.off, F.SCN_CNT_SKIP.off,
        F.SCN_CNT_NSL.off]),
      (.evtClrCnt, F.EVT_CTRL_clr_cnt.off, [F.EVT_DROP.off, F.EVT_CNT_COAL.off, F.EVT_CNT_LOGSUP.off, F.EVT_CNT_ERR.off]),
      (.secClrCnt, F.SEC_CTRL_clr_cnt.off, [F.SEC_CNT_REFUSE.off, F.SEC_CNT_AUTH.off, F.SEC_CNT_PLAIN.off])] →
    ∃ t, exec c s = .next t ∧ cleared s t offs ∧ regsKept s t offs ∧ t = { s with reg := t.reg }) ∧
  (∀ s m c f offs (g : Fld), served s f true → m = (if c = .nvmClrCnt then nvmNow s else s) →
    (c, f, offs, g) ∈ [(Instr.ppxClrCnt, F.PPX_CTRL_clr_cnt.off, [F.PPX_CNT_WF.off, F.PPX_CNT_BAND.off, F.PPX_CNT_SNSFAIL.off,
        F.PPX_CNT_WR_IGN.off, F.PPX_BL_CNT.off, F.PPX_CAP_CNT.off], F.PPX_STATUS_wr_ign),
      (.ageClrCnt, F.AGE_CTRL_clr_cnt.off, [F.AGE_CNT_ROWS.off, F.AGE_CNT_SENSED.off, F.AGE_CNT_OUTLIER.off, F.AGE_CNT_INVALID.off,
        F.AGE_CNT_WIN.off, F.AGE_CNT_CKPT.off, F.AGE_CNT_BLK.off, F.AGE_CNT_SAT.off, F.AGE_CNT_WR_IGN.off], F.AGE_STATUS_wr_ign),
      (.psqClrCnt, F.PSQ_CTRL_clr_cnt.off, [F.PSQ_CNT_CRK.off, F.PSQ_CNT_MON.off, F.PSQ_CNT_PG.off, F.PSQ_CNT_ON.off,
        F.PSQ_CNT_WR_IGN.off], F.PSQ_STATUS_wr_ign),
      (.nvmClrCnt, F.NVM_CTRL_clr_cnt.off, [F.NVM_ECC_CNT.off, F.NVM_SCRUB_STAT.off, F.NVM_CNT_ERR.off], F.NVM_STATUS_wr_ign)] →
    ∃ t, exec c s = .next t ∧ cleared m t offs ∧ rdW t g.off = g.into (rdW m g.off) 0 ∧ regsKept m t (g.off :: offs) ∧
      t = { m with reg := t.reg }) ∧
  (∀ s, served s F.MEM_CTRL_clr_cnt.off true →
    ∃ t, exec .memClrCnt s = .next t ∧
      cleared s t [F.MEM_ECC_CNT.off, F.MEM_EDC_CNT.off, F.MEM_LS_ECC.off, (F.MEM_LS_CONF 0).off, (F.MEM_LS_CONF 1).off,
        (F.MEM_LS_CONF 2).off, (F.MEM_LS_CONF 3).off] ∧
      (quiet s [F.MEM_MBX_STAT_cnt_a.off] → rdW t F.MEM_MBX_STAT_cnt_a.off =
        F.MEM_MBX_STAT_cnt_b.into (F.MEM_MBX_STAT_cnt_a.into (rdW s F.MEM_MBX_STAT_cnt_a.off) 0) 0) ∧
      rdW t F.MEM_STATUS_wr_ign.off = F.MEM_STATUS_wr_ign.into (rdW s F.MEM_STATUS_wr_ign.off) 0 ∧
      regsKept s t [F.MEM_ECC_CNT.off, F.MEM_EDC_CNT.off, F.MEM_LS_ECC.off, (F.MEM_LS_CONF 0).off, (F.MEM_LS_CONF 1).off,
        (F.MEM_LS_CONF 2).off, (F.MEM_LS_CONF 3).off, F.MEM_MBX_STAT_cnt_a.off, F.MEM_STATUS_wr_ign.off] ∧
      t = { s with reg := t.reg }) ∧
  (∀ s, served s F.DRV_CTRL_clr_cnt.off true →
    ∃ t, exec .drvClrCnt s = .next t ∧
      cleared s t [F.DRV_CNT_TAKEOVER.off, F.DRV_CNT_EMDROP.off, F.DRV_CNT_BCERR.off, F.DRV_CNT_WR_IGN.off] ∧
      (∀ g, g < 24 → quiet s [(F.DRV_GRP_STAT_tx_err g).off] → rdW t (F.DRV_GRP_STAT_bc_err g).off =
        (F.DRV_GRP_STAT_bc_err g).into ((F.DRV_GRP_STAT_rx_err g).into ((F.DRV_GRP_STAT_tx_err g).into
          (rdW s (F.DRV_GRP_STAT_tx_err g).off) 0) 0) 0) ∧
      rdW t F.DRV_STATUS_wr_ign.off = F.DRV_STATUS_wr_ign.into (rdW s F.DRV_STATUS_wr_ign.off) 0 ∧
      regsKept s t ([F.DRV_CNT_TAKEOVER.off, F.DRV_CNT_EMDROP.off, F.DRV_CNT_BCERR.off, F.DRV_CNT_WR_IGN.off, F.DRV_STATUS_wr_ign.off] ++
        (List.range 24).map (fun g => (F.DRV_GRP_STAT_bc_err g).off)) ∧
      t = { s with reg := t.reg }) ∧
  (∀ s, served s F.ORL_CTRL_clr_cnt.off true →
    ∃ t, exec .orlClrCnt s = .next t ∧
      cleared s t [F.ORL_CNT_DIST.off, F.ORL_CNT_RX.off, F.ORL_CNT_EVT.off, F.ORL_CNT_MISC.off, (F.ORL_PORT_CNT 0).off,
        (F.ORL_PORT_CNT 1).off] ∧
      (∀ x, x < 2 → quiet s [(F.ORL_PORT_STAT_downs x).off] → rdW t (F.ORL_PORT_STAT_downs x).off = (F.ORL_PORT_STAT_downs x).into (rdW s (F.ORL_PORT_STAT_downs x).off) 0) ∧
      regsKept s t [F.ORL_CNT_DIST.off, F.ORL_CNT_RX.off, F.ORL_CNT_EVT.off, F.ORL_CNT_MISC.off, (F.ORL_PORT_CNT 0).off,
        (F.ORL_PORT_CNT 1).off, (F.ORL_PORT_STAT_downs 0).off, (F.ORL_PORT_STAT_downs 1).off] ∧
      t = { s with reg := t.reg })

/-- A host command that is not served has none of its effect. Rests on R501, R522, R545. -/
def Obligations.RefusedHostCommandChangesNothingElse : Prop :=
  ∀ s (c : Instr) (o : Nat),
    (c, o) ∈ [(Instr.tmbClrCnt, F.TMB_CTRL_clr_cnt.off), (.tmbSnap, F.TMB_CTRL_snap.off), (.tmbRealign, F.TMB_CTRL_realign.off),
      (.exsClrCnt, F.EXS_CTRL_clr_cnt.off), (.ingClrCnt, F.ING_CTRL_clr_cnt.off), (.blqClrCnt, F.BLQ_CTRL_clr_cnt.off),
      (.blqSubGo, F.BLQ_SUB_GO_go.off), (.cdcClrCnt, F.CDC_CTRL_clr_cnt.off), (.cdcAbort, F.CDC_CTRL_abort.off),
      (.scnClrCnt, F.SCN_CTRL_clr_cnt.off), (.commitGo, F.SCN_COMMIT_go.off), (.ppxClrCnt, F.PPX_CTRL_clr_cnt.off),
      (.capArm, F.PPX_CAP_CTRL_arm.off), (.capStop, F.PPX_CAP_CTRL_stop.off), (.ageClrCnt, F.AGE_CTRL_clr_cnt.off),
      (.ageCkpt, F.AGE_CTRL_ckpt.off), (.drvClrCnt, F.DRV_CTRL_clr_cnt.off), (.drvSendCfg, F.DRV_CTRL_send_cfg.off),
      (.psqClrCnt, F.PSQ_CTRL_clr_cnt.off), (.psqOn, F.PSQ_CTRL_on.off), (.psqOff, F.PSQ_CTRL_off.off), (.psqOffCkpt, F.PSQ_CTRL_off.off),
      (.orlClrCnt, F.ORL_CTRL_clr_cnt.off), (.orlRetrain false, F.ORL_CTRL_retrain_a.off), (.orlRetrain true, F.ORL_CTRL_retrain_a.off),
      (.ctlWrite, F.ORL_CTL_CMD_go.off), (.ctlRead, F.ORL_CTL_CMD_go.off), (.mbxWrite, F.ORL_CTL_CMD_go.off),
      (.mbxRead, F.ORL_CTL_CMD_go.off), (.commitAt, F.ORL_CTL_CMD_go.off), (.orlTxGo, F.ORL_TX_GO_go.off),
      (.memClrCnt, F.MEM_CTRL_clr_cnt.off)] →
    (hostAnswers s = false ∨ lostWrite s o = true → exec c s = .next s) ∧
    (hostAnswers s = true → lostWrite s o = false → step5Runs s = true →
      ∃ t, exec c s = .next t ∧ rd t F.NVM_STATUS_wr_ign = 1 ∧ rd t F.NVM_CNT_ERR_wr_ign = counted s F.NVM_CNT_ERR_wr_ign ∧
        regsKept s t [F.NVM_STATUS_wr_ign.off, F.NVM_CNT_ERR_wr_ign.off] ∧ t = { s with reg := t.reg, now := t.now }) ∧
    (hostAnswers s = true → lostWrite s o = false → step5Runs s = false → blkOff s o = true →
      ∃ t, exec c s = .next t ∧ rd t F.PWR_STATUS_wr_ign = 1 ∧ regsKept s t [F.PWR_STATUS_wr_ign.off] ∧ t = { s with reg := t.reg })

/-- An edge inside its window is accepted; two errors beyond the threshold leave LOCKED, a good run enters it. Rests on R35, R36, R42. Its
conclusion is exec … = .next t, with the own effect of: genlockEdge. -/
def Obligations.AcceptedEdgeUpdatesLock : Prop :=
  ∀ (s : State) (src : EdgeSrc) (a : Int) (k ts : Nat) (e : Int),
    judgesEdges s src a → (ts : Int) = a + k * tRef s + e →
    -(rd s F.TMB_REF_WIN_ticks : Int) ≤ e → e < rd s F.TMB_REF_WIN_ticks → s.tmb.acc ≠ some k →
    ∃ t, exec (.genlockEdge src ts) s = .next t ∧ t.tick = max s.tick (ts + 6) ∧ t.tmb.acc = some k ∧
      rdS t F.TMB_PHASE_ERR_ticks = e ∧ rd t F.TMB_STATUS_ref_present = 1 ∧
      (tmbState s = tmLOCKED →
        tmbState t = if rd s F.TMB_LOCK_CFG_lock_thr < e.natAbs ∧ 1 ≤ s.tmb.bad then tmSLEW else tmLOCKED) ∧
      (tmbState s = tmACQUIRE ∨ tmbState s = tmSLEW → 1 ≤ rd s F.TMB_LOCK_CFG_lock_cnt →
        tmbState t = if e.natAbs ≤ rd s F.TMB_LOCK_CFG_lock_thr ∧ rd s F.TMB_LOCK_CFG_lock_cnt ≤ s.tmb.good + 1 then tmLOCKED
          else tmbState s) ∧
      (tmbState s ≠ tmHOLDOVER →
        regsKept s t [F.TMB_STATUS_state.off, F.TMB_PHASE_ERR_ticks.off, F.TMB_FREQ_OFS_ppb.off, F.PSQ_FAULT.off]) ∧ memKept s t

/-- Stray edges and missed windows are counted; misses in a row enter HOLDOVER; 60 s there raise HOLD60. Rests on R35, R38, R44, R465. Its
conclusion is exec … = .next t, with the own effect of: genlockEdge, edgeMiss, holdover60s. -/
def Obligations.StraysMissesAndHoldover : Prop :=
  (∀ (s : State) (src : EdgeSrc) (a : Int) (k ts : Nat) (e : Int),
    judgesEdges s src a → (ts : Int) = a + k * tRef s + e → -(tRef s / 2 : Nat) ≤ e → e < (tRef s - tRef s / 2 : Nat) →
    (e < -(rd s F.TMB_REF_WIN_ticks : Int) ∨ (rd s F.TMB_REF_WIN_ticks : Int) ≤ e ∨ s.tmb.acc = some k) →
    ∃ t, exec (.genlockEdge src ts) s = .next t ∧ rd t F.TMB_REF_CNT_strays = counted s F.TMB_REF_CNT_strays ∧
      rdW t F.TMB_REF_CNT_strays.off = F.TMB_REF_CNT_strays.into (rdW s F.TMB_REF_CNT_strays.off) (counted s F.TMB_REF_CNT_strays) ∧
      regsKept s t [F.TMB_REF_CNT_strays.off] ∧ memKept s t ∧ tmbState t = tmbState s ∧ t.tmb.align = s.tmb.align) ∧
  (∀ (s : State) (a : Int), s.tmb.align = some a → s.tmb.wide = false → 0 < tRef s →
    tmbState s ∈ [tmACQUIRE, tmLOCKED, tmHOLDOVER, tmSLEW] →
    ∃ t, exec .edgeMiss s = .next t ∧ rd t F.TMB_REF_CNT_misses = counted s F.TMB_REF_CNT_misses ∧ t.tmb.win = s.tmb.win + 1 ∧ memKept s t ∧
      regsKept s t [F.TMB_REF_CNT_misses.off, F.TMB_STATUS_state.off, F.TMB_FREQ_OFS_ppb.off] ∧
      (s.tmb.missRun + 1 < rd s F.TMB_LOCK_CFG_miss_cnt → tmbState t = tmbState s ∧ t.tmb.align = some a) ∧
      (rd s F.TMB_LOCK_CFG_miss_cnt ≤ s.tmb.missRun + 1 →
        rd t F.TMB_STATUS_ref_present = 0 ∧
        (tmbState s = tmLOCKED ∨ tmbState s = tmSLEW → tmbState t = tmHOLDOVER ∧ t.tmb.held60 = false ∧
          rd t F.TMB_REF_CNT_holdovers = counted s F.TMB_REF_CNT_holdovers ∧ posted t clsInfo blkTMB 0 F.TMB_REF_CNT_holdovers []) ∧
        (tmbState s = tmACQUIRE → tmbState t = tmACQUIRE ∧ t.tmb.align = none ∧ rd t F.TMB_FREQ_OFS_ppb = 0 ∧
          posted t clsInfo blkTMB 0 F.TMB_REF_CNT_misses []) ∧
        (tmbState s = tmHOLDOVER → tmbState t = tmHOLDOVER))) ∧
  (∀ s : State, tmbState s = tmHOLDOVER →
    (s.tmb.held60 = false →
      ∃ t, exec .holdover60s s = .next t ∧ t.tick = max s.tick (s.tmb.holdAt + 60 * Config.tickHz) ∧ bitOf t F.EVT_ALARM_alarm almHOLD60 = true ∧
        t.tmb.held60 = true ∧ posted t clsInfo blkTMB 0 F.TMB_HOLD_TIME_ms [] ∧ regsKept s t [F.EVT_ALARM_alarm.off] ∧ memKept s t) ∧
    (s.tmb.held60 = true → exec .holdover60s s = .next s))

/-- A snap latches tick, picture number and phase of one tick; a realign waits or is counted as ignored. Rests on R57, R40. Its conclusion is
exec … = .next t, with the own effect of: tmbSnap, tmbRealign. -/
def Obligations.SnapshotAndRealign : Prop :=
  (∀ s : State, served s F.TMB_CTRL_snap.off true →
    ∃ t, exec .tmbSnap s = .next t ∧
      rd t F.TMB_SNAP_TICK_LO_tick = s.tick % 2 ^ 32 ∧ rd t F.TMB_SNAP_TICK_HI_tick = s.tick / 2 ^ 32 % 2 ^ 32 ∧
      (∀ n, s.tmb.pic = some n →
        rd t F.TMB_SNAP_PIC_LO_picture = n % 2 ^ 32 ∧ rd t F.TMB_SNAP_PIC_HI_picture = n / 2 ^ 32 % 2 ^ 32 ∧
        rd t F.TMB_SNAP_PHASE_phase = (s.tick - s.tmb.bound) % 2 ^ 32 ∧ t = { s with reg := t.reg }) ∧
      regsKept s t [F.TMB_SNAP_TICK_LO_tick.off, F.TMB_SNAP_TICK_HI_tick.off, F.TMB_SNAP_PIC_LO_picture.off,
        F.TMB_SNAP_PIC_HI_picture.off, F.TMB_SNAP_PHASE_phase.off] ∧
      t = { s with reg := t.reg, fresh := t.fresh }) ∧
  (∀ s : State, served s F.TMB_CTRL_realign.off true →
    (outputsRun s = true →
      ∃ t, exec .tmbRealign s = .next t ∧ rd t F.TMB_REF_CNT_realign_ign = counted s F.TMB_REF_CNT_realign_ign ∧
        rdW t F.TMB_REF_CNT_realign_ign.off =
          F.TMB_REF_CNT_realign_ign.into (rdW s F.TMB_REF_CNT_realign_ign.off) (counted s F.TMB_REF_CNT_realign_ign) ∧
        regsKept s t [F.TMB_REF_CNT_realign_ign.off] ∧ t = { s with reg := t.reg, now := t.now }) ∧
    (outputsRun s = false → exec .tmbRealign s = .next { s with tmb := { s.tmb with realign := true } }))

/-- A lockstep mismatch is resolved by a reload, or raises the alarm when it is not covered. Formalises R528, R529. Its conclusion is exec … =
.next t, with the own effect of: lockstepMismatch, lockstepReloadDone. -/
def Obligations.LockstepMismatchIsResolvedOrRaised : Prop :=
  (∃ code : SelfCheck → Nat, code .residue ≠ code .secded ∧ ∀ (s : State) (a b : SelfCheck), rd s F.TMB_STATUS_resync = 0 → (a = .pass ↔ b ≠ .pass) →
    ∃ t, exec (.lockstepMismatch a b) s = .next t ∧ rd t F.TMB_LOCKSTEP_mismatches = counted s F.TMB_LOCKSTEP_mismatches ∧
      rd t F.TMB_STATUS_bad_copy = (if a = .pass then 1 else 0) ∧ rd t F.TMB_STATUS_resync = 1 ∧ t.tmb.useB = decide (a ≠ .pass) ∧
      posted t clsWarning blkTMB 0 F.TMB_LOCKSTEP_mismatches
        [(if a = .pass then 1 else 0, 1), (code (if a = .pass then b else a), 1)] ∧
      regsKept s t [F.TMB_LOCKSTEP_mismatches.off, F.TMB_STATUS_resync.off] ∧
      t = { s with reg := t.reg, now := t.now, tmb := { s.tmb with useB := t.tmb.useB }, evt := { s.evt with posted := t.evt.posted } }) ∧
  (∀ (s : State) (a b : SelfCheck), rd s F.TMB_STATUS_resync = 1 →
    ((if s.tmb.useB then b else a) = .pass → exec (.lockstepMismatch a b) s = .next s) ∧
    ((if s.tmb.useB then b else a) ≠ .pass →
      ∃ t, exec (.lockstepMismatch a b) s = .next t ∧ rd t F.TMB_LOCKSTEP_uncovered = counted s F.TMB_LOCKSTEP_uncovered ∧
        bitOf t F.EVT_ALARM_alarm almLOCKSTEP = true ∧ t.tmb = s.tmb ∧ rd t F.TMB_STATUS_resync = 1 ∧
        regsKept s t [F.TMB_LOCKSTEP_uncovered.off, F.EVT_ALARM_alarm.off])) ∧
  (∀ s : State, ∃ t, exec .lockstepReloadDone s = .next t ∧ rd t F.TMB_STATUS_resync = 0 ∧
    rdW t F.TMB_STATUS_resync.off = F.TMB_STATUS_resync.into (rdW s F.TMB_STATUS_resync.off) 0 ∧
    regsKept s t [F.TMB_STATUS_resync.off] ∧ t = { s with reg := t.reg })

/-- A boundary starts the next picture period and swaps or repeats the bank; step 8's limit places picture 0. Rests on R32, R33, R49, R51,
R520. Its conclusion is exec … = .next t, with the own effect of: step8Timeout, pictureBoundary. -/
def Obligations.PictureBoundaryAdvances : Prop :=
  (∀ (s : State) (b : Nat), s.tmb.next = some b →
    ∃ t, exec .pictureBoundary s = .next t ∧ t.tick = max s.tick b ∧ t.tmb.pic = some s.tmb.picNext ∧ t.tmb.bound = b ∧
      t.tmb.picNext = s.tmb.picNext + 1 ∧
      (s.exs.next.isSome = true →
        rd t F.TMB_CAL_STAT_bank = (if rd s F.TMB_CAL_STAT_bank = 0 then 1 else 0) ∧ rd t F.EXS_STATUS_late = 0) ∧
      (s.exs.next = none → s.exs.bank.isSome = true → rd t F.EXS_STATUS_late = 1 ∧ posted t clsInfo blkEXS 0 F.EXS_STATUS_late []) ∧
      (s.scn.set = none → s.scn.prev = none → s.scn.nsl = none → t.tmb.next = some (b + picPeriod s))) ∧
  (∀ (s : State) (t5 : Nat), s.boot.end5 = some t5 → s.boot.step = 8 → s.boot.step8 = false → s.tmb.pic = none → s.scn.set = none → s.scn.prev = none →
    tmbState s = tmACQUIRE →
    ∃ t, exec .step8Timeout s = .next t ∧ max s.tick (t5 + 10 * Config.tickHz) ≤ t.tick ∧ tmbState t = tmFREE ∧
      t.tmb.pic = some (if s.tmb.mgr.isSome then numberAt s (max s.tick (t5 + 10 * Config.tickHz)) else 0) ∧
      t.boot.step8 = true ∧ posted t clsError blkTMB 0 F.TMB_STATUS_state [])

/-- The build point completes a bank for the next boundary, its passes numbered in scan order. Rests on R49, R82, R85. Its conclusion is exec
… = .next t, with the own effect of: bankBuild. -/
def Obligations.BankBuildFillsTheNextBank : Prop :=
  (∀ (s : State) (b : Nat), s.tmb.next = some b → (∀ n, s.exs.next = some n → n.at_ ≠ b) →
    ∃ t n, exec .bankBuild s = .next t ∧ t.exs.next = some n ∧ n.at_ = b ∧ n.passes.map (fun p => p.ordinal) = List.range n.passes.length ∧
      (∀ p ∈ n.passes, p.pic = s.tmb.picNext) ∧ List.Pairwise (fun p q => p.start ≤ q.start) n.passes ∧
      t.exs.bank.map (fun x => x.at_) = s.exs.bank.map (fun x => x.at_)) ∧
  (∀ (s : State) (b : Nat) (n : Bank), s.tmb.next = some b → s.exs.next = some n → n.at_ = b → exec .bankBuild s = .next s)

/-- Shutter edges, missed windows and expiry move a measured camera through its states. Rests on R42, R63, R64, R65, R66. Its conclusion is
exec … = .next t, with the own effect of: shutInEdge, cameraOpenMiss, cameraCoastExpiry. -/
def Obligations.CameraEdgesDriveTheChannel : Prop :=
  (∀ (s : State) (n : Fin 4) (l : Bool) (ts : Nat), (cam s n.val).level = l →
    exec (.shutInEdge n l ts) s = .next { s with tick := max s.tick (ts + 6) }) ∧
  (∀ (s : State) (n : Fin 4) (l : Bool) (ts : Nat), (cam s n.val).level ≠ l → shutIsRef s n.val l = false →
    camMeasured s n.val = true → l ≠ on s (F.EXS_CAM_CFG_pol n.val) → camState s n.val = cmTRACK ∨ camState s n.val = cmCOAST →
    inPredicted s n.val ts = true →
    ∃ t, exec (.shutInEdge n l ts) s = .next t ∧ t.tick = max s.tick (ts + 6) ∧ camState t n.val = cmTRACK ∧
      (cam t n.val).opens = ts :: (cam s n.val).opens.take 8 ∧ (cam t n.val).missRun = 0 ∧ (cam t n.val).coast = 0 ∧
      (cam t n.val).level = l ∧ regsKept s t [(F.EXS_CAM_STAT_state n.val).off] ∧ memKept s t) ∧
  (∀ (s : State) (n : Fin 4) (l : Bool) (ts o : Nat), (cam s n.val).level ≠ l → shutIsRef s n.val l = false →
    camMeasured s n.val = true → l = on s (F.EXS_CAM_CFG_pol n.val) → (cam s n.val).pend = some o → (cam s n.val).pendAcc = true →
    ∃ t, exec (.shutInEdge n l ts) s = .next t ∧ rd t (F.EXS_CAM_MEAS_WIDTH_ticks n.val) = (ts - o) % 2 ^ 32 ∧
      (cam t n.val).pend = none ∧ memKept s t ∧
      regsKept s t [(F.EXS_CAM_MEAS_WIDTH_ticks n.val).off, (F.EXS_CAM_STAT_state n.val).off, (F.EXS_CAM_CNT_escapes n.val).off]) ∧
  (∀ (s : State) (n : Fin 4), camState s n.val = cmTRACK ∨ camState s n.val = cmCOAST →
    (cam s n.val).opens ≠ [] →
    ∃ t, exec (.cameraOpenMiss n) s = .next t ∧ rd t (F.EXS_CAM_CNT_misses n.val) = counted s (F.EXS_CAM_CNT_misses n.val) ∧
      (cam t n.val).missRun = (cam s n.val).missRun + 1 ∧
      (if camState s n.val = cmTRACK ∧ rd s (F.EXS_CAM_CFG_miss_max n.val) ≤ (cam s n.val).missRun + 1 then
        camState t n.val = cmCOAST ∧ posted t clsInfo blkEXS n.val (F.EXS_CAM_STAT_state n.val) []
       else camState t n.val = camState s n.val) ∧
      regsKept s t [(F.EXS_CAM_CNT_misses n.val).off, (F.EXS_CAM_STAT_state n.val).off] ∧ memKept s t) ∧
  (∀ (s : State) (n : Fin 4), camState s n.val = cmCOAST → rd s (F.EXS_CAM_CFG_coast_max n.val) ≤ (cam s n.val).coast →
    ∃ t, exec (.cameraCoastExpiry n) s = .next t ∧ camState t n.val = cmLOST ∧
      posted t clsInfo blkEXS n.val (F.EXS_CAM_STAT_state n.val) [] ∧ regsKept s t [(F.EXS_CAM_STAT_state n.val).off] ∧
      t = { s with reg := t.reg, evt := { s.evt with posted := t.evt.posted } })

/-- Lock, start and block rows of an input picture: a free pool surface is taken, rejected pictures are counted. Rests on R99, R100, R102,
R113, R115, R116, R117. Its conclusion is exec … = .next t, with the own effect of: receiverLockChange, inputPictureStart,
ingestBlockRowStart. -/
def Obligations.InputPictureLifecycle : Prop :=
  (∀ (s : State) (n : Fin 5) (l : Bool), ∃ t, exec (.receiverLockChange n l) s = .next t ∧ rd t (F.ING_IN_STAT_lock n.val) = (if l then 1 else 0) ∧
      rdW t (F.ING_IN_STAT_lock n.val).off = (F.ING_IN_STAT_lock n.val).into (rdW s (F.ING_IN_STAT_lock n.val).off) (if l then 1 else 0) ∧
      regsKept s t [(F.ING_IN_STAT_lock n.val).off, F.ING_STATUS_active.off] ∧ memKept s t ∧
      (l = true → t = { s with reg := t.reg }) ∧ (l = false → (inp t n.val).pic = none)) ∧
  (∀ (s : State) (n : Fin 5) (g : InSignal), on s (F.ING_IN_STAT_lock n.val) = true → inEnabled s n.val = true →
    inSupported n.val g = true →
    (rd s (F.ING_IN_MAX_w_max n.val) + 1 < g.w ∨ rd s (F.ING_IN_MAX_h_max n.val) + 1 < g.h ∨ panelBW s ≤ rd s (F.ING_IN_DST_bx0 n.val) ∨
      panelBH s ≤ rd s (F.ING_IN_DST_by0 n.val) →
      ∃ t, exec (.inputPictureStart n g) s = .next t ∧ rd t (F.ING_IN_CNT_too_big n.val) = counted s (F.ING_IN_CNT_too_big n.val) ∧
        posted t clsInfo blkING n.val (F.ING_IN_CNT_too_big n.val) [] ∧ t.ing = s.ing ∧ memKept s t) ∧
    (g.w ≤ rd s (F.ING_IN_MAX_w_max n.val) + 1 → g.h ≤ rd s (F.ING_IN_MAX_h_max n.val) + 1 → rd s (F.ING_IN_DST_bx0 n.val) < panelBW s →
      rd s (F.ING_IN_DST_by0 n.val) < panelBH s →
      (poolChoice s (rd s (F.ING_IN_POOL_first n.val)) (rd s (F.ING_IN_POOL_count n.val)) = none →
        ∃ t, exec (.inputPictureStart n g) s = .next t ∧ rd t (F.ING_IN_CNT_no_surf n.val) = counted s (F.ING_IN_CNT_no_surf n.val) ∧
          posted t clsInfo blkING n.val (F.ING_IN_CNT_no_surf n.val) [] ∧ t.ing = s.ing ∧ memKept s t) ∧
      (∀ f, poolChoice s (rd s (F.ING_IN_POOL_first n.val)) (rd s (F.ING_IN_POOL_count n.val)) = some f →
        ∃ t p, exec (.inputPictureStart n g) s = .next t ∧ (inp t n.val).pic = some p ∧ p.surface = f ∧ p.row = 0 ∧
          p.ids = [] ∧ p.sig = wovenSig g ∧ p.seq = (inp s n.val).taken % 2 ^ 32 ∧
          (inp t n.val).taken = (inp s n.val).taken + 1 ∧
          sget 0 t.ing.stamps f = s.ing.stamp + 1 ∧ t.gddr = s.gddr ∧ t.blq = s.blq))) ∧
  (∀ (s : State) (n : Fin 5) (g : InSignal), on s (F.ING_IN_STAT_lock n.val) = false ∨ inEnabled s n.val = false ∨
      inSupported n.val g = false →
    exec (.inputPictureStart n g) s = .next s) ∧
  (∀ (s : State) (n : Fin 5) (p : InPic), (inp s n.val).pic = some p →
    ∃ t, exec (.ingestBlockRowStart n) s = .next t ∧ memKept s t ∧
      (p.row = blocksOf p.sig.h - 1 → (inp t n.val).pic = none ∧
        rd t (F.ING_IN_PIC_pictures n.val) = counted s (F.ING_IN_PIC_pictures n.val)) ∧
      (p.row ≠ blocksOf p.sig.h - 1 → ∃ ids, (inp t n.val).pic = some { p with row := p.row + 1, ids := ids })) ∧
  (∀ (s : State) (n : Fin 5), (inp s n.val).pic = none → exec (.ingestBlockRowStart n) s = .next s)

/-- A host submission is taken once and ends all or nothing; written entries become complete together. Rests on R116, R124, R125, R129. Its
conclusion is exec … = .next t, with the own effect of: entryComplete, blqSubGo, hostSubmissionDone. -/
def Obligations.HostSubmissionIsAllOrNothing : Prop :=
  (∀ s : State, served s F.BLQ_SUB_GO_go.off true →
    (s.blq.sub = none → ∃ t, exec .blqSubGo s = .next t ∧ rd t F.BLQ_SUB_STAT_running = 1 ∧
      t.blq = { s.blq with sub := some ((List.range 8).map (fun k => rd s (F.BLQ_SUB_DESC_word k))) } ∧
      regsKept s t [F.BLQ_SUB_STAT_running.off] ∧ t = { s with reg := t.reg, blq := t.blq }) ∧
    (s.blq.sub.isSome = true → exec .blqSubGo s = .next s)) ∧
  (∀ (s u : State) (ws : List Nat), s.blq.sub = some ws → u = resolveDue s →
    ∃ t, exec .hostSubmissionDone s = .next t ∧ t.blq.sub = none ∧ rd t F.BLQ_SUB_STAT_running = 0 ∧
      rd t F.BLQ_SUB_STAT_result = hostResult { u with blq := { u.blq with sub := none } } (verDesc ws) true ∧ memKept s t ∧
      (rd t F.BLQ_SUB_STAT_result ≠ 0 → t.blq.queues = u.blq.queues ∧ t.blq.cur = u.blq.cur) ∧
      (rd t F.BLQ_SUB_STAT_result = 1 → rd t F.BLQ_BUSY_CNT_host = counted s F.BLQ_BUSY_CNT_host ∧
        ∀ b, firstFull u (verDesc ws) = some b →
          rd t F.BLQ_SUB_STAT_busy_bx = b.1 % 256 ∧ rd t F.BLQ_SUB_STAT_busy_by = b.2 % 256) ∧
      (rd t F.BLQ_SUB_STAT_result = 0 → rd t F.BLQ_SRC_LAST_token = (verDesc ws).token % 2 ^ 32 ∧
        ((verDesc ws).repl = false → ∀ b ∈ rectBlocks (verDesc ws), ∃ e ∈ queueOf t (blkKey b.1 b.2),
          e.id = u.blq.nextId ∧ e.source = 5 ∧ e.slot = (verDesc ws).slot ∧ e.surface = (verDesc ws).surface ∧ e.seq = (verDesc ws).seq ∧
          e.compAt = some s.tick))) ∧
  (∀ s : State, s.blq.sub = none → exec .hostSubmissionDone s = .next s) ∧
  (∀ (s : State) (id : Nat) (w : WriteJob), s.blq.writes.find? (fun x => x.id = id) = some w →
    (w.left = 0 → ∃ t, exec (.entryComplete id) s = .next t ∧
      (∀ k, queueOf t k = (queueOf s k).map (fun e => if e.id = id then { e with compAt := some s.tick } else e)) ∧
      t.blq.writes = s.blq.writes.filter (fun x => x.id != id) ∧ t = { s with blq := t.blq } ∧ t.blq.cur = s.blq.cur) ∧
    (w.left ≠ 0 → exec (.entryComplete id) s = .next s)) ∧
  (∀ (s : State) (id : Nat), s.blq.writes.find? (fun x => x.id = id) = none → exec (.entryComplete id) s = .next s)

/-- A read of BLQ.INSP_CUR latches the sequence number of the version it shows. Rests on R134. Its conclusion is exec … = .next t, with the
own effect of: blqInspCurRead. -/
def Obligations.InspectionReadLatchesSeq : Prop :=
  ∀ s : State, hostAnswers s = true →
    ∃ t, exec .blqInspCurRead s = .next t ∧
      (∀ c, curOf s (blkKey (rd s F.BLQ_INSP_SEL_bx) (rd s F.BLQ_INSP_SEL_by)) (rd s F.BLQ_INSP_SEL_slot) = some c →
        rd t F.BLQ_INSP_CUR_none = 0 ∧ rd t F.BLQ_INSP_CUR_source = c.source % 2 ^ F.BLQ_INSP_CUR_source.w ∧
        rd t F.BLQ_INSP_CUR_surface = c.surface % 2 ^ F.BLQ_INSP_CUR_surface.w ∧ rd t F.BLQ_INSP_SEQ_seq = c.seq % 2 ^ 32) ∧
      (curOf s (blkKey (rd s F.BLQ_INSP_SEL_bx) (rd s F.BLQ_INSP_SEL_by)) (rd s F.BLQ_INSP_SEL_slot) = none →
        rd t F.BLQ_INSP_CUR_none = 1 ∧ rd t F.BLQ_INSP_CUR_source = 0 ∧ rd t F.BLQ_INSP_CUR_surface = 0) ∧
      rd t F.BLQ_INSP_CUR_pending =
        (queueOf s (blkKey (rd s F.BLQ_INSP_SEL_bx) (rd s F.BLQ_INSP_SEL_by))).length % 2 ^ F.BLQ_INSP_CUR_pending.w ∧
      regsKept s t [F.BLQ_INSP_CUR_none.off, F.BLQ_INSP_SEQ_seq.off] ∧ memKept s t ∧ t.blq = s.blq

/-- A verified ingest block is stored as coded, a failed one as a raw block; a job's block error ends the job. Rests on R150, R151, R159,
R160, R164, R170, R173, R195. Its conclusion is exec … = .next t, with the own effect of: compressBlockDone, decodeBlockDone. -/
def Obligations.CodecLanesFinishBlocks : Prop :=
  (∀ (s : State) (l : Fin 8) (v : Verify) (r : CmpReq) (n : Nat) (ids : List Nat) (f : Nat), s.cdc.cmpLanes.getD l.val none = some r →
    r.tag = .ingest n ids f →
    ∃ t bs, exec (.compressBlockDone l v) s = .next t ∧
      bs = (if v = .pass then encodeBlock r.depth r.ad r.opaque_ r.samples else rawBlock r.depth r.opaque_ r.samples) ∧
      (r.addr + bs.length ≤ memCap s → gddrRd t r.addr bs.length = bs) ∧
      (∀ a, a < r.addr ∨ r.addr + bs.length ≤ a → sget 0#8 t.gddr a = sget 0#8 s.gddr a) ∧
      t.lst = s.lst ∧ t.flash = s.flash ∧ t.nvm = s.nvm ∧
      t.blq.writes = ids.foldl (fun ws i => ws.map (fun w => if w.id = i then { w with left := w.left - 1 } else w)) s.blq.writes ∧
      (∀ c, v = .fail c → rd t F.CDC_CNT_VFAIL_blocks = counted s F.CDC_CNT_VFAIL_blocks ∧
        posted t clsWarning blkCDC l.val F.CDC_CNT_VFAIL_blocks [(r.user, 1), (l.val, 1), (c.val, 1)])) ∧
  (∀ (s : State) (l : Fin 16) (u : Bool) (r : DecReq) (j : Job) (c : Nat), s.cdc.decLanes.getD l.val none = some r → r.tag = .job →
    r.bytes = none → s.cdc.job = some j → j.abort = none →
    (if s.mem.bad.contains l.val && !r.lst then Decoded.err 7 else decodeAt s r.lst r.addr r.depth) = Decoded.err c →
    ∃ t, exec (.decodeBlockDone l u) s = .next t ∧ rd t F.CDC_CNT_BERR_blocks = counted s F.CDC_CNT_BERR_blocks ∧
      rd t F.CDC_BERR_INFO_cause = c % 2 ^ F.CDC_BERR_INFO_cause.w ∧ rd t F.CDC_BERR_INFO_user = r.user % 2 ^ F.CDC_BERR_INFO_user.w ∧
      rd t F.CDC_BERR_INFO_lane = l.val ∧ rd t F.CDC_BERR_INFO_space = (if r.lst then 1 else 0) ∧
      rd t F.CDC_BERR_ADDR_LO_addr = r.addr % 2 ^ 32 ∧
      posted t clsError blkCDC l.val F.CDC_CNT_BERR_blocks [(c, 1), (r.user, 1), (l.val, 1), (r.addr, 5)] ∧
      t.cdc.job = some { j with ended := some (4, c, 0), busy := false } ∧ memKept s t) ∧
  (∀ (s : State) (l : Fin 16) (r : DecReq) (j : Job) (xs : List Nat) (o : Bool), s.cdc.decLanes.getD l.val none = some r → r.tag = .job →
    r.bytes = none → s.mem.bad.contains l.val = false → s.cdc.job = some j → decodeAt s r.lst r.addr r.depth = Decoded.ok xs o →
    ∃ t j', exec (.decodeBlockDone l false) s = .next t ∧ t.cdc.job = some j' ∧ j'.next = j.next + 1 ∧ j'.done = j.done + 1 ∧
      t.flash = s.flash ∧ t.nvm = s.nvm ∧
      (∀ u, u = (jobRows j j.next).foldl (fun s x => spaceWr s j.linear.1 x.2.1
          (((xs.drop (32 * (x.1 % 32))).take x.2.2).flatMap (fun v => leBytes v j.t))) s → t.gddr = u.gddr ∧ t.lst = u.lst)) ∧
  (∀ (s : State) (l : Fin 16) (r : DecReq) (n k : Nat) (u : Run) (x : Fetch) (xs : List Nat) (o : Bool),
    s.cdc.decLanes.getD l.val none = some r → r.tag = .scan n k → r.bytes = none → s.mem.bad.contains l.val = false →
    decodeAt s r.lst r.addr r.depth = Decoded.ok xs o → findRun s n = some u → sget none u.fetch (fetchKey k r.addr r.depth) = some x →
    ∃ t u', exec (.decodeBlockDone l false) s = .next t ∧ findRun t n = some u' ∧
      u' = { u with fetch := sset none u.fetch (fetchKey k r.addr r.depth) (some { x with st := .ok xs s.tick }) } ∧ memKept s t) ∧
  (∀ (s : State) (l : Fin 8) (v : Verify), s.cdc.cmpLanes.getD l.val none = none → exec (.compressBlockDone l v) s = .next s) ∧
  (∀ (s : State) (l : Fin 16) (u : Bool), s.cdc.decLanes.getD l.val none = none → exec (.decodeBlockDone l u) s = .next s)

/-- Each of the four job kinds starts from the ring; a job's end writes its status and advances JOB_DONE. Rests on R162, R166, R168, R169,
R170, R171. Its conclusion is exec … = .next t, with the own effect of: cdcJobProdWrite, compressSurf, compressPack, decompressSurf,
decompressPack, codecJobEnd, cdcAbort. -/
def Obligations.CodecJobsRunFromTheRing : Prop :=
  (∀ (s : State) (v : BitVec 16), served s F.CDC_JOB_PROD_index.off false →
    ∃ t, exec (.cdcJobProdWrite v) s = .next t ∧ rd t F.CDC_JOB_PROD_index = v.toNat ∧ regsKept s t [F.CDC_JOB_PROD_index.off] ∧
      t = { s with reg := t.reg, cdc := { s.cdc with prodAt := t.cdc.prodAt, prodOld := t.cdc.prodOld } }) ∧
  (∀ (s : State) (c : Instr) (op : Nat),
    (c, op) ∈ [(Instr.compressSurf, 0), (.compressPack, 1), (.decompressSurf, 2), (.decompressPack, 3)] →
    (jobWaits s = true → (nextJob s).op = op →
      ∃ t j, exec c s = .next t ∧ rd t F.CDC_JOB_CONS_index = (rd s F.CDC_JOB_CONS_index + 1) % 65536 ∧
        rd t F.CDC_STATUS_job_running = 1 ∧ t.cdc.job = some j ∧ j.entry = rd s F.CDC_JOB_CONS_index ∧
        j.desc = lstRd s (jobOff s (rd s F.CDC_JOB_CONS_index)) 128 ∧ memKept s t) ∧
    (jobWaits s = false ∨ (nextJob s).op ≠ op → exec c s = .next s)) ∧
  (∀ (s : State) (j : Job) (r c b : Nat), s.cdc.job = some j → j.ended = some (r, c, b) → s.cdc.abortTo = none → (j.op = 1 → j.done = 0) →
    ∃ t, exec .codecJobEnd s = .next t ∧ rd t F.CDC_JOB_DONE_index = (j.entry + 1) % 65536 ∧ rd t F.CDC_STATUS_job_running = 0 ∧
      t.cdc.job = none ∧ (jobOff s j.entry + 64 ≤ mbxBase → lstRd t (jobOff s j.entry + 48) 16 = keepProt s (jobOff s j.entry + 48)
        (leBytes r 1 ++ leBytes c 1 ++ leBytes b 1 ++ [0#8] ++ leBytes j.done 4 ++ leBytes j.bytes 4 ++ leBytes j.vfail 4)) ∧ (∀ a, mbxBase ≤ a → sget 0#8 t.lst a = sget 0#8 s.lst a) ∧
      (∀ a, a < jobOff s j.entry + 48 ∨ jobOff s j.entry + 64 ≤ a → sget 0#8 t.lst a = sget 0#8 s.lst a) ∧
      t.gddr = s.gddr ∧ t.flash = s.flash ∧ t.nvm = s.nvm ∧
      (j.irq = true → posted t clsInfo blkCDC 0 F.CDC_JOB_DONE_index [(j.entry + 1, 2), (r, 1)])) ∧
  (∀ (s : State) (j : Job), served s F.CDC_CTRL_abort.off true → s.cdc.job = some j → j.ended = none →
    s.cdc.cmpWait.any (fun r => r.tag == .job) = false → s.cdc.decWait.any (fun r => r.tag == .job) = false →
    jobFresh s j = false →
    ∃ t, exec .cdcAbort s = .next t ∧ memKept s t ∧
      (j.busy = true → t.cdc.job = some { j with abort := some (j.abort.getD s.tick) }) ∧
      (j.busy = false → t.cdc.job = some { j with abort := some (j.abort.getD s.tick), busy := false, ended := some (if j.stop ≤ j.next ∧ s.tick ≤ j.abort.getD s.tick then (0, 0, 0) else (6, 0, 0)) }))

/-- A commit latches the shadows when they pass the timing checks, and is refused with an error record otherwise. Rests on R175, R198, R199,
R201. Its conclusion is exec … = .next t, with the own effect of: commitGo. -/
def Obligations.CommitGoLatchesACheckedSet : Prop :=
  (∀ s : State, served s F.SCN_COMMIT_go.off true →
    timingOk (wrB s F.SCN_COMMIT_err false) (F.SCN_ACTIVE_width_m1.ofWord (rdShW s F.SCN_ACTIVE.off) + 1)
      (F.SCN_ACTIVE_height_m1.ofWord (rdShW s F.SCN_ACTIVE.off) + 1) (F.SCN_LINE_q_min.ofWord (rdShW s F.SCN_LINE.off))
      (F.SCN_VBLANK_v_min.ofWord (rdShW s F.SCN_VBLANK.off)) = false →
    ∃ t, exec .commitGo s = .next t ∧ rdW t F.SCN_COMMIT_err.off = F.SCN_COMMIT_err.into (rdW s F.SCN_COMMIT_err.off) 1 ∧
      posted t clsError blkSCN 0 F.SCN_COMMIT_err [] ∧ t.scn = s.scn ∧ regsKept s t [F.SCN_COMMIT_err.off] ∧ memKept s t) ∧
  (∀ s : State, served s F.SCN_COMMIT_go.off true →
    timingOk (wrB s F.SCN_COMMIT_err false) (F.SCN_ACTIVE_width_m1.ofWord (rdShW s F.SCN_ACTIVE.off) + 1)
      (F.SCN_ACTIVE_height_m1.ofWord (rdShW s F.SCN_ACTIVE.off) + 1) (F.SCN_LINE_q_min.ofWord (rdShW s F.SCN_LINE.off))
      (F.SCN_VBLANK_v_min.ofWord (rdShW s F.SCN_VBLANK.off)) = true →
    ∃ t c, exec .commitGo s = .next t ∧ t.scn.set = some c ∧ c.snap = s.shadow ∧ rd t F.SCN_COMMIT_err = 0 ∧ rd t F.SCN_COMMIT_pending = 1 ∧
      c.v = some (setTick s) ∧ c.s = some (setTick s) ∧
      regsKept s t [F.SCN_COMMIT_err.off, F.SCN_CNT_NSL_count.off] ∧ memKept s t)

/-- At its commit point a class's bits take the latched values in every register. Rests on R199, R200. Its conclusion is exec … = .next t,
with the own effect of: registerCommit. -/
def Obligations.CommitPointsPutShadowsInEffect : Prop :=
  (∀ (s : State) (c : CommitSet) (a : Nat), (allPasses s).any (fun p => p.ended && p.start + p.dur = s.tick) = true →
    s.scn.set = some c → s.scn.nsl = none → c.v = some a → a < s.tick →
    ∃ t, exec (.registerCommit .v) s = .next t ∧
      (∀ o d, regAt o = some d → rdW t o &&& BitVec.ofNat 32 d.v = sget 0#32 c.snap o &&& BitVec.ofNat 32 d.v) ∧
      (∀ c', t.scn.set = some c' → c'.v = none ∧ c'.snap = c.snap) ∧ memKept s t) ∧
  (∀ (s : State) (c : CommitSet) (a : Nat), s.tmb.pic.isSome = true → s.tmb.bound = s.tick → rd s F.EXS_STATUS_late = 0 →
    s.scn.set = some c → s.scn.nsl = none → c.s = some a → a < s.tick → c.n = none →
    ∃ t, exec (.registerCommit .s) s = .next t ∧
      (∀ o d, regAt o = some d → rdW t o &&& BitVec.ofNat 32 d.s = sget 0#32 c.snap o &&& BitVec.ofNat 32 d.s) ∧
      (∀ c', t.scn.set = some c' → c'.s = none ∧ c'.snap = c.snap))

/-- A refresh start makes the last candidate of every slot of every block current; the band latch keeps the band. Rests on R127, R232. Its
conclusion is exec … = .next t, with the own effect of: bandLatch, refreshStart. -/
def Obligations.RefreshStartResolvesEverySlot : Prop :=
  (∀ (s : State) (p : Pass), firstPass s (fun p => !p.started && !p.repeats) = some p →
    ∃ t, exec .refreshStart s = .next t ∧ t.tick = max s.tick p.start ∧ (∀ q ∈ allPasses t, q.start = p.start → q.started = true) ∧
      (∀ k slot, slot < 21 →
        curOf t k slot = match lastCandidate p.start (s.tmb.pic.map (fun n => (n, max s.tick p.start - s.tmb.bound))) slot (queueOf s k) with
          | some e => some e.toCur
          | none => curOf s k slot)) ∧
  (∀ s : State, firstPass s (fun p => !p.started && !p.repeats) = none → exec .refreshStart s = .next s) ∧
  (∀ (s : State) (p : Pass), firstPass s (fun p => !p.latched) = some p →
    ∃ t, exec .bandLatch s = .next t ∧ t.tick = max s.tick p.start ∧ rd t F.PPX_STATUS_latched = bandNow s % 2 ^ F.PPX_STATUS_latched.w ∧
      (∀ q ∈ allPasses t, q.start = p.start → q.latched = true) ∧ regsKept s t [F.PPX_STATUS_latched.off] ∧ memKept s t) ∧
  (∀ s : State, firstPass s (fun p => !p.latched) = none → exec .bandLatch s = .next s)

/-- Due strips begin; rows are taken one by one at their take ticks. Rests on R92, R178, R190. Its conclusion is exec … = .next t, with the
own effect of: stripFetchStart, rowTake. -/
def Obligations.StripsAndRowsAreTakenInOrder : Prop :=
  (∀ (s : State) (u : Run),
    s.scn.runs.find? stripDue = some u →
    ∃ t u', exec .stripFetchStart s = .next t ∧ u' ∈ t.scn.runs ∧ u'.num = u.num ∧ u'.due = u.due ∧
      (∀ l, l < 6 → l < u.begun.length → u'.begun.getD l 0 = u.due.getD l 0) ∧ u'.yTake = u.yTake ∧ memKept s t) ∧
  (∀ s : State,
    s.scn.runs.find? stripDue = none →
    exec .stripFetchStart s = .next s) ∧
  (∀ (s : State) (u : Run), s.scn.runs.find? (fun u => decide (u.yTake < u.h)) = some u → u.yTake + 1 < u.h →
    ∃ t u' v, exec .rowTake s = .next t ∧ t.tick = max s.tick (takeTick u u.yTake) ∧ u' ∈ t.scn.runs ∧ u'.num = u.num ∧
      u'.yTake = u.yTake + 1 ∧ u'.lines = u.lines ++ [(u.yTake, v)] ∧ v.isSome = u.prog.getD u.yTake true) ∧
  (∀ s : State, s.scn.runs.find? (fun u => decide (u.yTake < u.h)) = none → exec .rowTake s = .next s)

/-- A write scan's end leaves no view being scanned; a transition's repeat pass starts once. Rests on R200, R205, R211. Its conclusion is exec
… = .next t, with the own effect of: verticalBlankingPoint, nslRepeatPass. -/
def Obligations.ScanEndsAndRepeatPass : Prop :=
  (∀ (s : State) (p : Pass), firstPass s (fun p => p.started && !p.ended) = some p →
    ∃ t, exec .verticalBlankingPoint s = .next t ∧ t.tick = max s.tick (p.start + p.dur) ∧ rd t F.SCN_STATUS_view = 15 ∧
      (∀ q ∈ allPasses t, q.start = p.start → q.ended = true)) ∧
  (∀ s : State, firstPass s (fun p => p.started && !p.ended) = none → exec .verticalBlankingPoint s = .next s) ∧
  (∀ (s : State) (n : Nsl), s.scn.nsl = some n →
    (n.begun = false →
      ∃ t p, exec .nslRepeatPass s = .next t ∧ t.tick = max s.tick n.rep ∧ t.scn.nsl = some { n with begun := true } ∧
        p ∈ t.exs.carried ∧ p.start = n.rep ∧ p.view = n.view ∧ p.repeats = true ∧ p.started = true ∧ p.rows.length = panelH s ∧
        (∀ r ∈ p.rows, r.prog = true)) ∧
    (n.begun = true → exec .nslRepeatPass s = .next s)) ∧
  (∀ s : State, s.scn.nsl = none → exec .nslRepeatPass s = .next s)

/-- A sensor cycle stores good readings, drops a sensor at its third failure, and moves the band by its hysteresis. Rests on R228, R229, R230,
R231. Its conclusion is exec … = .next t, with the own effect of: sensorCycle, sensorFailTimeout. -/
def Obligations.SensorCycleSetsTemperatureAndBand : Prop :=
  (∀ (s : State) (reads : List SnsRead) (l : List Int), l = sensorList s reads →
    ∃ t, exec (.sensorCycle reads) s = .next t ∧ memKept s t ∧
      t.tick = max s.tick (s.ppx.cycleAt + rd s F.PPX_TEMP_CFG_period * Config.tickMs) ∧ t.ppx.cycleAt = t.tick ∧
      (∀ i, i < 16 → (t.ppx.sns.getD i ⟨false, 0, false⟩).valid = sensorValid s reads i ∧
        (rd t F.PPX_SNS_VALID_valid).testBit i = sensorValid s reads i ∧
        (∀ v, on s (F.PPX_SNS_en i) = true → snsTemp (reads.getD i none) = some v → rdS t (F.PPX_SNS_temp i) = v) ∧
        (on s (F.PPX_SNS_en i) = true → (s.ppx.sns.getD i ⟨false, 0, false⟩).valid ≠ sensorValid s reads i →
          posted t clsInfo blkPPX i F.PPX_SNS_VALID_valid [])) ∧
      rd t F.PPX_CNT_SNSFAIL_reads = min (rd s F.PPX_CNT_SNSFAIL_reads +
        ((List.range 16).filter (fun i => on s (F.PPX_SNS_en i) && (snsTemp (reads.getD i none)).isNone)).length) (2 ^ 32 - 1) ∧
      regsKept s t ([F.PPX_CNT_SNSFAIL_reads.off, F.PPX_SNS_VALID_valid.off, F.PPX_STATUS_band.off, F.PPX_TEMP_panel.off,
        F.PPX_CNT_BAND_changes.off] ++ (List.range 16).map (fun i => (F.PPX_SNS_temp i).off)) ∧
      (l = [] → rd t F.PPX_STATUS_no_sensor = 1 ∧ bandNow t = bandNow s ∧ rd t F.PPX_CNT_BAND_changes = rd s F.PPX_CNT_BAND_changes) ∧
      (∀ T : Int, l ≠ [] → T = (if on s F.PPX_TEMP_CFG_agg then l.foldl max (l.headD 0) else l.sum / (l.length : Int)) →
        rdS t F.PPX_TEMP_panel = T ∧ rd t F.PPX_STATUS_no_sensor = 0 ∧
        (bandNow t ≠ bandNow s → posted t clsInfo blkPPX 0 F.PPX_CNT_BAND_changes []) ∧
        (s.ppx.fresh = true ∨ (anyValid s = true ∧ ¬ sensorWas s) → bandNow t = bandAt s T ∧
          rd t F.PPX_CNT_BAND_changes =
            (if bandAt s T = bandNow s then rd s F.PPX_CNT_BAND_changes else counted s F.PPX_CNT_BAND_changes)) ∧
        (s.ppx.fresh = false → sensorWas s →
          (bandNow t < 7 → T < bandThr s (bandNow t + 1) + 24) ∧ (0 < bandNow t → bandThr s (bandNow t) - 24 ≤ T) ∧
          (∀ k, bandNow s < k → k ≤ bandNow t → bandThr s k + 24 ≤ T) ∧ (∀ k, bandNow t < k → k ≤ bandNow s → T < bandThr s k - 24) ∧
          rd t F.PPX_CNT_BAND_changes =
            min (rd s F.PPX_CNT_BAND_changes + (bandNow t - bandNow s) + (bandNow s - bandNow t)) (2 ^ 32 - 1)))) ∧
  (∀ (s : State) (t0 : Nat), s.ppx.noSince = some t0 →
    (s.ppx.fellBack = false →
      ∃ t, exec .sensorFailTimeout s = .next t ∧ t.tick = max s.tick (t0 + rd s F.PPX_TEMP_CFG_fail * Config.tickHz) ∧
        bandNow t = rd s F.PPX_TEMP_CFG_fb_band ∧ t.ppx.fellBack = true ∧ posted t clsWarning blkPPX 0 F.PPX_TEMP_CFG_fb_band [] ∧
        (rd s F.PPX_TEMP_CFG_fb_band ≠ bandNow s → posted t clsInfo blkPPX 0 F.PPX_CNT_BAND_changes [] ∧
          rd t F.PPX_CNT_BAND_changes = counted s F.PPX_CNT_BAND_changes) ∧
        (rd s F.PPX_TEMP_CFG_fb_band = bandNow s → t.reg = s.reg) ∧
        regsKept s t [F.PPX_STATUS_band.off, F.PPX_CNT_BAND_changes.off] ∧ memKept s t) ∧
    (s.ppx.fellBack = true → exec .sensorFailTimeout s = .next s)) ∧
  (∀ s : State, s.ppx.noSince = none → exec .sensorFailTimeout s = .next s)

/-- An access of a table window moves one word and the index; ignored writes change no table. Rests on R217, R218, R284. Its conclusion is
exec … = .next t, with the own effect of: ppxTblDataAccess, ageTblDataAccess. -/
def Obligations.TableWindowsReadAndWrite : Prop :=
  (∀ (s : State) (v : Word) (b k i : Nat), served s F.PPX_TBL_DATA_data.off false → b = rd s F.PPX_TBL_SEL_bank →
    k = rd s F.PPX_TBL_SEL_table → i = rd s F.PPX_TBL_IDX_index →
    ∃ t, exec (.ppxTblDataAccess (some v)) s = .next t ∧ rd t F.PPX_TBL_IDX_index = (i + 1) % 2 ^ 17 ∧ memKept s t ∧
      (i < tblLen k → tblIgnored s b k = false → tblW t b k i = v.toNat % tblMask k i ∧
        (∀ x, x ≠ tblKey b k i → sget 0 t.ppx.tbl x = sget 0 s.ppx.tbl x) ∧ regsKept s t [F.PPX_TBL_IDX_index.off]) ∧
      (tblLen k ≤ i → t = { s with reg := t.reg } ∧ regsKept s t [F.PPX_TBL_IDX_index.off]) ∧
      (i < tblLen k → tblIgnored s b k = true → t.ppx = s.ppx ∧ rd t F.PPX_STATUS_wr_ign = 1 ∧
        rd t F.PPX_CNT_WR_IGN_writes = counted s F.PPX_CNT_WR_IGN_writes ∧
        regsKept s t [F.PPX_TBL_IDX_index.off, F.PPX_STATUS_wr_ign.off, F.PPX_CNT_WR_IGN_writes.off])) ∧
  (∀ (s : State) (b k i : Nat), hostAnswers s = true → b = rd s F.PPX_TBL_SEL_bank → k = rd s F.PPX_TBL_SEL_table →
    i = rd s F.PPX_TBL_IDX_index →
    ∃ t, exec (.ppxTblDataAccess none) s = .next t ∧ rd t F.PPX_TBL_DATA_data = (if i < tblLen k then tblW s b k i % 2 ^ 32 else 0) ∧
      rd t F.PPX_TBL_IDX_index = (i + 1) % 2 ^ 17 ∧ t = { s with reg := t.reg } ∧
      regsKept s t [F.PPX_TBL_IDX_index.off, F.PPX_TBL_DATA_data.off]) ∧
  (∀ (s : State) (v : Word) (k i : Nat), served s F.AGE_TBL_DATA_data.off false → k = rd s F.AGE_TBL_SEL_table →
    i = rd s F.AGE_TBL_IDX_index →
    ∃ t, exec (.ageTblDataAccess (some v)) s = .next t ∧ rd t F.AGE_TBL_IDX_index = (i + 1) % 2 ^ 6 ∧ memKept s t ∧
      (rd t F.AGE_STATUS_run = 1 ↔ on s F.AGE_CFG_acc_en = true ∨ on s F.AGE_CFG_drz_en = true ∨ on s F.AGE_CFG_rb_en = true ∨ ageBusy s = true) ∧
      (i < ageTblLen k → rd t F.AGE_STATUS_run = 0 → ageTbl t k i = v.toNat % 2 ^ 16 ∧
        ∀ x, x ≠ 64 * k + i → sget 0 t.age.tbl x = sget 0 s.age.tbl x) ∧
      (ageTblLen k ≤ i → t.age = s.age) ∧
      (i < ageTblLen k → rd t F.AGE_STATUS_run = 1 → t.age = s.age ∧ rd t F.AGE_STATUS_wr_ign = 1 ∧
        rd t F.AGE_CNT_WR_IGN_writes = counted s F.AGE_CNT_WR_IGN_writes)) ∧
  (∀ (s : State) (k i : Nat), hostAnswers s = true → k = rd s F.AGE_TBL_SEL_table → i = rd s F.AGE_TBL_IDX_index →
    ∃ t, exec (.ageTblDataAccess none) s = .next t ∧ rd t F.AGE_TBL_DATA_data = (if i < ageTblLen k then ageTbl s k i % 2 ^ 32 else 0) ∧
      rd t F.AGE_TBL_IDX_index = (i + 1) % 2 ^ 6 ∧ t = { s with reg := t.reg })

/-- Arm, stop and records of the drive capture; checksum tags; backlight strobes. Rests on R244, R245, R248, R249, R250, R251. Its conclusion
is exec … = .next t, with the own effect of: ppxCrcRead, capArm, capStop, captureDone, backlightStrobe. -/
def Obligations.CaptureSessionsAndChecksums : Prop :=
  (∀ s : State, served s F.PPX_CAP_CTRL_arm.off true →
    ∃ t, exec .capArm s = .next t ∧ rd t F.PPX_CAP_STAT_state = 1 ∧ rd t F.PPX_CAP_STAT_recs = 0 ∧ rd t F.PPX_CAP_USED_granules = 0 ∧
      t.ppx = { s.ppx with cap := some ⟨0, rd s F.PPX_CAP_CFG_count, false, s.tick⟩, capJobs := [] } ∧
      regsKept s t [F.PPX_CAP_STAT_state.off, F.PPX_CAP_USED_granules.off] ∧ t = { s with reg := t.reg, ppx := t.ppx, cdc := t.cdc }) ∧
  (∀ (s : State) (c : Cap), served s F.PPX_CAP_CTRL_stop.off true → s.ppx.cap = some c →
    (s.ppx.capJobs = [] →
      ∃ t, exec .capStop s = .next t ∧ t.ppx.cap = none ∧ rd t F.PPX_CAP_STAT_state = 0 ∧ regsKept s t [F.PPX_CAP_STAT_state.off] ∧
        memKept s t) ∧
    (s.ppx.capJobs ≠ [] → exec .capStop s = .next { s with ppx := { s.ppx with cap := some { c with stop := true } } })) ∧
  (∀ (s : State) (j : CapJob) (rest : List CapJob) (o : Nat), s.ppx.capJobs = j :: rest → capOver s j = true →
    o = rd s F.PPX_CAP_REC_offset + 32 * (rd s F.PPX_CAP_STAT_recs % 2 ^ rd s F.PPX_CAP_REC_log2n) →
    (j.refused = true → j.abandoned = false →
      ∃ t, exec (.captureDone j.abandoned) s = .next t ∧ t.ppx.capJobs = rest ∧
        (o + 32 ≤ mbxBase → lstRd t o 32 = keepProt s o (leBytes j.pic 8 ++ leBytes j.view 1 ++ leBytes j.ordinal 1 ++ [2#8, 0#8] ++
          List.replicate 20 0#8)) ∧ (∀ x, mbxBase ≤ x → sget 0#8 t.lst x = sget 0#8 s.lst x) ∧
        rd t F.PPX_CAP_STAT_recs = (rd s F.PPX_CAP_STAT_recs + 1) % 2 ^ 16 ∧
        (∀ x, x < o ∨ o + 32 ≤ x → sget 0#8 t.lst x = sget 0#8 s.lst x) ∧ t.gddr = s.gddr ∧ t.flash = s.flash ∧ t.nvm = s.nvm) ∧
    (∀ (a : Nat) (bs : List Byte), j.refused = false → a = capBase s + 64 * rd s F.PPX_CAP_USED_granules →
      bs = (List.range 3).flatMap (capSegment s j) → a + bs.length ≤ memCap s →
      ∃ t, exec (.captureDone j.abandoned) s = .next t ∧ t.ppx.capJobs = rest ∧ gddrRd t a bs.length = bs ∧
        (∀ x, x < a ∨ a + bs.length ≤ x → sget 0#8 t.gddr x = sget 0#8 s.gddr x) ∧
        rd t F.PPX_CAP_USED_granules = (rd s F.PPX_CAP_USED_granules + (bs.length + 63) / 64) % 2 ^ F.PPX_CAP_USED_granules.w ∧
        rd t F.PPX_CAP_CNT_abandoned = rd s F.PPX_CAP_CNT_abandoned ∧
        (o + 32 ≤ mbxBase → lstRd t o 32 = keepProt s o (leBytes j.pic 8 ++ leBytes j.view 1 ++ leBytes j.ordinal 1 ++
          leBytes (b2n j.abandoned) 1 ++ [0#8] ++ leBytes bs.length 4 ++ leBytes a 8 ++ List.replicate 8 0#8)) ∧
        (∀ x, mbxBase ≤ x → sget 0#8 t.lst x = sget 0#8 s.lst x) ∧
        rd t F.PPX_CAP_STAT_recs = (rd s F.PPX_CAP_STAT_recs + 1) % 2 ^ 16 ∧
        (∀ x, x < o ∨ o + 32 ≤ x → sget 0#8 t.lst x = sget 0#8 s.lst x) ∧ t.flash = s.flash ∧ t.nvm = s.nvm)) ∧
  (∀ (s : State) (a : Bool), (∀ j rest, s.ppx.capJobs = j :: rest → capOver s j = false ∨ j.abandoned ≠ a) → exec (.captureDone a) s = .next s) ∧
  (∀ (s : State) (r : Fin 16), hostAnswers s = true →
    ∃ t, exec (.ppxCrcRead r) s = .next t ∧ rd t (F.PPX_CRC_TAG r.val) = s.ppx.tags.getD r.val 0 % 2 ^ 32 ∧
      regsKept s t [(F.PPX_CRC_TAG r.val).off] ∧ t = { s with reg := t.reg }) ∧
  (∀ (s : State) (j : Fin 128) (o : Bool) (e : Nat × Nat × Nat × Bool), strobeNext s j.val o = some e →
    ∃ t, exec (.backlightStrobe j o) s = .next t ∧ t.tick = max s.tick (e.1 - 33 * blBit s) ∧ t.ppx.blWord = blStrobe j.val o ∧
      t.ppx.blFree = max t.tick s.ppx.blFree + 32 * blBit s ∧ t.ppx.blLat = max t.tick s.ppx.blFree + 33 * blBit s ∧
      t.ppx.blDone = (e.2.1, j.val, o) :: s.ppx.blDone ∧
      rd t F.PPX_BL_CNT_strobe_late =
        (if e.1 - 33 * blBit s < s.ppx.blFree then counted s F.PPX_BL_CNT_strobe_late else rd s F.PPX_BL_CNT_strobe_late) ∧
      regsKept s t [F.PPX_BL_CNT_strobe_late.off] ∧ memKept s t) ∧
  (∀ (s : State) (j : Fin 128) (o : Bool), strobeNext s j.val o = none → exec (.backlightStrobe j o) s = .next s)

/-- An accumulation pass adds R255's increment to the counter of every subpixel it drives, and changes no other byte. Rests on R254, R255,
R257, R259. Its conclusion is exec … = .next t, with the own effect of: stressAccumulation. -/
def Obligations.StressCountersTakeDrivenRows : Prop :=
  (∀ (s : State) (u : Run), s.scn.runs.find? (accReady s) = some u → u.w = panelW s → u.h = panelH s →
    (∀ X Y c, X < u.w → Y < u.h → c < 3 → stressAddr s X Y c + 4 ≤ memCap s ∧ readPoisoned s 6 (stressAddr s X Y c) 4 = false) →
    ∃ t, exec .stressAccumulation s = .next t ∧ t.lst = s.lst ∧ t.flash = s.flash ∧ t.nvm = s.nvm ∧
      (∀ x ∈ t.scn.runs, x.num = u.num → x.accDue = false) ∧
      (∀ y X c, y < u.h → X < u.w → c < 3 →
        stressOf t X (u.line y) c =
          if u.prog.getD y true then
            min (stressOf s X (u.line y) c + stressInc
              (weightOf s c ((sget [] u.capVals (blkKey (X / 32) (u.line y / 32))).getD (1024 * c + 32 * (u.line y % 32) + X % 32) 0))
              (emissionOf s u ((allPasses s).find? (fun p => p.start = u.start)) y)
              (Nat.repeat lfsr31 (((List.range y).filter (fun z => u.prog.getD z true)).length * (3 * u.w) + 3 * X + c + 1) s.age.lfsr))
              0xFFFFFFFF
          else stressOf s X (u.line y) c) ∧
      t.age.lfsr = Nat.repeat lfsr31 (((List.range u.h).filter (fun z => u.prog.getD z true)).length * (3 * u.w)) s.age.lfsr ∧
      (∀ a, (∀ X Y c, X < u.w → Y < u.h → c < 3 → a < stressAddr s X Y c ∨ stressAddr s X Y c + 4 ≤ a) →
        sget 0#8 t.gddr a = sget 0#8 s.gddr a) ∧
      regsKept s t [F.AGE_CNT_SAT_increments.off, F.AGE_STATUS_run.off]) ∧
  (∀ s : State, s.scn.runs.find? (accReady s) = none → exec .stressAccumulation s = .next s)

/-- Drizzle gains tokens up to its limit, its slots run once, and rows end complete, retried or skipped. Rests on R265, R267, R268, R313. Its
conclusion is exec … = .next t, with the own effect of: drizzleSlotStart, drizzleSlotEnd, drizzleToken, senseResultsComplete,
senseResultsTimeout, slotEnd. -/
def Obligations.DrizzleTokensSlotsAndResults : Prop :=
  (∀ s : State, drizzleOn s = true →
    ∃ t, exec .drizzleToken s = .next t ∧ t.tick = max s.tick (s.age.tokenAt + rd s F.AGE_DRZ_CFG_gap_ms * Config.tickMs) ∧
      t.age.tokenAt = t.tick ∧
      rd t F.AGE_DRZ_STAT_tokens = min (rd s F.AGE_DRZ_STAT_tokens + 1) (rd s F.AGE_DRZ_CFG_max_rows) % 2 ^ F.AGE_DRZ_STAT_tokens.w ∧
      regsKept s t [F.AGE_DRZ_STAT_tokens.off] ∧ memKept s t) ∧
  (∀ s : State, drizzleOn s = false → exec .drizzleToken s = .next s) ∧
  (∀ (s : State) (x : SenseSlot), (allSlots s).find? (fun x => !x.started) = some x →
    ∃ t, exec .drizzleSlotStart s = .next t ∧ t.tick = max s.tick (x.a + lOut) ∧
      allSlots t = (allSlots s).map (fun y => if y = x then { y with started := true } else y) ∧ t.reg = s.reg ∧ memKept s t) ∧
  (∀ s : State, (allSlots s).find? (fun x => !x.started) = none → exec .drizzleSlotStart s = .next s) ∧
  (∀ (s : State) (x : SenseSlot), (allSlots s).find? (fun x => x.started && !x.ended) = some x →
    ∃ t, exec .drizzleSlotEnd s = .next t ∧ t.tick = max s.tick (x.b + lOut) ∧
      allSlots t = (allSlots s).map (fun y => if y = x then { y with ended := true } else y) ∧ memKept s t ∧ t.reg = s.reg ∧
      (∀ r, s.age.rows.find? (fun r => r.row = x.row && r.slotEnd = x.b) = some r →
        (∀ y ∈ t.age.rows, y.tag = r.tag → y.asked = true) ∧
        ∀ g ∈ liveGroups s, ∃ p ∈ t.drv.queue, ∃ q, p.req = some q ∧ q.kind = 1 ∧ q.group.val = g ∧ q.tag = r.tag % 8 ∧ q.row = r.row)) ∧
  (∀ s : State, (allSlots s).find? (fun x => x.started && !x.ended) = none → exec .drizzleSlotEnd s = .next s) ∧
  (∀ (s : State) (r : SenseRow), s.age.rows.find? (fun r => rowComplete s r && decide (s.tick ≤ r.deadline)) = some r →
    ∃ t, exec .senseResultsComplete s = .next t ∧ r ∉ t.age.rows ∧ (∀ x ∈ s.age.rows, x ≠ r → x ∈ t.age.rows) ∧
      rd t F.AGE_CNT_SENSED_rows = counted s F.AGE_CNT_SENSED_rows ∧ t.lst = s.lst ∧ t.flash = s.flash ∧ t.nvm = s.nvm ∧
      (rd s F.AGE_DRZ_STAT_cursor = r.row → r.row + 1 < panelH s → r.row + 1 ∉ s.age.past → r.row ∉ s.age.past →
        rd t F.AGE_DRZ_STAT_cursor = r.row + 1)) ∧
  (∀ s : State, s.age.rows.find? (fun r => rowComplete s r && decide (s.tick ≤ r.deadline)) = none →
    exec .senseResultsComplete s = .next s) ∧
  (∀ (s : State) (r : SenseRow) (l : List SenseRow), s.age.rows = r :: l →
    ∃ t, exec .senseResultsTimeout s = .next t ∧ t.tick = max s.tick r.deadline ∧ t.age.rows = l ∧ memKept s t ∧
      (if rd s F.AGE_DRZ_CFG_retry ≤ sget 0 s.age.fails r.row + 1 then
        rd t F.AGE_CNT_ROWS_skipped = counted s F.AGE_CNT_ROWS_skipped ∧ posted t clsWarning blkAGE 0 F.AGE_CNT_ROWS_skipped []
       else rd t F.AGE_CNT_ROWS_retried = counted s F.AGE_CNT_ROWS_retried ∧
        rd t F.AGE_DRZ_STAT_cursor = rd s F.AGE_DRZ_STAT_cursor ∧ sget 0 t.age.fails r.row = sget 0 s.age.fails r.row + 1)) ∧
  (∀ s : State, s.age.rows = [] → exec .senseResultsTimeout s = .next s)

/-- Checkpoint triggers start or are held; a done one is valid, a failed one is counted and tried again; the rebuild moves its cursor. Rests
on R274, R275, R277, R278, R279, R280, R281. Its conclusion is exec … = .next t, with the own effect of: ageRebuildStep, ckptInterval,
ageCkpt, ckptDone, ckptFail, ckptShutTimeout, ckptRetry. -/
def Obligations.CheckpointsStartEndAndRetry : Prop :=
  (∀ (s : State) (k q : Nat), s.age.ckpt = none → s.nv.xf = none →
    (k, q) = (match s.age.newest with | some (n, m) => (1 - n, m + 1) | none => (0, 1)) →
    (served s F.AGE_CTRL_ckpt.off true → s.age.held = none →
      ∃ t c, exec .ageCkpt s = .next t ∧ t.age.ckpt = some c ∧ c.slot = k ∧ c.seq = q ∧ c.kind = 1 ∧ ckptErased s t k ∧
        t.gddr = s.gddr ∧ t.lst = s.lst ∧ t.nvm = s.nvm) ∧
    (∀ r, s.age.retryAt = some r →
      ∃ t c, exec .ckptRetry s = .next t ∧ t.tick = max s.tick r ∧ t.age.ckpt = some c ∧ c.slot = k ∧ c.seq = q ∧ c.kind = 0 ∧
        t.age.retryAt = none ∧ ckptErased s t k) ∧
    (∀ e, s.age.emitAt = some e →
      ∃ t c, exec .ckptInterval s = .next t ∧
        t.tick = max s.tick (e + (rd s F.AGE_CKPT_CFG_interval * 60 * Config.tickHz - s.age.sinceAcc)) ∧
        t.age.ckpt = some c ∧ c.slot = k ∧ c.seq = q ∧ c.kind = 0 ∧ t.age.sinceAcc = 0 ∧ t.age.emitAt = some t.tick ∧
        rd t F.AGE_EMIT_SINCE_seconds = 0 ∧ ckptErased s t k)) ∧
  (∀ (s : State) (c : Ckpt), s.age.ckpt = some c →
    (served s F.AGE_CTRL_ckpt.off true →
      (s.age.held = none → ∃ t, exec .ageCkpt s = .next t ∧ t.age = { s.age with held := some 1 } ∧ rd t F.AGE_STATUS_ckpt_held = 1 ∧
        memKept s t) ∧
      (s.age.held.isSome = true → exec .ageCkpt s = .next s)) ∧
    (∀ e, s.age.emitAt = some e →
      ∃ t, exec .ckptInterval s = .next t ∧
        t.tick = max s.tick (e + (rd s F.AGE_CKPT_CFG_interval * 60 * Config.tickHz - s.age.sinceAcc)) ∧ t.age.ckpt = some c ∧
        t.age.held = some (s.age.held.getD 0) ∧ rd t F.AGE_STATUS_ckpt_held = 1 ∧ memKept s t)) ∧
  (∀ s : State, s.age.emitAt = none → exec .ckptInterval s = .next s) ∧
  (∀ s : State, s.age.retryAt = none → exec .ckptRetry s = .next s) ∧
  (∀ (s : State) (c : Ckpt), s.age.ckpt = some c → s.age.held = none → s.nv.xfHeld = [] → psqState s ≠ psRAILS_DOWN →
    (c.bad = false → 6 ≤ c.plane →
      ∃ t, exec .ckptDone s = .next t ∧ t.age.ckpt = none ∧ t.age.newest = some (c.slot, c.seq) ∧
        flashRd t (slotBase s c.slot) (ckptHeader s c).length = ckptHeader s c ∧
        rd t F.AGE_STATUS_newest = c.slot % 2 ∧ rd t F.AGE_CKPT_SEQ_LO_seq = c.seq % 2 ^ 32 ∧ rd t F.AGE_CKPT_SEQ_HI_seq = c.seq / 2 ^ 32 % 2 ^ 32 ∧
        rd t F.AGE_CNT_CKPT_written = counted s F.AGE_CNT_CKPT_written ∧ t.gddr = s.gddr ∧ t.lst = s.lst ∧ t.nvm = s.nvm) ∧
    (∃ t, exec .ckptFail s = .next t ∧ t.age.ckpt = none ∧ rd t F.AGE_CNT_CKPT_failed = counted s F.AGE_CNT_CKPT_failed ∧
      posted t clsError blkAGE 0 F.AGE_CNT_CKPT_failed [] ∧ t.age.newest = s.age.newest ∧ memKept s t ∧
      t.age.retryAt = (if c.kind = 0 then some (s.tick + rd s F.AGE_CKPT_CFG_retry * 60 * Config.tickHz) else s.age.retryAt)) ∧
    (∀ l, s.age.shutBy = some l → c.kind = 2 →
      ∃ t, exec .ckptShutTimeout s = .next t ∧ t.tick = max s.tick l ∧ t.age.ckpt = none ∧ t.age.shutBy = none ∧ t.age.newest = s.age.newest ∧
        rd t F.AGE_CNT_CKPT_failed = counted s F.AGE_CNT_CKPT_failed ∧ posted t clsError blkAGE 0 F.AGE_CNT_CKPT_failed [])) ∧
  (∀ s : State, rd s F.AGE_CFG_rb_en = 0 → exec .ageRebuildStep s = .next s) ∧
  (∀ s : State, rd s F.AGE_CFG_rb_en = 1 → outputsRun s = false → s.age.rebuilt = false →
    ∃ t, exec .ageRebuildStep s = .next t ∧ memKept s t ∧
      (t.age.rbHeld = none → t.age.rebuilt = true ∧ panelBW s * panelBH s ≤ t.age.rbFirst)) ∧
  (∀ (s : State) (i k : Nat), rd s F.AGE_CFG_rb_en = 1 → outputsRun s = true → s.age.rbHeld = none → rd s F.AGE_REBUILD_per_pic - s.age.rbUsed = 1 → s.age.rbBlock = i →
    k = blkKey (i % panelBW s) (i / panelBW s) → queueOf s k = [] →
    ∃ t, exec .ageRebuildStep s = .next t ∧ memKept s t ∧ t.age.rbBlock = (i + 1) % (panelBW s * panelBH s) ∧ t.age.rbUsed = s.age.rbUsed + 1 ∧
      if (List.range 3).all (fun c => compCrc s k c == some (crc32 (rawForm 16 (compBlock s (i % panelBW s) (i / panelBW s) c)))) then
        t.blq = s.blq ∧ t.age.subs = s.age.subs
      else t.age.subs = s.age.subs + 1 ∧ rd t F.AGE_CNT_BLK_blocks = counted s F.AGE_CNT_BLK_blocks ∧
        ∃ e, queueOf t k = [e] ∧ e.source = 7 ∧ e.slot = 20 ∧ (e.surface = rd s F.AGE_CMP_SURF_surf0 ∨ e.surface = rd s F.AGE_CMP_SURF_surf1) ∧
          ∀ v, curOf s k 20 = some v → rd s F.AGE_CMP_SURF_surf0 ≠ rd s F.AGE_CMP_SURF_surf1 → e.surface ≠ v.surface)

/-- An hour of emission, and of panel outputs, each increments its counter in the NVM. Rests on R279, R431, R432, R433. Its conclusion is exec
… = .next t, with the own effect of: emissionHour, panelOnHour. -/
def Obligations.RunningHoursAreTallied : Prop :=
  (∀ (s : State) (t0 : Nat), s.age.emitAt = some t0 →
    ∃ t, exec .emissionHour s = .next t ∧ t.tick = max s.tick (t0 + (hourTicks - s.age.emitAcc)) ∧ t.age.emitAt = some t.tick ∧
      t.age.emitAcc = s.age.emitAcc + (t.tick - t0) - hourTicks ∧ t.age.sinceAcc = s.age.sinceAcc + (t.tick - t0) ∧
      (∃ j ∈ t.nv.jobs, j.kind = .tally 1) ∧ rd t F.NVM_ACC_STAT_busy = 1 ∧ memKept s t ∧ regsKept s t [F.NVM_ACC_STAT_busy.off] ∧
      (∀ v q n, cntBase s (nvmFuture s) 1 = some (v, q) → n < 32 →
        ((List.range 32).filter (fun g => tallyCounts s (nvmFuture s) 1 q g)).length = n →
        t.nv.jobs.length = s.nv.jobs.length + 1 ∧
        { page := (tallyAt 1 n).1, todo := [((tallyAt 1 n).2, whole (tallyBytes 1 n q))], kind := .tally 1 } ∈ t.nv.jobs)) ∧
  (∀ s : State, s.age.emitAt = none → exec .emissionHour s = .next s) ∧
  (∀ (s : State) (t0 : Nat), s.age.onAt = some t0 →
    ∃ t, exec .panelOnHour s = .next t ∧ t.tick = max s.tick (t0 + (hourTicks - s.age.onAcc)) ∧ t.age.onAt = some t.tick ∧
      t.age.onAcc = s.age.onAcc + (t.tick - t0) - hourTicks ∧ (∃ j ∈ t.nv.jobs, j.kind = .tally 0) ∧ rd t F.NVM_ACC_STAT_busy = 1 ∧
      memKept s t ∧ regsKept s t [F.NVM_ACC_STAT_busy.off] ∧
      (∀ v q n, cntBase s (nvmFuture s) 0 = some (v, q) → n < 32 →
        ((List.range 32).filter (fun g => tallyCounts s (nvmFuture s) 0 q g)).length = n →
        t.nv.jobs.length = s.nv.jobs.length + 1 ∧
        { page := (tallyAt 0 n).1, todo := [((tallyAt 0 n).2, whole (tallyBytes 0 n q))], kind := .tally 0 } ∈ t.nv.jobs)) ∧
  (∀ s : State, s.age.onAt = none → exec .panelOnHour s = .next s)

/-- A row slot carries the row's packet on every lane of every group that sends; a slot's end decides takeover. Rests on R292, R293, R296,
R297, R305, R306, R309. Its conclusion is exec … = .next t, with the own effect of: rowSlot, gapSlot, slotEnd. -/
def Obligations.SlotsCarryRowsAndIdlePackets : Prop :=
  (∀ (s m : State) (u : Run) (y : Nat) (v : Option (List Nat)) (rest : List (Nat × Option (List Nat))),
    s.scn.runs.find? (fun u => decide (u.ySlot < u.h)) = some u → u.lines = (y, v) :: rest → liveGroups s ≠ [] →
    liveGroups (slotEnd s) ≠ [] → m = reach (slotEnd s) (rowTick u.start u.q y - 2 * u.q0 + lOut) →
    ∃ t, exec .rowSlot s = .next t ∧ t.tick = m.tick ∧ t.drv.slotAt = some (rowTick u.start u.q y - 2 * u.q0) ∧ t.drv.slotLen = u.q0 ∧
      t.drv.seq = (s.drv.seq + 1) % 256 ∧ memKept s t ∧
      (∀ g l, g ∈ liveGroups (slotEnd s) → l < 4 → (sget [] t.drv.lag (4 * g + l)).head? = some (match v with
        | some x => packet 1 l false s.drv.seq (rowArg m u g y) (rowPay m g l x.toArray)
        | none => idlePacket l s.drv.seq)) ∧
      (u.fin = false → ∃ u' ∈ t.scn.runs, u'.num = u.num ∧ u'.lines = rest ∧ u'.ySlot = y + 1)) ∧
  (∀ (s : State) (a q : Nat), liveGroups s ≠ [] → liveGroups (slotEnd s) ≠ [] → nextGap (slotEnd s) (max (slotEnd s).drv.slotFrom ((slotEnd s).tick - lOut)) = some (a, q) →
    ∃ t, exec .gapSlot s = .next t ∧ t.tick = max (slotEnd s).tick (a + lOut) ∧ t.drv.slotAt = some a ∧ t.drv.slotLen = q ∧
      t.drv.seq = (s.drv.seq + 1) % 256 ∧ memKept s t ∧
      t.scn = s.scn ∧ (∀ g, g ∈ liveGroups (slotEnd s) → sget [] t.drv.lag (4 * g) ≠ [] ∧
        ∀ l, 1 ≤ l → l < 4 → sget [] t.drv.lag (4 * g + l) = [idlePacket l s.drv.seq])) ∧
  (∀ s : State, liveGroups s ≠ [] → nextGap (slotEnd s) (max (slotEnd s).drv.slotFrom ((slotEnd s).tick - lOut)) = none →
    exec .gapSlot s = .next (slotEnd s)) ∧
  (∀ s : State, liveGroups s = [] → exec .gapSlot s = .next s ∧ exec .rowSlot s = .next s) ∧
  (∀ s : State, liveGroups s ≠ [] → liveGroups (slotEnd s) = [] → exec .gapSlot s = .next (slotEnd s)) ∧
  (∀ (s : State) (t0 : Nat), s.drv.slotAt = some t0 →
    ∃ t, exec .slotEnd s = .next t ∧ t.tick = max s.tick (t0 + s.drv.slotLen + lOut) ∧ t.drv.slotAt = none ∧ memKept s t ∧
      ((psqState s = psLINK → ∀ g ∈ liveGroups s, (grp s g).rxTake = none ∧
          ((List.range 4).filter (fun k => decide (max 1 (rd s F.DRV_TAKEOVER_tx_thr) ≤ (grp s g).det.getD k 0))).length ≤ 1) →
        ∀ g, g ∈ liveGroups s → (grp t g).det = [0, 0, 0, 0] ∧ (grp t g).step = 6) ∧
      (∀ g k l, g ∈ liveGroups s → rd s (F.DRV_GRP_STAT_spare_ok g) = 1 → rd s (F.DRV_GRP_STAT_spare_active g) = 0 → k < l → l < 4 →
        (∀ x, x = k ∨ x = l → max 1 (rd s F.DRV_TAKEOVER_tx_thr) ≤ (grp s g).det.getD x 0) →
        bitOf t F.DRV_GRP_FAIL_failed g = true ∧ (psqState s ≠ psLINK → psqState t = psqState s) ∧
        (psqState s = psLINK → bitOf s F.DRV_GRP_FAIL_failed g = false → s.psq.safe = none →
          rd t F.PSQ_FAULT_cause = 8 ∧ (psqState t = psRAILS_DOWN ∨ psqState t = psFAULT))) ∧
      (∀ g l, g ∈ liveGroups s → rd s (F.DRV_GRP_STAT_spare_ok g) = 1 → rd s (F.DRV_GRP_STAT_spare_active g) = 0 →
        (grp s g).rxTake = none → l < 4 →
        (∀ k, k < 4 → ((0 < (grp s g).det.getD k 0 ∧ rd s F.DRV_TAKEOVER_tx_thr ≤ (grp s g).det.getD k 0) ↔ k = l)) →
        rd t (F.DRV_GRP_STAT_spare_active g) = 1 ∧ rd t (F.DRV_GRP_STAT_spare_lane g) = l ∧
        posted t clsWarning blkDRV g F.DRV_CNT_TAKEOVER_count [(g, 1), (l, 1)]) ∧
      (∀ g, g ∈ liveGroups s → (grp s g).rxTake = none →
        (∀ k, k < 4 → (grp s g).det.getD k 0 < max 1 (rd s F.DRV_TAKEOVER_tx_thr)) →
        rd t (F.DRV_GRP_STAT_spare_active g) = rd s (F.DRV_GRP_STAT_spare_active g))) ∧
  (∀ s : State, s.drv.slotAt = none → exec .slotEnd s = .next s)

/-- Each edge of a GT or EM output toggles that pin alone, L_out after its calendar tick. Rests on R314, R316, R323, R329, R331. Its
conclusion is exec … = .next t, with the own effect of: gtEdge, emEdge. -/
def Obligations.PinEdgesFollowTheirFunctions : Prop :=
  (∀ (s : State) (n : Fin 32) (te : Nat), 1 ≤ rd s (F.DRV_GT_CFG_func n) → rd s (F.DRV_GT_CFG_func n) ≤ 6 →
    psBLACK ≤ psqState s → psqState s ≤ psBLACK_OFF →
    nextEdge (gtMade s n) (s.drv.gt / 2 ^ n.val % 2 == 1) (s.drv.gtAt.getD n 0) = some te →
    ∃ t, exec (.gtEdge n) s = .next t ∧ t.tick = max s.tick (te + lOut) ∧ gtPin t n = !gtPin s n ∧
      (∀ k, k < 32 → k ≠ n.val → gtPin t k = gtPin s k) ∧ (∀ k, k < 16 → emPin t k = emPin s k) ∧
      ((s.drv.gt / 2 ^ n.val % 2 == 1) = false → ∃ x ∈ gtMade s n, x.1 ≤ te ∧ te < x.2 ∧ s.drv.gtAt.getD n 0 < te) ∧
      t.reg = s.reg ∧ memKept s t) ∧
  (∀ (s : State) (n : Fin 32), rd s (F.DRV_GT_CFG_func n) ≤ 6 → psBLACK ≤ psqState s → psqState s ≤ psBLACK_OFF →
    1 ≤ rd s (F.DRV_GT_CFG_func n) → nextEdge (gtMade s n) (s.drv.gt / 2 ^ n.val % 2 == 1) (s.drv.gtAt.getD n 0) = none →
    exec (.gtEdge n) s = .next s) ∧
  (∀ (s : State) (n : Fin 32),
    rd s (F.DRV_GT_CFG_func n) = 7 ∨ rd s (F.DRV_GT_CFG_func n) = 0 ∨
      (rd s (F.DRV_GT_CFG_func n) < 7 ∧ (psqState s < psBLACK ∨ psBLACK_OFF < psqState s)) →
    ∃ t, exec (.gtEdge n) s = .next t ∧ t.tick = s.tick ∧ t.reg = s.reg ∧ memKept s t ∧
      (t.drv.gt / 2 ^ n.val % 2 = if rd s (F.DRV_GT_CFG_func n) = 7 ∧ outputsRun s = true then 1 else 0) ∧
      (∀ k, k < 32 → k ≠ n.val → gtPin t k = gtPin s k)) ∧
  (∀ (s : State) (n : Fin 16) (te : Nat), 1 ≤ rd s (F.DRV_EM_CFG_func n) → rd s (F.DRV_EM_CFG_func n) ≤ 3 →
    psqState s = psON ∨ (emStop s).isSome = true →
    nextEdge (emSpans s n) (s.drv.em / 2 ^ n.val % 2 == 1) (s.drv.emAt.getD n 0) = some te →
    ∃ t, exec (.emEdge n) s = .next t ∧ t.tick = max s.tick (te + lOut) ∧ emPin t n = !emPin s n ∧
      (∀ k, k < 16 → k ≠ n.val → emPin t k = emPin s k) ∧ (∀ k, k < 32 → gtPin t k = gtPin s k) ∧ t.reg = s.reg ∧ memKept s t) ∧
  (∀ (s : State) (n : Fin 16), rd s (F.DRV_EM_CFG_func n) = 4 ∨ rd s (F.DRV_EM_CFG_func n) = 0 ∨
      (rd s (F.DRV_EM_CFG_func n) < 4 ∧ psqState s ≠ psON ∧ emStop s = none) →
    ∃ t, exec (.emEdge n) s = .next t ∧ t.tick = s.tick ∧ t.reg = s.reg ∧ memKept s t ∧
      (t.drv.em / 2 ^ n.val % 2 = if rd s (F.DRV_EM_CFG_func n) = 4 ∧ outputsRun s = true then 1 else 0) ∧
      (∀ k, k < 16 → k ≠ n.val → emPin t k = emPin s k)) ∧
  (∀ (s : State) (n : Fin 16), 1 ≤ rd s (F.DRV_EM_CFG_func n) → rd s (F.DRV_EM_CFG_func n) ≤ 3 →
    psqState s = psON ∨ (emStop s).isSome = true →
    nextEdge (emSpans s n) (s.drv.em / 2 ^ n.val % 2 == 1) (s.drv.emAt.getD n 0) = none → exec (.emEdge n) s = .next s)

/-- Training goes through its steps; its outcome by good lanes; a monitor detection counts and can fail a group. Rests on R301, R303, R304,
R309, R319. Its conclusion is exec … = .next t, with the own effect of: laneMonitorDetection, trainingStart, trainingStepEnd. -/
def Obligations.ColumnLinkTrainsAndFails : Prop :=
  (∀ s : State, (psqState s = psLINK ∧ rd s F.DRV_STATUS_training = 0 ∧ s.drv.held = false) ∨ (served s F.DRV_CTRL_retrain.off true ∧ outputsRun s = false ∧ s.boot.imageOk = true) →
    s.drv.stopping = false → groupsInUse s ≠ [] →
    ∃ t, exec .trainingStart s = .next t ∧ rd t F.DRV_GRP_FAIL_failed = 0 ∧ rd t F.DRV_STATUS_training = 1 ∧ memKept s t ∧
      (∀ g ∈ groupsInUse s, grp t g = { Grp.off with step := 1, at_ := s.tick } ∧ rd t (F.DRV_GRP_STAT_up g) = 0 ∧
        rd t (F.DRV_GRP_STAT_spare_active g) = 0 ∧ rd t (F.DRV_GRP_STAT_spare_ok g) = 0)) ∧
  (∀ s : State, served s F.DRV_CTRL_retrain.off true → outputsRun s = true ∨ s.boot.imageOk = false → psqState s ≠ psLINK →
    ∃ t, exec .trainingStart s = .next t ∧ rd t F.DRV_STATUS_wr_ign = 1 ∧
      rd t F.DRV_CNT_WR_IGN_writes = counted s F.DRV_CNT_WR_IGN_writes ∧
      regsKept s t [F.DRV_STATUS_wr_ign.off, F.DRV_CNT_WR_IGN_writes.off] ∧ t = { s with reg := t.reg, now := t.now }) ∧
  (∀ (s : State) (g : Fin 24), g.val ∈ groupsInUse s → bitOf s F.DRV_GRP_FAIL_failed g = false →
    ∃ t, exec (.trainingStepEnd g) s = .next t ∧
      ((grp s g).step = 1 → phyOn s g = true →
        t.tick = max s.tick ((grp s g).at_ + 10 * Config.tickUs) ∧ grp t g = { grp s g with step := 2, at_ := t.tick }) ∧
      ((grp s g).step = 1 → phyOn s g = false → (grp t g).step = 1) ∧
      ((grp s g).step = 2 → t.tick = max s.tick ((grp s g).at_ + rd s F.DRV_TRAIN_t_cdr * Config.tickUs) ∧
        grp t g = { grp s g with step := 3, at_ := t.tick } ∧ ∃ r ∈ t.drv.reqs, r.kind = 2 ∧ r.group = g.val) ∧
      ((grp s g).step = 3 → (grp s g).lock = 31 → (grp s g).deskew = true →
        (grp t g).step = 4 ∧ rd t (F.DRV_GRP_STAT_spare_ok g) = 1 ∧ t.tick = s.tick) ∧
      (∀ l, l < 4 → (grp s g).step = 3 → (grp s g).lock = 31 - 2 ^ l → (grp s g).deskew = true →
        t.tick = max s.tick ((grp s g).at_ + rd s F.DRV_TRAIN_timeout * Config.tickMs) ∧ (grp t g).step = 4 ∧
        rd t (F.DRV_GRP_STAT_spare_active g) = 1 ∧ rd t (F.DRV_GRP_STAT_spare_lane g) = l ∧
        rd t F.DRV_CNT_TAKEOVER_count = counted s F.DRV_CNT_TAKEOVER_count) ∧
      ((grp s g).step = 3 → ((grp s g).deskew = false ∨ 2 ≤ ((List.range 4).filter (fun l => (grp s g).lock / 2 ^ l % 2 = 0)).length ∨
          ((grp s g).lock / 16 % 2 = 0 ∧ (grp s g).lock % 16 ≠ 15)) →
        bitOf t F.DRV_GRP_FAIL_failed g = true ∧ rd t (F.DRV_GRP_STAT_up g) = 0 ∧
        posted t clsError blkDRV g F.DRV_GRP_FAIL_failed [(g.val, 1)]) ∧
      ((grp s g).step = 5 → psqState s ≠ psLINK → (grp t g).step = 6 ∧ rd t (F.DRV_GRP_STAT_up g) = 1 ∧ memKept s t) ∧
      ((grp s g).step = 5 → psqState s = psLINK → s.psq.offReq = false →
        (∀ k ∈ groupsInUse s, k = g.val ∨ grpLive s k = true ∨ bitOf s F.DRV_GRP_FAIL_failed k = true) →
        (grp t g).step = 6 ∧ psqState t = psBLACK ∧ t.psq.onAt = some t.tick)) ∧
  (∀ (s : State) (g : Fin 24) (lane : Fin 5), g.val ∈ groupsInUse s → 2 ≤ (grp s g).step →
    (∀ a, s.drv.slotAt = some a → s.tick < a + s.drv.slotLen + lOut) →
    ∃ t, exec (.laneMonitorDetection g lane) s = .next t ∧ memKept s t ∧
      (rd s (F.DRV_GRP_STAT_spare_active g) = 1 ∧ lane.val = rd s (F.DRV_GRP_STAT_spare_lane g) → t = s) ∧
      (¬(rd s (F.DRV_GRP_STAT_spare_active g) = 1 ∧ lane.val = rd s (F.DRV_GRP_STAT_spare_lane g)) →
        rd t (F.DRV_GRP_STAT_tx_err g) = counted s (F.DRV_GRP_STAT_tx_err g) ∧
        (lane.val < 4 → psqState s ≠ psLINK ∨ rd s (F.DRV_GRP_STAT_spare_active g) = 0 → (grp t g).det = (grp s g).det.modify lane (fun n => n + 1)) ∧
        (lane.val = 4 → rd t (F.DRV_GRP_STAT_spare_ok g) = 0 ∧ posted t clsWarning blkDRV g (F.DRV_GRP_STAT_spare_ok g) []) ∧
        (rd s (F.DRV_GRP_STAT_spare_active g) = 1 → bitOf t F.DRV_GRP_FAIL_failed g = true ∧
          (psqState s = psLINK → bitOf s F.DRV_GRP_FAIL_failed g = false → s.psq.safe = none → rd t F.PSQ_FAULT_cause = 8)) ∧
        (rd s (F.DRV_GRP_STAT_spare_active g) = 0 → rd t F.DRV_GRP_FAIL_failed = rd s F.DRV_GRP_FAIL_failed))) ∧
  (∀ (s : State) (g : Fin 24) (lane : Fin 5) (a : Nat), s.drv.slotAt = some a → a + s.drv.slotLen + lOut ≤ s.tick → 2 ≤ (grp s g).step →
    exec (.laneMonitorDetection g lane) s = exec (.laneMonitorDetection g lane) (if g.val ∈ groupsInUse s then slotEnd s else s)) ∧
  (∀ (s : State) (g : Fin 24) (lane : Fin 5), (grp s g).step < 2 ∨ g.val ∉ groupsInUse s → exec (.laneMonitorDetection g lane) s = .next s)

/-- Polls queue one request per group; a good frame answers, a bad or missing one is counted and asked again. Rests on R298, R300, R308, R310,
R312, R321, R344, R345. Its conclusion is exec … = .next t, with the own effect of: drvSendCfg, cfgSendDone, statusPoll, backchannelFrame,
backchannelFrameMissing, monitorPoll. -/
def Obligations.BackChannelAsksAndHears : Prop :=
  (∀ s : State, served s F.DRV_CTRL_send_cfg.off true →
    (rd s F.DRV_STATUS_cfg_busy = 0 →
      ∃ t, exec .drvSendCfg s = .next t ∧ rd t F.DRV_STATUS_cfg_busy = 1 ∧ regsKept s t [F.DRV_STATUS_cfg_busy.off] ∧
        t = { s with reg := t.reg,
                     drv := { s.drv with
                       swing := t.drv.swing,
                       queue := s.drv.queue ++ ((driverTable s).filter (fun r => r.1 != 0)).map (fun r => ⟨5, r.1, 2, r.2.1, r.2.2, none, none⟩) } } ∧
        (driverTable s ≠ [] → 400 ≤ t.drv.swing ∧ t.drv.swing ≤ 800) ∧ (driverTable s = [] → t.drv.swing = s.drv.swing)) ∧
    (rd s F.DRV_STATUS_cfg_busy = 1 → exec .drvSendCfg s = .next { s with drv.cfgHeld := true })) ∧
  (∀ s : State, rd s F.DRV_STATUS_cfg_busy = 1 → s.drv.queue.all (fun p => p.prec != 5) = true → cfgTraining s = false →
    ∃ t, exec .cfgSendDone s = .next t ∧ regsKept s t [F.DRV_STATUS_cfg_busy.off] ∧ t.drv.cfgHeld = false ∧
      rd t F.DRV_STATUS_cfg_busy = b2n s.drv.cfgHeld ∧ memKept s t ∧ (s.drv.cfgHeld = false → t = { s with reg := t.reg })) ∧
  (∀ s : State, ∃ t, exec .statusPoll s = .next t ∧ t.tick = max s.tick (s.drv.pollAt + rd s F.DRV_BACK_poll_ms * Config.tickMs) ∧
    t.drv.pollAt = t.tick ∧ t.reg = s.reg ∧ memKept s t ∧ t.drv.queue.take s.drv.queue.length = s.drv.queue ∧
    (t.drv.queue.drop s.drv.queue.length).map (fun p => p.req.map (fun r => (r.kind, r.group.val, r.tries))) =
      (upGroups s).map (fun g => some (2, g, 0))) ∧
  (∀ s : State, rd s F.PSQ_MON_EN_en ≠ 0 → psBLACK ≤ psqState s → psqState s ≤ psBLACK_OFF →
    ∃ t, exec .monitorPoll s = .next t ∧ t.tick = max s.tick (s.psq.monAt + rd s F.PSQ_MON_CFG_period_ms * Config.tickMs) ∧
      t.psq.monAt = t.tick ∧ t.reg = s.reg ∧ memKept s t ∧ t.drv.queue.take s.drv.queue.length = s.drv.queue ∧
      (t.drv.queue.drop s.drv.queue.length).map (fun p => p.req.map (fun r => (r.kind, r.group.val, r.mask, r.tries))) =
        (upGroups s).map (fun g => some (0, g, rd s F.PSQ_MON_EN_en, 0))) ∧
  (∀ s : State, rd s F.PSQ_MON_EN_en = 0 ∨ psqState s < psBLACK ∨ psBLACK_OFF < psqState s → exec .monitorPoll s = .next s) ∧
  (∀ (s : State) (r : BackReq) (rest : List BackReq) (bs pay : List Byte), s.drv.reqs = r :: rest → frameGood s r bs = true →
    pay = (bs.take (bs.length - 2)).drop 4 →
    ∃ t, exec (.backchannelFrame true bs) s = .next t ∧
      rd t (F.DRV_GRP_STAT_bc_err r.group) = rd s (F.DRV_GRP_STAT_bc_err r.group) ∧ rd t F.DRV_CNT_BCERR_frames = rd s F.DRV_CNT_BCERR_frames ∧
      (r.kind = 1 → t.drv.reqs = rest ∧ t.reg = s.reg ∧ memKept s t ∧
        ∀ x ∈ s.age.rows, x.row = ofBe (slice pay 0 4) % 2 ^ 13 → x.tag % 8 = ofBe (slice pay 0 4) / 2 ^ 29 →
          { x with got := x.got.filter (fun e => e.1 != r.group.val) ++ [(r.group.val, senseResults s pay)] } ∈ t.age.rows) ∧
      (2 ≤ r.kind → psqState s ≠ psLINK ∨ (grp s r.group).step = 3 → (grp t r.group).lock = ofBe (slice pay 0 4) % 32) ∧
      (r.kind = 0 → (∀ k, k < (bitList r.mask 8).length →
          ofBe (slice pay (4 * k) 4) % 2 ^ 16 ≤
            rd s (F.PSQ_MON_expect (ofBe (slice pay (4 * k) 4) / 2 ^ 29)) + rd s (F.PSQ_MON_tol (ofBe (slice pay (4 * k) 4) / 2 ^ 29)) ∧
          rd s (F.PSQ_MON_expect (ofBe (slice pay (4 * k) 4) / 2 ^ 29)) ≤
            ofBe (slice pay (4 * k) 4) % 2 ^ 16 + rd s (F.PSQ_MON_tol (ofBe (slice pay (4 * k) 4) / 2 ^ 29))) →
        t.reg = s.reg ∧ t.drv.reqs = rest ∧ t.psq.missRun = sset 0 s.psq.missRun r.group.val 0 ∧ memKept s t)) ∧
  (∀ (s : State) (r : BackReq) (rest : List BackReq) (onTime : Bool) (bs : List Byte) (c : Instr), s.drv.reqs = r :: rest →
    (c = .backchannelFrame onTime bs ∧ (onTime && frameGood s r bs) = false ∨ c = .backchannelFrameMissing) →
    ∃ t, exec c s = .next t ∧ (c = .backchannelFrameMissing → t.tick = max s.tick (r.due + 8 * bcBit)) ∧
      rd t (F.DRV_GRP_STAT_bc_err r.group) = counted s (F.DRV_GRP_STAT_bc_err r.group) ∧
      rd t F.DRV_CNT_BCERR_frames = counted s F.DRV_CNT_BCERR_frames ∧
      ((grp s r.group).step ≠ 3 → on s (F.DRV_GRP_STAT_up r.group) = false → r.kind ≠ 0 → t.drv.queue = s.drv.queue ∧ t.drv.reqs = rest) ∧
      ((grp s r.group).step ≠ 3 → on s (F.DRV_GRP_STAT_up r.group) = true → r.tries < rd s F.DRV_BACK_retries → t.drv.reqs = rest ∧ t.drv.queue = s.drv.queue ++
        [⟨reqPrec r.kind, 2 ^ r.group.val, 4, r.kind * 2 ^ 14 + r.id, [], some { r with tries := r.tries + 1 }, none⟩])) ∧
  (∀ (s : State) (onTime : Bool) (bs : List Byte), s.drv.reqs = [] →
    exec (.backchannelFrame onTime bs) s = .next s ∧ exec .backchannelFrameMissing s = .next s)

/-- On and off requests by the sequencer's state: accepted, held, cancelled, ignored and counted. Rests on R324, R332, R333, R334, R339. Its
conclusion is exec … = .next t, with the own effect of: psqOn, psqOff, psqOffCkpt. -/
def Obligations.PanelPowerRequests : Prop :=
  (∀ s : State, served s F.PSQ_CTRL_on.off true → s.psq.safe = none →
    (psqState s = psOFF ∨ psqState s = psFAULT →
      ∃ t, exec .psqOn s = .next t ∧ t = { s with reg := t.reg, psq.req := true } ∧ rd t F.PSQ_FAULT = 0 ∧ regsKept s t [F.PSQ_FAULT.off]) ∧
    (psqState s = psBLACK_OFF ∨ psqState s = psRAILS_DOWN ∨
        (s.psq.offReq = true ∧ psqState s ≠ psOFF ∧ psqState s ≠ psFAULT) →
      ∃ t, exec .psqOn s = .next t ∧ t = { s with reg := t.reg } ∧ rd t F.PSQ_STATUS_re_pend = 1 ∧ psqState t = psqState s ∧
        regsKept s t [F.PSQ_STATUS_re_pend.off]) ∧
    (s.psq.offReq = false → psPRECHECK ≤ psqState s → psqState s ≤ psON →
      ∃ t, exec .psqOn s = .next t ∧ t = { s with reg := t.reg, now := t.now } ∧ rd t F.PSQ_STATUS_wr_ign = 1 ∧
        rd t F.PSQ_CNT_WR_IGN_writes = counted s F.PSQ_CNT_WR_IGN_writes ∧
        regsKept s t [F.PSQ_STATUS_wr_ign.off, F.PSQ_CNT_WR_IGN_writes.off])) ∧
  (∀ (s : State) (ckpt : Bool) (c : Instr), served s F.PSQ_CTRL_off.off true →
    (c = .psqOff ∧ ckpt = false ∨ c = .psqOffCkpt ∧ ckpt = true) →
    (psqState s = psOFF ∨ psqState s = psFAULT → exec c s = .next { s with psq.req := false }) ∧
    (psqState s ≠ psOFF → psqState s ≠ psFAULT → s.psq.safe.isSome = true → exec c s = .next s) ∧
    (s.psq.safe = none → psqState s = psBLACK_OFF ∨ psqState s = psRAILS_DOWN ∨
        (s.psq.offReq = true ∧ psqState s ≠ psOFF ∧ psqState s ≠ psFAULT) →
      ∃ t, exec c s = .next t ∧ rd t F.PSQ_STATUS_re_pend = 0 ∧ psqState t = psqState s ∧
        (ckpt = false ∨ s.psq.ckptReq = true ∨ s.psq.ckptWait = true → t = { s with reg := t.reg } ∧ regsKept s t [F.PSQ_STATUS_re_pend.off]) ∧
        (ckpt = true → s.psq.ckptReq = false → s.psq.ckptWait = false →
          (psqState s ≠ psRAILS_DOWN → s.psq.bOff = none → t = { s with reg := t.reg, psq.ckptReq := true }) ∧
          (psqState s = psRAILS_DOWN ∨ s.psq.bOff.isSome = true →
            t.psq.ckptWait = true ∧ t.age.shutBy = some (s.tick + rd s F.AGE_CKPT_CFG_shut_max * Config.tickHz)))) ∧
    (s.psq.safe = none → s.psq.offReq = false →
      (psPRECHECK ≤ psqState s ∧ psqState s ≤ psLINK) ∨ (psqState s = psON ∧ s.psq.bOn ≠ some s.tick) →
      exec c s = .next { s with psq := { s.psq with offReq := true, bOff := none, ckptReq := ckpt } }) ∧
    (s.psq.safe = none → s.psq.offReq = false → psqState s = psBLACK →
      ∃ t, exec c s = .next t ∧ psqState t = psBLACK_OFF ∧ rd t F.PSQ_STATUS_emit = 0 ∧ t.psq.offReq = true ∧ t.psq.ckptReq = ckpt ∧
        t.evt = s.evt ∧ memKept s t ∧ rd t F.PSQ_CNT_ON_count = rd s F.PSQ_CNT_ON_count) ∧
    (s.psq.safe = none → s.psq.offReq = false → psqState s = psON → s.psq.bOn = some s.tick →
      ∃ t, exec c s = .next t ∧ psqState t = psBLACK_OFF ∧ rd t F.PSQ_STATUS_emit = 0 ∧ t.psq.offReq = true ∧ t.psq.ckptReq = ckpt ∧
        memKept s t ∧ ∀ u ∈ t.scn.runs, u.start = s.tick → u.kind = .black))

/-- A safe power-off discards a held enable; an on request during one is ignored and counted. Formalises R340. Its conclusion is exec … =
.next t, with the own effect of: psqOn. -/
def Obligations.SafePowerOffDiscardsHeldEnable : Prop :=
  (∀ (s : State) (cause group monitor index value : Nat), psqState s ≠ psOFF → psqState s ≠ psFAULT → s.psq.safe = none →
    rd (safeOff s cause group monitor index value) F.PSQ_STATUS_re_pend = 0 ∧ (safeOff s cause group monitor index value).psq.req = false) ∧
  (∀ s : State, served s F.PSQ_CTRL_on.off true → s.psq.safe.isSome = true →
    ∃ t, exec .psqOn s = .next t ∧ t = { s with reg := t.reg, now := t.now } ∧ rd t F.PSQ_STATUS_wr_ign = 1 ∧
      rd t F.PSQ_CNT_WR_IGN_writes = counted s F.PSQ_CNT_WR_IGN_writes ∧
      rdW t F.PSQ_STATUS_wr_ign.off = F.PSQ_STATUS_wr_ign.into (rdW s F.PSQ_STATUS_wr_ign.off) 1 ∧
      regsKept s t [F.PSQ_STATUS_wr_ign.off, F.PSQ_CNT_WR_IGN_writes.off])

/-- Power-on starts when its conditions hold, tests loops first, and brings rails up step by step. Rests on R323, R324, R326, R327, R333,
R342. Its conclusion is exec … = .next t, with the own effect of: powerOnStart, railSettleDone. -/
def Obligations.PowerOnRunsItsSteps : Prop :=
  (∀ s : State, s.psq.req = true → psqState s = psOFF ∨ psqState s = psFAULT → s.boot.imageOk = true → s.boot.step8 = true →
    rebuildDone s = true →
    ∃ t, exec .powerOnStart s = .next t ∧ t.tick = s.tick ∧ memKept s t ∧ t.psq.req = false ∧ t.age.onAt = some (s.age.onAt.getD s.tick) ∧
      (rd s F.PSQ_CFG_pre_chk = 1 → rd s F.PSQ_CRK_EN_en ≠ 0 →
        psqState t = psPRECHECK ∧ t.psq.crkOut = rd s F.PSQ_CRK_EN_en ∧ t.psq.crk = some ⟨s.tick, 0, 0⟩) ∧
      (rd s F.PSQ_CFG_pre_chk = 0 ∨ rd s F.PSQ_CRK_EN_en = 0 →
        (∀ i : Fin 8, rd s (F.PSQ_UP_en i) = 1 → (∀ j : Fin 8, j < i → rd s (F.PSQ_UP_en j) = 0) →
          psqState t = psRAILS_UP ∧ t.psq.k = i ∧ t.psq.begun = 2 ^ i.val ∧
          (rd s (F.PSQ_UP_pmb_en i) = 1 → t.psq.phase = .pmbus) ∧
          (rd s (F.PSQ_UP_pmb_en i) = 0 → bitOf t F.PSQ_STATUS_rail_en (railOf s i) = true ∧ t.psq.enAt = s.tick)) ∧
        ((∀ i : Fin 8, rd s (F.PSQ_UP_en i) = 0) → psqState t = psLINK))) ∧
  (∀ s : State, s.psq.req = false ∨ (psqState s ≠ psOFF ∧ psqState s ≠ psFAULT) ∨ s.boot.imageOk = false ∨ s.boot.step8 = false ∨
    rebuildDone s = false → exec .powerOnStart s = .next s) ∧
  (∀ (s : State) (t0 : Nat), s.psq.phase = .settle t0 → psqState s = psRAILS_UP → s.psq.safe = none →
    ∃ t, exec .railSettleDone s = .next t ∧ t.tick = max s.tick (t0 + rd s (F.PSQ_UP_settle s.psq.k) * Config.tickMs) ∧ memKept s t ∧
      (rd s (F.PSQ_UP_pg_chk s.psq.k) = 1 → pgOf s (railOf s s.psq.k) = false →
        rd t F.PSQ_CNT_PG_faults = counted s F.PSQ_CNT_PG_faults ∧ rd t F.PSQ_FAULT_cause = 7) ∧
      (rd s (F.PSQ_UP_pg_chk s.psq.k) = 0 ∨ pgOf s (railOf s s.psq.k) = true →
        (s.psq.offReq = true → s.psq.begun % 256 ≠ 0 → psqState t = psRAILS_DOWN) ∧
        (s.psq.offReq = false → maskHas t.psq.watched s.psq.k = on s (F.PSQ_UP_pg_chk s.psq.k) ∧
          (∀ i : Fin 8, s.psq.k < i → rd s (F.PSQ_UP_en i) = 1 → (∀ j : Fin 8, s.psq.k < j → j < i → rd s (F.PSQ_UP_en j) = 0) →
            psqState t = psRAILS_UP ∧ t.psq.k = i ∧ maskHas t.psq.begun i = true) ∧
          ((∀ i : Fin 8, s.psq.k < i → rd s (F.PSQ_UP_en i) = 0) → psqState t = psLINK ∧ t.psq.phase = .none)))) ∧
  (∀ s : State, psqState s ≠ psRAILS_UP ∨ (∀ t0, s.psq.phase ≠ .settle t0) → exec .railSettleDone s = .next s)

/-- Power-good changes, timeouts, PMBus ends and discharges move the rails or start a safe power-off. Rests on R327, R328, R335, R336, R338,
R341. Its conclusion is exec … = .next t, with the own effect of: railPgChange, railPgTimeout, railDischargeDone, pmbusDone, pmbAlertFall. -/
def Obligations.RailFaultsAndRailsDown : Prop :=
  (∀ (s : State) (r : Fin 8) (l : Bool), s.psq.safe = none →
    ∃ t, exec (.railPgChange r l) s = .next t ∧ pgOf t r = l ∧ memKept s t ∧ t.tick = s.tick ∧
      (l = true → psqState s = psRAILS_UP → s.psq.phase = .pgWait → railOf s s.psq.k = r.val →
        (s.tick < s.psq.enAt + rd s (F.PSQ_UP_timeout s.psq.k) * Config.tickMs → t.psq = { s.psq with phase := .settle s.tick }) ∧
        (s.psq.enAt + rd s (F.PSQ_UP_timeout s.psq.k) * Config.tickMs ≤ s.tick →
          rd t F.PSQ_FAULT_cause = 1 ∧ rd t F.PSQ_FAULT_index = r.val)) ∧
      (l = false → (∃ k ∈ bitList s.psq.watched 8, railOf s k = r.val) →
        rd t F.PSQ_CNT_PG_faults = counted s F.PSQ_CNT_PG_faults ∧ posted t clsError blkPSQ 0 F.PSQ_CNT_PG_faults [] ∧
        (psqState s ∈ [psRAILS_UP, psLINK, psBLACK] ∨ (psqState s ∈ [psON, psBLACK_OFF] ∧ rd s F.PSQ_CFG_pg_react = 1) →
          rd t F.PSQ_FAULT_cause = 7 ∧ rd t F.PSQ_FAULT_index = r.val ∧ (psqState t = psRAILS_DOWN ∨ psqState t = psFAULT)) ∧
        (psqState s ∈ [psON, psBLACK_OFF] → rd s F.PSQ_CFG_pg_react = 0 → psqState t = psqState s ∧ t.psq = s.psq)) ∧
      (l = false → (∀ k ∈ bitList s.psq.watched 8, railOf s k ≠ r.val) → t = { s with reg := t.reg } ∧ regsKept s t [F.PSQ_STATUS_pg.off])) ∧
  (∀ s : State, psqState s = psRAILS_UP → s.psq.phase = .pgWait → s.psq.safe = none →
    ∃ t, exec .railPgTimeout s = .next t ∧ t.tick = max s.tick (s.psq.enAt + rd s (F.PSQ_UP_timeout s.psq.k) * Config.tickMs) ∧
      rd t F.PSQ_FAULT_cause = 1 ∧ rd t F.PSQ_FAULT_index = railOf s s.psq.k ∧ posted t clsError blkPSQ 0 F.PSQ_FAULT_cause [] ∧
      (psqState t = psRAILS_DOWN ∨ psqState t = psFAULT) ∧ memKept s t) ∧
  (∀ s : State, psqState s ≠ psRAILS_UP ∨ s.psq.phase ≠ .pgWait → exec .railPgTimeout s = .next s) ∧
  (∀ (s : State) (ok : Bool), s.psq.phase = .pmbus → s.psq.safe = none →
    ∃ t, exec (.pmbusDone ok) s = .next t ∧ memKept s t ∧ t.tick = s.tick ∧
      rd t F.PSQ_CNT_PG_pmb_fail = (if ok then rd s F.PSQ_CNT_PG_pmb_fail else counted s F.PSQ_CNT_PG_pmb_fail) ∧
      (psqState s = psRAILS_UP → ok = true → bitOf t F.PSQ_STATUS_rail_en (railOf s s.psq.k) = true ∧ t.psq.enAt = s.tick ∧
        (t.psq.phase = .pgWait ∨ t.psq.phase = .settle s.tick)) ∧
      (psqState s = psRAILS_UP → ok = false → rd t F.PSQ_FAULT_cause = 2 ∧ rd t F.PSQ_FAULT_index = railOf s s.psq.k) ∧
      (psqState s ≠ psRAILS_UP → bitOf t F.PSQ_STATUS_rail_en (railOf s s.psq.k) = false ∧ t.psq.phase = .discharge s.tick)) ∧
  (∀ (s : State) (ok : Bool), s.psq.phase ≠ .pmbus → exec (.pmbusDone ok) s = .next s) ∧
  (∀ (s : State) (t0 : Nat), s.psq.phase = .discharge t0 →
    ∃ t, exec .railDischargeDone s = .next t ∧ t.tick = max s.tick (t0 + rd s (F.PSQ_DN_dis s.psq.k) * Config.tickMs) ∧ memKept s t ∧
      (∀ k : Fin 8, maskHas s.psq.begun k = true → (∀ j : Fin 8, k < j → maskHas s.psq.begun j = false) →
        t.psq.k = k ∧ maskHas t.psq.begun k = false ∧
        (rd s (F.PSQ_DN_pmb_en k) = 1 → t.psq.phase = .pmbus) ∧
        (rd s (F.PSQ_DN_pmb_en k) = 0 → t.psq.phase = .discharge t.tick ∧ bitOf t F.PSQ_STATUS_rail_en (railOf s k) = false)) ∧
      (s.psq.begun % 256 = 0 → s.psq.safe.isSome = true → psqState t = psFAULT ∧ bitOf t F.EVT_ALARM_alarm almSAFE_OFF = true ∧
        t.psq.safe = none) ∧
      (s.psq.begun % 256 = 0 → s.psq.safe = none → s.psq.ckptReq = false → s.psq.ckptWait = false →
        psqState t = psOFF ∧ rd t F.PSQ_STATUS_re_pend = 0 ∧ (rd s F.PSQ_STATUS_re_pend = 1 → t.psq.req = true))) ∧
  (∀ s : State, (∀ t0, s.psq.phase ≠ .discharge t0) → exec .railDischargeDone s = .next s) ∧
  (∀ (s : State) (low : Nat), ∃ t, exec (.pmbAlertFall low) s = .next t ∧ t.psq = { s.psq with alertTo := s.tick + low } ∧ memKept s t ∧
    rd t F.PSQ_STATUS_alert = (if 0 < low then 1 else 0) ∧ posted t clsWarning blkPSQ 0 F.PSQ_STATUS_alert [] ∧
    regsKept s t [F.PSQ_STATUS_alert.off])

/-- The four instants of a crack test; its result counts failures, breaks a loop at the n-th, and ends PRECHECK. Rests on R326, R342, R343.
Its conclusion is exec … = .next t, with the own effect of: crackSample. -/
def Obligations.CrackTestsSampleAndJudge : Prop :=
  (∀ (s : State) (inp : BitVec 16) (c : CrkTest), s.psq.crk = some c →
    ∃ t, exec (.crackSample inp) s = .next t ∧ t.tick = max s.tick (c.at_ + (c.step + 1) * rd s F.PSQ_CRK_CFG_settle) ∧ memKept s t ∧
      (c.step = 0 → ∃ b, t.psq = { s.psq with crk := some { c with step := 1, bad := b } } ∧ t.reg = s.reg ∧
        ∀ k, k < 16 → maskHas b k = (bitOf s F.PSQ_CRK_EN_en k && !inp.getLsbD k)) ∧
      (c.step = 1 → t.psq = { s.psq with crkOut := 0, crk := some { c with step := 2 } } ∧ t.reg = s.reg) ∧
      (c.step = 2 → ∃ b, t.psq = { s.psq with crk := some { c with step := 3, bad := b } } ∧ t.reg = s.reg ∧
        ∀ k, k < 16 → maskHas b k = (bitOf s F.PSQ_CRK_EN_en k && (inp.getLsbD k || maskHas c.bad k))) ∧
      (3 ≤ c.step → psqState s ≠ psPRECHECK → t.psq.crk = none ∧
        rd t F.PSQ_CNT_CRK_tests = min (rd s F.PSQ_CNT_CRK_tests +
          ((bitList (rd s F.PSQ_CRK_EN_en) 16).filter (fun k => maskHas c.bad k)).length) (2 ^ F.PSQ_CNT_CRK_tests.w - 1) ∧
        (∀ k, k < 16 → bitOf s F.PSQ_CRK_EN_en k = true →
          bitOf t F.PSQ_CRK_STAT_fail k = maskHas c.bad k ∧ sget 0 t.psq.crkRun k = (if maskHas c.bad k then sget 0 s.psq.crkRun k + 1 else 0) ∧
          (maskHas c.bad k = true → sget 0 s.psq.crkRun k + 1 = rd s F.PSQ_CRK_CFG_n →
            bitOf t F.PSQ_CRK_STAT_broken k = true ∧ posted t clsError blkPSQ k F.PSQ_CRK_STAT_broken [(k, 1)])) ∧
        (∀ k, k < 16 → bitOf s F.PSQ_CRK_EN_en k = false → bitOf t F.PSQ_CRK_STAT_fail k = bitOf s F.PSQ_CRK_STAT_fail k ∧
          bitOf t F.PSQ_CRK_STAT_broken k = bitOf s F.PSQ_CRK_STAT_broken k)) ∧
      (3 ≤ c.step → psqState s = psPRECHECK →
        (s.psq.pre + 1 < rd s F.PSQ_CRK_CFG_n → rd s F.PSQ_CRK_EN_en ≠ 0 → t.psq.crk = some ⟨t.tick, 0, 0⟩ ∧ psqState t = psPRECHECK ∧
          t.psq.pre = s.psq.pre + 1) ∧
        (rd s F.PSQ_CRK_CFG_n ≤ s.psq.pre + 1 →
          ((∃ k, k < 16 ∧ bitOf s F.PSQ_CRK_EN_en k = true ∧ bitOf s F.PSQ_CRK_EN_react k = true ∧ maskHas c.bad k = true ∧
              rd s F.PSQ_CRK_CFG_n ≤ sget 0 s.psq.preRun k + 1) →
            psqState t = psFAULT ∧ rd t F.PSQ_FAULT_cause = 3 ∧ bitOf t F.EVT_ALARM_alarm almSAFE_OFF = true) ∧
          (rd s F.PSQ_CRK_EN_react = 0 → s.psq.offReq = false → (∀ i : Fin 8, rd s (F.PSQ_UP_en i) = 0) → psqState t = psLINK)))) ∧
  (∀ (s : State) (inp : BitVec 16), s.psq.crk = none → exec (.crackSample inp) s = .next s)

/-- Orsal ports train, check their neighbour, come up, go down, retry; breaks and heals are learned. Rests on R353, R354, R355, R382, R385.
Its conclusion is exec … = .next t, with the own effect of: portTrainDone, portLinkLoss, portRetryTimeout, orlRetrain, linkHelloTimer,
linkHelloRx, linkBreakRx, linkHealRx. -/
def Obligations.OrsalPortsChangeState : Prop :=
  (∀ (s : State) (x : Bool), portState s (portNo x) = poTRAIN →
    ∃ t, exec (.portTrainDone x) s = .next t ∧ portState t (portNo x) = poCHECK ∧ rd t (F.ORL_PORT_STAT_lock (portNo x)) = 15 ∧
      posted t clsInfo blkORL (portNo x) (F.ORL_PORT_STAT_state (portNo x)) [] ∧ memKept s t ∧
      regsKept s t [(F.ORL_PORT_STAT_state (portNo x)).off]) ∧
  (∀ (s : State) (x : Bool), portState s (portNo x) ≠ poTRAIN → exec (.portTrainDone x) s = .next s) ∧
  (∀ (s : State) (x : Bool), portState s (portNo x) = poCHECK ∨ portState s (portNo x) = poUP →
    ∃ t, exec (.portLinkLoss x) s = .next t ∧ portState t (portNo x) = poDOWN ∧ portState t (1 - portNo x) = portState s (1 - portNo x) ∧
      rd t (F.ORL_PORT_STAT_downs (portNo x)) = counted s (F.ORL_PORT_STAT_downs (portNo x)) ∧
      posted t clsError blkORL (portNo x) (F.ORL_PORT_STAT_downs (portNo x)) [] ∧ (oport t (portNo x)).downAt = s.tick ∧
      (oport t (portNo x)).queue = [] ∧ (oport t (portNo x)).sending = none ∧ memKept s t ∧
      (portState s (portNo x) = poUP → rd t F.ORL_STATUS_brk = 1 ∧ rd t F.ORL_STATUS_brk_pos = linkPos s (portNo x) % 64 ∧
        (rd s F.ORL_STATUS_brk = 0 → bitOf t F.EVT_ALARM_alarm almRING_BRK = true)) ∧
      (portState s (portNo x) = poCHECK → rd t F.ORL_STATUS_brk = rd s F.ORL_STATUS_brk)) ∧
  (∀ (s : State) (x : Bool), portState s (portNo x) ≠ poCHECK → portState s (portNo x) ≠ poUP →
    ∃ t, exec (.portLinkLoss x) s = .next t ∧ t = { s with reg := t.reg } ∧ regsKept s t [F.ORL_STATUS_dual.off]) ∧
  (∀ (s : State) (x : Bool), portState s (portNo x) = poDOWN ∨ portState s (portNo x) = poMISWIRED →
    ∃ t, exec (.portRetryTimeout x) s = .next t ∧ portState t (portNo x) = poTRAIN ∧ memKept s t ∧
      t.tick = max s.tick ((oport s (portNo x)).downAt + rd s F.ORL_PORT_CFG_retry_ms * Config.tickMs)) ∧
  (∀ (s : State) (x : Bool), portState s (portNo x) ≠ poDOWN → portState s (portNo x) ≠ poMISWIRED →
    exec (.portRetryTimeout x) s = .next s) ∧
  (∀ (s : State) (x : Bool), served s F.ORL_CTRL_retrain_a.off true →
    (portState s (portNo x) ≠ poOFF → ∃ t, exec (.orlRetrain x) s = .next t ∧ portState t (portNo x) = poTRAIN ∧ memKept s t ∧
      portState t (1 - portNo x) = portState s (1 - portNo x)) ∧
    (portState s (portNo x) = poOFF → exec (.orlRetrain x) s = .next s)) ∧
  (∀ (s : State) (x : Bool), portHears s (portNo x) = true →
    ∃ t, exec (.linkHelloTimer x) s = .next t ∧ t.tick = max s.tick ((oport s (portNo x)).helloAt + Config.tickMs) ∧
      (oport t (portNo x)).helloAt = t.tick ∧ t.reg = s.reg ∧ memKept s t ∧
      ((oport s (portNo x)).sending = none → (oport s (portNo x)).queue = [] →
        (oport t (portNo x)).sending =
          some (frameBytes { ownFrame s 3 false (nbrPos s (portNo x)) [] with seq := 0 } (linkPay s 0 0)))) ∧
  (∀ (s : State) (x : Bool), portHears s (portNo x) = false → exec (.linkHelloTimer x) s = .next s) ∧
  (∀ (s : State) (x : Bool) (bs pay : List Byte), heard s (portNo x) 3 bs → pay = (parseFrame bs).pay → leAt pay 0 1 = 0 →
    ∃ t, exec (.linkHelloRx x bs) s = .next t ∧ rd t (F.ORL_PORT_STAT_nbr_pos (portNo x)) = leAt pay 1 1 % 64 ∧ memKept s t ∧
      (portState s (portNo x) = poUP → t = { s with reg := t.reg } ∧ portState t (portNo x) = poUP) ∧
      (portState s (portNo x) = poCHECK →
        leAt pay 2 1 = nDev s - 1 ∧ (leAt pay 3 1 % 2 = 1 ↔ isRing s = true) ∧ leAt pay 1 1 = nbrPos s (portNo x) ∧
          (leAt pay 3 1 / 2 % 2 = 0 ↔ leAt pay 1 1 = 0) →
        portState t (portNo x) = poUP ∧ (oport t (portNo x)).delays = []) ∧
      (portState s (portNo x) = poCHECK →
        ¬(leAt pay 2 1 = nDev s - 1 ∧ (leAt pay 3 1 % 2 = 1 ↔ isRing s = true) ∧ leAt pay 1 1 = nbrPos s (portNo x) ∧
          (leAt pay 3 1 / 2 % 2 = 0 ↔ leAt pay 1 1 = 0)) →
        portState t (portNo x) = poMISWIRED ∧ (oport t (portNo x)).downAt = s.tick)) ∧
  (∀ (s : State) (x : Bool) (bs : List Byte), heard s (portNo x) 3 bs → firstCopy s bs →
    (leAt (parseFrame bs).pay 0 1 = 1 → ∃ t, exec (.linkBreakRx x bs) s = .next t ∧ rd t F.ORL_STATUS_brk = 1 ∧
      rd t F.ORL_STATUS_brk_pos = leAt (parseFrame bs).pay 4 1 % 64) ∧
    (leAt (parseFrame bs).pay 0 1 = 2 → ∃ t, exec (.linkHealRx x bs) s = .next t ∧ rd t F.ORL_STATUS_brk = 0))

/-- Delay measurement, the manager's beacons, a worker's use of them and its change of timing port. Rests on R33, R361, R362, R363, R364,
R365. Its conclusion is exec … = .next t, with the own effect of: orsalBeaconEntry, delayMeasureTimer, dlyReqRx, dlyRspRx, dlyRspTimeout,
beaconRx, timingPortTimeout. -/
def Obligations.OrsalDelaysAndBeacons : Prop :=
  (∀ (s : State) (x : Bool), portUp s (portNo x) = true →
    ∃ t, exec (.delayMeasureTimer x) s = .next t ∧ t.reg = s.reg ∧ memKept s t ∧
      t.tick = max s.tick ((oport s (portNo x)).dlyAt + rd s F.ORL_TIME_dly_ms * Config.tickMs) ∧
      (idlePort s (portNo x) → (oport t (portNo x)).dlyAt = t.tick ∧
        ∃ k, k < 64 ∧ (oport t (portNo x)).t1 = some ((64 * t.tick + k) % 2 ^ 64) ∧ (oport t (portNo x)).sending =
          some (frameBytes { ownFrame s 1 false (nbrPos s (portNo x)) [] with seq := 0 } (leBytes ((64 * t.tick + k) % 2 ^ 64) 8)))) ∧
  (∀ (s : State) (x : Bool), portUp s (portNo x) = false → exec (.delayMeasureTimer x) s = .next s) ∧
  (∀ (s : State) (x : Bool) (bs : List Byte) (stamp : Nat), heard s (portNo x) 1 bs →
    (frameMine s (parseFrame bs) = true → idlePort s (portNo x) →
      ∃ t k, exec (.dlyReqRx x bs stamp) s = .next t ∧ k < 64 ∧ t.reg = s.reg ∧ memKept s t ∧
        (oport t (portNo x)).sending = some (frameBytes { ownFrame s 2 false (nbrPos s (portNo x)) [] with seq := 0 }
          ((parseFrame bs).pay.take 8 ++ leBytes stamp 8 ++ leBytes ((64 * s.tick + k) % 2 ^ 64) 8))) ∧
    (frameMine s (parseFrame bs) = false → exec (.dlyReqRx x bs stamp) s = .next s)) ∧
  (∀ (s : State) (x : Bool) (bs pay : List Byte) (stamp : Nat), heard s (portNo x) 2 bs → pay = (parseFrame bs).pay →
    (frameMine s (parseFrame bs) = true → (oport s (portNo x)).t1 = some (leAt pay 0 8) → s.tick ≤ (oport s (portNo x)).dlyAt + Config.tickMs →
      ∃ t, exec (.dlyRspRx x bs stamp) s = .next t ∧ (oport t (portNo x)).t1 = none ∧ memKept s t ∧
        (oport t (portNo x)).delays =
          signed 64 (((stamp : Int) - leAt pay 0 8 - ((leAt pay 16 8 : Int) - leAt pay 8 8)) % 2 ^ 64).toNat / 2 ::
            (oport s (portNo x)).delays.take 15 ∧
        regsKept s t [(F.ORL_PORT_DELAY_delay (portNo x)).off] ∧
        (15 ≤ (oport s (portNo x)).delays.length → rd t (F.ORL_PORT_DELAY_delay (portNo x)) =
          (portDelay t (portNo x) % 2 ^ (F.ORL_PORT_DELAY_delay (portNo x)).w).toNat)) ∧
    (frameMine s (parseFrame bs) = false ∨ (oport s (portNo x)).t1 ≠ some (leAt pay 0 8) ∨ (oport s (portNo x)).dlyAt + Config.tickMs < s.tick →
      exec (.dlyRspRx x bs stamp) s = .next s)) ∧
  (∀ (s : State) (x : Bool) (a : Nat), (oport s (portNo x)).t1 = some a →
    ∃ t, exec (.dlyRspTimeout x) s = .next t ∧ t.tick = max s.tick ((oport s (portNo x)).dlyAt + Config.tickMs) ∧
      oport t (portNo x) = { oport s (portNo x) with t1 := none } ∧ t.reg = s.reg ∧ memKept s t) ∧
  (∀ (s : State) (x : Bool), (oport s (portNo x)).t1 = none → exec (.dlyRspTimeout x) s = .next s) ∧
  (∀ (s : State) (n k inst : Nat), isManager s = true → s.tmb.pic = some n → 0 < picPeriod s → k < rd s F.ORL_TIME_bdiv →
    k = (match s.orl.bcnAt with
      | some b => if b < s.tmb.bound then 0 else (b - s.tmb.bound) * rd s F.ORL_TIME_bdiv / picPeriod s + 1
      | none => 0) → inst = s.tmb.bound + k * picPeriod s / rd s F.ORL_TIME_bdiv →
    ∃ t, exec .orsalBeaconEntry s = .next t ∧ t.tick = max s.tick inst ∧ t.orl.bcnAt = some inst ∧ t.reg = s.reg ∧ memKept s t ∧
      ∀ x, x < 2 → idlePort s x → ∃ f, f < 64 ∧ (oport t x).sending = some (frameBytes { ownFrame s 0 true 0 [] with seq := 0 }
        (leBytes n 8 ++ leBytes (k * picPeriod s / rd s F.ORL_TIME_bdiv) 4 ++ leBytes (picPeriod s) 4 ++
          leBytes (64 * (t.tick - inst) + f) 4 ++ leBytes (rd s F.ORL_TIME_bdiv) 1 ++ List.replicate 11 0#8))) ∧
  (∀ s : State, isManager s = false ∨ s.tmb.pic = none → exec .orsalBeaconEntry s = .next s) ∧
  (∀ (s : State) (x : Bool) (bs pay : List Byte) (stamp : Nat), heard s (portNo x) 0 bs → pay = (parseFrame bs).pay →
    frameMine s (parseFrame bs) = true →
    (isWorker s = true → 16 ≤ (oport s (portNo x)).delays.length →
      leAt pay 12 4 ≠ picPeriod s ∨ rd s F.TMB_REF_RATIO_pic_mul ≠ 1 ∨ rd s F.TMB_REF_RATIO_ref_div ≠ leAt pay 20 1 →
      ∃ t, exec (.beaconRx x bs stamp) s = .next t ∧ rd t F.ORL_STATUS_tmis = 1 ∧
        posted t clsInfo blkORL (portNo x) F.ORL_STATUS_tmis [] ∧ regsKept s t [F.ORL_STATUS_tmis.off] ∧ t.tmb = s.tmb ∧ memKept s t) ∧
    (isWorker s = true → 16 ≤ (oport s (portNo x)).delays.length →
      leAt pay 12 4 = picPeriod s → rd s F.TMB_REF_RATIO_pic_mul = 1 → rd s F.TMB_REF_RATIO_ref_div = leAt pay 20 1 →
      ∃ t, exec (.beaconRx x bs stamp) s = .next t ∧ rd t F.ORL_STATUS_tmis = 0 ∧ (oport t (portNo x)).lastBcn = some s.tick ∧
        rd t (F.ORL_PORT_CNT_bcn (portNo x)) = counted s (F.ORL_PORT_CNT_bcn (portNo x)) ∧
        rd t (F.ORL_PORT_STAT_hops (portNo x)) = (parseFrame bs).hops % 256 ∧
        (rd s F.ORL_STATUS_tsrc = 0 → portNo x = prefPort s → rd t F.ORL_STATUS_tsrc = portNo x + 1) ∧
        (rd s F.ORL_STATUS_tsrc = 0 → portNo x ≠ prefPort s → portUp s (prefPort s) = false → rd t F.ORL_STATUS_tsrc = portNo x + 1 ∧
          rd t F.ORL_CNT_MISC_switch = counted s F.ORL_CNT_MISC_switch ∧ posted t clsInfo blkORL (portNo x) F.ORL_STATUS_tsrc [])) ∧
    (isWorker s = false ∨ (oport s (portNo x)).delays.length < 16 → exec (.beaconRx x bs stamp) s = .next s)) ∧
  (∀ (s m : State) (x : Nat), isWorker s = true → isRing s = true → x = timePort s →
    m = (match (oport s x).lastBcn with
      | some b => if portUp s x then reach s (b + 2 * picPeriod s / max (rd s F.TMB_REF_RATIO_ref_div) 1) else s
      | none => s) →
    ((portUp s x = false ∨ noBeacon m x) → ¬noBeacon m (1 - x) →
      ∃ t, exec .timingPortTimeout s = .next t ∧ t.tick = m.tick ∧ rd t F.ORL_STATUS_tsrc = 2 - x ∧
        rd t F.ORL_CNT_MISC_switch = counted s F.ORL_CNT_MISC_switch ∧ posted t clsInfo blkORL (1 - x) F.ORL_STATUS_tsrc [] ∧
        t.tmb = s.tmb ∧ regsKept s t [F.ORL_STATUS_tsrc.off, F.ORL_CNT_MISC_switch.off]) ∧
    (¬(portUp s x = false ∨ noBeacon m x) ∨ noBeacon m (1 - x) → exec .timingPortTimeout s = .next m))

/-- The manager's five requests start, end by answers or timeouts; a worker answers each request once more on a copy. Rests on R368, R369,
R370, R371. Its conclusion is exec … = .next t, with the own effect of: ctlWrite, ctlRead, mbxWrite, mbxRead, commitAt, ctlReqRx,
commitAtTick, ctlRspRx, ctlTimeout. -/
def Obligations.OrsalControlRequests : Prop :=
  (∀ (s : State) (c : Instr) (op : Nat) (bad : Prop), served s F.ORL_CTL_CMD_go.off true →
    (c, op) ∈ [(Instr.ctlWrite, 0), (.ctlRead, 1), (.mbxWrite, 2), (.mbxRead, 3), (.commitAt, 4)] →
    (bad ↔ (rd s F.ORL_CTL_CMD_bcast = 1 ∧ (op = 1 ∨ op = 3)) ∨ (op = 4 ∧ rd s F.ORL_CTL_CMD_bcast = 0) ∨
      (rd s F.ORL_CTL_CMD_bcast = 0 ∧ (rd s F.ORL_CTL_CMD_dst = 0 ∨ nDev s ≤ rd s F.ORL_CTL_CMD_dst)) ∨
      (op ≤ 1 ∧ 0x1000000 ≤ rd s F.ORL_CTL_ADDR_addr) ∨
      ((op = 2 ∨ op = 3) ∧ (0x7FFFC < rd s F.ORL_CTL_ADDR_addr ∨ rd s F.ORL_CTL_ADDR_addr % 4 ≠ 0))) →
    (isManager s = false ∨ s.orl.ctl.isSome = true → exec c s = .next s) ∧
    (isManager s = true → s.orl.ctl = none → bad →
      ∃ t, exec c s = .next t ∧ rd t F.ORL_CTL_STAT_result = 2 ∧ rd t F.ORL_CTL_CMD_op = op ∧ t = { s with reg := t.reg } ∧
        regsKept s t [F.ORL_CTL_CMD_op.off, F.ORL_CTL_STAT_result.off]) ∧
    (isManager s = true → s.orl.ctl = none → ¬bad →
      ∃ t r, exec c s = .next t ∧ rd t F.ORL_CTL_STAT_running = 1 ∧ t.orl.ctl = some r ∧ memKept s t ∧ t.orl.seq = (s.orl.seq + 1) % 2 ^ 32 ∧
        r.op = op ∧ r.addr = rd s F.ORL_CTL_ADDR_addr ∧ r.data = rd s F.ORL_CTL_DATA_data ∧
        r.pic = rd64 s F.ORL_CTL_PIC_LO_pic F.ORL_CTL_PIC_HI_pic ∧ r.seq = s.orl.seq ∧ r.tries = rd s F.ORL_CTL_CFG_retries ∧ r.at_ = s.tick ∧
        r.bad = [] ∧ r.open_ = (if rd s F.ORL_CTL_CMD_bcast = 1 then (List.range (nDev s)).filter (fun p => p != 0)
          else [rd s F.ORL_CTL_CMD_dst]) ∧
        (op = 4 → rd s F.ORL_CTL_CMD_self = 1 → (∃ τ, commitTick s r.pic = some τ ∧ s.tick ≤ τ) → r.pic ∈ t.orl.commits))) ∧
  (∀ (s : State) (x : Bool) (bs pay : List Byte) (r : CtlReq) (st : Nat), isManager s = true → heard s (portNo x) 5 bs → firstCopy s bs →
    pay = (parseFrame bs).pay → st = leAt pay 0 1 → s.orl.ctl = some r → leAt pay 4 4 = r.seq → (parseFrame bs).src ∈ r.open_ →
    ∃ t, exec (.ctlRspRx x bs) s = .next t ∧
      (st = 0 → r.op = 1 ∨ r.op = 3 → rd t F.ORL_CTL_DATA_data = leAt pay 8 4) ∧
      (r.open_.filter (fun p => p != (parseFrame bs).src) = [] → t.orl.ctl = none ∧ rd t F.ORL_CTL_STAT_running = 0 ∧
        rd t F.ORL_CTL_STAT_result = (if r.nak = true ∨ st = 4 then 4 else if r.late = true ∨ st = 3 then 3 else 0)) ∧
      (r.open_.filter (fun p => p != (parseFrame bs).src) ≠ [] → ∃ r', t.orl.ctl = some r' ∧ r'.seq = r.seq ∧ r'.op = r.op ∧
        r'.open_ = r.open_.filter (fun p => p != (parseFrame bs).src) ∧
        r'.bad = (if st = 0 then r.bad else (parseFrame bs).src :: r.bad))) ∧
  (∀ (s : State) (r : CtlReq), s.orl.ctl = some r →
    ∃ t, exec .ctlTimeout s = .next t ∧ t.tick = max s.tick (r.at_ + rd s F.ORL_CTL_CFG_timeout_us * Config.tickUs) ∧ memKept s t ∧
      (0 < r.tries → t.orl.ctl = some { r with tries := r.tries - 1, at_ := t.tick } ∧ t.reg = s.reg) ∧
      (r.tries = 0 → t.orl.ctl = none ∧ rd t F.ORL_CTL_STAT_running = 0 ∧
        rd t F.ORL_CTL_STAT_result = (if r.nak = true then 4 else if r.late = true then 3 else 1))) ∧
  (∀ s : State, s.orl.ctl = none → exec .ctlTimeout s = .next s) ∧
  (∀ (s : State) (x : Bool) (bs pay : List Byte), isWorker s = true → heard s (portNo x) 4 bs → firstCopy s bs → (parseFrame bs).src = 0 →
    pay = (parseFrame bs).pay →
    (leAt pay 0 1 = 4 → ∃ t, exec (.ctlReqRx x bs) s = .next t ∧
      ((∃ τ, commitTick s (leAt pay 16 8) = some τ ∧ s.tick ≤ τ) → t.orl.commits = s.orl.commits ++ [leAt pay 16 8] ∧
        getAnswer t (parseFrame bs) = some (0, 0)) ∧
      ((∀ τ, commitTick s (leAt pay 16 8) = some τ → τ < s.tick) → t.orl.commits = s.orl.commits ∧
        getAnswer t (parseFrame bs) = some (3, 0))) ∧
    (5 ≤ leAt pay 0 1 ∨ (leAt pay 0 1 ≤ 1 ∧ 0x1000000 ≤ leAt pay 4 4) ∨ (leAt pay 0 1 = 0 ∧ isProtReg (leAt pay 4 4) = true) ∨
        ((leAt pay 0 1 = 2 ∨ leAt pay 0 1 = 3) ∧ (0x7FFFC < leAt pay 4 4 ∨ leAt pay 4 4 % 4 ≠ 0)) →
      ∃ t, exec (.ctlReqRx x bs) s = .next t ∧ getAnswer t (parseFrame bs) = some (4, 0) ∧ memKept s t)) ∧
  (∀ (s : State) (x : Bool) (bs : List Byte), heard s (portNo x) 4 bs → frameMine s (parseFrame bs) = true →
    frameSeen s (parseFrame bs) = true → ∃ t, exec (.ctlReqRx x bs) s = .next t ∧ t = { s with orl := t.orl } ∧ t.orl.commits = s.orl.commits) ∧
  (∀ (s : State) (n : Nat), n ∈ s.orl.commits → (∀ m ∈ s.orl.commits, n ≤ m) →
    exec .commitAtTick s = .next (match commitTick s n with
      | some τ => commitGo (reach { s with orl.commits := s.orl.commits.filter (fun m => m != n) } τ)
      | none => { s with orl.commits := s.orl.commits.filter (fun m => m != n) })) ∧
  (∀ s : State, s.orl.commits = [] → exec .commitAtTick s = .next s)

/-- The manager delivers workers' events in order, counts lost ones, and runs its distributions. Rests on R359, R372, R373, R375, R378, R379,
R380. Its conclusion is exec … = .next t, with the own effect of: eventFrameRx, eventHoldTimeout, verRspRx, verRetryTimeout, nackRx,
orlTxGo. -/
def Obligations.ManagerTakesEventsAndVersions : Prop :=
  (∀ (s : State) (x : Bool) (bs : List Byte) (f : TxFrame) (w : WorkerRx), heard s (portNo x) 6 bs → firstCopy s bs → f = parseFrame bs →
    workerRx s f.src = w →
    (isManager s = true → f.src ≠ 0 → w.got = [] → w.held = [] →
      (f.seq = w.next → ∃ t, exec (.eventFrameRx x bs) s = .next t ∧ workerRx t f.src = { w with next := (w.next + 1) % 2 ^ 32 } ∧
        delivered t f.src f.pay ∧ memKept s t ∧ t.reg = s.reg) ∧
      (f.seq ≠ w.next → aheadOf w f.seq < 2 ^ 31 → ∃ t, exec (.eventFrameRx x bs) s = .next t ∧ t.evt = s.evt ∧ memKept s t ∧
        workerRx t f.src = { w with got := [f.seq], held := [(f.seq, s.tick, f.pay)] }) ∧
      (2 ^ 31 ≤ aheadOf w f.seq → ∃ t, exec (.eventFrameRx x bs) s = .next t ∧ t.evt = s.evt ∧ memKept s t ∧
        t.orl.workers = s.orl.workers)) ∧
    (∀ (at_ : Nat) (p : List Byte), isManager s = true → f.src ≠ 0 → f.seq = w.next → f.seq + 1 < 2 ^ 32 → w.got = [f.seq + 1] →
      w.held = [(f.seq + 1, at_, p)] → ∃ t, exec (.eventFrameRx x bs) s = .next t ∧ delivered t f.src f.pay ∧ delivered t f.src p ∧
        workerRx t f.src = { w with next := (f.seq + 2) % 2 ^ 32, got := [], held := [] }) ∧
    (isManager s = false ∨ f.src = 0 → ∃ t, exec (.eventFrameRx x bs) s = .next t ∧ t.evt = s.evt ∧ t.orl.workers = s.orl.workers ∧
      t.reg = s.reg ∧ memKept s t)) ∧
  (∀ (s : State) (x : Bool) (bs : List Byte), heard s (portNo x) 6 bs → frameMine s (parseFrame bs) = true →
    frameSeen s (parseFrame bs) = true →
    ∃ t, exec (.eventFrameRx x bs) s = .next t ∧ t = { s with reg := t.reg, now := t.now } ∧ regsKept s t [F.ORL_CNT_MISC_dup.off] ∧
      rd t F.ORL_CNT_MISC_dup = counted s F.ORL_CNT_MISC_dup) ∧
  (∀ (s : State) (w : WorkerRx) (q at_ : Nat) (pay : List Byte), s.orl.workers = [w] → w.held = [(q, at_, pay)] → w.got = [q] → q ≠ w.next →
    q < 2 ^ 32 → w.next < 2 ^ 32 →
    ∃ t, exec .eventHoldTimeout s = .next t ∧ t.tick = max s.tick (at_ + rd s F.ORL_EVT_CFG_hold_us * Config.tickUs) ∧
      rd t F.ORL_CNT_EVT_lost = min (rd s F.ORL_CNT_EVT_lost + aheadOf w q) (2 ^ F.ORL_CNT_EVT_lost.w - 1) ∧
      posted t clsWarning blkORL 0 F.ORL_CNT_EVT_lost [] ∧ delivered t w.pos pay ∧
      workerRx t w.pos = { w with next := (q + 1) % 2 ^ 32, got := [], held := [] } ∧ regsKept s t [F.ORL_CNT_EVT_lost.off] ∧ memKept s t) ∧
  (∀ s : State, (∀ w ∈ s.orl.workers, w.held = []) → exec .eventHoldTimeout s = .next s) ∧
  (∀ (s : State) (x : Bool) (bs pay : List Byte) (d : Dist) (c : Nat), heard s (portNo x) 8 bs → firstCopy s bs → pay = (parseFrame bs).pay →
    c = leAt pay 4 1 → s.orl.dists = [d] →
    (d.vid = leAt pay 0 4 → d.dst = (parseFrame bs).src →
      ∃ t, exec (.verRspRx x bs) s = .next t ∧ memKept s t ∧
        (c = 0 → d.accepted = false → t.orl.dists = [{ d with accepted := true, retryAt := none, waits := false }] ∧
          (∀ k, d.waits = true → d.ready = [k] → (∃ b ∈ d.blocks, b.1 = k) → t.orl.seq = (s.orl.seq + 1) % 2 ^ 32) ∧
          (d.waits = false → t.orl.seq = s.orl.seq) ∧ (d.rule = none → rd t F.ORL_TX_STAT_result = 0)) ∧
        (c = 0 → d.accepted = true → t.orl.dists = [d] ∧ t.reg = s.reg) ∧
        (c = 1 ∨ c = 4 → d.rule.isSome = true →
          t.orl.dists = [{ d with retryAt := some (s.tick + rd s F.ORL_DIST_CFG_retry_us * Config.tickUs), waits := true }]) ∧
        (c = 1 ∨ c = 4 → d.rule = none → t.orl.dists = [] ∧ rd t F.ORL_TX_STAT_result = c ∧ rd t F.ORL_TX_STAT_running = 0 ∧
          rd t F.ORL_TX_STAT_busy_bx = leAt pay 6 1 ∧ rd t F.ORL_TX_STAT_busy_by = leAt pay 7 1) ∧
        (c = 2 ∨ c = 3 ∨ c = 5 ∨ c = 6 → t.orl.dists = [] ∧
          (d.rule = none → rd t F.ORL_TX_STAT_result = c ∧ rd t F.ORL_TX_STAT_running = 0 ∧
            (c ≠ 5 → posted t clsError blkORL 0 F.ORL_TX_STAT_result [])) ∧
          (∀ r, d.rule = some r → c ≠ 5 → posted t clsError blkORL 0 (F.ORL_DIST_SRC_en r) [])) ∧
        (6 < c → t.orl.dists = [d] ∧ t.reg = s.reg)) ∧
    (d.vid ≠ leAt pay 0 4 ∨ d.dst ≠ (parseFrame bs).src →
      ∃ t, exec (.verRspRx x bs) s = .next t ∧ t.orl.dists = [d] ∧ t.reg = s.reg ∧ memKept s t)) ∧
  (∀ (s : State) (d : Dist) (r : Nat), s.orl.dists = [d] → d.retryAt = some r →
    ∃ t, exec .verRetryTimeout s = .next t ∧ t.tick = max s.tick r ∧ t.orl.dists = [{ d with retryAt := none }] ∧
      t.orl.seq = (s.orl.seq + 1) % 2 ^ 32 ∧ t.reg = s.reg ∧ memKept s t ∧
      ∀ x ∈ distPorts d, idlePort s x → (oport t x).sending = some (frameBytes (ownFrame s 7 false d.dst []) (leBytes d.vid 4 ++ d.ver))) ∧
  (∀ s : State, (∀ d ∈ s.orl.dists, d.retryAt = none) → exec .verRetryTimeout s = .next s) ∧
  (∀ (s : State) (x : Bool) (bs pay : List Byte) (d : Dist) (key a : Nat), heard s (portNo x) 10 bs → firstCopy s bs → pay = (parseFrame bs).pay →
    s.orl.dists = [d] → key = 65536 * leAt pay 4 1 + 256 * leAt pay 6 1 + leAt pay 5 1 →
    (d.vid = leAt pay 0 4 → d.dst = (parseFrame bs).src → d.blocks.find? (fun b => b.1 = key) = some (key, a) →
      ∃ t, exec (.nackRx x bs) s = .next t ∧ t.orl.seq = (s.orl.seq + 1) % 2 ^ 32 ∧ t.orl.dists = [d] ∧ t.reg = s.reg ∧ memKept s t ∧
        ((parseFrame bs).bcast = false → ∀ y ∈ distPorts d, idlePort s y → (oport t y).sending = some (blockFrame s d key a))) ∧
    (d.vid ≠ leAt pay 0 4 ∨ d.dst ≠ (parseFrame bs).src ∨ (∀ b ∈ d.blocks, b.1 ≠ key) →
      ∃ t, exec (.nackRx x bs) s = .next t ∧ t.orl.seq = s.orl.seq ∧ t.orl.dists = [d] ∧ t.reg = s.reg ∧ memKept s t)) ∧
  (∀ (s : State) (v : VerDesc) (dst : Nat), served s F.ORL_TX_GO_go.off true → isManager s = true → rd s F.ORL_TX_STAT_running = 0 →
    v = verDesc ((List.range 8).map (fun k => rd s (F.ORL_TX_DESC_word k))) → dst = rd s F.ORL_TX_DST_dst →
    (∀ c, c = (if verInvalid s v = true ∨ dst = 0 ∨ nDev s ≤ dst then 2 else if (surf s v.surface).prot = true then 7
        else if reachable s dst = false then 8 else 0) → c ≠ 0 →
      ∃ t, exec .orlTxGo s = .next t ∧ rd t F.ORL_TX_STAT_result = c ∧ t = { s with reg := t.reg } ∧
        regsKept s t [F.ORL_TX_STAT_result.off]) ∧
    (verInvalid s v = false → dst ≠ 0 → dst < nDev s → (surf s v.surface).prot = false → reachable s dst = true →
      ∃ t d, exec .orlTxGo s = .next t ∧ rd t F.ORL_TX_STAT_running = 1 ∧ t.orl.dists = s.orl.dists ++ [d] ∧ d.vid = s.orl.vid ∧
        d.rule = none ∧ d.dst = dst ∧ d.surface = v.surface ∧ d.blocks = rectPlaneBlocks (surf s v.surface) v.sbx0 v.sby0 v.w v.h ∧
        d.ready = d.blocks.map (fun b => b.1) ∧ d.accepted = false ∧ d.waits = false ∧ d.port = distPort s dst ∧
        t.orl.vid = (s.orl.vid + 1) % 2 ^ 32 ∧ t.orl.seq = (s.orl.seq + 1 + d.blocks.length) % 2 ^ 32 ∧ memKept s t ∧
        ∀ x ∈ distPorts d, idlePort s x → (oport t x).sending = some (frameBytes (ownFrame s 7 false dst []) (leBytes d.vid 4 ++ d.ver)))) ∧
  (∀ s : State, served s F.ORL_TX_GO_go.off true → isManager s = false ∨ rd s F.ORL_TX_STAT_running = 1 → exec .orlTxGo s = .next s)

/-- A worker accepts or refuses a version, stores its blocks as they verify, withdraws stalled ones; ports send by precedence. Rests on R358,
R377, R378. Its conclusion is exec … = .next t, with the own effect of: verRx, blockRx, orsalBlockChecked, rxStallTimeout, orsalFrameSent. -/
def Obligations.WorkerReceivesVersions : Prop :=
  (∀ (s : State) (x : Bool) (bs pay : List Byte), isWorker s = true → heard s (portNo x) 7 bs → firstCopy s bs → pay = (parseFrame bs).pay →
    ((∃ r ∈ s.orl.rx, r.vid = leAt pay 0 4) → ∃ t, exec (.verRx x bs) s = .next t ∧ t.blq = s.blq ∧ memKept s t ∧
      t.orl.rx.map (fun r => r.id) = s.orl.rx.map (fun r => r.id) ∧ ∃ r ∈ t.orl.rx, r.vid = leAt pay 0 4 ∧ r.lastAt = s.tick) ∧
    ((∀ r ∈ s.orl.rx, r.vid ≠ leAt pay 0 4) → (∃ e ∈ s.orl.ended, e.1 = leAt pay 0 4) → ∃ t, exec (.verRx x bs) s = .next t ∧
      t.orl.rx = s.orl.rx ∧ t.orl.ended = s.orl.ended ∧ t.blq = s.blq ∧ t.reg = s.reg ∧ memKept s t) ∧
    ((∀ r ∈ s.orl.rx, r.vid ≠ leAt pay 0 4) → (∀ e ∈ s.orl.ended, e.1 ≠ leAt pay 0 4) →
      (∀ c b, verRefusal (resolveDue s) pay = some (c, b) → ∃ t, exec (.verRx x bs) s = .next t ∧ t.orl.rx = s.orl.rx ∧
        t.blq = (resolveDue s).blq ∧ memKept s t ∧ regsKept s t [F.BLQ_BUSY_CNT_orsal.off] ∧ (c ≠ 1 → t.reg = s.reg)) ∧
      (verRefusal (resolveDue s) pay = none → ∃ t r, exec (.verRx x bs) s = .next t ∧ t.orl.rx = s.orl.rx ++ [r] ∧ r.vid = leAt pay 0 4 ∧
        r.id = s.blq.nextId ∧ r.surface = rxSurf (resolveDue s) ∧ r.fails = [] ∧ r.lastAt = s.tick ∧ t.blq.orsalAcc = true ∧
        t.blq.orsalLast = (rxVer s pay).token ∧
        (∀ b ∈ rectBlocks (rxVer s pay), ∃ e ∈ queueOf t (blkKey b.1 b.2), e.id = r.id ∧ e.source = 6 ∧ e.compAt = none)))) ∧
  (∀ (s : State) (x : Bool) (bs pay : List Byte) (key : Nat), isWorker s = true → heard s (portNo x) 9 bs → firstCopy s bs →
    pay = (parseFrame bs).pay → key = 65536 * leAt pay 4 1 + 256 * leAt pay 6 1 + leAt pay 5 1 →
    ((∀ r ∈ s.orl.rx, r.vid ≠ leAt pay 0 4) → ∃ t, exec (.blockRx x bs) s = .next t ∧ t.cdc = s.cdc ∧ memKept s t ∧
      rd t F.ORL_CNT_RX_unknown = counted s F.ORL_CNT_RX_unknown) ∧
    (∀ r, s.orl.rx = [r] → r.vid = leAt pay 0 4 →
      (key ∈ r.left → ∃ t q, exec (.blockRx x bs) s = .next t ∧ (q ∈ t.cdc.decWait ∨ some q ∈ t.cdc.decLanes) ∧ q.user = 3 ∧
        q.tag = .orsal (leAt pay 0 4) key ∧ q.bytes = some (pay.drop 16) ∧ t.orl.rx = [{ r with lastAt := s.tick }] ∧ memKept s t) ∧
      (key ∉ r.left → ∃ t, exec (.blockRx x bs) s = .next t ∧ t.cdc = s.cdc ∧ t.orl.rx = [{ r with lastAt := s.tick }] ∧ memKept s t))) ∧
  (∀ (s : State) (lane : Fin 16) (upset : Bool) (q : DecReq) (r : RxVer) (key : Nat), s.cdc.decLanes.getD lane none = some q →
    q.tag = .orsal r.vid key → s.orl.rx = [r] → key ∈ r.left →
    ∃ t, exec (.orsalBlockChecked lane upset) s = .next t ∧ t.lst = s.lst ∧ t.flash = s.flash ∧ t.nvm = s.nvm ∧
      (∀ a b, (finishDec s lane q upset).1 = .ok a b → t.orl.rx = [{ r with left := r.left.filter (fun k => k != key) }] ∧
        (q.addr + (q.bytes.getD []).length ≤ memCap s → gddrRd t q.addr (q.bytes.getD []).length = q.bytes.getD [])) ∧
      (∀ e, (finishDec s lane q upset).1 = .err e → rd t F.ORL_CNT_RX_berr = counted s F.ORL_CNT_RX_berr ∧ t.gddr = s.gddr)) ∧
  (∀ (s : State) (lane : Fin 16) (upset : Bool), s.cdc.decLanes.getD lane none = none → exec (.orsalBlockChecked lane upset) s = .next s) ∧
  (∀ (s : State) (r : RxVer), s.orl.rx = [r] →
    ∃ t, exec .rxStallTimeout s = .next t ∧ t.tick = max s.tick (r.lastAt + rd s F.ORL_RX_CFG_stall_us * Config.tickUs) ∧ t.orl.rx = [] ∧
      rd t F.ORL_CNT_RX_withdrawn = counted s F.ORL_CNT_RX_withdrawn ∧ posted t clsError blkORL 0 F.ORL_CNT_RX_withdrawn [] ∧
      (r.vid, 6) ∈ t.orl.ended ∧ memKept s t) ∧
  (∀ s : State, s.orl.rx = [] → exec .rxStallTimeout s = .next s) ∧
  (∀ (s m : State) (x : Bool) (b : List Byte), (oport s (portNo x)).sending = some b → isManager s = true →
    m = reach s ((oport s (portNo x)).lineAt + blockTicks (oport s (portNo x)).blk) →
    ((oport s (portNo x)).queue = [] → ∃ t, exec (.orsalFrameSent x) s = .next t ∧ t.tick = m.tick ∧ (oport t (portNo x)).sending = none ∧ t.reg = s.reg ∧
      memKept s t) ∧
    (∀ f, f ∈ (oport s (portNo x)).queue → (∀ g ∈ (oport s (portNo x)).queue, f.prec ≤ g.prec ∧ stale m g = false) →
      ∃ t g k, exec (.orsalFrameSent x) s = .next t ∧ k < 64 ∧ (g.stamp = .none → k = 0) ∧ t.tick = m.tick ∧ g ∈ (oport s (portNo x)).queue ∧ g.prec = f.prec ∧
        (oport t (portNo x)).sending = some (frameBytes g (leavingPay m g ((64 * m.tick + k) % 2 ^ 64))) ∧
        (∃ i, (oport t (portNo x)).line = (lineBlocks i (frameBlocks (frameBytes g (leavingPay m g ((64 * m.tick + k) % 2 ^ 64))))).1) ∧
        (oport t (portNo x)).queue.length + 1 = (oport s (portNo x)).queue.length ∧ t.reg = s.reg ∧ memKept s t)) ∧
  (∀ (s : State) (x : Bool), (oport s (portNo x)).sending = none → exec (.orsalFrameSent x) s = .next s)

/-- Reads and writes of the frame memory are checked, counted and recorded; scrub and retraining go round. Rests on R391, R393, R394, R395,
R398, R399, R400, R401. Its conclusion is exec … = .next t, with the own effect of: retrainingSlot, g6ReadDone, g6WriteDone, scrubRead,
retrainOverdue, refreshLimit, requestPromotion. -/
def Obligations.FrameMemoryChecksAndRetraining : Prop :=
  (∀ (s : State) (c v : Nat), outputsRun s = true → c < 8 → chanInUse s c = true →
    (∀ d, d < 8 → chanInUse s d = true → s.mem.trainAt.getD c 0 ≤ s.mem.trainAt.getD d 0 ∧
      (d < c → s.mem.trainAt.getD c 0 < s.mem.trainAt.getD d 0)) →
    blankingSlot s (max (max s.tick (s.mem.trainAt.getD c 0 + rd s F.MEM_TRAIN_period_ms * Config.tickMs))
      ((s.mem.slot.map (fun x => x.2)).getD 0)) (1500 * rd s F.MEM_TRAIN_slot) = some v →
    ∃ t, exec .retrainingSlot s = .next t ∧
      t = { s with reg := t.reg, tick := max s.tick v,
                   mem := { s.mem with trainAt := s.mem.trainAt.set c (max s.tick v), slot := some (c, max s.tick v + 1500 * rd s F.MEM_TRAIN_slot) } } ∧
      regsKept s t [F.MEM_STATUS_overdue.off] ∧
      ∀ d, d < 8 → bitOf t F.MEM_STATUS_overdue d = (bitOf s F.MEM_STATUS_overdue d && d != c)) ∧
  (∀ (s : State) (c : Nat), slotChannel s = some c →
    blankingSlot s (max (max s.tick (s.mem.trainAt.getD c 0 + rd s F.MEM_TRAIN_period_ms * Config.tickMs))
      ((s.mem.slot.map (fun x => x.2)).getD 0)) (1500 * rd s F.MEM_TRAIN_slot) = none →
    exec .retrainingSlot s = .next s) ∧
  (∀ s : State, outputsRun s = false ∨ (∀ c, c < 8 → chanInUse s c = false) → exec .retrainingSlot s = .next s) ∧
  (∀ (s : State) (c : Fin 8),
    (outputsRun s = true → chanInUse s c = true → bitOf s F.MEM_STATUS_overdue c = false →
      ∃ t, exec (.retrainOverdue c) s = .next t ∧ bitOf t F.MEM_STATUS_overdue c = true ∧ memKept s t ∧
        posted t clsWarning blkMEM c F.MEM_STATUS_overdue [] ∧ regsKept s t [F.MEM_STATUS_overdue.off] ∧
        t.tick = max s.tick (max (s.mem.trainAt.getD c 0) (s.psq.onAt.getD 0) +
          (rd s F.MEM_TRAIN_period_ms + rd s F.MEM_TRAIN_max_ms) * (Config.tickHz / 1000))) ∧
    (outputsRun s = false ∨ chanInUse s c = false ∨ bitOf s F.MEM_STATUS_overdue c = true → exec (.retrainOverdue c) s = .next s)) ∧
  (∀ (s m : State) (cls : Fin 9) (a : BitVec 40) (misses : Fin 17) (e : Ecc), m = memServe s a.toNat →
    ∃ t, exec (.g6ReadDone cls a misses e) s = .next t ∧ memKept s t ∧
    (memCap s ≤ a.toNat → rd t F.MEM_ERR_INFO_kind = 4 ∧ rd t F.MEM_ERR_INFO_class = cls.val ∧
      posted t clsError blkMEM 0 F.MEM_ERR_INFO_kind [] ∧ t.mem = s.mem) ∧
    (a.toNat < memCap s → t.tick = m.tick ∧ maskHas t.mem.refresh (memChan s a.toNat) = false ∧
      (∀ b, s.mem.slot = some (memChan s a.toNat, b) → t.tick = max s.tick b) ∧
      (∀ q, (memOrder s (memChan s a.toNat)).find? (fun q => laneReads s q.lane a.toNat) = some q → t.mem.waiting = eraseOne q s.mem.waiting) ∧
      rd t F.MEM_EDC_CNT_retries =
        min (rd s F.MEM_EDC_CNT_retries + min misses.val (rd s F.MEM_EDC_retries)) (2 ^ F.MEM_EDC_CNT_retries.w - 1) ∧
      (rd s F.MEM_EDC_retries < misses.val → rd t F.MEM_EDC_CNT_failed = counted s F.MEM_EDC_CNT_failed ∧ rd t F.MEM_ERR_INFO_kind = 2 ∧
        rd t F.MEM_ERR_INFO_class = cls.val ∧ rd t F.MEM_ERR_ADDR_LO_addr + 2 ^ 32 * rd t F.MEM_ERR_ADDR_HI_addr = a.toNat ∧
        (∀ l, l < 16 → (l ∈ t.mem.bad ↔ l ∈ s.mem.bad ∨ laneReads s l a.toNat = true)) ∧
        ((∀ l, l < 16 → laneReads s l a.toNat = false) → sget false t.mem.spent (16 * (a.toNat / 64) + cls.val) = true)) ∧
      (misses.val ≤ rd s F.MEM_EDC_retries → sget false t.mem.spent (16 * (a.toNat / 64) + cls.val) = false) ∧
      (misses.val ≤ rd s F.MEM_EDC_retries → sget false s.mem.gpoison (a.toNat / 64) = false →
        (e = .clean → regsKept s t [F.MEM_EDC_CNT_retries.off] ∧ t = { m with reg := t.reg, now := t.now, mem.spent := t.mem.spent }) ∧
        (e = .single → rd t F.MEM_ECC_CNT_corrected = counted s F.MEM_ECC_CNT_corrected ∧
          t = { m with reg := t.reg, now := t.now, mem.spent := t.mem.spent })) ∧
      (misses.val ≤ rd s F.MEM_EDC_retries → e = .double ∨ sget false s.mem.gpoison (a.toNat / 64) = true →
        rd t F.MEM_ECC_CNT_uncorrected = counted s F.MEM_ECC_CNT_uncorrected ∧ bitOf t F.EVT_ALARM_alarm almG6_UNC = true ∧
        sget false t.mem.gpoison (a.toNat / 64) = true ∧ rd t F.MEM_ERR_INFO_kind = 1 ∧
        posted t clsError blkMEM 0 F.MEM_ECC_CNT_uncorrected []))) ∧
  (∀ (s : State) (cls : Fin 9) (a : BitVec 40) (misses : Fin 17), ∃ t, exec (.g6WriteDone cls a misses) s = .next t ∧ memKept s t ∧
    (memCap s ≤ a.toNat → rd t F.MEM_ERR_INFO_kind = 4 ∧ posted t clsError blkMEM 0 F.MEM_ERR_INFO_kind [] ∧ t.mem = s.mem) ∧
    (a.toNat < memCap s → t.mem = (memServe s a.toNat).mem ∧ t.tick = (memServe s a.toNat).tick ∧ rd t F.MEM_EDC_CNT_retries =
      min (rd s F.MEM_EDC_CNT_retries + min misses.val (rd s F.MEM_EDC_retries)) (2 ^ F.MEM_EDC_CNT_retries.w - 1)) ∧
    (a.toNat < memCap s → misses.val ≤ rd s F.MEM_EDC_retries → regsKept s t [F.MEM_EDC_CNT_retries.off] ∧ t.evt = s.evt) ∧
    (a.toNat < memCap s → rd s F.MEM_EDC_retries < misses.val → rd t F.MEM_EDC_CNT_failed = counted s F.MEM_EDC_CNT_failed ∧
      rd t F.MEM_ERR_INFO_kind = 3 ∧ posted t clsError blkMEM 0 F.MEM_EDC_CNT_failed [(a.toNat, 5)])) ∧
  (∀ (s : State) (e : Ecc) (w : Bool),
    (rd s F.MEM_SCRUB_en = 1 → ∃ t, exec (.scrubRead e w) s = .next t ∧ memKept s t ∧
      (e = .double → rd t F.MEM_ECC_CNT_uncorrected = counted s F.MEM_ECC_CNT_uncorrected ∧ rd t F.MEM_ERR_INFO_kind = 1 ∧
        rd t F.MEM_ERR_INFO_class = 8 ∧ bitOf t F.EVT_ALARM_alarm almG6_UNC = true ∧
        (w = false → sget false t.mem.gpoison s.mem.scrubPos = true)) ∧
      (w = true → t.mem.gpoison = s.mem.gpoison) ∧
      (64 * s.mem.scrubPos + 64 < memCap s → t.mem.scrubPos = s.mem.scrubPos + 1) ∧
      (memCap s ≤ 64 * s.mem.scrubPos + 64 → t.mem.scrubPos = 0 ∧ t.mem.scrubAt = s.tick ∧
        rd t F.MEM_SCRUB_STAT_passes = counted s F.MEM_SCRUB_STAT_passes)) ∧
    (rd s F.MEM_SCRUB_en = 0 → exec (.scrubRead e w) s = .next s)) ∧
  (∀ s : State,
    ((∃ c, c < 8 ∧ chanInUse s c = true) → ∃ t c, exec .refreshLimit s = .next t ∧ c < 8 ∧ chanInUse s c = true ∧
      t = { s with fresh := t.fresh, mem.refresh := maskSet s.mem.refresh c true } ∧ memNext t c = none ∧
      ∀ d, d < 8 → d ≠ c → memNext t d = memNext s d) ∧
    ((∀ c, c < 8 → chanInUse s c = false) → exec .refreshLimit s = .next s)) ∧
  (∀ (s : State) (m : MemReq), s.mem.waiting.find? (fun m => decide (5 ≤ memClass s m) && decide (memClass s m ≤ 7)) = some m →
    ∃ t, exec .requestPromotion s = .next t ∧ memClass t { m with promoted := true } = 2 ∧
      t = { s with tick := max s.tick (m.at_ + rd s F.MEM_SCHED_age_us * 1500),
                   mem.waiting := eraseOne m s.mem.waiting ++ [{ m with promoted := true }] }) ∧
  (∀ s : State, s.mem.waiting.find? (fun m => decide (5 ≤ memClass s m) && decide (memClass s m ≤ 7)) = none →
    exec .requestPromotion s = .next s)

/-- An access of the local store reads or writes its bytes, is checked by words, and is refused across a bank. Rests on R402, R403, R404,
R405, R406, R407, R408. Its conclusion is exec … = .next t, with the own effect of: lsAccess, mbxBusyRelease. -/
def Obligations.LocalStoreAccesses : Prop :=
  (∀ (s : State) (r : LsReq) (o n : Nat), r.wellFormed = true → r.strip = false → o = r.off.toNat →
    n = (if r.write then r.data.length else r.len.val) →
    ∃ t, exec (.lsAccess r) s = .next t ∧ t.gddr = s.gddr ∧ t.flash = s.flash ∧ t.nvm = s.nvm ∧
      (∀ b, b = sget BankArb.reset s.mem.arbs (o / 0x40000) →
        (b.wait = [] → r.master.val ≠ 0 → rd t (conflictOf r.master.val) =
          (if r.late then counted s (conflictOf r.master.val) else rd s (conflictOf r.master.val))) ∧
        (∀ k, k < 9 → b.wait = [(k, false)] → b.tick = s.tick → r.late = false → k ≠ r.master.val →
          rd t (conflictOf (if arbRank b.prev k < arbRank b.prev r.master.val then r.master.val else k)) =
            counted s (conflictOf (if arbRank b.prev k < arbRank b.prev r.master.val then r.master.val else k)))) ∧
      (o / 0x40000 ≠ (o + n - 1) / 0x40000 ∨ (0xF80000 ≤ o ∧ r.master.val ≠ 5 ∧ r.master.val ≠ 6) →
        t.lst = s.lst ∧ posted t clsError blkMEM 0 F.MEM_LS_ERR_ADDR_offset []) ∧
      (o / 0x40000 = (o + n - 1) / 0x40000 →
        o < 0xF80000 ∨ (r.master.val = 5 ∧ s.mem.mbxB = []) ∨ (r.master.val = 6 ∧ s.mem.mbxA = []) →
        (r.write = true → lstRd t o n = (if o < 0xF80000 then keepProt s o r.data else r.data) ∧ ∀ a, a < o ∨ o + n ≤ a → sget 0#8 t.lst a = sget 0#8 s.lst a) ∧
        (r.write = false → t.lst = s.lst ∧ t.mem.lsOff = o ∧ t.mem.lsData = lstRd s o n) ∧
        (r.write = false → r.ecc = .single → sget false s.mem.lpoison (o / 8) = false →
          rd t F.MEM_LS_ECC_corrected = counted s F.MEM_LS_ECC_corrected) ∧
        (r.write = false → r.ecc = .double → sget false t.mem.lpoison (o / 8) = true ∧ t.mem.lsEp = true ∧
          bitOf t F.EVT_ALARM_alarm almLS_UNC = true))) ∧
  (∀ (s : State) (r : LsReq), r.strip = true →
    ∃ t, exec (.lsAccess r) s = .next t ∧ memKept s t ∧ t.mem = s.mem ∧
      (r.write = false → r.ecc = .single → rd t F.MEM_LS_ECC_corrected = counted s F.MEM_LS_ECC_corrected) ∧
      (r.write = false → r.ecc = .double → rd t F.MEM_LS_ECC_uncorrected = counted s F.MEM_LS_ECC_uncorrected ∧
        rd t F.MEM_LS_ERR_ADDR_strip = 1)) ∧
  (∀ (s : State) (b : Nat), s.mem.busyTo = some b →
    ∃ t, exec .mbxBusyRelease s = .next t ∧ t = { s with tick := max s.tick b, mem.busyTo := none }) ∧
  (∀ s : State, s.mem.busyTo = none → exec .mbxBusyRelease s = .next s)

/-- The four flash commands start or wait, and end with their result and exactly their bytes moved. Rests on R276, R414, R437. Its conclusion
is exec … = .next t, with the own effect of: xfRead, xfProgram, xfErase4k, xfErase64k, xfDone. -/
def Obligations.FlashCommandsMoveBytes : Prop :=
  (∀ (s : State) (c : Instr) (op : Nat), served s F.NVM_XF_CMD_go.off true →
    (c, op) ∈ [(Instr.xfRead, 0), (.xfProgram, 1), (.xfErase4k, 2), (.xfErase64k, 3)] →
    ∃ t, exec c s = .next t ∧ rd t F.NVM_XF_CMD_op = op ∧ rd t F.NVM_XF_STAT_busy = 1 ∧ memKept s t ∧
      regsKept s t [F.NVM_XF_CMD_op.off, F.NVM_XF_STAT_busy.off] ∧
      (s.nv.xf = none → s.nv.xfHeld = [] → s.age.ckpt = none → t.nv = { s.nv with xf := some (xfOf s op) }) ∧
      (s.nv.xf.isSome = true ∨ s.age.ckpt.isSome = true → t.nv = { s.nv with xfHeld := s.nv.xfHeld ++ [xfOf s op] })) ∧
  (∀ (s : State) (op : Nat), op < 4 → (xfOf s op).op = op ∧ (xfOf s op).addr = rd s F.NVM_XF_ADDR_addr ∧
    (xfOf s op).len = rd s F.NVM_XF_LEN_len_m1 + 1 ∧ (xfOf s op).buf = rd s F.NVM_XF_BUF_offset ∧
    (s.nv.flashSize < (xfSpan op (rd s F.NVM_XF_ADDR_addr) (rd s F.NVM_XF_LEN_len_m1 + 1)).1 +
      (xfSpan op (rd s F.NVM_XF_ADDR_addr) (rd s F.NVM_XF_LEN_len_m1 + 1)).2 → (xfOf s op).result = 1)) ∧
  (∀ (s : State) (err : Bool) (j : XfJob), s.nv.xf = some j → s.age.held = none →
    ∃ t, exec (.xfDone err) s = .next t ∧ t.gddr = s.gddr ∧ t.nvm = s.nvm ∧
      (s.nv.xfHeld = [] → t.nv.xf = none ∧ rd t F.NVM_XF_STAT_busy = 0) ∧
      rd t F.NVM_XF_STAT_result = (if j.result ≠ 0 then j.result % 8 else if err = true then 2 else 0) ∧
      (j.result ≠ 0 → t.lst = s.lst ∧ t.flash = s.flash) ∧
      (∀ k r, s.nv.xfHeld = k :: r → s.age.ckpt = none → t.nv.xfHeld = r ∧
        t.nv.xf = some { k with result := xfResult t k.op k.addr k.len k.buf }) ∧
      (j.result = 0 → err = false → j.op = 0 → j.buf + j.len ≤ mbxBase → t.flash = s.flash ∧ lstRd t j.buf j.len = keepProt s j.buf (flashRd s j.addr j.len) ∧
        ∀ a, a < j.buf ∨ j.buf + j.len ≤ a → sget 0#8 t.lst a = sget 0#8 s.lst a) ∧
      (j.result = 0 → err = false → j.op = 1 → t.lst = s.lst ∧ flashRd t j.addr j.len = lstRd s j.buf j.len ∧
        ∀ a, a < j.addr ∨ j.addr + j.len ≤ a → sget 0xFF#8 t.flash a = sget 0xFF#8 s.flash a) ∧
      (j.result = 0 → err = false → 2 ≤ j.op → t.lst = s.lst ∧ ∀ a, sget 0xFF#8 t.flash a =
        if (xfSpan j.op j.addr j.len).1 ≤ a ∧ a < (xfSpan j.op j.addr j.len).1 + (xfSpan j.op j.addr j.len).2 then 0xFF#8
        else sget 0xFF#8 s.flash a) ∧
      (j.result = 0 → err = true →
        (j.op = 0 → t.flash = s.flash ∧ ∀ a, a < j.buf ∨ j.buf + j.len ≤ a → sget 0#8 t.lst a = sget 0#8 s.lst a) ∧
        (j.op ≠ 0 → t.lst = s.lst ∧ ∀ a, a < (xfSpan j.op j.addr j.len).1 ∨
          (xfSpan j.op j.addr j.len).1 + (xfSpan j.op j.addr j.len).2 ≤ a → sget 0xFF#8 t.flash a = sget 0xFF#8 s.flash a))) ∧
  (∀ (s : State) (err : Bool), s.nv.xf = none → exec (.xfDone err) s = .next s)

/-- Page reads fill the buffer; page writes program group by group; scrub journals and rewrites weak groups. Rests on R422, R423, R424, R426,
R427, R435, R437. Its conclusion is exec … = .next t, with the own effect of: nvmPageRead, nvmPageWrite, nvmGroupProgrammed, nvmScrubPage. -/
def Obligations.NvmPagesAreReadAndProgrammed : Prop :=
  (∀ (s : State) (page : BitVec 12) (cor unc : BitVec 8), served s F.NVM_ACC_go.off true → s.nv.jobs = [] → s.nv.waiting = [] →
    s.nv.reading = none →
    ∃ t, exec (.nvmPageRead page cor unc) s = .next t ∧ rd t F.NVM_ACC_page = page.toNat ∧ nvmBuf t = nvmBuf s ∧
      (nvmCheck s page.toNat false = 0 → rd t F.NVM_ACC_STAT_busy = 1 ∧
        t = { s with reg := t.reg, nv.reading := some (max s.tick 3000 + 300, page.toNat, cor.toNat, unc.toNat) }) ∧
      (nvmCheck s page.toNat false ≠ 0 → rd t F.NVM_ACC_STAT_busy = 0 ∧ t = { s with reg := t.reg } ∧
        rd t F.NVM_ACC_STAT_result = nvmCheck s page.toNat false)) ∧
  (∀ (s : State) (d p c u : Nat), s.pending = [] → s.evt.posted = [] → s.nv.reading = some (d, p, c, u) → d ≤ s.tick + 1 → s.nv.jobs = [] →
    s.nv.waiting = [] →
    ∃ t, step s = .next t ∧ t = { s with tick := s.tick + 1, reg := t.reg, now := t.now, nv.reading := none } ∧
      rd t F.NVM_ACC_STAT_busy = 0 ∧ (∀ i, i < 64 → (nvmBuf t).getD i 0#8 = (pageBytes s p).getD i 0#8) ∧
      (∀ g, g < 8 → bitOf t F.NVM_ACC_STAT_unc g = (u.testBit g || grpEcc s p g == 2)) ∧
      rd t F.NVM_ACC_STAT_result = (if rd t F.NVM_ACC_STAT_unc = 0 then 0 else 4)) ∧
  (∀ (s : State) (page : BitVec 12) (off lenM1 : BitVec 6), served s F.NVM_ACC_go.off true → s.nv.jobs = [] → s.nv.waiting = [] →
    s.nv.reading = none →
    ∃ t, exec (.nvmPageWrite page off lenM1) s = .next t ∧ memKept s t ∧
      (nvmCheck s page.toNat true = 0 → rd t F.NVM_ACC_STAT_busy = 1 ∧ t.nv.jobs =
        [mkJob page.toNat off.toNat ((nvmBuf s).take (lenM1.toNat + 1)) .host]) ∧
      (nvmCheck s page.toNat true ≠ 0 → t = { s with reg := t.reg } ∧ rd t F.NVM_ACC_STAT_result = nvmCheck s page.toNat true)) ∧
  (∀ (s : State) (page : BitVec 12) (cor unc : BitVec 8) (off lenM1 : BitVec 6), served s F.NVM_ACC_go.off true →
    (s.nv.jobs ≠ [] ∧ s.nv.reading = none) ∨ (∃ d x, s.nv.reading = some (d, x) ∧ s.tick < d) →
    (∃ t, exec (.nvmPageRead page cor unc) s = .next t ∧ rd t F.NVM_ACC_STAT_busy = 1 ∧ memKept s t ∧ nvmBuf t = nvmBuf s ∧
      t.nv = { s.nv with waiting := s.nv.waiting ++ [.read page.toNat cor.toNat unc.toNat] }) ∧
    (∃ t, exec (.nvmPageWrite page off lenM1) s = .next t ∧ rd t F.NVM_ACC_STAT_busy = 1 ∧ memKept s t ∧
      t.nv = { s.nv with waiting := s.nv.waiting ++ [.write page.toNat off.toNat (lenM1.toNat + 1)] })) ∧
  (∀ (s : State) (j : PgJob) (js : List PgJob) (g a : Nat) (bs : List (Option Byte)) (todo : List (Nat × List (Option Byte))),
    s.nv.jobs = j :: js → j.todo = (g, bs) :: todo → bs.length = 8 → a = 64 * j.page + 8 * g →
    ∃ t, exec .nvmGroupProgrammed s = .next t ∧ t.tick = max s.tick (s.nv.grpAt + 30000) ∧ t.gddr = s.gddr ∧ t.lst = s.lst ∧ t.flash = s.flash ∧
      (∀ i, i < 8 → sget 0#8 t.nvm (a + i) = ((bs.getD i none).getD (sget 0#8 s.nvm (a + i)))) ∧
      (∀ x, x < a ∨ a + 8 ≤ x → sget 0#8 t.nvm x = sget 0#8 s.nvm x) ∧
      (todo ≠ [] → t.nv.jobs = { j with todo := todo } :: js ∧ rd t F.NVM_ACC_STAT_busy = 1) ∧
      (todo = [] → js ≠ [] → t.nv.jobs = js ∧ rd t F.NVM_ACC_STAT_busy = 1) ∧
      (todo = [] → j.kind = .scrub → rd t F.NVM_SCRUB_STAT_rewrites = counted s F.NVM_SCRUB_STAT_rewrites) ∧
      (todo = [] → j.kind = .journal → t.nv.journal = none ∧ rd t F.NVM_STATUS_journal = 0) ∧
      (todo = [] → js = [] → s.nv.waiting = [] → s.nv.reading = none → t.nv.jobs = [] ∧ rd t F.NVM_ACC_STAT_busy = 0 ∧
        (j.kind = .host → rd t F.NVM_ACC_STAT_result = 0))) ∧
  (∀ s : State, s.nv.jobs = [] → exec .nvmGroupProgrammed s = .next s) ∧
  (∀ (s : State) (weak unc : BitVec 8) (p : Nat), p = s.nv.scrubPage →
    (rd s F.NVM_SCRUB_en = 0 ∨ bitOf s F.PWR_DOM_ON_on 2 = false → exec (.nvmScrubPage weak unc) s = .next s) ∧
    (rd s F.NVM_SCRUB_en = 1 → bitOf s F.PWR_DOM_ON_on 2 = true → ∃ t, exec (.nvmScrubPage weak unc) s = .next t ∧
      t.tick = max s.tick (scrubDue s) ∧ t.nv.scrubPage = (p + 1) % 4096 ∧ memKept s t ∧ t.nv.journal = s.nv.journal ∧
      (p = 4095 → rd t F.NVM_SCRUB_STAT_passes = counted s F.NVM_SCRUB_STAT_passes) ∧
      (s.nv.jobs = [] → s.nv.waiting = [] → weak = 0#8 → unc = 0#8 → (∀ g, g < 8 → grpEcc s p g ≠ 1) → t.nv.jobs = []) ∧
      (s.nv.jobs = [] → s.nv.waiting = [] → (∃ g, g < 8 ∧ weak.getLsbD g = true ∧ unc.getLsbD g = false ∧ grpEcc s p g ≠ 2) →
        ∃ gs : List Nat, t.nv.jobs = jrnJobs p (pageBytes s p) ++
            [{ page := p, todo := gs.map (fun g => (g, List.replicate 8 none)), kind := .scrub }, jrnClear] ∧
          ∀ g, g < 8 → (g ∈ gs ↔ (weak.getLsbD g = true ∨ grpEcc s p g = 1) ∧ unc.getLsbD g = false ∧ grpEcc s p g ≠ 2))))

/-- A match unlocks, a mismatch counts, the eighth locks out; a set needs the unlock, and a session for the protected partition. Rests on
R435, R436, R437, R488. Its conclusion is exec … = .next t, with the own effect of: nvmUnlock, nvmPwSet, nvmRelock. -/
def Obligations.PasswordsUnlockAndLockOut : Prop :=
  (∀ (s : State) (user write : Bool) (p k : Nat) (att out : Fld), served s F.NVM_UNLOCK_go.off true → p = (if user then 1 else 0) →
    k = 2 * p + (if write then 1 else 0) → att = (if user then F.NVM_LOCK_STAT_att_user else F.NVM_LOCK_STAT_att_prot) →
    out = (if user then F.NVM_LOCK_STAT_out_user else F.NVM_LOCK_STAT_out_prot) →
    (∃ t, exec (.nvmUnlock user write) s = .next t ∧ t = { s with reg := t.reg, now := t.now, nv.unlockAt := some s.tick } ∧
      regsKept s t [F.NVM_LOCK_STAT_unl.off] ∧
      (rd s out = 1 → t.reg = s.reg) ∧
      (rd s out = 0 → s.nv.unlockAt ≠ some s.tick → pwCandidate s = s.nv.pws.getD k 0 →
        bitOf t F.NVM_LOCK_STAT_unl k = true ∧ rd t att = rd s att ∧ ∀ j, j < 4 → j ≠ k → bitOf t F.NVM_LOCK_STAT_unl j = bitOf s F.NVM_LOCK_STAT_unl j) ∧
      (rd s out = 0 → s.nv.unlockAt = some s.tick ∨ pwCandidate s ≠ s.nv.pws.getD k 0 →
        rd t att = counted s att ∧ rd t F.NVM_LOCK_STAT_unl = rd s F.NVM_LOCK_STAT_unl ∧ rd t out = if 7 ≤ rd s att then 1 else 0)) ∧
    (∃ t, exec (.nvmPwSet user write) s = .next t ∧ memKept s t ∧
      (user = true → s.nv.pws.getD k 0 = 0 ∨ bitOf s F.NVM_LOCK_STAT_unl k = true →
        t = { s with nv.pws := s.nv.pws.set k (pwCandidate s) }) ∧
      (user = false ∨ (s.nv.pws.getD k 0 ≠ 0 ∧ bitOf s F.NVM_LOCK_STAT_unl k = false) →
        t = { s with reg := t.reg, now := t.now } ∧ regsKept s t [att.off] ∧ rd t att = counted s att))) ∧
  (∀ s : State, served s F.NVM_CTRL_relock.off true →
    ∃ t, exec .nvmRelock s = .next t ∧ t = { s with reg := t.reg } ∧ rd t F.NVM_LOCK_STAT_unl = 0 ∧
      rd t F.NVM_LOCK_STAT_att_prot = rd s F.NVM_LOCK_STAT_att_prot ∧ rd t F.NVM_LOCK_STAT_att_user = rd s F.NVM_LOCK_STAT_att_user ∧
      regsKept s t [F.NVM_LOCK_STAT_unl.off])

/-- A fence posts its record, a consumer write frees and arms, an unmask sends, a trace load shows the entry. Rests on R453, R454, R455, R456,
R469, R472. Its conclusion is exec … = .next t, with the own effect of: genFenceWrite, evtConsWrite, msixUnmask, trcLoad. -/
def Obligations.FencesRingPointersAndTraceLoads : Prop :=
  (∀ (s : State) (tok : Word), served s F.GEN_FENCE_token.off false →
    ∃ t, exec (.genFenceWrite tok) s = .next t ∧ rd t F.GEN_FENCE_token = tok.toNat ∧ memKept s t ∧ regsKept s t [F.GEN_FENCE_token.off] ∧
      t.tick = s.tick ∧ t.evt.posted.length = s.evt.posted.length + 1 ∧
      ∃ r ∈ t.evt.posted, r.cls = clsFence ∧ r.src = srcOf blkGEN 0 ∧ r.tick = s.tick ∧
        r.pay = leBytes tok.toNat 4 ++ leBytes (rd s F.GEN_FENCE_token) 4 ++ leBytes 0 4) ∧
  (∀ (s : State) (v : Word) (u : Nat), served s F.EVT_CONS_index.off false → u = (rd s F.EVT_PROD_index + 2 ^ 32 - v.toNat) % 2 ^ 32 →
    ∃ t, exec (.evtConsWrite v) s = .next t ∧ t.gddr = s.gddr ∧ t.flash = s.flash ∧ t.nvm = s.nvm ∧ t.shadow = s.shadow ∧
      (ringN s < u → t = { s with reg := t.reg, now := t.now } ∧ rd t F.EVT_CNT_ERR_cons = counted s F.EVT_CNT_ERR_cons ∧
        regsKept s t [F.EVT_CNT_ERR_cons.off]) ∧
      (u ≤ ringN s → rd t F.EVT_CONS_index = v.toNat) ∧
      (u ≤ ringN s → s.evt.ringLoss.all (fun n => n = 0) = true → t.lst = s.lst ∧
        regsKept s t [F.EVT_CONS_index.off, F.EVT_STATUS_armed.off, F.GEN_MSIX_PBA_pending.off] ∧
        rd t F.EVT_STATUS_armed = (if u = 0 then 1 else 0) ∧ rd t F.EVT_STATUS_full = (if ringN s - 1 ≤ u then 1 else 0) ∧
        (u = 0 → t.evt = s.evt ∧ t.host = s.host) ∧
        (u ≠ 0 → s.evt.msiAt = some s.tick → t.evt = s.evt ∧ t.host = s.host) ∧
        (u ≠ 0 → s.evt.msiAt ≠ some s.tick → msixMasked s = false → t.evt.msiSent = s.evt.msiSent + 1) ∧
        (u ≠ 0 → s.evt.msiAt ≠ some s.tick → msixMasked s = true → t.evt = { s.evt with msiAt := some s.tick } ∧ t.host = s.host ∧
          rd t F.GEN_MSIX_PBA_pending = 1)) ∧
      (u < ringN s → s.evt.ringLoss.all (fun n => n = 0) = false → rd s F.EVT_RING_CFG_en = 1 → ringBarred s = false →
        (s.evt.gapBehind = 0 → rd t F.EVT_PROD_index = (rd s F.EVT_PROD_index + 1) % 2 ^ 32 ∧ t.evt.ringLoss = noLoss) ∧
        (s.evt.gapBehind ≠ 0 → rd t F.EVT_PROD_index = rd s F.EVT_PROD_index ∧ t.evt.ringLoss = s.evt.ringLoss))) ∧
  (∀ (s : State) (a : Nat), served s (F.GEN_MSIX_TABLE_word 3).off false → a = rd s (F.GEN_MSIX_TABLE_word 0) + 2 ^ 32 * rd s (F.GEN_MSIX_TABLE_word 1) →
    ∃ t, exec .msixUnmask s = .next t ∧ t.host.msixMask = false ∧ rd t (F.GEN_MSIX_TABLE_word 3) = rd s (F.GEN_MSIX_TABLE_word 3) / 2 * 2 ∧
      rd t F.GEN_MSIX_PBA_pending = 0 ∧ regsKept s t [(F.GEN_MSIX_TABLE_word 3).off, F.GEN_MSIX_PBA_pending.off] ∧
      t.gddr = s.gddr ∧ t.lst = s.lst ∧ t.flash = s.flash ∧ t.nvm = s.nvm ∧ t.shadow = s.shadow ∧
      (rd s F.GEN_MSIX_PBA_pending = 0 → t.evt = s.evt ∧ t.host.mem = s.host.mem) ∧
      (rd s F.GEN_MSIX_PBA_pending = 1 → t.evt.msiSent = s.evt.msiSent + 1 ∧
        (s.host.busMaster = true → sgetList 0#8 t.host.mem a 4 = leBytes (rd s (F.GEN_MSIX_TABLE_word 2)) 4 ∧
          ∀ b, b < a ∨ a + 4 ≤ b → sget 0#8 t.host.mem b = sget 0#8 s.host.mem b) ∧
        (s.host.busMaster = false → t.host.mem = s.host.mem))) ∧
  (∀ (s : State) (k : Word) (a : Nat), served s F.EVT_TRC_IDX_index.off false →
    a = rd s F.EVT_TRC_LO_addr * 4096 + 2 ^ 32 * rd s F.EVT_TRC_HI_addr + 32 * (k.toNat % 2 ^ (rd s F.EVT_TRC_CFG_log2sz - 5)) →
    ∃ t, exec (.trcLoad k) s = .next t ∧ memKept s t ∧ rd t F.EVT_TRC_IDX_index = k.toNat ∧
      (a + 32 ≤ memCap s → t = { s with reg := t.reg } ∧
        regsKept s t (F.EVT_TRC_IDX_index.off :: (List.range 8).map (fun i => (F.EVT_TRC_DATA_data i).off))) ∧
      (memCap s < a + 32 → rd t F.MEM_ERR_INFO_kind = 4 ∧ posted t clsError blkMEM 0 F.MEM_ERR_INFO_kind []) ∧
      (sget false s.mem.gpoison (a / 64) = false → sget false s.mem.spent (16 * (a / 64) + 7) = false → a + 32 ≤ memCap s →
        ∀ i, i < 8 → rd t (F.EVT_TRC_DATA_data i) = leAt (gddrRd s a 32) (4 * i) 4) ∧
      (sget false s.mem.gpoison (a / 64) = true ∨ sget false s.mem.spent (16 * (a / 64) + 7) = true ∨ memCap s < a + 32 →
        ∀ i, i < 8 → rd t (F.EVT_TRC_DATA_data i) =
          if i = 1 then 15 * 2 ^ 12 + clsGap * 2 ^ 16 + srcOf blkEVT 0 * 2 ^ 20 else 0))

/-- Claims push, completes pop, misuse freezes, initialisation empties; a record commits or is coalesced; a window ends with its summary.
Rests on R450, R453, R459, R460, R461, R463, R466, R467. Its conclusion is exec … = .next t, with the own effect of: eventRecordCommit,
evtClaim, evtComplete, evtStkInit, squallWindowEnd. -/
def Obligations.PriorityStackAndSquallWindows : Prop :=
  (∀ (s : State) (src : BitVec 12) (prio : BitVec 4), served s F.EVT_CLAIM_source.off true →
    (rd s F.EVT_STACK_frozen = 0 → s.evt.stack.length < 16 →
      ∃ t, exec (.evtClaim src prio) s = .next t ∧ memKept s t ∧ t = { s with reg := t.reg, evt.stack := (src.toNat, prio.toNat) :: s.evt.stack } ∧
        rd t F.EVT_STACK_depth = s.evt.stack.length + 1 ∧ rd t F.EVT_STACK_top_src = src.toNat ∧ rd t F.EVT_STACK_top_prio = prio.toNat ∧
        rd t F.EVT_STACK_frozen = 0 ∧ regsKept s t [F.EVT_STACK_depth.off]) ∧
    (rd s F.EVT_STACK_frozen = 0 → 16 ≤ s.evt.stack.length →
      ∃ t, exec (.evtClaim src prio) s = .next t ∧ rd t F.EVT_STACK_frozen = 1 ∧ bitOf t F.EVT_ALARM_alarm almSTACK = true ∧
        t.evt.stack = s.evt.stack ∧ t.evt.held = [] ∧ posted t clsFatal blkEVT 0 F.EVT_STACK_frozen
          [(src.toNat, 2), ((s.evt.stack.headD (0, 0)).1, 2), ((s.evt.stack.headD (0, 0)).2, 1)])) ∧
  (∀ (s : State) (src : BitVec 12), served s F.EVT_COMPLETE_source.off true →
    (∀ q l, rd s F.EVT_STACK_frozen = 0 → s.evt.stack = (src.toNat, q) :: l → l.length < 16 →
      ∃ t, exec (.evtComplete src) s = .next t ∧ t.evt.stack = l ∧ rd t F.EVT_STACK_depth = l.length ∧ rd t F.EVT_STACK_frozen = 0 ∧
        t.gddr = s.gddr ∧ t.flash = s.flash ∧ t.nvm = s.nvm ∧ t.tick = s.tick) ∧
    (rd s F.EVT_STACK_frozen = 0 → (∀ q l, s.evt.stack ≠ (src.toNat, q) :: l) →
      ∃ t, exec (.evtComplete src) s = .next t ∧ rd t F.EVT_STACK_frozen = 1 ∧ bitOf t F.EVT_ALARM_alarm almSTACK = true ∧
        t.evt.stack = s.evt.stack ∧ t.evt.held = [] ∧ posted t clsFatal blkEVT 0 F.EVT_STACK_frozen
          [(src.toNat, 2), ((s.evt.stack.headD (0, 0)).1, 2), ((s.evt.stack.headD (0, 0)).2, 1)])) ∧
  (∀ (s : State) (c : Instr) (f : Nat) (src : BitVec 12) (prio : BitVec 4),
    (c, f) ∈ [(Instr.evtClaim src prio, F.EVT_CLAIM_source.off), (.evtComplete src, F.EVT_COMPLETE_source.off)] → served s f true →
    rd s F.EVT_STACK_frozen = 1 →
    ∃ t, exec c s = .next t ∧ t = { s with reg := t.reg, now := t.now } ∧ rd t F.EVT_CNT_ERR_stack = counted s F.EVT_CNT_ERR_stack ∧
      regsKept s t [F.EVT_CNT_ERR_stack.off]) ∧
  (∀ s : State, served s F.EVT_CTRL_stk_init.off true →
    ∃ t, exec .evtStkInit s = .next t ∧ t.evt.stack = [] ∧ rd t F.EVT_STACK_frozen = 0 ∧ rd t F.EVT_STACK_depth = 0 ∧ t.evt.held = [] ∧
      t.evt.posted = s.evt.posted ∧ t.gddr = s.gddr ∧ t.flash = s.flash ∧ t.nvm = s.nvm ∧
      regsKept s t [F.EVT_STACK_frozen.off, F.EVT_PROD_index.off, F.EVT_STATUS_full.off, F.EVT_DROP_ring.off, F.GEN_MSIX_PBA_pending.off]) ∧
  (∀ (s : State) (src : BitVec 12) (w : SqWin), isWorker s = false → s.evt.windows.find? (fun w => w.src = src.toNat) = some w →
    (∀ r, s.evt.posted.head? = some r → w.start + squallW s < r.tick ∨ (r.tick = w.start + squallW s ∧ src.toNat ≤ r.src)) →
    (w.coal = 0 → ∃ t, exec (.squallWindowEnd src) s = .next t ∧ t.tick = max s.tick (w.start + squallW s) ∧ memKept s t ∧
      t.evt.windows = s.evt.windows.filter (fun x => x.src != w.src) ∧ t.evt.seq = s.evt.seq ∧
      rd t F.EVT_SQUALL_STAT_sources = (t.evt.windows.filter (fun x => x.squall)).length % 2 ^ 13 ∧
      (w.squall = false → t.evt.posted = s.evt.posted) ∧
      (w.squall = true → posted t clsInfo blkEVT 0 F.EVT_SQUALL_STAT_sources [])) ∧
    (w.coal ≠ 0 → ∃ t, exec (.squallWindowEnd src) s = .next t ∧ t.tick = max s.tick (w.start + squallW s) ∧
      t.flash = s.flash ∧ t.nvm = s.nvm ∧ t.evt.seq = (s.evt.seq + 1) % 2 ^ 32 ∧ rd t F.EVT_STATUS_squall = 1 ∧
      (w.squall = false → rd t F.EVT_SQUALL_STAT_last = src.toNat) ∧
      t.evt.windows = { src := w.src, start := w.start + squallW s, count := 0, coal := 0, first := [], firstTick := 0, squall := true } ::
        s.evt.windows.filter (fun x => x.src != w.src))) ∧
  (∀ (s : State) (src : BitVec 12) (w : SqWin) (r : Rec), isWorker s = false → s.evt.windows.find? (fun w => w.src = src.toNat) = some w →
    w.coal ≠ 0 → s.evt.posted = [r] → r.fwd = none → r.tick < w.start + squallW s → s.evt.windows.find? (fun w => w.src = r.src) = none →
    ∃ t, exec (.squallWindowEnd src) s = .next t ∧ t.tick = max s.tick (w.start + squallW s) ∧ t.evt.posted = [] ∧
      t.evt.seq = (s.evt.seq + 2) % 2 ^ 32) ∧
  (∀ (s : State) (src : BitVec 12), isWorker s = false → s.evt.windows.find? (fun w => w.src = src.toNat) = none →
    exec (.squallWindowEnd src) s = .next s) ∧
  (∀ (s : State) (r : Rec) (rest : List Rec), isWorker s = false → s.evt.posted = r :: rest → r.fwd = none →
    ((∀ w, s.evt.windows.find? (fun w => w.src = r.src) = some w →
        r.tick < w.start + squallW s ∧ (neverCoalesced r.cls = true ∨ w.count < rd s F.EVT_SQUALL_n)) →
      rd s F.EVT_TRC_CFG_en = 0 → rd s F.EVT_LOG_CFG_en = 0 →
      ∃ t, exec .eventRecordCommit s = .next t ∧ t.tick = max s.tick (r.tick + 1) ∧ t.evt.posted = rest ∧
        t.evt.seq = (s.evt.seq + 1) % 2 ^ 32 ∧ t.gddr = s.gddr ∧ t.flash = s.flash ∧ t.nvm = s.nvm ∧
        (∃ x ∈ t.evt.windows, x.src = r.src ∧
          x.count = (match s.evt.windows.find? (fun w => w.src = r.src) with | some w => w.count | none => 0) + 1) ∧
        (∀ (a : Nat) (bs : List Byte), bs = recBytes r s.evt.seq (prioOf s r.cls) false false false (ownOrigin s) →
          a = rd s F.EVT_RING_LO_addr * 4096 + 32 * (rd s F.EVT_PROD_index % ringN s) →
          maskOf s (r.src / 64) r.tick (r.alarm || isBarrier r.cls) = (false, false) → s.evt.stack = [] → s.evt.held = [] →
          rd s F.EVT_RING_CFG_en = 1 → rd s F.EVT_RING_CFG_space = 1 → s.evt.ringLoss.all (fun n => n = 0) = true → ringU s < ringN s - 1 →
          rd t F.EVT_PROD_index = (rd s F.EVT_PROD_index + 1) % 2 ^ 32 ∧ (offTable s a bs.length → lstRd t a bs.length = bs) ∧
          ∀ x, x < a ∨ a + bs.length ≤ x → sget 0#8 t.lst x = sget 0#8 s.lst x) ∧
        (∀ m, maskOf s (r.src / 64) r.tick (r.alarm || isBarrier r.cls) = (true, m) → r.src / 64 < 18 → bitOf t F.EVT_PEND_pend (r.src / 64) = true ∧
          rd t F.EVT_PEND_SEQ_seq = s.evt.seq % 2 ^ 32 ∧ rd t F.EVT_PROD_index = rd s F.EVT_PROD_index ∧ memKept s t)) ∧
    (∀ w : SqWin, neverCoalesced r.cls = false → s.evt.windows.find? (fun w => w.src = r.src) = some w → r.tick < w.start + squallW s →
      rd s F.EVT_SQUALL_n ≤ w.count →
      ∃ t, exec .eventRecordCommit s = .next t ∧ t.tick = max s.tick (r.tick + 1) ∧ t.evt.posted = rest ∧ t.evt.seq = s.evt.seq ∧
        rd t F.EVT_CNT_COAL_records = counted s F.EVT_CNT_COAL_records ∧ regsKept s t [F.EVT_CNT_COAL_records.off] ∧ memKept s t)) ∧
  (∀ (s : State) (r : Rec) (rest : List Rec) (bs : List Byte), isWorker s = false → s.evt.posted = r :: rest → r.fwd = some bs →
    rd s F.EVT_TRC_CFG_en = 0 →
    ∃ t, exec .eventRecordCommit s = .next t ∧ t.tick = max s.tick (r.tick + 1) ∧ t.evt.posted = rest ∧ t.evt.seq = s.evt.seq ∧
      t.evt.windows = s.evt.windows ∧ t.gddr = s.gddr ∧ t.flash = s.flash ∧ t.nvm = s.nvm ∧
      (∀ a : Nat, a = rd s F.EVT_RING_LO_addr * 4096 + 32 * (rd s F.EVT_PROD_index % ringN s) →
        maskOf s 17 r.tick (r.alarm || isBarrier r.cls) = (false, false) → s.evt.stack = [] → s.evt.held = [] →
        rd s F.EVT_RING_CFG_en = 1 → rd s F.EVT_RING_CFG_space = 1 → s.evt.ringLoss.all (fun n => n = 0) = true → ringU s < ringN s - 1 →
        rd t F.EVT_PROD_index = (rd s F.EVT_PROD_index + 1) % 2 ^ 32 ∧ (offTable s a bs.length → lstRd t a bs.length = bs)) ∧
      (∀ m, maskOf s 17 r.tick (r.alarm || isBarrier r.cls) = (true, m) → bitOf t F.EVT_PEND_pend 17 = true ∧
        rd t F.EVT_PEND_SEQ_seq = leAt bs 0 4 ∧ memKept s t))

/-- Register writes and reads on their paths, and the PCIe function and link. Rests on R440, R442, R446, R455, R488, R512, R522. Its
conclusion is exec … = .next t, with the own effect of: bar0RegisterAccess, registerWrite, pcieConfigWrite, pcieLinkStateChange. -/
def Obligations.HostRegisterAccesses : Prop :=
  (∀ (s : State) (p : Path) (off : BitVec 28) (v : Word) (be : BitVec 4),
    (p ≠ .orsal → hostAnswers s = false → exec (.registerWrite p off v be) s = .next s) ∧
    (regAt off.toNat = none → exec (.registerWrite p off v be) s = .next s) ∧
    (lostWrite s off.toNat = true → exec (.registerWrite p off v be) s = .next s)) ∧
  (∀ (s : State) (p : Path) (off : BitVec 28) (v : Word) (be : BitVec 4) (d : RegDesc), hostAnswers s = true → lostWrite s off.toNat = false →
    step5Runs s = false →
    off.toNat / 65536 ∈ [blkEXS, blkING, blkMEM] → regAt off.toNat = some d → d.cnd = 0 → d.wo = 0 →
    ∃ t, exec (.registerWrite p off v be) s = .next t ∧ t = { s with reg := t.reg, shadow := t.shadow } ∧
      rdW t off.toNat = (rdW s off.toNat &&& ~~~(BitVec.ofNat 32 d.rw &&& beMask be.toNat)) |||
        ((v ||| setsNow s off.toNat) &&& (BitVec.ofNat 32 d.rw &&& beMask be.toNat)) ∧
      rdShW t off.toNat = (rdShW s off.toNat &&& ~~~(BitVec.ofNat 32 d.rws &&& beMask be.toNat)) |||
        (v &&& (BitVec.ofNat 32 d.rws &&& beMask be.toNat)) ∧
      regsKept s t [off.toNat] ∧ ∀ o, o ≠ off.toNat → rdShW t o = rdShW s o) ∧
  (∀ (s : State) (p : Path) (off : BitVec 28) (v : Word) (be : BitVec 4), hostAnswers s = true → lostWrite s off.toNat = false →
    step5Runs s = true → earlyBlk off.toNat = false → (regAt off.toNat).isSome = true → be ≠ 0#4 →
    ∃ t, exec (.registerWrite p off v be) s = .next t ∧ t = { s with reg := t.reg, now := t.now } ∧ rd t F.NVM_STATUS_wr_ign = 1 ∧
      rd t F.NVM_CNT_ERR_wr_ign = counted s F.NVM_CNT_ERR_wr_ign ∧ regsKept s t [F.NVM_STATUS_wr_ign.off, F.NVM_CNT_ERR_wr_ign.off]) ∧
  (∀ (s : State) (p : Path) (off : BitVec 28) (v : Word) (be : BitVec 4), hostAnswers s = true → lostWrite s off.toNat = false →
    step5Runs s = false → isProtReg off.toNat = true → be ≠ 0#4 →
    ∃ t, exec (.registerWrite p off v be) s = .next t ∧ memKept s t ∧ rd t F.SEC_CNT_PLAIN_writes = counted s F.SEC_CNT_PLAIN_writes ∧
      posted t clsWarning blkSEC 0 F.SEC_CNT_PLAIN_writes [] ∧ regsKept s t [F.SEC_CNT_PLAIN_writes.off]) ∧
  (∀ (s : State) (off : BitVec 28), off.toNat % 4 = 0 → off.toNat < regSpace →
    (∀ b0 b1 b2 b3 : Byte, exec (.bar0RegisterAccess
        { write := true, off := off.toNat, data := [(b0, true), (b1, true), (b2, true), (b3, true)], len := 0 }) s =
      exec (.registerWrite .pcie off (BitVec.ofNat 32 (ofLe [b0, b1, b2, b3])) 15#4) s) ∧
    (hostAnswers s = true →
      ∃ t, exec (.bar0RegisterAccess { write := false, off := off.toNat, data := [], len := 4 }) s = .next t ∧
        t.host.readData = leBytes (regRead s off.toNat).1.toNat 4 ∧ t.host.readEp = false ∧
        t = { (regRead s off.toNat).2 with host := t.host } ∧ (readEffect (nvmSettled s off.toNat) off.toNat = s → t = { s with host := t.host })) ∧
    (hostAnswers s = false →
      exec (.bar0RegisterAccess { write := false, off := off.toNat, data := [], len := 4 }) s = .next s)) ∧
  (∀ (s : State) (b : Bool),
    exec (.pcieConfigWrite (.busMaster b)) s = .next { s with host.busMaster := b } ∧
    exec (.pcieConfigWrite (.d3hot b)) s = .next { s with host.d3hot := b } ∧
    exec (.pcieConfigWrite (.aspmL1 b)) s = .next { s with host.aspmL1 := b } ∧
    (∀ n, exec (.pcieConfigWrite (.maxPayload n)) s = .next { s with host.maxPayload := 128 * 2 ^ n.val }) ∧
    (∃ t, exec (.pcieConfigWrite (.msixFunctionMask b)) s = .next t ∧ t.host.msixMask = b ∧
      ((b = true ∨ rd s (F.GEN_MSIX_TABLE_word 3) % 2 = 1 ∨ rd s F.GEN_MSIX_PBA_pending = 0) → t = { s with host.msixMask := b }) ∧
      (b = false → rd s (F.GEN_MSIX_TABLE_word 3) % 2 = 0 → rd s F.GEN_MSIX_PBA_pending = 1 →
        t.evt.msiSent = s.evt.msiSent + 1 ∧ rd t F.GEN_MSIX_PBA_pending = 0 ∧ regsKept s t [F.GEN_MSIX_PBA_pending.off]))) ∧
  (∀ (s : State) (b : Bool),
    exec (.pcieLinkStateChange (.l1 b)) s = .next { s with host.l1 := b } ∧
    exec (.pcieLinkStateChange (.l2 b)) s = .next { s with host.l2 := b } ∧
    (∀ n, exec (.pcieLinkStateChange (.l1sub n)) s = .next { s with host.l1sub := n.val }) ∧
    (∀ c : LinkChange, c.wellFormed = true → c ≠ .l1 b → c ≠ .l1 (!b) → c ≠ .l2 b → c ≠ .l2 (!b) → (∀ n, c ≠ .l1sub n) →
      ∃ t, exec (.pcieLinkStateChange c) s = .next t ∧ t = { s with reg := t.reg, host.l1 := false, host.l2 := false } ∧
        regsKept s t [F.GEN_STATUS_link_up.off] ∧ rd t F.GEN_STATUS_mgt_seen = rd s F.GEN_STATUS_mgt_seen ∧
        (∀ g n, c = .up g n → rd t F.GEN_STATUS_link_up = 1 ∧ rd t F.GEN_STATUS_gen = g ∧ rd t F.GEN_STATUS_width = n) ∧
        (c = .down → rd t F.GEN_STATUS_link_up = 0 ∧ rd t F.GEN_STATUS_gen = 0 ∧ rd t F.GEN_STATUS_width = 0)))

/-- The local-store and frame-memory windows and the management port move exactly the bytes named. Rests on R441, R442, R443, R444, R445,
R494. Its conclusion is exec … = .next t, with the own effect of: bar0LocalStoreAccess, bar2Access, mgtWrite, mgtRead, mgtStatus,
registerWrite. -/
def Obligations.WindowsAndManagementPort : Prop :=
  (∀ (s : State) (o n : Nat), hostAnswers s = true → 0 < n → o % 16 + n ≤ 16 → o + n ≤ 0xF80000 →
    (∃ t, exec (.bar0LocalStoreAccess { write := false, off := regSpace + o, data := [], len := n }) s = .next t ∧ memKept s t ∧
      t.host.readData = lstRd s o n ∧ t.host.readEp = wordsPoisoned s o n ∧ t.host.readOff = some o) ∧
    (∀ bs : List Byte, bs.length = n → offTable s o n →
      ∃ t, exec (.bar0LocalStoreAccess { write := true, off := regSpace + o, data := bs.map (fun b => (b, true)), len := 0 }) s = .next t ∧
        lstRd t o n = bs ∧ (∀ a, a < o ∨ o + n ≤ a → sget 0#8 t.lst a = sget 0#8 s.lst a) ∧ t.reg = s.reg ∧ t.gddr = s.gddr ∧
        t.flash = s.flash ∧ t.nvm = s.nvm)) ∧
  (∀ (s : State) (o n a : Nat), hostAnswers s = true → 0 < n → o + n ≤ 2 ^ 28 → a = bar2Base s + o → a % 64 + n ≤ 64 →
    (∃ t, exec (.bar2Access { write := false, off := o, data := [], len := n }) s = .next t ∧ memKept s t ∧
      (a + n ≤ memCap s → touchesProt s (a / 64 * 64) 64 = false →
        t = { s with host := t.host } ∧ t.host.readData = gddrRd s a n ∧ t.host.readEp = readPoisoned s 7 a n) ∧
      (a + n ≤ memCap s → touchesProt s (a / 64 * 64) 64 = true →
        t.host.readData = List.replicate n 0#8 ∧ t.host.readEp = false ∧ rd t F.SEC_CNT_REFUSE_rd = counted s F.SEC_CNT_REFUSE_rd ∧
        posted t clsWarning blkSEC 0 F.SEC_CNT_REFUSE_rd []) ∧
      (memCap s < a + n → t.host.readEp = true ∧ rd t F.MEM_ERR_INFO_kind = 4 ∧ posted t clsError blkMEM 0 F.MEM_ERR_INFO_kind [])) ∧
    (∀ bs : List Byte, bs.length = n →
      ∃ t, exec (.bar2Access { write := true, off := o, data := bs.map (fun b => (b, true)), len := 0 }) s = .next t ∧ t.lst = s.lst ∧
        t.flash = s.flash ∧ t.nvm = s.nvm ∧
        (touchesProt s (a / 64 * 64) 64 = true → t.gddr = s.gddr ∧ rd t F.SEC_CNT_REFUSE_wr = counted s F.SEC_CNT_REFUSE_wr ∧
          posted t clsWarning blkSEC 0 F.SEC_CNT_REFUSE_wr []) ∧
        (touchesProt s (a / 64 * 64) 64 = false → a + n ≤ memCap s → gddrRd t a n = bs ∧ t.reg = s.reg ∧
          ∀ b, b < a ∨ a + n ≤ b → sget 0#8 t.gddr b = sget 0#8 s.gddr b))) ∧
  (∀ (s : State) (r : BarReq) (op : Byte) (off : BitVec 32) (bs : List Byte) (w : Nat) (cut : MgtCut), hostAnswers s = false →
    exec (.bar0LocalStoreAccess r) s = .next s ∧ exec (.bar2Access r) s = .next s ∧ exec (.mgtWrite op off bs) s = .next s ∧
    exec (.mgtRead off w cut) s = .next s) ∧
  (∀ (s : State) (off : BitVec 28) (b0 b1 b2 b3 : Byte), hostAnswers s = true → off.toNat % 4 = 0 → off.toNat < regSpace →
    exec (.mgtWrite 2#8 (off.setWidth 32) [b0, b1, b2, b3]) s =
      exec (.registerWrite .mgt off (BitVec.ofNat 32 (ofBe [b0, b1, b2, b3])) 15#4) (wrB s F.GEN_STATUS_mgt_seen true)) ∧
  (∀ (s : State) (op : Byte) (off : BitVec 32) (bs : List Byte), hostAnswers s = true → op ≠ 2#8 → op ≠ 0x0B#8 → op ≠ 5#8 →
    ∃ t, exec (.mgtWrite op off bs) s = .next t ∧ t = { s with reg := t.reg, now := t.now } ∧ rd t F.GEN_STATUS_mgt_seen = 1 ∧
      rd t F.GEN_MGT_STAT_frame_err = 1 ∧ regsKept s t [F.GEN_STATUS_mgt_seen.off, F.GEN_MGT_STAT_frame_err.off]) ∧
  (∀ (s : State) (c : Instr) (off : BitVec 32) (bs : List Byte) (w : Nat) (cut : MgtCut), hostAnswers s = true → 2 * regSpace ≤ off.toNat →
    c ∈ [Instr.mgtWrite 2#8 off bs, .mgtRead off w cut] →
    ∃ t, exec c s = .next t ∧ t = { s with reg := t.reg, now := t.now } ∧ rd t F.GEN_MGT_STAT_acc_err = 1 ∧
      regsKept s t [F.GEN_STATUS_mgt_seen.off, F.GEN_MGT_STAT_acc_err.off]) ∧
  (∀ (s m : State) (off : BitVec 32), hostAnswers s = true → off.toNat % 4 = 0 → off.toNat < regSpace → m = wrB s F.GEN_STATUS_mgt_seen true →
    ∃ t, exec (.mgtRead off 1 .whole) s = .next t ∧ t.host.readData = beBytes (regRead m off.toNat).1.toNat 4 ∧
      t.host.miso = List.replicate 4 0#8 ++ t.host.readData ∧
      t = { (regRead m off.toNat).2 with host := t.host }) ∧
  (∀ (s : State) (e : Nat), e = rd s F.GEN_MGT_STAT_frame_err * 4 + rd s F.GEN_MGT_STAT_acc_err * 2 + rd s F.MEM_MBX_STAT_coll_a →
    (hostAnswers s = true → ∃ t, exec .mgtStatus s = .next t ∧ t = { s with reg := t.reg, host := t.host } ∧
      t.host.readData = [BitVec.ofNat 8 (128 + (if s.mem.busyTo.isSome = true then 8 else 0) + e)] ∧
      (setsNow s F.GEN_MGT_STAT.off = 0#32 →
        rd t F.GEN_MGT_STAT_frame_err = 0 ∧ rd t F.GEN_MGT_STAT_acc_err = 0 ∧ rd t F.MEM_MBX_STAT_coll_a = 0) ∧ rd t F.GEN_STATUS_mgt_seen = 1 ∧
      regsKept s t [F.GEN_STATUS_mgt_seen.off, F.GEN_MGT_STAT.off, F.MEM_MBX_STAT_coll_a.off]) ∧
    (hostAnswers s = false → ∃ t, exec .mgtStatus s = .next t ∧ t = { s with host := t.host } ∧
      t.host.readData = [BitVec.ofNat 8 ((if s.mem.busyTo.isSome = true then 8 else 0) + e)]))

/-- Each sealed command runs only in an open session, in time, with a good tag and a fresh counter, and answers. Rests on R436, R481, R485,
R487, R488, R489, R490. Its conclusion is exec … = .next t, with the own effect of: nvmWrite, pwSet, arbCommit, jtagLock, retire,
regWrite, regRead. -/
def Obligations.SealedCommandsAreChecked : Prop :=
  (∀ (s : State) (p : Path) (c : Instr), served s F.SEC_CTRL_ses_cmd.off true → c ∈ [Instr.nvmWrite p, .pwSet p, .arbCommit p, .jtagLock p, .retire p, .regWrite p, .regRead p] →
    (sesState s ≠ 2 ∨ rd s F.SEC_STATUS_path ≠ pathCode p →
      ∃ t, exec c s = .next t ∧ t = { s with reg := t.reg } ∧ rd t F.SEC_STATUS_result = rsBAD_STATE ∧
        regsKept s t [F.SEC_STATUS_result.off] ∧ sesState t = sesState s) ∧
    (sesState s = 2 → rd s F.SEC_STATUS_path = pathCode p → idleEnd s ≤ s.tick →
      ∃ t, exec c s = .next t ∧ memKept s t ∧ rd t F.SEC_STATUS_result = rsBAD_STATE ∧ sesState t = 0 ∧ t.sec.keys = []) ∧
    (∀ (m : List Byte) (ctr : Nat) (k : List Byte), sesState s = 2 → rd s F.SEC_STATUS_path = pathCode p → s.tick < idleEnd s →
      m = lstRd s (rd s F.SEC_SES_BUF_offset) 128 → wordsPoisoned s (rd s F.SEC_SES_BUF_offset) 128 = false →
      leAt m 0 4 = 0x3143535A → leAt m 4 4 = 0 → leAt m 112 16 = 0 → ctr = leAt m 8 8 → k = s.sec.keys →
      (gcmOpen (k.take 32) (slice k 64 4 ++ beBytes ctr 8) (m.take 16) (slice m 16 80) (slice m 96 16) = none →
        ∃ t, exec c s = .next t ∧ memKept s t ∧ rd t F.SEC_STATUS_result = rsAUTH ∧
          rd t F.SEC_CNT_AUTH_cmd_fail = counted s F.SEC_CNT_AUTH_cmd_fail ∧
          (s.sec.fails < 2 → sesState t = 2 ∧ t.sec.fails = s.sec.fails + 1) ∧ (2 ≤ s.sec.fails → sesState t = 0)) ∧
      (∀ body, gcmOpen (k.take 32) (slice k 64 4 ++ beBytes ctr 8) (m.take 16) (slice m 16 80) (slice m 96 16) = some body →
        (ctr ≤ sesCtr s ∨ ctr = 2 ^ 64 - 1 → ∃ t, exec c s = .next t ∧ memKept s t ∧ rd t F.SEC_STATUS_result = rsREPLAY ∧
          rd t F.SEC_CNT_AUTH_cmd_fail = counted s F.SEC_CNT_AUTH_cmd_fail ∧ sesCtr t = sesCtr s ∧ sesState t = 2) ∧
        (sesCtr s < ctr → ctr < 2 ^ 64 - 1 → ∃ u, cmdCheck s p = (some (ctr, body), u) ∧ sesCtr u = ctr ∧
          u = { s with reg := u.reg, sec.fails := 0, sec.lastAt := s.tick } ∧
          regsKept s u [F.SEC_SES_CTR_LO_ctr.off, F.SEC_SES_CTR_HI_ctr.off])))) ∧
  (∀ (s m : State) (p : Path) (ctr page off n : Nat) (body : List Byte), served s F.SEC_CTRL_ses_cmd.off true → cmdCheck s p = (some (ctr, body), m) → leAt body 0 1 = 3 →
    page = leAt body 4 2 → off = leAt body 6 1 → n = leAt body 7 1 + 1 → off < 64 → n ≤ 64 →
    bodyZero body ([4, 5, 6, 7] ++ List.range' 16 64) = true →
    ∃ t, exec (.nvmWrite p) s = .next t ∧ t.nvm = m.nvm ∧
      (page < 512 ∨ 1535 < page → answered m t ctr rsRANGE 0 ∧ t.nv = m.nv) ∧
      (512 ≤ page → page ≤ 1535 → nvmUnlocked m 0 1 = false → answered m t ctr rsDENIED 0 ∧ t.nv = m.nv) ∧
      (512 ≤ page → page ≤ 1535 → nvmUnlocked m 0 1 = true → answered m t ctr rsOK 0 ∧ rd t F.NVM_ACC_STAT_busy = 1 ∧
        (m.nv.jobs = [] → m.nv.waiting = [] → m.nv.reading = none →
          t.nv.jobs = [mkJob page off (slice body 16 n) .host]))) ∧
  (∀ (s m : State) (p : Path) (ctr k : Nat) (body : List Byte), served s F.SEC_CTRL_ses_cmd.off true → cmdCheck s p = (some (ctr, body), m) → leAt body 0 1 = 4 →
    k = leAt body 4 1 → k ≤ 1 → bodyZero body ([4] ++ List.range' 16 16) = true →
    ∃ t, exec (.pwSet p) s = .next t ∧
      (nvmUnlocked m 0 k = true → answered m t ctr rsOK 0 ∧ t.nv = { m.nv with pws := m.nv.pws.set k (leAt body 16 16) }) ∧
      (nvmUnlocked m 0 k = false → answered m t ctr rsDENIED 0 ∧ t.nv = m.nv ∧
        rd t F.NVM_LOCK_STAT_att_prot = counted m F.NVM_LOCK_STAT_att_prot)) ∧
  (∀ (s m : State) (p : Path) (ctr : Nat) (body : List Byte), served s F.SEC_CTRL_ses_cmd.off true → cmdCheck s p = (some (ctr, body), m) → leAt body 0 1 = 5 →
    bodyZero body [] = true →
    ∃ t, exec (.arbCommit p) s = .next t ∧
      (m.sec.imgHash = none → answered m t ctr rsBAD_STATE 0 ∧ t.sec = m.sec) ∧
      (m.sec.imgHash ≠ none → 255 < rd m F.NVM_IMG_ARB_arb → answered m t ctr rsRANGE 0 ∧ t.sec = m.sec) ∧
      (m.sec.imgHash ≠ none → rd m F.NVM_IMG_ARB_arb ≤ 255 → answered m t ctr rsOK 0 ∧
        arbCounter t.sec.arbRow = max (arbCounter m.sec.arbRow) (rd m F.NVM_IMG_ARB_arb) ∧ rd t F.SEC_FUSE_arb = arbCounter t.sec.arbRow)) ∧
  (∀ (s m : State) (p : Path) (ctr : Nat) (body : List Byte), served s F.SEC_CTRL_ses_cmd.off true → cmdCheck s p = (some (ctr, body), m) → bodyZero body [] = true →
    (leAt body 0 1 = 6 → ∃ t, exec (.jtagLock p) s = .next t ∧ answered m t ctr rsOK 0 ∧ 
      t.sec = { m.sec with jtagLock := true, blow := (if m.sec.jtagLock = true then m.sec.blow else blowLeft m ++ [(385, blowFrom m + fuseTicks)]) } ∧
      rd t F.SEC_FUSE_jtag_lock = 1) ∧
    (leAt body 0 1 = 7 → ∃ t, exec (.retire p) s = .next t ∧ answered m t ctr rsOK 0 ∧
      t.sec = { m.sec with retired := true, erased := true, blow := (if m.sec.retired = true then m.sec.blow else blowLeft m ++ [(386, blowFrom m + fuseTicks)]) } ∧
       rd t F.SEC_FUSE_retired = 1 ∧
      (m.sec.mfgDone = true → rd t F.SEC_STATUS_lifecycle = lcRETIRED))) ∧
  (∀ (s m : State) (p : Path) (ctr o : Nat) (body : List Byte), served s F.SEC_CTRL_ses_cmd.off true → cmdCheck s p = (some (ctr, body), m) →
    (leAt body 0 1 = 2 → bodyZero body (List.range' 4 4) = true → o = leAt body 4 4 → o / 65536 ∉ [blkBLQ, blkPPX, blkAGE] →
      (o / 65536 = blkNVM → m.nv.reading = none) →
      ∃ t, exec (.regRead p) s = .next t ∧ answered m t ctr rsOK (regRead m o).1.toNat ∧ t.sec = m.sec ∧
        regsKept m t [F.SEC_STATUS_result.off]) ∧
    (leAt body 0 1 = 1 → bodyZero body (List.range' 4 8) = true → leAt body 4 4 = F.EVT_LOG_CFG_en.off → blkOff m F.EVT_LOG_CFG_en.off = false →
      ∀ d, regAt F.EVT_LOG_CFG_en.off = some d →
      ∃ t, exec (.regWrite p) s = .next t ∧ answered m t ctr rsOK 0 ∧ rd t F.SEC_CNT_PLAIN_writes = rd m F.SEC_CNT_PLAIN_writes ∧
        rdW t F.EVT_LOG_CFG_en.off = (rdW m F.EVT_LOG_CFG_en.off &&& ~~~BitVec.ofNat 32 (d.rw ||| d.cnd)) |||
          (BitVec.ofNat 32 (leAt body 8 4) &&& BitVec.ofNat 32 (d.rw ||| d.cnd))))

/-- Sessions open and close, the owner enrols once, the certificate and the report are written, HDCP reports. Rests on R476, R478, R479, R483,
R484, R485, R486, R489, R491, R492. Its conclusion is exec … = .next t, with the own effect of: sesStart, sesFinish, sesClose,
sessionIdleTimeout, secEnroll, secCert, secAtt, hdcpAuthentication. -/
def Obligations.SessionsEnrolmentAndReports : Prop :=
  (∀ (s : State) (p : Path) (a : Nat), served s F.SEC_CTRL_ses_start.off true → a = rd s F.SEC_SES_BUF_offset →
    (lifecycleOf s.sec = lcOPEN ∨ lifecycleOf s.sec = lcRETIRED ∨ sesState s ≠ 0 ∨ s.tick < s.sec.refuseTo →
      ∃ t, exec (.sesStart p) s = .next t ∧ t = { s with reg := t.reg } ∧ rd t F.SEC_STATUS_result = rsBAD_STATE ∧
        sesState t = sesState s ∧ regsKept s t [F.SEC_STATUS_result.off]) ∧
    (lifecycleOf s.sec ≠ lcOPEN → lifecycleOf s.sec ≠ lcRETIRED → sesState s = 0 → s.sec.refuseTo ≤ s.tick →
      ∃ t, exec (.sesStart p) s = .next t ∧ rd t F.SEC_STATUS_result = rsOK ∧ sesState t = 1 ∧ rd t F.SEC_STATUS_path = pathCode p ∧
        t.sec.nonce.length = 48 ∧ t.sec = { s.sec with nonce := t.sec.nonce } ∧
        (offProt s a 64 → lstRd t a 64 = leBytes 0x3153535A 4 ++ leBytes 0 4 ++ leBytes Config.serial.toNat 8 ++ t.sec.nonce) ∧
        (∀ x, x < a ∨ a + 64 ≤ x → sget 0#8 t.lst x = sget 0#8 s.lst x) ∧ regsKept s t [F.SEC_STATUS_result.off])) ∧
  (∀ (s : State) (p : Path) (m : List Byte), served s F.SEC_CTRL_ses_finish.off true → m = lstRd s (rd s F.SEC_SES_BUF_offset) 296 →
    (sesState s ≠ 1 ∨ rd s F.SEC_STATUS_path ≠ pathCode p →
      ∃ t, exec (.sesFinish p) s = .next t ∧ t = { s with reg := t.reg } ∧ rd t F.SEC_STATUS_result = rsBAD_STATE ∧ sesState t = sesState s) ∧
    (sesState s = 1 → rd s F.SEC_STATUS_path = pathCode p → wordsPoisoned s (rd s F.SEC_SES_BUF_offset) 296 = false →
      (ownerKeyOk s (slice m 104 96) = false ∨
          ecdsaVerify (pointAt m 104) (shaNum (m.take 200 ++ s.sec.nonce)) (beAt m 200) (beAt m 248) = false →
        ∃ t, exec (.sesFinish p) s = .next t ∧ t.lst = s.lst ∧ rd t F.SEC_STATUS_result = rsAUTH ∧ sesState t = 0 ∧
          t.sec.refuseTo = s.tick + Config.tickHz ∧ rd t F.SEC_CNT_AUTH_ses_fail = counted s F.SEC_CNT_AUTH_ses_fail) ∧
      (leAt m 0 4 = 0x3253535A → leAt m 4 4 = 0 → ownerKeyOk s (slice m 104 96) = true →
          ecdsaVerify (pointAt m 104) (shaNum (m.take 200 ++ s.sec.nonce)) (beAt m 200) (beAt m 248) = true →
        ∃ t d, exec (.sesFinish p) s = .next t ∧ 1 ≤ d ∧ d < pN ∧
          (∀ x, ecdhX d (pointAt m 8) = some x → rd t F.SEC_STATUS_result = rsOK ∧ sesState t = 2 ∧ sesCtr t = 0 ∧ t.sec.lastAt = s.tick ∧
            t.sec.keys = hkdf72 x s.sec.nonce sesInfo) ∧
          (ecdhX d (pointAt m 8) = none → rd t F.SEC_STATUS_result = rsAUTH ∧ sesState t = 0)))) ∧
  (∀ (s : State) (p : Path), served s F.SEC_CTRL_ses_close.off true →
    ∃ t, exec (.sesClose p) s = .next t ∧ sesState t = 0 ∧ t.sec = { s.sec with keys := [], nonce := [], fails := 0 } ∧
      t = { s with reg := t.reg, sec := t.sec } ∧ regsKept s t [F.SEC_STATUS_session.off]) ∧
  (∀ s : State, (sesState s = 2 → ∃ t, exec .sessionIdleTimeout s = .next t ∧ sesState t = 0 ∧ t.tick = max s.tick (idleEnd s) ∧ memKept s t) ∧
    (sesState s ≠ 2 → exec .sessionIdleTimeout s = .next s)) ∧
  (∀ (s : State) (p : Path) (m : List Byte) (h : Nat), served s F.SEC_CTRL_enroll.off true → m = lstRd s (rd s F.SEC_SES_BUF_offset) 200 →
    h = ofLe (sha384 (slice m 8 96)) →
    (sesState s = 0 ∨ rd s F.SEC_STATUS_path = pathCode p → lifecycleOf s.sec = lcOPEN → wordsPoisoned s (rd s F.SEC_SES_BUF_offset) 200 = false →
      leAt m 0 4 = 0x314E455A → leAt m 4 4 = 0 →
      (ecdsaVerify (pointAt m 8) (shaNum (m.take 104 ++ leBytes Config.serial.toNat 8)) (beAt m 104) (beAt m 152) = false →
        ∃ t, exec (.secEnroll p) s = .next t ∧ t = { s with reg := t.reg } ∧ rd t F.SEC_STATUS_result = rsAUTH) ∧
      (ecdsaVerify (pointAt m 8) (shaNum (m.take 104 ++ leBytes Config.serial.toNat 8)) (beAt m 104) (beAt m 152) = true →
        ((∃ i, i < 384 ∧ s.sec.hash.testBit i = true ∧ h.testBit i = false) →
          ∃ t, exec (.secEnroll p) s = .next t ∧ t = { s with reg := t.reg } ∧ rd t F.SEC_STATUS_result = rsFUSE_CONFLICT) ∧
        ((∀ i, i < 384 → s.sec.hash.testBit i = true → h.testBit i = true) →
          ∃ t, exec (.secEnroll p) s = .next t ∧ memKept s t ∧ t.sec = { s.sec with hash := h, ownerLock := true, blow := t.sec.blow } ∧
            rd t F.SEC_STATUS_result = rsOK ∧ rd t F.SEC_STATUS_lifecycle = lcOWNED ∧ rd t F.SEC_FUSE_owner_lock = 1))) ∧
    (lifecycleOf s.sec ≠ lcOPEN →
      ∃ t, exec (.secEnroll p) s = .next t ∧ t = { s with reg := t.reg } ∧ rd t F.SEC_STATUS_result = rsBAD_STATE)) ∧
  (∀ (s : State) (p : Path) (a : Nat), served s F.SEC_CTRL_cert.off true → a = rd s F.SEC_ATT_BUF_offset →
    (lifecycleOf s.sec = lcRETIRED →
      (∃ t, exec (.secCert p) s = .next t ∧ t = { s with reg := t.reg } ∧ rd t F.SEC_STATUS_result = rsBAD_STATE) ∧
      (∃ t, exec (.secAtt p) s = .next t ∧ t = { s with reg := t.reg } ∧ rd t F.SEC_STATUS_result = rsBAD_STATE)) ∧
    (lifecycleOf s.sec ≠ lcRETIRED → sesState s = 0 ∨ rd s F.SEC_STATUS_path = pathCode p →
      (∃ t, exec (.secCert p) s = .next t ∧ rd t F.SEC_STATUS_result = rsOK ∧
        (offTable s a (Config.certChain.take 4096).length → lstRd t a (Config.certChain.take 4096).length = Config.certChain.take 4096) ∧
        rd t F.SEC_CERT_LEN_bytes = (Config.certChain.take 4096).length ∧ regsKept s t [F.SEC_STATUS_result.off, F.SEC_CERT_LEN_bytes.off] ∧
        ∀ x, x < a ∨ a + (Config.certChain.take 4096).length ≤ x → sget 0#8 t.lst x = sget 0#8 s.lst x) ∧
      (∃ t k, exec (.secAtt p) s = .next t ∧ 1 ≤ k ∧ k < pN ∧ rd t F.SEC_STATUS_result = rsOK ∧
        (offTable s a ((attBody s).length + 96) → lstRd t a (attBody s).length = attBody s ∧ lstRd t (a + (attBody s).length) 96 =
          beBytes (ecdsaSign identityD k (shaNum (attBody s))).1 48 ++ beBytes (ecdsaSign identityD k (shaNum (attBody s))).2 48) ∧
        regsKept s t [F.SEC_STATUS_result.off] ∧
        ∀ x, x < a ∨ a + (attBody s).length + 96 ≤ x → sget 0#8 t.lst x = sget 0#8 s.lst x))) ∧
  (∀ (s : State) (ok type1 : Bool),
    (hdcpLive s = true → s.sec.erased = false → domOn s 6 = true →
      ∃ t, exec (.hdcpAuthentication ok type1) s = .next t ∧ t = { s with reg := t.reg } ∧ regsKept s t [F.SEC_HDCP_STAT_auth.off] ∧
        rd t F.SEC_HDCP_STAT_auth = (if ok = true then 1 else 0) ∧ rd t F.SEC_HDCP_STAT_type1 = (if ok = true ∧ type1 = true then 1 else 0)) ∧
    (hdcpLive s = false ∨ s.sec.erased = true ∨ domOn s 6 = false → exec (.hdcpAuthentication ok type1) s = .next s))

/-- The JTAG lock leaves four instructions; in OWNED the others need a session; parts ship unlocked and JTAG_LOCK blows it. Formalises R477.
Its conclusion is exec … = .next t, with the own effect of: jtagLock, jtagInstruction. -/
def Obligations.JtagIsBarredByItsLock : Prop :=
  (∀ (s : State) (i : JtagInstr), (s.sec.jtagLock = true ∨ i ≠ .other) →
    exec (.jtagInstruction i) s = .next { s with sec.jtag := some (i, decide (i ∈ [JtagInstr.bypass, .idcode, .samplePreload, .extest])) }) ∧
  (∀ s : State, s.sec.jtagLock = false → lifecycleOf s.sec = lcOWNED →
    exec (.jtagInstruction .other) s = .next { s with sec.jtag := some (.other, decide (sesState s = 2)) }) ∧
  (∀ s : State, s.sec.jtagLock = false → lifecycleOf s.sec ≠ lcOWNED →
    exec (.jtagInstruction .other) s = .next { s with sec.jtag := some (.other, true) }) ∧
  State.reset.sec.jtagLock = false ∧
  (∀ (s m : State) (p : Path) (ctr : Nat) (body : List Byte), served s F.SEC_CTRL_ses_cmd.off true → cmdCheck s p = (some (ctr, body), m) → leAt body 0 1 = 6 →
    bodyZero body [] = true → ∃ t, exec (.jtagLock p) s = .next t ∧ t.sec.jtagLock = true ∧ rd t F.SEC_FUSE_jtag_lock = 1)

/-- Requests and wakes begin exits, sleep begins entries, domains switch on and off. Rests on R500, R502, R503, R504, R505, R506, R507, R508,
R509, R511, R513, R515. Its conclusion is exec … = .next t, with the own effect of: pwrWake, pwrSleep, pwrClrCnt, powerStateChoice,
domainSwitchOnDone, domainSwitchOffDone, auxTransaction, sdiCarrierDetect, mgtCsNWake, perstNWake, p3Exit. -/
def Obligations.DeviceStatesAndDomains : Prop :=
  (∀ s : State, served s F.PWR_CTRL_wake.off true → steady s → 1 ≤ pwrState s → pwrState s ≤ 3 →
    ∃ t, exec .pwrWake s = .next t ∧ memKept s t ∧ pwrTarget t = 0 ∧ rd t F.PWR_STATUS_last_wake = 2 ∧ rd t F.PWR_STATUS_sleep_pend = 0 ∧
      (pwrState s = 3 → t.pwr.exitDue = true ∧ pwrState t = 3 ∧ rd t F.PWR_STATUS_busy = 1) ∧
      (pwrState s ≠ 3 → rd s F.PWR_DOM_ON_on ≠ allDoms → t.pwr.stage = .exit ∧ pwrState t = pwrState s ∧ rd t F.PWR_STATUS_busy = 1)) ∧
  (∀ s : State, served s F.PWR_CTRL_sleep.off true → steady s → pwrState s = 0 →
    (rd s F.PWR_REQ_max_state = 0 → ∃ t, exec .pwrSleep s = .next t ∧ memKept s t ∧ rd t F.PWR_STATUS_sleep_pend = 1 ∧ pwrState t = 0 ∧
      pwrTarget t = pwrTarget s) ∧
    (5 ≤ rd s F.PWR_REQ_max_state → rd s F.PWR_LAT_TOL_us = 0xFFFFFFFF → ∃ t, exec .pwrSleep s = .next t ∧ pwrTarget t = 5)) ∧
  (∀ s : State, served s F.PWR_CTRL_clr_cnt.off true → steady s → pwrState s = 0 → rd s F.PWR_REQ_max_state = 0 →
    ∃ t, exec .pwrClrCnt s = .next t ∧ memKept s t ∧ cleared s t [F.PWR_CNT_STATE.off, F.PWR_OVC_TIME.off] ∧ t.pwr.ovc = 0 ∧
      rd t F.PWR_STATUS_wr_ign = 0 ∧ pwrState t = 0) ∧
  (∀ s : State, steady s →
    (pwrState s = 0 → rd s F.PWR_REQ_max_state = 0 → ∃ t, exec .powerStateChoice s = .next t ∧ memKept s t ∧ pwrState t = 0 ∧
      t.tick = max s.tick (s.pwr.choiceAt + Config.tickMs) ∧ pwrTarget t = pwrTarget s ∧ rdW t F.PWR_STATUS_state.off = rdW s F.PWR_STATUS_state.off) ∧
    (pwrState s = 0 → rd s F.PWR_REQ_max_state = 1 → 250 ≤ rd s F.PWR_LAT_TOL_us → ∃ t, exec .powerStateChoice s = .next t ∧ memKept s t ∧
      pwrTarget t = 1) ∧
    (pwrState s = 1 → rd s F.PWR_LAT_TOL_us < 250 → ∃ t, exec .powerStateChoice s = .next t ∧ memKept s t ∧ pwrTarget t = 0 ∧
      rd t F.PWR_STATUS_last_wake = 2)) ∧
  (∀ (s : State) (d : Dom),
    (maskHas s.pwr.oning d = true → ∃ t, exec (.domainSwitchOnDone d) s = .next t ∧ memKept s t ∧ t.tick = s.tick ∧ domOn t d = true ∧
      maskHas t.pwr.oning d = false) ∧
    (maskHas s.pwr.oning d = false → s.pwr.opened = 0 → exec (.domainSwitchOnDone d) s = .next s) ∧
    (maskHas s.pwr.offing d = true → s.pwr.stage ≠ .shutdown → lanesEmpty s d = true →
      ∃ t, exec (.domainSwitchOffDone d) s = .next t ∧ memKept s t ∧ domOn t d = false ∧
        (bitOf s F.PWR_DOM_PEND_pend d = false → bitOf t F.PWR_DOM_PEND_pend d = false) ∧
        (bitOf s F.PWR_DOM_PEND_pend d = true → maskHas t.pwr.opened d = true ∧ t.pwr.openAt = s.tick)) ∧
    (maskHas s.pwr.offing d = true → s.pwr.stage ≠ .shutdown → lanesEmpty s d = false → exec (.domainSwitchOffDone d) s = .next s) ∧
    (maskHas s.pwr.offing d = false → s.pwr.stage = .none → exec (.domainSwitchOffDone d) s = .next s)) ∧
  (∀ (s : State) (r : AuxReq),
    (domOn s 6 = false ∨ r ≠ .setPower true → ∃ t, exec (.auxTransaction r) s = .next t ∧ memKept s t ∧ t.pwr.auxDefer = !domOn s 6 ∧
      (inp t 0).since = s.tick ∧ (inp t 0).dpDown = none ∧
      (steady s → pwrState s = 2 → pwrTarget s = 2 → pwrTarget t = 0 ∧ rd t F.PWR_STATUS_last_wake = 1)) ∧
    (domOn s 6 = true → r = .setPower true → ∃ t, exec (.auxTransaction r) s = .next t ∧ t.reg = s.reg ∧ memKept s t ∧
      (inp t 0).dpDown = some s.tick ∧ t.pwr.auxDefer = false ∧ ∀ n, n ≠ 0 → inp t n = inp s n)) ∧
  (∀ (s : State) (n : Fin 4) (k : Nat), k = (if rd s (F.ING_IN_CFG_quad 1) = 1 then 1 else n.val + 1) →
    (inEnabled s (n.val + 1) = true ∨ (rd s (F.ING_IN_CFG_quad 1) = 1 ∧ inEnabled s 1 = true) →
      ∃ t, exec (.sdiCarrierDetect n) s = .next t ∧ memKept s t ∧ (inp t k).since = s.tick ∧ (inp t k).dpDown = none ∧
        (steady s → pwrState s = 2 → pwrTarget s = 2 → pwrTarget t = 0 ∧ rd t F.PWR_STATUS_last_wake = 1)) ∧
    (inEnabled s (n.val + 1) = false → rd s (F.ING_IN_CFG_quad 1) = 0 ∨ inEnabled s 1 = false → exec (.sdiCarrierDetect n) s = .next s)) ∧
  (∀ s : State, steady s →
    (rd s F.PWR_WAKE_EN_mgt = 1 → pwrState s = 3 ∨ pwrState s = 4 → ∃ t, exec .mgtCsNWake s = .next t ∧ memKept s t ∧
      t.pwr.exitDue = true ∧ pwrTarget t = 0 ∧ rd t F.PWR_STATUS_busy = 1 ∧ rd t F.PWR_STATUS_last_wake = 4 ∧ pwrState t = pwrState s ∧
      (t.pwr.wakeLow = true ↔ pwrState s = 4 ∨ s.pwr.wakeLow = true) ∧ regsKept s t [F.PWR_STATUS_state.off]) ∧
    (rd s F.PWR_WAKE_EN_perst = 1 → pwrState s = 4 → ∃ t, exec .perstNWake s = .next t ∧ memKept s t ∧ t.pwr.perst = true ∧
      t.pwr.exitDue = true ∧ pwrTarget t = 0 ∧ rd t F.PWR_STATUS_last_wake = 3 ∧ t.pwr.wakeLow = s.pwr.wakeLow ∧
      regsKept s t [F.PWR_STATUS_state.off]) ∧
    (rd s F.PWR_WAKE_EN_mgt = 0 → exec .mgtCsNWake s = .next s) ∧ (rd s F.PWR_WAKE_EN_perst = 0 → exec .perstNWake s = .next s)) ∧
  (∀ s : State,
    (pwrState s = 3 → s.pwr.exitDue = true → rd s F.PWR_DOM_ON_on ≠ allDoms → ∃ t, exec .p3Exit s = .next t ∧ memKept s t ∧ pwrState t = 3 ∧
      t.mem = { s.mem with trainAt := List.replicate 8 s.tick } ∧ t.pwr.stage = .exit ∧ t.pwr.fromP3 = true ∧
      (s.pwr.opened = 0 ∨ s.pwr.openAt ≠ s.tick → ∀ d, d < 30 → domOn s d = false → domCtl d = none → maskHas s.pwr.offing d = false → maskHas t.pwr.oning d = true)) ∧
    (pwrState s ≠ 3 ∨ s.pwr.exitDue = false → exec .p3Exit s = .next s))

/-- What each reset clears and keeps, and start-up from its checks to its end. Rests on R24, R392, R412, R516, R517, R518, R519, R520, R521,
R523, R544, R564. Its conclusion is exec … = .next t, with the own effect of: bootFlash, bootHost, p4Exit, dieSensorSample, perstNRise,
porNLow, porNRise, g6TrainTimeout, perstNLow, functionLevelReset. -/
def Obligations.ResetsAndStartUp : Prop :=
  (∀ s : State, ∃ t, exec .porNLow s = .next t ∧ t.reg = State.reset.reg ∧ t.shadow = State.reset.shadow ∧ t.tick = 0 ∧ t.gddr = [] ∧
    t.lst = [] ∧ t.boot = State.reset.boot ∧ t.psq = State.reset.psq ∧ t.pending = s.pending ∧
    (∀ i, (∀ e ∈ s.sec.blow, e.1 = i → e.2 ≤ s.tick) → fuse t.sec i = fuse s.sec i) ∧
    (∀ i, (∃ e ∈ s.sec.blow, e.1 = i) → (∀ e ∈ s.sec.blow, e.1 = i → s.tick + fuseTicks < e.2) → fuse t.sec i = false) ∧
    t.host.mem = s.host.mem ∧ (s.nv.jobs = [] → t.nvm = s.nvm) ∧ (s.nv.xf = none → s.age.ckpt = none → t.flash = s.flash)) ∧
  (∀ (s : State) (c : Instr), c ∈ [Instr.perstNLow, .functionLevelReset] →
    ∃ t, exec c s = .next t ∧ memKept s t ∧ t = { s with reg := t.reg, host := t.host, sec := t.sec, pwr := t.pwr } ∧
      t.host.busMaster = false ∧ t.host.d3hot = false ∧ t.host.aspmL1 = false ∧ t.host.msixMask = false ∧ sesState t = 0 ∧
      t.sec = { s.sec with keys := [], nonce := [], fails := 0 } ∧
      (∀ o ∈ [F.GEN_BAR2_LO.off, F.GEN_BAR2_HI.off, (F.GEN_MSIX_TABLE 0).off, (F.GEN_MSIX_TABLE 1).off, (F.GEN_MSIX_TABLE 2).off,
        F.GEN_MSIX_PBA.off], rdW t o = 0#32) ∧
      regsKept s t [F.GEN_BAR2_LO.off, F.GEN_BAR2_HI.off, (F.GEN_MSIX_TABLE 0).off, (F.GEN_MSIX_TABLE 1).off, (F.GEN_MSIX_TABLE 2).off,
        (F.GEN_MSIX_TABLE 3).off, F.GEN_MSIX_PBA.off, F.GEN_STATUS_link_up.off, F.SEC_STATUS_session.off] ∧
      (c = .functionLevelReset → rdW t F.GEN_STATUS_link_up.off = rdW s F.GEN_STATUS_link_up.off ∧ t.pwr = s.pwr) ∧
      (c = .perstNLow → rd t F.GEN_STATUS_link_up = 0 ∧ rd t F.GEN_STATUS_gen = 0 ∧ rd t F.GEN_STATUS_width = 0 ∧
        t.pwr = { s.pwr with perst := false })) ∧
  (∀ s : State, exec .perstNRise s = .next { s with pwr.wakeLow := false, pwr.perst := true }) ∧
  (∀ (s m u : State) (c : Instr) (e : BootEnv), (c = .porNRise e ∧ s.boot.step = 0 ∧ m = journalled s) ∨
      (c = .p4Exit e ∧ pwrState s = 4 ∧ s.pwr.exitDue = true ∧ m = p4State s) → u = atStep4 (gauntletStart (atStep3 m)) 0 e →
    (e.selfTestOk = false → ∃ t, exec c s = .next t ∧ waits t 3 0x20) ∧
    (e.selfTestOk = true → e.sfdpOk = false → ∃ t, exec c s = .next t ∧ waits t 4 0x01) ∧
    (∀ img, e.selfTestOk = true → e.sfdpOk = true → imgCheck u 0 = .ok img → ∃ t, exec c s = .next t ∧ started u t img e)) ∧
  (∀ (s : State) (e : BootEnv), (s.boot.step ≠ 0 → exec (.porNRise e) s = .next s) ∧
    (pwrState s ≠ 4 ∨ s.pwr.exitDue = false → exec (.p4Exit e) s = .next s)) ∧
  (∀ (s u : State) (c : Instr) (src : Nat) (e : BootEnv), served s F.NVM_BOOT_CMD_go.off true → (c, src) ∈ [(Instr.bootFlash e, 0), (.bootHost e, 1)] →
    u = atStep4 (bootStat (bootReset s) 0 0 0 0) src e →
    (rd s F.NVM_BOOT_STAT_state = 2 → rd s F.NVM_BOOT_STAT_code ≠ 0x20 → src = 0 ∨ rd s F.SEC_CFG_host_boot = 1 →
      (src = 0 → e.sfdpOk = false → ∃ t, exec c s = .next t ∧ waits t 4 0x01) ∧
      (∀ img, src = 1 ∨ e.sfdpOk = true → imgCheck u src = .ok img → ∃ t, exec c s = .next t ∧ started u t img e)) ∧
    (rd s F.NVM_BOOT_STAT_state ≠ 2 ∨ rd s F.NVM_BOOT_STAT_code = 0x20 ∨ (src = 1 ∧ rd s F.SEC_CFG_host_boot = 0) →
      ∃ t, exec c s = .next t ∧ t = { s with reg := t.reg, now := t.now } ∧ rd t F.NVM_STATUS_wr_ign = 1 ∧
        rd t F.NVM_CNT_ERR_wr_ign = counted s F.NVM_CNT_ERR_wr_ign ∧ regsKept s t [F.NVM_STATUS_wr_ign.off, F.NVM_CNT_ERR_wr_ign.off])) ∧
  (∀ (s : State) (c : Fin 8),
    (s.boot.step = 6 → maskHas (chansInUse s) c = true → ∃ t, exec (.g6TrainTimeout c) s = .next t ∧ waits t 6 0x21 ∧ memKept s t ∧
      bitOf t F.MEM_STATUS_fail c = true ∧ t.tick = max s.tick (s.boot.end5.getD s.tick + rd s F.MEM_TRAIN_init_ms * Config.tickMs)) ∧
    (s.boot.step ≠ 6 ∨ maskHas (chansInUse s) c = false → exec (.g6TrainTimeout c) s = .next s)) ∧
  (∀ (s : State) (rs : List (BitVec 16)), rs ≠ [] →
    ∃ t, exec (.dieSensorSample rs) s = .next t ∧ memKept s t ∧ (∀ x ∈ rs, x.toInt ≤ rdS t F.PPX_TEMP_die) ∧
      (∃ x ∈ rs, rdS t F.PPX_TEMP_die = x.toInt) ∧ (110 * 16 ≤ rdS t F.PPX_TEMP_die → bitOf t F.EVT_ALARM_alarm almTHERM = true) ∧
      regsKept s t [F.PPX_TEMP_die.off, F.EVT_ALARM_alarm.off])
end

