-- ==== Sys2Proof/Laws/State.lean ====
section
/-!
SUPPORT. What each named update of the state leaves alone: one lemma for each field, so that no proof unfolds a record update.
-/

namespace Sys2Proof.Machine

variable (s : State)

@[simp] theorem wrW_reg (o : Nat) (v : Word) : (wrW s o v).reg = sset 0#32 s.reg o v := rfl
@[simp] theorem wrShW_shadow (o : Nat) (v : Word) : (wrShW s o v).shadow = sset 0#32 s.shadow o v := rfl
@[simp] theorem reach_tick (t : Nat) : (reach s t).tick = max s.tick t := rfl
@[simp] theorem postRec_posted (r : Rec) : (postRec s r).evt.posted = insRec r s.evt.posted := rfl
@[simp] theorem lstWr_lst (a : Nat) (bs : List Byte) : (lstWr s a bs).lst = ssetList 0#8 s.lst a bs := rfl
@[simp] theorem flashWr_flash (a : Nat) (bs : List Byte) : (flashWr s a bs).flash = ssetList 0xFF#8 s.flash a bs := rfl
@[simp] theorem nvmWr_nvm (a : Nat) (bs : List Byte) : (nvmWr s a bs).nvm = ssetList 0#8 s.nvm a bs := rfl

@[simp] theorem wrW_tick (o : Nat) (v : Word) : (wrW s o v).tick = s.tick := rfl
@[simp] theorem wrW_shadow (o : Nat) (v : Word) : (wrW s o v).shadow = s.shadow := rfl
@[simp] theorem wrW_gddr (o : Nat) (v : Word) : (wrW s o v).gddr = s.gddr := rfl
@[simp] theorem wrW_lst (o : Nat) (v : Word) : (wrW s o v).lst = s.lst := rfl
@[simp] theorem wrW_flash (o : Nat) (v : Word) : (wrW s o v).flash = s.flash := rfl
@[simp] theorem wrW_nvm (o : Nat) (v : Word) : (wrW s o v).nvm = s.nvm := rfl
@[simp] theorem wrW_tmb (o : Nat) (v : Word) : (wrW s o v).tmb = s.tmb := rfl
@[simp] theorem wrW_exs (o : Nat) (v : Word) : (wrW s o v).exs = s.exs := rfl
@[simp] theorem wrW_blq (o : Nat) (v : Word) : (wrW s o v).blq = s.blq := rfl
@[simp] theorem wrW_ing (o : Nat) (v : Word) : (wrW s o v).ing = s.ing := rfl
@[simp] theorem wrW_cdc (o : Nat) (v : Word) : (wrW s o v).cdc = s.cdc := rfl
@[simp] theorem wrW_scn (o : Nat) (v : Word) : (wrW s o v).scn = s.scn := rfl
@[simp] theorem wrW_ppx (o : Nat) (v : Word) : (wrW s o v).ppx = s.ppx := rfl
@[simp] theorem wrW_age (o : Nat) (v : Word) : (wrW s o v).age = s.age := rfl
@[simp] theorem wrW_drv (o : Nat) (v : Word) : (wrW s o v).drv = s.drv := rfl
@[simp] theorem wrW_psq (o : Nat) (v : Word) : (wrW s o v).psq = s.psq := rfl
@[simp] theorem wrW_orl (o : Nat) (v : Word) : (wrW s o v).orl = s.orl := rfl
@[simp] theorem wrW_mem (o : Nat) (v : Word) : (wrW s o v).mem = s.mem := rfl
@[simp] theorem wrW_nv (o : Nat) (v : Word) : (wrW s o v).nv = s.nv := rfl
@[simp] theorem wrW_evt (o : Nat) (v : Word) : (wrW s o v).evt = s.evt := rfl
@[simp] theorem wrW_host (o : Nat) (v : Word) : (wrW s o v).host = s.host := rfl
@[simp] theorem wrW_sec (o : Nat) (v : Word) : (wrW s o v).sec = s.sec := rfl
@[simp] theorem wrW_pwr (o : Nat) (v : Word) : (wrW s o v).pwr = s.pwr := rfl
@[simp] theorem wrW_boot (o : Nat) (v : Word) : (wrW s o v).boot = s.boot := rfl
@[simp] theorem wrW_now (o : Nat) (v : Word) : (wrW s o v).now = s.now := rfl
@[simp] theorem wrW_fresh (o : Nat) (v : Word) : (wrW s o v).fresh = s.fresh := rfl
@[simp] theorem wrW_pending (o : Nat) (v : Word) : (wrW s o v).pending = s.pending := rfl

@[simp] theorem wr_tick (f : Fld) (x : Nat) : (wr s f x).tick = s.tick := rfl
@[simp] theorem wr_shadow (f : Fld) (x : Nat) : (wr s f x).shadow = s.shadow := rfl
@[simp] theorem wr_gddr (f : Fld) (x : Nat) : (wr s f x).gddr = s.gddr := rfl
@[simp] theorem wr_lst (f : Fld) (x : Nat) : (wr s f x).lst = s.lst := rfl
@[simp] theorem wr_flash (f : Fld) (x : Nat) : (wr s f x).flash = s.flash := rfl
@[simp] theorem wr_nvm (f : Fld) (x : Nat) : (wr s f x).nvm = s.nvm := rfl
@[simp] theorem wr_tmb (f : Fld) (x : Nat) : (wr s f x).tmb = s.tmb := rfl
@[simp] theorem wr_exs (f : Fld) (x : Nat) : (wr s f x).exs = s.exs := rfl
@[simp] theorem wr_blq (f : Fld) (x : Nat) : (wr s f x).blq = s.blq := rfl
@[simp] theorem wr_ing (f : Fld) (x : Nat) : (wr s f x).ing = s.ing := rfl
@[simp] theorem wr_cdc (f : Fld) (x : Nat) : (wr s f x).cdc = s.cdc := rfl
@[simp] theorem wr_scn (f : Fld) (x : Nat) : (wr s f x).scn = s.scn := rfl
@[simp] theorem wr_ppx (f : Fld) (x : Nat) : (wr s f x).ppx = s.ppx := rfl
@[simp] theorem wr_age (f : Fld) (x : Nat) : (wr s f x).age = s.age := rfl
@[simp] theorem wr_drv (f : Fld) (x : Nat) : (wr s f x).drv = s.drv := rfl
@[simp] theorem wr_psq (f : Fld) (x : Nat) : (wr s f x).psq = s.psq := rfl
@[simp] theorem wr_orl (f : Fld) (x : Nat) : (wr s f x).orl = s.orl := rfl
@[simp] theorem wr_mem (f : Fld) (x : Nat) : (wr s f x).mem = s.mem := rfl
@[simp] theorem wr_nv (f : Fld) (x : Nat) : (wr s f x).nv = s.nv := rfl
@[simp] theorem wr_evt (f : Fld) (x : Nat) : (wr s f x).evt = s.evt := rfl
@[simp] theorem wr_host (f : Fld) (x : Nat) : (wr s f x).host = s.host := rfl
@[simp] theorem wr_sec (f : Fld) (x : Nat) : (wr s f x).sec = s.sec := rfl
@[simp] theorem wr_pwr (f : Fld) (x : Nat) : (wr s f x).pwr = s.pwr := rfl
@[simp] theorem wr_boot (f : Fld) (x : Nat) : (wr s f x).boot = s.boot := rfl
@[simp] theorem wr_now (f : Fld) (x : Nat) : (wr s f x).now = s.now := rfl
@[simp] theorem wr_fresh (f : Fld) (x : Nat) : (wr s f x).fresh = s.fresh := rfl
@[simp] theorem wr_pending (f : Fld) (x : Nat) : (wr s f x).pending = s.pending := rfl

@[simp] theorem wrS_tick (f : Fld) (x : Int) : (wrS s f x).tick = s.tick := rfl
@[simp] theorem wrS_shadow (f : Fld) (x : Int) : (wrS s f x).shadow = s.shadow := rfl
@[simp] theorem wrS_gddr (f : Fld) (x : Int) : (wrS s f x).gddr = s.gddr := rfl
@[simp] theorem wrS_lst (f : Fld) (x : Int) : (wrS s f x).lst = s.lst := rfl
@[simp] theorem wrS_flash (f : Fld) (x : Int) : (wrS s f x).flash = s.flash := rfl
@[simp] theorem wrS_nvm (f : Fld) (x : Int) : (wrS s f x).nvm = s.nvm := rfl
@[simp] theorem wrS_tmb (f : Fld) (x : Int) : (wrS s f x).tmb = s.tmb := rfl
@[simp] theorem wrS_exs (f : Fld) (x : Int) : (wrS s f x).exs = s.exs := rfl
@[simp] theorem wrS_blq (f : Fld) (x : Int) : (wrS s f x).blq = s.blq := rfl
@[simp] theorem wrS_ing (f : Fld) (x : Int) : (wrS s f x).ing = s.ing := rfl
@[simp] theorem wrS_cdc (f : Fld) (x : Int) : (wrS s f x).cdc = s.cdc := rfl
@[simp] theorem wrS_scn (f : Fld) (x : Int) : (wrS s f x).scn = s.scn := rfl
@[simp] theorem wrS_ppx (f : Fld) (x : Int) : (wrS s f x).ppx = s.ppx := rfl
@[simp] theorem wrS_age (f : Fld) (x : Int) : (wrS s f x).age = s.age := rfl
@[simp] theorem wrS_drv (f : Fld) (x : Int) : (wrS s f x).drv = s.drv := rfl
@[simp] theorem wrS_psq (f : Fld) (x : Int) : (wrS s f x).psq = s.psq := rfl
@[simp] theorem wrS_orl (f : Fld) (x : Int) : (wrS s f x).orl = s.orl := rfl
@[simp] theorem wrS_mem (f : Fld) (x : Int) : (wrS s f x).mem = s.mem := rfl
@[simp] theorem wrS_nv (f : Fld) (x : Int) : (wrS s f x).nv = s.nv := rfl
@[simp] theorem wrS_evt (f : Fld) (x : Int) : (wrS s f x).evt = s.evt := rfl
@[simp] theorem wrS_host (f : Fld) (x : Int) : (wrS s f x).host = s.host := rfl
@[simp] theorem wrS_sec (f : Fld) (x : Int) : (wrS s f x).sec = s.sec := rfl
@[simp] theorem wrS_pwr (f : Fld) (x : Int) : (wrS s f x).pwr = s.pwr := rfl
@[simp] theorem wrS_boot (f : Fld) (x : Int) : (wrS s f x).boot = s.boot := rfl
@[simp] theorem wrS_now (f : Fld) (x : Int) : (wrS s f x).now = s.now := rfl
@[simp] theorem wrS_fresh (f : Fld) (x : Int) : (wrS s f x).fresh = s.fresh := rfl
@[simp] theorem wrS_pending (f : Fld) (x : Int) : (wrS s f x).pending = s.pending := rfl

@[simp] theorem wrB_tick (f : Fld) (b : Bool) : (wrB s f b).tick = s.tick := rfl
@[simp] theorem wrB_shadow (f : Fld) (b : Bool) : (wrB s f b).shadow = s.shadow := rfl
@[simp] theorem wrB_gddr (f : Fld) (b : Bool) : (wrB s f b).gddr = s.gddr := rfl
@[simp] theorem wrB_lst (f : Fld) (b : Bool) : (wrB s f b).lst = s.lst := rfl
@[simp] theorem wrB_flash (f : Fld) (b : Bool) : (wrB s f b).flash = s.flash := rfl
@[simp] theorem wrB_nvm (f : Fld) (b : Bool) : (wrB s f b).nvm = s.nvm := rfl
@[simp] theorem wrB_tmb (f : Fld) (b : Bool) : (wrB s f b).tmb = s.tmb := rfl
@[simp] theorem wrB_exs (f : Fld) (b : Bool) : (wrB s f b).exs = s.exs := rfl
@[simp] theorem wrB_blq (f : Fld) (b : Bool) : (wrB s f b).blq = s.blq := rfl
@[simp] theorem wrB_ing (f : Fld) (b : Bool) : (wrB s f b).ing = s.ing := rfl
@[simp] theorem wrB_cdc (f : Fld) (b : Bool) : (wrB s f b).cdc = s.cdc := rfl
@[simp] theorem wrB_scn (f : Fld) (b : Bool) : (wrB s f b).scn = s.scn := rfl
@[simp] theorem wrB_ppx (f : Fld) (b : Bool) : (wrB s f b).ppx = s.ppx := rfl
@[simp] theorem wrB_age (f : Fld) (b : Bool) : (wrB s f b).age = s.age := rfl
@[simp] theorem wrB_drv (f : Fld) (b : Bool) : (wrB s f b).drv = s.drv := rfl
@[simp] theorem wrB_psq (f : Fld) (b : Bool) : (wrB s f b).psq = s.psq := rfl
@[simp] theorem wrB_orl (f : Fld) (b : Bool) : (wrB s f b).orl = s.orl := rfl
@[simp] theorem wrB_mem (f : Fld) (b : Bool) : (wrB s f b).mem = s.mem := rfl
@[simp] theorem wrB_nv (f : Fld) (b : Bool) : (wrB s f b).nv = s.nv := rfl
@[simp] theorem wrB_evt (f : Fld) (b : Bool) : (wrB s f b).evt = s.evt := rfl
@[simp] theorem wrB_host (f : Fld) (b : Bool) : (wrB s f b).host = s.host := rfl
@[simp] theorem wrB_sec (f : Fld) (b : Bool) : (wrB s f b).sec = s.sec := rfl
@[simp] theorem wrB_pwr (f : Fld) (b : Bool) : (wrB s f b).pwr = s.pwr := rfl
@[simp] theorem wrB_boot (f : Fld) (b : Bool) : (wrB s f b).boot = s.boot := rfl
@[simp] theorem wrB_now (f : Fld) (b : Bool) : (wrB s f b).now = s.now := rfl
@[simp] theorem wrB_fresh (f : Fld) (b : Bool) : (wrB s f b).fresh = s.fresh := rfl
@[simp] theorem wrB_pending (f : Fld) (b : Bool) : (wrB s f b).pending = s.pending := rfl

@[simp] theorem bump_tick (f : Fld) : (bump s f).tick = s.tick := rfl
@[simp] theorem bump_shadow (f : Fld) : (bump s f).shadow = s.shadow := rfl
@[simp] theorem bump_gddr (f : Fld) : (bump s f).gddr = s.gddr := rfl
@[simp] theorem bump_lst (f : Fld) : (bump s f).lst = s.lst := rfl
@[simp] theorem bump_flash (f : Fld) : (bump s f).flash = s.flash := rfl
@[simp] theorem bump_nvm (f : Fld) : (bump s f).nvm = s.nvm := rfl
@[simp] theorem bump_tmb (f : Fld) : (bump s f).tmb = s.tmb := rfl
@[simp] theorem bump_exs (f : Fld) : (bump s f).exs = s.exs := rfl
@[simp] theorem bump_blq (f : Fld) : (bump s f).blq = s.blq := rfl
@[simp] theorem bump_ing (f : Fld) : (bump s f).ing = s.ing := rfl
@[simp] theorem bump_cdc (f : Fld) : (bump s f).cdc = s.cdc := rfl
@[simp] theorem bump_scn (f : Fld) : (bump s f).scn = s.scn := rfl
@[simp] theorem bump_ppx (f : Fld) : (bump s f).ppx = s.ppx := rfl
@[simp] theorem bump_age (f : Fld) : (bump s f).age = s.age := rfl
@[simp] theorem bump_drv (f : Fld) : (bump s f).drv = s.drv := rfl
@[simp] theorem bump_psq (f : Fld) : (bump s f).psq = s.psq := rfl
@[simp] theorem bump_orl (f : Fld) : (bump s f).orl = s.orl := rfl
@[simp] theorem bump_mem (f : Fld) : (bump s f).mem = s.mem := rfl
@[simp] theorem bump_nv (f : Fld) : (bump s f).nv = s.nv := rfl
@[simp] theorem bump_evt (f : Fld) : (bump s f).evt = s.evt := rfl
@[simp] theorem bump_host (f : Fld) : (bump s f).host = s.host := rfl
@[simp] theorem bump_sec (f : Fld) : (bump s f).sec = s.sec := rfl
@[simp] theorem bump_pwr (f : Fld) : (bump s f).pwr = s.pwr := rfl
@[simp] theorem bump_boot (f : Fld) : (bump s f).boot = s.boot := rfl
@[simp] theorem bump_fresh (f : Fld) : (bump s f).fresh = s.fresh := rfl
@[simp] theorem bump_pending (f : Fld) : (bump s f).pending = s.pending := rfl

@[simp] theorem bumpN_tick (f : Fld) (n : Nat) : (bumpN s f n).tick = s.tick := rfl
@[simp] theorem bumpN_shadow (f : Fld) (n : Nat) : (bumpN s f n).shadow = s.shadow := rfl
@[simp] theorem bumpN_gddr (f : Fld) (n : Nat) : (bumpN s f n).gddr = s.gddr := rfl
@[simp] theorem bumpN_lst (f : Fld) (n : Nat) : (bumpN s f n).lst = s.lst := rfl
@[simp] theorem bumpN_flash (f : Fld) (n : Nat) : (bumpN s f n).flash = s.flash := rfl
@[simp] theorem bumpN_nvm (f : Fld) (n : Nat) : (bumpN s f n).nvm = s.nvm := rfl
@[simp] theorem bumpN_tmb (f : Fld) (n : Nat) : (bumpN s f n).tmb = s.tmb := rfl
@[simp] theorem bumpN_exs (f : Fld) (n : Nat) : (bumpN s f n).exs = s.exs := rfl
@[simp] theorem bumpN_blq (f : Fld) (n : Nat) : (bumpN s f n).blq = s.blq := rfl
@[simp] theorem bumpN_ing (f : Fld) (n : Nat) : (bumpN s f n).ing = s.ing := rfl
@[simp] theorem bumpN_cdc (f : Fld) (n : Nat) : (bumpN s f n).cdc = s.cdc := rfl
@[simp] theorem bumpN_scn (f : Fld) (n : Nat) : (bumpN s f n).scn = s.scn := rfl
@[simp] theorem bumpN_ppx (f : Fld) (n : Nat) : (bumpN s f n).ppx = s.ppx := rfl
@[simp] theorem bumpN_age (f : Fld) (n : Nat) : (bumpN s f n).age = s.age := rfl
@[simp] theorem bumpN_drv (f : Fld) (n : Nat) : (bumpN s f n).drv = s.drv := rfl
@[simp] theorem bumpN_psq (f : Fld) (n : Nat) : (bumpN s f n).psq = s.psq := rfl
@[simp] theorem bumpN_orl (f : Fld) (n : Nat) : (bumpN s f n).orl = s.orl := rfl
@[simp] theorem bumpN_mem (f : Fld) (n : Nat) : (bumpN s f n).mem = s.mem := rfl
@[simp] theorem bumpN_nv (f : Fld) (n : Nat) : (bumpN s f n).nv = s.nv := rfl
@[simp] theorem bumpN_evt (f : Fld) (n : Nat) : (bumpN s f n).evt = s.evt := rfl
@[simp] theorem bumpN_host (f : Fld) (n : Nat) : (bumpN s f n).host = s.host := rfl
@[simp] theorem bumpN_sec (f : Fld) (n : Nat) : (bumpN s f n).sec = s.sec := rfl
@[simp] theorem bumpN_pwr (f : Fld) (n : Nat) : (bumpN s f n).pwr = s.pwr := rfl
@[simp] theorem bumpN_boot (f : Fld) (n : Nat) : (bumpN s f n).boot = s.boot := rfl
@[simp] theorem bumpN_fresh (f : Fld) (n : Nat) : (bumpN s f n).fresh = s.fresh := rfl
@[simp] theorem bumpN_pending (f : Fld) (n : Nat) : (bumpN s f n).pending = s.pending := rfl

@[simp] theorem setBitOf_tick (f : Fld) (i : Nat) (b : Bool) : (setBitOf s f i b).tick = s.tick := rfl
@[simp] theorem setBitOf_shadow (f : Fld) (i : Nat) (b : Bool) : (setBitOf s f i b).shadow = s.shadow := rfl
@[simp] theorem setBitOf_gddr (f : Fld) (i : Nat) (b : Bool) : (setBitOf s f i b).gddr = s.gddr := rfl
@[simp] theorem setBitOf_lst (f : Fld) (i : Nat) (b : Bool) : (setBitOf s f i b).lst = s.lst := rfl
@[simp] theorem setBitOf_flash (f : Fld) (i : Nat) (b : Bool) : (setBitOf s f i b).flash = s.flash := rfl
@[simp] theorem setBitOf_nvm (f : Fld) (i : Nat) (b : Bool) : (setBitOf s f i b).nvm = s.nvm := rfl
@[simp] theorem setBitOf_tmb (f : Fld) (i : Nat) (b : Bool) : (setBitOf s f i b).tmb = s.tmb := rfl
@[simp] theorem setBitOf_exs (f : Fld) (i : Nat) (b : Bool) : (setBitOf s f i b).exs = s.exs := rfl
@[simp] theorem setBitOf_blq (f : Fld) (i : Nat) (b : Bool) : (setBitOf s f i b).blq = s.blq := rfl
@[simp] theorem setBitOf_ing (f : Fld) (i : Nat) (b : Bool) : (setBitOf s f i b).ing = s.ing := rfl
@[simp] theorem setBitOf_cdc (f : Fld) (i : Nat) (b : Bool) : (setBitOf s f i b).cdc = s.cdc := rfl
@[simp] theorem setBitOf_scn (f : Fld) (i : Nat) (b : Bool) : (setBitOf s f i b).scn = s.scn := rfl
@[simp] theorem setBitOf_ppx (f : Fld) (i : Nat) (b : Bool) : (setBitOf s f i b).ppx = s.ppx := rfl
@[simp] theorem setBitOf_age (f : Fld) (i : Nat) (b : Bool) : (setBitOf s f i b).age = s.age := rfl
@[simp] theorem setBitOf_drv (f : Fld) (i : Nat) (b : Bool) : (setBitOf s f i b).drv = s.drv := rfl
@[simp] theorem setBitOf_psq (f : Fld) (i : Nat) (b : Bool) : (setBitOf s f i b).psq = s.psq := rfl
@[simp] theorem setBitOf_orl (f : Fld) (i : Nat) (b : Bool) : (setBitOf s f i b).orl = s.orl := rfl
@[simp] theorem setBitOf_mem (f : Fld) (i : Nat) (b : Bool) : (setBitOf s f i b).mem = s.mem := rfl
@[simp] theorem setBitOf_nv (f : Fld) (i : Nat) (b : Bool) : (setBitOf s f i b).nv = s.nv := rfl
@[simp] theorem setBitOf_evt (f : Fld) (i : Nat) (b : Bool) : (setBitOf s f i b).evt = s.evt := rfl
@[simp] theorem setBitOf_host (f : Fld) (i : Nat) (b : Bool) : (setBitOf s f i b).host = s.host := rfl
@[simp] theorem setBitOf_sec (f : Fld) (i : Nat) (b : Bool) : (setBitOf s f i b).sec = s.sec := rfl
@[simp] theorem setBitOf_pwr (f : Fld) (i : Nat) (b : Bool) : (setBitOf s f i b).pwr = s.pwr := rfl
@[simp] theorem setBitOf_boot (f : Fld) (i : Nat) (b : Bool) : (setBitOf s f i b).boot = s.boot := rfl
@[simp] theorem setBitOf_now (f : Fld) (i : Nat) (b : Bool) : (setBitOf s f i b).now = s.now := rfl
@[simp] theorem setBitOf_fresh (f : Fld) (i : Nat) (b : Bool) : (setBitOf s f i b).fresh = s.fresh := rfl
@[simp] theorem setBitOf_pending (f : Fld) (i : Nat) (b : Bool) : (setBitOf s f i b).pending = s.pending := rfl

@[simp] theorem hwSet_tick (f : Fld) (i : Nat) : (hwSet s f i).tick = s.tick := rfl
@[simp] theorem hwSet_shadow (f : Fld) (i : Nat) : (hwSet s f i).shadow = s.shadow := rfl
@[simp] theorem hwSet_gddr (f : Fld) (i : Nat) : (hwSet s f i).gddr = s.gddr := rfl
@[simp] theorem hwSet_lst (f : Fld) (i : Nat) : (hwSet s f i).lst = s.lst := rfl
@[simp] theorem hwSet_flash (f : Fld) (i : Nat) : (hwSet s f i).flash = s.flash := rfl
@[simp] theorem hwSet_nvm (f : Fld) (i : Nat) : (hwSet s f i).nvm = s.nvm := rfl
@[simp] theorem hwSet_tmb (f : Fld) (i : Nat) : (hwSet s f i).tmb = s.tmb := rfl
@[simp] theorem hwSet_exs (f : Fld) (i : Nat) : (hwSet s f i).exs = s.exs := rfl
@[simp] theorem hwSet_blq (f : Fld) (i : Nat) : (hwSet s f i).blq = s.blq := rfl
@[simp] theorem hwSet_ing (f : Fld) (i : Nat) : (hwSet s f i).ing = s.ing := rfl
@[simp] theorem hwSet_cdc (f : Fld) (i : Nat) : (hwSet s f i).cdc = s.cdc := rfl
@[simp] theorem hwSet_scn (f : Fld) (i : Nat) : (hwSet s f i).scn = s.scn := rfl
@[simp] theorem hwSet_ppx (f : Fld) (i : Nat) : (hwSet s f i).ppx = s.ppx := rfl
@[simp] theorem hwSet_age (f : Fld) (i : Nat) : (hwSet s f i).age = s.age := rfl
@[simp] theorem hwSet_drv (f : Fld) (i : Nat) : (hwSet s f i).drv = s.drv := rfl
@[simp] theorem hwSet_psq (f : Fld) (i : Nat) : (hwSet s f i).psq = s.psq := rfl
@[simp] theorem hwSet_orl (f : Fld) (i : Nat) : (hwSet s f i).orl = s.orl := rfl
@[simp] theorem hwSet_mem (f : Fld) (i : Nat) : (hwSet s f i).mem = s.mem := rfl
@[simp] theorem hwSet_nv (f : Fld) (i : Nat) : (hwSet s f i).nv = s.nv := rfl
@[simp] theorem hwSet_evt (f : Fld) (i : Nat) : (hwSet s f i).evt = s.evt := rfl
@[simp] theorem hwSet_host (f : Fld) (i : Nat) : (hwSet s f i).host = s.host := rfl
@[simp] theorem hwSet_sec (f : Fld) (i : Nat) : (hwSet s f i).sec = s.sec := rfl
@[simp] theorem hwSet_pwr (f : Fld) (i : Nat) : (hwSet s f i).pwr = s.pwr := rfl
@[simp] theorem hwSet_boot (f : Fld) (i : Nat) : (hwSet s f i).boot = s.boot := rfl
@[simp] theorem hwSet_fresh (f : Fld) (i : Nat) : (hwSet s f i).fresh = s.fresh := rfl
@[simp] theorem hwSet_pending (f : Fld) (i : Nat) : (hwSet s f i).pending = s.pending := rfl

@[simp] theorem clearCnt_tick (f : Fld) : (clearCnt s f).tick = s.tick := rfl
@[simp] theorem clearCnt_shadow (f : Fld) : (clearCnt s f).shadow = s.shadow := rfl
@[simp] theorem clearCnt_gddr (f : Fld) : (clearCnt s f).gddr = s.gddr := rfl
@[simp] theorem clearCnt_lst (f : Fld) : (clearCnt s f).lst = s.lst := rfl
@[simp] theorem clearCnt_flash (f : Fld) : (clearCnt s f).flash = s.flash := rfl
@[simp] theorem clearCnt_nvm (f : Fld) : (clearCnt s f).nvm = s.nvm := rfl
@[simp] theorem clearCnt_tmb (f : Fld) : (clearCnt s f).tmb = s.tmb := rfl
@[simp] theorem clearCnt_exs (f : Fld) : (clearCnt s f).exs = s.exs := rfl
@[simp] theorem clearCnt_blq (f : Fld) : (clearCnt s f).blq = s.blq := rfl
@[simp] theorem clearCnt_ing (f : Fld) : (clearCnt s f).ing = s.ing := rfl
@[simp] theorem clearCnt_cdc (f : Fld) : (clearCnt s f).cdc = s.cdc := rfl
@[simp] theorem clearCnt_scn (f : Fld) : (clearCnt s f).scn = s.scn := rfl
@[simp] theorem clearCnt_ppx (f : Fld) : (clearCnt s f).ppx = s.ppx := rfl
@[simp] theorem clearCnt_age (f : Fld) : (clearCnt s f).age = s.age := rfl
@[simp] theorem clearCnt_drv (f : Fld) : (clearCnt s f).drv = s.drv := rfl
@[simp] theorem clearCnt_psq (f : Fld) : (clearCnt s f).psq = s.psq := rfl
@[simp] theorem clearCnt_orl (f : Fld) : (clearCnt s f).orl = s.orl := rfl
@[simp] theorem clearCnt_mem (f : Fld) : (clearCnt s f).mem = s.mem := rfl
@[simp] theorem clearCnt_nv (f : Fld) : (clearCnt s f).nv = s.nv := rfl
@[simp] theorem clearCnt_evt (f : Fld) : (clearCnt s f).evt = s.evt := rfl
@[simp] theorem clearCnt_host (f : Fld) : (clearCnt s f).host = s.host := rfl
@[simp] theorem clearCnt_sec (f : Fld) : (clearCnt s f).sec = s.sec := rfl
@[simp] theorem clearCnt_pwr (f : Fld) : (clearCnt s f).pwr = s.pwr := rfl
@[simp] theorem clearCnt_boot (f : Fld) : (clearCnt s f).boot = s.boot := rfl
@[simp] theorem clearCnt_now (f : Fld) : (clearCnt s f).now = s.now := rfl
@[simp] theorem clearCnt_fresh (f : Fld) : (clearCnt s f).fresh = s.fresh := rfl
@[simp] theorem clearCnt_pending (f : Fld) : (clearCnt s f).pending = s.pending := rfl

@[simp] theorem wrShW_tick (o : Nat) (v : Word) : (wrShW s o v).tick = s.tick := rfl
@[simp] theorem wrShW_reg (o : Nat) (v : Word) : (wrShW s o v).reg = s.reg := rfl
@[simp] theorem wrShW_gddr (o : Nat) (v : Word) : (wrShW s o v).gddr = s.gddr := rfl
@[simp] theorem wrShW_lst (o : Nat) (v : Word) : (wrShW s o v).lst = s.lst := rfl
@[simp] theorem wrShW_flash (o : Nat) (v : Word) : (wrShW s o v).flash = s.flash := rfl
@[simp] theorem wrShW_nvm (o : Nat) (v : Word) : (wrShW s o v).nvm = s.nvm := rfl
@[simp] theorem wrShW_tmb (o : Nat) (v : Word) : (wrShW s o v).tmb = s.tmb := rfl
@[simp] theorem wrShW_exs (o : Nat) (v : Word) : (wrShW s o v).exs = s.exs := rfl
@[simp] theorem wrShW_blq (o : Nat) (v : Word) : (wrShW s o v).blq = s.blq := rfl
@[simp] theorem wrShW_ing (o : Nat) (v : Word) : (wrShW s o v).ing = s.ing := rfl
@[simp] theorem wrShW_cdc (o : Nat) (v : Word) : (wrShW s o v).cdc = s.cdc := rfl
@[simp] theorem wrShW_scn (o : Nat) (v : Word) : (wrShW s o v).scn = s.scn := rfl
@[simp] theorem wrShW_ppx (o : Nat) (v : Word) : (wrShW s o v).ppx = s.ppx := rfl
@[simp] theorem wrShW_age (o : Nat) (v : Word) : (wrShW s o v).age = s.age := rfl
@[simp] theorem wrShW_drv (o : Nat) (v : Word) : (wrShW s o v).drv = s.drv := rfl
@[simp] theorem wrShW_psq (o : Nat) (v : Word) : (wrShW s o v).psq = s.psq := rfl
@[simp] theorem wrShW_orl (o : Nat) (v : Word) : (wrShW s o v).orl = s.orl := rfl
@[simp] theorem wrShW_mem (o : Nat) (v : Word) : (wrShW s o v).mem = s.mem := rfl
@[simp] theorem wrShW_nv (o : Nat) (v : Word) : (wrShW s o v).nv = s.nv := rfl
@[simp] theorem wrShW_evt (o : Nat) (v : Word) : (wrShW s o v).evt = s.evt := rfl
@[simp] theorem wrShW_host (o : Nat) (v : Word) : (wrShW s o v).host = s.host := rfl
@[simp] theorem wrShW_sec (o : Nat) (v : Word) : (wrShW s o v).sec = s.sec := rfl
@[simp] theorem wrShW_pwr (o : Nat) (v : Word) : (wrShW s o v).pwr = s.pwr := rfl
@[simp] theorem wrShW_boot (o : Nat) (v : Word) : (wrShW s o v).boot = s.boot := rfl
@[simp] theorem wrShW_now (o : Nat) (v : Word) : (wrShW s o v).now = s.now := rfl
@[simp] theorem wrShW_fresh (o : Nat) (v : Word) : (wrShW s o v).fresh = s.fresh := rfl
@[simp] theorem wrShW_pending (o : Nat) (v : Word) : (wrShW s o v).pending = s.pending := rfl

@[simp] theorem reach_reg (t : Nat) : (reach s t).reg = s.reg := rfl
@[simp] theorem reach_shadow (t : Nat) : (reach s t).shadow = s.shadow := rfl
@[simp] theorem reach_gddr (t : Nat) : (reach s t).gddr = s.gddr := rfl
@[simp] theorem reach_lst (t : Nat) : (reach s t).lst = s.lst := rfl
@[simp] theorem reach_flash (t : Nat) : (reach s t).flash = s.flash := rfl
@[simp] theorem reach_nvm (t : Nat) : (reach s t).nvm = s.nvm := rfl
@[simp] theorem reach_tmb (t : Nat) : (reach s t).tmb = s.tmb := rfl
@[simp] theorem reach_exs (t : Nat) : (reach s t).exs = s.exs := rfl
@[simp] theorem reach_blq (t : Nat) : (reach s t).blq = s.blq := rfl
@[simp] theorem reach_ing (t : Nat) : (reach s t).ing = s.ing := rfl
@[simp] theorem reach_cdc (t : Nat) : (reach s t).cdc = s.cdc := rfl
@[simp] theorem reach_scn (t : Nat) : (reach s t).scn = s.scn := rfl
@[simp] theorem reach_ppx (t : Nat) : (reach s t).ppx = s.ppx := rfl
@[simp] theorem reach_age (t : Nat) : (reach s t).age = s.age := rfl
@[simp] theorem reach_drv (t : Nat) : (reach s t).drv = s.drv := rfl
@[simp] theorem reach_psq (t : Nat) : (reach s t).psq = s.psq := rfl
@[simp] theorem reach_orl (t : Nat) : (reach s t).orl = s.orl := rfl
@[simp] theorem reach_mem (t : Nat) : (reach s t).mem = s.mem := rfl
@[simp] theorem reach_nv (t : Nat) : (reach s t).nv = s.nv := rfl
@[simp] theorem reach_evt (t : Nat) : (reach s t).evt = s.evt := rfl
@[simp] theorem reach_host (t : Nat) : (reach s t).host = s.host := rfl
@[simp] theorem reach_sec (t : Nat) : (reach s t).sec = s.sec := rfl
@[simp] theorem reach_pwr (t : Nat) : (reach s t).pwr = s.pwr := rfl
@[simp] theorem reach_boot (t : Nat) : (reach s t).boot = s.boot := rfl
@[simp] theorem reach_now (t : Nat) : (reach s t).now = s.now := rfl
@[simp] theorem reach_fresh (t : Nat) : (reach s t).fresh = s.fresh := rfl
@[simp] theorem reach_pending (t : Nat) : (reach s t).pending = s.pending := rfl

@[simp] theorem postRec_tick (r : Rec) : (postRec s r).tick = s.tick := rfl
@[simp] theorem postRec_reg (r : Rec) : (postRec s r).reg = s.reg := rfl
@[simp] theorem postRec_shadow (r : Rec) : (postRec s r).shadow = s.shadow := rfl
@[simp] theorem postRec_gddr (r : Rec) : (postRec s r).gddr = s.gddr := rfl
@[simp] theorem postRec_lst (r : Rec) : (postRec s r).lst = s.lst := rfl
@[simp] theorem postRec_flash (r : Rec) : (postRec s r).flash = s.flash := rfl
@[simp] theorem postRec_nvm (r : Rec) : (postRec s r).nvm = s.nvm := rfl
@[simp] theorem postRec_tmb (r : Rec) : (postRec s r).tmb = s.tmb := rfl
@[simp] theorem postRec_exs (r : Rec) : (postRec s r).exs = s.exs := rfl
@[simp] theorem postRec_blq (r : Rec) : (postRec s r).blq = s.blq := rfl
@[simp] theorem postRec_ing (r : Rec) : (postRec s r).ing = s.ing := rfl
@[simp] theorem postRec_cdc (r : Rec) : (postRec s r).cdc = s.cdc := rfl
@[simp] theorem postRec_scn (r : Rec) : (postRec s r).scn = s.scn := rfl
@[simp] theorem postRec_ppx (r : Rec) : (postRec s r).ppx = s.ppx := rfl
@[simp] theorem postRec_age (r : Rec) : (postRec s r).age = s.age := rfl
@[simp] theorem postRec_drv (r : Rec) : (postRec s r).drv = s.drv := rfl
@[simp] theorem postRec_psq (r : Rec) : (postRec s r).psq = s.psq := rfl
@[simp] theorem postRec_orl (r : Rec) : (postRec s r).orl = s.orl := rfl
@[simp] theorem postRec_mem (r : Rec) : (postRec s r).mem = s.mem := rfl
@[simp] theorem postRec_nv (r : Rec) : (postRec s r).nv = s.nv := rfl
@[simp] theorem postRec_host (r : Rec) : (postRec s r).host = s.host := rfl
@[simp] theorem postRec_sec (r : Rec) : (postRec s r).sec = s.sec := rfl
@[simp] theorem postRec_pwr (r : Rec) : (postRec s r).pwr = s.pwr := rfl
@[simp] theorem postRec_boot (r : Rec) : (postRec s r).boot = s.boot := rfl
@[simp] theorem postRec_now (r : Rec) : (postRec s r).now = s.now := rfl
@[simp] theorem postRec_fresh (r : Rec) : (postRec s r).fresh = s.fresh := rfl
@[simp] theorem postRec_pending (r : Rec) : (postRec s r).pending = s.pending := rfl

@[simp] theorem post_tick (cls blk inst : Nat) (f : Fld) (qs : List (Nat × Nat)) : (post s cls blk inst f qs).tick = s.tick := rfl
@[simp] theorem post_reg (cls blk inst : Nat) (f : Fld) (qs : List (Nat × Nat)) : (post s cls blk inst f qs).reg = s.reg := rfl
@[simp] theorem post_shadow (cls blk inst : Nat) (f : Fld) (qs : List (Nat × Nat)) : (post s cls blk inst f qs).shadow = s.shadow := rfl
@[simp] theorem post_gddr (cls blk inst : Nat) (f : Fld) (qs : List (Nat × Nat)) : (post s cls blk inst f qs).gddr = s.gddr := rfl
@[simp] theorem post_lst (cls blk inst : Nat) (f : Fld) (qs : List (Nat × Nat)) : (post s cls blk inst f qs).lst = s.lst := rfl
@[simp] theorem post_flash (cls blk inst : Nat) (f : Fld) (qs : List (Nat × Nat)) : (post s cls blk inst f qs).flash = s.flash := rfl
@[simp] theorem post_nvm (cls blk inst : Nat) (f : Fld) (qs : List (Nat × Nat)) : (post s cls blk inst f qs).nvm = s.nvm := rfl
@[simp] theorem post_tmb (cls blk inst : Nat) (f : Fld) (qs : List (Nat × Nat)) : (post s cls blk inst f qs).tmb = s.tmb := rfl
@[simp] theorem post_exs (cls blk inst : Nat) (f : Fld) (qs : List (Nat × Nat)) : (post s cls blk inst f qs).exs = s.exs := rfl
@[simp] theorem post_blq (cls blk inst : Nat) (f : Fld) (qs : List (Nat × Nat)) : (post s cls blk inst f qs).blq = s.blq := rfl
@[simp] theorem post_ing (cls blk inst : Nat) (f : Fld) (qs : List (Nat × Nat)) : (post s cls blk inst f qs).ing = s.ing := rfl
@[simp] theorem post_cdc (cls blk inst : Nat) (f : Fld) (qs : List (Nat × Nat)) : (post s cls blk inst f qs).cdc = s.cdc := rfl
@[simp] theorem post_scn (cls blk inst : Nat) (f : Fld) (qs : List (Nat × Nat)) : (post s cls blk inst f qs).scn = s.scn := rfl
@[simp] theorem post_ppx (cls blk inst : Nat) (f : Fld) (qs : List (Nat × Nat)) : (post s cls blk inst f qs).ppx = s.ppx := rfl
@[simp] theorem post_age (cls blk inst : Nat) (f : Fld) (qs : List (Nat × Nat)) : (post s cls blk inst f qs).age = s.age := rfl
@[simp] theorem post_drv (cls blk inst : Nat) (f : Fld) (qs : List (Nat × Nat)) : (post s cls blk inst f qs).drv = s.drv := rfl
@[simp] theorem post_psq (cls blk inst : Nat) (f : Fld) (qs : List (Nat × Nat)) : (post s cls blk inst f qs).psq = s.psq := rfl
@[simp] theorem post_orl (cls blk inst : Nat) (f : Fld) (qs : List (Nat × Nat)) : (post s cls blk inst f qs).orl = s.orl := rfl
@[simp] theorem post_mem (cls blk inst : Nat) (f : Fld) (qs : List (Nat × Nat)) : (post s cls blk inst f qs).mem = s.mem := rfl
@[simp] theorem post_nv (cls blk inst : Nat) (f : Fld) (qs : List (Nat × Nat)) : (post s cls blk inst f qs).nv = s.nv := rfl
@[simp] theorem post_host (cls blk inst : Nat) (f : Fld) (qs : List (Nat × Nat)) : (post s cls blk inst f qs).host = s.host := rfl
@[simp] theorem post_sec (cls blk inst : Nat) (f : Fld) (qs : List (Nat × Nat)) : (post s cls blk inst f qs).sec = s.sec := rfl
@[simp] theorem post_pwr (cls blk inst : Nat) (f : Fld) (qs : List (Nat × Nat)) : (post s cls blk inst f qs).pwr = s.pwr := rfl
@[simp] theorem post_boot (cls blk inst : Nat) (f : Fld) (qs : List (Nat × Nat)) : (post s cls blk inst f qs).boot = s.boot := rfl
@[simp] theorem post_now (cls blk inst : Nat) (f : Fld) (qs : List (Nat × Nat)) : (post s cls blk inst f qs).now = s.now := rfl
@[simp] theorem post_fresh (cls blk inst : Nat) (f : Fld) (qs : List (Nat × Nat)) : (post s cls blk inst f qs).fresh = s.fresh := rfl
@[simp] theorem post_pending (cls blk inst : Nat) (f : Fld) (qs : List (Nat × Nat)) : (post s cls blk inst f qs).pending = s.pending := rfl

@[simp] theorem lstWr_tick (a : Nat) (bs : List Byte) : (lstWr s a bs).tick = s.tick := rfl
@[simp] theorem lstWr_reg (a : Nat) (bs : List Byte) : (lstWr s a bs).reg = s.reg := rfl
@[simp] theorem lstWr_shadow (a : Nat) (bs : List Byte) : (lstWr s a bs).shadow = s.shadow := rfl
@[simp] theorem lstWr_gddr (a : Nat) (bs : List Byte) : (lstWr s a bs).gddr = s.gddr := rfl
@[simp] theorem lstWr_flash (a : Nat) (bs : List Byte) : (lstWr s a bs).flash = s.flash := rfl
@[simp] theorem lstWr_nvm (a : Nat) (bs : List Byte) : (lstWr s a bs).nvm = s.nvm := rfl
@[simp] theorem lstWr_tmb (a : Nat) (bs : List Byte) : (lstWr s a bs).tmb = s.tmb := rfl
@[simp] theorem lstWr_exs (a : Nat) (bs : List Byte) : (lstWr s a bs).exs = s.exs := rfl
@[simp] theorem lstWr_blq (a : Nat) (bs : List Byte) : (lstWr s a bs).blq = s.blq := rfl
@[simp] theorem lstWr_ing (a : Nat) (bs : List Byte) : (lstWr s a bs).ing = s.ing := rfl
@[simp] theorem lstWr_cdc (a : Nat) (bs : List Byte) : (lstWr s a bs).cdc = s.cdc := rfl
@[simp] theorem lstWr_scn (a : Nat) (bs : List Byte) : (lstWr s a bs).scn = s.scn := rfl
@[simp] theorem lstWr_ppx (a : Nat) (bs : List Byte) : (lstWr s a bs).ppx = s.ppx := rfl
@[simp] theorem lstWr_age (a : Nat) (bs : List Byte) : (lstWr s a bs).age = s.age := rfl
@[simp] theorem lstWr_drv (a : Nat) (bs : List Byte) : (lstWr s a bs).drv = s.drv := rfl
@[simp] theorem lstWr_psq (a : Nat) (bs : List Byte) : (lstWr s a bs).psq = s.psq := rfl
@[simp] theorem lstWr_orl (a : Nat) (bs : List Byte) : (lstWr s a bs).orl = s.orl := rfl
@[simp] theorem lstWr_nv (a : Nat) (bs : List Byte) : (lstWr s a bs).nv = s.nv := rfl
@[simp] theorem lstWr_evt (a : Nat) (bs : List Byte) : (lstWr s a bs).evt = s.evt := rfl
@[simp] theorem lstWr_host (a : Nat) (bs : List Byte) : (lstWr s a bs).host = s.host := rfl
@[simp] theorem lstWr_sec (a : Nat) (bs : List Byte) : (lstWr s a bs).sec = s.sec := rfl
@[simp] theorem lstWr_pwr (a : Nat) (bs : List Byte) : (lstWr s a bs).pwr = s.pwr := rfl
@[simp] theorem lstWr_boot (a : Nat) (bs : List Byte) : (lstWr s a bs).boot = s.boot := rfl
@[simp] theorem lstWr_now (a : Nat) (bs : List Byte) : (lstWr s a bs).now = s.now := rfl
@[simp] theorem lstWr_fresh (a : Nat) (bs : List Byte) : (lstWr s a bs).fresh = s.fresh := rfl
@[simp] theorem lstWr_pending (a : Nat) (bs : List Byte) : (lstWr s a bs).pending = s.pending := rfl

@[simp] theorem flashWr_tick (a : Nat) (bs : List Byte) : (flashWr s a bs).tick = s.tick := rfl
@[simp] theorem flashWr_reg (a : Nat) (bs : List Byte) : (flashWr s a bs).reg = s.reg := rfl
@[simp] theorem flashWr_shadow (a : Nat) (bs : List Byte) : (flashWr s a bs).shadow = s.shadow := rfl
@[simp] theorem flashWr_gddr (a : Nat) (bs : List Byte) : (flashWr s a bs).gddr = s.gddr := rfl
@[simp] theorem flashWr_lst (a : Nat) (bs : List Byte) : (flashWr s a bs).lst = s.lst := rfl
@[simp] theorem flashWr_nvm (a : Nat) (bs : List Byte) : (flashWr s a bs).nvm = s.nvm := rfl
@[simp] theorem flashWr_tmb (a : Nat) (bs : List Byte) : (flashWr s a bs).tmb = s.tmb := rfl
@[simp] theorem flashWr_exs (a : Nat) (bs : List Byte) : (flashWr s a bs).exs = s.exs := rfl
@[simp] theorem flashWr_blq (a : Nat) (bs : List Byte) : (flashWr s a bs).blq = s.blq := rfl
@[simp] theorem flashWr_ing (a : Nat) (bs : List Byte) : (flashWr s a bs).ing = s.ing := rfl
@[simp] theorem flashWr_cdc (a : Nat) (bs : List Byte) : (flashWr s a bs).cdc = s.cdc := rfl
@[simp] theorem flashWr_scn (a : Nat) (bs : List Byte) : (flashWr s a bs).scn = s.scn := rfl
@[simp] theorem flashWr_ppx (a : Nat) (bs : List Byte) : (flashWr s a bs).ppx = s.ppx := rfl
@[simp] theorem flashWr_age (a : Nat) (bs : List Byte) : (flashWr s a bs).age = s.age := rfl
@[simp] theorem flashWr_drv (a : Nat) (bs : List Byte) : (flashWr s a bs).drv = s.drv := rfl
@[simp] theorem flashWr_psq (a : Nat) (bs : List Byte) : (flashWr s a bs).psq = s.psq := rfl
@[simp] theorem flashWr_orl (a : Nat) (bs : List Byte) : (flashWr s a bs).orl = s.orl := rfl
@[simp] theorem flashWr_mem (a : Nat) (bs : List Byte) : (flashWr s a bs).mem = s.mem := rfl
@[simp] theorem flashWr_nv (a : Nat) (bs : List Byte) : (flashWr s a bs).nv = s.nv := rfl
@[simp] theorem flashWr_evt (a : Nat) (bs : List Byte) : (flashWr s a bs).evt = s.evt := rfl
@[simp] theorem flashWr_host (a : Nat) (bs : List Byte) : (flashWr s a bs).host = s.host := rfl
@[simp] theorem flashWr_sec (a : Nat) (bs : List Byte) : (flashWr s a bs).sec = s.sec := rfl
@[simp] theorem flashWr_pwr (a : Nat) (bs : List Byte) : (flashWr s a bs).pwr = s.pwr := rfl
@[simp] theorem flashWr_boot (a : Nat) (bs : List Byte) : (flashWr s a bs).boot = s.boot := rfl
@[simp] theorem flashWr_now (a : Nat) (bs : List Byte) : (flashWr s a bs).now = s.now := rfl
@[simp] theorem flashWr_fresh (a : Nat) (bs : List Byte) : (flashWr s a bs).fresh = s.fresh := rfl
@[simp] theorem flashWr_pending (a : Nat) (bs : List Byte) : (flashWr s a bs).pending = s.pending := rfl

@[simp] theorem nvmWr_tick (a : Nat) (bs : List Byte) : (nvmWr s a bs).tick = s.tick := rfl
@[simp] theorem nvmWr_reg (a : Nat) (bs : List Byte) : (nvmWr s a bs).reg = s.reg := rfl
@[simp] theorem nvmWr_shadow (a : Nat) (bs : List Byte) : (nvmWr s a bs).shadow = s.shadow := rfl
@[simp] theorem nvmWr_gddr (a : Nat) (bs : List Byte) : (nvmWr s a bs).gddr = s.gddr := rfl
@[simp] theorem nvmWr_lst (a : Nat) (bs : List Byte) : (nvmWr s a bs).lst = s.lst := rfl
@[simp] theorem nvmWr_flash (a : Nat) (bs : List Byte) : (nvmWr s a bs).flash = s.flash := rfl
@[simp] theorem nvmWr_tmb (a : Nat) (bs : List Byte) : (nvmWr s a bs).tmb = s.tmb := rfl
@[simp] theorem nvmWr_exs (a : Nat) (bs : List Byte) : (nvmWr s a bs).exs = s.exs := rfl
@[simp] theorem nvmWr_blq (a : Nat) (bs : List Byte) : (nvmWr s a bs).blq = s.blq := rfl
@[simp] theorem nvmWr_ing (a : Nat) (bs : List Byte) : (nvmWr s a bs).ing = s.ing := rfl
@[simp] theorem nvmWr_cdc (a : Nat) (bs : List Byte) : (nvmWr s a bs).cdc = s.cdc := rfl
@[simp] theorem nvmWr_scn (a : Nat) (bs : List Byte) : (nvmWr s a bs).scn = s.scn := rfl
@[simp] theorem nvmWr_ppx (a : Nat) (bs : List Byte) : (nvmWr s a bs).ppx = s.ppx := rfl
@[simp] theorem nvmWr_age (a : Nat) (bs : List Byte) : (nvmWr s a bs).age = s.age := rfl
@[simp] theorem nvmWr_drv (a : Nat) (bs : List Byte) : (nvmWr s a bs).drv = s.drv := rfl
@[simp] theorem nvmWr_psq (a : Nat) (bs : List Byte) : (nvmWr s a bs).psq = s.psq := rfl
@[simp] theorem nvmWr_orl (a : Nat) (bs : List Byte) : (nvmWr s a bs).orl = s.orl := rfl
@[simp] theorem nvmWr_mem (a : Nat) (bs : List Byte) : (nvmWr s a bs).mem = s.mem := rfl
@[simp] theorem nvmWr_nv (a : Nat) (bs : List Byte) : (nvmWr s a bs).nv = s.nv := rfl
@[simp] theorem nvmWr_evt (a : Nat) (bs : List Byte) : (nvmWr s a bs).evt = s.evt := rfl
@[simp] theorem nvmWr_host (a : Nat) (bs : List Byte) : (nvmWr s a bs).host = s.host := rfl
@[simp] theorem nvmWr_sec (a : Nat) (bs : List Byte) : (nvmWr s a bs).sec = s.sec := rfl
@[simp] theorem nvmWr_pwr (a : Nat) (bs : List Byte) : (nvmWr s a bs).pwr = s.pwr := rfl
@[simp] theorem nvmWr_boot (a : Nat) (bs : List Byte) : (nvmWr s a bs).boot = s.boot := rfl
@[simp] theorem nvmWr_now (a : Nat) (bs : List Byte) : (nvmWr s a bs).now = s.now := rfl
@[simp] theorem nvmWr_fresh (a : Nat) (bs : List Byte) : (nvmWr s a bs).fresh = s.fresh := rfl
@[simp] theorem nvmWr_pending (a : Nat) (bs : List Byte) : (nvmWr s a bs).pending = s.pending := rfl

end Sys2Proof.Machine
end

