-- ==== Sys2Proof/Laws/Tables.lean ====
section
/-!
SUPPORT. The laws of sparse tables: what a read gives after a write, and that every operation keeps the canonical form.
-/

namespace Sys2Proof.Machine

variable {α : Type}

/-- A table reads as its default where it has no entry. -/
theorem sget_of_absent (d : α) (m : SMap α) (a : Nat) (h : ∀ e ∈ m, e.1 ≠ a) : sget d m a = d := by
  induction m with
  | nil => rfl
  | cons e r ih =>
    have := h e (by simp)
    simp [sget, this]
    exact ih fun x hx => h x (by simp [hx])

/-- Keeping the keys that satisfy a test: others read as the default. -/
theorem sget_sfilter (d : α) (p : Nat → Bool) (m : SMap α) (a : Nat) :
    sget d (sfilter p m) a = if p a then sget d m a else d := by
  induction m with
  | nil => simp [sfilter, sget]
  | cons e r ih =>
    obtain ⟨k, v⟩ := e
    simp only [sfilter, List.filter] at ih ⊢
    by_cases hk : k = a
    · subst hk
      cases hp : p k <;> simp [sget, hp] at ih ⊢
      exact ih
    · cases hp : p k <;> simp [sget, hk, ih]

theorem sdel_eq_sfilter (m : SMap α) (a : Nat) : sdel m a = sfilter (fun k => k != a) m := rfl

theorem sget_sdel (d : α) (m : SMap α) (a b : Nat) : sget d (sdel m a) b = if b = a then d else sget d m b := by
  rw [sdel_eq_sfilter, sget_sfilter]
  by_cases h : b = a <;> simp [h]

theorem sget_sins (d : α) (m : SMap α) (a b : Nat) (v : α) (h : ∀ e ∈ m, e.1 ≠ a) :
    sget d (sins a v m) b = if b = a then v else sget d m b := by
  induction m with
  | nil => simp [sins, sget, eq_comm]
  | cons e r ih =>
    obtain ⟨k, w⟩ := e
    have hk : k ≠ a := h (k, w) (by simp)
    have ih := ih fun x hx => h x (by simp [hx])
    simp only [sins]
    split
    · simp [sget, eq_comm]
    · simp only [sget, ih]
      by_cases hb : k = b
      · subst hb; simp [hk]
      · simp [hb]

theorem mem_sins {a : Nat} {v : α} {m : SMap α} {e : Nat × α} : e ∈ sins a v m ↔ e = (a, v) ∨ e ∈ m := by
  induction m with
  | nil => simp [sins]
  | cons x r ih =>
    simp only [sins]
    split
    · simp
    · simp [ih]; tauto

theorem mem_sdel {m : SMap α} {a : Nat} {e : Nat × α} : e ∈ sdel m a ↔ e ∈ m ∧ e.1 ≠ a := by simp [sdel]

variable [DecidableEq α]

/-- A read after a write: the value at its own key, what was there at every other. -/
theorem sget_sset (d : α) (m : SMap α) (a b : Nat) (v : α) : sget d (sset d m a v) b = if b = a then v else sget d m b := by
  unfold sset
  split
  · next h => subst h; exact sget_sdel _ _ _ _
  · rw [sget_sins _ _ _ _ _ fun e he => (mem_sdel.1 he).2, sget_sdel]
    split <;> simp

@[simp] theorem sget_sset_same (d : α) (m : SMap α) (a : Nat) (v : α) : sget d (sset d m a v) a = v := by simp [sget_sset]

theorem sget_sset_other (d : α) (m : SMap α) (a b : Nat) (v : α) (h : b ≠ a) : sget d (sset d m a v) b = sget d m b := by
  simp [sget_sset, h]

/-- A read outside the keys a list is written to. -/
theorem sget_ssetList_other (d : α) (vs : List α) (m : SMap α) (a b : Nat) (h : b < a ∨ a + vs.length ≤ b) :
    sget d (ssetList d m a vs) b = sget d m b := by
  induction vs generalizing m a with
  | nil => rfl
  | cons v vs ih =>
    simp only [List.length_cons] at h
    rw [ssetList, ih _ _ (by omega), sget_sset_other _ _ _ _ _ (by omega)]

/-- A read of a key a list is written to. -/
theorem sget_ssetList_mem (d : α) (vs : List α) (m : SMap α) (a i : Nat) (h : i < vs.length) :
    sget d (ssetList d m a vs) (a + i) = vs[i] := by
  induction vs generalizing m a i with
  | nil => simp at h
  | cons v vs ih =>
    rw [ssetList]
    cases i with
    | zero => rw [sget_ssetList_other _ _ _ _ _ (by omega)]; simp
    | succ i =>
      have := ih (sset d m a v) (a + 1) i (by simpa using h)
      rw [show a + (i + 1) = a + 1 + i by omega, this]; rfl

/-- A list that was written reads back. -/
theorem sgetList_ssetList (d : α) (m : SMap α) (a : Nat) (vs : List α) : sgetList d (ssetList d m a vs) a vs.length = vs := by
  induction vs generalizing m a with
  | nil => rfl
  | cons v vs ih =>
    rw [List.length_cons, sgetList, ssetList, ih, sget_ssetList_other _ _ _ _ _ (by omega)]
    simp

/-- The canonical form in the words of its rule: keys rise strictly and no entry equals the default. -/
theorem swf_iff (d : α) (m : SMap α) : swf d m = true ↔ m.Pairwise (fun x y => x.1 < y.1) ∧ ∀ e ∈ m, e.2 ≠ d := by
  have from_iff : ∀ (r : SMap α) (lo : Nat), swfFrom d lo r = true ↔
      (∀ e ∈ r, lo < e.1) ∧ r.Pairwise (fun x y => x.1 < y.1) ∧ ∀ e ∈ r, e.2 ≠ d := by
    intro r
    induction r with
    | nil => simp [swfFrom]
    | cons e r ih =>
      intro lo
      simp only [swfFrom, Bool.and_eq_true, decide_eq_true_eq, ih, List.mem_cons, forall_eq_or_imp, List.pairwise_cons]
      constructor
      · rintro ⟨⟨h, hd⟩, hl, hp, hn⟩
        exact ⟨⟨h, fun x hx => lt_trans h (hl x hx)⟩, ⟨hl, hp⟩, hd, hn⟩
      · rintro ⟨⟨h, -⟩, ⟨hl, hp⟩, hd, hn⟩
        exact ⟨⟨h, hd⟩, hl, hp, hn⟩
  cases m with
  | nil => simp [swf]
  | cons e r =>
    simp only [swf, Bool.and_eq_true, decide_eq_true_eq, from_iff, List.mem_cons, forall_eq_or_imp, List.pairwise_cons]
    tauto

theorem swf_sfilter (d : α) (p : Nat → Bool) (m : SMap α) (h : swf d m = true) : swf d (sfilter p m) = true := by
  rw [swf_iff] at h ⊢
  exact ⟨h.1.filter _, fun e he => h.2 e (List.mem_filter.1 he).1⟩

theorem swf_sdel (d : α) (m : SMap α) (a : Nat) (h : swf d m = true) : swf d (sdel m a) = true :=
  swf_sfilter d (fun k => k != a) m h

/-- Writing a key keeps the canonical form. -/
theorem swf_sset (d : α) (m : SMap α) (a : Nat) (v : α) (h : swf d m = true) : swf d (sset d m a v) = true := by
  unfold sset
  split
  · exact swf_sdel _ _ _ h
  next hv =>
  have hr := (swf_iff d _).1 (swf_sdel d m a h)
  have ha : ∀ e ∈ sdel m a, e.1 ≠ a := fun e he => (mem_sdel.1 he).2
  rw [swf_iff]
  refine ⟨?_, fun e he => ?_⟩
  · generalize sdel m a = r at hr ha
    obtain ⟨hr, -⟩ := hr
    induction r with
    | nil => simp [sins]
    | cons x r ih =>
      simp only [List.pairwise_cons] at hr
      simp only [sins]
      split
      · next hx => exact List.pairwise_cons.2 ⟨fun y hy => by
          rcases List.mem_cons.1 hy with rfl | hy
          · exact hx
          · exact lt_trans hx (hr.1 y hy), List.pairwise_cons.2 hr⟩
      · next hx => exact List.pairwise_cons.2 ⟨fun y hy => by
          rcases mem_sins.1 hy with rfl | hy
          · have := ha x (by simp); simp only; omega
          · exact hr.1 y hy, ih (fun e he => ha e (by simp [he])) hr.2⟩
  · rcases mem_sins.1 he with rfl | he
    · exact hv
    · exact hr.2 e he

theorem swf_ssetList (d : α) (vs : List α) (m : SMap α) (a : Nat) (h : swf d m = true) : swf d (ssetList d m a vs) = true := by
  induction vs generalizing m a with
  | nil => exact h
  | cons v vs ih => exact ih _ _ (swf_sset d m a v h)

@[simp] theorem swf_nil (d : α) : swf d ([] : SMap α) = true := rfl

omit [DecidableEq α] in
@[simp] theorem length_sgetList (d : α) (m : SMap α) (a n : Nat) : (sgetList d m a n).length = n := by
  induction n generalizing a with
  | zero => rfl
  | succ n ih => simp [sgetList, ih]

end Sys2Proof.Machine
end

