-- ==== Sys2Proof/Laws/Fields.lean ====
section
/-!
SUPPORT. The laws of register words and fields: what a field reads after a write of it, of another field of its register, and of another
register.
-/

namespace Sys2Proof.Machine

theorem mul_add_lt_mul {a b m n : Nat} (ha : a < m) (hb : b < n) : a * n + b < m * n := by
  have : (a + 1) * n ≤ m * n := Nat.mul_le_mul_right _ ha
  rw [Nat.succ_mul] at this
  omega

/-- A word in three parts: what lies above the field, the field, what lies below. -/
theorem Fld.split (f : Fld) (V : Nat) :
    V = V / 2 ^ (f.lo + f.w) * 2 ^ (f.lo + f.w) + V / 2 ^ f.lo % 2 ^ f.w * 2 ^ f.lo + V % 2 ^ f.lo := by
  have h1 := Nat.div_add_mod V (2 ^ f.lo)
  have h2 := Nat.div_add_mod (V / 2 ^ f.lo) (2 ^ f.w)
  rw [Nat.div_div_eq_div_mul, ← pow_add] at h2
  rw [pow_add] at h2 ⊢
  conv_lhs => rw [← h1, ← h2]
  ring

theorem Fld.into_toNat (f : Fld) (v : Word) (x : Nat) (h : f.lo + f.w ≤ 32) :
    (f.into v x).toNat = v.toNat / 2 ^ (f.lo + f.w) * 2 ^ (f.lo + f.w) + x % 2 ^ f.w * 2 ^ f.lo + v.toNat % 2 ^ f.lo := by
  have hs := f.split v.toNat
  have hx : x % 2 ^ f.w < 2 ^ f.w := Nat.mod_lt _ (by positivity)
  have hr : v.toNat % 2 ^ f.lo < 2 ^ f.lo := Nat.mod_lt _ (by positivity)
  have hq : v.toNat / 2 ^ (f.lo + f.w) < 2 ^ (32 - (f.lo + f.w)) := by
    rw [Nat.div_lt_iff_lt_mul (by positivity), ← pow_add, Nat.sub_add_cancel h]
    exact v.isLt
  have hlow : x % 2 ^ f.w * 2 ^ f.lo + v.toNat % 2 ^ f.lo < 2 ^ (f.lo + f.w) := by
    rw [pow_add, Nat.mul_comm (2 ^ f.lo)]; exact mul_add_lt_mul hx hr
  have hall : v.toNat / 2 ^ (f.lo + f.w) * 2 ^ (f.lo + f.w) + (x % 2 ^ f.w * 2 ^ f.lo + v.toNat % 2 ^ f.lo) < 2 ^ 32 := by
    have : 2 ^ 32 = 2 ^ (32 - (f.lo + f.w)) * 2 ^ (f.lo + f.w) := by rw [← pow_add, Nat.sub_add_cancel h]
    rw [this]; exact mul_add_lt_mul hq hlow
  unfold Fld.into Fld.ofWord
  rw [BitVec.toNat_ofNat, Nat.mod_eq_of_lt (by omega)]
  omega

/-- A field reads what was put into it. -/
@[simp] theorem Fld.ofWord_into (f : Fld) (v : Word) (x : Nat) (h : f.lo + f.w ≤ 32) : f.ofWord (f.into v x) = x % 2 ^ f.w := by
  have hr : v.toNat % 2 ^ f.lo < 2 ^ f.lo := Nat.mod_lt _ (by positivity)
  have hx : x % 2 ^ f.w < 2 ^ f.w := Nat.mod_lt _ (by positivity)
  rw [Fld.ofWord, Fld.into_toNat f v x h, pow_add]
  rw [show v.toNat / (2 ^ f.lo * 2 ^ f.w) * (2 ^ f.lo * 2 ^ f.w) + x % 2 ^ f.w * 2 ^ f.lo + v.toNat % 2 ^ f.lo =
    2 ^ f.lo * (2 ^ f.w * (v.toNat / (2 ^ f.lo * 2 ^ f.w)) + x % 2 ^ f.w) + v.toNat % 2 ^ f.lo by ring]
  rw [Nat.mul_add_div (by positivity), Nat.div_eq_of_lt hr, Nat.add_zero, Nat.mul_add_mod, Nat.mod_mod]

/-- A write of a field leaves a disjoint field of its word alone. -/
theorem Fld.ofWord_into_disjoint (f g : Fld) (v : Word) (x : Nat) (h : f.lo + f.w ≤ 32) (hd : g.lo + g.w ≤ f.lo ∨ f.lo + f.w ≤ g.lo) :
    g.ofWord (f.into v x) = g.ofWord v := by
  have hr : v.toNat % 2 ^ f.lo < 2 ^ f.lo := Nat.mod_lt _ (by positivity)
  have hx : x % 2 ^ f.w < 2 ^ f.w := Nat.mod_lt _ (by positivity)
  have hs := f.split v.toNat
  unfold Fld.ofWord
  rw [Fld.into_toNat f v x h]
  rcases hd with hd | hd
  · have low : ∀ V, V / 2 ^ g.lo % 2 ^ g.w = V % 2 ^ f.lo / 2 ^ g.lo % 2 ^ g.w := by
      intro V
      obtain ⟨k, hk⟩ : ∃ k, f.lo = g.lo + g.w + k := ⟨f.lo - (g.lo + g.w), by omega⟩
      rw [hk, show g.lo + g.w + k = g.lo + (g.w + k) by omega, pow_add 2 g.lo, Nat.mod_mul_right_div_self, pow_add 2 g.w]
      rw [Nat.mod_mul_right_mod]
    have e : ∀ A B C : Nat, (A * 2 ^ (f.lo + f.w) + B * 2 ^ f.lo + C) % 2 ^ f.lo = C % 2 ^ f.lo := by
      intro A B C
      rw [pow_add, show A * (2 ^ f.lo * 2 ^ f.w) + B * 2 ^ f.lo + C = C + 2 ^ f.lo * (A * 2 ^ f.w + B) by ring, Nat.add_mul_mod_self_left]
    rw [low, e, low v.toNat, Nat.mod_mod]
  · have high : ∀ V, V / 2 ^ g.lo = V / 2 ^ (f.lo + f.w) / 2 ^ (g.lo - (f.lo + f.w)) := by
      intro V
      rw [Nat.div_div_eq_div_mul, ← pow_add, Nat.add_sub_cancel' hd]
    have e : ∀ A B : Nat, B < 2 ^ (f.lo + f.w) → (A * 2 ^ (f.lo + f.w) + B) / 2 ^ (f.lo + f.w) = A := by
      intro A B hB
      rw [Nat.mul_comm, Nat.mul_add_div (by positivity), Nat.div_eq_of_lt hB, Nat.add_zero]
    have hB : x % 2 ^ f.w * 2 ^ f.lo + v.toNat % 2 ^ f.lo < 2 ^ (f.lo + f.w) := by
      rw [pow_add, Nat.mul_comm (2 ^ f.lo)]; exact mul_add_lt_mul hx hr
    rw [high, high v.toNat, Nat.add_assoc, e _ _ hB]

/-- A register reads what was written to it, and as before where another was written. -/
theorem rdW_wrW (s : State) (o p : Nat) (v : Word) : rdW (wrW s o v) p = if p = o then v else rdW s p := sget_sset ..

@[simp] theorem rdW_wrW_same (s : State) (o : Nat) (v : Word) : rdW (wrW s o v) o = v := by simp [rdW_wrW]

theorem rdW_wrW_other (s : State) (o p : Nat) (v : Word) (h : p ≠ o) : rdW (wrW s o v) p = rdW s p := by simp [rdW_wrW, h]

theorem rdW_wr (s : State) (f : Fld) (x p : Nat) : rdW (wr s f x) p = if p = f.off then f.into (rdW s f.off) x else rdW s p := rdW_wrW ..

theorem rdShW_wrShW (s : State) (o p : Nat) (v : Word) : rdShW (wrShW s o v) p = if p = o then v else rdShW s p := sget_sset ..

/-- A field reads what was written to it. -/
theorem rd_wr_same (s : State) (f : Fld) (x : Nat) (h : f.lo + f.w ≤ 32) : rd (wr s f x) f = x % 2 ^ f.w := by
  rw [rd, rdW_wr, if_pos rfl, Fld.ofWord_into f _ x h]

/-- A write of a field leaves a field of another register alone. -/
theorem rd_wr_other (s : State) (f g : Fld) (x : Nat) (h : g.off ≠ f.off) : rd (wr s f x) g = rd s g := by
  rw [rd, rdW_wr, if_neg h, rd]

/-- A write of a field leaves a disjoint field of its register alone. -/
theorem rd_wr_disjoint (s : State) (f g : Fld) (x : Nat) (h : f.lo + f.w ≤ 32) (hd : g.lo + g.w ≤ f.lo ∨ f.lo + f.w ≤ g.lo) :
    rd (wr s f x) g = rd s g := by
  rw [rd, rdW_wr]
  split
  · next ho => rw [Fld.ofWord_into_disjoint f g _ x h hd, rd, ho]
  · rfl

/-- A saturating counter after one more event. -/
theorem rd_bump_same (s : State) (f : Fld) (h : f.lo + f.w ≤ 32) : rd (bump s f) f = min (rd s f + 1) (2 ^ f.w - 1) := by
  have : 0 < 2 ^ f.w := by positivity
  show rd (wr s f _) f = _
  rw [rd_wr_same s f _ h, Nat.mod_eq_of_lt (by omega)]

theorem rd_bump_other (s : State) (f g : Fld) (h : g.off ≠ f.off) : rd (bump s f) g = rd s g := rd_wr_other s f g _ h

theorem rdW_bump_other (s : State) (f : Fld) (p : Nat) (h : p ≠ f.off) : rdW (bump s f) p = rdW s p := by
  show rdW (wr s f _) p = _
  rw [rdW_wr, if_neg h]

theorem rd_wrB_same (s : State) (f : Fld) (b : Bool) (h : f.lo + f.w ≤ 32) (hw : 0 < f.w) : rd (wrB s f b) f = if b then 1 else 0 := by
  rw [wrB, rd_wr_same s f _ h]
  cases b
  · simp
  · exact Nat.mod_eq_of_lt (Nat.one_lt_two_pow (by omega))

/-- Registers written with 0 read 0, every other as before. -/
theorem rdW_zeroed (s : State) (offs : List Nat) (o : Nat) :
    rdW (offs.foldl (fun s o => wrW s o 0#32) s) o = if o ∈ offs then 0#32 else rdW s o := by
  induction offs generalizing s with
  | nil => simp
  | cons p ps ih =>
    rw [List.foldl_cons, ih, rdW_wrW]
    by_cases h : o ∈ ps <;> by_cases hp : o = p <;> simp [h, hp]

/-- A clear of counters leaves the registers of other counters alone. -/
theorem rdW_clearCnts_other (l : List (Fld × Nat)) (t : State) (o : Nat) (h : ∀ e ∈ l, e.1.off ≠ o) :
    rdW (l.foldl (fun t e => clearCnt t e.1) t) o = rdW t o := by
  induction l generalizing t with
  | nil => rfl
  | cons e l ih =>
    rw [List.foldl_cons, ih _ (fun x hx => h x (List.mem_cons_of_mem _ hx)), clearCnt, rdW_wr, if_neg]
    exact fun he => h e List.mem_cons_self he.symm

/-- A clear leaves every register outside its list alone. -/
theorem rdW_clearRegs_other (s : State) (offs : List Nat) (o : Nat) (h : o ∉ offs) : rdW (clearRegs s offs) o = rdW s o := by
  unfold clearRegs
  rw [rdW_clearCnts_other _ _ _ (fun e he => ?_), rdW_zeroed, if_neg h]
  rintro rfl
  exact h (by simpa using (List.mem_filter.1 he).2)

/-- A clear with no increment of its registers in its tick: each reads 0. -/
theorem rdW_clearRegs (s : State) (offs : List Nat) (o : Nat) (h : ∀ e ∈ (tickLog s).incs, e.1.off ∉ offs) :
    rdW (clearRegs s offs) o = if o ∈ offs then 0#32 else rdW s o := by
  have : (tickLog s).incs.filter (fun e => offs.contains e.1.off) = [] := by
    rw [List.filter_eq_nil_iff]; intro e he; simpa using h e he
  rw [clearRegs, this, List.foldl_nil, rdW_zeroed]

/-- A write of one field after another changes the register file only. -/
theorem clearCnts_frame (l : List (Fld × Nat)) (t : State) :
    l.foldl (fun t e => clearCnt t e.1) t = { t with reg := (l.foldl (fun t e => clearCnt t e.1) t).reg } := by
  induction l generalizing t with
  | nil => rfl
  | cons e l ih => rw [List.foldl_cons, ih]; rfl

theorem zeroed_frame (s : State) (offs : List Nat) :
    offs.foldl (fun s o => wrW s o 0#32) s = { s with reg := (offs.foldl (fun s o => wrW s o 0#32) s).reg } := by
  induction offs generalizing s with
  | nil => rfl
  | cons p ps ih => rw [List.foldl_cons, ih]; rfl

/-- Clearing registers writes the register file only. -/
theorem clearRegs_frame (s : State) (offs : List Nat) : clearRegs s offs = { s with reg := (clearRegs s offs).reg } := by
  unfold clearRegs
  rw [clearCnts_frame, zeroed_frame]

end Sys2Proof.Machine
end

