-- ==== Sys2Proof/Laws/Ops.lean ====
section
/-!
SUPPORT. What each shared operation can do, said once: the parts of the state it leaves alone, the bytes a memory reads after a write, the
record a post leaves, and a host's command that is served.
-/

namespace Sys2Proof.Machine

/-- A write in the local store reads back. -/
theorem lstRd_lstWr (s : State) (a : Nat) (bs : List Byte) : lstRd (lstWr s a bs) a bs.length = bs := sgetList_ssetList ..

/-- A write in the local store leaves every other byte alone. -/
theorem lstWr_other (s : State) (a x : Nat) (bs : List Byte) (h : x < a ∨ a + bs.length ≤ x) :
    sget 0#8 (lstWr s a bs).lst x = sget 0#8 s.lst x := sget_ssetList_other _ _ _ _ _ h

theorem flashRd_flashWr (s : State) (a : Nat) (bs : List Byte) : flashRd (flashWr s a bs) a bs.length = bs := sgetList_ssetList ..

theorem nvmRd_nvmWr (s : State) (a : Nat) (bs : List Byte) : nvmRd (nvmWr s a bs) a bs.length = bs := sgetList_ssetList ..

/-- A write to host memory changes host memory only. -/
theorem hostWr_frame (s : State) (a : Nat) (bs : List Byte) : hostWr s a bs = { s with host.mem := (hostWr s a bs).host.mem } := by
  unfold hostWr; split <;> rfl

/-- A record waits in the posted list after it is inserted, and so does every record that waited. -/
theorem mem_insRec (r x : Rec) (l : List Rec) : x ∈ insRec r l ↔ x = r ∨ x ∈ l := by
  induction l with
  | nil => simp [insRec]
  | cons y l ih =>
    unfold insRec
    split
    · simp [ih]; tauto
    · simp

theorem posted_post (s : State) (cls blk inst : Nat) (f : Fld) (qs : List (Nat × Nat)) :
    posted (post s cls blk inst f qs) cls blk inst f qs :=
  ⟨{ tick := s.tick, src := srcOf blk inst, cls := cls, alarm := false, level := false, rpt := false, pay := ordPay f qs, pic := s.tmb.pic.getD 0 },
    (mem_insRec _ _ _).2 (.inl rfl), rfl, rfl, rfl⟩

/-- A record that waits goes on waiting when another is posted. -/
theorem posted_of_post (s : State) (c b i : Nat) (f : Fld) (q : List (Nat × Nat)) {cls blk inst : Nat} {g : Fld} {qs : List (Nat × Nat)}
    (h : posted s cls blk inst g qs) : posted (post s c b i f q) cls blk inst g qs := by
  obtain ⟨r, hr, h⟩ := h
  exact ⟨r, (mem_insRec _ _ _).2 (.inr hr), h⟩

/-- An alarm condition changes its bit and posts; it changes no other part of the state but the log of the tick. -/
theorem alarmSet_frame (s : State) (b : Nat) :
    alarmSet s b = { s with reg := (alarmSet s b).reg, evt := (alarmSet s b).evt, now := (alarmSet s b).now } := by
  unfold alarmSet; split <;> rfl

theorem rdW_alarmSet_other (s : State) (b o : Nat) (h : o ≠ F.EVT_ALARM_alarm.off) : rdW (alarmSet s b) o = rdW s o := by
  unfold alarmSet
  split
  · rfl
  · show rdW (setBitOf s F.EVT_ALARM_alarm b true) o = rdW s o
    rw [setBitOf, rdW_wr, if_neg h]

/-- A write of a field changes the register file only; so does one after changes of the register file only. -/
theorem wr_frame (s : State) (f : Fld) (x : Nat) : wr s f x = { s with reg := (wr s f x).reg } := rfl

theorem wr_regOnly {s t : State} (h : ∃ r, t = { s with reg := r }) (f : Fld) (x : Nat) : ∃ r, wr t f x = { s with reg := r } := by
  obtain ⟨r, rfl⟩ := h
  exact ⟨_, rfl⟩

/-- A record of an error in MEM.ERR_INFO changes registers only. -/
theorem memErr_frame (s : State) (kind cls a : Nat) : memErr s kind cls a = { s with reg := (memErr s kind cls a).reg } := by
  have h : ∃ r, memErr s kind cls a = { s with reg := r } := by
    unfold memErr
    exact wr_regOnly (wr_regOnly (wr_regOnly (wr_regOnly (wr_regOnly ⟨s.reg, rfl⟩ _ _) _ _) _ _) _ _) _ _
  obtain ⟨r, h⟩ := h
  rw [h]

/-- A request beyond the capacity changes registers and posts; one within it changes nothing. -/
theorem memReach_frame (s : State) (cls a n : Nat) :
    memReach s cls a n = { s with reg := (memReach s cls a n).reg, evt := (memReach s cls a n).evt } := by
  unfold memReach
  split
  · rfl
  · generalize hm : memErr s 4 cls (max a (memCap s)) = m
    have h := memErr_frame s 4 cls (max a (memCap s))
    rw [hm] at h
    rw [h]; rfl

theorem memReach_within (s : State) (cls a n : Nat) (h : a + n ≤ memCap s) : memReach s cls a n = s := if_pos h

/-- A GDDR6 write changes GDDR6, its poison, and for bytes beyond the capacity registers and records. -/
theorem gddrWr_frame (s : State) (cls a : Nat) (bs : List Byte) :
    gddrWr s cls a bs = { s with gddr := (gddrWr s cls a bs).gddr, mem.gpoison := (gddrWr s cls a bs).mem.gpoison,
                                 reg := (gddrWr s cls a bs).reg, evt := (gddrWr s cls a bs).evt } := by
  have h := memReach_frame s cls a bs.length
  unfold gddrWr
  generalize memReach s cls a bs.length = m at h
  rw [h]

theorem gddrWr_within (s : State) (cls a : Nat) (bs : List Byte) (h : a + bs.length ≤ memCap s) :
    (gddrWr s cls a bs).gddr = ssetList 0#8 s.gddr a bs ∧ (gddrWr s cls a bs).reg = s.reg ∧ (gddrWr s cls a bs).evt = s.evt := by
  have hm : min bs.length (memCap s - a) = bs.length := by omega
  simp [gddrWr, memReach_within s cls a _ h, hm]

/-- GDDR6 bytes within the capacity read back, and every other byte reads as before. -/
theorem gddrRd_gddrWr (s : State) (cls a : Nat) (bs : List Byte) (h : a + bs.length ≤ memCap s) :
    gddrRd (gddrWr s cls a bs) a bs.length = bs := by
  rw [gddrRd, (gddrWr_within s cls a bs h).1]; exact sgetList_ssetList ..

theorem gddrWr_other (s : State) (cls a x : Nat) (bs : List Byte) (h : x < a ∨ a + bs.length ≤ x) :
    sget 0#8 (gddrWr s cls a bs).gddr x = sget 0#8 s.gddr x := by
  have hg : (memReach s cls a bs.length).gddr = s.gddr := by rw [memReach_frame]
  simp only [gddrWr, hg]
  exact sget_ssetList_other _ _ _ _ _ (by rw [List.length_take]; omega)

/-- A host's command that is served has its effect. -/
theorem hostCmd_served (s : State) (off : Nat) (wo : Bool) (act : State → State) (h : served s off wo) : hostCmd s off wo act = act s := by
  obtain ⟨h0, hl, h1, h2⟩ := h
  have h3 : (step5Runs s && !earlyBlk off) = false := by rcases h1 with h1 | h1 <;> simp [h1]
  simp [hostCmd, h0, hl, h2, h3]

/-- A host's read with a side effect has it once the register space answers. -/
theorem hostAsk_up (s : State) (act : State → State) (h : hostAnswers s = true) : hostAsk s act = act s := by simp [hostAsk, h]

/-- A property that each of a host command's three outcomes has. -/
theorem hostCmd_cases (P : State → Prop) (s : State) (off : Nat) (wo : Bool) (act : State → State) (h0 : P s) (h1 : P (nvmWrIgn s))
    (h2 : P (pwrIgn s)) (h3 : P (act s)) : P (hostCmd s off wo act) := by
  unfold hostCmd
  split
  · exact h0
  · split
    · exact h1
    · split
      · exact h2
      · exact h3

/-- The bytes kept for the local store are as many as those given. -/
@[simp] theorem keepProt_length (s : State) (a : Nat) (bs : List Byte) : (keepProt s a bs).length = bs.length := by
  simp only [keepProt]; split <;> simp

/-- A write that keeps the protected flags changes the local store and its poison only. -/
theorem lstKeep_frame (s : State) (a : Nat) (bs : List Byte) :
    lstKeep s a bs = { s with lst := (lstKeep s a bs).lst, mem := (lstKeep s a bs).mem } := rfl

/-- It reaches no byte beside its span, and none of the mailbox (R406). -/
theorem lstKeep_other (s : State) (a x : Nat) (bs : List Byte) (h : x < a ∨ a + bs.length ≤ x ∨ mbxBase ≤ x) :
    sget 0#8 (lstKeep s a bs).lst x = sget 0#8 s.lst x :=
  lstWr_other _ _ _ _ (by rw [List.length_take, keepProt_length]; omega)

/-- Gauntlet's message changes the local store and its poison only, and no byte beside its span. -/
theorem sesWr_frame (s : State) (k : Nat) (bs : List Byte) : sesWr s k bs = { s with lst := (sesWr s k bs).lst, mem := (sesWr s k bs).mem } := rfl

theorem sesWr_other (s : State) (k x : Nat) (bs : List Byte)
    (h : x < rd s F.SEC_SES_BUF_offset + k ∨ rd s F.SEC_SES_BUF_offset + k + bs.length ≤ x) :
    sget 0#8 (sesWr s k bs).lst x = sget 0#8 s.lst x :=
  lstWr_other _ _ _ _ (by rw [List.length_take, keepProt_length]; omega)

/-- With no page read in progress the NVM stands as it is. -/
@[simp] theorem nvmNow_idle (s : State) (h : s.nv.reading = none) : nvmNow s = s := by simp [nvmNow, h]

/-- A page read whose tick has not come goes on. -/
theorem nvmNow_early (s : State) (d p c u : Nat) (h : s.nv.reading = some (d, p, c, u)) (hd : s.tick < d) : nvmNow s = s := by
  simp only [nvmNow, h]; rw [if_neg (by omega)]

/-- Accesses to other blocks than NVM complete no page read. -/
theorem nvmSettled_other (s : State) (off : Nat) (h : off / 65536 ≠ 0xE) : nvmSettled s off = s := if_neg h

/-- A commit belongs to its record's tick and lets no time pass. -/
@[simp] theorem commitHead_tick (s : State) : (commitHead s).tick = s.tick := by unfold commitHead; split <;> rfl

/-- With no record posted nothing commits. -/
theorem commitHead_nil (s : State) (h : s.evt.posted = []) : commitHead s = s := by simp [commitHead, h]

end Sys2Proof.Machine
end

