-- ==== Sys2Proof/Laws/Canon.lean ====
section
/-!
SUPPORT. Every named operation keeps the canonical form of every sparse table.
-/

namespace Sys2Proof.Machine

/-- The canonical form, table by table. -/
theorem tablesOk_iff (s : State) : tablesOk s = true ↔ swf 0#32 s.reg = true ∧ swf 0#32 s.shadow = true ∧ swf 0#8 s.gddr = true ∧
    swf 0#8 s.lst = true ∧ swf 0xFF#8 s.flash = true ∧ swf 0#8 s.nvm = true ∧ swf 0#8 s.host.mem = true := by
  simp [tablesOk, and_assoc]

/-- A state whose tables are those of another. -/
theorem tablesOk_congr {s t : State} (h : tablesOk s = true) (h1 : t.reg = s.reg) (h2 : memKept s t) : tablesOk t = true := by
  obtain ⟨a, b, c, d, e, f⟩ := h2
  simpa [tablesOk, h1, a, b, c, d, e, f] using h

theorem tablesOk_wrW (s : State) (o : Nat) (v : Word) (h : tablesOk s = true) : tablesOk (wrW s o v) = true := by
  rw [tablesOk_iff] at h ⊢; exact ⟨swf_sset _ _ _ _ h.1, h.2⟩

theorem tablesOk_wrShW (s : State) (o : Nat) (v : Word) (h : tablesOk s = true) : tablesOk (wrShW s o v) = true := by
  rw [tablesOk_iff] at h ⊢; exact ⟨h.1, swf_sset _ _ _ _ h.2.1, h.2.2⟩

theorem tablesOk_wr (s : State) (f : Fld) (x : Nat) (h : tablesOk s = true) : tablesOk (wr s f x) = true := tablesOk_wrW _ _ _ h

theorem tablesOk_wrS (s : State) (f : Fld) (x : Int) (h : tablesOk s = true) : tablesOk (wrS s f x) = true := tablesOk_wrW _ _ _ h

theorem tablesOk_wrB (s : State) (f : Fld) (b : Bool) (h : tablesOk s = true) : tablesOk (wrB s f b) = true := tablesOk_wrW _ _ _ h

theorem tablesOk_bump (s : State) (f : Fld) (h : tablesOk s = true) : tablesOk (bump s f) = true := tablesOk_wrW _ _ _ h

theorem tablesOk_setBitOf (s : State) (f : Fld) (i : Nat) (b : Bool) (h : tablesOk s = true) : tablesOk (setBitOf s f i b) = true :=
  tablesOk_wrW _ _ _ h

theorem tablesOk_logSet (s : State) (off bit : Nat) (h : tablesOk s = true) : tablesOk (logSet s off bit) = true := h

theorem tablesOk_hwSet (s : State) (f : Fld) (i : Nat) (h : tablesOk s = true) : tablesOk (hwSet s f i) = true :=
  tablesOk_logSet _ _ _ (tablesOk_setBitOf _ _ _ _ h)

theorem tablesOk_reach (s : State) (t : Nat) (h : tablesOk s = true) : tablesOk (reach s t) = true := h

theorem tablesOk_postRec (s : State) (r : Rec) (h : tablesOk s = true) : tablesOk (postRec s r) = true := h

theorem tablesOk_post (s : State) (cls blk inst : Nat) (f : Fld) (qs : List (Nat × Nat)) (h : tablesOk s = true) :
    tablesOk (post s cls blk inst f qs) = true := h

theorem tablesOk_clearRegs (s : State) (offs : List Nat) (h : tablesOk s = true) : tablesOk (clearRegs s offs) = true := by
  have h1 : tablesOk (offs.foldl (fun s o => wrW s o 0#32) s) = true := by
    induction offs generalizing s with
    | nil => exact h
    | cons o os ih => exact ih _ (tablesOk_wrW _ _ _ h)
  unfold clearRegs
  generalize offs.foldl (fun s o => wrW s o 0#32) s = t at h1
  induction (tickLog s).incs.filter (fun e => offs.contains e.1.off) generalizing t with
  | nil => exact h1
  | cons e l ih => exact ih _ (tablesOk_wrW _ _ _ h1)

theorem tablesOk_alarmSet (s : State) (b : Nat) (h : tablesOk s = true) : tablesOk (alarmSet s b) = true := by
  unfold alarmSet
  split
  · exact tablesOk_logSet _ _ _ h
  · exact tablesOk_postRec _ _ (tablesOk_hwSet _ _ _ h)

theorem tablesOk_alarmWrite (s : State) (b : Nat) (h : tablesOk s = true) : tablesOk (alarmWrite s b) = true := by
  unfold alarmWrite
  split
  · exact h
  · exact tablesOk_postRec _ _ (tablesOk_setBitOf _ _ _ _ h)

theorem tablesOk_lstWr (s : State) (a : Nat) (bs : List Byte) (h : tablesOk s = true) : tablesOk (lstWr s a bs) = true := by
  rw [tablesOk_iff] at h ⊢; obtain ⟨a, b, c, d, e⟩ := h; exact ⟨a, b, c, swf_ssetList _ _ _ _ d, e⟩

theorem tablesOk_lstKeep (s : State) (a : Nat) (bs : List Byte) (h : tablesOk s = true) : tablesOk (lstKeep s a bs) = true :=
  tablesOk_lstWr _ _ _ h

theorem tablesOk_sesWr (s : State) (k : Nat) (bs : List Byte) (h : tablesOk s = true) : tablesOk (sesWr s k bs) = true :=
  tablesOk_lstWr _ _ _ h

theorem tablesOk_flashWr (s : State) (a : Nat) (bs : List Byte) (h : tablesOk s = true) : tablesOk (flashWr s a bs) = true := by
  rw [tablesOk_iff] at h ⊢; obtain ⟨a, b, c, d, e, f⟩ := h; exact ⟨a, b, c, d, swf_ssetList _ _ _ _ e, f⟩

theorem tablesOk_nvmWr (s : State) (a : Nat) (bs : List Byte) (h : tablesOk s = true) : tablesOk (nvmWr s a bs) = true := by
  rw [tablesOk_iff] at h ⊢; obtain ⟨a, b, c, d, e, f, g⟩ := h; exact ⟨a, b, c, d, e, swf_ssetList _ _ _ _ f, g⟩

theorem tablesOk_hostWr (s : State) (a : Nat) (bs : List Byte) (h : tablesOk s = true) : tablesOk (hostWr s a bs) = true := by
  unfold hostWr
  split
  · rw [tablesOk_iff] at h ⊢; obtain ⟨a, b, c, d, e, f, g⟩ := h; exact ⟨a, b, c, d, e, f, swf_ssetList _ _ _ _ g⟩
  · exact h

theorem tablesOk_memErr (s : State) (kind cls a : Nat) (h : tablesOk s = true) : tablesOk (memErr s kind cls a) = true := by
  unfold memErr; repeat apply tablesOk_wr
  exact h

theorem tablesOk_memReach (s : State) (cls a n : Nat) (h : tablesOk s = true) : tablesOk (memReach s cls a n) = true := by
  unfold memReach
  split
  · exact h
  · exact tablesOk_post _ _ _ _ _ _ (tablesOk_memErr _ _ _ _ h)

theorem tablesOk_gddrWr (s : State) (cls a : Nat) (bs : List Byte) (h : tablesOk s = true) : tablesOk (gddrWr s cls a bs) = true := by
  have h := tablesOk_memReach s cls a bs.length h
  rw [tablesOk_iff] at h ⊢; obtain ⟨a, b, c, d⟩ := h; exact ⟨a, b, swf_ssetList _ _ _ _ c, d⟩

theorem tablesOk_gddrPut (s : State) (cls a : Nat) (bs : List Byte) (h : tablesOk s = true) : tablesOk (gddrPut s cls a bs) = true :=
  tablesOk_congr (tablesOk_gddrWr s cls a bs h) rfl ⟨rfl, rfl, rfl, rfl, rfl, rfl⟩

/-- Folding an operation that keeps the canonical form keeps it. -/
theorem tablesOk_foldl {β : Type} (f : State → β → State) (hf : ∀ s x, tablesOk s = true → tablesOk (f s x) = true) (l : List β) (s : State)
    (h : tablesOk s = true) : tablesOk (l.foldl f s) = true := by
  induction l generalizing s with
  | nil => exact h
  | cons x l ih => exact ih _ (hf _ _ h)

end Sys2Proof.Machine
end

