-- ==== Sys2Proof/Tests/Slice0.lean ====
section
/-!
SUPPORT. Tests: ill-formed commands are refused, worked examples of the manual and published vectors come out, and for every statement with
hypotheses a theorem `wit_<statement>` shows concrete states and operands that meet them, clause by clause (for a sealed command, whose message
must decrypt, one branch of each operation). Three clauses have no witness here:
the enrolment block that verifies (its signature covers Config.serial, which has no value in Lean), the two that need a whole configuration image
that passes every check (too long for the kernel; NOTES.md says how it was checked).
-/

set_option maxRecDepth 100000
set_option Elab.async false
namespace Sys2Proof.Tests

open Sys2Proof.Machine

/-- A started device with every domain on, every other register 0, and nothing in progress. -/
def up : State := { State.reset with tick := 1, reg := [(F.PWR_DOM_ON_on.off, 0x3FFFFFFF#32)], shadow := [],
                                     boot := { step := 8, imageOk := true, step8 := true, end5 := some 0, did := [] } }

/-- A state with fields set. -/
def setF (s : State) (l : List (Fld × Nat)) : State := l.foldl (fun s x => wr s x.1 x.2) s

/-- A panel of 64 by 64 pixels, with surface 0 an RGB surface of its size, 8 bits deep, at GDDR6 address 0x100000. -/
def pan : State := setF { up with lst := ssetList 0#8 [] 0 (leBytes 0x100000 8 ++ leBytes 63 2 ++ leBytes 63 2 ++ leBytes 1 1 ++ leBytes 0 1 ++ leBytes 1 1) }
  [(F.SCN_ACTIVE_width_m1, 63), (F.SCN_ACTIVE_height_m1, 63), (F.TMB_PIC_PERIOD_ticks, 20000000), (F.SCN_LINE_q_min, 3276800000), (F.SCN_VBLANK_v_min, 1500)]

/-- A bank for the boundary at `a` without passes. -/
def bank0 (a : Nat) : Bank :=
  { at_ := a, period := 1000, passes := [], slots := [], singles := 0, seqs := 0, nMax := 0, active := 0, losses := [], houseMin := 0 }

/-- A pass of one row, of view 4, at `a`. -/
def pass0 (a : Nat) : Pass :=
  { cams := [], wins := [], view := 4, start := a, q := 16, dur := 100, rows := [⟨true, a, 0, 0, a + 100, []⟩], ordinal := 0, pic := 0, accum := false,
    sub := (1, 1), gap := 0, settle := 0, bl := false, repeats := false, hold := (0, 0), latched := false, started := false, ended := false, marked := false }

/-- A queue entry of the host, complete at tick 5. -/
def entry0 : QEntry :=
  { id := 7, source := 5, slot := 3, surface := 0, seq := 9, token := 4, repl := false, apply := none, accAt := 0, accNo := 0, compAt := some 5,
    si := 0, sj := 0 }

/-- A content run of the house view on the panel above, from tick 1000. -/
def run0 : Run :=
  { num := 1, kind := .content, view := 4, pic := 0, ordinal := 0, start := 1000, q := 3276800000, dur := 3200000, prog := [], accum := false,
    cfg := pan.reg, vers := [], transp := [], band := 0, phi := 0, pol := 0, zq := [], fetch := [], skipped := [], due := [], begun := [],
    subst := [], firstSub := none, subs := 0, brow := none, blocks := [], yTake := 0, lines := [], ySlot := 0, vbp := false, fin := false,
    crc := [], failed := [], zacc := [], accDue := false, cap := 0, capVals := [], prot := false }

/-- A host job of 128 zero bytes, taken from entry 3. -/
def job0 : Job :=
  { entry := 3, desc := List.replicate 128 0#8, next := 0, stop := 0, done := 0, bytes := 0, vfail := 0, version := none, srcPos := 0,
    ended := none, busy := false, abort := none }

/-- The panel above in an Orsal wall of 4 devices: role (1: worker), position, topology (1: ring), state of both ports, other fields. -/
def wall (role pos topo st : Nat) (l : List (Fld × Nat)) : State :=
  setF pan ([(F.ORL_CFG_en, 1), (F.ORL_CFG_role, role), (F.ORL_CFG_pos, pos), (F.ORL_CFG_topo, topo), (F.ORL_CFG_n_dev_m1, 3),
    (F.ORL_PORT_CFG_en_a, 1), (F.ORL_PORT_CFG_en_b, 1), (F.ORL_PORT_STAT_state 0, st), (F.ORL_PORT_STAT_state 1, st),
    (F.ORL_PORT_CFG_retry_ms, 7), (F.ORL_TIME_dly_ms, 3), (F.ORL_TIME_bdiv, 4), (F.TMB_REF_RATIO_ref_div, 4), (F.TMB_REF_RATIO_pic_mul, 1)] ++ l)

/-- An Orsal frame of a type from a source to a position (or broadcast) with a number and a payload. -/
def frm (typ src : Nat) (bcast : Bool) (dst seq : Nat) (pay : List Byte) : List Byte :=
  frameBytes { prec := 0, typ := typ, src := src, bcast := bcast, dst := dst, hops := 1, seq := seq, pay := pay, stamp := .none, blk := none } pay

/-- Keys of a session. -/
def keys0 : List Byte := (List.range 72).map (BitVec.ofNat 8)

/-- A body of 80 bytes. -/
def bod (l : List Byte) : List Byte := l ++ List.replicate (80 - l.length) 0#8

/-- A sealed command under the keys above. -/
def msg (ctr : Nat) (body : List Byte) : List Byte :=
  let head := leBytes 0x3143535A 4 ++ leBytes 0 4 ++ leBytes ctr 8
  let c := gcmSeal (keys0.take 32) (slice keys0 64 4 ++ beBytes ctr 8) head body
  head ++ c.1 ++ c.2 ++ leBytes 0 16

/-- A table that lists bytes from address 0 on, the zeros left out. -/
def from0 (bs : List Byte) : SMap Byte := (bs.zipIdx.map (fun x => (x.2, x.1))).filter (fun x => x.2 != 0#8)

/-- An open session of the PCIe path whose last counter is 5, with bytes at SEC.SES_BUF, and other fields. -/
def ses (m : List Byte) (l : List (Fld × Nat)) : State :=
  { setF up ([(F.SEC_STATUS_session, 2), (F.SEC_CFG_ses_idle, 10), (F.SEC_SES_CTR_LO_ctr, 5), (F.BLQ_SURF_BASE_offset, 0x8000)] ++ l) with
      lst := from0 m, sec.keys := keys0, sec.mfgDone := true, sec.ownerLock := true }

/-- An owner key (the base point itself), and a signature under it of a digest. -/
def key0 : List Byte := beBytes pG.1 48 ++ beBytes pG.2 48
def sig0 (e : Nat) : List Byte := beBytes (ecdsaSign 1 1 e).1 48 ++ beBytes (ecdsaSign 1 1 e).2 48

/-- A start-up environment in which everything passes. -/
def env0 : BootEnv := { sfdpOk := true, selfTestOk := true, flashSize := 0x1000000, t5 := 1000, t7 := 2000, g6Trained := 0xFF#8, flashErrs := [], rebuildFails := [] }

/-! Ill-formed commands are refused by each check of WellFormed -/

/-- A picture of 2 by 2 samples of 8 bits. -/
def sig0g : InSignal := { w := 2, h := 2, depth := 0, sub := 0, enc := none, hdcp := false, fields := false, planes := [[1, 2, 3, 4], [0, 0, 0, 0], [255, 0, 0, 0]] }

theorem test_wf_signal : (Instr.inputPictureStart 0 sig0g).wellFormed = true := by decide +kernel
theorem test_wf_signal_width : (Instr.inputPictureStart 0 { sig0g with w := 0, planes := [[], [], []] }).wellFormed = false := by decide +kernel
theorem test_wf_signal_height : (Instr.inputPictureStart 0 { sig0g with h := 8193 }).wellFormed = false := by decide +kernel
theorem test_wf_signal_planes : (Instr.inputPictureStart 0 { sig0g with planes := [[1, 2, 3, 4]] }).wellFormed = false := by decide +kernel
theorem test_wf_signal_chroma : (Instr.inputPictureStart 0 { sig0g with sub := 1 }).wellFormed = false := by decide +kernel
theorem test_wf_signal_depth : (Instr.inputPictureStart 0 { sig0g with planes := [[1, 2, 3, 4], [0, 0, 0, 0], [256, 0, 0, 0]] }).wellFormed = false := by
  decide +kernel
theorem test_wf_bar_empty_write : (Instr.bar2Access { write := true, off := 0, data := [], len := 0 }).wellFormed = false := by decide +kernel
theorem test_wf_bar_long_read : (Instr.bar2Access { write := false, off := 0, data := [], len := 4097 }).wellFormed = false := by decide +kernel
theorem test_wf_bar0_registers_end : (Instr.bar0RegisterAccess { write := false, off := 0xFFFFFD, data := [], len := 4 }).wellFormed = false ∧
    (Instr.bar0RegisterAccess { write := false, off := 0xFFFFFC, data := [], len := 4 }).wellFormed = true := by decide +kernel
theorem test_wf_bar0_local_store_begin : (Instr.bar0LocalStoreAccess { write := false, off := 0xFFFFFC, data := [], len := 4 }).wellFormed = false ∧
    (Instr.bar0LocalStoreAccess { write := false, off := 0x1FFFFFD, data := [], len := 4 }).wellFormed = false := by decide +kernel
theorem test_wf_bar2_end : (Instr.bar2Access { write := false, off := 0xFFFFFFD, data := [], len := 4 }).wellFormed = false := by decide +kernel
theorem test_wf_ls_length : (Instr.lsAccess { master := 0, strip := false, off := 0#24, write := false, data := [], len := 0, ecc := .clean, late := false }).wellFormed = false ∧
    (Instr.lsAccess { master := 0, strip := false, off := 0#24, write := true, data := List.replicate 17 0#8, len := 0, ecc := .clean, late := false }).wellFormed = false := by
  decide +kernel
theorem test_wf_link : (Instr.pcieLinkStateChange (.up 5 4)).wellFormed = false ∧ (Instr.pcieLinkStateChange (.up 4 3)).wellFormed = false ∧
    (Instr.pcieLinkStateChange (.up 4 4)).wellFormed = true := by decide +kernel
theorem test_wf_boot : (Instr.porNRise { env0 with t5 := 3000 }).wellFormed = false ∧ (Instr.bootFlash { env0 with flashSize := 0 }).wellFormed = false ∧
    (Instr.bootHost env0).wellFormed = true := by decide +kernel
theorem test_wf_frame : (Instr.beaconRx true (List.replicate 23 0#8) 0).wellFormed = false ∧ (Instr.blockRx true (List.replicate 4128 0#8)).wellFormed = false ∧
    (Instr.verRx true (List.replicate 24 0#8)).wellFormed = true := by decide +kernel
theorem test_wf_sensors : (Instr.sensorCycle (List.replicate 15 none)).wellFormed = false ∧ (Instr.sensorCycle (List.replicate 16 none)).wellFormed = true := by
  decide +kernel
theorem test_wf_die : (Instr.dieSensorSample []).wellFormed = false := by decide +kernel
theorem test_wf_mgt : (Instr.mgtWrite 0x0B#8 0#32 []).wellFormed = false ∧ (Instr.mgtWrite 0x05#8 0#32 []).wellFormed = false ∧
    (Instr.mgtWrite 0x07#8 0#32 [1#8]).wellFormed = false := by decide +kernel
theorem test_wf_register_alignment : (Instr.registerWrite .pcie 2#28 0#32 15#4).wellFormed = false ∧
    (Instr.registerWrite .pcie 0x1000000#28 0#32 15#4).wellFormed = false := by decide +kernel

/-! Worked examples of the manual -/

/-- R50: event 4,399 of a refresh of 4,400 lines. -/
theorem test_r50_event : rowTick 0 93090909 4399 = 6248580 := by decide +kernel

/-- Table 6.1: the refresh times of three modes. -/
theorem test_r175_modes : [refreshTime 4320 93090909 113636, refreshTime 4320 186181818 227273, refreshTime 2160 93090909 56818]
    = [6250000, 12500000, 3125000] := by decide +kernel

/-- R69: the readout shift of row 3. -/
theorem test_r69_shift : (mkWin (setF up [(F.EXS_CAM_SLOPE_sl 0, 93090909), (F.EXS_CAM_SPAN_y1 0, 4319)]) 0 0 0).d 3 = 4261 := by decide +kernel

/-- R61, Table 3.2: a 90 degree shutter at 24 pictures per second. -/
theorem test_r61_exposure : camExposure (setF up [(F.TMB_PIC_PERIOD_ticks, 62500000), (F.EXS_CAM_ANGLE_angle 0, 9000)]) 0 = 15625000 := by decide +kernel

/-- R187: horizontal chroma between 2,000 and 3,000. -/
theorem test_r187_chroma : chromaH (fun i => 1000 * (i + 1)) 4 3 = 2500 := by decide +kernel

/-- R296: packed codes at 12 and 10 bits. -/
theorem test_r296_pack : packCodes 12 [0xABC, 0x123] = [0xAB#8, 0xC1#8, 0x23#8] ∧
    packCodes 10 [0x3FF, 0, 0x155, 0x2AA] = [0xFF#8, 0xC0#8, 0x05#8, 0x56#8, 0xAA#8] := by decide +kernel

/-- The green subpixel of chapter 8: its curves. -/
def green : State :=
  { setF up [(F.AGE_MODEL_sh, 20), (F.AGE_MODEL_mix, 64)] with
      age.tbl := ((List.range 17).foldl (fun m i => sset 0 (sset 0 m (64 + 17 + i) (32768 - 328 * i)) (128 + 17 + i) (64 * i)) []) }

/-- R255, R262, R263, R271: accumulation, prediction, codes and measured stress of that subpixel. -/
theorem test_r255_increment : stressInc 32768 4194304 (3 * 2 ^ 29) = 1 ∧ stressInc 32768 4194304 (3 * 2 ^ 29 - 1) = 0 := by decide +kernel
theorem test_r263_codes : compCode green 1 1000000 = 10 * 256 + 4 ∧ compCode green 1 1112446 = 11 * 256 + 4 := by decide +kernel
theorem test_r271_stress : measuredStress green 1 32300 80 = 1449784 := by decide +kernel

/-- R423, R424: 12 bytes written at offset 58 program group 7, then group 0. -/
theorem test_r424_groups : touchedGroups 58 12 = [7, 0] := by decide +kernel

/-- Table 5.13: how many blocks of a packed job fit. -/
theorem test_r166_fit : (packFit 3000 [List.replicate 912 0#8, List.replicate 1552 0#8, List.replicate 720 0#8] 64).2 = 2 ∧
    (packFit 512 [List.replicate 816 0#8] 64).2 = 0 := by decide +kernel

/-- Chapter 18: the offset of EXS.CAM2_BRIM. -/
theorem test_offset_cam2_brim : (F.EXS_CAM_BRIM_ticks 2).off = 0x30194 := by decide +kernel

/-- The black-burst reference of chapter 2, aligned at tick 1,000,000,000. -/
def burst : State :=
  { setF up [(F.TMB_PIC_PERIOD_ticks, 62562500), (F.TMB_REF_RATIO_pic_mul, 2), (F.TMB_REF_RATIO_ref_div, 5), (F.TMB_REF_WIN_ticks, 1500),
      (F.TMB_REF_CFG_src, 1), (F.TMB_LOCK_CFG_miss_cnt, 3), (F.TMB_STATUS_state, tmLOCKED)] with tmb.align := some 1000000000 }

/-- What an edge with a timestamp leaves: the tick, the phase error and the strays. -/
def edgeAt (ts : Nat) : Option (Nat × Int × Nat) :=
  match exec (.genlockEdge .pin ts) burst with
  | .next t => some (t.tick, rdS t F.TMB_PHASE_ERR_ticks, rd t F.TMB_REF_CNT_strays)
  | _ => none

/-- The end of the acceptance window [1,125,123,500, 1,125,126,500): the edge is a stray. -/
theorem test_r35_end : edgeAt 1125126500 = some (1125126506, 0, 1) := by decide +kernel

/-- A device whose inputs have slept for long, with a deepest permitted state and a latency. -/
def sleepy (mx lat : Nat) : State :=
  { setF up [(F.PWR_REQ_max_state, mx), (F.PWR_LAT_TOL_us, lat), (F.PWR_IDLE_idle_ms, 1), (F.PWR_IDLE_hold_s, 0)] with
      tick := 1000000000000, host.d3hot := true, host.l2 := true }

/-- The state that a choice, or a sleep request, is on its way to. -/
def goes (c : Instr) (s : State) : Option Nat := match exec c s with | .next t => some (pwrTarget t) | _ => none

/-- Table 16.3: the state choices. -/
theorem test_table_16_3 : [goes .powerStateChoice (sleepy 4 100), goes .powerStateChoice (sleepy 4 250), goes .powerStateChoice (sleepy 4 300),
    goes .powerStateChoice (sleepy 4 100000)] = [some 0, some 1, some 2, some 2] := by decide +kernel
theorem test_table_16_3_sleep : [goes .pwrSleep (sleepy 4 100000), goes .pwrSleep (sleepy 4 0xFFFFFFFF), goes .pwrSleep (sleepy 1 0xFFFFFFFF)]
    = [some 3, some 4, some 1] := by decide +kernel

/-! Published vectors of the algorithms the manual names -/

/-- CRC-32 and CRC-16 of ASCII "123456789" (their catalogued check values). -/
theorem test_crc : crc32 [0x31#8, 0x32#8, 0x33#8, 0x34#8, 0x35#8, 0x36#8, 0x37#8, 0x38#8, 0x39#8] = 0xCBF43926 ∧
    crc16 [0x31#8, 0x32#8, 0x33#8, 0x34#8, 0x35#8, 0x36#8, 0x37#8, 0x38#8, 0x39#8] = 0x29B1 := by decide +kernel

/-- SHA-384 of ASCII "abc" (FIPS 180-4). -/
theorem test_sha384 : ofBe (sha384 [0x61#8, 0x62#8, 0x63#8]) =
    0xCB00753F45A35E8BB5A03D699AC65007272C32AB0EDED1631A8B605A43FF5BED8086072BA1E7CC2358BAECA134C825A7 := by decide +kernel

/-- The AES-256-GCM tag of nothing under a zero key and IV (the first AES-256 case of the GCM submission). -/
theorem test_gcm : ofBe (gcmSeal (List.replicate 32 0#8) (List.replicate 12 0#8) [] []).2 = 0x530F8AFBC74536B9A963B4F1C4CB738B := by decide +kernel

/-- The base point of P-384 is on the curve. -/
theorem test_p384_base : onCurve pG = true := by decide +kernel

/-! Reset and the queue -/

theorem test_reset_tables : tablesOk State.reset = true := by decide +kernel
theorem test_reset_queue : State.reset.pending = [] := rfl
theorem test_no_word_spells_a_command : decodeTableWord 16 5 = none ∧ State.reset.withFetchWord 16 5 = State.reset := ⟨rfl, rfl⟩
theorem test_step_takes_the_front : step { up with pending := [.tmbClrCnt, .porNLow] } = exec .tmbClrCnt { up with pending := [.porNLow] } := rfl

/-! A witness for the hypotheses of every statement -/

/-- The cases of `Obligations.StepRunsFrontCommand` with an empty queue: no record posted, and one posted. -/
theorem wit_StepRunsFrontCommand_idle : (up.pending = [] ∧ up.evt.posted = []) ∧
    ((alarmSet up almHOLD60).pending = [] ∧ (alarmSet up almHOLD60).evt.posted ≠ []) := by decide +kernel

/-- `Obligations.StepKeepsTablesCanonical`, `CommandsLeaveTheQueue`, `FusesNeverClear`: a state in canonical form, with fuses programmed and
commands waiting, that steps. -/
theorem wit_StepKeepsTablesCanonical : tablesOk up = true ∧ ∃ t, step up = .next t := ⟨by decide +kernel, _, rfl⟩
theorem wit_CommandsLeaveTheQueue : ∃ t, step { up with pending := [.tmbClrCnt, .porNLow] } = .next t := ⟨_, rfl⟩
theorem wit_FusesNeverClear : ∃ t, step { up with sec.ownerLock := true, sec.hash := 5, pending := [.porNLow] } = .next t := ⟨_, rfl⟩


def st16 : State := { setF up [(F.TMB_REF_CNT_misses, 3), (F.TMB_REF_CNT_strays, 7)] with now := ⟨1, [(F.TMB_REF_CNT_misses, 3)], []⟩ }
def st17 : State := setF up [(F.TMB_REF_CNT_misses, 3), (F.TMB_REF_CNT_strays, 7)]
def st18 : State := { setF up [(F.NVM_CNT_ERR_wr_ign, 3), (F.NVM_STATUS_wr_ign, 1)] with tick := 400, nv.reading := some (400, 1600, 0, 0) }
def st19 : State := { setF up [(F.NVM_CNT_ERR_wr_ign, 3), (F.NVM_STATUS_wr_ign, 1)] with tick := 400, nv.reading := some (401, 1600, 0, 0) }
def st20 : State := { up with nv.reading := some (3, 1600, 0, 0) }
def st21 : State := { up with nv.reading := some (2, 1600, 0, 0) }
def st22 : State := State.reset
def st23 : State := { up with tick := 9, host.rstAt := some 9 }
def st24 : State := { up with boot.end5 := none }
def st25 : State := setF up [(F.PWR_DOM_ON_on, 16)]
def st26 : State := { setF up [(F.TMB_PIC_PERIOD_ticks, 1000), (F.TMB_REF_RATIO_pic_mul, 1), (F.TMB_REF_RATIO_ref_div, 1), (F.TMB_REF_WIN_ticks, 100), (F.TMB_LOCK_CFG_lock_thr, 10), (F.TMB_LOCK_CFG_lock_cnt, 2), (F.TMB_LOCK_CFG_miss_cnt, 3), (F.TMB_REF_CFG_src, 1), (F.TMB_STATUS_state, tmLOCKED)] with tick := 5000, tmb.align := some 1000, tmb.bad := 1, tmb.good := 1, tmb.missRun := 0 }
def st31 : State := { { setF up [(F.TMB_PIC_PERIOD_ticks, 1000), (F.TMB_REF_RATIO_pic_mul, 1), (F.TMB_REF_RATIO_ref_div, 1), (F.TMB_REF_WIN_ticks, 100), (F.TMB_LOCK_CFG_lock_thr, 10), (F.TMB_LOCK_CFG_lock_cnt, 2), (F.TMB_LOCK_CFG_miss_cnt, 3), (F.TMB_REF_CFG_src, 1), (F.TMB_STATUS_state, tmLOCKED)] with tick := 5000, tmb.align := some 1000, tmb.bad := 0, tmb.good := 1, tmb.missRun := 0 } with tmb.acc := none }
def st36 : State := { setF up [(F.TMB_PIC_PERIOD_ticks, 1000), (F.TMB_REF_RATIO_pic_mul, 1), (F.TMB_REF_RATIO_ref_div, 1), (F.TMB_REF_WIN_ticks, 100), (F.TMB_LOCK_CFG_lock_thr, 10), (F.TMB_LOCK_CFG_lock_cnt, 2), (F.TMB_LOCK_CFG_miss_cnt, 3), (F.TMB_REF_CFG_src, 1), (F.TMB_STATUS_state, tmLOCKED)] with tick := 5000, tmb.align := some 1000, tmb.bad := 0, tmb.good := 1, tmb.missRun := 1 }
def st37 : State := { setF up [(F.TMB_PIC_PERIOD_ticks, 1000), (F.TMB_REF_RATIO_pic_mul, 1), (F.TMB_REF_RATIO_ref_div, 1), (F.TMB_REF_WIN_ticks, 100), (F.TMB_LOCK_CFG_lock_thr, 10), (F.TMB_LOCK_CFG_lock_cnt, 2), (F.TMB_LOCK_CFG_miss_cnt, 3), (F.TMB_REF_CFG_src, 1), (F.TMB_STATUS_state, tmLOCKED)] with tick := 5000, tmb.align := some 1000, tmb.bad := 0, tmb.good := 1, tmb.missRun := 2 }
def st41 : State := { setF up [(F.TMB_PIC_PERIOD_ticks, 1000), (F.TMB_REF_RATIO_pic_mul, 1), (F.TMB_REF_RATIO_ref_div, 1), (F.TMB_REF_WIN_ticks, 100), (F.TMB_LOCK_CFG_lock_thr, 10), (F.TMB_LOCK_CFG_lock_cnt, 2), (F.TMB_LOCK_CFG_miss_cnt, 3), (F.TMB_REF_CFG_src, 1), (F.TMB_STATUS_state, tmHOLDOVER)] with tick := 5000, tmb.align := some 1000, tmb.bad := 0, tmb.good := 1, tmb.missRun := 3 }
def st42 : State := { { setF up [(F.TMB_PIC_PERIOD_ticks, 1000), (F.TMB_REF_RATIO_pic_mul, 1), (F.TMB_REF_RATIO_ref_div, 1), (F.TMB_REF_WIN_ticks, 100), (F.TMB_LOCK_CFG_lock_thr, 10), (F.TMB_LOCK_CFG_lock_cnt, 2), (F.TMB_LOCK_CFG_miss_cnt, 3), (F.TMB_REF_CFG_src, 1), (F.TMB_STATUS_state, tmHOLDOVER)] with tick := 5000, tmb.align := some 1000, tmb.bad := 0, tmb.good := 1, tmb.missRun := 3 } with tmb.held60 := true }
def st43 : State := { up with tick := 2 ^ 33 + 5, tmb.pic := some 7, tmb.bound := 2 ^ 33 }
def st45 : State := setF up [(F.PSQ_STATUS_state, psON)]
def st49 : State := { setF up [(F.TMB_STATUS_resync, 1)] with tmb.useB := true }
def st50 : State := setF up [(F.TMB_STATUS_resync, 1)]
def st51 : State := { pan with tmb.next := some 1000, exs.next := some (bank0 1000) }
def st52 : State := { pan with tmb.next := some 1000, exs.bank := some (bank0 0) }
def st53 : State := { setF pan [(F.TMB_STATUS_state, tmACQUIRE)] with boot.step8 := false, boot.end5 := some 100 }
def st54 : State := { setF pan [(F.TMB_STATUS_state, tmACQUIRE)] with boot.step8 := false, boot.end5 := some 100, tmb.mgr := some (40, 100 + 10 * 1500000000 - 2 * 20000000) }
def st55 : State := { pan with tmb.next := some 1000 }
def st58 : State := { setF pan [(F.EXS_CTRL_enable, 1), (F.EXS_CAM_CFG_mode 2, 2), (F.EXS_CAM_CFG_miss_max 2, 2), (F.EXS_CAM_TRACK_acc_win 2, 50), (F.EXS_CAM_CFG_coast_max 2, 3), (F.EXS_CAM_STAT_state 2, cmTRACK)] with exs.cams := [(2, { Cam.reset with opens := [1000], missRun := 1 })] }
def st59 : State := { setF pan [(F.EXS_CTRL_enable, 1), (F.EXS_CAM_CFG_mode 2, 2), (F.EXS_CAM_CFG_miss_max 2, 2), (F.EXS_CAM_TRACK_acc_win 2, 50), (F.EXS_CAM_CFG_coast_max 2, 3), (F.EXS_CAM_STAT_state 2, cmCOAST)] with exs.cams := [(2, { Cam.reset with opens := [1000], missRun := 1 })] }
def st60 : State := { setF pan [(F.EXS_CTRL_enable, 1), (F.EXS_CAM_CFG_mode 2, 2), (F.EXS_CAM_CFG_miss_max 2, 2), (F.EXS_CAM_TRACK_acc_win 2, 50), (F.EXS_CAM_CFG_coast_max 2, 3), (F.EXS_CAM_STAT_state 2, cmTRACK)] with exs.cams := [(2, { Cam.reset with level := true, opens := [1000], pend := some 1000, pendAcc := true })] }
def st63 : State := { setF pan [(F.EXS_CTRL_enable, 1), (F.EXS_CAM_CFG_mode 2, 2), (F.EXS_CAM_CFG_miss_max 2, 2), (F.EXS_CAM_TRACK_acc_win 2, 50), (F.EXS_CAM_CFG_coast_max 2, 3), (F.EXS_CAM_STAT_state 2, cmCOAST)] with exs.cams := [(2, { Cam.reset with opens := [1000], missRun := 5 })] }
def st64 : State := { setF pan [(F.EXS_CTRL_enable, 1), (F.EXS_CAM_CFG_mode 2, 2), (F.EXS_CAM_CFG_miss_max 2, 2), (F.EXS_CAM_TRACK_acc_win 2, 50), (F.EXS_CAM_CFG_coast_max 2, 3), (F.EXS_CAM_STAT_state 2, cmCOAST)] with exs.cams := [(2, { Cam.reset with opens := [1000], coast := 3 })] }
def st66 : State := setF pan [(F.ING_IN_STAT_lock 1, 1), (F.ING_IN_CFG_en 1, 1), (F.ING_IN_MAX_w_max 1, 63), (F.ING_IN_MAX_h_max 1, 63), (F.ING_IN_POOL_first 1, 3), (F.ING_IN_POOL_count 1, 2)]
def st67 : State := setF pan [(F.ING_IN_STAT_lock 1, 1), (F.ING_IN_CFG_en 1, 1), (F.ING_IN_MAX_w_max 1, 63), (F.ING_IN_MAX_h_max 1, 63), (F.ING_IN_POOL_first 1, 3), (F.ING_IN_POOL_count 1, 2), (F.ING_IN_DST_bx0 1, 2)]
def st68 : State := setF pan [(F.ING_IN_STAT_lock 1, 1), (F.ING_IN_CFG_en 1, 1), (F.ING_IN_MAX_w_max 1, 63), (F.ING_IN_MAX_h_max 1, 63), (F.ING_IN_POOL_first 1, 3), (F.ING_IN_POOL_count 1, 0)]
def st72 : State := { pan with ing.inputs := [(1, { Inp.reset with pic := some (({ sig := ({ w := 64, h := 64, depth := 1, sub := 1, enc := none, hdcp := false, fields := false, planes := [] } : InSignal), surface := 0, seq := 3, store := true, mtx := 0, tf := 0, range := 0, prim := 0, slot := 1, bx0 := 0, by0 := 0, apply := none, m := [], row := 1, ids := [], at_ := 0 } : InPic)) })] }
def st73 : State := { pan with ing.inputs := [(1, { Inp.reset with pic := some (({ sig := ({ w := 64, h := 64, depth := 1, sub := 1, enc := none, hdcp := false, fields := false, planes := [] } : InSignal), surface := 0, seq := 3, store := true, mtx := 0, tf := 0, range := 0, prim := 0, slot := 1, bx0 := 0, by0 := 0, apply := none, m := [], row := 0, ids := [], at_ := 0 } : InPic)) })] }
def st76 : State := { up with blq.sub := some [] }
def st77 : State := { pan with blq.queues := [], blq.sub := some ([3 * 65536, 9, 4, 0x01010000]), blq.nextId := 11 }
def st77u : State := resolveDue st77
def st78 : State := { pan with blq.queues := [(256, [entry0, entry0, entry0, entry0])], blq.sub := some ([3 * 65536, 9, 4, 0x01010000]), blq.nextId := 11 }
def st78u : State := resolveDue st78
def st79 : State := { pan with blq.queues := [], blq.sub := some ([20 * 65536, 9, 4, 0]), blq.nextId := 11 }
def st79u : State := resolveDue st79
def st81 : State := { pan with tick := 50, blq.writes := [((⟨7, 0, 0⟩ : WriteJob))], blq.queues := [(1, [{ entry0 with compAt := none }])] }
def st82 : State := { pan with tick := 50, blq.writes := [((⟨7, 0, 1⟩ : WriteJob))], blq.queues := [(1, [{ entry0 with compAt := none }])] }
def st84 : State := { setF pan [(F.BLQ_INSP_SEL_bx, 1), (F.BLQ_INSP_SEL_by, 1), (F.BLQ_INSP_SEL_slot, 3)] with blq.cur := [(32 * 257 + 3, some ⟨5, 2, 77, 0, 0⟩)] }
def st86 : State := { pan with cdc.cmpLanes := (List.replicate 8 none).set 6 (some ((⟨5, 0x200000, 0, false, List.replicate 1024 9, 2, .ingest 1 [4] 0⟩ : CmpReq))), blq.writes := [⟨4, 0, 2⟩] }
def st88 : State := { pan with cdc.decLanes := (List.replicate 16 none).set 15 (some ((⟨7, false, 2 ^ 33, 0, 0, none, .job, 0⟩ : DecReq))), cdc.job := some job0 }
def st89 : State := { pan with gddr := ssetList 0#8 [] 0x200000 (encodeBlock 0 0 false (List.replicate 1024 9)), cdc.decLanes := (List.replicate 16 none).set 15 (some ((⟨7, false, 0x200000, 0, 0, none, .job, 0⟩ : DecReq))), cdc.job := some job0 }
def st90 : State := { pan with gddr := ssetList 0#8 [] 0x200000 (encodeBlock 0 0 false (List.replicate 1024 9)), cdc.decLanes := (List.replicate 16 none).set 15 (some ((⟨7, false, 0x200000, 0, 0, none, .scan 1 2, 0⟩ : DecReq))), scn.runs := [{ run0 with fetch := (sset none [] (fetchKey 2 0x200000 0) (some ((⟨2, 0x200000, 0, .wait⟩ : Fetch))) : SMap (Option Fetch)) }] }
def st94 : State := { setF pan [(F.CDC_JOB_SIZE_log2n, 3), (F.CDC_JOB_BASE_offset, 0x10000), (F.CDC_JOB_CONS_index, 65535), (F.CDC_JOB_PROD_index, 1)] with lst := ssetList 0#8 [] (0x10000 + 128 * 7) [0#8] }
def st99 : State := setF pan [(F.CDC_JOB_PROD_index, 1)]
def st100 : State := { setF pan [(F.CDC_JOB_SIZE_log2n, 2), (F.CDC_JOB_BASE_offset, 0x10000)] with cdc.job := some (({ job0 with desc := [0#8, 0#8] ++ List.replicate 126 0#8, done := 5, ended := some (1, 2, 3) } : Job)) }
def st103 : State := { setF pan [(F.CDC_JOB_SIZE_log2n, 2), (F.CDC_JOB_BASE_offset, 0xF7FE60)] with cdc.job := some (({ job0 with desc := [0#8, 1#8] ++ List.replicate 126 0#8, done := 3, ended := some (1, 2, 3) } : Job)) }
def st104 : State := { pan with cdc.job := some (({ job0 with busy := false, stop := 4, abort := some 1 } : Job)) }
def st111 : State := { setF pan [(F.DRV_CFG_n_ch, 192), (F.DRV_GROUPS_en, 1)] with shadow := pan.reg }
def st112 : State := { pan with tick := 1100, exs.carried := [{ pass0 1000 with ended := true }], scn.set := some ((⟨[(F.SCN_BG0.off, 77#32)], some 1050, none, none⟩ : CommitSet)) }
def st113 : State := { pan with tick := 1100, tmb.pic := some 4, tmb.bound := 1100, scn.set := some ((⟨[((F.EXS_CAM_ANGLE_angle 0).off, 1400#32)], none, some 1050, none⟩ : CommitSet)) }
def st114 : State := { pan with tick := 900, tmb.pic := some 3, tmb.bound := 800, exs.carried := [pass0 1000], blq.queues := [(1, [entry0])] }
def st116 : State := { pan with exs.carried := [pass0 1000] }
def st118 : State := { pan with scn.runs := [(({ run0 with due := [1, 0, 2, 0, 1, 1], begun := [0, 0, 0, 0, 0, 0] } : Run))] }
def st120 : State := { pan with scn.runs := [(({ run0 with prog := [true, false] } : Run))] }
def st123 : State := { pan with exs.carried := [{ pass0 1000 with started := true }] }
def st125 : State := { pan with scn.nsl := some ((⟨2, 3276800000, true, 5000, 9000, false, 20000⟩ : Nsl)) }
def st126 : State := { pan with scn.nsl := some ((⟨2, 3276800000, true, 5000, 9000, true, 20000⟩ : Nsl)) }
def st128 : State := setF up [(F.PPX_SNS_en 0, 1), (F.PPX_SNS_en 15, 1), (F.PPX_STATUS_band, 3), (F.PPX_TEMP_THR0_t1, 160), (F.PPX_TEMP_THR1_t2, 320), (F.PPX_TEMP_THR1_t3, 400), (F.PPX_TEMP_THR2_t4, 480), (F.PPX_TEMP_THR2_t5, 560), (F.PPX_TEMP_THR3_t6, 640), (F.PPX_TEMP_THR3_t7, 720)]
def st129 : State := { setF up [(F.PPX_SNS_en 0, 1), (F.PPX_SNS_en 15, 1), (F.PPX_STATUS_band, 3), (F.PPX_TEMP_THR0_t1, 160), (F.PPX_TEMP_THR1_t2, 320), (F.PPX_TEMP_THR1_t3, 400), (F.PPX_TEMP_THR2_t4, 480), (F.PPX_TEMP_THR2_t5, 560), (F.PPX_TEMP_THR3_t6, 640), (F.PPX_TEMP_THR3_t7, 720)] with ppx.fresh := false, ppx.sns := [⟨true, 0, true⟩] ++ List.replicate 14 ⟨false, 0, false⟩ ++ [⟨true, 1, true⟩] }
def st132 : State := setF up ([(F.PPX_CNT_SNSFAIL_reads, 7)] ++ [(F.PPX_SNS_en 0, 1), (F.PPX_SNS_en 15, 1), (F.PPX_STATUS_band, 3), (F.PPX_TEMP_THR0_t1, 160), (F.PPX_TEMP_THR1_t2, 320), (F.PPX_TEMP_THR1_t3, 400), (F.PPX_TEMP_THR2_t4, 480), (F.PPX_TEMP_THR2_t5, 560), (F.PPX_TEMP_THR3_t6, 640), (F.PPX_TEMP_THR3_t7, 720)])
def st133 : State := { setF up ([(F.PPX_CNT_SNSFAIL_reads, 7)] ++ [(F.PPX_SNS_en 0, 1), (F.PPX_SNS_en 15, 1), (F.PPX_STATUS_band, 3), (F.PPX_TEMP_THR0_t1, 160), (F.PPX_TEMP_THR1_t2, 320), (F.PPX_TEMP_THR1_t3, 400), (F.PPX_TEMP_THR2_t4, 480), (F.PPX_TEMP_THR2_t5, 560), (F.PPX_TEMP_THR3_t6, 640), (F.PPX_TEMP_THR3_t7, 720)]) with ppx.fresh := false, ppx.sns := [⟨true, 0, true⟩] ++ List.replicate 14 ⟨false, 0, false⟩ ++ [⟨true, 2, true⟩] }
def st136 : State := { setF up ([(F.PPX_SNS_en 0, 1), (F.PPX_SNS_en 15, 1), (F.PPX_STATUS_band, 3), (F.PPX_TEMP_THR0_t1, 160), (F.PPX_TEMP_THR1_t2, 320), (F.PPX_TEMP_THR1_t3, 400), (F.PPX_TEMP_THR2_t4, 480), (F.PPX_TEMP_THR2_t5, 560), (F.PPX_TEMP_THR3_t6, 640), (F.PPX_TEMP_THR3_t7, 720)] ++ [(F.PPX_CNT_BAND_changes, 9)]) with ppx.fresh := false, ppx.sns := [⟨true, 0, true⟩] ++ List.replicate 15 ⟨false, 0, false⟩ }
def st137 : State := { setF up ([(F.PPX_SNS_en 0, 1), (F.PPX_SNS_en 15, 1), (F.PPX_STATUS_band, 3), (F.PPX_TEMP_THR0_t1, 160), (F.PPX_TEMP_THR1_t2, 320), (F.PPX_TEMP_THR1_t3, 400), (F.PPX_TEMP_THR2_t4, 480), (F.PPX_TEMP_THR2_t5, 560), (F.PPX_TEMP_THR3_t6, 640), (F.PPX_TEMP_THR3_t7, 720)] ++ [(F.PPX_CNT_BAND_changes, 9)]) with ppx.fresh := true, ppx.sns := List.replicate 14 ⟨false, 0, false⟩ ++ [⟨false, 0, true⟩] }
def st143 : State := { setF up [(F.PPX_TEMP_CFG_fb_band, 5), (F.PPX_STATUS_band, 5)] with ppx.noSince := some 100 }
def st144 : State := { setF up [(F.PPX_TEMP_CFG_fb_band, 5), (F.PPX_STATUS_band, 6)] with ppx.noSince := some 100 }
def st145 : State := { setF up [(F.PPX_TEMP_CFG_fail, 2), (F.PPX_TEMP_CFG_fb_band, 5)] with ppx.noSince := some 100 }
def st146 : State := { up with ppx.noSince := some 100, ppx.fellBack := true }
def st148 : State := setF up [(F.PPX_TBL_SEL_table, 8), (F.PPX_TBL_IDX_index, 4095)]
def st149 : State := setF up [(F.PPX_TBL_SEL_table, 8), (F.PPX_TBL_IDX_index, 4096)]
def st151 : State := setF up [(F.PPX_TBL_SEL_table, 8), (F.PPX_TBL_IDX_index, 0), (F.PPX_CFG_dith_en, 1)]
def st153 : State := { setF up [(F.PPX_TBL_SEL_table, 8), (F.PPX_TBL_IDX_index, 2)] with ppx.tbl := [(tblKey 0 8 2, 5)] }
def st154 : State := setF up [(F.PPX_TBL_SEL_table, 15), (F.PPX_TBL_IDX_index, 131071)]
def st155 : State := setF up [(F.AGE_TBL_SEL_table, 0), (F.AGE_TBL_IDX_index, 47), (F.AGE_CFG_acc_en, 0)]
def st156 : State := setF up [(F.AGE_TBL_SEL_table, 3), (F.AGE_TBL_IDX_index, 63), (F.AGE_CFG_acc_en, 0)]
def st157 : State := setF up [(F.AGE_TBL_SEL_table, 2), (F.AGE_TBL_IDX_index, 50), (F.AGE_CFG_acc_en, 1)]
def st158 : State := { setF up [(F.AGE_TBL_SEL_table, 1), (F.AGE_TBL_IDX_index, 50)] with age.tbl := [(114, 9)] }
def st159 : State := setF up [(F.PPX_CAP_CFG_count, 4), (F.PPX_CAP_STAT_recs, 9), (F.PPX_CAP_USED_granules, 8)]
def st160 : State := { up with ppx.cap := some ((⟨0, 2, false, 0⟩ : Cap)) }
def st161 : State := { up with ppx.cap := some ((⟨0, 2, false, 0⟩ : Cap)), ppx.capJobs := [((⟨3, 7, 4, 1, true, false, true, []⟩ : CapJob))] }
def st162 : State := { setF up [(F.PPX_CAP_REC_offset, 0x1000), (F.PPX_CAP_REC_log2n, 2), (F.PPX_CAP_STAT_recs, 65535)] with ppx.capJobs := [((⟨3, 7, 4, 1, true, false, true, []⟩ : CapJob))] }
def st163 : State := { setF pan [(F.PPX_CAP_REC_offset, 0x1000), (F.PPX_CAP_REC_log2n, 2), (F.PPX_CAP_STAT_recs, 1), (F.PPX_CAP_USED_granules, 5)] with ppx.capJobs := [((⟨3, 7, 4, 1, false, false, true, (((List.range 3).flatMap (fun p => (List.range 4).map (fun i => (65536 * p + blkKey (i % 2) (i / 2), [7#8, 9#8])))).foldl (fun m x => sset [] m x.1 x.2) [])⟩ : CapJob))] }
def st166 : State := { up with ppx.capJobs := [((⟨3, 7, 4, 1, true, false, false, []⟩ : CapJob))] }
def st167 : State := { up with ppx.capJobs := [((⟨3, 7, 4, 1, true, false, true, []⟩ : CapJob))] }
def st169 : State := { up with ppx.tags := (List.replicate 16 0).set 15 99 }
def st170 : State := { setF pan [(F.SCN_MODE_family, 1), (F.PPX_BL_CFG_en, 1), (F.PSQ_STATUS_state, psON)] with psq.bOn := some 0, ppx.blFree := 0, ppx.blDone := [], exs.carried := [{ pass0 1000 with rows := List.replicate 64 ⟨true, 1000, 0, 0, 5000, [(2000, 4000)]⟩ }] }
def st172 : State := { setF pan [(F.SCN_MODE_family, 1), (F.PPX_BL_CFG_en, 1), (F.PSQ_STATUS_state, psON)] with psq.bOn := some 0, ppx.blFree := 0, ppx.blDone := [(1000, 0, true)], exs.carried := [{ pass0 1000 with rows := List.replicate 64 ⟨true, 1000, 0, 0, 5000, [(2000, 4000)]⟩ }] }
def st174 : State := { setF pan [(F.AGE_STRESS_LO_addr, 0x100)] with scn.runs := [(({ run0 with accDue := true, yTake := 64, prog := (List.replicate 64 false) } : Run))] }
def st177 : State := setF pan [(F.AGE_CFG_drz_en, 1), (F.PSQ_STATUS_state, psON), (F.AGE_DRZ_STAT_tokens, 3), (F.AGE_DRZ_CFG_max_rows, 4), (F.AGE_DRZ_CFG_gap_ms, 3)]
def st180 : State := { pan with exs.bank := some { bank0 0 with slots := [((⟨5000, 6000, 9, false, false⟩ : SenseSlot))] } }
def st182 : State := { setF pan [(F.DRV_GROUPS_en, 1), (F.DRV_CFG_n_ch, 192)] with drv.grps := [(0, { Grp.off with step := 6 })], exs.bank := some { bank0 0 with slots := [((⟨5000, 6000, 9, true, false⟩ : SenseSlot))] }, age.rows := [(({ row := 9, tag := 3, slotEnd := 6000, deadline := 30000, got := [], asked := false } : SenseRow))] }
def st184 : State := { setF pan [(F.DRV_GROUPS_en, 1), (F.DRV_CFG_n_ch, 192), (F.AGE_DRZ_STAT_cursor, 9)] with tick := 30000, age.rows := [(({ row := 9, tag := 3, slotEnd := 6000, deadline := 30000, got := [(0, [])], asked := false } : SenseRow))] }
def st185 : State := { setF pan [(F.DRV_GROUPS_en, 1), (F.DRV_CFG_n_ch, 192), (F.AGE_DRZ_STAT_cursor, 8)] with tick := 0, age.rows := [(({ row := 9, tag := 3, slotEnd := 6000, deadline := 30000, got := [(0, [])], asked := false } : SenseRow))] }
def st186 : State := { setF pan [(F.DRV_GROUPS_en, 1), (F.DRV_CFG_n_ch, 192)] with tick := 30001, age.rows := [(({ row := 9, tag := 3, slotEnd := 6000, deadline := 30000, got := [(0, [])], asked := false } : SenseRow))] }
def st187 : State := { setF pan [(F.AGE_DRZ_STAT_cursor, 9), (F.AGE_DRZ_CFG_retry, 1)] with age.rows := [(({ row := 9, tag := 3, slotEnd := 6000, deadline := 30000, got := [], asked := false } : SenseRow))] }
def st188 : State := { setF pan [(F.AGE_DRZ_STAT_cursor, 9), (F.AGE_DRZ_CFG_retry, 2)] with age.rows := [(({ row := 9, tag := 3, slotEnd := 6000, deadline := 30000, got := [], asked := false } : SenseRow))] }
def st191 : State := { setF pan [(F.AGE_CKPT_SLOT0_base, 1), (F.AGE_CKPT_SLOT0_len, 2), (F.AGE_CKPT_SLOT1_base, 3), (F.AGE_CKPT_SLOT1_len, 2), (F.AGE_CKPT_CFG_interval, 10), (F.AGE_CKPT_CFG_retry, 5)] with age.newest := none, age.emitAt := some 77, age.retryAt := some 500, flash := ssetList 0xFF#8 [] 65530 (List.replicate 12 7#8) }
def st200 : State := { pan with age.ckpt := some (({ slot := 0, seq := 5, kind := 0, pic := 9, hours := 3, plane := 2, next := 0, off := 0, used := 64, count := 0, dir := [], full := 0, bad := false } : Ckpt)) }
def st201 : State := { pan with age.ckpt := some (({ slot := 0, seq := 5, kind := 0, pic := 9, hours := 3, plane := 2, next := 0, off := 0, used := 64, count := 0, dir := [], full := 0, bad := false } : Ckpt)), age.held := some 2 }
def st202 : State := { setF pan [(F.AGE_CKPT_SLOT0_base, 1), (F.AGE_CKPT_SLOT0_len, 2), (F.AGE_CKPT_SLOT1_base, 3), (F.AGE_CKPT_SLOT1_len, 2), (F.AGE_CKPT_CFG_interval, 10), (F.AGE_CKPT_CFG_retry, 5)] with age.ckpt := some (({ slot := 0, seq := 5, kind := 0, pic := 9, hours := 3, plane := 2, next := 0, off := 0, used := 64, count := 0, dir := [], full := 0, bad := false } : Ckpt)), age.held := none, age.emitAt := some 77 }
def st206 : State := { setF pan [(F.AGE_CKPT_SLOT0_base, 1), (F.AGE_CKPT_SLOT0_len, 2), (F.AGE_CKPT_SLOT1_base, 3), (F.AGE_CKPT_SLOT1_len, 2), (F.AGE_CKPT_CFG_interval, 10), (F.AGE_CKPT_CFG_retry, 5)] with age.ckpt := some (({ slot := 0, seq := 5, kind := 0, pic := 9, hours := 3, plane := 6, next := 0, off := 0, used := 64, count := 0, dir := [], full := 0, bad := false } : Ckpt)) }
def st207 : State := { setF pan [(F.AGE_CKPT_SLOT0_base, 1), (F.AGE_CKPT_SLOT0_len, 2), (F.AGE_CKPT_SLOT1_base, 3), (F.AGE_CKPT_SLOT1_len, 2), (F.AGE_CKPT_CFG_interval, 10), (F.AGE_CKPT_CFG_retry, 5)] with age.ckpt := some (({ slot := 0, seq := 5, kind := 0, pic := 9, hours := 3, plane := 3, next := 0, off := 0, used := 64, count := 0, dir := [], full := 0, bad := false } : Ckpt)), age.retryAt := some 4000 }
def st209 : State := { setF pan [(F.AGE_CKPT_SLOT0_base, 1), (F.AGE_CKPT_SLOT0_len, 2), (F.AGE_CKPT_SLOT1_base, 3), (F.AGE_CKPT_SLOT1_len, 2), (F.AGE_CKPT_CFG_interval, 10), (F.AGE_CKPT_CFG_retry, 5)] with age.ckpt := some (({ slot := 0, seq := 5, kind := 2, pic := 9, hours := 3, plane := 3, next := 0, off := 0, used := 64, count := 0, dir := [], full := 0, bad := false } : Ckpt)), age.shutBy := some 900 }
def st211 : State := setF pan [(F.AGE_CFG_rb_en, 1)]
def st212 : State := { setF pan [(F.AGE_CFG_rb_en, 1), (F.AGE_REBUILD_per_pic, 4), (F.PSQ_STATUS_state, psON), (F.AGE_CMP_SURF_surf0, 8), (F.AGE_CMP_SURF_surf1, 9)] with age.rbBlock := 3, age.rbUsed := 3 }
def st213 : State := { incCounter up 1 with age.emitAt := some 50, age.emitAcc := 8 }
def st214 : State := { up with age.emitAt := some 50 }
def st216 : State := { incCounter up 0 with age.onAt := some 50, age.onAcc := 8 }
def st217 : State := { up with age.onAt := some 50 }
def st219 : State := { setF pan [(F.DRV_GROUPS_en, 3), (F.DRV_CFG_n_ch, 96), (F.DRV_CFG_rate, 2), (F.DRV_CFG_d12, 1)] with drv.grps := [(0, { Grp.off with step := 6 }), (1, { Grp.off with step := 6 })], tick := 5000, drv.seq := 255, scn.runs := [(({ run0 with lines := [(3, none), (4, none)], ySlot := 3, cfg := (setF pan [(F.DRV_GROUPS_en, 3), (F.DRV_CFG_n_ch, 96), (F.DRV_CFG_rate, 2), (F.DRV_CFG_d12, 1)]).reg } : Run))] }
def st221 : State := { setF pan [(F.DRV_GROUPS_en, 3), (F.DRV_CFG_n_ch, 96), (F.DRV_CFG_rate, 2), (F.DRV_CFG_d12, 1)] with drv.grps := [(0, { Grp.off with step := 6 }), (1, { Grp.off with step := 6 })], tick := 500000, drv.seq := 7 }
def st223 : State := { setF pan [(F.DRV_GROUPS_en, 3), (F.DRV_CFG_n_ch, 96), (F.DRV_CFG_rate, 2), (F.DRV_CFG_d12, 1)] with drv.grps := [(0, { Grp.off with step := 6 }), (1, { Grp.off with step := 6 })], scn.runs := [{ run0 with lines := [(0, none)], start := 500000, due := [] }], tick := rowTick 500000 3276800000 0 - 2 * run0.q0 + lOut - 1 }
def st224 : State := { setF pan [(F.DRV_GROUPS_en, 3), (F.DRV_CFG_n_ch, 96), (F.DRV_CFG_rate, 2), (F.DRV_CFG_d12, 1), (F.PSQ_STATUS_state, 3), (F.DRV_TAKEOVER_tx_thr, 3), (F.DRV_GRP_STAT_spare_ok 0, 1), (F.DRV_GRP_STAT_up 0, 1)] with drv.grps := [(0, { Grp.off with step := 6, det := [0, 3, 0, 3] })], tick := 60000, drv.slotAt := some 400, drv.slotLen := 77 }
def st225 : State := { setF pan [(F.DRV_GROUPS_en, 3), (F.DRV_CFG_n_ch, 96), (F.DRV_CFG_rate, 2), (F.DRV_CFG_d12, 1), (F.PSQ_STATUS_state, 5), (F.DRV_TAKEOVER_tx_thr, 3), (F.DRV_GRP_STAT_spare_ok 0, 1), (F.DRV_GRP_STAT_up 0, 1)] with drv.grps := [(0, { Grp.off with step := 6, det := [0, 3, 0, 3] }), (1, { Grp.off with step := 6 })], tick := 60000, drv.slotAt := some 400, drv.slotLen := 77 }
def st227 : State := { setF pan [(F.DRV_GROUPS_en, 3), (F.DRV_CFG_n_ch, 96), (F.DRV_CFG_rate, 2), (F.DRV_CFG_d12, 1), (F.PSQ_STATUS_state, 3), (F.DRV_TAKEOVER_tx_thr, 3)] with drv.grps := [(0, { Grp.off with step := 6, det := [0, 3, 0, 2] })], tick := 60000, drv.slotAt := some 400, drv.slotLen := 77 }
def st229 : State := { setF pan [(F.DRV_GROUPS_en, 3), (F.DRV_CFG_n_ch, 96), (F.DRV_CFG_rate, 2), (F.DRV_CFG_d12, 1), (F.DRV_TAKEOVER_tx_thr, 3), (F.DRV_GRP_STAT_spare_ok 0, 1)] with drv.grps := [(0, { Grp.off with step := 6, det := [0, 0, 3, 2] }), (1, { Grp.off with step := 6, det := [2, 0, 0, 0] })], tick := 60000, drv.slotAt := some 400, drv.slotLen := 77 }
def st231 : State := { setF pan [(F.DRV_GROUPS_en, 3), (F.DRV_CFG_n_ch, 96), (F.DRV_CFG_rate, 2), (F.DRV_CFG_d12, 1), (F.DRV_TAKEOVER_tx_thr, 3), (F.DRV_GRP_STAT_spare_ok 1, 1)] with drv.grps := [(0, { Grp.off with step := 6 }), (1, { Grp.off with step := 6, det := [2, 0, 2, 0] })], tick := 60000, drv.slotAt := some 400, drv.slotLen := 77 }
def st232 : State := { setF pan [(F.DRV_GROUPS_en, 3), (F.DRV_CFG_n_ch, 96), (F.DRV_CFG_rate, 2), (F.DRV_CFG_d12, 1)] with drv.grps := [(0, { Grp.off with step := 6 }), (1, { Grp.off with step := 6 })] }
def st233 : State := { setF pan [(F.PSQ_STATUS_state, 4), (F.DRV_GT_CFG_func 3, 1), (F.DRV_GT_CFG_inv 3, 1), (F.DRV_T_GATE_off 0, 40), (F.DRV_T_GATE_on 0, 0xFFF6), (F.DRV_T_GATE_off 1, 40), (F.DRV_T_GATE_off 2, 40), (F.DRV_T_GATE_off 3, 40), (F.DRV_T_GATE_off 4, 40), (F.DRV_T_RA_setup, 5)] with exs.bank := some { bank0 0 with passes := [pass0 900], slots := [⟨2000, 2500, 1, false, false⟩] }, psq.onAt := some 10, drv.gt := 0, drv.gtAt := (List.replicate 32 0).set 3 0 }
def st239 : State := setF pan [(F.PSQ_STATUS_state, 5), (F.DRV_GT_CFG_func 3, 1)]
def st240 : State := { setF pan [(F.PSQ_STATUS_state, 4), (F.DRV_GT_CFG_func 3, 7), (F.DRV_GT_CFG_inv 3, 1), (F.DRV_T_GATE_off 0, 40), (F.DRV_T_GATE_on 0, 0xFFF6), (F.DRV_T_GATE_off 1, 40), (F.DRV_T_GATE_off 2, 40), (F.DRV_T_GATE_off 3, 40), (F.DRV_T_GATE_off 4, 40), (F.DRV_T_RA_setup, 5)] with exs.bank := some { bank0 0 with passes := [pass0 900], slots := [⟨2000, 2500, 1, false, false⟩] }, psq.onAt := some 10, drv.gt := 0 }
def st245 : State := { setF pan [(F.PSQ_STATUS_state, 5), (F.DRV_EM_CFG_func 15, 1), (F.DRV_EM_CFG_sel 15, 2), (F.DRV_EM_min_clk, 9), (F.DRV_EM_gw, 30)] with psq.bOn := some 100, drv.pulses := [⟨900, 0, true, some 2, [3000, 3100, 3200]⟩, ⟨900, 0, true, none, [7000]⟩], drv.em := 0, drv.emAt := (List.replicate 16 0).set 15 0 }
def st249 : State := { setF pan [(F.PSQ_STATUS_state, 6), (F.DRV_EM_CFG_func 15, 2), (F.DRV_EM_CFG_sel 15, 2), (F.DRV_EM_min_clk, 9), (F.DRV_EM_gw, 30)] with psq.bOn := some 100, drv.pulses := [⟨900, 0, true, some 2, [3000, 3100, 3200]⟩, ⟨900, 0, true, none, [7000]⟩], psq.bOff := some 3050, drv.em := 32768, drv.emAt := (List.replicate 16 0).set 15 3000 }
def st250 : State := { setF pan [(F.PSQ_STATUS_state, 5), (F.DRV_EM_CFG_func 15, 4), (F.DRV_EM_CFG_sel 15, 2), (F.DRV_EM_min_clk, 9), (F.DRV_EM_gw, 30)] with psq.bOn := some 100, drv.pulses := [⟨900, 0, true, some 2, [3000, 3100, 3200]⟩, ⟨900, 0, true, none, [7000]⟩], drv.em := 0 }
def st254 : State := setF pan [(F.PSQ_STATUS_state, 5), (F.DRV_EM_CFG_func 15, 1)]
def st255 : State := { setF pan [(F.DRV_GROUPS_en, 3), (F.DRV_CFG_n_ch, 96), (F.DRV_CFG_rate, 2), (F.DRV_CFG_d12, 1), (F.PSQ_STATUS_state, 3), (F.DRV_GRP_FAIL_failed, 2), (F.DRV_GRP_STAT_spare_active 0, 1)] with drv.grps := [(0, { Grp.off with step := 6 }), (1, { Grp.off with step := 6 })], tick := 77 }
def st257 : State := setF pan [(F.PSQ_STATUS_state, 7)]
def st259 : State := { setF pan [(F.DRV_GROUPS_en, 3), (F.DRV_CFG_n_ch, 96), (F.DRV_CFG_rate, 2), (F.DRV_CFG_d12, 1), (F.DRV_TRAIN_t_cdr, 20), (F.DRV_TRAIN_timeout, 2), (F.PSQ_STATUS_state, 3)] with drv.grps := [(0, { Grp.off with step := 1, at_ := 50, lock := 0, deskew := false }), (1, { Grp.off with step := 6 })], tick := 77 }
def st260 : State := { setF pan [(F.DRV_GROUPS_en, 3), (F.DRV_CFG_n_ch, 96), (F.DRV_CFG_rate, 2), (F.DRV_CFG_d12, 1), (F.DRV_TRAIN_t_cdr, 20), (F.DRV_TRAIN_timeout, 2), (F.PSQ_STATUS_state, 3), (F.PWR_DOM_ON_on, 0)] with drv.grps := [(0, { Grp.off with step := 1, at_ := 50, lock := 0, deskew := false }), (1, { Grp.off with step := 6 })], tick := 77 }
def st261 : State := { setF pan [(F.DRV_GROUPS_en, 3), (F.DRV_CFG_n_ch, 96), (F.DRV_CFG_rate, 2), (F.DRV_CFG_d12, 1), (F.DRV_TRAIN_t_cdr, 20), (F.DRV_TRAIN_timeout, 2), (F.PSQ_STATUS_state, 3)] with drv.grps := [(0, { Grp.off with step := 2, at_ := 50, lock := 0, deskew := false }), (1, { Grp.off with step := 6 })], tick := 77 }
def st262 : State := { setF pan [(F.DRV_GROUPS_en, 3), (F.DRV_CFG_n_ch, 96), (F.DRV_CFG_rate, 2), (F.DRV_CFG_d12, 1), (F.DRV_TRAIN_t_cdr, 20), (F.DRV_TRAIN_timeout, 2), (F.PSQ_STATUS_state, 3)] with drv.grps := [(0, { Grp.off with step := 3, at_ := 50, lock := 31, deskew := true }), (1, { Grp.off with step := 6 })], tick := 77 }
def st263 : State := { setF pan [(F.DRV_GROUPS_en, 3), (F.DRV_CFG_n_ch, 96), (F.DRV_CFG_rate, 2), (F.DRV_CFG_d12, 1), (F.DRV_TRAIN_t_cdr, 20), (F.DRV_TRAIN_timeout, 2), (F.PSQ_STATUS_state, 3)] with drv.grps := [(0, { Grp.off with step := 3, at_ := 50, lock := 23, deskew := true }), (1, { Grp.off with step := 6 })], tick := 77 }
def st264 : State := { setF pan [(F.DRV_GROUPS_en, 3), (F.DRV_CFG_n_ch, 96), (F.DRV_CFG_rate, 2), (F.DRV_CFG_d12, 1), (F.DRV_TRAIN_t_cdr, 20), (F.DRV_TRAIN_timeout, 2), (F.PSQ_STATUS_state, 3)] with drv.grps := [(0, { Grp.off with step := 3, at_ := 50, lock := 31, deskew := false }), (1, { Grp.off with step := 6 })], tick := 77 }
def st265 : State := { setF pan [(F.DRV_GROUPS_en, 3), (F.DRV_CFG_n_ch, 96), (F.DRV_CFG_rate, 2), (F.DRV_CFG_d12, 1), (F.DRV_TRAIN_t_cdr, 20), (F.DRV_TRAIN_timeout, 2), (F.PSQ_STATUS_state, 3)] with drv.grps := [(0, { Grp.off with step := 3, at_ := 50, lock := 28, deskew := true }), (1, { Grp.off with step := 6 })], tick := 77 }
def st266 : State := { setF pan [(F.DRV_GROUPS_en, 3), (F.DRV_CFG_n_ch, 96), (F.DRV_CFG_rate, 2), (F.DRV_CFG_d12, 1), (F.DRV_TRAIN_t_cdr, 20), (F.DRV_TRAIN_timeout, 2), (F.PSQ_STATUS_state, 3)] with drv.grps := [(0, { Grp.off with step := 3, at_ := 50, lock := 14, deskew := true }), (1, { Grp.off with step := 6 })], tick := 77 }
def st267 : State := { setF pan [(F.DRV_GROUPS_en, 3), (F.DRV_CFG_n_ch, 96), (F.DRV_CFG_rate, 2), (F.DRV_CFG_d12, 1), (F.DRV_TRAIN_t_cdr, 20), (F.DRV_TRAIN_timeout, 2), (F.PSQ_STATUS_state, 0)] with drv.grps := [(0, { Grp.off with step := 5, at_ := 50, lock := 0, deskew := true }), (1, { Grp.off with step := 6 })], tick := 77 }
def st268 : State := { setF pan [(F.DRV_GROUPS_en, 3), (F.DRV_CFG_n_ch, 96), (F.DRV_CFG_rate, 2), (F.DRV_CFG_d12, 1), (F.DRV_TRAIN_t_cdr, 20), (F.DRV_TRAIN_timeout, 2), (F.PSQ_STATUS_state, 3)] with drv.grps := [(0, { Grp.off with step := 5, at_ := 50, lock := 0, deskew := true }), (1, { Grp.off with step := 6 })], tick := 77 }
def st270 : State := { setF pan [(F.DRV_GROUPS_en, 3), (F.DRV_CFG_n_ch, 96), (F.DRV_CFG_rate, 2), (F.DRV_CFG_d12, 1), (F.DRV_GRP_STAT_spare_active 0, 1), (F.DRV_GRP_STAT_spare_lane 0, 2)] with drv.grps := [(0, { Grp.off with step := 6 }), (1, { Grp.off with step := 6 })] }
def st271 : State := { setF pan [(F.DRV_GROUPS_en, 3), (F.DRV_CFG_n_ch, 96), (F.DRV_CFG_rate, 2), (F.DRV_CFG_d12, 1), (F.DRV_GRP_STAT_spare_active 0, 1), (F.DRV_GRP_STAT_spare_lane 0, 2), (F.DRV_GRP_STAT_tx_err 0, 255)] with drv.grps := [(0, { Grp.off with step := 6 }), (1, { Grp.off with step := 6 })] }
def st274 : State := { setF pan [(F.DRV_GROUPS_en, 3), (F.DRV_CFG_n_ch, 96), (F.DRV_CFG_rate, 2), (F.DRV_CFG_d12, 1)] with drv.grps := [(0, { Grp.off with step := 6 }), (1, { Grp.off with step := 6 })], tick := 60000, drv.slotAt := some 400, drv.slotLen := 77 }
def st275 : State := { setF pan [(F.DRV_GROUPS_en, 3), (F.DRV_CFG_n_ch, 96), (F.DRV_CFG_rate, 2), (F.DRV_CFG_d12, 1)] with drv.grps := [(9, { Grp.off with step := 6 })], tick := 60000, drv.slotAt := some 400, drv.slotLen := 77 }
def st277 : State := { setF pan [(F.DRV_GROUPS_en, 3), (F.DRV_CFG_n_ch, 96), (F.DRV_CFG_rate, 2), (F.DRV_CFG_d12, 1), (F.PSQ_STATUS_state, 3), (F.DRV_GRP_STAT_spare_active 0, 1), (F.DRV_GRP_STAT_spare_lane 0, 2)] with drv.grps := [(0, { Grp.off with step := 6 }), (1, { Grp.off with step := 6 })] }
def st278 : State := { setF pan [(F.DRV_GROUPS_en, 3), (F.DRV_CFG_n_ch, 96), (F.DRV_CFG_rate, 2), (F.DRV_CFG_d12, 1), (F.DRV_BACK_retries, 2)] with drv.grps := [(0, { Grp.off with step := 6 }), (1, { Grp.off with step := 6 })], drv.reqs := [((⟨2, 1, 9, 0, 0, 0, 0, 4000⟩ : BackReq))] }
def st280 : State := { setF pan [(F.DRV_GROUPS_en, 3), (F.DRV_CFG_n_ch, 96), (F.DRV_CFG_rate, 2), (F.DRV_CFG_d12, 1), (F.DRV_DCFG_BASE_offset, 0x2000), (F.DRV_DCFG_LEN_words, 4)] with drv.grps := [(0, { Grp.off with step := 6 }), (1, { Grp.off with step := 6 })], lst := ssetList 0#8 [] 0x2000 (leBytes 3 4 ++ leBytes 0x0102 4 ++ leBytes 0xAABBCCDD 4 ++ leBytes 5 4) }
def st282 : State := { setF pan [(F.DRV_GROUPS_en, 3), (F.DRV_CFG_n_ch, 96), (F.DRV_CFG_rate, 2), (F.DRV_CFG_d12, 1), (F.DRV_STATUS_cfg_busy, 1)] with drv.grps := [(0, { Grp.off with step := 6 }), (1, { Grp.off with step := 6 })], drv.queue := [⟨4, 1, 4, 0, [], none, none⟩] }
def st284 : State := { setF pan [(F.DRV_GROUPS_en, 3), (F.DRV_CFG_n_ch, 96), (F.DRV_CFG_rate, 2), (F.DRV_CFG_d12, 1), (F.DRV_GRP_STAT_up 0, 1), (F.DRV_GRP_STAT_up 1, 1), (F.PSQ_MON_EN_en, 0x81), (F.PSQ_MON_CFG_period_ms, 5), (F.PSQ_STATUS_state, 4)] with drv.grps := [(0, { Grp.off with step := 6 }), (1, { Grp.off with step := 6 })], psq.monAt := 9 }
def st285 : State := setF pan [(F.PSQ_MON_EN_en, 0)]
def st288 : State := { setF pan [(F.DRV_GROUPS_en, 3), (F.DRV_CFG_n_ch, 96), (F.DRV_CFG_rate, 2), (F.DRV_CFG_d12, 1), (F.PSQ_MON_EN_en, 0x21), (F.PSQ_MON_expect 0, 500), (F.PSQ_MON_tol 0, 10), (F.PSQ_MON_expect 5, 600), (F.PSQ_MON_tol 5, 0), (F.PSQ_MON_CFG_n, 1), (F.PSQ_MON_CFG_miss_n, 1)] with drv.grps := [(0, { Grp.off with step := 6 }), (1, { Grp.off with step := 6 })], drv.reqs := [((⟨0, 1, 9, 33, 0, 0, 0, 4000⟩ : BackReq))], psq.missRun := [(1, 3)] }
def st289 : State := { setF pan [(F.DRV_GROUPS_en, 3), (F.DRV_CFG_n_ch, 96), (F.DRV_CFG_rate, 2), (F.DRV_CFG_d12, 1)] with drv.grps := [(1, { Grp.off with step := 3 })], drv.reqs := [((⟨2, 1, 9, 0, 0, 0, 0, 4000⟩ : BackReq))] }
def st292 : State := { setF pan [(F.DRV_GROUPS_en, 3), (F.DRV_CFG_n_ch, 96), (F.DRV_CFG_rate, 2), (F.DRV_CFG_d12, 1), (F.DRV_GRP_STAT_up 1, 1), (F.DRV_BACK_retries, 2), (F.DRV_CNT_BCERR_frames, 4294967295)] with drv.grps := [(0, { Grp.off with step := 6 }), (1, { Grp.off with step := 6 })], drv.reqs := [((⟨2, 1, 9, 0, 0, 0, 0, 4000⟩ : BackReq))] }
def st299 : State := { setF pan [(F.PSQ_STATUS_state, 0), (F.PSQ_FAULT_cause, 3)] with tick := 777 }
def st301 : State := { setF pan [(F.PSQ_STATUS_state, 6)] with tick := 777, psq.offReq := false }
def st304 : State := { setF pan [(F.PSQ_STATUS_state, 1)] with tick := 777 }
def st306 : State := { setF pan [(F.PSQ_STATUS_state, 0)] with tick := 777, psq.req := true }
def st308 : State := { setF pan [(F.PSQ_STATUS_state, 7)] with tick := 777, psq.safe := some 9 }
def st309 : State := { setF pan [(F.PSQ_STATUS_state, 6), (F.PSQ_STATUS_re_pend, 1)] with tick := 777, psq.offReq := false, psq.ckptReq := true }
def st315 : State := { setF pan [(F.PSQ_STATUS_state, 5)] with tick := 777, psq.bOn := some 777, scn.runs := [{ run0 with start := 777 }] }
def st319 : State := { setF pan [(F.PSQ_STATUS_state, 4)] with tick := 777 }
def st326 : State := { setF pan [(F.PSQ_STATUS_state, 2), (F.PSQ_STATUS_re_pend, 1)] with tick := 777, psq.offReq := true }
def st327 : State := { setF pan [(F.PSQ_STATUS_state, 7), (F.PSQ_STATUS_re_pend, 1), (F.AGE_CKPT_CFG_shut_max, 3)] with tick := 777 }
def st334 : State := { setF pan [(F.PSQ_STATUS_state, 1), (F.PSQ_STATUS_re_pend, 1)] with tick := 777, psq.req := true }
def st338 : State := { setF pan [(F.PSQ_STATUS_state, 0), (F.PSQ_UP_en 2, 1), (F.PSQ_UP_rail 2, 6), (F.PSQ_UP_settle 2, 3), (F.PSQ_UP_timeout 2, 4), (F.PSQ_UP_en 5, 1), (F.PSQ_UP_rail 5, 1), (F.PSQ_CFG_pre_chk, 1), (F.PSQ_CRK_EN_en, 0x8001)] with tick := 777, psq.req := true }
def st339 : State := { setF pan [(F.PSQ_STATUS_state, 8), (F.PSQ_UP_en 2, 1), (F.PSQ_UP_rail 2, 6), (F.PSQ_UP_settle 2, 3), (F.PSQ_UP_timeout 2, 4), (F.PSQ_UP_en 5, 1), (F.PSQ_UP_rail 5, 1), (F.PSQ_UP_pmb_en 2, 1)] with tick := 777, psq.req := true }
def st341 : State := { setF pan [(F.PSQ_STATUS_state, 0), (F.PSQ_CFG_pre_chk, 1)] with tick := 777, psq.req := true }
def st342 : State := { setF pan [(F.PSQ_STATUS_state, 0)] with tick := 777 }
def st347 : State := { setF pan [(F.PSQ_STATUS_state, 2), (F.PSQ_UP_en 2, 1), (F.PSQ_UP_rail 2, 6), (F.PSQ_UP_settle 2, 3), (F.PSQ_UP_timeout 2, 4), (F.PSQ_UP_en 5, 1), (F.PSQ_UP_rail 5, 1), (F.PSQ_STATUS_pg, 0), (F.PSQ_UP_pg_chk 2, 1)] with tick := 777, psq.k := 2, psq.phase := .settle 100, psq.begun := 4 }
def st348 : State := { setF pan [(F.PSQ_STATUS_state, 2), (F.PSQ_UP_en 2, 1), (F.PSQ_UP_rail 2, 6), (F.PSQ_UP_settle 2, 3), (F.PSQ_UP_timeout 2, 4), (F.PSQ_UP_en 5, 1), (F.PSQ_UP_rail 5, 1), (F.PSQ_STATUS_pg, 0)] with tick := 777, psq.k := 2, psq.phase := .settle 100, psq.begun := 4, psq.offReq := true }
def st349 : State := { setF pan [(F.PSQ_STATUS_state, 2), (F.PSQ_UP_en 2, 1), (F.PSQ_UP_rail 2, 6), (F.PSQ_UP_settle 2, 3), (F.PSQ_UP_timeout 2, 4), (F.PSQ_UP_en 5, 1), (F.PSQ_UP_rail 5, 1), (F.PSQ_STATUS_pg, 64), (F.PSQ_UP_pg_chk 2, 1)] with tick := 777, psq.k := 2, psq.phase := .settle 100, psq.begun := 4 }
def st351 : State := { setF pan [(F.PSQ_STATUS_state, 2), (F.PSQ_UP_en 2, 1), (F.PSQ_UP_rail 2, 6), (F.PSQ_UP_settle 2, 3), (F.PSQ_UP_timeout 2, 4), (F.PSQ_UP_en 5, 1), (F.PSQ_UP_rail 5, 1), (F.PSQ_STATUS_pg, 0)] with tick := 777, psq.k := 5, psq.phase := .settle 100, psq.begun := 4 }
def st353 : State := { setF pan [(F.PSQ_STATUS_state, 2), (F.PSQ_UP_en 2, 1), (F.PSQ_UP_rail 2, 6), (F.PSQ_UP_settle 2, 3), (F.PSQ_UP_timeout 2, 4), (F.PSQ_UP_en 5, 1), (F.PSQ_UP_rail 5, 1), (F.PSQ_STATUS_pg, 0), (F.PSQ_UP_pg_chk 2, 1)] with tick := 777, psq.k := 2, psq.phase := .pgWait, psq.begun := 4, psq.enAt := 700 }
def st354 : State := { { setF pan [(F.PSQ_STATUS_state, 2), (F.PSQ_UP_en 2, 1), (F.PSQ_UP_rail 2, 6), (F.PSQ_UP_settle 2, 3), (F.PSQ_UP_timeout 2, 4), (F.PSQ_UP_en 5, 1), (F.PSQ_UP_rail 5, 1), (F.PSQ_STATUS_pg, 0), (F.PSQ_UP_pg_chk 2, 1)] with tick := 777, psq.k := 2, psq.phase := .pgWait, psq.begun := 4, psq.enAt := 700 } with tick := 900 + 4 * Config.tickMs }
def st355 : State := { setF pan [(F.PSQ_STATUS_state, 2), (F.PSQ_UP_en 2, 1), (F.PSQ_UP_rail 2, 6), (F.PSQ_UP_settle 2, 3), (F.PSQ_UP_timeout 2, 4), (F.PSQ_UP_en 5, 1), (F.PSQ_UP_rail 5, 1), (F.PSQ_STATUS_pg, 255), (F.PSQ_CFG_pg_react, 0)] with tick := 777, psq.watched := 4, psq.begun := 4 }
def st360 : State := { setF pan [(F.PSQ_STATUS_state, 5), (F.PSQ_UP_en 2, 1), (F.PSQ_UP_rail 2, 6), (F.PSQ_UP_settle 2, 3), (F.PSQ_UP_timeout 2, 4), (F.PSQ_UP_en 5, 1), (F.PSQ_UP_rail 5, 1), (F.PSQ_STATUS_pg, 255)] with tick := 777, psq.watched := 4 }
def st366 : State := { setF pan [(F.PSQ_STATUS_state, 2), (F.PSQ_UP_en 2, 1), (F.PSQ_UP_rail 2, 6), (F.PSQ_UP_settle 2, 3), (F.PSQ_UP_timeout 2, 4), (F.PSQ_UP_en 5, 1), (F.PSQ_UP_rail 5, 1), (F.PSQ_STATUS_pg, 0), (F.PSQ_CNT_PG_pmb_fail, 9)] with tick := 777, psq.k := 2, psq.phase := .pmbus, psq.begun := 4 }
def st367 : State := { setF pan [(F.PSQ_STATUS_state, 7), (F.PSQ_UP_en 2, 1), (F.PSQ_UP_rail 2, 6), (F.PSQ_UP_settle 2, 3), (F.PSQ_UP_timeout 2, 4), (F.PSQ_UP_en 5, 1), (F.PSQ_UP_rail 5, 1), (F.PSQ_STATUS_rail_en, 255)] with tick := 777, psq.k := 2, psq.phase := .pmbus }
def st369 : State := { setF pan [(F.PSQ_STATUS_state, 7), (F.PSQ_UP_en 2, 1), (F.PSQ_UP_rail 2, 6), (F.PSQ_UP_settle 2, 3), (F.PSQ_UP_timeout 2, 4), (F.PSQ_UP_en 5, 1), (F.PSQ_UP_rail 5, 1), (F.PSQ_DN_dis 5, 20), (F.PSQ_STATUS_rail_en, 255), (F.PSQ_DN_pmb_en 2, 1)] with tick := 777, psq.k := 5, psq.phase := .discharge 90, psq.begun := 6 }
def st371 : State := { setF pan [(F.PSQ_STATUS_state, 7)] with tick := 777, psq.phase := .discharge 90, psq.safe := some 80 }
def st372 : State := { setF pan [(F.PSQ_STATUS_state, 7), (F.PSQ_STATUS_re_pend, 0)] with tick := 777, psq.phase := .discharge 90 }
def st377 : State := { setF pan [(F.PSQ_STATUS_state, 4), (F.PSQ_CRK_EN_en, 0x8005), (F.PSQ_CRK_CFG_n, 2), (F.PSQ_CRK_CFG_settle, 50)] with tick := 777, psq.crk := some ⟨700, 0, 4⟩ }
def st380 : State := { setF pan [(F.PSQ_STATUS_state, 5), (F.PSQ_CRK_EN_en, 0x8005), (F.PSQ_CRK_CFG_n, 2), (F.PSQ_CRK_CFG_settle, 50), (F.PSQ_CRK_STAT_fail, 2), (F.PSQ_CRK_STAT_broken, 2), (F.PSQ_CNT_CRK_tests, 4294967294)] with tick := 777, psq.crk := some ⟨700, 3, 32772⟩, psq.crkRun := [(0, 5), (2, 1), (15, 2)] }
def st381 : State := { setF pan [(F.PSQ_STATUS_state, 1), (F.PSQ_CRK_EN_en, 0x8005), (F.PSQ_CRK_CFG_n, 2), (F.PSQ_CRK_CFG_settle, 50)] with tick := 777, psq.crk := some ⟨700, 3, 4⟩ }
def st382 : State := { setF pan [(F.PSQ_STATUS_state, 1), (F.PSQ_CRK_EN_en, 0x8005), (F.PSQ_CRK_CFG_n, 2), (F.PSQ_CRK_CFG_settle, 50), (F.PSQ_CRK_EN_react, 4)] with tick := 777, psq.crk := some ⟨700, 3, 4⟩, psq.pre := 1, psq.preRun := [(2, 1)] }
def st383 : State := { setF pan [(F.PSQ_STATUS_state, 1), (F.PSQ_CRK_EN_en, 0x8005), (F.PSQ_CRK_CFG_n, 2), (F.PSQ_CRK_CFG_settle, 50)] with tick := 777, psq.crk := some ⟨700, 3, 4⟩, psq.pre := 1, psq.preRun := [(2, 1)] }
def st385 : State := { wall 0 0 1 1 [] with tick := 5000000 }
def st386 : State := { wall 0 0 1 2 [] with tick := 5000000 }
def st387 : State := { wall 0 0 1 2 [(F.ORL_PORT_STAT_downs 1, 255)] with tick := 5000000, orl.ports := [(0, { OrlPort.reset with queue := [ownFrame up 0 false 0 []], sending := some [] }), (1, { OrlPort.reset with queue := [ownFrame up 0 false 0 []], sending := some [] })] }
def st389 : State := { wall 0 0 1 4 [(F.ORL_STATUS_dual, 1)] with tick := 5000000 }
def st390 : State := { wall 1 2 1 4 [] with tick := 5000000, orl.ports := [(1, { OrlPort.reset with downAt := 4000000 })] }
def st392 : State := { wall 1 2 1 3 [] with tick := 5000000 }
def st393 : State := { wall 1 2 1 1 [] with tick := 5000000 }
def st396 : State := { wall 1 2 1 0 [] with tick := 5000000 }
def st397 : State := { wall 1 2 1 2 [] with tick := 5000000 }
def st399 : State := { wall 1 2 1 4 [] with tick := 5000000 }
def st400 : State := { wall 0 0 1 3 [] with tick := 5000000 }
def st406 : State := { wall 0 0 1 3 [(F.ORL_STATUS_brk, 0)] with tick := 5000000 }
def st435 : State := { wall 1 2 1 3 [] with tick := 5000000, orl.ports := [(1, { OrlPort.reset with t1 := some 4096, dlyAt := 4999000, delays := List.replicate 3 9 })] }
def st436 : State := { wall 1 2 1 3 [(F.ORL_PORT_ASYM_asym 1, 0xFFFF)] with tick := 5000000, orl.ports := [(1, { OrlPort.reset with t1 := some 4096, dlyAt := 4999000, delays := List.replicate 3 9 })] }
def st443 : State := { wall 1 1 1 3 [] with tick := 5000000, orl.ports := [(1, { OrlPort.reset with t1 := some 4096, dlyAt := 4999000, delays := List.replicate 16 9 })] }
def st446 : State := { wall 1 1 1 3 [] with tick := 5000000, orl.ports := [(1, { OrlPort.reset with t1 := some 4096, dlyAt := 4999000, delays := List.replicate 15 9 })] }
def st448 : State := { wall 1 3 1 3 [(F.ORL_PORT_STAT_state 0, 1)] with tick := 5000000, orl.ports := [(1, { OrlPort.reset with t1 := some 4096, dlyAt := 4999000, delays := List.replicate 16 9 })] }
def st467 : State := { wall 0 0 1 3 [] with tick := 5000000, orl.bcnAt := none, tmb.bound := 4100000, tmb.pic := some 12 }
def st471 : State := { wall 1 1 1 3 [] with tick := 5000000 }
def st472 : State := { wall 1 1 1 3 [(F.ORL_STATUS_tsrc, 1), (F.ORL_PORT_STAT_state 0, 3)] with tick := 20000000, orl.ports := [(0, { OrlPort.reset with lastBcn := none }), (1, { OrlPort.reset with lastBcn := some 19999999 })] }
def st472m : State := (match (oport st472 0).lastBcn with | some b => if portUp st472 0 then reach st472 (b + 2 * picPeriod st472 / max (rd st472 F.TMB_REF_RATIO_ref_div) 1) else st472 | none => st472)
def st476 : State := { wall 1 1 1 3 [(F.ORL_STATUS_tsrc, 1), (F.ORL_PORT_STAT_state 0, 3)] with tick := 20000000, orl.ports := [(0, { OrlPort.reset with lastBcn := some 19999999 }), (1, { OrlPort.reset with lastBcn := none })] }
def st476m : State := (match (oport st476 0).lastBcn with | some b => if portUp st476 0 then reach st476 (b + 2 * picPeriod st476 / max (rd st476 F.TMB_REF_RATIO_ref_div) 1) else st476 | none => st476)
def st479 : State := { wall 0 0 1 3 [(F.ORL_CTL_CMD_dst, 0)] with tick := 5000000 }
def st482 : State := { wall 0 0 1 3 [(F.ORL_CTL_CMD_dst, 3), (F.ORL_CTL_ADDR_addr, 0xFFFFFF), (F.ORL_CTL_CFG_retries, 2), (F.ORL_CTL_DATA_data, 0xABCD)] with tick := 5000000, orl.seq := 4294967295, tmb.next := some 6000000, tmb.picNext := 13 }
def st500 : State := { wall 0 0 1 3 [(F.ORL_CTL_CMD_bcast, 1), (F.ORL_CTL_CMD_self, 1), (F.ORL_CTL_PIC_LO_pic, 13), (F.EXS_BUILD_lead, 40), (F.ORL_CTL_CFG_retries, 2), (F.ORL_CTL_DATA_data, 0xABCD)] with tick := 5000000, orl.seq := 4294967295, tmb.next := some 6000000, tmb.picNext := 13 }
def st501 : State := { wall 0 0 1 3 [] with tick := 5000000, orl.ctl := some ((⟨1, true, 0, true, 8, 9, 10, [2], [], false, false, 5, 0, 4000000⟩ : CtlReq)) }
def st506 : State := { wall 0 0 1 3 [(F.ORL_CTL_CFG_timeout_us, 70)] with tick := 5000000, orl.ctl := some ((⟨0, true, 0, true, 8, 9, 10, [1, 2], [], false, false, 5, 2, 4000000⟩ : CtlReq)) }
def st511 : State := { wall 1 1 1 3 [(F.EXS_BUILD_lead, 40)] with tick := 5000000, tmb.next := some 6000000, tmb.picNext := 13 }
def st519 : State := { wall 1 1 1 3 [] with tick := 5000000, orl.seen := [(0, 31, none)] }
def st521 : State := { wall 1 1 1 3 [(F.EXS_BUILD_lead, 40)] with tick := 5000000, tmb.next := some 6000000, tmb.picNext := 13, orl.commits := [20, 13] }
def st523 : State := { wall 0 0 1 3 [] with tick := 5000000, orl.workers := [((⟨2, 4294967295, [], []⟩ : WorkerRx))] }
def st524 : State := { wall 0 0 1 3 [] with tick := 5000000, orl.workers := [((⟨2, 40, [], []⟩ : WorkerRx))] }
def st526 : State := { wall 0 0 1 3 [] with tick := 5000000, orl.workers := [((⟨2, 41, [], []⟩ : WorkerRx))] }
def st528 : State := { wall 0 0 1 3 [] with tick := 5000000, orl.workers := [((⟨2, 40, [41], [(41, 4000000, (recBytes ⟨77, 0x801, 2, false, false, false, List.replicate 12 0#8, 0, none⟩ 9 3 false false false 2 ++ List.replicate 32 0#8))]⟩ : WorkerRx))] }
def st531 : State := { wall 0 0 1 3 [] with tick := 5000000, orl.seen := [(2, 41, none)] }
def st532 : State := { wall 0 0 1 3 [(F.ORL_EVT_CFG_hold_us, 700), (F.ORL_CNT_EVT_lost, 65530)] with tick := 5000000, orl.workers := [((⟨2, 4294967290, [3], [(3, 4000000, (recBytes ⟨77, 0x801, 2, false, false, false, List.replicate 12 0#8, 0, none⟩ 9 3 false false false 2 ++ List.replicate 32 0#8))]⟩ : WorkerRx))] }
def st535 : State := { wall 0 0 1 3 [(F.ORL_DIST_CFG_retry_us, 90), (F.ORL_TX_STAT_running, 1)] with tick := 5000000, orl.dists := [((⟨66, none, 2, 0, List.replicate 44 0#8, [(0, 0x100000), (257, 0x101000)], [0], false, some 0, none, false⟩ : Dist))] }
def st536 : State := { wall 0 0 1 3 [(F.ORL_DIST_CFG_retry_us, 90), (F.ORL_TX_STAT_running, 1)] with tick := 5000000, orl.dists := [((⟨66, none, 2, 0, List.replicate 44 0#8, [(0, 0x100000), (257, 0x101000)], [0], false, some 0, none, true⟩ : Dist))] }
def st557 : State := { wall 0 0 1 3 [] with tick := 5000000, orl.dists := [((⟨66, some 3, 2, 0, List.replicate 44 0#8, [(0, 0x100000), (257, 0x101000)], [0], true, some 0, some 9, false⟩ : Dist))] }
def st558 : State := { wall 0 0 1 3 [] with tick := 5000000, orl.dists := [((⟨66, some 3, 2, 0, List.replicate 44 0#8, [(0, 0x100000), (257, 0x101000)], [0], false, some 0, some 9, false⟩ : Dist))] }
def st560 : State := { wall 0 0 1 3 [] with tick := 5000000, orl.dists := [((⟨66, some 3, 2, 0, List.replicate 44 0#8, [(0, 0x100000), (257, 0x101000)], [0], false, some 0, some 6000000, false⟩ : Dist))] }
def st561 : State := { wall 0 0 1 3 [] with tick := 5000000, orl.dists := [((⟨66, some 3, 2, 0, List.replicate 44 0#8, [(0, 0x100000), (257, 0x101000)], [0], true, some 0, none, false⟩ : Dist))] }
def st565 : State := { wall 0 0 1 3 [(F.ORL_TX_DST_dst, 0)] with tick := 5000000 }
def st570 : State := { wall 0 0 1 3 [(F.ORL_TX_DST_dst, 2), (F.ORL_TX_DESC_word 3, 0x01010000)] with tick := 5000000, orl.vid := 4294967295 }
def st573 : State := { wall 1 1 1 3 [(F.ORL_RX_POOL_first, 0), (F.ORL_RX_POOL_count, 1), (F.ORL_RX_POOL_stride, 1), (F.ORL_RX_CFG_stall_us, 50), (F.ORL_RX_CFG_retries, 1)] with tick := 5000000, orl.rx := [((⟨66, 7, 0, [0, 1, 256, 257], [], 4000000, 4⟩ : RxVer))] }
def st574 : State := { wall 1 1 1 3 [(F.ORL_RX_POOL_first, 0), (F.ORL_RX_POOL_count, 1), (F.ORL_RX_POOL_stride, 1), (F.ORL_RX_CFG_stall_us, 50), (F.ORL_RX_CFG_retries, 1)] with tick := 5000000, orl.ended := [(66, 5)] }
def st575 : State := { wall 1 1 1 3 [(F.ORL_RX_POOL_first, 0), (F.ORL_RX_POOL_count, 1), (F.ORL_RX_POOL_stride, 1), (F.ORL_RX_CFG_stall_us, 50), (F.ORL_RX_CFG_retries, 1)] with tick := 5000000 }
def st580 : State := { wall 1 1 1 3 [(F.ORL_RX_POOL_first, 0), (F.ORL_RX_POOL_count, 1), (F.ORL_RX_POOL_stride, 1), (F.ORL_RX_CFG_stall_us, 50), (F.ORL_RX_CFG_retries, 1)] with tick := 5000000, blq.nextId := 900 }
def st584 : State := { { wall 1 1 1 3 [(F.ORL_RX_POOL_first, 0), (F.ORL_RX_POOL_count, 1), (F.ORL_RX_POOL_stride, 1), (F.ORL_RX_CFG_stall_us, 50), (F.ORL_RX_CFG_retries, 1)] with tick := 5000000, orl.rx := [((⟨66, 7, 0, [0, 1, 256, 257], [], 4000000, 4⟩ : RxVer))], blq.writes := [⟨7, 0, 4⟩] } with cdc.decLanes := (List.replicate 16 none).set 15 (some ((⟨3, false, 0x200000, 0, 0, some (encodeBlock 0 0 false (List.replicate 1024 9)), .orsal 66 257, 0⟩ : DecReq))) }
def st585 : State := { { wall 1 1 1 3 [(F.ORL_RX_POOL_first, 0), (F.ORL_RX_POOL_count, 1), (F.ORL_RX_POOL_stride, 1), (F.ORL_RX_CFG_stall_us, 50), (F.ORL_RX_CFG_retries, 1)] with tick := 5000000, orl.rx := [((⟨66, 7, 0, [0, 1, 256, 257], [], 4000000, 4⟩ : RxVer))] } with cdc.decLanes := (List.replicate 16 none).set 15 (some ((⟨3, false, 0x200000, 0, 0, some [1#8], .orsal 66 257, 0⟩ : DecReq))) }
def st589 : State := { wall 0 0 1 3 [] with tick := 5000000, orl.ports := [(1, { OrlPort.reset with sending := some [1#8], lineAt := 4999990, blk := 3 })] }
def st590 : State := { wall 0 0 1 3 [] with tick := 5000000, orl.ports := [(1, { OrlPort.reset with sending := some [1#8], lineAt := 4999990, blk := 3, queue := [ownFrame up 9 false 2 [4#8], ((ownFrame up 4 false 2 [5#8])), ownFrame up 4 false 3 [6#8]] })] }
def st590m : State := reach st590 ((oport st590 1).lineAt + blockTicks (oport st590 1).blk)
def st591 : State := { setF pan [(F.PSQ_STATUS_state, 4), (F.MEM_STATUS_trained, 0x2C), (F.MEM_STATUS_overdue, 0x0C), (F.MEM_TRAIN_slot, 2)] with tick := 9000, mem.trainAt := [0, 0, 50, 40, 0, 40, 0, 0], exs.carried := [pass0 9500, pass0 10000], tmb.next := some 13100 }
def st593 : State := { setF pan [(F.PSQ_STATUS_state, 4), (F.MEM_STATUS_trained, 0x2C), (F.MEM_STATUS_overdue, 0x0C), (F.MEM_TRAIN_slot, 2)] with tick := 9000, mem.trainAt := [0, 0, 50, 40, 0, 40, 0, 0], exs.carried := [pass0 9500, pass0 10000], tmb.next := some 13099 }
def st594 : State := setF pan [(F.PSQ_STATUS_state, 0), (F.MEM_STATUS_trained, 1)]
def st596 : State := { setF pan [(F.PSQ_STATUS_state, 4), (F.MEM_STATUS_trained, 0x2C), (F.MEM_STATUS_overdue, 0x0C), (F.MEM_TRAIN_period_ms, 20), (F.MEM_TRAIN_max_ms, 5)] with tick := 9000, mem.trainAt := [0, 0, 50, 40, 0, 40, 0, 0], psq.onAt := some 800 }
def st597 : State := setF pan [(F.PSQ_STATUS_state, 4), (F.MEM_STATUS_trained, 0x2C), (F.MEM_STATUS_overdue, 0x0C)]
def st599 : State := { setF pan [(F.MEM_EDC_retries, 3), (F.MEM_EDC_CNT_retries, 0), (F.MEM_EDC_CNT_failed, 7)] with mem.gpoison := [(0x10000, true)], tick := 500, cdc.decLanes := ((List.replicate 16 none).set 4 (some (⟨1, false, 0x400000, 0, 0, none, .job, 0⟩ : DecReq))).set 6 (some (⟨1, false, 0xF7FFFC00, 0, 0, none, .job, 0⟩ : DecReq)), mem.waiting := [⟨6, 3, false⟩, ⟨4, 5, false⟩], mem.slot := some (0, 800), mem.refresh := 255 }
def st600 : State := { setF pan [(F.MEM_EDC_retries, 3), (F.MEM_EDC_CNT_retries, 65534), (F.MEM_EDC_CNT_failed, 7)] with mem.gpoison := [(0x10000, true)], tick := 500, cdc.decLanes := ((List.replicate 16 none).set 4 (some (⟨1, false, 0x400000, 0, 0, none, .job, 0⟩ : DecReq))).set 6 (some (⟨1, false, 0xF7FFFC00, 0, 0, none, .job, 0⟩ : DecReq)), mem.waiting := [⟨6, 3, false⟩, ⟨4, 5, false⟩], mem.slot := some (0, 800), mem.refresh := 255 }
def st602 : State := { setF pan [(F.MEM_EDC_retries, 3), (F.MEM_EDC_CNT_retries, 0), (F.MEM_EDC_CNT_failed, 7)] with mem.spent := [(16 * (0x500080 / 64) + 7, true)], mem.gpoison := [(0x10000, true)], tick := 500, cdc.decLanes := ((List.replicate 16 none).set 4 (some (⟨1, false, 0x400000, 0, 0, none, .job, 0⟩ : DecReq))).set 6 (some (⟨1, false, 0xF7FFFC00, 0, 0, none, .job, 0⟩ : DecReq)), mem.waiting := [⟨6, 3, false⟩, ⟨4, 5, false⟩], mem.slot := some (0, 800), mem.refresh := 255 }
def st611 : State := { setF pan [(F.MEM_SCRUB_en, 1)] with mem.scrubPos := 0x10000 }
def st612 : State := { setF pan [(F.MEM_SCRUB_en, 1), (F.MEM_SCRUB_STAT_passes, 255)] with mem.scrubPos := 0xF8000000 / 64 - 1, tick := 77 }
def st614 : State := { setF pan [(F.PSQ_STATUS_state, 4), (F.MEM_STATUS_trained, 0x2C), (F.MEM_STATUS_overdue, 0x0C)] with cdc.decLanes := (List.replicate 16 none).set 4 (some (⟨1, false, 0x200, 0, 0, none, .job, 0⟩ : DecReq)), mem.waiting := [⟨4, 5, false⟩] }
def st617 : State := { setF pan [(F.MEM_SCHED_age_us, 9)] with tick := 600, cdc.decLanes := (List.replicate 16 none).set 4 (some (⟨7, false, 0x200, 0, 0, none, .scan 1 0, 0⟩ : DecReq)), mem.waiting := [⟨2, 1, false⟩, ⟨4, 5, false⟩] }
def st618 : State := { setF pan [(F.MEM_SCHED_age_us, 9)] with tick := 600, cdc.decLanes := (List.replicate 16 none).set 4 (some (⟨7, false, 0x200, 0, 1, none, .scan 1 0, 0⟩ : DecReq)), mem.waiting := [⟨2, 1, false⟩, ⟨4, 5, false⟩] }
def st626 : State := { pan with lst := ssetList 0#8 [] 16252912 [9#8, 8#8, 7#8] }
def st639 : State := { pan with tick := 40, mem.arbs := [(3, { tick := 40, prev := 0, wait := [(4, false)] })] }
def st644 : State := { pan with mem.busyTo := some 1500 }
def st646 : State := { setF pan [(F.NVM_XF_ADDR_addr, 0x12345), (F.NVM_XF_LEN_len_m1, 4), (F.NVM_XF_BUF_offset, 0x3000)] with nv.flashSize := 0x1000000 }
def st647 : State := { setF pan [(F.NVM_XF_ADDR_addr, 0x12345), (F.NVM_XF_LEN_len_m1, 4), (F.NVM_XF_BUF_offset, 0x3000)] with age.ckpt := some { slot := 0, seq := 5, kind := 0, pic := 9, hours := 3, plane := 0, next := 0, off := 0, used := 64, count := 0, dir := [], full := 0, bad := false }, nv.xfHeld := [⟨0, 1, 2, 3, 0⟩] }
def st649 : State := { setF pan [(F.NVM_XF_STAT_busy, 1)] with nv.xf := some ((⟨0, 0x12345, 5, 0x3000, 0⟩ : XfJob)), flash := ssetList 0xFF#8 [] 0xFFFE [1#8, 2#8, 3#8], lst := ssetList 0#8 [] 0x2FFF [5#8, 6#8, 7#8] }
def st671 : State := { pan with nv.xf := some ⟨0, 0, 1, 0, 0⟩, nv.xfHeld := [((⟨2, 0x1000, 1, 0, 0⟩ : XfJob)), ⟨1, 2, 3, 4, 0⟩], nv.flashSize := 0x1000 }
def st673 : State := { pan with tick := 50, nvm := ssetList 0#8 [] (64 * 1600 + 5) [1#8, 2#8, 3#8] }
def st677 : State := { setF pan [(F.NVM_ACC_STAT_busy, 1)] with tick := 3299, nv.ecc := [(12802, 1), (12803, 1)], nv.reading := some (3300, 1600, 0x81, 0), nvm := ssetList 0#8 [] (64 * 1600 + 5) [1#8, 2#8, 3#8] }
def st679 : State := { setF pan [(F.NVM_BUF 0, 0x11223344)] with nvm := ssetList 0#8 [] (64 * 1600 + 5) [1#8, 2#8, 3#8] }
def st681 : State := { pan with nv.jobs := [⟨1600, [(3, [some 1#8])], .own⟩] }
def st682 : State := { pan with tick := 9, nv.reading := some (10, 1, 2, 3) }
def st683 : State := { setF pan [(F.NVM_ACC_STAT_busy, 1), (F.NVM_ACC_STAT_result, 3), (F.NVM_STATUS_journal, 1)] with nv.jobs := ((⟨1600, [(7, [some 1#8, none, some 3#8, some 4#8, some 5#8, none, some 7#8, some 8#8]), (4, [some 1#8, none, some 3#8, some 4#8, some 5#8, none, some 7#8, some 8#8])], .host⟩ : PgJob)) :: [], nv.grpAt := 77, nv.journal := some (1600, []), nvm := ssetList 0#8 [] (64 * 1600 + 57) [6#8, 7#8] }
def st684 : State := { setF pan [(F.NVM_ACC_STAT_busy, 1), (F.NVM_ACC_STAT_result, 3), (F.NVM_STATUS_journal, 1)] with nv.jobs := ((⟨1600, [(7, [some 1#8, none, some 3#8, some 4#8, some 5#8, none, some 7#8, some 8#8])], .host⟩ : PgJob)) :: [], nv.grpAt := 77, nv.journal := some (1600, []), nvm := ssetList 0#8 [] (64 * 1600 + 57) [6#8, 7#8] }
def st685 : State := { setF pan [(F.NVM_ACC_STAT_busy, 1), (F.NVM_ACC_STAT_result, 3), (F.NVM_STATUS_journal, 1)] with nv.jobs := ((⟨1600, [(7, [some 1#8, none, some 3#8, some 4#8, some 5#8, none, some 7#8, some 8#8])], .host⟩ : PgJob)) :: [(⟨1601, [(0, whole (List.replicate 8 9#8))], .own⟩ : PgJob)], nv.grpAt := 77, nv.journal := some (1600, []), nvm := ssetList 0#8 [] (64 * 1600 + 57) [6#8, 7#8] }
def st689 : State := setF pan []
def st691 : State := { setF pan [(F.NVM_SCRUB_en, 1), (F.NVM_SCRUB_STAT_passes, 3)] with nv.scrubPage := 4095, nv.passAt := some 9, nv.scrubAt := 77, nv.ecc := [(32760, 2)] }
def st692 : State := { setF pan [(F.NVM_SCRUB_en, 1), (F.NVM_SCRUB_STAT_passes, 3)] with nv.scrubPage := 1600, nv.passAt := some 9, nv.scrubAt := 77, nv.ecc := [(12801, 1), (12805, 2)] }
def st693 : State := { setF pan [(F.NVM_PW_pw 0, 77), (F.NVM_PW_pw 3, 5), (F.NVM_LOCK_STAT_att_user, 5), (F.NVM_LOCK_STAT_out_user, 1), (F.NVM_LOCK_STAT_unl, 0)] with tick := 50, nv.pws := (List.replicate 4 9).set 3 (77 + 5 * 2 ^ 96), nv.unlockAt := none }
def st694 : State := { setF pan [(F.NVM_PW_pw 0, 77), (F.NVM_PW_pw 3, 5), (F.NVM_LOCK_STAT_att_user, 5), (F.NVM_LOCK_STAT_out_user, 0), (F.NVM_LOCK_STAT_unl, 0)] with tick := 50, nv.pws := (List.replicate 4 9).set 3 (77 + 5 * 2 ^ 96), nv.unlockAt := some 49 }
def st695 : State := { setF pan [(F.NVM_PW_pw 0, 77), (F.NVM_PW_pw 3, 5), (F.NVM_LOCK_STAT_att_user, 6), (F.NVM_LOCK_STAT_out_user, 0), (F.NVM_LOCK_STAT_unl, 6)] with tick := 50, nv.pws := (List.replicate 4 9).set 3 (77 + 5 * 2 ^ 96), nv.unlockAt := some 50 }
def st698 : State := { setF pan [(F.NVM_PW_pw 0, 77), (F.NVM_PW_pw 3, 5), (F.NVM_LOCK_STAT_att_user, 0), (F.NVM_LOCK_STAT_out_user, 0), (F.NVM_LOCK_STAT_unl, 0)] with tick := 50, nv.pws := (List.replicate 4 9).set 3 0, nv.unlockAt := none }
def st700 : State := { setF pan [(F.NVM_PW_pw 0, 77), (F.NVM_PW_pw 3, 5), (F.NVM_LOCK_STAT_att_user, 3), (F.NVM_LOCK_STAT_out_user, 0), (F.NVM_LOCK_STAT_unl, 0)] with tick := 50, nv.pws := (List.replicate 4 9).set 3 1, nv.unlockAt := none }
def st709 : State := { setF pan [(F.NVM_PW_pw 0, 77), (F.NVM_PW_pw 3, 5), (F.NVM_LOCK_STAT_att_prot, 5), (F.NVM_LOCK_STAT_out_prot, 1), (F.NVM_LOCK_STAT_unl, 0)] with tick := 50, nv.pws := (List.replicate 4 9).set 1 (77 + 5 * 2 ^ 96), nv.unlockAt := none }
def st710 : State := { setF pan [(F.NVM_PW_pw 0, 77), (F.NVM_PW_pw 3, 5), (F.NVM_LOCK_STAT_att_prot, 5), (F.NVM_LOCK_STAT_out_prot, 0), (F.NVM_LOCK_STAT_unl, 0)] with tick := 50, nv.pws := (List.replicate 4 9).set 1 (77 + 5 * 2 ^ 96), nv.unlockAt := some 49 }
def st711 : State := { setF pan [(F.NVM_PW_pw 0, 77), (F.NVM_PW_pw 3, 5), (F.NVM_LOCK_STAT_att_prot, 6), (F.NVM_LOCK_STAT_out_prot, 0), (F.NVM_LOCK_STAT_unl, 6)] with tick := 50, nv.pws := (List.replicate 4 9).set 1 (77 + 5 * 2 ^ 96), nv.unlockAt := some 50 }
def st714 : State := { setF pan [(F.NVM_PW_pw 0, 77), (F.NVM_PW_pw 3, 5), (F.NVM_LOCK_STAT_att_prot, 3), (F.NVM_LOCK_STAT_out_prot, 0), (F.NVM_LOCK_STAT_unl, 15)] with tick := 50, nv.pws := (List.replicate 4 9).set 1 0, nv.unlockAt := none }
def st721 : State := setF pan [(F.NVM_LOCK_STAT_unl, 15), (F.NVM_LOCK_STAT_att_user, 3)]
def st722 : State := setF pan [(F.GEN_FENCE_token, 6)]
def st723 : State := { setF pan [(F.EVT_RING_CFG_log2sz, 8), (F.EVT_RING_CFG_en, 1), (F.EVT_RING_CFG_space, 1), (F.EVT_RING_LO_addr, 1), (F.EVT_PROD_index, 5), (F.EVT_CONS_index, 0xFFFFFFFE), (F.GEN_MSIX_TABLE_word 0, 0x4000), (F.GEN_MSIX_TABLE_word 1, 1), (F.GEN_MSIX_TABLE_word 2, 0xCAFE), (F.GEN_MSIX_TABLE_word 3, 0)] with tick := 40, evt.msiAt := some 39, evt.ringLoss := noLoss }
def st726 : State := { setF pan [(F.EVT_RING_CFG_log2sz, 8), (F.EVT_RING_CFG_en, 1), (F.EVT_RING_CFG_space, 1), (F.EVT_RING_LO_addr, 1), (F.EVT_PROD_index, 5), (F.EVT_CONS_index, 0xFFFFFFFE), (F.GEN_MSIX_TABLE_word 0, 0x4000), (F.GEN_MSIX_TABLE_word 1, 1), (F.GEN_MSIX_TABLE_word 2, 0xCAFE), (F.GEN_MSIX_TABLE_word 3, 1)] with tick := 40, evt.msiAt := some 39, evt.ringLoss := noLoss }
def st727 : State := { setF pan [(F.EVT_RING_CFG_log2sz, 8), (F.EVT_RING_CFG_en, 1), (F.EVT_RING_CFG_space, 1), (F.EVT_RING_LO_addr, 1), (F.EVT_PROD_index, 5), (F.EVT_CONS_index, 0xFFFFFFFE), (F.GEN_MSIX_TABLE_word 0, 0x4000), (F.GEN_MSIX_TABLE_word 1, 1), (F.GEN_MSIX_TABLE_word 2, 0xCAFE), (F.GEN_MSIX_TABLE_word 3, 0)] with tick := 40, evt.msiAt := some 40, evt.ringLoss := noLoss }
def st728 : State := { setF pan [(F.EVT_RING_CFG_log2sz, 8), (F.EVT_RING_CFG_en, 1), (F.EVT_RING_CFG_space, 1), (F.EVT_RING_LO_addr, 1), (F.EVT_PROD_index, 5), (F.EVT_CONS_index, 0xFFFFFFFE), (F.GEN_MSIX_TABLE_word 0, 0x4000), (F.GEN_MSIX_TABLE_word 1, 1), (F.GEN_MSIX_TABLE_word 2, 0xCAFE), (F.GEN_MSIX_TABLE_word 3, 0)] with tick := 40, evt.msiAt := some 39, evt.ringLoss := [0, 2, 0, 0, 0, 0] }
def st729 : State := { setF pan [(F.EVT_RING_CFG_log2sz, 8), (F.EVT_RING_CFG_en, 1), (F.EVT_RING_CFG_space, 1), (F.EVT_RING_LO_addr, 1), (F.EVT_PROD_index, 5), (F.EVT_CONS_index, 0xFFFFFFFE), (F.GEN_MSIX_TABLE_word 0, 0x4000), (F.GEN_MSIX_TABLE_word 1, 1), (F.GEN_MSIX_TABLE_word 2, 0xCAFE), (F.GEN_MSIX_TABLE_word 3, 0)] with tick := 40, evt.msiAt := some 39, evt.ringLoss := [0, 2, 0, 0, 0, 0], evt.gapBehind := 1, evt.held := [⟨List.replicate 32 1#8, 3, 2, 8⟩], evt.stack := [(3, 15)] }
def st730 : State := { setF pan [(F.GEN_MSIX_TABLE_word 0, 0x4000), (F.GEN_MSIX_TABLE_word 1, 1), (F.GEN_MSIX_TABLE_word 2, 0xCAFE), (F.GEN_MSIX_TABLE_word 3, 0x81), (F.GEN_MSIX_PBA_pending, 0)] with host.busMaster := true, host.msixMask := true }
def st732 : State := { setF pan [(F.GEN_MSIX_TABLE_word 0, 0x4000), (F.GEN_MSIX_TABLE_word 1, 1), (F.GEN_MSIX_TABLE_word 2, 0xCAFE), (F.GEN_MSIX_TABLE_word 3, 0x81), (F.GEN_MSIX_PBA_pending, 1)] with host.busMaster := false, host.msixMask := true }
def st733 : State := { setF pan [(F.EVT_TRC_LO_addr, 3), (F.EVT_TRC_CFG_log2sz, 9)] with mem.gpoison := [(199, true)], gddr := ssetList 0#8 [] 0x31E0 (leBytes 0x1122334455667788 32) }
def st734 : State := { setF pan [(F.EVT_TRC_LO_addr, 3), (F.EVT_TRC_CFG_log2sz, 9)] with mem.gpoison := [(199, false)], gddr := ssetList 0#8 [] 0x31E0 (leBytes 0x1122334455667788 32) }
def st735 : State := { setF pan [(F.EVT_TRC_LO_addr, 3), (F.EVT_TRC_CFG_log2sz, 9)] with mem.spent := [(16 * 199 + 7, true)], gddr := ssetList 0#8 [] 0x31E0 (leBytes 0x1122334455667788 32) }
def st736 : State := setF pan [(F.EVT_TRC_HI_addr, 0xFF), (F.EVT_TRC_CFG_log2sz, 9)]
def st737 : State := { pan with evt.stack := (List.replicate 0 (300, 7)) }
def st739 : State := { pan with evt.stack := (List.replicate 16 (300, 7)) }
def st740 : State := { pan with evt.stack := (9, 3) :: (List.replicate 15 (300, 7)) }
def st741 : State := { pan with evt.stack := (List.replicate 3 (300, 7)) }
def st743 : State := setF pan [(F.EVT_STACK_frozen, 1)]
def st745 : State := { setF pan [(F.EVT_STACK_frozen, 1), (F.EVT_STACK_depth, 4)] with evt.stack := (List.replicate 4 (300, 7)), evt.held := [⟨List.replicate 32 1#8, 3, 2, 8⟩] }
def st746 : State := { setF pan [(F.EVT_SQUALL_w_ms, 10), (F.EVT_SQUALL_STAT_sources, 2)] with evt.windows := [⟨78, 1000, 4, 0, [], 900, true⟩, ((⟨77, 1000, 4, 0, [1#8, 2#8, 3#8, 4#8], 900, true⟩ : SqWin))], evt.seq := 4294967295 }
def st748 : State := { setF pan [(F.EVT_SQUALL_w_ms, 10), (F.EVT_SQUALL_STAT_sources, 2)] with evt.windows := [⟨78, 1000, 4, 0, [], 900, true⟩, ((⟨77, 1000, 4, 5, [1#8, 2#8, 3#8, 4#8], 900, true⟩ : SqWin))], evt.seq := 4294967295 }
def st751 : State := { setF pan [(F.EVT_RING_CFG_log2sz, 8), (F.EVT_RING_CFG_en, 1), (F.EVT_RING_CFG_space, 1), (F.EVT_RING_LO_addr, 1), (F.EVT_PROD_index, 13), (F.EVT_CONS_index, 12), (F.EVT_SQUALL_n, 2), (F.EVT_SQUALL_w_ms, 1)] with tick := 650, evt.posted := [((⟨700, 0x0C5, 2, false, false, false, (List.range 12).map (BitVec.ofNat 8), 3, none⟩ : Rec)), ((⟨700, 0x0C5, 2, false, false, false, (List.range 12).map (BitVec.ofNat 8), 3, none⟩ : Rec))], evt.seq := 4294967295, evt.windows := [] }
def st755 : State := { setF pan [(F.EVT_RING_CFG_log2sz, 8), (F.EVT_RING_CFG_en, 1), (F.EVT_RING_CFG_space, 1), (F.EVT_RING_LO_addr, 1), (F.EVT_PROD_index, 13), (F.EVT_CONS_index, 12), (F.EVT_SQUALL_n, 2), (F.EVT_SQUALL_w_ms, 1), (F.EVT_MASK_mask, 8)] with tick := 650, evt.posted := [((⟨700, 0x0C5, 2, false, false, false, (List.range 12).map (BitVec.ofNat 8), 3, none⟩ : Rec))], evt.seq := 5 }
def st756 : State := { setF pan [(F.EVT_RING_CFG_log2sz, 8), (F.EVT_RING_CFG_en, 1), (F.EVT_RING_CFG_space, 1), (F.EVT_RING_LO_addr, 1), (F.EVT_PROD_index, 13), (F.EVT_CONS_index, 12), (F.EVT_SQUALL_n, 2), (F.EVT_SQUALL_w_ms, 1)] with tick := 650, evt.posted := [((⟨700, 0x0C5, 2, false, false, false, (List.range 12).map (BitVec.ofNat 8), 3, none⟩ : Rec))], evt.seq := 5, evt.windows := [((⟨0xC5, 600, 2, 0, [], 0, false⟩ : SqWin))] }
def st757 : State := { setF pan [(F.EVT_RING_CFG_log2sz, 8), (F.EVT_RING_CFG_en, 1), (F.EVT_RING_CFG_space, 1), (F.EVT_RING_LO_addr, 1), (F.EVT_PROD_index, 13), (F.EVT_CONS_index, 12), (F.EVT_SQUALL_n, 2), (F.EVT_SQUALL_w_ms, 1), (F.BLQ_SURF_BASE_offset, 0x8000)] with tick := 650, evt.posted := [((⟨700, 0x443, 2, false, false, false, [], 3, some ((List.range 32).map (BitVec.ofNat 8))⟩ : Rec))], evt.seq := 5, evt.windows := [⟨0x443, 600, 99, 1, [], 0, false⟩] }
def st758 : State := { setF pan [(F.EVT_RING_CFG_log2sz, 8), (F.EVT_RING_CFG_en, 1), (F.EVT_RING_CFG_space, 1), (F.EVT_RING_LO_addr, 1), (F.EVT_PROD_index, 13), (F.EVT_CONS_index, 12), (F.EVT_SQUALL_n, 2), (F.EVT_SQUALL_w_ms, 1), (F.BLQ_SURF_BASE_offset, 0x8000), (F.EVT_MASK_mask, 0x20000)] with tick := 650, evt.posted := [((⟨700, 0x443, 2, false, false, false, [], 3, some ((List.range 32).map (BitVec.ofNat 8))⟩ : Rec))], evt.seq := 5, evt.windows := [⟨0x443, 600, 99, 1, [], 0, false⟩] }
def st759 : State := { setF pan [(F.EVT_SQUALL_w_ms, 10), (F.EVT_SQUALL_n, 3)] with evt.windows := [⟨77, 1000, 4, 5, [1#8, 2#8, 3#8, 4#8], 900, false⟩], evt.seq := 4294967294, evt.posted := [((⟨15001001, 9, 2, false, false, false, (List.range 12).map (BitVec.ofNat 8), 3, none⟩ : Rec))] }
def st761 : State := { setF pan [(F.EVT_SQUALL_w_ms, 10), (F.EVT_SQUALL_n, 3)] with evt.windows := [⟨77, 1000, 4, 5, [1#8, 2#8, 3#8, 4#8], 900, false⟩], evt.seq := 4294967294, evt.posted := [((⟨700, 197, 2, false, false, false, (List.range 12).map (BitVec.ofNat 8), 3, none⟩ : Rec))] }
def st762 : State := { pan with boot.step := 0 }
def st764 : State := { pan with tick := 9, host.rstAt := some 9, host.rstKeep := [blkGEN] }
def st766 : State := { setF pan [(⟨0x3000C, 0, 32⟩, 0x10)] with tick := 30, now := ⟨30, [], [(0x3000C, 3), (4, 5)]⟩, shadow := [(0x3000C, 7#32)] }
def st770 : State := { pan with boot.end5 := none }
def st780 : State := setF pan [(⟨0x70010, 0, 32⟩, 0x10)]
def st790 : State := setF pan [(F.GEN_MSIX_TABLE_word 3, 0), (F.GEN_MSIX_PBA_pending, 1)]
def st791 : State := setF pan [(F.GEN_MSIX_TABLE_word 3, 1), (F.GEN_MSIX_PBA_pending, 1)]
def st805 : State := { pan with mem.lpoison := [(0x1235 / 8, true)], lst := ssetList 0#8 [] 0x1230 (leBytes 0x1122334455667788 16) }
def st806 : State := setF pan [(F.BLQ_SURF_BASE_offset, 0x8000)]
def st809 : State := { setF pan [(F.GEN_BAR2_LO_base, 0)] with gddr := ssetList 0#8 [] 0x2C48 [1#8, 2#8] }
def st815 : State := { setF pan [(F.GEN_BAR2_LO_base, 1)] with gddr := ssetList 0#8 [] 0x2C48 [1#8, 2#8], lst := ssetList 0#8 [] 0 (leBytes 0x100000 8 ++ leBytes 63 2 ++ leBytes 63 2 ++ leBytes 1 1 ++ leBytes 0 1 ++ leBytes 3 1) }
def st819 : State := { setF pan [(F.GEN_BAR2_LO_base, 3952)] with gddr := ssetList 0#8 [] 0x2C48 [1#8, 2#8] }
def st830 : State := { setF pan [(F.GEN_MGT_STAT_frame_err, 1), (F.MEM_MBX_STAT_coll_a, 1)] with mem.busyTo := some 7, boot.step := 0 }
def st831 : State := { setF pan [(F.GEN_MGT_STAT_frame_err, 1), (F.MEM_MBX_STAT_coll_a, 1)] with mem.busyTo := some 7, boot.step := 8 }
def st839 : State := { up with sec.jtagLock := true }
def st848 : State := { setF up [(F.SEC_STATUS_session, 0)] with sec.mfgDone := true, sec.ownerLock := true }
def st851 : State := { up with sec.mfgDone := false }
def st854 : State := { up with sec.mfgDone := true, sec.ownerLock := false }
def st858 : State := { setF up [(F.BLQ_SURF_BASE_offset, 0x8000)] with sec.mfgDone := true, sec.ownerLock := true }
def st870 : State := { setF up [(F.SEC_STATUS_session, 0)] with sec.keys := keys0, sec.fails := 2 }
def st873 : State := ses [] []
def st874 : State := setF up [(F.SEC_STATUS_session, 1)]
def st878 : State := { up with sec.mfgDone := true, sec.retired := true }
def st880 : State := { setF up [(F.BLQ_SURF_BASE_offset, 0x8000)] with sec.ownerLock := false }
def st884 : State := { setF up [(F.SEC_STATUS_session, 2), (F.BLQ_SURF_BASE_offset, 0x8000), (F.SEC_ATT_BUF_offset, 0x1000), (F.SEC_STATUS_path, 1)] with sec.mfgDone := true, sec.ownerLock := true, tick := 77, lst := ssetList 0#8 [] 0xFFF (List.replicate 5000 7#8) }
def st886 : State := { setF up [(F.ING_IN_CFG_hdcp_en 0, 1)] with sec.mfgDone := true, sec.ownerLock := true }
def st893 : State := { setF up [(F.PWR_STATUS_state, 1), (F.PWR_STATUS_target, 1)] with tick := 1000000000 }
def st895 : State := { setF up [(F.PWR_STATUS_state, 1), (F.PWR_STATUS_target, 1), (F.PWR_DOM_ON_on, 0x3FFFF81F)] with tick := 1000000000 }
def st901 : State := { setF up [(F.PWR_STATUS_state, 0), (F.PWR_STATUS_target, 0)] with tick := 1000000000 }
def st902 : State := { setF up [(F.PWR_STATUS_state, 0), (F.PWR_STATUS_target, 0), (F.PWR_REQ_max_state, 5), (F.PWR_LAT_TOL_us, 0xFFFFFFFF)] with tick := 1000000000 }
def st904 : State := { setF up [(F.PWR_STATUS_state, 0), (F.PWR_STATUS_target, 0), (F.PWR_CNT_STATE_p2, 5), (F.PWR_CNT_STATE_p3, 6), (F.PWR_OVC_TIME_seconds, 9), (F.PWR_STATUS_wr_ign, 1)] with tick := 1000000000, pwr.ovc := 9 }
def st906 : State := { setF up [(F.PWR_STATUS_state, 0), (F.PWR_STATUS_target, 0), (F.PWR_REQ_max_state, 1), (F.PWR_LAT_TOL_us, 250)] with tick := 1000000000 }
def st909 : State := { setF up [(F.PWR_STATUS_state, 1), (F.PWR_STATUS_target, 1), (F.PWR_REQ_max_state, 0), (F.PWR_LAT_TOL_us, 0)] with tick := 1000000000 }
def st915 : State := { setF up [(F.PWR_STATUS_state, 0), (F.PWR_STATUS_target, 0), (F.PWR_DOM_ON_on, 0x3FFFFFFF - 2 ^ 0)] with tick := 1000000000, pwr.oning := 2 ^ 0, pwr.stage := .exit }
def st917 : State := { setF up [(F.PWR_STATUS_state, 1), (F.PWR_STATUS_target, 1), (F.PWR_STATUS_target, 1)] with tick := 1000000000, pwr.offing := 2 ^ 0, pwr.stage := .none }
def st918 : State := { setF up [(F.PWR_STATUS_state, 1), (F.PWR_STATUS_target, 1), (F.PWR_STATUS_target, 1), (F.PWR_DOM_PEND_pend, 2 ^ 0)] with tick := 1000000000, pwr.offing := 2 ^ 0, pwr.stage := .none }
def st1006 : State := { setF up [(F.PWR_STATUS_state, 0), (F.PWR_STATUS_target, 0), (F.PWR_DOM_ON_on, 0x3FFFFFFF), (F.PWR_WAKE_EN_aux, 1)] with tick := 1000000000 }
def st1011 : State := { setF up [(F.PWR_STATUS_state, 0), (F.PWR_STATUS_target, 0), (F.PWR_DOM_ON_on, 0x3FFFFF9F), (F.PWR_WAKE_EN_aux, 1)] with tick := 1000000000 }
def st1012 : State := { setF up [(F.PWR_STATUS_state, 2), (F.PWR_STATUS_target, 2), (F.PWR_DOM_ON_on, 0x3FFFFF9F), (F.PWR_WAKE_EN_aux, 1)] with tick := 1000000000 }
def st1017 : State := { setF up [(F.PWR_STATUS_state, 2), (F.PWR_STATUS_target, 2), (F.PWR_DOM_ON_on, 0x3FFFFFFF), (F.PWR_WAKE_EN_aux, 1)] with tick := 1000000000 }
def st1036 : State := { setF up [(F.PWR_STATUS_state, 0), (F.PWR_STATUS_target, 0), (F.ING_IN_CFG_quad 1, 0), (F.ING_IN_CFG_en 1, 1), (F.PWR_WAKE_EN_sdi, 15)] with tick := 1000000000 }
def st1037 : State := { setF up [(F.PWR_STATUS_state, 2), (F.PWR_STATUS_target, 2), (F.ING_IN_CFG_quad 1, 0), (F.ING_IN_CFG_en 1, 1), (F.PWR_WAKE_EN_sdi, 15)] with tick := 1000000000 }
def st1039 : State := { setF up [(F.PWR_STATUS_state, 2), (F.PWR_STATUS_target, 2), (F.ING_IN_CFG_quad 1, 0)] with tick := 1000000000 }
def st1068 : State := { setF up [(F.PWR_STATUS_state, 3), (F.PWR_STATUS_target, 3), (F.PWR_WAKE_EN_mgt, 1)] with tick := 1000000000, pwr.wakeLow := true }
def st1072 : State := { setF up [(F.PWR_STATUS_state, 4), (F.PWR_STATUS_target, 4), (F.PWR_WAKE_EN_perst, 1)] with tick := 1000000000, pwr.perst := false }
def st1073 : State := { setF up [(F.PWR_STATUS_state, 4), (F.PWR_STATUS_target, 4)] with tick := 1000000000 }
def st1075 : State := { setF up [(F.PWR_STATUS_state, 3), (F.PWR_STATUS_target, 3), (F.PWR_DOM_ON_on, 0x1810801F)] with tick := 1000000000, pwr.exitDue := true }
def st1077 : State := { setF up [(F.PWR_STATUS_state, 3), (F.PWR_STATUS_target, 3)] with tick := 1000000000 }
def st1079 : State := { up with sec.jtagLock := true, sec.hash := 2 ^ 383, tick := 1000000000000, sec.blow := [(385, 1000000000001 + fuseTicks), (383, 1000000000000)] }
def st1080 : State := { setF pan [(F.SEC_STATUS_session, 2), (F.GEN_BAR2_LO_base, 5), (F.GEN_MSIX_TABLE_word 0, 9), (F.GEN_MSIX_PBA_pending, 1), (F.GEN_STATUS_link_up, 1), (F.GEN_STATUS_gen, 4), (F.GEN_STATUS_width, 4)] with gddr := [(3, 1#8)], flash := [(3, 1#8)], nvm := [(3, 1#8)], host.mem := [(3, 1#8)], tick := 99, sec.ownerLock := true, sec.hash := 5, sec.arbRow := 3, sec.keys := keys0, host.busMaster := true, host.d3hot := true, host.msixMask := true, pwr.perst := true, pending := [.porNLow] }
def st1086 : State := { setF up [(F.PWR_STATUS_state, 4)] with pwr.exitDue := true, tick := 77 }
def st1089 : State := { up with pwr.exitDue := true }
def st1091 : State := { setF State.reset [(F.NVM_BOOT_STAT_state, 2), (F.NVM_BOOT_STAT_code, 3), (F.SEC_CFG_host_boot, 0)] with boot.step := 4 }
def st1092 : State := { setF State.reset [(F.NVM_BOOT_STAT_state, 2), (F.NVM_BOOT_STAT_code, 0x20), (F.SEC_CFG_host_boot, 1)] with boot.step := 4 }
def st1097 : State := { setF up [(F.MEM_TRAIN_init_ms, 3)] with boot.step := 6 }
def st1100 : State := { setF up [(F.MEM_CFG_map_en, 1), (F.MEM_CFG_map_ch, 5)] with boot.step := 6 }
def st1106 : State := { ses (leBytes 0x00000000000000000000000000000000DC0D724F50C0A8D76D9D13C20F00780701D48C777F4B3541A1938609FB1F92BBAF0F3201528E7B9867004FC6C4ED4ED3C898E0609C26F9F16C104F7BA57797473279F934C5DDF5B2C35C5DA753B0022614AC58B8165D8D61AE5B098B3179D41F0000000000000006000000003143535A 128) [] with sec.fails := 1 }
def st1107 : State := ses (leBytes 0x000000000000000000000000000000007FC627AC2B7974CBCBD9674A399C656740F6BE9FF49AC75BFA2B416451532F5750CAB36B94DA87837019A7A0A027F896255F14D432992311700DA09245E76AEE4FEF76D33BDA80911BD7A18D59A58AB9EB2DEBEF1B04B54B74AAEAFE873896670000000000000005000000003143535A 128) []
def st1108 : State := ses (leBytes 0x00000000000000000000000000000000CAEECF54B4C84A913B41E8688D72D2DB01D48C777F4B3541A1938609FB1F92BBAF0F3201528E7B9867004FC6C4ED4ED3C898E0609C26F9F16C104F7BA57797473279F934C5DDF5B2C35C5DA737D3604714AC58B8165D8D61AD670C753179D41A0000000000000006000000003143535A 128) []
def st1109 : State := { ses (leBytes 0x0000000000000000000000000000000011F31035670F4A248F81FD49572E967701D48C777F4B3541A1938609FB1F92BBAF0F3201528E7B9867004FC6C4ED4ED3C898E0609C26F9F16C104F7BA57797473279F934C5DDF5B2C35C5DA753B0755614AC58B8165D8D61AE5B098B3179D41D0000000000000006000000003143535A 128) [] with nv.pws := [7, 9, 3, 4] }
def st1110 : State := { ses (leBytes 0x000000000000000000000000000000001F560D1CDADECAF4EF9D6071264EBB1E01D48C777F4B3541A1938609FB1F92BBAF0F3201528E7B9867004FC6C4ED4ED3C898E0609C26F9F16C104F7BA57797473279F934C5DDF5B2C35C5DA753B0022614AC58B8165D8D61AE5B098A3179D41C0000000000000006000000003143535A 128) [(F.NVM_IMG_ARB_arb, 255)] with sec.imgHash := some [] }
def st1111 : State := ses (leBytes 0x00000000000000000000000000000000DC0D724F50C0A8D76D9D13C20F00780701D48C777F4B3541A1938609FB1F92BBAF0F3201528E7B9867004FC6C4ED4ED3C898E0609C26F9F16C104F7BA57797473279F934C5DDF5B2C35C5DA753B0022614AC58B8165D8D61AE5B098A3179D41F0000000000000006000000003143535A 128) []
def st1112 : State := ses (leBytes 0x00000000000000000000000000000000623BA78129CA76C9139DC2ACE8C5C6B101D48C777F4B3541A1938609FB1F92BBAF0F3201528E7B9867004FC6C4ED4ED3C898E0609C26F9F16C104F7BA57797473279F934C5DDF5B2C35C5DA753B0022614AC58B8165D8D61AE5B098A3179D41E0000000000000006000000003143535A 128) []
def st1113 : State := ses (leBytes 0x0000000000000000000000000000000086763909CAD0989BA1403693A1A9D55501D48C777F4B3541A1938609FB1F92BBAF0F3201528E7B9867004FC6C4ED4ED3C898E0609C26F9F16C104F7BA57797473279F934C5DDF5B2C35C5DA753B0022614AC58B8165D8D61AE4E098E3179D41B0000000000000006000000003143535A 128) []
def st1114 : State := ses (leBytes 0x000000000000000000000000000000000BB9E7C98B7413363BDBCF30BBCBB93F01D48C777F4B3541A1938609FB1F92BBAF0F3201528E7B9867004FC6C4ED4ED3C898E0609C26F9F16C104F7BA57797473279F934C5DDF5B2C35C5DA753B0022614AC58B8165D8D60AE54091A3179D4180000000000000006000000003143535A 128) []
def st1115 : State := { setF up [(F.SEC_STATUS_session, 1)] with sec.mfgDone := true, sec.ownerLock := true, sec.nonce := List.replicate 48 3#8, lst := from0 (leBytes 0x0000000000000000 8) }
def st1116 : State := { setF up [(F.SEC_STATUS_session, 1)] with sec.mfgDone := true, sec.ownerLock := true, sec.nonce := List.replicate 48 3#8, lst := from0 (leBytes 0x021A42D9A62C05D1848A547F11A23501DEA843B2C92101F4267E7EE9FFBDFE783AB2BEEE24D0471958686F118EDD9CC131C80005C7E5D7020D582650AEBB08B4A66D56D340F2A4BE06CD2D2010399DCB987DDC5F7E3C796414FA6F60D4417A075F0EEA907C1D437A9D817E1DCEB1600AC0B8F0B51331DAE97C149A28BD1DF4F829DC9292BF989E5D6F2C26964ADE1736B70A7672385E543A6C2955BF5DF20255382A5482E041F759989BA78B623B1D6E74AD20F31EC7B18E37058BBE22CA87AA5F0EEA907C1D437A9D817E1DCEB1600AC0B8F0B51331DAE97C149A28BD1DF4F829DC9292BF989E5D6F2C26964ADE1736B70A7672385E543A6C2955BF5DF20255382A5482E041F759989BA78B623B1D6E74AD20F31EC7B18E37058BBE22CA87AA000000003253535A 296), sec.hash := 0x654B811F19E108EAB70600D86AA5F04BFAD296F7D87D69500977A9C8D122AA9478E155E5CFB05280EB82B571B14D9DA1 }
def st1117 : State := { up with sec.mfgDone := true, sec.ownerLock := false, lst := from0 (leBytes 0x0000000000000000000000000000000000000000000000000000000000000000000000000000000000000000000000000000000000000000000000000000000000000000000000000000000000000000000000000000000000000000000000005F0EEA907C1D437A9D817E1DCEB1600AC0B8F0B51331DAE97C149A28BD1DF4F829DC9292BF989E5D6F2C26964ADE1736B70A7672385E543A6C2955BF5DF20255382A5482E041F759989BA78B623B1D6E74AD20F31EC7B18E37058BBE22CA87AA00000000314E455A 200) }
/-- Hypotheses of `Obligations.ClearCommandsZeroTheirCounters` are met, clause by clause. -/
theorem wit_ClearCommandsZeroTheirCounters :
    (served up F.TMB_CTRL_clr_cnt.off true) ∧
    (served up F.EXS_CTRL_clr_cnt.off true) ∧
    (served up F.ING_CTRL_clr_cnt.off true) ∧
    (served up F.BLQ_CTRL_clr_cnt.off true) ∧
    (served up F.CDC_CTRL_clr_cnt.off true) ∧
    (served up F.SCN_CTRL_clr_cnt.off true) :=
  ⟨by unfold served; decide +kernel,
   by unfold served; decide +kernel,
   by unfold served; decide +kernel,
   by unfold served; decide +kernel,
   by unfold served; decide +kernel,
   by unfold served; decide +kernel⟩
/-- More clauses of `Obligations.ClearCommandsZeroTheirCounters`. -/
theorem wit_ClearCommandsZeroTheirCounters_2 :
    (served up F.EVT_CTRL_clr_cnt.off true) ∧
    (served up F.SEC_CTRL_clr_cnt.off true) ∧
    (served up F.PPX_CTRL_clr_cnt.off true) ∧
    (served up F.AGE_CTRL_clr_cnt.off true) ∧
    (served up F.PSQ_CTRL_clr_cnt.off true) ∧
    (served up F.NVM_CTRL_clr_cnt.off true) :=
  ⟨by unfold served; decide +kernel,
   by unfold served; decide +kernel,
   by unfold served; decide +kernel,
   by unfold served; decide +kernel,
   by unfold served; decide +kernel,
   by unfold served; decide +kernel⟩
/-- More clauses of `Obligations.ClearCommandsZeroTheirCounters`. -/
theorem wit_ClearCommandsZeroTheirCounters_3 :
    (served up F.MEM_CTRL_clr_cnt.off true) ∧
    (served up F.DRV_CTRL_clr_cnt.off true) ∧
    (served up F.ORL_CTRL_clr_cnt.off true) ∧
    (served st16 F.TMB_CTRL_clr_cnt.off true ∧ (tickLog st16).incs.filter (fun e => e.1.off = F.TMB_REF_CNT.off) = [(F.TMB_REF_CNT_misses, 3)]) ∧
    (served st17 F.TMB_CTRL_clr_cnt.off true ∧ quiet st17 [F.TMB_REF_CNT.off]) ∧
    (served st18 F.NVM_CTRL_clr_cnt.off true ∧ (nvmNow st18).nv.reading.isSome = false) :=
  ⟨by unfold served; decide +kernel,
   by unfold served; decide +kernel,
   by unfold served; decide +kernel,
   by unfold served; decide +kernel,
   by unfold quiet served; decide +kernel,
   by unfold served; decide +kernel⟩
/-- More clauses of `Obligations.ClearCommandsZeroTheirCounters`. -/
theorem wit_ClearCommandsZeroTheirCounters_4 : (served st19 F.NVM_CTRL_clr_cnt.off true ∧ (nvmNow st19).nv.reading.isSome = true) := by unfold served; decide +kernel
/-- Hypotheses of `Obligations.StepRunsFrontCommand` are met, clause by clause. -/
theorem wit_StepRunsFrontCommand :
    (st20.evt.posted = [] ∧ st20.nv.reading = some (3, 1600, 0, 0) ∧ st20.tick + 1 < 3) ∧
    (st21.evt.posted = [] ∧ st21.nv.reading = some (2, 1600, 0, 0)) :=
  ⟨by decide +kernel,
   by decide +kernel⟩
/-- Hypotheses of `Obligations.RefusedHostCommandChangesNothingElse` are met, clause by clause. -/
theorem wit_RefusedHostCommandChangesNothingElse :
    (hostAnswers st22 = false) ∧
    (lostWrite st23 F.TMB_CTRL_snap.off = true) ∧
    (hostAnswers st24 = true ∧ lostWrite st24 F.TMB_CTRL_snap.off = false ∧ step5Runs st24 = true) ∧
    (hostAnswers st25 = true ∧ lostWrite st25 F.BLQ_SUB_GO_go.off = false ∧ step5Runs st25 = false ∧ blkOff st25 F.BLQ_SUB_GO_go.off = true) :=
  ⟨by decide +kernel,
   by decide +kernel,
   by decide +kernel,
   by decide +kernel⟩
/-- Hypotheses of `Obligations.AcceptedEdgeUpdatesLock` are met, clause by clause. -/
theorem wit_AcceptedEdgeUpdatesLock : (judgesEdges st26 (EdgeSrc.pin) 1000 ∧ (((9900) : Nat) : Int) = 1000 + ((9) : Nat) * tRef st26 + ((-100 : Int)) ∧ -(rd st26 F.TMB_REF_WIN_ticks : Int) ≤ ((-100 : Int)) ∧ ((-100 : Int)) < rd st26 F.TMB_REF_WIN_ticks ∧ st26.tmb.acc ≠ some (9)) := by unfold judgesEdges; decide +kernel
/-- Hypotheses of `Obligations.StraysMissesAndHoldover` are met, clause by clause. -/
theorem wit_StraysMissesAndHoldover :
    (judgesEdges st31 (EdgeSrc.pin) 1000 ∧ (((9899) : Nat) : Int) = 1000 + ((9) : Nat) * tRef st31 + ((-101 : Int)) ∧ -((tRef st31 / 2 : Nat) : Int) ≤ ((-101 : Int)) ∧ ((-101 : Int)) < ((tRef st31 - tRef st31 / 2 : Nat) : Int) ∧ (((-101 : Int)) < -(rd st31 F.TMB_REF_WIN_ticks : Int) ∨ (rd st31 F.TMB_REF_WIN_ticks : Int) ≤ ((-101 : Int)) ∨ st31.tmb.acc = some (9))) ∧
    (st36.tmb.align = some 1000 ∧ st36.tmb.wide = false ∧ 0 < tRef st36 ∧ tmbState st36 ∈ [tmACQUIRE, tmLOCKED, tmHOLDOVER, tmSLEW] ∧ st36.tmb.missRun + 1 < rd st36 F.TMB_LOCK_CFG_miss_cnt) ∧
    (st37.tmb.align = some 1000 ∧ st37.tmb.wide = false ∧ 0 < tRef st37 ∧ tmbState st37 ∈ [tmACQUIRE, tmLOCKED, tmHOLDOVER, tmSLEW] ∧ rd st37 F.TMB_LOCK_CFG_miss_cnt ≤ st37.tmb.missRun + 1) ∧
    (tmbState st41 = tmHOLDOVER ∧ st41.tmb.held60 = false) ∧
    (tmbState st42 = tmHOLDOVER ∧ st42.tmb.held60 = true) :=
  ⟨by unfold judgesEdges; decide +kernel,
   by decide +kernel,
   by decide +kernel,
   by decide +kernel,
   by decide +kernel⟩
/-- Hypotheses of `Obligations.SnapshotAndRealign` are met, clause by clause. -/
theorem wit_SnapshotAndRealign :
    (served st43 F.TMB_CTRL_snap.off true ∧ st43.tmb.pic = some 7) ∧
    (served up F.TMB_CTRL_snap.off true) ∧
    (served st45 F.TMB_CTRL_realign.off true ∧ outputsRun st45 = true) ∧
    (served up F.TMB_CTRL_realign.off true ∧ outputsRun up = false) :=
  ⟨by unfold served; decide +kernel,
   by unfold served; decide +kernel,
   by unfold served; decide +kernel,
   by unfold served; decide +kernel⟩
/-- Hypotheses of `Obligations.LockstepMismatchIsResolvedOrRaised` are met, clause by clause. -/
theorem wit_LockstepMismatchIsResolvedOrRaised :
    (rd up F.TMB_STATUS_resync = 0 ∧ ((SelfCheck.pass) = .pass ↔ (SelfCheck.residue) ≠ .pass)) ∧
    (rd st49 F.TMB_STATUS_resync = 1 ∧ (if st49.tmb.useB then (SelfCheck.pass) else (SelfCheck.residue)) = .pass) ∧
    (rd st50 F.TMB_STATUS_resync = 1 ∧ (if st50.tmb.useB then (SelfCheck.pass) else (SelfCheck.residue)) ≠ .pass) :=
  ⟨by decide +kernel,
   by decide +kernel,
   by decide +kernel⟩
/-- Hypotheses of `Obligations.PictureBoundaryAdvances` are met, clause by clause. -/
theorem wit_PictureBoundaryAdvances :
    (st51.tmb.next = some 1000 ∧ st51.exs.next.isSome = true ∧ st51.scn.set = none ∧ st51.scn.prev = none ∧ st51.scn.nsl = none) ∧
    (st52.tmb.next = some 1000 ∧ st52.exs.next = none ∧ st52.exs.bank.isSome = true) ∧
    (st53.boot.end5 = some 100 ∧ st53.boot.step = 8 ∧ st53.boot.step8 = false ∧ st53.tmb.pic = none ∧ st53.scn.set = none ∧ st53.scn.prev = none ∧ tmbState st53 = tmACQUIRE) ∧
    (st54.boot.end5 = some 100 ∧ st54.boot.step = 8 ∧ st54.boot.step8 = false ∧ st54.tmb.pic = none ∧ st54.scn.set = none ∧ st54.scn.prev = none ∧ tmbState st54 = tmACQUIRE ∧ st54.tmb.mgr.isSome = true) :=
  ⟨by decide +kernel,
   by decide +kernel,
   by decide +kernel,
   by decide +kernel⟩
/-- Hypotheses of `Obligations.BankBuildFillsTheNextBank` are met, clause by clause. -/
theorem wit_BankBuildFillsTheNextBank :
    (st55.tmb.next = some 1000 ∧ st55.exs.next = none) ∧
    (st51.tmb.next = some 1000 ∧ st51.exs.next = some (bank0 1000) ∧ (bank0 1000).at_ = 1000) :=
  ⟨by decide +kernel,
   by decide +kernel⟩
/-- Hypotheses of `Obligations.CameraEdgesDriveTheChannel` are met, clause by clause. -/
theorem wit_CameraEdgesDriveTheChannel :
    ((cam up ((0 : Fin 4)).val).level = (false)) ∧
    ((cam st58 ((2 : Fin 4)).val).level ≠ (true) ∧ shutIsRef st58 ((2 : Fin 4)).val (true) = false ∧ camMeasured st58 ((2 : Fin 4)).val = true ∧ (true) ≠ on st58 (F.EXS_CAM_CFG_pol ((2 : Fin 4)).val) ∧ camState st58 ((2 : Fin 4)).val = cmTRACK ∧ inPredicted st58 ((2 : Fin 4)).val (20000950) = true) ∧
    ((cam st59 ((2 : Fin 4)).val).level ≠ (true) ∧ shutIsRef st59 ((2 : Fin 4)).val (true) = false ∧ camMeasured st59 ((2 : Fin 4)).val = true ∧ (true) ≠ on st59 (F.EXS_CAM_CFG_pol ((2 : Fin 4)).val) ∧ camState st59 ((2 : Fin 4)).val = cmCOAST ∧ inPredicted st59 ((2 : Fin 4)).val (20001049) = true) ∧
    ((cam st60 ((2 : Fin 4)).val).level ≠ (false) ∧ shutIsRef st60 ((2 : Fin 4)).val (false) = false ∧ camMeasured st60 ((2 : Fin 4)).val = true ∧ (false) = on st60 (F.EXS_CAM_CFG_pol ((2 : Fin 4)).val) ∧ (cam st60 ((2 : Fin 4)).val).pend = some (1000) ∧ (cam st60 ((2 : Fin 4)).val).pendAcc = true) ∧
    (camState st58 ((2 : Fin 4)).val = cmTRACK ∧ (cam st58 ((2 : Fin 4)).val).opens ≠ []) ∧
    (camState st63 ((2 : Fin 4)).val = cmCOAST ∧ (cam st63 ((2 : Fin 4)).val).opens ≠ []) :=
  ⟨by decide +kernel,
   by decide +kernel,
   by decide +kernel,
   by decide +kernel,
   by decide +kernel,
   by decide +kernel⟩
/-- More clauses of `Obligations.CameraEdgesDriveTheChannel`. -/
theorem wit_CameraEdgesDriveTheChannel_2 : (camState st64 ((2 : Fin 4)).val = cmCOAST ∧ rd st64 (F.EXS_CAM_CFG_coast_max ((2 : Fin 4)).val) ≤ (cam st64 ((2 : Fin 4)).val).coast) := by decide +kernel
/-- Hypotheses of `Obligations.InputPictureLifecycle` are met, clause by clause. -/
theorem wit_InputPictureLifecycle :
    (on st66 (F.ING_IN_STAT_lock ((1 : Fin 5)).val) = true ∧ inEnabled st66 ((1 : Fin 5)).val = true ∧ inSupported ((1 : Fin 5)).val (({ w := 65, h := 64, depth := 1, sub := 1, enc := none, hdcp := false, fields := false, planes := [] } : InSignal)) = true ∧ rd st66 (F.ING_IN_MAX_w_max ((1 : Fin 5)).val) + 1 < (({ w := 65, h := 64, depth := 1, sub := 1, enc := none, hdcp := false, fields := false, planes := [] } : InSignal)).w) ∧
    (on st67 (F.ING_IN_STAT_lock ((1 : Fin 5)).val) = true ∧ inEnabled st67 ((1 : Fin 5)).val = true ∧ inSupported ((1 : Fin 5)).val (({ w := 64, h := 64, depth := 1, sub := 1, enc := none, hdcp := false, fields := false, planes := [] } : InSignal)) = true ∧ panelBW st67 ≤ rd st67 (F.ING_IN_DST_bx0 ((1 : Fin 5)).val)) ∧
    (on st68 (F.ING_IN_STAT_lock ((1 : Fin 5)).val) = true ∧ inEnabled st68 ((1 : Fin 5)).val = true ∧ inSupported ((1 : Fin 5)).val (({ w := 64, h := 64, depth := 1, sub := 1, enc := none, hdcp := false, fields := false, planes := [] } : InSignal)) = true ∧ (({ w := 64, h := 64, depth := 1, sub := 1, enc := none, hdcp := false, fields := false, planes := [] } : InSignal)).w ≤ rd st68 (F.ING_IN_MAX_w_max ((1 : Fin 5)).val) + 1 ∧ (({ w := 64, h := 64, depth := 1, sub := 1, enc := none, hdcp := false, fields := false, planes := [] } : InSignal)).h ≤ rd st68 (F.ING_IN_MAX_h_max ((1 : Fin 5)).val) + 1 ∧ rd st68 (F.ING_IN_DST_bx0 ((1 : Fin 5)).val) < panelBW st68 ∧ rd st68 (F.ING_IN_DST_by0 ((1 : Fin 5)).val) < panelBH st68 ∧ poolChoice st68 (rd st68 (F.ING_IN_POOL_first ((1 : Fin 5)).val)) (rd st68 (F.ING_IN_POOL_count ((1 : Fin 5)).val)) = none) ∧
    (on st66 (F.ING_IN_STAT_lock ((1 : Fin 5)).val) = true ∧ inEnabled st66 ((1 : Fin 5)).val = true ∧ inSupported ((1 : Fin 5)).val (({ w := 64, h := 64, depth := 1, sub := 1, enc := none, hdcp := false, fields := false, planes := [] } : InSignal)) = true ∧ (({ w := 64, h := 64, depth := 1, sub := 1, enc := none, hdcp := false, fields := false, planes := [] } : InSignal)).w ≤ rd st66 (F.ING_IN_MAX_w_max ((1 : Fin 5)).val) + 1 ∧ (({ w := 64, h := 64, depth := 1, sub := 1, enc := none, hdcp := false, fields := false, planes := [] } : InSignal)).h ≤ rd st66 (F.ING_IN_MAX_h_max ((1 : Fin 5)).val) + 1 ∧ rd st66 (F.ING_IN_DST_bx0 ((1 : Fin 5)).val) < panelBW st66 ∧ rd st66 (F.ING_IN_DST_by0 ((1 : Fin 5)).val) < panelBH st66 ∧ poolChoice st66 (rd st66 (F.ING_IN_POOL_first ((1 : Fin 5)).val)) (rd st66 (F.ING_IN_POOL_count ((1 : Fin 5)).val)) = some 3) ∧
    (on st66 (F.ING_IN_STAT_lock ((1 : Fin 5)).val) = true ∧ inEnabled st66 ((1 : Fin 5)).val = true ∧ inSupported ((1 : Fin 5)).val (({ w := 64, h := 64, depth := 3, sub := 0, enc := none, hdcp := false, fields := false, planes := [] } : InSignal)) = false) ∧
    (on up (F.ING_IN_STAT_lock ((1 : Fin 5)).val) = false) :=
  ⟨by decide +kernel,
   by decide +kernel,
   by decide +kernel,
   by decide +kernel,
   by decide +kernel,
   by decide +kernel⟩
/-- More clauses of `Obligations.InputPictureLifecycle`. -/
theorem wit_InputPictureLifecycle_2 :
    ((inp st72 ((1 : Fin 5)).val).pic = some (({ sig := ({ w := 64, h := 64, depth := 1, sub := 1, enc := none, hdcp := false, fields := false, planes := [] } : InSignal), surface := 0, seq := 3, store := true, mtx := 0, tf := 0, range := 0, prim := 0, slot := 1, bx0 := 0, by0 := 0, apply := none, m := [], row := 1, ids := [], at_ := 0 } : InPic)) ∧ (({ sig := ({ w := 64, h := 64, depth := 1, sub := 1, enc := none, hdcp := false, fields := false, planes := [] } : InSignal), surface := 0, seq := 3, store := true, mtx := 0, tf := 0, range := 0, prim := 0, slot := 1, bx0 := 0, by0 := 0, apply := none, m := [], row := 1, ids := [], at_ := 0 } : InPic)).row = blocksOf (({ sig := ({ w := 64, h := 64, depth := 1, sub := 1, enc := none, hdcp := false, fields := false, planes := [] } : InSignal), surface := 0, seq := 3, store := true, mtx := 0, tf := 0, range := 0, prim := 0, slot := 1, bx0 := 0, by0 := 0, apply := none, m := [], row := 1, ids := [], at_ := 0 } : InPic)).sig.h - 1) ∧
    ((inp st73 ((1 : Fin 5)).val).pic = some (({ sig := ({ w := 64, h := 64, depth := 1, sub := 1, enc := none, hdcp := false, fields := false, planes := [] } : InSignal), surface := 0, seq := 3, store := true, mtx := 0, tf := 0, range := 0, prim := 0, slot := 1, bx0 := 0, by0 := 0, apply := none, m := [], row := 0, ids := [], at_ := 0 } : InPic)) ∧ (({ sig := ({ w := 64, h := 64, depth := 1, sub := 1, enc := none, hdcp := false, fields := false, planes := [] } : InSignal), surface := 0, seq := 3, store := true, mtx := 0, tf := 0, range := 0, prim := 0, slot := 1, bx0 := 0, by0 := 0, apply := none, m := [], row := 0, ids := [], at_ := 0 } : InPic)).row ≠ blocksOf (({ sig := ({ w := 64, h := 64, depth := 1, sub := 1, enc := none, hdcp := false, fields := false, planes := [] } : InSignal), surface := 0, seq := 3, store := true, mtx := 0, tf := 0, range := 0, prim := 0, slot := 1, bx0 := 0, by0 := 0, apply := none, m := [], row := 0, ids := [], at_ := 0 } : InPic)).sig.h - 1) ∧
    ((inp up ((1 : Fin 5)).val).pic = none) :=
  ⟨by decide +kernel,
   by decide +kernel,
   by decide +kernel⟩
/-- Hypotheses of `Obligations.HostSubmissionIsAllOrNothing` are met, clause by clause. -/
theorem wit_HostSubmissionIsAllOrNothing :
    (served up F.BLQ_SUB_GO_go.off true ∧ up.blq.sub = none) ∧
    (served st76 F.BLQ_SUB_GO_go.off true ∧ st76.blq.sub.isSome = true) ∧
    (st77.blq.sub = some ([3 * 65536, 9, 4, 0x01010000]) ∧ hostResult { st77u with blq := { st77u.blq with sub := none } } (verDesc ([3 * 65536, 9, 4, 0x01010000])) true = 0 ∧ (verDesc ([3 * 65536, 9, 4, 0x01010000])).repl = false ∧ rectBlocks (verDesc ([3 * 65536, 9, 4, 0x01010000])) ≠ []) ∧
    (st78.blq.sub = some ([3 * 65536, 9, 4, 0x01010000]) ∧ hostResult { st78u with blq := { st78u.blq with sub := none } } (verDesc ([3 * 65536, 9, 4, 0x01010000])) true = 1 ∧ firstFull st78u (verDesc ([3 * 65536, 9, 4, 0x01010000])) = some (0, 1)) ∧
    (st79.blq.sub = some ([20 * 65536, 9, 4, 0]) ∧ hostResult { st79u with blq := { st79u.blq with sub := none } } (verDesc ([20 * 65536, 9, 4, 0])) true = 2) ∧
    (up.blq.sub = none) :=
  ⟨by unfold served; decide +kernel,
   by unfold served; decide +kernel,
   by decide +kernel,
   by decide +kernel,
   by decide +kernel,
   by decide +kernel⟩
/-- More clauses of `Obligations.HostSubmissionIsAllOrNothing`. -/
theorem wit_HostSubmissionIsAllOrNothing_2 :
    (st81.blq.writes.find? (fun x => x.id = 7) = some ((⟨7, 0, 0⟩ : WriteJob)) ∧ ((⟨7, 0, 0⟩ : WriteJob)).left = 0) ∧
    (st82.blq.writes.find? (fun x => x.id = 7) = some ((⟨7, 0, 1⟩ : WriteJob)) ∧ ((⟨7, 0, 1⟩ : WriteJob)).left ≠ 0) ∧
    (up.blq.writes.find? (fun x => x.id = 7) = none) :=
  ⟨by decide +kernel,
   by decide +kernel,
   by decide +kernel⟩
/-- Hypotheses of `Obligations.InspectionReadLatchesSeq` are met, clause by clause. -/
theorem wit_InspectionReadLatchesSeq :
    (hostAnswers st84 = true ∧ curOf st84 (blkKey (rd st84 F.BLQ_INSP_SEL_bx) (rd st84 F.BLQ_INSP_SEL_by)) (rd st84 F.BLQ_INSP_SEL_slot) = some ⟨5, 2, 77, 0, 0⟩) ∧
    (hostAnswers up = true ∧ curOf up (blkKey (rd up F.BLQ_INSP_SEL_bx) (rd up F.BLQ_INSP_SEL_by)) (rd up F.BLQ_INSP_SEL_slot) = none) :=
  ⟨by decide +kernel,
   by decide +kernel⟩
/-- Hypotheses of `Obligations.CodecLanesFinishBlocks` are met, clause by clause. -/
theorem wit_CodecLanesFinishBlocks :
    (st86.cdc.cmpLanes.getD ((6 : Fin 8)).val none = some ((⟨5, 0x200000, 0, false, List.replicate 1024 9, 2, .ingest 1 [4] 0⟩ : CmpReq)) ∧ ((⟨5, 0x200000, 0, false, List.replicate 1024 9, 2, .ingest 1 [4] 0⟩ : CmpReq)).tag = .ingest 1 [4] 0 ∧ ((⟨5, 0x200000, 0, false, List.replicate 1024 9, 2, .ingest 1 [4] 0⟩ : CmpReq)).addr + 1040 ≤ memCap st86) ∧
    (st88.cdc.decLanes.getD ((15 : Fin 16)).val none = some ((⟨7, false, 2 ^ 33, 0, 0, none, .job, 0⟩ : DecReq)) ∧ ((⟨7, false, 2 ^ 33, 0, 0, none, .job, 0⟩ : DecReq)).tag = .job ∧ ((⟨7, false, 2 ^ 33, 0, 0, none, .job, 0⟩ : DecReq)).bytes = none ∧ st88.cdc.job = some job0 ∧ job0.abort = none ∧ (if st88.mem.bad.contains ((15 : Fin 16)).val && !((⟨7, false, 2 ^ 33, 0, 0, none, .job, 0⟩ : DecReq)).lst then Decoded.err 7 else decodeAt st88 ((⟨7, false, 2 ^ 33, 0, 0, none, .job, 0⟩ : DecReq)).lst ((⟨7, false, 2 ^ 33, 0, 0, none, .job, 0⟩ : DecReq)).addr ((⟨7, false, 2 ^ 33, 0, 0, none, .job, 0⟩ : DecReq)).depth) = Decoded.err 7) ∧
    (st89.cdc.decLanes.getD ((15 : Fin 16)).val none = some ((⟨7, false, 0x200000, 0, 0, none, .job, 0⟩ : DecReq)) ∧ ((⟨7, false, 0x200000, 0, 0, none, .job, 0⟩ : DecReq)).tag = .job ∧ ((⟨7, false, 0x200000, 0, 0, none, .job, 0⟩ : DecReq)).bytes = none ∧ st89.mem.bad.contains ((15 : Fin 16)).val = false ∧ st89.cdc.job = some job0 ∧ (match decodeAt st89 ((⟨7, false, 0x200000, 0, 0, none, .job, 0⟩ : DecReq)).lst ((⟨7, false, 0x200000, 0, 0, none, .job, 0⟩ : DecReq)).addr ((⟨7, false, 0x200000, 0, 0, none, .job, 0⟩ : DecReq)).depth with | Decoded.ok xs o => decide (xs = List.replicate 1024 9) && o == false | _ => false) = true) ∧
    (st90.cdc.decLanes.getD ((15 : Fin 16)).val none = some ((⟨7, false, 0x200000, 0, 0, none, .scan 1 2, 0⟩ : DecReq)) ∧ ((⟨7, false, 0x200000, 0, 0, none, .scan 1 2, 0⟩ : DecReq)).tag = .scan 1 2 ∧ ((⟨7, false, 0x200000, 0, 0, none, .scan 1 2, 0⟩ : DecReq)).bytes = none ∧ st90.mem.bad.contains ((15 : Fin 16)).val = false ∧ (match decodeAt st90 ((⟨7, false, 0x200000, 0, 0, none, .scan 1 2, 0⟩ : DecReq)).lst ((⟨7, false, 0x200000, 0, 0, none, .scan 1 2, 0⟩ : DecReq)).addr ((⟨7, false, 0x200000, 0, 0, none, .scan 1 2, 0⟩ : DecReq)).depth with | Decoded.ok xs o => decide (xs = List.replicate 1024 9) && o == false | _ => false) = true ∧ findRun st90 1 = some { run0 with fetch := (sset none [] (fetchKey 2 0x200000 0) (some ((⟨2, 0x200000, 0, .wait⟩ : Fetch))) : SMap (Option Fetch)) } ∧ sget none ((sset none [] (fetchKey 2 0x200000 0) (some ((⟨2, 0x200000, 0, .wait⟩ : Fetch))) : SMap (Option Fetch))) (fetchKey 2 ((⟨7, false, 0x200000, 0, 0, none, .scan 1 2, 0⟩ : DecReq)).addr ((⟨7, false, 0x200000, 0, 0, none, .scan 1 2, 0⟩ : DecReq)).depth) = some ((⟨2, 0x200000, 0, .wait⟩ : Fetch))) ∧
    (up.cdc.cmpLanes.getD 0 none = none) ∧
    (up.cdc.decLanes.getD 0 none = none) :=
  ⟨by decide +kernel,
   by decide +kernel,
   by decide +kernel,
   by decide +kernel,
   by decide +kernel,
   by decide +kernel⟩
/-- Hypotheses of `Obligations.CodecJobsRunFromTheRing` are met, clause by clause. -/
theorem wit_CodecJobsRunFromTheRing :
    (served up F.CDC_JOB_PROD_index.off false) ∧
    (jobWaits st94 = true ∧ (nextJob st94).op = 0) ∧
    (jobWaits up = false) ∧
    (jobWaits st99 = true ∧ (nextJob st99).op ≠ 1) ∧
    (st100.cdc.job = some (({ job0 with desc := [0#8, 0#8] ++ List.replicate 126 0#8, done := 5, ended := some (1, 2, 3) } : Job)) ∧ (({ job0 with desc := [0#8, 0#8] ++ List.replicate 126 0#8, done := 5, ended := some (1, 2, 3) } : Job)).ended = some (1, 2, 3) ∧ st100.cdc.abortTo = none ∧ ((({ job0 with desc := [0#8, 0#8] ++ List.replicate 126 0#8, done := 5, ended := some (1, 2, 3) } : Job)).op = 1 → (({ job0 with desc := [0#8, 0#8] ++ List.replicate 126 0#8, done := 5, ended := some (1, 2, 3) } : Job)).done = 0)) ∧
    (st103.cdc.job = some (({ job0 with desc := [0#8, 1#8] ++ List.replicate 126 0#8, done := 3, ended := some (1, 2, 3) } : Job)) ∧ (({ job0 with desc := [0#8, 1#8] ++ List.replicate 126 0#8, done := 3, ended := some (1, 2, 3) } : Job)).ended = some (1, 2, 3) ∧ st103.cdc.abortTo = none ∧ ((({ job0 with desc := [0#8, 1#8] ++ List.replicate 126 0#8, done := 3, ended := some (1, 2, 3) } : Job)).op = 1 → (({ job0 with desc := [0#8, 1#8] ++ List.replicate 126 0#8, done := 3, ended := some (1, 2, 3) } : Job)).done = 0) ∧ mbxBase < jobOff st103 (({ job0 with desc := [0#8, 1#8] ++ List.replicate 126 0#8, done := 3, ended := some (1, 2, 3) } : Job)).entry + 64) :=
  ⟨by unfold served; decide +kernel,
   by decide +kernel,
   by decide +kernel,
   by decide +kernel,
   by decide +kernel,
   by decide +kernel⟩
/-- More clauses of `Obligations.CodecJobsRunFromTheRing`. -/
theorem wit_CodecJobsRunFromTheRing_2 : (served st104 F.CDC_CTRL_abort.off true ∧ st104.cdc.job = some (({ job0 with busy := false, stop := 4, abort := some 1 } : Job)) ∧ (({ job0 with busy := false, stop := 4, abort := some 1 } : Job)).ended = none ∧ st104.cdc.cmpWait.any (fun r => r.tag == .job) = false ∧ st104.cdc.decWait.any (fun r => r.tag == .job) = false ∧ jobFresh st104 (({ job0 with busy := false, stop := 4, abort := some 1 } : Job)) = false) := by unfold served; decide +kernel
/-- Hypotheses of `Obligations.CommitGoLatchesACheckedSet` are met, clause by clause. -/
theorem wit_CommitGoLatchesACheckedSet :
    (served pan F.SCN_COMMIT_go.off true ∧ timingOk (wrB pan F.SCN_COMMIT_err false) (F.SCN_ACTIVE_width_m1.ofWord (rdShW pan F.SCN_ACTIVE.off) + 1) (F.SCN_ACTIVE_height_m1.ofWord (rdShW pan F.SCN_ACTIVE.off) + 1) (F.SCN_LINE_q_min.ofWord (rdShW pan F.SCN_LINE.off)) (F.SCN_VBLANK_v_min.ofWord (rdShW pan F.SCN_VBLANK.off)) = false) ∧
    (served st111 F.SCN_COMMIT_go.off true ∧ timingOk (wrB st111 F.SCN_COMMIT_err false) (F.SCN_ACTIVE_width_m1.ofWord (rdShW st111 F.SCN_ACTIVE.off) + 1) (F.SCN_ACTIVE_height_m1.ofWord (rdShW st111 F.SCN_ACTIVE.off) + 1) (F.SCN_LINE_q_min.ofWord (rdShW st111 F.SCN_LINE.off)) (F.SCN_VBLANK_v_min.ofWord (rdShW st111 F.SCN_VBLANK.off)) = true ∧ st111.scn.set = none ∧ st111.scn.prev = none) :=
  ⟨by unfold served; decide +kernel,
   by unfold served; decide +kernel⟩
/-- Hypotheses of `Obligations.CommitPointsPutShadowsInEffect` are met, clause by clause. -/
theorem wit_CommitPointsPutShadowsInEffect :
    ((allPasses st112).any (fun p => p.ended && p.start + p.dur = st112.tick) = true ∧ st112.scn.set = some ((⟨[(F.SCN_BG0.off, 77#32)], some 1050, none, none⟩ : CommitSet)) ∧ st112.scn.nsl = none ∧ ((⟨[(F.SCN_BG0.off, 77#32)], some 1050, none, none⟩ : CommitSet)).v = some 1050 ∧ 1050 < st112.tick) ∧
    (st113.tmb.pic.isSome = true ∧ st113.tmb.bound = st113.tick ∧ rd st113 F.EXS_STATUS_late = 0 ∧ st113.scn.set = some ((⟨[((F.EXS_CAM_ANGLE_angle 0).off, 1400#32)], none, some 1050, none⟩ : CommitSet)) ∧ st113.scn.nsl = none ∧ ((⟨[((F.EXS_CAM_ANGLE_angle 0).off, 1400#32)], none, some 1050, none⟩ : CommitSet)).s = some 1050 ∧ 1050 < st113.tick ∧ ((⟨[((F.EXS_CAM_ANGLE_angle 0).off, 1400#32)], none, some 1050, none⟩ : CommitSet)).n = none) :=
  ⟨by decide +kernel,
   by decide +kernel⟩
/-- Hypotheses of `Obligations.RefreshStartResolvesEverySlot` are met, clause by clause. -/
theorem wit_RefreshStartResolvesEverySlot :
    (firstPass st114 (fun p => !p.started && !p.repeats) = some (pass0 1000)) ∧
    (firstPass up (fun p => !p.started && !p.repeats) = none) ∧
    (firstPass st116 (fun p => !p.latched) = some (pass0 1000)) ∧
    (firstPass up (fun p => !p.latched) = none) :=
  ⟨by decide +kernel,
   by decide +kernel,
   by decide +kernel,
   by decide +kernel⟩
/-- Hypotheses of `Obligations.StripsAndRowsAreTakenInOrder` are met, clause by clause. -/
theorem wit_StripsAndRowsAreTakenInOrder :
    (st118.scn.runs.find? stripDue = some (({ run0 with due := [1, 0, 2, 0, 1, 1], begun := [0, 0, 0, 0, 0, 0] } : Run))) ∧
    (up.scn.runs.find? stripDue = none) ∧
    (st120.scn.runs.find? (fun u => decide (u.yTake < u.h)) = some (({ run0 with prog := [true, false] } : Run)) ∧ (({ run0 with prog := [true, false] } : Run)).yTake + 1 < (({ run0 with prog := [true, false] } : Run)).h) ∧
    (up.scn.runs.find? (fun u => decide (u.yTake < u.h)) = none) :=
  ⟨by decide +kernel,
   by decide +kernel,
   by decide +kernel,
   by decide +kernel⟩
/-- Hypotheses of `Obligations.ScanEndsAndRepeatPass` are met, clause by clause. -/
theorem wit_ScanEndsAndRepeatPass :
    (firstPass st123 (fun p => p.started && !p.ended) = some { pass0 1000 with started := true }) ∧
    (firstPass up (fun p => p.started && !p.ended) = none) ∧
    (st125.scn.nsl = some ((⟨2, 3276800000, true, 5000, 9000, false, 20000⟩ : Nsl)) ∧ ((⟨2, 3276800000, true, 5000, 9000, false, 20000⟩ : Nsl)).begun = false) ∧
    (st126.scn.nsl = some ((⟨2, 3276800000, true, 5000, 9000, true, 20000⟩ : Nsl)) ∧ ((⟨2, 3276800000, true, 5000, 9000, true, 20000⟩ : Nsl)).begun = true) ∧
    (up.scn.nsl = none) :=
  ⟨by decide +kernel,
   by decide +kernel,
   by decide +kernel,
   by decide +kernel,
   by decide +kernel⟩
/-- Hypotheses of `Obligations.SensorCycleSetsTemperatureAndBand` are met, clause by clause. -/
theorem wit_SensorCycleSetsTemperatureAndBand :
    (on st128 (F.PPX_SNS_en 0) = true ∧ snsTemp ((([some 5120#16] ++ List.replicate 14 none ++ [some 0xFFFF#16] : List SnsRead)).getD 0 none) = some 320 ∧ on st128 (F.PPX_SNS_en 15) = true ∧ snsTemp ((([some 5120#16] ++ List.replicate 14 none ++ [some 0xFFFF#16] : List SnsRead)).getD 15 none) = some (-1)) ∧
    (on st129 (F.PPX_SNS_en 15) = true ∧ snsTemp ((([some 5120#16] ++ List.replicate 14 none ++ [none] : List SnsRead)).getD 15 none) = none ∧ (st129.ppx.sns.getD 15 ⟨false, 0, false⟩).valid = true ∧ (st129.ppx.sns.getD 15 ⟨false, 0, false⟩).fails = 1 ∧ st129.ppx.fresh = false) ∧
    (up.ppx.fresh = true) ∧
    (sensorList st132 (([some 5120#16] ++ List.replicate 14 none ++ [none] : List SnsRead)) ≠ [] ∧ st132.ppx.fresh = true) ∧
    (sensorList st133 (([some 5120#16] ++ List.replicate 14 none ++ [none] : List SnsRead)) ≠ [] ∧ st133.ppx.fresh = false ∧ on st133 (F.PPX_SNS_en 0) = true ∧ (st133.ppx.sns.getD 0 ⟨false, 0, false⟩).valid = true) ∧
    (sensorList st136 (([some 5120#16] ++ List.replicate 15 none : List SnsRead)) ≠ [] ∧ ((320 : Int)) = (if on st136 F.PPX_TEMP_CFG_agg then (sensorList st136 (([some 5120#16] ++ List.replicate 15 none : List SnsRead))).foldl max ((sensorList st136 (([some 5120#16] ++ List.replicate 15 none : List SnsRead))).headD 0) else (sensorList st136 (([some 5120#16] ++ List.replicate 15 none : List SnsRead))).sum / ((sensorList st136 (([some 5120#16] ++ List.replicate 15 none : List SnsRead))).length : Int)) ∧ st136.ppx.fresh = false ∧ on st136 (F.PPX_SNS_en 0) = true ∧ (st136.ppx.sns.getD 0 ⟨false, 0, false⟩).valid = true) :=
  ⟨by decide +kernel,
   by decide +kernel,
   by decide +kernel,
   by decide +kernel,
   by decide +kernel,
   by decide +kernel⟩
/-- More clauses of `Obligations.SensorCycleSetsTemperatureAndBand`. -/
theorem wit_SensorCycleSetsTemperatureAndBand_2 :
    (sensorList st137 (([some 5120#16] ++ List.replicate 15 none : List SnsRead)) ≠ [] ∧ ((320 : Int)) = (if on st137 F.PPX_TEMP_CFG_agg then (sensorList st137 (([some 5120#16] ++ List.replicate 15 none : List SnsRead))).foldl max ((sensorList st137 (([some 5120#16] ++ List.replicate 15 none : List SnsRead))).headD 0) else (sensorList st137 (([some 5120#16] ++ List.replicate 15 none : List SnsRead))).sum / ((sensorList st137 (([some 5120#16] ++ List.replicate 15 none : List SnsRead))).length : Int)) ∧ (st137.ppx.fresh = true ∨ (anyValid st137 = true ∧ (List.range 16).all (fun i => !on st137 (F.PPX_SNS_en i) || !(st137.ppx.sns.getD i ⟨false, 0, false⟩).valid) = true))) ∧
    (sensorList st128 ((List.replicate 16 none : List SnsRead)) = []) ∧
    (st143.ppx.noSince = some 100 ∧ st143.ppx.fellBack = false ∧ rd st143 F.PPX_TEMP_CFG_fb_band = bandNow st143) ∧
    (st144.ppx.noSince = some 100 ∧ st144.ppx.fellBack = false ∧ rd st144 F.PPX_TEMP_CFG_fb_band ≠ bandNow st144) ∧
    (st145.ppx.noSince = some 100 ∧ st145.ppx.fellBack = false) ∧
    (st146.ppx.noSince = some 100 ∧ st146.ppx.fellBack = true) :=
  ⟨by decide +kernel,
   by decide +kernel,
   by decide +kernel,
   by decide +kernel,
   by decide +kernel,
   by decide +kernel⟩
/-- More clauses of `Obligations.SensorCycleSetsTemperatureAndBand`. -/
theorem wit_SensorCycleSetsTemperatureAndBand_3 : (up.ppx.noSince = none) := by decide +kernel
/-- Hypotheses of `Obligations.TableWindowsReadAndWrite` are met, clause by clause. -/
theorem wit_TableWindowsReadAndWrite :
    (served st148 F.PPX_TBL_DATA_data.off false ∧ rd st148 F.PPX_TBL_SEL_table = 8 ∧ rd st148 F.PPX_TBL_IDX_index = 4095 ∧ 4095 < tblLen 8 ∧ tblIgnored st148 0 8 = false) ∧
    (served st149 F.PPX_TBL_DATA_data.off false ∧ rd st149 F.PPX_TBL_SEL_table = 8 ∧ rd st149 F.PPX_TBL_IDX_index = 4096 ∧ tblLen 8 ≤ 4096) ∧
    (served st151 F.PPX_TBL_DATA_data.off false ∧ rd st151 F.PPX_TBL_SEL_table = 8 ∧ rd st151 F.PPX_TBL_IDX_index = 0 ∧ 0 < tblLen 8 ∧ tblIgnored st151 0 8 = true) ∧
    (hostAnswers st153 = true ∧ rd st153 F.PPX_TBL_SEL_table = 8 ∧ 2 < tblLen 8) ∧
    (hostAnswers st154 = true ∧ tblLen 15 ≤ 131071 ∧ rd st154 F.PPX_TBL_IDX_index = 131071) ∧
    (served st155 F.AGE_TBL_DATA_data.off false ∧ rd st155 F.AGE_TBL_SEL_table = 0 ∧ rd st155 F.AGE_TBL_IDX_index = 47 ∧ 47 < ageTblLen 0 ∧ on st155 F.AGE_CFG_acc_en = false ∧ on st155 F.AGE_CFG_drz_en = false ∧ on st155 F.AGE_CFG_rb_en = false ∧ ageBusy st155 = false) :=
  ⟨by unfold served; decide +kernel,
   by unfold served; decide +kernel,
   by unfold served; decide +kernel,
   by decide +kernel,
   by decide +kernel,
   by unfold served; decide +kernel⟩
/-- More clauses of `Obligations.TableWindowsReadAndWrite`. -/
theorem wit_TableWindowsReadAndWrite_2 :
    (served st156 F.AGE_TBL_DATA_data.off false ∧ rd st156 F.AGE_TBL_SEL_table = 3 ∧ rd st156 F.AGE_TBL_IDX_index = 63 ∧ ageTblLen 3 ≤ 63) ∧
    (served st157 F.AGE_TBL_DATA_data.off false ∧ rd st157 F.AGE_TBL_SEL_table = 2 ∧ rd st157 F.AGE_TBL_IDX_index = 50 ∧ 50 < ageTblLen 2 ∧ on st157 F.AGE_CFG_acc_en = true) ∧
    (hostAnswers st158 = true ∧ rd st158 F.AGE_TBL_SEL_table = 1 ∧ 50 < ageTblLen 1) :=
  ⟨by unfold served; decide +kernel,
   by unfold served; decide +kernel,
   by decide +kernel⟩
/-- Hypotheses of `Obligations.CaptureSessionsAndChecksums` are met, clause by clause. -/
theorem wit_CaptureSessionsAndChecksums :
    (served st159 F.PPX_CAP_CTRL_arm.off true) ∧
    (served st160 F.PPX_CAP_CTRL_stop.off true ∧ st160.ppx.cap = some ((⟨0, 2, false, 0⟩ : Cap)) ∧ st160.ppx.capJobs = []) ∧
    (served st161 F.PPX_CAP_CTRL_stop.off true ∧ st161.ppx.cap = some ((⟨0, 2, false, 0⟩ : Cap)) ∧ st161.ppx.capJobs ≠ []) ∧
    (st162.ppx.capJobs = [((⟨3, 7, 4, 1, true, false, true, []⟩ : CapJob))] ∧ capOver st162 ((⟨3, 7, 4, 1, true, false, true, []⟩ : CapJob)) = true ∧ ((⟨3, 7, 4, 1, true, false, true, []⟩ : CapJob)).refused = true ∧ ((⟨3, 7, 4, 1, true, false, true, []⟩ : CapJob)).abandoned = false ∧ ((0x1060 : Nat)) = rd st162 F.PPX_CAP_REC_offset + 32 * (rd st162 F.PPX_CAP_STAT_recs % 2 ^ rd st162 F.PPX_CAP_REC_log2n)) ∧
    (st163.ppx.capJobs = [((⟨3, 7, 4, 1, false, false, true, (((List.range 3).flatMap (fun p => (List.range 4).map (fun i => (65536 * p + blkKey (i % 2) (i / 2), [7#8, 9#8])))).foldl (fun m x => sset [] m x.1 x.2) [])⟩ : CapJob))] ∧ capOver st163 ((⟨3, 7, 4, 1, false, false, true, (((List.range 3).flatMap (fun p => (List.range 4).map (fun i => (65536 * p + blkKey (i % 2) (i / 2), [7#8, 9#8])))).foldl (fun m x => sset [] m x.1 x.2) [])⟩ : CapJob)) = true ∧ ((0x1020 : Nat)) = rd st163 F.PPX_CAP_REC_offset + 32 * (rd st163 F.PPX_CAP_STAT_recs % 2 ^ rd st163 F.PPX_CAP_REC_log2n) ∧ ((⟨3, 7, 4, 1, false, false, true, (((List.range 3).flatMap (fun p => (List.range 4).map (fun i => (65536 * p + blkKey (i % 2) (i / 2), [7#8, 9#8])))).foldl (fun m x => sset [] m x.1 x.2) [])⟩ : CapJob)).refused = false ∧ (capBase st163 + 64 * rd st163 F.PPX_CAP_USED_granules) + ((List.range 3).flatMap (capSegment st163 ((⟨3, 7, 4, 1, false, false, true, (((List.range 3).flatMap (fun p => (List.range 4).map (fun i => (65536 * p + blkKey (i % 2) (i / 2), [7#8, 9#8])))).foldl (fun m x => sset [] m x.1 x.2) [])⟩ : CapJob)))).length ≤ memCap st163) ∧
    (st166.ppx.capJobs = [((⟨3, 7, 4, 1, true, false, false, []⟩ : CapJob))] ∧ capOver st166 ((⟨3, 7, 4, 1, true, false, false, []⟩ : CapJob)) = false) :=
  ⟨by unfold served; decide +kernel,
   by unfold served; decide +kernel,
   by unfold served; decide +kernel,
   by decide +kernel,
   by decide +kernel,
   by decide +kernel⟩
/-- More clauses of `Obligations.CaptureSessionsAndChecksums`. -/
theorem wit_CaptureSessionsAndChecksums_2 :
    (st167.ppx.capJobs = [((⟨3, 7, 4, 1, true, false, true, []⟩ : CapJob))] ∧ ((⟨3, 7, 4, 1, true, false, true, []⟩ : CapJob)).abandoned ≠ true) ∧
    (up.ppx.capJobs = []) ∧
    (hostAnswers st169 = true) ∧
    (strobeNext st170 0 true ≠ none) ∧
    (strobeNext st172 0 false ≠ none) ∧
    (strobeNext up 0 true = none) :=
  ⟨by decide +kernel,
   by decide +kernel,
   by decide +kernel,
   by decide +kernel,
   by decide +kernel,
   by decide +kernel⟩
/-- Hypotheses of `Obligations.StressCountersTakeDrivenRows` are met, clause by clause. -/
theorem wit_StressCountersTakeDrivenRows :
    (st174.scn.runs.find? (accReady st174) = some (({ run0 with accDue := true, yTake := 64, prog := (List.replicate 64 false) } : Run)) ∧ (({ run0 with accDue := true, yTake := 64, prog := (List.replicate 64 false) } : Run)).w = panelW st174 ∧ (({ run0 with accDue := true, yTake := 64, prog := (List.replicate 64 false) } : Run)).h = panelH st174 ∧ (List.range 2).all (fun X => (List.range 64).all (fun Y => (List.range 3).all (fun c => decide (stressAddr st174 (63 * X) Y c + 4 ≤ memCap st174) && !readPoisoned st174 6 (stressAddr st174 (63 * X) Y c) 4))) = true) ∧
    (up.scn.runs.find? (accReady up) = none) :=
  ⟨by decide +kernel,
   by decide +kernel⟩
/-- Hypotheses of `Obligations.DrizzleTokensSlotsAndResults` are met, clause by clause. -/
theorem wit_DrizzleTokensSlotsAndResults :
    (drizzleOn st177 = true) ∧
    (drizzleOn up = false) ∧
    ((allSlots st180).find? (fun x => !x.started) = some ((⟨5000, 6000, 9, false, false⟩ : SenseSlot))) ∧
    ((allSlots up).find? (fun x => !x.started) = none) ∧
    ((allSlots st182).find? (fun x => x.started && !x.ended) = some ((⟨5000, 6000, 9, true, false⟩ : SenseSlot)) ∧ st182.age.rows.find? (fun r => r.row = ((⟨5000, 6000, 9, true, false⟩ : SenseSlot)).row && r.slotEnd = ((⟨5000, 6000, 9, true, false⟩ : SenseSlot)).b) = some (({ row := 9, tag := 3, slotEnd := 6000, deadline := 30000, got := [], asked := false } : SenseRow)) ∧ 0 ∈ liveGroups st182) ∧
    ((allSlots up).find? (fun x => x.started && !x.ended) = none) :=
  ⟨by decide +kernel,
   by decide +kernel,
   by decide +kernel,
   by decide +kernel,
   by decide +kernel,
   by decide +kernel⟩
/-- More clauses of `Obligations.DrizzleTokensSlotsAndResults`. -/
theorem wit_DrizzleTokensSlotsAndResults_2 :
    (st184.age.rows.find? (fun r => rowComplete st184 r && decide (st184.tick ≤ r.deadline)) = some (({ row := 9, tag := 3, slotEnd := 6000, deadline := 30000, got := [(0, [])], asked := false } : SenseRow)) ∧ rd st184 F.AGE_DRZ_STAT_cursor = (({ row := 9, tag := 3, slotEnd := 6000, deadline := 30000, got := [(0, [])], asked := false } : SenseRow)).row ∧ (({ row := 9, tag := 3, slotEnd := 6000, deadline := 30000, got := [(0, [])], asked := false } : SenseRow)).row + 1 < panelH st184 ∧ (({ row := 9, tag := 3, slotEnd := 6000, deadline := 30000, got := [(0, [])], asked := false } : SenseRow)).row + 1 ∉ st184.age.past ∧ (({ row := 9, tag := 3, slotEnd := 6000, deadline := 30000, got := [(0, [])], asked := false } : SenseRow)).row ∉ st184.age.past) ∧
    (st185.age.rows.find? (fun r => rowComplete st185 r && decide (st185.tick ≤ r.deadline)) = some (({ row := 9, tag := 3, slotEnd := 6000, deadline := 30000, got := [(0, [])], asked := false } : SenseRow))) ∧
    (st186.age.rows.find? (fun r => rowComplete st186 r && decide (st186.tick ≤ r.deadline)) = none) ∧
    (st187.age.rows = (({ row := 9, tag := 3, slotEnd := 6000, deadline := 30000, got := [], asked := false } : SenseRow)) :: [] ∧ (rd st187 F.AGE_DRZ_CFG_retry ≤ sget 0 st187.age.fails (({ row := 9, tag := 3, slotEnd := 6000, deadline := 30000, got := [], asked := false } : SenseRow)).row + 1)) ∧
    (st188.age.rows = (({ row := 9, tag := 3, slotEnd := 6000, deadline := 30000, got := [], asked := false } : SenseRow)) :: [] ∧ ¬(rd st188 F.AGE_DRZ_CFG_retry ≤ sget 0 st188.age.fails (({ row := 9, tag := 3, slotEnd := 6000, deadline := 30000, got := [], asked := false } : SenseRow)).row + 1)) ∧
    (up.age.rows = []) :=
  ⟨by decide +kernel,
   by decide +kernel,
   by decide +kernel,
   by decide +kernel,
   by decide +kernel,
   by decide +kernel⟩
/-- Hypotheses of `Obligations.CheckpointsStartEndAndRetry` are met, clause by clause. -/
theorem wit_CheckpointsStartEndAndRetry :
    (served st191 F.AGE_CTRL_ckpt.off true ∧ st191.age.held = none ∧ st191.age.ckpt = none ∧ st191.nv.xf = none ∧ ((0, 1) : Nat × Nat) = (match st191.age.newest with | some (n, m) => (1 - n, m + 1) | none => (0, 1))) ∧
    (st191.age.retryAt = some 500 ∧ st191.age.ckpt = none ∧ st191.nv.xf = none ∧ ((0, 1) : Nat × Nat) = (match st191.age.newest with | some (n, m) => (1 - n, m + 1) | none => (0, 1))) ∧
    (st191.age.emitAt = some 77 ∧ st191.age.ckpt = none ∧ st191.nv.xf = none ∧ ((0, 1) : Nat × Nat) = (match st191.age.newest with | some (n, m) => (1 - n, m + 1) | none => (0, 1))) ∧
    (served st200 F.AGE_CTRL_ckpt.off true ∧ st200.age.ckpt = some (({ slot := 0, seq := 5, kind := 0, pic := 9, hours := 3, plane := 2, next := 0, off := 0, used := 64, count := 0, dir := [], full := 0, bad := false } : Ckpt)) ∧ st200.age.held = none) ∧
    (served st201 F.AGE_CTRL_ckpt.off true ∧ st201.age.ckpt = some (({ slot := 0, seq := 5, kind := 0, pic := 9, hours := 3, plane := 2, next := 0, off := 0, used := 64, count := 0, dir := [], full := 0, bad := false } : Ckpt)) ∧ st201.age.held.isSome = true) ∧
    (st202.age.ckpt = some (({ slot := 0, seq := 5, kind := 0, pic := 9, hours := 3, plane := 2, next := 0, off := 0, used := 64, count := 0, dir := [], full := 0, bad := false } : Ckpt)) ∧ st202.age.emitAt = some 77) :=
  ⟨by unfold served; decide +kernel,
   by decide +kernel,
   by decide +kernel,
   by unfold served; decide +kernel,
   by unfold served; decide +kernel,
   by decide +kernel⟩
/-- More clauses of `Obligations.CheckpointsStartEndAndRetry`. -/
theorem wit_CheckpointsStartEndAndRetry_2 :
    (up.age.emitAt = none) ∧
    (up.age.retryAt = none) ∧
    (st206.age.ckpt = some (({ slot := 0, seq := 5, kind := 0, pic := 9, hours := 3, plane := 6, next := 0, off := 0, used := 64, count := 0, dir := [], full := 0, bad := false } : Ckpt)) ∧ st206.age.held = none ∧ st206.nv.xfHeld = [] ∧ psqState st206 ≠ psRAILS_DOWN ∧ (({ slot := 0, seq := 5, kind := 0, pic := 9, hours := 3, plane := 6, next := 0, off := 0, used := 64, count := 0, dir := [], full := 0, bad := false } : Ckpt)).bad = false ∧ 6 ≤ (({ slot := 0, seq := 5, kind := 0, pic := 9, hours := 3, plane := 6, next := 0, off := 0, used := 64, count := 0, dir := [], full := 0, bad := false } : Ckpt)).plane) ∧
    (st207.age.ckpt = some (({ slot := 0, seq := 5, kind := 0, pic := 9, hours := 3, plane := 3, next := 0, off := 0, used := 64, count := 0, dir := [], full := 0, bad := false } : Ckpt)) ∧ st207.age.held = none ∧ st207.nv.xfHeld = [] ∧ psqState st207 ≠ psRAILS_DOWN) ∧
    (st209.age.ckpt = some (({ slot := 0, seq := 5, kind := 2, pic := 9, hours := 3, plane := 3, next := 0, off := 0, used := 64, count := 0, dir := [], full := 0, bad := false } : Ckpt)) ∧ st209.age.held = none ∧ st209.nv.xfHeld = [] ∧ psqState st209 ≠ psRAILS_DOWN ∧ st209.age.shutBy = some 900 ∧ (({ slot := 0, seq := 5, kind := 2, pic := 9, hours := 3, plane := 3, next := 0, off := 0, used := 64, count := 0, dir := [], full := 0, bad := false } : Ckpt)).kind = 2) ∧
    (rd up F.AGE_CFG_rb_en = 0) :=
  ⟨by decide +kernel,
   by decide +kernel,
   by decide +kernel,
   by decide +kernel,
   by decide +kernel,
   by decide +kernel⟩
/-- More clauses of `Obligations.CheckpointsStartEndAndRetry`. -/
theorem wit_CheckpointsStartEndAndRetry_3 :
    (rd st211 F.AGE_CFG_rb_en = 1 ∧ outputsRun st211 = false ∧ st211.age.rebuilt = false) ∧
    (rd st212 F.AGE_CFG_rb_en = 1 ∧ outputsRun st212 = true ∧ st212.age.rbHeld = none ∧ rd st212 F.AGE_REBUILD_per_pic - st212.age.rbUsed = 1 ∧ st212.age.rbBlock = 3 ∧ blkKey 1 1 = blkKey (3 % panelBW st212) (3 / panelBW st212) ∧ queueOf st212 (blkKey 1 1) = []) :=
  ⟨by decide +kernel,
   by decide +kernel⟩
/-- Hypotheses of `Obligations.RunningHoursAreTallied` are met, clause by clause. -/
theorem wit_RunningHoursAreTallied :
    (st213.age.emitAt = some 50 ∧ cntBase st213 (nvmFuture st213) 1 = some (0, 1) ∧ ((List.range 32).filter (fun g => tallyCounts st213 (nvmFuture st213) 1 1 g)).length = 1) ∧
    (st214.age.emitAt = some 50) ∧
    (up.age.emitAt = none) ∧
    (st216.age.onAt = some 50 ∧ cntBase st216 (nvmFuture st216) 0 = some (0, 1) ∧ ((List.range 32).filter (fun g => tallyCounts st216 (nvmFuture st216) 0 1 g)).length = 1) ∧
    (st217.age.onAt = some 50) ∧
    (up.age.onAt = none) :=
  ⟨by decide +kernel,
   by decide +kernel,
   by decide +kernel,
   by decide +kernel,
   by decide +kernel,
   by decide +kernel⟩
/-- Hypotheses of `Obligations.SlotsCarryRowsAndIdlePackets` are met, clause by clause. -/
theorem wit_SlotsCarryRowsAndIdlePackets :
    (st219.scn.runs.find? (fun q => decide (q.ySlot < q.h)) = some (({ run0 with lines := [(3, none), (4, none)], ySlot := 3, cfg := (setF pan [(F.DRV_GROUPS_en, 3), (F.DRV_CFG_n_ch, 96), (F.DRV_CFG_rate, 2), (F.DRV_CFG_d12, 1)]).reg } : Run)) ∧ (({ run0 with lines := [(3, none), (4, none)], ySlot := 3, cfg := (setF pan [(F.DRV_GROUPS_en, 3), (F.DRV_CFG_n_ch, 96), (F.DRV_CFG_rate, 2), (F.DRV_CFG_d12, 1)]).reg } : Run)).lines = (3, ((none : Option (List Nat)))) :: [(4, none)] ∧ liveGroups st219 ≠ [] ∧ liveGroups (slotEnd st219) ≠ []) ∧
    (liveGroups st221 ≠ [] ∧ liveGroups (slotEnd st221) ≠ [] ∧ (nextGap (slotEnd st221) (max (slotEnd st221).drv.slotFrom ((slotEnd st221).tick - lOut))).isSome = true) ∧
    (liveGroups st223 ≠ [] ∧ nextGap (slotEnd st223) (max (slotEnd st223).drv.slotFrom ((slotEnd st223).tick - lOut)) = none) ∧
    (st224.drv.slotAt = some 400 ∧ 0 ∈ liveGroups st224 ∧ rd st224 (F.DRV_GRP_STAT_spare_ok 0) = 1 ∧ rd st224 (F.DRV_GRP_STAT_spare_active 0) = 0 ∧ max 1 (rd st224 F.DRV_TAKEOVER_tx_thr) ≤ (grp st224 0).det.getD 1 0 ∧ max 1 (rd st224 F.DRV_TAKEOVER_tx_thr) ≤ (grp st224 0).det.getD 3 0 ∧ bitOf st224 F.DRV_GRP_FAIL_failed 0 = false ∧ st224.psq.safe = none ∧ psqState st224 = psLINK) ∧
    (st225.drv.slotAt = some 400 ∧ 0 ∈ liveGroups st225 ∧ rd st225 (F.DRV_GRP_STAT_spare_ok 0) = 1 ∧ rd st225 (F.DRV_GRP_STAT_spare_active 0) = 0 ∧ max 1 (rd st225 F.DRV_TAKEOVER_tx_thr) ≤ (grp st225 0).det.getD 1 0 ∧ max 1 (rd st225 F.DRV_TAKEOVER_tx_thr) ≤ (grp st225 0).det.getD 3 0 ∧ bitOf st225 F.DRV_GRP_FAIL_failed 0 = false ∧ st225.psq.safe = none ∧ psqState st225 ≠ psLINK) ∧
    (liveGroups st224 ≠ [] ∧ liveGroups (slotEnd st224) = []) :=
  ⟨by decide +kernel,
   by decide +kernel,
   by decide +kernel,
   by decide +kernel,
   by decide +kernel,
   by decide +kernel⟩
/-- More clauses of `Obligations.SlotsCarryRowsAndIdlePackets`. -/
theorem wit_SlotsCarryRowsAndIdlePackets_2 :
    (st227.drv.slotAt = some 400 ∧ psqState st227 = psLINK ∧ (∀ g ∈ liveGroups st227, (grp st227 g).rxTake = none ∧ ((List.range 4).filter (fun k => decide (max 1 (rd st227 F.DRV_TAKEOVER_tx_thr) ≤ (grp st227 g).det.getD k 0))).length ≤ 1)) ∧
    (liveGroups pan = []) ∧
    (st229.drv.slotAt = some 400 ∧ 0 ∈ liveGroups st229 ∧ rd st229 (F.DRV_GRP_STAT_spare_ok 0) = 1 ∧ rd st229 (F.DRV_GRP_STAT_spare_active 0) = 0 ∧ (grp st229 0).rxTake = none ∧ (∀ k ∈ List.range 4, ((0 < (grp st229 0).det.getD k 0 ∧ rd st229 F.DRV_TAKEOVER_tx_thr ≤ (grp st229 0).det.getD k 0) ↔ k = 2))) ∧
    (st231.drv.slotAt = some 400 ∧ 1 ∈ liveGroups st231 ∧ (grp st231 1).rxTake = none ∧ (∀ k ∈ List.range 4, (grp st231 1).det.getD k 0 < max 1 (rd st231 F.DRV_TAKEOVER_tx_thr))) ∧
    (st232.drv.slotAt = none) :=
  ⟨by decide +kernel,
   by decide +kernel,
   by decide +kernel,
   by decide +kernel,
   by decide +kernel⟩
/-- Hypotheses of `Obligations.PinEdgesFollowTheirFunctions` are met, clause by clause. -/
theorem wit_PinEdgesFollowTheirFunctions :
    (1 ≤ rd st233 (F.DRV_GT_CFG_func 3) ∧ rd st233 (F.DRV_GT_CFG_func 3) ≤ 6 ∧ psBLACK ≤ psqState st233 ∧ psqState st233 ≤ psBLACK_OFF ∧ nextEdge (gtMade st233 3) (st233.drv.gt / 2 ^ 3 % 2 == 1) (st233.drv.gtAt.getD 3 0) = some 890) ∧
    (rd st239 (F.DRV_GT_CFG_func 3) ≤ 6 ∧ psBLACK ≤ psqState st239 ∧ psqState st239 ≤ psBLACK_OFF ∧ 1 ≤ rd st239 (F.DRV_GT_CFG_func 3) ∧ nextEdge (gtMade st239 3) (st239.drv.gt / 2 ^ 3 % 2 == 1) (st239.drv.gtAt.getD 3 0) = none) ∧
    (rd st240 (F.DRV_GT_CFG_func 3) = 7 ∨ rd st240 (F.DRV_GT_CFG_func 3) = 0 ∨ (rd st240 (F.DRV_GT_CFG_func 3) < 7 ∧ (psqState st240 < psBLACK ∨ psBLACK_OFF < psqState st240))) ∧
    (1 ≤ rd st245 (F.DRV_EM_CFG_func 15) ∧ rd st245 (F.DRV_EM_CFG_func 15) ≤ 3 ∧ (psqState st245 = psON ∨ (emStop st245).isSome = true) ∧ nextEdge (emSpans st245 15) (st245.drv.em / 2 ^ 15 % 2 == 1) (st245.drv.emAt.getD 15 0) = some 2995) ∧
    (1 ≤ rd st249 (F.DRV_EM_CFG_func 15) ∧ rd st249 (F.DRV_EM_CFG_func 15) ≤ 3 ∧ (psqState st249 = psON ∨ (emStop st249).isSome = true) ∧ (nextEdge (emSpans st249 15) (st249.drv.em / 2 ^ 15 % 2 == 1) (st249.drv.emAt.getD 15 0)).isSome = true) ∧
    (rd st250 (F.DRV_EM_CFG_func 15) = 4 ∨ rd st250 (F.DRV_EM_CFG_func 15) = 0 ∨ (rd st250 (F.DRV_EM_CFG_func 15) < 4 ∧ psqState st250 ≠ psON ∧ emStop st250 = none)) :=
  ⟨by decide +kernel,
   by decide +kernel,
   by decide +kernel,
   by decide +kernel,
   by decide +kernel,
   by decide +kernel⟩
/-- More clauses of `Obligations.PinEdgesFollowTheirFunctions`. -/
theorem wit_PinEdgesFollowTheirFunctions_2 : (1 ≤ rd st254 (F.DRV_EM_CFG_func 15) ∧ rd st254 (F.DRV_EM_CFG_func 15) ≤ 3 ∧ (psqState st254 = psON ∨ (emStop st254).isSome = true) ∧ nextEdge (emSpans st254 15) (st254.drv.em / 2 ^ 15 % 2 == 1) (st254.drv.emAt.getD 15 0) = none) := by decide +kernel
/-- Hypotheses of `Obligations.ColumnLinkTrainsAndFails` are met, clause by clause. -/
theorem wit_ColumnLinkTrainsAndFails :
    (((psqState st255 = psLINK ∧ rd st255 F.DRV_STATUS_training = 0 ∧ st255.drv.held = false) ∨ (served st255 F.DRV_CTRL_retrain.off true ∧ outputsRun st255 = false ∧ st255.boot.imageOk = true)) ∧ st255.drv.stopping = false ∧ groupsInUse st255 ≠ []) ∧
    (served st257 F.DRV_CTRL_retrain.off true ∧ (outputsRun st257 = true ∨ st257.boot.imageOk = false) ∧ psqState st257 ≠ psLINK) ∧
    (0 ∈ groupsInUse st259 ∧ bitOf st259 F.DRV_GRP_FAIL_failed 0 = false ∧ (grp st259 0).step = 1 ∧ phyOn st259 0 = true) ∧
    (0 ∈ groupsInUse st260 ∧ bitOf st260 F.DRV_GRP_FAIL_failed 0 = false ∧ (grp st260 0).step = 1 ∧ phyOn st260 0 = false) ∧
    (0 ∈ groupsInUse st261 ∧ bitOf st261 F.DRV_GRP_FAIL_failed 0 = false ∧ (grp st261 0).step = 2) ∧
    (0 ∈ groupsInUse st262 ∧ bitOf st262 F.DRV_GRP_FAIL_failed 0 = false ∧ (grp st262 0).step = 3 ∧ (grp st262 0).lock = 31 ∧ (grp st262 0).deskew = true) :=
  ⟨by unfold served; decide +kernel,
   by unfold served; decide +kernel,
   by decide +kernel,
   by decide +kernel,
   by decide +kernel,
   by decide +kernel⟩
/-- More clauses of `Obligations.ColumnLinkTrainsAndFails`. -/
theorem wit_ColumnLinkTrainsAndFails_2 :
    (0 ∈ groupsInUse st263 ∧ bitOf st263 F.DRV_GRP_FAIL_failed 0 = false ∧ (grp st263 0).step = 3 ∧ (grp st263 0).lock = 31 - 2 ^ 3 ∧ (grp st263 0).deskew = true) ∧
    (0 ∈ groupsInUse st264 ∧ bitOf st264 F.DRV_GRP_FAIL_failed 0 = false ∧ (grp st264 0).step = 3 ∧ (grp st264 0).deskew = false) ∧
    (0 ∈ groupsInUse st265 ∧ bitOf st265 F.DRV_GRP_FAIL_failed 0 = false ∧ (grp st265 0).step = 3 ∧ 2 ≤ ((List.range 4).filter (fun l => (grp st265 0).lock / 2 ^ l % 2 = 0)).length) ∧
    (0 ∈ groupsInUse st266 ∧ bitOf st266 F.DRV_GRP_FAIL_failed 0 = false ∧ (grp st266 0).step = 3 ∧ (grp st266 0).lock / 16 % 2 = 0 ∧ (grp st266 0).lock % 16 ≠ 15) ∧
    (0 ∈ groupsInUse st267 ∧ bitOf st267 F.DRV_GRP_FAIL_failed 0 = false ∧ (grp st267 0).step = 5 ∧ psqState st267 ≠ psLINK) ∧
    (0 ∈ groupsInUse st268 ∧ bitOf st268 F.DRV_GRP_FAIL_failed 0 = false ∧ (grp st268 0).step = 5 ∧ psqState st268 = psLINK ∧ st268.psq.offReq = false ∧ (∀ k ∈ groupsInUse st268, k = 0 ∨ grpLive st268 k = true ∨ bitOf st268 F.DRV_GRP_FAIL_failed k = true)) :=
  ⟨by decide +kernel,
   by decide +kernel,
   by decide +kernel,
   by decide +kernel,
   by decide +kernel,
   by decide +kernel⟩
/-- More clauses of `Obligations.ColumnLinkTrainsAndFails`. -/
theorem wit_ColumnLinkTrainsAndFails_3 :
    (0 ∈ groupsInUse st270 ∧ 2 ≤ (grp st270 0).step ∧ (∀ a ∈ st270.drv.slotAt, st270.tick < a + st270.drv.slotLen + lOut) ∧ (rd st270 (F.DRV_GRP_STAT_spare_active 0) = 1 ∧ 2 = rd st270 (F.DRV_GRP_STAT_spare_lane 0))) ∧
    (0 ∈ groupsInUse st271 ∧ 2 ≤ (grp st271 0).step ∧ (∀ a ∈ st271.drv.slotAt, st271.tick < a + st271.drv.slotLen + lOut) ∧ ¬(rd st271 (F.DRV_GRP_STAT_spare_active 0) = 1 ∧ 1 = rd st271 (F.DRV_GRP_STAT_spare_lane 0))) ∧
    (st274.drv.slotAt = some 400 ∧ 400 + st274.drv.slotLen + lOut ≤ st274.tick ∧ 2 ≤ (grp st274 0).step) ∧
    (st275.drv.slotAt = some 400 ∧ 400 + st275.drv.slotLen + lOut ≤ st275.tick ∧ 2 ≤ (grp st275 9).step ∧ 9 ∉ groupsInUse st275) ∧
    ((grp pan 7).step < 2 ∨ 7 ∉ groupsInUse pan) ∧
    (0 ∈ groupsInUse st277 ∧ 2 ≤ (grp st277 0).step ∧ (∀ a ∈ st277.drv.slotAt, st277.tick < a + st277.drv.slotLen + lOut) ∧ rd st277 (F.DRV_GRP_STAT_spare_active 0) = 1 ∧ ¬(1 = rd st277 (F.DRV_GRP_STAT_spare_lane 0)) ∧ psqState st277 = psLINK ∧ bitOf st277 F.DRV_GRP_FAIL_failed 0 = false ∧ st277.psq.safe = none) :=
  ⟨by decide +kernel,
   by decide +kernel,
   by decide +kernel,
   by decide +kernel,
   by decide +kernel,
   by decide +kernel⟩
/-- Hypotheses of `Obligations.BackChannelAsksAndHears` are met, clause by clause. -/
theorem wit_BackChannelAsksAndHears :
    (st278.drv.reqs = ((⟨2, 1, 9, 0, 0, 0, 0, 4000⟩ : BackReq)) :: [] ∧ (true && frameGood st278 ((⟨2, 1, 9, 0, 0, 0, 0, 4000⟩ : BackReq)) ([1#8])) = false ∧ (grp st278 ((⟨2, 1, 9, 0, 0, 0, 0, 4000⟩ : BackReq)).group).step ≠ 3 ∧ on st278 (F.DRV_GRP_STAT_up ((⟨2, 1, 9, 0, 0, 0, 0, 4000⟩ : BackReq)).group) = false ∧ ((⟨2, 1, 9, 0, 0, 0, 0, 4000⟩ : BackReq)).kind ≠ 0) ∧
    (st278.drv.reqs = ((⟨2, 1, 9, 0, 0, 0, 0, 4000⟩ : BackReq)) :: [] ∧ True ∧ (grp st278 ((⟨2, 1, 9, 0, 0, 0, 0, 4000⟩ : BackReq)).group).step ≠ 3 ∧ on st278 (F.DRV_GRP_STAT_up ((⟨2, 1, 9, 0, 0, 0, 0, 4000⟩ : BackReq)).group) = false ∧ ((⟨2, 1, 9, 0, 0, 0, 0, 4000⟩ : BackReq)).kind ≠ 0) ∧
    (served st280 F.DRV_CTRL_send_cfg.off true ∧ rd st280 F.DRV_STATUS_cfg_busy = 0) ∧
    (rd st282 F.DRV_STATUS_cfg_busy = 1 ∧ st282.drv.queue.all (fun p => p.prec != 5) = true ∧ cfgTraining st282 = false ∧ st282.drv.cfgHeld = false) ∧
    (rd st284 F.PSQ_MON_EN_en ≠ 0 ∧ psBLACK ≤ psqState st284 ∧ psqState st284 ≤ psBLACK_OFF) ∧
    (rd st285 F.PSQ_MON_EN_en = 0 ∨ psqState st285 < psBLACK ∨ psBLACK_OFF < psqState st285) :=
  ⟨by decide +kernel,
   by decide +kernel,
   by unfold served; decide +kernel,
   by decide +kernel,
   by decide +kernel,
   by decide +kernel⟩
/-- More clauses of `Obligations.BackChannelAsksAndHears`. -/
theorem wit_BackChannelAsksAndHears_2 :
    (st288.drv.reqs = ((⟨0, 1, 9, 33, 0, 0, 0, 4000⟩ : BackReq)) :: [] ∧ frameGood st288 ((⟨0, 1, 9, 33, 0, 0, 0, 4000⟩ : BackReq)) (let b := beBytes (0 * 2 ^ 28 + 1 * 2 ^ 23 + 9) 4 ++ (beBytes (0 * 2 ^ 29 + 490) 4 ++ beBytes (5 * 2 ^ 29 + 600) 4); b ++ beBytes (crc16 b) 2) = true ∧ ((beBytes (0 * 2 ^ 29 + 490) 4 ++ beBytes (5 * 2 ^ 29 + 600) 4)) = ((let b := beBytes (0 * 2 ^ 28 + 1 * 2 ^ 23 + 9) 4 ++ (beBytes (0 * 2 ^ 29 + 490) 4 ++ beBytes (5 * 2 ^ 29 + 600) 4); b ++ beBytes (crc16 b) 2).take ((let b := beBytes (0 * 2 ^ 28 + 1 * 2 ^ 23 + 9) 4 ++ (beBytes (0 * 2 ^ 29 + 490) 4 ++ beBytes (5 * 2 ^ 29 + 600) 4); b ++ beBytes (crc16 b) 2).length - 2)).drop 4 ∧ (∀ k ∈ List.range (bitList ((⟨0, 1, 9, 33, 0, 0, 0, 4000⟩ : BackReq)).mask 8).length, ofBe (slice ((beBytes (0 * 2 ^ 29 + 490) 4 ++ beBytes (5 * 2 ^ 29 + 600) 4)) (4 * k) 4) % 2 ^ 16 ≤ rd st288 (F.PSQ_MON_expect (ofBe (slice ((beBytes (0 * 2 ^ 29 + 490) 4 ++ beBytes (5 * 2 ^ 29 + 600) 4)) (4 * k) 4) / 2 ^ 29)) + rd st288 (F.PSQ_MON_tol (ofBe (slice ((beBytes (0 * 2 ^ 29 + 490) 4 ++ beBytes (5 * 2 ^ 29 + 600) 4)) (4 * k) 4) / 2 ^ 29)) ∧ rd st288 (F.PSQ_MON_expect (ofBe (slice ((beBytes (0 * 2 ^ 29 + 490) 4 ++ beBytes (5 * 2 ^ 29 + 600) 4)) (4 * k) 4) / 2 ^ 29)) ≤ ofBe (slice ((beBytes (0 * 2 ^ 29 + 490) 4 ++ beBytes (5 * 2 ^ 29 + 600) 4)) (4 * k) 4) % 2 ^ 16 + rd st288 (F.PSQ_MON_tol (ofBe (slice ((beBytes (0 * 2 ^ 29 + 490) 4 ++ beBytes (5 * 2 ^ 29 + 600) 4)) (4 * k) 4) / 2 ^ 29)))) ∧
    (st289.drv.reqs = ((⟨2, 1, 9, 0, 0, 0, 0, 4000⟩ : BackReq)) :: [] ∧ frameGood st289 ((⟨2, 1, 9, 0, 0, 0, 0, 4000⟩ : BackReq)) (let b := beBytes (2 * 2 ^ 28 + 1 * 2 ^ 23 + 9) 4 ++ (beBytes (31 + 32) 4 ++ List.replicate 8 1#8); b ++ beBytes (crc16 b) 2) = true ∧ ((beBytes (31 + 32) 4 ++ List.replicate 8 1#8)) = ((let b := beBytes (2 * 2 ^ 28 + 1 * 2 ^ 23 + 9) 4 ++ (beBytes (31 + 32) 4 ++ List.replicate 8 1#8); b ++ beBytes (crc16 b) 2).take ((let b := beBytes (2 * 2 ^ 28 + 1 * 2 ^ 23 + 9) 4 ++ (beBytes (31 + 32) 4 ++ List.replicate 8 1#8); b ++ beBytes (crc16 b) 2).length - 2)).drop 4) ∧
    (st292.drv.reqs = ((⟨2, 1, 9, 0, 0, 0, 0, 4000⟩ : BackReq)) :: [] ∧ (true && frameGood st292 ((⟨2, 1, 9, 0, 0, 0, 0, 4000⟩ : BackReq)) ([1#8])) = false ∧ (grp st292 ((⟨2, 1, 9, 0, 0, 0, 0, 4000⟩ : BackReq)).group).step ≠ 3 ∧ on st292 (F.DRV_GRP_STAT_up ((⟨2, 1, 9, 0, 0, 0, 0, 4000⟩ : BackReq)).group) = true) ∧
    (st292.drv.reqs = ((⟨2, 1, 9, 0, 0, 0, 0, 4000⟩ : BackReq)) :: [] ∧ (false && frameGood st292 ((⟨2, 1, 9, 0, 0, 0, 0, 4000⟩ : BackReq)) (let b := beBytes (2 * 2 ^ 28 + 1 * 2 ^ 23 + 9) 4 ++ (beBytes (31 + 32) 4 ++ List.replicate 8 1#8); b ++ beBytes (crc16 b) 2)) = false ∧ (grp st292 ((⟨2, 1, 9, 0, 0, 0, 0, 4000⟩ : BackReq)).group).step ≠ 3 ∧ on st292 (F.DRV_GRP_STAT_up ((⟨2, 1, 9, 0, 0, 0, 0, 4000⟩ : BackReq)).group) = true) ∧
    (st292.drv.reqs = ((⟨2, 1, 9, 0, 0, 0, 0, 4000⟩ : BackReq)) :: [] ∧ True ∧ (grp st292 ((⟨2, 1, 9, 0, 0, 0, 0, 4000⟩ : BackReq)).group).step ≠ 3 ∧ on st292 (F.DRV_GRP_STAT_up ((⟨2, 1, 9, 0, 0, 0, 0, 4000⟩ : BackReq)).group) = true) ∧
    (pan.drv.reqs = []) :=
  ⟨by decide +kernel,
   by decide +kernel,
   by decide +kernel,
   by decide +kernel,
   by decide +kernel,
   by decide +kernel⟩
/-- Hypotheses of `Obligations.PanelPowerRequests` are met, clause by clause. -/
theorem wit_PanelPowerRequests :
    (served st299 F.PSQ_CTRL_on.off true ∧ st299.psq.safe = none ∧ (psqState st299 = psOFF ∨ psqState st299 = psFAULT)) ∧
    (served st301 F.PSQ_CTRL_on.off true ∧ st301.psq.safe = none ∧ (psqState st301 = psBLACK_OFF ∨ psqState st301 = psRAILS_DOWN ∨ (st301.psq.offReq = true ∧ psqState st301 ≠ psOFF ∧ psqState st301 ≠ psFAULT))) ∧
    (served st304 F.PSQ_CTRL_on.off true ∧ st304.psq.safe = none ∧ st304.psq.offReq = false ∧ psPRECHECK ≤ psqState st304 ∧ psqState st304 ≤ psON) ∧
    (served st306 F.PSQ_CTRL_off.off true ∧ (psqState st306 = psOFF ∨ psqState st306 = psFAULT)) ∧
    (served st308 F.PSQ_CTRL_off.off true ∧ psqState st308 ≠ psOFF ∧ psqState st308 ≠ psFAULT ∧ st308.psq.safe.isSome = true) ∧
    (served st309 F.PSQ_CTRL_off.off true ∧ st309.psq.safe = none ∧ (psqState st309 = psBLACK_OFF ∨ psqState st309 = psRAILS_DOWN ∨ (st309.psq.offReq = true ∧ psqState st309 ≠ psOFF ∧ psqState st309 ≠ psFAULT)) ∧ (false = false ∨ st309.psq.ckptReq = true ∨ st309.psq.ckptWait = true)) :=
  ⟨by unfold served; decide +kernel,
   by unfold served; decide +kernel,
   by unfold served; decide +kernel,
   by unfold served; decide +kernel,
   by unfold served; decide +kernel,
   by unfold served; decide +kernel⟩
/-- More clauses of `Obligations.PanelPowerRequests`. -/
theorem wit_PanelPowerRequests_2 :
    (served st315 F.PSQ_CTRL_off.off true ∧ st315.psq.safe = none ∧ st315.psq.offReq = false ∧ psqState st315 = psON ∧ st315.psq.bOn = some st315.tick) ∧
    (served st304 F.PSQ_CTRL_off.off true ∧ st304.psq.safe = none ∧ st304.psq.offReq = false ∧ ((psPRECHECK ≤ psqState st304 ∧ psqState st304 ≤ psLINK) ∨ (psqState st304 = psON ∧ st304.psq.bOn ≠ some st304.tick))) ∧
    (served st319 F.PSQ_CTRL_off.off true ∧ st319.psq.safe = none ∧ st319.psq.offReq = false ∧ psqState st319 = psBLACK) ∧
    (served st309 F.PSQ_CTRL_off.off true ∧ st309.psq.safe = none ∧ (psqState st309 = psBLACK_OFF ∨ psqState st309 = psRAILS_DOWN ∨ (st309.psq.offReq = true ∧ psqState st309 ≠ psOFF ∧ psqState st309 ≠ psFAULT)) ∧ (true = false ∨ st309.psq.ckptReq = true ∨ st309.psq.ckptWait = true)) ∧
    (served st326 F.PSQ_CTRL_off.off true ∧ st326.psq.safe = none ∧ (psqState st326 = psBLACK_OFF ∨ psqState st326 = psRAILS_DOWN ∨ (st326.psq.offReq = true ∧ psqState st326 ≠ psOFF ∧ psqState st326 ≠ psFAULT)) ∧ st326.psq.ckptReq = false ∧ st326.psq.ckptWait = false ∧ psqState st326 ≠ psRAILS_DOWN ∧ st326.psq.bOff = none) ∧
    (served st327 F.PSQ_CTRL_off.off true ∧ st327.psq.safe = none ∧ (psqState st327 = psBLACK_OFF ∨ psqState st327 = psRAILS_DOWN ∨ (st327.psq.offReq = true ∧ psqState st327 ≠ psOFF ∧ psqState st327 ≠ psFAULT)) ∧ st327.psq.ckptReq = false ∧ st327.psq.ckptWait = false ∧ (psqState st327 = psRAILS_DOWN ∨ st327.psq.bOff.isSome = true)) :=
  ⟨by unfold served; decide +kernel,
   by unfold served; decide +kernel,
   by unfold served; decide +kernel,
   by unfold served; decide +kernel,
   by unfold served; decide +kernel,
   by unfold served; decide +kernel⟩
/-- Hypotheses of `Obligations.SafePowerOffDiscardsHeldEnable` are met, clause by clause. -/
theorem wit_SafePowerOffDiscardsHeldEnable :
    (psqState st334 ≠ psOFF ∧ psqState st334 ≠ psFAULT ∧ st334.psq.safe = none) ∧
    (served st308 F.PSQ_CTRL_on.off true ∧ st308.psq.safe.isSome = true) :=
  ⟨by decide +kernel,
   by unfold served; decide +kernel⟩
/-- Hypotheses of `Obligations.PowerOnRunsItsSteps` are met, clause by clause. -/
theorem wit_PowerOnRunsItsSteps :
    (st338.psq.req = true ∧ (psqState st338 = psOFF ∨ psqState st338 = psFAULT) ∧ st338.boot.imageOk = true ∧ st338.boot.step8 = true ∧ rebuildDone st338 = true ∧ rd st338 F.PSQ_CFG_pre_chk = 1 ∧ rd st338 F.PSQ_CRK_EN_en ≠ 0) ∧
    (st339.psq.req = true ∧ (psqState st339 = psOFF ∨ psqState st339 = psFAULT) ∧ st339.boot.imageOk = true ∧ st339.boot.step8 = true ∧ rebuildDone st339 = true ∧ (rd st339 F.PSQ_CFG_pre_chk = 0 ∨ rd st339 F.PSQ_CRK_EN_en = 0) ∧ rd st339 (F.PSQ_UP_en 2) = 1 ∧ (∀ j : Fin 8, j < 2 → rd st339 (F.PSQ_UP_en j) = 0) ∧ rd st339 (F.PSQ_UP_pmb_en 2) = 1) ∧
    (st341.psq.req = true ∧ (psqState st341 = psOFF ∨ psqState st341 = psFAULT) ∧ st341.boot.imageOk = true ∧ st341.boot.step8 = true ∧ rebuildDone st341 = true ∧ (rd st341 F.PSQ_CFG_pre_chk = 0 ∨ rd st341 F.PSQ_CRK_EN_en = 0) ∧ (∀ i : Fin 8, rd st341 (F.PSQ_UP_en i) = 0)) ∧
    (st342.psq.req = false ∨ (psqState st342 ≠ psOFF ∧ psqState st342 ≠ psFAULT) ∨ st342.boot.imageOk = false ∨ st342.boot.step8 = false ∨ rebuildDone st342 = false) ∧
    (st347.psq.phase = .settle 100 ∧ psqState st347 = psRAILS_UP ∧ st347.psq.safe = none ∧ rd st347 (F.PSQ_UP_pg_chk st347.psq.k) = 1 ∧ pgOf st347 (railOf st347 st347.psq.k) = false) ∧
    (st348.psq.phase = .settle 100 ∧ psqState st348 = psRAILS_UP ∧ st348.psq.safe = none ∧ rd st348 (F.PSQ_UP_pg_chk st348.psq.k) = 0 ∧ st348.psq.offReq = true ∧ st348.psq.begun % 256 ≠ 0) :=
  ⟨by decide +kernel,
   by decide +kernel,
   by decide +kernel,
   by decide +kernel,
   by decide +kernel,
   by decide +kernel⟩
/-- More clauses of `Obligations.PowerOnRunsItsSteps`. -/
theorem wit_PowerOnRunsItsSteps_2 :
    (st349.psq.phase = .settle 100 ∧ psqState st349 = psRAILS_UP ∧ st349.psq.safe = none ∧ (rd st349 (F.PSQ_UP_pg_chk st349.psq.k) = 0 ∨ pgOf st349 (railOf st349 st349.psq.k) = true) ∧ st349.psq.offReq = false ∧ st349.psq.k < 5 ∧ rd st349 (F.PSQ_UP_en 5) = 1 ∧ (∀ j : Fin 8, st349.psq.k < j → j < 5 → rd st349 (F.PSQ_UP_en j) = 0)) ∧
    (st351.psq.phase = .settle 100 ∧ psqState st351 = psRAILS_UP ∧ st351.psq.safe = none ∧ (rd st351 (F.PSQ_UP_pg_chk st351.psq.k) = 0 ∨ pgOf st351 (railOf st351 st351.psq.k) = true) ∧ st351.psq.offReq = false ∧ (∀ i : Fin 8, st351.psq.k < i → rd st351 (F.PSQ_UP_en i) = 0)) ∧
    (psqState up ≠ psRAILS_UP ∨ up.psq.phase = .none) :=
  ⟨by decide +kernel,
   by decide +kernel,
   by decide +kernel⟩
/-- Hypotheses of `Obligations.RailFaultsAndRailsDown` are met, clause by clause. -/
theorem wit_RailFaultsAndRailsDown :
    (st353.psq.safe = none ∧ psqState st353 = psRAILS_UP ∧ st353.psq.phase = .pgWait ∧ railOf st353 st353.psq.k = 6 ∧ st353.tick < st353.psq.enAt + rd st353 (F.PSQ_UP_timeout st353.psq.k) * Config.tickMs) ∧
    (st354.psq.safe = none ∧ psqState st354 = psRAILS_UP ∧ st354.psq.phase = .pgWait ∧ railOf st354 st354.psq.k = 6 ∧ st354.psq.enAt + rd st354 (F.PSQ_UP_timeout st354.psq.k) * Config.tickMs ≤ st354.tick) ∧
    (st355.psq.safe = none ∧ (∃ k ∈ bitList st355.psq.watched 8, railOf st355 k = 6) ∧ (psqState st355 ∈ [psRAILS_UP, psLINK, psBLACK] ∨ (psqState st355 ∈ [psON, psBLACK_OFF] ∧ rd st355 F.PSQ_CFG_pg_react = 1))) ∧
    (st360.psq.safe = none ∧ (∃ k ∈ bitList st360.psq.watched 8, railOf st360 k = 6) ∧ psqState st360 ∈ [psON, psBLACK_OFF] ∧ rd st360 F.PSQ_CFG_pg_react = 0) ∧
    (st360.psq.safe = none ∧ (∀ k ∈ bitList st360.psq.watched 8, railOf st360 k ≠ 3)) ∧
    (st353.psq.safe = none ∧ psqState st353 = psRAILS_UP ∧ st353.psq.phase = .pgWait) :=
  ⟨by decide +kernel,
   by decide +kernel,
   by decide +kernel,
   by decide +kernel,
   by decide +kernel,
   by decide +kernel⟩
/-- More clauses of `Obligations.RailFaultsAndRailsDown`. -/
theorem wit_RailFaultsAndRailsDown_2 :
    (psqState up ≠ psRAILS_UP ∨ up.psq.phase ≠ .pgWait) ∧
    (up.psq.phase ≠ .pmbus) ∧
    (st366.psq.safe = none ∧ st366.psq.phase = .pmbus ∧ psqState st366 = psRAILS_UP) ∧
    (st367.psq.safe = none ∧ st367.psq.phase = .pmbus ∧ psqState st367 ≠ psRAILS_UP) ∧
    (st369.psq.phase = .discharge 90 ∧ maskHas st369.psq.begun 2 = true ∧ (∀ j : Fin 8, 2 < j → maskHas st369.psq.begun j = false) ∧ rd st369 (F.PSQ_DN_pmb_en 2) = 1) ∧
    (st371.psq.phase = .discharge 90 ∧ st371.psq.begun % 256 = 0 ∧ st371.psq.safe.isSome = true) :=
  ⟨by decide +kernel,
   by decide +kernel,
   by decide +kernel,
   by decide +kernel,
   by decide +kernel,
   by decide +kernel⟩
/-- More clauses of `Obligations.RailFaultsAndRailsDown`. -/
theorem wit_RailFaultsAndRailsDown_3 :
    (st372.psq.phase = .discharge 90 ∧ st372.psq.begun % 256 = 0 ∧ st372.psq.safe = none ∧ st372.psq.ckptReq = false ∧ st372.psq.ckptWait = false) ∧
    (up.psq.phase = .none) :=
  ⟨by decide +kernel,
   by decide +kernel⟩
/-- Hypotheses of `Obligations.CrackTestsSampleAndJudge` are met, clause by clause. -/
theorem wit_CrackTestsSampleAndJudge :
    (st377.psq.crk = some ⟨700, 0, 4⟩) ∧
    (st380.psq.crk = some ⟨700, 3, 32772⟩ ∧ psqState st380 ≠ psPRECHECK) ∧
    (st381.psq.crk = some ⟨700, 3, 4⟩ ∧ psqState st381 = psPRECHECK ∧ st381.psq.pre + 1 < rd st381 F.PSQ_CRK_CFG_n ∧ rd st381 F.PSQ_CRK_EN_en ≠ 0) ∧
    (st382.psq.crk = some ⟨700, 3, 4⟩ ∧ psqState st382 = psPRECHECK ∧ rd st382 F.PSQ_CRK_CFG_n ≤ st382.psq.pre + 1 ∧ bitOf st382 F.PSQ_CRK_EN_en 2 = true ∧ bitOf st382 F.PSQ_CRK_EN_react 2 = true ∧ maskHas 4 2 = true ∧ rd st382 F.PSQ_CRK_CFG_n ≤ sget 0 st382.psq.preRun 2 + 1) ∧
    (st383.psq.crk = some ⟨700, 3, 4⟩ ∧ psqState st383 = psPRECHECK ∧ rd st383 F.PSQ_CRK_CFG_n ≤ st383.psq.pre + 1 ∧ rd st383 F.PSQ_CRK_EN_react = 0 ∧ st383.psq.offReq = false ∧ (∀ i : Fin 8, rd st383 (F.PSQ_UP_en i) = 0)) ∧
    (up.psq.crk = none) :=
  ⟨by decide +kernel,
   by decide +kernel,
   by decide +kernel,
   by decide +kernel,
   by decide +kernel,
   by decide +kernel⟩
/-- Hypotheses of `Obligations.OrsalPortsChangeState` are met, clause by clause. -/
theorem wit_OrsalPortsChangeState :
    (portState st385 1 = poTRAIN) ∧
    (portState st386 1 ≠ poTRAIN) ∧
    (portState st387 1 = poCHECK ∨ portState st387 1 = poUP) ∧
    (portState st389 1 ≠ poCHECK ∧ portState st389 1 ≠ poUP) ∧
    (portState st390 1 = poDOWN ∨ portState st390 1 = poMISWIRED) ∧
    (portState st392 1 ≠ poDOWN ∧ portState st392 1 ≠ poMISWIRED) :=
  ⟨by decide +kernel,
   by decide +kernel,
   by decide +kernel,
   by decide +kernel,
   by decide +kernel,
   by decide +kernel⟩
/-- More clauses of `Obligations.OrsalPortsChangeState`. -/
theorem wit_OrsalPortsChangeState_2 :
    (served st393 F.ORL_CTRL_retrain_a.off true ∧ portState st393 1 ≠ poOFF) ∧
    (served st396 F.ORL_CTRL_retrain_a.off true ∧ portState st396 1 = poOFF) ∧
    (portHears st397 1 = true ∧ (oport st397 1).sending = none ∧ (oport st397 1).queue = []) ∧
    (portHears st399 1 = false) ∧
    (heard st400 1 3 ((frm 3 9 false 0 0 (leBytes 0 1 ++ leBytes 9 1 ++ leBytes 0 1 ++ leBytes 0 1 ++ leBytes 0 4))) ∧ ((leBytes 0 1 ++ leBytes 9 1 ++ leBytes 0 1 ++ leBytes 0 1 ++ leBytes 0 4)) = (parseFrame ((frm 3 9 false 0 0 (leBytes 0 1 ++ leBytes 9 1 ++ leBytes 0 1 ++ leBytes 0 1 ++ leBytes 0 4)))).pay ∧ leAt ((leBytes 0 1 ++ leBytes 9 1 ++ leBytes 0 1 ++ leBytes 0 1 ++ leBytes 0 4)) 0 1 = 0 ∧ portState st400 1 = poUP) ∧
    (heard st386 1 3 ((frm 3 3 false 0 0 (leBytes 0 1 ++ leBytes 3 1 ++ leBytes 3 1 ++ leBytes 3 1 ++ leBytes 0 4))) ∧ ((leBytes 0 1 ++ leBytes 3 1 ++ leBytes 3 1 ++ leBytes 3 1 ++ leBytes 0 4)) = (parseFrame ((frm 3 3 false 0 0 (leBytes 0 1 ++ leBytes 3 1 ++ leBytes 3 1 ++ leBytes 3 1 ++ leBytes 0 4)))).pay ∧ leAt ((leBytes 0 1 ++ leBytes 3 1 ++ leBytes 3 1 ++ leBytes 3 1 ++ leBytes 0 4)) 0 1 = 0 ∧ portState st386 1 = poCHECK ∧ (leAt ((leBytes 0 1 ++ leBytes 3 1 ++ leBytes 3 1 ++ leBytes 3 1 ++ leBytes 0 4)) 2 1 = nDev st386 - 1 ∧ (leAt ((leBytes 0 1 ++ leBytes 3 1 ++ leBytes 3 1 ++ leBytes 3 1 ++ leBytes 0 4)) 3 1 % 2 = 1 ↔ isRing st386 = true) ∧ leAt ((leBytes 0 1 ++ leBytes 3 1 ++ leBytes 3 1 ++ leBytes 3 1 ++ leBytes 0 4)) 1 1 = nbrPos st386 1 ∧ (leAt ((leBytes 0 1 ++ leBytes 3 1 ++ leBytes 3 1 ++ leBytes 3 1 ++ leBytes 0 4)) 3 1 / 2 % 2 = 0 ↔ leAt ((leBytes 0 1 ++ leBytes 3 1 ++ leBytes 3 1 ++ leBytes 3 1 ++ leBytes 0 4)) 1 1 = 0))) :=
  ⟨by unfold served; decide +kernel,
   by unfold served; decide +kernel,
   by decide +kernel,
   by decide +kernel,
   by unfold heard; decide +kernel,
   by unfold heard; decide +kernel⟩
/-- More clauses of `Obligations.OrsalPortsChangeState`. -/
theorem wit_OrsalPortsChangeState_3 :
    (heard st386 1 3 ((frm 3 2 false 0 0 (leBytes 0 1 ++ leBytes 2 1 ++ leBytes 3 1 ++ leBytes 3 1 ++ leBytes 0 4))) ∧ ((leBytes 0 1 ++ leBytes 2 1 ++ leBytes 3 1 ++ leBytes 3 1 ++ leBytes 0 4)) = (parseFrame ((frm 3 2 false 0 0 (leBytes 0 1 ++ leBytes 2 1 ++ leBytes 3 1 ++ leBytes 3 1 ++ leBytes 0 4)))).pay ∧ leAt ((leBytes 0 1 ++ leBytes 2 1 ++ leBytes 3 1 ++ leBytes 3 1 ++ leBytes 0 4)) 0 1 = 0 ∧ portState st386 1 = poCHECK ∧ ¬(leAt ((leBytes 0 1 ++ leBytes 2 1 ++ leBytes 3 1 ++ leBytes 3 1 ++ leBytes 0 4)) 2 1 = nDev st386 - 1 ∧ (leAt ((leBytes 0 1 ++ leBytes 2 1 ++ leBytes 3 1 ++ leBytes 3 1 ++ leBytes 0 4)) 3 1 % 2 = 1 ↔ isRing st386 = true) ∧ leAt ((leBytes 0 1 ++ leBytes 2 1 ++ leBytes 3 1 ++ leBytes 3 1 ++ leBytes 0 4)) 1 1 = nbrPos st386 1 ∧ (leAt ((leBytes 0 1 ++ leBytes 2 1 ++ leBytes 3 1 ++ leBytes 3 1 ++ leBytes 0 4)) 3 1 / 2 % 2 = 0 ↔ leAt ((leBytes 0 1 ++ leBytes 2 1 ++ leBytes 3 1 ++ leBytes 3 1 ++ leBytes 0 4)) 1 1 = 0))) ∧
    (heard st406 1 3 ((frm 3 2 true 0 77 (leBytes 1 4 ++ leBytes 66 4))) ∧ firstCopy st406 ((frm 3 2 true 0 77 (leBytes 1 4 ++ leBytes 66 4))) ∧ leAt (parseFrame ((frm 3 2 true 0 77 (leBytes 1 4 ++ leBytes 66 4)))).pay 0 1 = 1) :=
  ⟨by unfold heard; decide +kernel,
   by unfold heard firstCopy; decide +kernel⟩
/-- Hypotheses of `Obligations.OrsalDelaysAndBeacons` are met, clause by clause. -/
theorem wit_OrsalDelaysAndBeacons :
    (portUp st392 1 = true ∧ idlePort st392 1) ∧
    (portUp st397 1 = false) ∧
    (heard st392 1 1 ((frm 1 3 false 2 0 (leBytes 999 8))) ∧ frameMine st392 (parseFrame ((frm 1 3 false 2 0 (leBytes 999 8)))) = true ∧ idlePort st392 1) ∧
    (heard st392 1 1 ((frm 1 3 false 1 0 (leBytes 999 8))) ∧ frameMine st392 (parseFrame ((frm 1 3 false 1 0 (leBytes 999 8)))) = false) ∧
    (heard st435 1 2 ((frm 2 3 false 1 0 (leBytes 4096 8 ++ leBytes 8000 8 ++ leBytes 8111 8))) ∧ ((leBytes 4096 8 ++ leBytes 8000 8 ++ leBytes 8111 8)) = (parseFrame ((frm 2 3 false 1 0 (leBytes 4096 8 ++ leBytes 8000 8 ++ leBytes 8111 8)))).pay ∧ frameMine st435 (parseFrame ((frm 2 3 false 1 0 (leBytes 4096 8 ++ leBytes 8000 8 ++ leBytes 8111 8)))) = false) ∧
    (heard st436 1 2 ((frm 2 3 false 2 0 (leBytes 4096 8 ++ leBytes 8000 8 ++ leBytes 8111 8))) ∧ ((leBytes 4096 8 ++ leBytes 8000 8 ++ leBytes 8111 8)) = (parseFrame ((frm 2 3 false 2 0 (leBytes 4096 8 ++ leBytes 8000 8 ++ leBytes 8111 8)))).pay ∧ frameMine st436 (parseFrame ((frm 2 3 false 2 0 (leBytes 4096 8 ++ leBytes 8000 8 ++ leBytes 8111 8)))) = true ∧ (oport st436 1).t1 = some (leAt ((leBytes 4096 8 ++ leBytes 8000 8 ++ leBytes 8111 8)) 0 8) ∧ st436.tick ≤ (oport st436 1).dlyAt + Config.tickMs) :=
  ⟨by unfold idlePort; decide +kernel,
   by decide +kernel,
   by unfold heard idlePort; decide +kernel,
   by unfold heard; decide +kernel,
   by unfold heard; decide +kernel,
   by unfold heard; decide +kernel⟩
/-- More clauses of `Obligations.OrsalDelaysAndBeacons`. -/
theorem wit_OrsalDelaysAndBeacons_2 :
    (heard st435 1 2 ((frm 2 3 false 2 0 (leBytes 4097 8 ++ leBytes 8000 8 ++ leBytes 8111 8))) ∧ ((leBytes 4097 8 ++ leBytes 8000 8 ++ leBytes 8111 8)) = (parseFrame ((frm 2 3 false 2 0 (leBytes 4097 8 ++ leBytes 8000 8 ++ leBytes 8111 8)))).pay ∧ ((oport st435 1).t1 ≠ some (leAt ((leBytes 4097 8 ++ leBytes 8000 8 ++ leBytes 8111 8)) 0 8) ∨ (oport st435 1).dlyAt + Config.tickMs < st435.tick)) ∧
    ((oport st435 1).t1 = some 4096) ∧
    ((oport st392 1).t1 = none) ∧
    (heard st443 1 0 ((frm 0 0 true 0 0 (leBytes 500 8 ++ leBytes 0 4 ++ leBytes 20000001 4 ++ leBytes 77 4 ++ leBytes 4 1 ++ List.replicate 11 0#8))) ∧ ((leBytes 500 8 ++ leBytes 0 4 ++ leBytes 20000001 4 ++ leBytes 77 4 ++ leBytes 4 1 ++ List.replicate 11 0#8)) = (parseFrame ((frm 0 0 true 0 0 (leBytes 500 8 ++ leBytes 0 4 ++ leBytes 20000001 4 ++ leBytes 77 4 ++ leBytes 4 1 ++ List.replicate 11 0#8)))).pay ∧ frameMine st443 (parseFrame ((frm 0 0 true 0 0 (leBytes 500 8 ++ leBytes 0 4 ++ leBytes 20000001 4 ++ leBytes 77 4 ++ leBytes 4 1 ++ List.replicate 11 0#8)))) = true ∧ isWorker st443 = true ∧ 16 ≤ (oport st443 1).delays.length ∧ (leAt ((leBytes 500 8 ++ leBytes 0 4 ++ leBytes 20000001 4 ++ leBytes 77 4 ++ leBytes 4 1 ++ List.replicate 11 0#8)) 12 4 ≠ picPeriod st443 ∨ rd st443 F.TMB_REF_RATIO_pic_mul ≠ 1 ∨ rd st443 F.TMB_REF_RATIO_ref_div ≠ leAt ((leBytes 500 8 ++ leBytes 0 4 ++ leBytes 20000001 4 ++ leBytes 77 4 ++ leBytes 4 1 ++ List.replicate 11 0#8)) 20 1)) ∧
    (heard st443 1 0 ((frm 0 0 true 0 0 (leBytes 500 8 ++ leBytes 0 4 ++ leBytes 20000000 4 ++ leBytes 77 4 ++ leBytes 4 1 ++ List.replicate 11 0#8))) ∧ ((leBytes 500 8 ++ leBytes 0 4 ++ leBytes 20000000 4 ++ leBytes 77 4 ++ leBytes 4 1 ++ List.replicate 11 0#8)) = (parseFrame ((frm 0 0 true 0 0 (leBytes 500 8 ++ leBytes 0 4 ++ leBytes 20000000 4 ++ leBytes 77 4 ++ leBytes 4 1 ++ List.replicate 11 0#8)))).pay ∧ frameMine st443 (parseFrame ((frm 0 0 true 0 0 (leBytes 500 8 ++ leBytes 0 4 ++ leBytes 20000000 4 ++ leBytes 77 4 ++ leBytes 4 1 ++ List.replicate 11 0#8)))) = true ∧ isWorker st443 = true ∧ 16 ≤ (oport st443 1).delays.length ∧ leAt ((leBytes 500 8 ++ leBytes 0 4 ++ leBytes 20000000 4 ++ leBytes 77 4 ++ leBytes 4 1 ++ List.replicate 11 0#8)) 12 4 = picPeriod st443 ∧ rd st443 F.TMB_REF_RATIO_pic_mul = 1 ∧ rd st443 F.TMB_REF_RATIO_ref_div = leAt ((leBytes 500 8 ++ leBytes 0 4 ++ leBytes 20000000 4 ++ leBytes 77 4 ++ leBytes 4 1 ++ List.replicate 11 0#8)) 20 1 ∧ rd st443 F.ORL_STATUS_tsrc = 0 ∧ 1 = prefPort st443) ∧
    (heard st446 1 0 ((frm 0 0 true 0 0 (leBytes 500 8 ++ leBytes 0 4 ++ leBytes 20000000 4 ++ leBytes 77 4 ++ leBytes 4 1 ++ List.replicate 11 0#8))) ∧ ((leBytes 500 8 ++ leBytes 0 4 ++ leBytes 20000000 4 ++ leBytes 77 4 ++ leBytes 4 1 ++ List.replicate 11 0#8)) = (parseFrame ((frm 0 0 true 0 0 (leBytes 500 8 ++ leBytes 0 4 ++ leBytes 20000000 4 ++ leBytes 77 4 ++ leBytes 4 1 ++ List.replicate 11 0#8)))).pay ∧ frameMine st446 (parseFrame ((frm 0 0 true 0 0 (leBytes 500 8 ++ leBytes 0 4 ++ leBytes 20000000 4 ++ leBytes 77 4 ++ leBytes 4 1 ++ List.replicate 11 0#8)))) = true ∧ (isWorker st446 = false ∨ (oport st446 1).delays.length < 16)) :=
  ⟨by unfold heard; decide +kernel,
   by decide +kernel,
   by decide +kernel,
   by unfold heard; decide +kernel,
   by unfold heard; decide +kernel,
   by unfold heard; decide +kernel⟩
/-- More clauses of `Obligations.OrsalDelaysAndBeacons`. -/
theorem wit_OrsalDelaysAndBeacons_3 :
    (heard st448 1 0 ((frm 0 0 true 0 0 (leBytes 500 8 ++ leBytes 0 4 ++ leBytes 20000000 4 ++ leBytes 77 4 ++ leBytes 4 1 ++ List.replicate 11 0#8))) ∧ ((leBytes 500 8 ++ leBytes 0 4 ++ leBytes 20000000 4 ++ leBytes 77 4 ++ leBytes 4 1 ++ List.replicate 11 0#8)) = (parseFrame ((frm 0 0 true 0 0 (leBytes 500 8 ++ leBytes 0 4 ++ leBytes 20000000 4 ++ leBytes 77 4 ++ leBytes 4 1 ++ List.replicate 11 0#8)))).pay ∧ frameMine st448 (parseFrame ((frm 0 0 true 0 0 (leBytes 500 8 ++ leBytes 0 4 ++ leBytes 20000000 4 ++ leBytes 77 4 ++ leBytes 4 1 ++ List.replicate 11 0#8)))) = true ∧ isWorker st448 = true ∧ 16 ≤ (oport st448 1).delays.length ∧ leAt ((leBytes 500 8 ++ leBytes 0 4 ++ leBytes 20000000 4 ++ leBytes 77 4 ++ leBytes 4 1 ++ List.replicate 11 0#8)) 12 4 = picPeriod st448 ∧ rd st448 F.TMB_REF_RATIO_pic_mul = 1 ∧ rd st448 F.TMB_REF_RATIO_ref_div = leAt ((leBytes 500 8 ++ leBytes 0 4 ++ leBytes 20000000 4 ++ leBytes 77 4 ++ leBytes 4 1 ++ List.replicate 11 0#8)) 20 1 ∧ rd st448 F.ORL_STATUS_tsrc = 0 ∧ 1 ≠ prefPort st448 ∧ portUp st448 (prefPort st448) = false) ∧
    (isManager st467 = true ∧ st467.tmb.pic = some (12) ∧ 0 < picPeriod st467 ∧ (0) < rd st467 F.ORL_TIME_bdiv ∧ (0) = (match st467.orl.bcnAt with | some b => if b < st467.tmb.bound then 0 else (b - st467.tmb.bound) * rd st467 F.ORL_TIME_bdiv / picPeriod st467 + 1 | none => 0) ∧ (4100000) = st467.tmb.bound + (0) * picPeriod st467 / rd st467 F.ORL_TIME_bdiv ∧ idlePort st467 0 ∧ idlePort st467 1) ∧
    (isManager st471 = false ∨ st471.tmb.pic = none) ∧
    (isWorker st472 = true ∧ isRing st472 = true ∧ 0 = timePort st472 ∧ (portUp st472 0 = false ∨ noBeacon st472m 0) ∧ ¬noBeacon st472m (1 - 0)) ∧
    (isWorker st476 = true ∧ isRing st476 = true ∧ 0 = timePort st476 ∧ (¬(portUp st476 0 = false ∨ noBeacon st476m 0) ∨ noBeacon st476m (1 - 0))) :=
  ⟨by unfold heard; decide +kernel,
   by unfold idlePort; decide +kernel,
   by decide +kernel,
   by unfold noBeacon; decide +kernel,
   by unfold noBeacon; decide +kernel⟩
/-- Hypotheses of `Obligations.OrsalControlRequests` are met, clause by clause. -/
theorem wit_OrsalControlRequests :
    (served st471 F.ORL_CTL_CMD_go.off true ∧ (isManager st471 = false ∨ st471.orl.ctl.isSome = true)) ∧
    (served st479 F.ORL_CTL_CMD_go.off true ∧ isManager st479 = true ∧ st479.orl.ctl = none ∧ ((rd st479 F.ORL_CTL_CMD_bcast = 1 ∧ ((0 : Nat) = 1 ∨ (0 : Nat) = 3)) ∨ ((0 : Nat) = 4 ∧ rd st479 F.ORL_CTL_CMD_bcast = 0) ∨ (rd st479 F.ORL_CTL_CMD_bcast = 0 ∧ (rd st479 F.ORL_CTL_CMD_dst = 0 ∨ nDev st479 ≤ rd st479 F.ORL_CTL_CMD_dst)) ∨ ((0 : Nat) ≤ 1 ∧ 0x1000000 ≤ rd st479 F.ORL_CTL_ADDR_addr) ∨ (((0 : Nat) = 2 ∨ (0 : Nat) = 3) ∧ (0x7FFFC < rd st479 F.ORL_CTL_ADDR_addr ∨ rd st479 F.ORL_CTL_ADDR_addr % 4 ≠ 0)))) ∧
    (served st482 F.ORL_CTL_CMD_go.off true ∧ isManager st482 = true ∧ st482.orl.ctl = none ∧ ¬((rd st482 F.ORL_CTL_CMD_bcast = 1 ∧ ((0 : Nat) = 1 ∨ (0 : Nat) = 3)) ∨ ((0 : Nat) = 4 ∧ rd st482 F.ORL_CTL_CMD_bcast = 0) ∨ (rd st482 F.ORL_CTL_CMD_bcast = 0 ∧ (rd st482 F.ORL_CTL_CMD_dst = 0 ∨ nDev st482 ≤ rd st482 F.ORL_CTL_CMD_dst)) ∨ ((0 : Nat) ≤ 1 ∧ 0x1000000 ≤ rd st482 F.ORL_CTL_ADDR_addr) ∨ (((0 : Nat) = 2 ∨ (0 : Nat) = 3) ∧ (0x7FFFC < rd st482 F.ORL_CTL_ADDR_addr ∨ rd st482 F.ORL_CTL_ADDR_addr % 4 ≠ 0)))) ∧
    (served st500 F.ORL_CTL_CMD_go.off true ∧ isManager st500 = true ∧ st500.orl.ctl = none ∧ ¬((rd st500 F.ORL_CTL_CMD_bcast = 1 ∧ ((4 : Nat) = 1 ∨ (4 : Nat) = 3)) ∨ ((4 : Nat) = 4 ∧ rd st500 F.ORL_CTL_CMD_bcast = 0) ∨ (rd st500 F.ORL_CTL_CMD_bcast = 0 ∧ (rd st500 F.ORL_CTL_CMD_dst = 0 ∨ nDev st500 ≤ rd st500 F.ORL_CTL_CMD_dst)) ∨ ((4 : Nat) ≤ 1 ∧ 0x1000000 ≤ rd st500 F.ORL_CTL_ADDR_addr) ∨ (((4 : Nat) = 2 ∨ (4 : Nat) = 3) ∧ (0x7FFFC < rd st500 F.ORL_CTL_ADDR_addr ∨ rd st500 F.ORL_CTL_ADDR_addr % 4 ≠ 0))) ∧ rd st500 F.ORL_CTL_CMD_self = 1 ∧ (match commitTick st500 (rd64 st500 F.ORL_CTL_PIC_LO_pic F.ORL_CTL_PIC_HI_pic) with | some τ => decide (st500.tick ≤ τ) | none => false) = true) ∧
    (isManager st501 = true ∧ heard st501 0 5 ((frm 5 2 false 0 900 (leBytes 0 4 ++ leBytes 5 4 ++ leBytes 0xDDCCBBAA 4))) ∧ firstCopy st501 ((frm 5 2 false 0 900 (leBytes 0 4 ++ leBytes 5 4 ++ leBytes 0xDDCCBBAA 4))) ∧ ((leBytes 0 4 ++ leBytes 5 4 ++ leBytes 0xDDCCBBAA 4)) = (parseFrame ((frm 5 2 false 0 900 (leBytes 0 4 ++ leBytes 5 4 ++ leBytes 0xDDCCBBAA 4)))).pay ∧ 0 = leAt ((leBytes 0 4 ++ leBytes 5 4 ++ leBytes 0xDDCCBBAA 4)) 0 1 ∧ st501.orl.ctl = some ((⟨1, true, 0, true, 8, 9, 10, [2], [], false, false, 5, 0, 4000000⟩ : CtlReq)) ∧ leAt ((leBytes 0 4 ++ leBytes 5 4 ++ leBytes 0xDDCCBBAA 4)) 4 4 = ((⟨1, true, 0, true, 8, 9, 10, [2], [], false, false, 5, 0, 4000000⟩ : CtlReq)).seq ∧ (parseFrame ((frm 5 2 false 0 900 (leBytes 0 4 ++ leBytes 5 4 ++ leBytes 0xDDCCBBAA 4)))).src ∈ ((⟨1, true, 0, true, 8, 9, 10, [2], [], false, false, 5, 0, 4000000⟩ : CtlReq)).open_) ∧
    (st506.orl.ctl = some ((⟨0, true, 0, true, 8, 9, 10, [1, 2], [], false, false, 5, 2, 4000000⟩ : CtlReq))) :=
  ⟨by unfold served; decide +kernel,
   by unfold served; decide +kernel,
   by unfold served; decide +kernel,
   by unfold served; decide +kernel,
   by unfold heard firstCopy; decide +kernel,
   by decide +kernel⟩
/-- More clauses of `Obligations.OrsalControlRequests`. -/
theorem wit_OrsalControlRequests_2 :
    (up.orl.ctl = none ∧ up.orl.commits = []) ∧
    (isWorker st511 = true ∧ heard st511 1 4 ((frm 4 0 true 0 31 (leBytes 4 4 ++ leBytes 0 4 ++ leBytes 0x77 4 ++ leBytes 0 4 ++ leBytes 13 8))) ∧ firstCopy st511 ((frm 4 0 true 0 31 (leBytes 4 4 ++ leBytes 0 4 ++ leBytes 0x77 4 ++ leBytes 0 4 ++ leBytes 13 8))) ∧ (parseFrame ((frm 4 0 true 0 31 (leBytes 4 4 ++ leBytes 0 4 ++ leBytes 0x77 4 ++ leBytes 0 4 ++ leBytes 13 8)))).src = 0 ∧ ((leBytes 4 4 ++ leBytes 0 4 ++ leBytes 0x77 4 ++ leBytes 0 4 ++ leBytes 13 8)) = (parseFrame ((frm 4 0 true 0 31 (leBytes 4 4 ++ leBytes 0 4 ++ leBytes 0x77 4 ++ leBytes 0 4 ++ leBytes 13 8)))).pay ∧ leAt ((leBytes 4 4 ++ leBytes 0 4 ++ leBytes 0x77 4 ++ leBytes 0 4 ++ leBytes 13 8)) 0 1 = 4 ∧ (match commitTick st511 (leAt ((leBytes 4 4 ++ leBytes 0 4 ++ leBytes 0x77 4 ++ leBytes 0 4 ++ leBytes 13 8)) 16 8) with | some τ => decide (st511.tick ≤ τ) | none => false) = true) ∧
    (isWorker st511 = true ∧ heard st511 1 4 ((frm 4 0 true 0 31 (leBytes 4 4 ++ leBytes 0 4 ++ leBytes 0x77 4 ++ leBytes 0 4 ++ leBytes 12 8))) ∧ firstCopy st511 ((frm 4 0 true 0 31 (leBytes 4 4 ++ leBytes 0 4 ++ leBytes 0x77 4 ++ leBytes 0 4 ++ leBytes 12 8))) ∧ (parseFrame ((frm 4 0 true 0 31 (leBytes 4 4 ++ leBytes 0 4 ++ leBytes 0x77 4 ++ leBytes 0 4 ++ leBytes 12 8)))).src = 0 ∧ ((leBytes 4 4 ++ leBytes 0 4 ++ leBytes 0x77 4 ++ leBytes 0 4 ++ leBytes 12 8)) = (parseFrame ((frm 4 0 true 0 31 (leBytes 4 4 ++ leBytes 0 4 ++ leBytes 0x77 4 ++ leBytes 0 4 ++ leBytes 12 8)))).pay ∧ leAt ((leBytes 4 4 ++ leBytes 0 4 ++ leBytes 0x77 4 ++ leBytes 0 4 ++ leBytes 12 8)) 0 1 = 4 ∧ (match commitTick st511 (leAt ((leBytes 4 4 ++ leBytes 0 4 ++ leBytes 0x77 4 ++ leBytes 0 4 ++ leBytes 12 8)) 16 8) with | some τ => decide (τ < st511.tick) | none => true) = true) ∧
    (isWorker st471 = true ∧ heard st471 1 4 ((frm 4 0 false 1 31 (leBytes 5 4 ++ leBytes 0 4 ++ leBytes 0x77 4 ++ leBytes 0 4 ++ leBytes 0 8))) ∧ firstCopy st471 ((frm 4 0 false 1 31 (leBytes 5 4 ++ leBytes 0 4 ++ leBytes 0x77 4 ++ leBytes 0 4 ++ leBytes 0 8))) ∧ (parseFrame ((frm 4 0 false 1 31 (leBytes 5 4 ++ leBytes 0 4 ++ leBytes 0x77 4 ++ leBytes 0 4 ++ leBytes 0 8)))).src = 0 ∧ ((leBytes 5 4 ++ leBytes 0 4 ++ leBytes 0x77 4 ++ leBytes 0 4 ++ leBytes 0 8)) = (parseFrame ((frm 4 0 false 1 31 (leBytes 5 4 ++ leBytes 0 4 ++ leBytes 0x77 4 ++ leBytes 0 4 ++ leBytes 0 8)))).pay ∧ (5 ≤ leAt ((leBytes 5 4 ++ leBytes 0 4 ++ leBytes 0x77 4 ++ leBytes 0 4 ++ leBytes 0 8)) 0 1 ∨ (leAt ((leBytes 5 4 ++ leBytes 0 4 ++ leBytes 0x77 4 ++ leBytes 0 4 ++ leBytes 0 8)) 0 1 ≤ 1 ∧ 0x1000000 ≤ leAt ((leBytes 5 4 ++ leBytes 0 4 ++ leBytes 0x77 4 ++ leBytes 0 4 ++ leBytes 0 8)) 4 4) ∨ (leAt ((leBytes 5 4 ++ leBytes 0 4 ++ leBytes 0x77 4 ++ leBytes 0 4 ++ leBytes 0 8)) 0 1 = 0 ∧ isProtReg (leAt ((leBytes 5 4 ++ leBytes 0 4 ++ leBytes 0x77 4 ++ leBytes 0 4 ++ leBytes 0 8)) 4 4) = true) ∨ ((leAt ((leBytes 5 4 ++ leBytes 0 4 ++ leBytes 0x77 4 ++ leBytes 0 4 ++ leBytes 0 8)) 0 1 = 2 ∨ leAt ((leBytes 5 4 ++ leBytes 0 4 ++ leBytes 0x77 4 ++ leBytes 0 4 ++ leBytes 0 8)) 0 1 = 3) ∧ (0x7FFFC < leAt ((leBytes 5 4 ++ leBytes 0 4 ++ leBytes 0x77 4 ++ leBytes 0 4 ++ leBytes 0 8)) 4 4 ∨ leAt ((leBytes 5 4 ++ leBytes 0 4 ++ leBytes 0x77 4 ++ leBytes 0 4 ++ leBytes 0 8)) 4 4 % 4 ≠ 0)))) ∧
    (heard st519 1 4 ((frm 4 0 false 1 31 (leBytes 0 4 ++ leBytes 16 4 ++ leBytes 0x77 4 ++ leBytes 0 4 ++ leBytes 0 8))) ∧ frameMine st519 (parseFrame ((frm 4 0 false 1 31 (leBytes 0 4 ++ leBytes 16 4 ++ leBytes 0x77 4 ++ leBytes 0 4 ++ leBytes 0 8)))) = true ∧ frameSeen st519 (parseFrame ((frm 4 0 false 1 31 (leBytes 0 4 ++ leBytes 16 4 ++ leBytes 0x77 4 ++ leBytes 0 4 ++ leBytes 0 8)))) = true) ∧
    (13 ∈ st521.orl.commits ∧ (∀ m ∈ st521.orl.commits, 13 ≤ m)) :=
  ⟨by decide +kernel,
   by unfold heard firstCopy; decide +kernel,
   by unfold heard firstCopy; decide +kernel,
   by unfold heard firstCopy; decide +kernel,
   by unfold heard; decide +kernel,
   by decide +kernel⟩
/-- Hypotheses of `Obligations.ManagerTakesEventsAndVersions` are met, clause by clause. -/
theorem wit_ManagerTakesEventsAndVersions :
    (heard st523 0 6 ((frm 6 2 false 0 4294967295 (recBytes ⟨77, 0x801, 2, false, false, false, List.replicate 12 0#8, 0, none⟩ 9 3 false false false 2 ++ List.replicate 32 0#8))) ∧ firstCopy st523 ((frm 6 2 false 0 4294967295 (recBytes ⟨77, 0x801, 2, false, false, false, List.replicate 12 0#8, 0, none⟩ 9 3 false false false 2 ++ List.replicate 32 0#8))) ∧ workerRx st523 (parseFrame ((frm 6 2 false 0 4294967295 (recBytes ⟨77, 0x801, 2, false, false, false, List.replicate 12 0#8, 0, none⟩ 9 3 false false false 2 ++ List.replicate 32 0#8)))).src = ((⟨2, 4294967295, [], []⟩ : WorkerRx)) ∧ isManager st523 = true ∧ (parseFrame ((frm 6 2 false 0 4294967295 (recBytes ⟨77, 0x801, 2, false, false, false, List.replicate 12 0#8, 0, none⟩ 9 3 false false false 2 ++ List.replicate 32 0#8)))).src ≠ 0 ∧ ((⟨2, 4294967295, [], []⟩ : WorkerRx)).got = [] ∧ ((⟨2, 4294967295, [], []⟩ : WorkerRx)).held = [] ∧ (parseFrame ((frm 6 2 false 0 4294967295 (recBytes ⟨77, 0x801, 2, false, false, false, List.replicate 12 0#8, 0, none⟩ 9 3 false false false 2 ++ List.replicate 32 0#8)))).seq = ((⟨2, 4294967295, [], []⟩ : WorkerRx)).next) ∧
    (heard st524 0 6 ((frm 6 2 false 0 41 (recBytes ⟨77, 0x801, 2, false, false, false, List.replicate 12 0#8, 0, none⟩ 9 3 false false false 2 ++ List.replicate 32 0#8))) ∧ firstCopy st524 ((frm 6 2 false 0 41 (recBytes ⟨77, 0x801, 2, false, false, false, List.replicate 12 0#8, 0, none⟩ 9 3 false false false 2 ++ List.replicate 32 0#8))) ∧ workerRx st524 (parseFrame ((frm 6 2 false 0 41 (recBytes ⟨77, 0x801, 2, false, false, false, List.replicate 12 0#8, 0, none⟩ 9 3 false false false 2 ++ List.replicate 32 0#8)))).src = ((⟨2, 40, [], []⟩ : WorkerRx)) ∧ isManager st524 = true ∧ (parseFrame ((frm 6 2 false 0 41 (recBytes ⟨77, 0x801, 2, false, false, false, List.replicate 12 0#8, 0, none⟩ 9 3 false false false 2 ++ List.replicate 32 0#8)))).src ≠ 0 ∧ ((⟨2, 40, [], []⟩ : WorkerRx)).got = [] ∧ ((⟨2, 40, [], []⟩ : WorkerRx)).held = [] ∧ (parseFrame ((frm 6 2 false 0 41 (recBytes ⟨77, 0x801, 2, false, false, false, List.replicate 12 0#8, 0, none⟩ 9 3 false false false 2 ++ List.replicate 32 0#8)))).seq ≠ ((⟨2, 40, [], []⟩ : WorkerRx)).next ∧ aheadOf ((⟨2, 40, [], []⟩ : WorkerRx)) (parseFrame ((frm 6 2 false 0 41 (recBytes ⟨77, 0x801, 2, false, false, false, List.replicate 12 0#8, 0, none⟩ 9 3 false false false 2 ++ List.replicate 32 0#8)))).seq < 2 ^ 31) ∧
    (heard st526 0 6 ((frm 6 2 false 0 40 (recBytes ⟨77, 0x801, 2, false, false, false, List.replicate 12 0#8, 0, none⟩ 9 3 false false false 2 ++ List.replicate 32 0#8))) ∧ firstCopy st526 ((frm 6 2 false 0 40 (recBytes ⟨77, 0x801, 2, false, false, false, List.replicate 12 0#8, 0, none⟩ 9 3 false false false 2 ++ List.replicate 32 0#8))) ∧ workerRx st526 (parseFrame ((frm 6 2 false 0 40 (recBytes ⟨77, 0x801, 2, false, false, false, List.replicate 12 0#8, 0, none⟩ 9 3 false false false 2 ++ List.replicate 32 0#8)))).src = ((⟨2, 41, [], []⟩ : WorkerRx)) ∧ isManager st526 = true ∧ (parseFrame ((frm 6 2 false 0 40 (recBytes ⟨77, 0x801, 2, false, false, false, List.replicate 12 0#8, 0, none⟩ 9 3 false false false 2 ++ List.replicate 32 0#8)))).src ≠ 0 ∧ ((⟨2, 41, [], []⟩ : WorkerRx)).got = [] ∧ ((⟨2, 41, [], []⟩ : WorkerRx)).held = [] ∧ 2 ^ 31 ≤ aheadOf ((⟨2, 41, [], []⟩ : WorkerRx)) (parseFrame ((frm 6 2 false 0 40 (recBytes ⟨77, 0x801, 2, false, false, false, List.replicate 12 0#8, 0, none⟩ 9 3 false false false 2 ++ List.replicate 32 0#8)))).seq) ∧
    (heard st524 0 6 ((frm 6 2 false 0 40 (List.replicate 32 0x55#8 ++ leBytes 1 1 ++ List.replicate 3 0#8 ++ (List.range 28).map (BitVec.ofNat 8)))) ∧ firstCopy st524 ((frm 6 2 false 0 40 (List.replicate 32 0x55#8 ++ leBytes 1 1 ++ List.replicate 3 0#8 ++ (List.range 28).map (BitVec.ofNat 8)))) ∧ workerRx st524 (parseFrame ((frm 6 2 false 0 40 (List.replicate 32 0x55#8 ++ leBytes 1 1 ++ List.replicate 3 0#8 ++ (List.range 28).map (BitVec.ofNat 8))))).src = ((⟨2, 40, [], []⟩ : WorkerRx)) ∧ isManager st524 = true ∧ (parseFrame ((frm 6 2 false 0 40 (List.replicate 32 0x55#8 ++ leBytes 1 1 ++ List.replicate 3 0#8 ++ (List.range 28).map (BitVec.ofNat 8))))).src ≠ 0 ∧ ((⟨2, 40, [], []⟩ : WorkerRx)).got = [] ∧ ((⟨2, 40, [], []⟩ : WorkerRx)).held = [] ∧ (parseFrame ((frm 6 2 false 0 40 (List.replicate 32 0x55#8 ++ leBytes 1 1 ++ List.replicate 3 0#8 ++ (List.range 28).map (BitVec.ofNat 8))))).seq = ((⟨2, 40, [], []⟩ : WorkerRx)).next ∧ leAt (parseFrame ((frm 6 2 false 0 40 (List.replicate 32 0x55#8 ++ leBytes 1 1 ++ List.replicate 3 0#8 ++ (List.range 28).map (BitVec.ofNat 8))))).pay 32 1 ≠ 0) ∧
    (heard st528 0 6 ((frm 6 2 false 0 40 (recBytes ⟨77, 0x801, 2, false, false, false, List.replicate 12 0#8, 0, none⟩ 9 3 false false false 2 ++ List.replicate 32 0#8))) ∧ firstCopy st528 ((frm 6 2 false 0 40 (recBytes ⟨77, 0x801, 2, false, false, false, List.replicate 12 0#8, 0, none⟩ 9 3 false false false 2 ++ List.replicate 32 0#8))) ∧ workerRx st528 (parseFrame ((frm 6 2 false 0 40 (recBytes ⟨77, 0x801, 2, false, false, false, List.replicate 12 0#8, 0, none⟩ 9 3 false false false 2 ++ List.replicate 32 0#8)))).src = ((⟨2, 40, [41], [(41, 4000000, (recBytes ⟨77, 0x801, 2, false, false, false, List.replicate 12 0#8, 0, none⟩ 9 3 false false false 2 ++ List.replicate 32 0#8))]⟩ : WorkerRx)) ∧ isManager st528 = true ∧ (parseFrame ((frm 6 2 false 0 40 (recBytes ⟨77, 0x801, 2, false, false, false, List.replicate 12 0#8, 0, none⟩ 9 3 false false false 2 ++ List.replicate 32 0#8)))).src ≠ 0 ∧ (parseFrame ((frm 6 2 false 0 40 (recBytes ⟨77, 0x801, 2, false, false, false, List.replicate 12 0#8, 0, none⟩ 9 3 false false false 2 ++ List.replicate 32 0#8)))).seq = ((⟨2, 40, [41], [(41, 4000000, (recBytes ⟨77, 0x801, 2, false, false, false, List.replicate 12 0#8, 0, none⟩ 9 3 false false false 2 ++ List.replicate 32 0#8))]⟩ : WorkerRx)).next ∧ (parseFrame ((frm 6 2 false 0 40 (recBytes ⟨77, 0x801, 2, false, false, false, List.replicate 12 0#8, 0, none⟩ 9 3 false false false 2 ++ List.replicate 32 0#8)))).seq + 1 < 2 ^ 32 ∧ ((⟨2, 40, [41], [(41, 4000000, (recBytes ⟨77, 0x801, 2, false, false, false, List.replicate 12 0#8, 0, none⟩ 9 3 false false false 2 ++ List.replicate 32 0#8))]⟩ : WorkerRx)).got = [(parseFrame ((frm 6 2 false 0 40 (recBytes ⟨77, 0x801, 2, false, false, false, List.replicate 12 0#8, 0, none⟩ 9 3 false false false 2 ++ List.replicate 32 0#8)))).seq + 1] ∧ ((⟨2, 40, [41], [(41, 4000000, (recBytes ⟨77, 0x801, 2, false, false, false, List.replicate 12 0#8, 0, none⟩ 9 3 false false false 2 ++ List.replicate 32 0#8))]⟩ : WorkerRx)).held = [((parseFrame ((frm 6 2 false 0 40 (recBytes ⟨77, 0x801, 2, false, false, false, List.replicate 12 0#8, 0, none⟩ 9 3 false false false 2 ++ List.replicate 32 0#8)))).seq + 1, 4000000, (recBytes ⟨77, 0x801, 2, false, false, false, List.replicate 12 0#8, 0, none⟩ 9 3 false false false 2 ++ List.replicate 32 0#8))]) ∧
    (heard st471 0 6 ((frm 6 2 true 0 40 (recBytes ⟨77, 0x801, 2, false, false, false, List.replicate 12 0#8, 0, none⟩ 9 3 false false false 2 ++ List.replicate 32 0#8))) ∧ firstCopy st471 ((frm 6 2 true 0 40 (recBytes ⟨77, 0x801, 2, false, false, false, List.replicate 12 0#8, 0, none⟩ 9 3 false false false 2 ++ List.replicate 32 0#8))) ∧ isManager st471 = false) :=
  ⟨by unfold heard firstCopy; decide +kernel,
   by unfold heard firstCopy; decide +kernel,
   by unfold heard firstCopy; decide +kernel,
   by unfold heard firstCopy; decide +kernel,
   by unfold heard firstCopy; decide +kernel,
   by unfold heard firstCopy; decide +kernel⟩
/-- More clauses of `Obligations.ManagerTakesEventsAndVersions`. -/
theorem wit_ManagerTakesEventsAndVersions_2 :
    (heard st400 0 6 ((frm 6 0 false 0 40 (recBytes ⟨77, 0x801, 2, false, false, false, List.replicate 12 0#8, 0, none⟩ 9 3 false false false 2 ++ List.replicate 32 0#8))) ∧ firstCopy st400 ((frm 6 0 false 0 40 (recBytes ⟨77, 0x801, 2, false, false, false, List.replicate 12 0#8, 0, none⟩ 9 3 false false false 2 ++ List.replicate 32 0#8))) ∧ (parseFrame ((frm 6 0 false 0 40 (recBytes ⟨77, 0x801, 2, false, false, false, List.replicate 12 0#8, 0, none⟩ 9 3 false false false 2 ++ List.replicate 32 0#8)))).src = 0) ∧
    (heard st531 0 6 ((frm 6 2 false 0 41 (recBytes ⟨77, 0x801, 2, false, false, false, List.replicate 12 0#8, 0, none⟩ 9 3 false false false 2 ++ List.replicate 32 0#8))) ∧ frameMine st531 (parseFrame ((frm 6 2 false 0 41 (recBytes ⟨77, 0x801, 2, false, false, false, List.replicate 12 0#8, 0, none⟩ 9 3 false false false 2 ++ List.replicate 32 0#8)))) = true ∧ frameSeen st531 (parseFrame ((frm 6 2 false 0 41 (recBytes ⟨77, 0x801, 2, false, false, false, List.replicate 12 0#8, 0, none⟩ 9 3 false false false 2 ++ List.replicate 32 0#8)))) = true) ∧
    (st532.orl.workers = [((⟨2, 4294967290, [3], [(3, 4000000, (recBytes ⟨77, 0x801, 2, false, false, false, List.replicate 12 0#8, 0, none⟩ 9 3 false false false 2 ++ List.replicate 32 0#8))]⟩ : WorkerRx))] ∧ ((⟨2, 4294967290, [3], [(3, 4000000, (recBytes ⟨77, 0x801, 2, false, false, false, List.replicate 12 0#8, 0, none⟩ 9 3 false false false 2 ++ List.replicate 32 0#8))]⟩ : WorkerRx)).held = [(3, 4000000, (recBytes ⟨77, 0x801, 2, false, false, false, List.replicate 12 0#8, 0, none⟩ 9 3 false false false 2 ++ List.replicate 32 0#8))] ∧ ((⟨2, 4294967290, [3], [(3, 4000000, (recBytes ⟨77, 0x801, 2, false, false, false, List.replicate 12 0#8, 0, none⟩ 9 3 false false false 2 ++ List.replicate 32 0#8))]⟩ : WorkerRx)).got = [3] ∧ 3 < 2 ^ 32 ∧ ((⟨2, 4294967290, [3], [(3, 4000000, (recBytes ⟨77, 0x801, 2, false, false, false, List.replicate 12 0#8, 0, none⟩ 9 3 false false false 2 ++ List.replicate 32 0#8))]⟩ : WorkerRx)).next < 2 ^ 32 ∧ 3 ≠ ((⟨2, 4294967290, [3], [(3, 4000000, (recBytes ⟨77, 0x801, 2, false, false, false, List.replicate 12 0#8, 0, none⟩ 9 3 false false false 2 ++ List.replicate 32 0#8))]⟩ : WorkerRx)).next ∧ 9 = aheadOf ((⟨2, 4294967290, [3], [(3, 4000000, (recBytes ⟨77, 0x801, 2, false, false, false, List.replicate 12 0#8, 0, none⟩ 9 3 false false false 2 ++ List.replicate 32 0#8))]⟩ : WorkerRx)) 3) ∧
    ((∀ w ∈ up.orl.workers, w.held = []) ∧ (∀ d ∈ up.orl.dists, d.retryAt = none)) ∧
    (heard st535 0 8 ((frm 8 2 false 0 700 (leBytes 66 4 ++ leBytes 0 2 ++ [9#8, 6#8]))) ∧ firstCopy st535 ((frm 8 2 false 0 700 (leBytes 66 4 ++ leBytes 0 2 ++ [9#8, 6#8]))) ∧ ((leBytes 66 4 ++ leBytes 0 2 ++ [9#8, 6#8])) = (parseFrame ((frm 8 2 false 0 700 (leBytes 66 4 ++ leBytes 0 2 ++ [9#8, 6#8])))).pay ∧ 0 = leAt ((leBytes 66 4 ++ leBytes 0 2 ++ [9#8, 6#8])) 4 1 ∧ st535.orl.dists = [((⟨66, none, 2, 0, List.replicate 44 0#8, [(0, 0x100000), (257, 0x101000)], [0], false, some 0, none, false⟩ : Dist))] ∧ ((⟨66, none, 2, 0, List.replicate 44 0#8, [(0, 0x100000), (257, 0x101000)], [0], false, some 0, none, false⟩ : Dist)).vid = leAt ((leBytes 66 4 ++ leBytes 0 2 ++ [9#8, 6#8])) 0 4 ∧ ((⟨66, none, 2, 0, List.replicate 44 0#8, [(0, 0x100000), (257, 0x101000)], [0], false, some 0, none, false⟩ : Dist)).dst = (parseFrame ((frm 8 2 false 0 700 (leBytes 66 4 ++ leBytes 0 2 ++ [9#8, 6#8])))).src ∧ ((⟨66, none, 2, 0, List.replicate 44 0#8, [(0, 0x100000), (257, 0x101000)], [0], false, some 0, none, false⟩ : Dist)).accepted = false ∧ ((⟨66, none, 2, 0, List.replicate 44 0#8, [(0, 0x100000), (257, 0x101000)], [0], false, some 0, none, false⟩ : Dist)).waits = false ∧ ((⟨66, none, 2, 0, List.replicate 44 0#8, [(0, 0x100000), (257, 0x101000)], [0], false, some 0, none, false⟩ : Dist)).ready = [0] ∧ 0 ∈ ((⟨66, none, 2, 0, List.replicate 44 0#8, [(0, 0x100000), (257, 0x101000)], [0], false, some 0, none, false⟩ : Dist)).blocks.map (fun b => b.1)) ∧
    (heard st536 0 8 ((frm 8 2 false 0 700 (leBytes 66 4 ++ leBytes 0 2 ++ [9#8, 6#8]))) ∧ firstCopy st536 ((frm 8 2 false 0 700 (leBytes 66 4 ++ leBytes 0 2 ++ [9#8, 6#8]))) ∧ ((leBytes 66 4 ++ leBytes 0 2 ++ [9#8, 6#8])) = (parseFrame ((frm 8 2 false 0 700 (leBytes 66 4 ++ leBytes 0 2 ++ [9#8, 6#8])))).pay ∧ 0 = leAt ((leBytes 66 4 ++ leBytes 0 2 ++ [9#8, 6#8])) 4 1 ∧ st536.orl.dists = [((⟨66, none, 2, 0, List.replicate 44 0#8, [(0, 0x100000), (257, 0x101000)], [0], false, some 0, none, true⟩ : Dist))] ∧ ((⟨66, none, 2, 0, List.replicate 44 0#8, [(0, 0x100000), (257, 0x101000)], [0], false, some 0, none, true⟩ : Dist)).vid = leAt ((leBytes 66 4 ++ leBytes 0 2 ++ [9#8, 6#8])) 0 4 ∧ ((⟨66, none, 2, 0, List.replicate 44 0#8, [(0, 0x100000), (257, 0x101000)], [0], false, some 0, none, true⟩ : Dist)).dst = (parseFrame ((frm 8 2 false 0 700 (leBytes 66 4 ++ leBytes 0 2 ++ [9#8, 6#8])))).src ∧ ((⟨66, none, 2, 0, List.replicate 44 0#8, [(0, 0x100000), (257, 0x101000)], [0], false, some 0, none, true⟩ : Dist)).accepted = false ∧ ((⟨66, none, 2, 0, List.replicate 44 0#8, [(0, 0x100000), (257, 0x101000)], [0], false, some 0, none, true⟩ : Dist)).waits = true ∧ ((⟨66, none, 2, 0, List.replicate 44 0#8, [(0, 0x100000), (257, 0x101000)], [0], false, some 0, none, true⟩ : Dist)).ready = [0] ∧ 0 ∈ ((⟨66, none, 2, 0, List.replicate 44 0#8, [(0, 0x100000), (257, 0x101000)], [0], false, some 0, none, true⟩ : Dist)).blocks.map (fun b => b.1)) :=
  ⟨by unfold heard firstCopy; decide +kernel,
   by unfold heard; decide +kernel,
   by decide +kernel,
   by decide +kernel,
   by unfold heard firstCopy; decide +kernel,
   by unfold heard firstCopy; decide +kernel⟩
/-- More clauses of `Obligations.ManagerTakesEventsAndVersions`. -/
theorem wit_ManagerTakesEventsAndVersions_3 :
    (heard st535 0 8 ((frm 8 2 false 0 700 (leBytes 66 4 ++ leBytes 1 2 ++ [9#8, 6#8]))) ∧ firstCopy st535 ((frm 8 2 false 0 700 (leBytes 66 4 ++ leBytes 1 2 ++ [9#8, 6#8]))) ∧ ((leBytes 66 4 ++ leBytes 1 2 ++ [9#8, 6#8])) = (parseFrame ((frm 8 2 false 0 700 (leBytes 66 4 ++ leBytes 1 2 ++ [9#8, 6#8])))).pay ∧ 1 = leAt ((leBytes 66 4 ++ leBytes 1 2 ++ [9#8, 6#8])) 4 1 ∧ st535.orl.dists = [((⟨66, none, 2, 0, List.replicate 44 0#8, [(0, 0x100000), (257, 0x101000)], [0], false, some 0, none, false⟩ : Dist))] ∧ ((⟨66, none, 2, 0, List.replicate 44 0#8, [(0, 0x100000), (257, 0x101000)], [0], false, some 0, none, false⟩ : Dist)).vid = leAt ((leBytes 66 4 ++ leBytes 1 2 ++ [9#8, 6#8])) 0 4 ∧ ((⟨66, none, 2, 0, List.replicate 44 0#8, [(0, 0x100000), (257, 0x101000)], [0], false, some 0, none, false⟩ : Dist)).dst = (parseFrame ((frm 8 2 false 0 700 (leBytes 66 4 ++ leBytes 1 2 ++ [9#8, 6#8])))).src) ∧
    (heard st557 0 8 ((frm 8 2 false 0 700 (leBytes 66 4 ++ leBytes 0 4))) ∧ firstCopy st557 ((frm 8 2 false 0 700 (leBytes 66 4 ++ leBytes 0 4))) ∧ ((leBytes 66 4 ++ leBytes 0 4)) = (parseFrame ((frm 8 2 false 0 700 (leBytes 66 4 ++ leBytes 0 4)))).pay ∧ 0 = leAt ((leBytes 66 4 ++ leBytes 0 4)) 4 1 ∧ st557.orl.dists = [((⟨66, some 3, 2, 0, List.replicate 44 0#8, [(0, 0x100000), (257, 0x101000)], [0], true, some 0, some 9, false⟩ : Dist))] ∧ ((⟨66, some 3, 2, 0, List.replicate 44 0#8, [(0, 0x100000), (257, 0x101000)], [0], true, some 0, some 9, false⟩ : Dist)).vid = leAt ((leBytes 66 4 ++ leBytes 0 4)) 0 4 ∧ ((⟨66, some 3, 2, 0, List.replicate 44 0#8, [(0, 0x100000), (257, 0x101000)], [0], true, some 0, some 9, false⟩ : Dist)).dst = (parseFrame ((frm 8 2 false 0 700 (leBytes 66 4 ++ leBytes 0 4)))).src ∧ ((⟨66, some 3, 2, 0, List.replicate 44 0#8, [(0, 0x100000), (257, 0x101000)], [0], true, some 0, some 9, false⟩ : Dist)).accepted = true) ∧
    (heard st558 0 8 ((frm 8 2 false 0 700 (leBytes 67 4 ++ leBytes 0 4))) ∧ firstCopy st558 ((frm 8 2 false 0 700 (leBytes 67 4 ++ leBytes 0 4))) ∧ ((leBytes 67 4 ++ leBytes 0 4)) = (parseFrame ((frm 8 2 false 0 700 (leBytes 67 4 ++ leBytes 0 4)))).pay ∧ 0 = leAt ((leBytes 67 4 ++ leBytes 0 4)) 4 1 ∧ st558.orl.dists = [((⟨66, some 3, 2, 0, List.replicate 44 0#8, [(0, 0x100000), (257, 0x101000)], [0], false, some 0, some 9, false⟩ : Dist))] ∧ (((⟨66, some 3, 2, 0, List.replicate 44 0#8, [(0, 0x100000), (257, 0x101000)], [0], false, some 0, some 9, false⟩ : Dist)).vid ≠ leAt ((leBytes 67 4 ++ leBytes 0 4)) 0 4 ∨ ((⟨66, some 3, 2, 0, List.replicate 44 0#8, [(0, 0x100000), (257, 0x101000)], [0], false, some 0, some 9, false⟩ : Dist)).dst ≠ (parseFrame ((frm 8 2 false 0 700 (leBytes 67 4 ++ leBytes 0 4)))).src)) ∧
    (st560.orl.dists = [((⟨66, some 3, 2, 0, List.replicate 44 0#8, [(0, 0x100000), (257, 0x101000)], [0], false, some 0, some 6000000, false⟩ : Dist))] ∧ ((⟨66, some 3, 2, 0, List.replicate 44 0#8, [(0, 0x100000), (257, 0x101000)], [0], false, some 0, some 6000000, false⟩ : Dist)).retryAt = some 6000000 ∧ 0 ∈ distPorts ((⟨66, some 3, 2, 0, List.replicate 44 0#8, [(0, 0x100000), (257, 0x101000)], [0], false, some 0, some 6000000, false⟩ : Dist)) ∧ idlePort st560 0) ∧
    (heard st561 0 10 ((frm 10 2 false 0 700 (leBytes 66 4 ++ leBytes 0 1 ++ leBytes 1 1 ++ leBytes 1 1))) ∧ firstCopy st561 ((frm 10 2 false 0 700 (leBytes 66 4 ++ leBytes 0 1 ++ leBytes 1 1 ++ leBytes 1 1))) ∧ ((leBytes 66 4 ++ leBytes 0 1 ++ leBytes 1 1 ++ leBytes 1 1)) = (parseFrame ((frm 10 2 false 0 700 (leBytes 66 4 ++ leBytes 0 1 ++ leBytes 1 1 ++ leBytes 1 1)))).pay ∧ st561.orl.dists = [((⟨66, some 3, 2, 0, List.replicate 44 0#8, [(0, 0x100000), (257, 0x101000)], [0], true, some 0, none, false⟩ : Dist))] ∧ ((⟨66, some 3, 2, 0, List.replicate 44 0#8, [(0, 0x100000), (257, 0x101000)], [0], true, some 0, none, false⟩ : Dist)).vid = leAt ((leBytes 66 4 ++ leBytes 0 1 ++ leBytes 1 1 ++ leBytes 1 1)) 0 4 ∧ ((⟨66, some 3, 2, 0, List.replicate 44 0#8, [(0, 0x100000), (257, 0x101000)], [0], true, some 0, none, false⟩ : Dist)).dst = (parseFrame ((frm 10 2 false 0 700 (leBytes 66 4 ++ leBytes 0 1 ++ leBytes 1 1 ++ leBytes 1 1)))).src ∧ ((⟨66, some 3, 2, 0, List.replicate 44 0#8, [(0, 0x100000), (257, 0x101000)], [0], true, some 0, none, false⟩ : Dist)).blocks.find? (fun b => b.1 = (65536 * leAt ((leBytes 66 4 ++ leBytes 0 1 ++ leBytes 1 1 ++ leBytes 1 1)) 4 1 + 256 * leAt ((leBytes 66 4 ++ leBytes 0 1 ++ leBytes 1 1 ++ leBytes 1 1)) 6 1 + leAt ((leBytes 66 4 ++ leBytes 0 1 ++ leBytes 1 1 ++ leBytes 1 1)) 5 1)) = some ((65536 * leAt ((leBytes 66 4 ++ leBytes 0 1 ++ leBytes 1 1 ++ leBytes 1 1)) 4 1 + 256 * leAt ((leBytes 66 4 ++ leBytes 0 1 ++ leBytes 1 1 ++ leBytes 1 1)) 6 1 + leAt ((leBytes 66 4 ++ leBytes 0 1 ++ leBytes 1 1 ++ leBytes 1 1)) 5 1), 0x101000) ∧ (parseFrame ((frm 10 2 false 0 700 (leBytes 66 4 ++ leBytes 0 1 ++ leBytes 1 1 ++ leBytes 1 1)))).bcast = false ∧ 0 ∈ distPorts ((⟨66, some 3, 2, 0, List.replicate 44 0#8, [(0, 0x100000), (257, 0x101000)], [0], true, some 0, none, false⟩ : Dist)) ∧ idlePort st561 0) ∧
    (heard st561 0 10 ((frm 10 2 false 0 700 (leBytes 67 4 ++ leBytes 0 1 ++ leBytes 1 1 ++ leBytes 1 1))) ∧ firstCopy st561 ((frm 10 2 false 0 700 (leBytes 67 4 ++ leBytes 0 1 ++ leBytes 1 1 ++ leBytes 1 1))) ∧ ((leBytes 67 4 ++ leBytes 0 1 ++ leBytes 1 1 ++ leBytes 1 1)) = (parseFrame ((frm 10 2 false 0 700 (leBytes 67 4 ++ leBytes 0 1 ++ leBytes 1 1 ++ leBytes 1 1)))).pay ∧ st561.orl.dists = [((⟨66, some 3, 2, 0, List.replicate 44 0#8, [(0, 0x100000), (257, 0x101000)], [0], true, some 0, none, false⟩ : Dist))] ∧ (((⟨66, some 3, 2, 0, List.replicate 44 0#8, [(0, 0x100000), (257, 0x101000)], [0], true, some 0, none, false⟩ : Dist)).vid ≠ leAt ((leBytes 67 4 ++ leBytes 0 1 ++ leBytes 1 1 ++ leBytes 1 1)) 0 4 ∨ ((⟨66, some 3, 2, 0, List.replicate 44 0#8, [(0, 0x100000), (257, 0x101000)], [0], true, some 0, none, false⟩ : Dist)).dst ≠ (parseFrame ((frm 10 2 false 0 700 (leBytes 67 4 ++ leBytes 0 1 ++ leBytes 1 1 ++ leBytes 1 1)))).src ∨ (∀ b ∈ ((⟨66, some 3, 2, 0, List.replicate 44 0#8, [(0, 0x100000), (257, 0x101000)], [0], true, some 0, none, false⟩ : Dist)).blocks, b.1 ≠ (65536 * leAt ((leBytes 67 4 ++ leBytes 0 1 ++ leBytes 1 1 ++ leBytes 1 1)) 4 1 + 256 * leAt ((leBytes 67 4 ++ leBytes 0 1 ++ leBytes 1 1 ++ leBytes 1 1)) 6 1 + leAt ((leBytes 67 4 ++ leBytes 0 1 ++ leBytes 1 1 ++ leBytes 1 1)) 5 1)))) :=
  ⟨by unfold heard firstCopy; decide +kernel,
   by unfold heard firstCopy; decide +kernel,
   by unfold heard firstCopy; decide +kernel,
   by unfold idlePort; decide +kernel,
   by unfold heard firstCopy idlePort; decide +kernel,
   by unfold heard firstCopy; decide +kernel⟩
/-- More clauses of `Obligations.ManagerTakesEventsAndVersions`. -/
theorem wit_ManagerTakesEventsAndVersions_4 :
    (served st565 F.ORL_TX_GO_go.off true ∧ isManager st565 = true ∧ rd st565 F.ORL_TX_STAT_running = 0 ∧ 2 = (if verInvalid st565 (verDesc ((List.range 8).map (fun k => rd st565 (F.ORL_TX_DESC_word k)))) = true ∨ rd st565 F.ORL_TX_DST_dst = 0 ∨ nDev st565 ≤ rd st565 F.ORL_TX_DST_dst then 2 else if (surf st565 (verDesc ((List.range 8).map (fun k => rd st565 (F.ORL_TX_DESC_word k)))).surface).prot = true then 7 else if reachable st565 (rd st565 F.ORL_TX_DST_dst) = false then 8 else 0)) ∧
    (served st570 F.ORL_TX_GO_go.off true ∧ isManager st570 = true ∧ rd st570 F.ORL_TX_STAT_running = 0 ∧ verInvalid st570 (verDesc ((List.range 8).map (fun k => rd st570 (F.ORL_TX_DESC_word k)))) = false ∧ rd st570 F.ORL_TX_DST_dst ≠ 0 ∧ rd st570 F.ORL_TX_DST_dst < nDev st570 ∧ (surf st570 (verDesc ((List.range 8).map (fun k => rd st570 (F.ORL_TX_DESC_word k)))).surface).prot = false ∧ reachable st570 (rd st570 F.ORL_TX_DST_dst) = true ∧ idlePort st570 0 ∧ idlePort st570 1) ∧
    (served st471 F.ORL_TX_GO_go.off true ∧ (isManager st471 = false ∨ rd st471 F.ORL_TX_STAT_running = 1)) :=
  ⟨by unfold served; decide +kernel,
   by unfold served idlePort; decide +kernel,
   by unfold served; decide +kernel⟩
/-- Hypotheses of `Obligations.WorkerReceivesVersions` are met, clause by clause. -/
theorem wit_WorkerReceivesVersions :
    (isWorker st573 = true ∧ heard st573 1 7 ((frm 7 0 false 1 700 (leBytes 66 4 ++ leBytes 536870912 4 ++ leBytes 3 4 ++ leBytes 7 4 ++ leBytes 16842752 4 ++ leBytes 0 16 ++ leBytes 1 2 ++ leBytes 0 10))) ∧ firstCopy st573 ((frm 7 0 false 1 700 (leBytes 66 4 ++ leBytes 536870912 4 ++ leBytes 3 4 ++ leBytes 7 4 ++ leBytes 16842752 4 ++ leBytes 0 16 ++ leBytes 1 2 ++ leBytes 0 10))) ∧ ((leBytes 66 4 ++ leBytes 536870912 4 ++ leBytes 3 4 ++ leBytes 7 4 ++ leBytes 16842752 4 ++ leBytes 0 16 ++ leBytes 1 2 ++ leBytes 0 10)) = (parseFrame ((frm 7 0 false 1 700 (leBytes 66 4 ++ leBytes 536870912 4 ++ leBytes 3 4 ++ leBytes 7 4 ++ leBytes 16842752 4 ++ leBytes 0 16 ++ leBytes 1 2 ++ leBytes 0 10)))).pay ∧ ((⟨66, 7, 0, [0, 1, 256, 257], [], 4000000, 4⟩ : RxVer)) ∈ st573.orl.rx ∧ ((⟨66, 7, 0, [0, 1, 256, 257], [], 4000000, 4⟩ : RxVer)).vid = leAt ((leBytes 66 4 ++ leBytes 536870912 4 ++ leBytes 3 4 ++ leBytes 7 4 ++ leBytes 16842752 4 ++ leBytes 0 16 ++ leBytes 1 2 ++ leBytes 0 10)) 0 4) ∧
    (isWorker st574 = true ∧ heard st574 1 7 ((frm 7 0 false 1 700 (leBytes 66 4 ++ leBytes 536870912 4 ++ leBytes 3 4 ++ leBytes 7 4 ++ leBytes 16842752 4 ++ leBytes 0 16 ++ leBytes 1 2 ++ leBytes 0 10))) ∧ firstCopy st574 ((frm 7 0 false 1 700 (leBytes 66 4 ++ leBytes 536870912 4 ++ leBytes 3 4 ++ leBytes 7 4 ++ leBytes 16842752 4 ++ leBytes 0 16 ++ leBytes 1 2 ++ leBytes 0 10))) ∧ ((leBytes 66 4 ++ leBytes 536870912 4 ++ leBytes 3 4 ++ leBytes 7 4 ++ leBytes 16842752 4 ++ leBytes 0 16 ++ leBytes 1 2 ++ leBytes 0 10)) = (parseFrame ((frm 7 0 false 1 700 (leBytes 66 4 ++ leBytes 536870912 4 ++ leBytes 3 4 ++ leBytes 7 4 ++ leBytes 16842752 4 ++ leBytes 0 16 ++ leBytes 1 2 ++ leBytes 0 10)))).pay ∧ (∀ r ∈ st574.orl.rx, r.vid ≠ leAt ((leBytes 66 4 ++ leBytes 536870912 4 ++ leBytes 3 4 ++ leBytes 7 4 ++ leBytes 16842752 4 ++ leBytes 0 16 ++ leBytes 1 2 ++ leBytes 0 10)) 0 4) ∧ (∃ e ∈ st574.orl.ended, e.1 = leAt ((leBytes 66 4 ++ leBytes 536870912 4 ++ leBytes 3 4 ++ leBytes 7 4 ++ leBytes 16842752 4 ++ leBytes 0 16 ++ leBytes 1 2 ++ leBytes 0 10)) 0 4)) ∧
    (isWorker st575 = true ∧ heard st575 1 7 ((frm 7 0 false 1 700 (leBytes 67 4 ++ leBytes 536870912 4 ++ leBytes 3 4 ++ leBytes 7 4 ++ leBytes 16842752 4 ++ leBytes 0 16 ++ leBytes 1 2 ++ leBytes 1 10))) ∧ firstCopy st575 ((frm 7 0 false 1 700 (leBytes 67 4 ++ leBytes 536870912 4 ++ leBytes 3 4 ++ leBytes 7 4 ++ leBytes 16842752 4 ++ leBytes 0 16 ++ leBytes 1 2 ++ leBytes 1 10))) ∧ ((leBytes 67 4 ++ leBytes 536870912 4 ++ leBytes 3 4 ++ leBytes 7 4 ++ leBytes 16842752 4 ++ leBytes 0 16 ++ leBytes 1 2 ++ leBytes 1 10)) = (parseFrame ((frm 7 0 false 1 700 (leBytes 67 4 ++ leBytes 536870912 4 ++ leBytes 3 4 ++ leBytes 7 4 ++ leBytes 16842752 4 ++ leBytes 0 16 ++ leBytes 1 2 ++ leBytes 1 10)))).pay ∧ (∀ r ∈ st575.orl.rx, r.vid ≠ leAt ((leBytes 67 4 ++ leBytes 536870912 4 ++ leBytes 3 4 ++ leBytes 7 4 ++ leBytes 16842752 4 ++ leBytes 0 16 ++ leBytes 1 2 ++ leBytes 1 10)) 0 4) ∧ (∀ e ∈ st575.orl.ended, e.1 ≠ leAt ((leBytes 67 4 ++ leBytes 536870912 4 ++ leBytes 3 4 ++ leBytes 7 4 ++ leBytes 16842752 4 ++ leBytes 0 16 ++ leBytes 1 2 ++ leBytes 1 10)) 0 4) ∧ ((verRefusal (resolveDue st575) ((leBytes 67 4 ++ leBytes 536870912 4 ++ leBytes 3 4 ++ leBytes 7 4 ++ leBytes 16842752 4 ++ leBytes 0 16 ++ leBytes 1 2 ++ leBytes 1 10))).map (fun c => c.1)) = some 2) ∧
    (isWorker st580 = true ∧ heard st580 1 7 ((frm 7 0 false 1 700 (leBytes 67 4 ++ leBytes 536870912 4 ++ leBytes 3 4 ++ leBytes 7 4 ++ leBytes 16842752 4 ++ leBytes 0 16 ++ leBytes 1 2 ++ leBytes 0 10))) ∧ firstCopy st580 ((frm 7 0 false 1 700 (leBytes 67 4 ++ leBytes 536870912 4 ++ leBytes 3 4 ++ leBytes 7 4 ++ leBytes 16842752 4 ++ leBytes 0 16 ++ leBytes 1 2 ++ leBytes 0 10))) ∧ ((leBytes 67 4 ++ leBytes 536870912 4 ++ leBytes 3 4 ++ leBytes 7 4 ++ leBytes 16842752 4 ++ leBytes 0 16 ++ leBytes 1 2 ++ leBytes 0 10)) = (parseFrame ((frm 7 0 false 1 700 (leBytes 67 4 ++ leBytes 536870912 4 ++ leBytes 3 4 ++ leBytes 7 4 ++ leBytes 16842752 4 ++ leBytes 0 16 ++ leBytes 1 2 ++ leBytes 0 10)))).pay ∧ (∀ r ∈ st580.orl.rx, r.vid ≠ leAt ((leBytes 67 4 ++ leBytes 536870912 4 ++ leBytes 3 4 ++ leBytes 7 4 ++ leBytes 16842752 4 ++ leBytes 0 16 ++ leBytes 1 2 ++ leBytes 0 10)) 0 4) ∧ (∀ e ∈ st580.orl.ended, e.1 ≠ leAt ((leBytes 67 4 ++ leBytes 536870912 4 ++ leBytes 3 4 ++ leBytes 7 4 ++ leBytes 16842752 4 ++ leBytes 0 16 ++ leBytes 1 2 ++ leBytes 0 10)) 0 4) ∧ verRefusal (resolveDue st580) ((leBytes 67 4 ++ leBytes 536870912 4 ++ leBytes 3 4 ++ leBytes 7 4 ++ leBytes 16842752 4 ++ leBytes 0 16 ++ leBytes 1 2 ++ leBytes 0 10)) = none) ∧
    (isWorker st575 = true ∧ heard st575 0 9 ((frm 9 0 false 1 700 (leBytes 66 4 ++ leBytes 0 1 ++ leBytes 1 1 ++ leBytes 1 1 ++ leBytes 0 9 ++ leBytes 0xABCDEF 32))) ∧ firstCopy st575 ((frm 9 0 false 1 700 (leBytes 66 4 ++ leBytes 0 1 ++ leBytes 1 1 ++ leBytes 1 1 ++ leBytes 0 9 ++ leBytes 0xABCDEF 32))) ∧ ((leBytes 66 4 ++ leBytes 0 1 ++ leBytes 1 1 ++ leBytes 1 1 ++ leBytes 0 9 ++ leBytes 0xABCDEF 32)) = (parseFrame ((frm 9 0 false 1 700 (leBytes 66 4 ++ leBytes 0 1 ++ leBytes 1 1 ++ leBytes 1 1 ++ leBytes 0 9 ++ leBytes 0xABCDEF 32)))).pay ∧ (∀ r ∈ st575.orl.rx, r.vid ≠ leAt ((leBytes 66 4 ++ leBytes 0 1 ++ leBytes 1 1 ++ leBytes 1 1 ++ leBytes 0 9 ++ leBytes 0xABCDEF 32)) 0 4)) ∧
    (isWorker st573 = true ∧ heard st573 0 9 ((frm 9 0 false 1 700 (leBytes 66 4 ++ leBytes 0 1 ++ leBytes 1 1 ++ leBytes 1 1 ++ leBytes 0 9 ++ leBytes 0xABCDEF 32))) ∧ firstCopy st573 ((frm 9 0 false 1 700 (leBytes 66 4 ++ leBytes 0 1 ++ leBytes 1 1 ++ leBytes 1 1 ++ leBytes 0 9 ++ leBytes 0xABCDEF 32))) ∧ ((leBytes 66 4 ++ leBytes 0 1 ++ leBytes 1 1 ++ leBytes 1 1 ++ leBytes 0 9 ++ leBytes 0xABCDEF 32)) = (parseFrame ((frm 9 0 false 1 700 (leBytes 66 4 ++ leBytes 0 1 ++ leBytes 1 1 ++ leBytes 1 1 ++ leBytes 0 9 ++ leBytes 0xABCDEF 32)))).pay ∧ st573.orl.rx = [((⟨66, 7, 0, [0, 1, 256, 257], [], 4000000, 4⟩ : RxVer))] ∧ ((⟨66, 7, 0, [0, 1, 256, 257], [], 4000000, 4⟩ : RxVer)).vid = leAt ((leBytes 66 4 ++ leBytes 0 1 ++ leBytes 1 1 ++ leBytes 1 1 ++ leBytes 0 9 ++ leBytes 0xABCDEF 32)) 0 4 ∧ 65536 * leAt ((leBytes 66 4 ++ leBytes 0 1 ++ leBytes 1 1 ++ leBytes 1 1 ++ leBytes 0 9 ++ leBytes 0xABCDEF 32)) 4 1 + 256 * leAt ((leBytes 66 4 ++ leBytes 0 1 ++ leBytes 1 1 ++ leBytes 1 1 ++ leBytes 0 9 ++ leBytes 0xABCDEF 32)) 6 1 + leAt ((leBytes 66 4 ++ leBytes 0 1 ++ leBytes 1 1 ++ leBytes 1 1 ++ leBytes 0 9 ++ leBytes 0xABCDEF 32)) 5 1 ∈ ((⟨66, 7, 0, [0, 1, 256, 257], [], 4000000, 4⟩ : RxVer)).left) :=
  ⟨by unfold heard firstCopy; decide +kernel,
   by unfold heard firstCopy; decide +kernel,
   by unfold heard firstCopy; decide +kernel,
   by unfold heard firstCopy; decide +kernel,
   by unfold heard firstCopy; decide +kernel,
   by unfold heard firstCopy; decide +kernel⟩
/-- More clauses of `Obligations.WorkerReceivesVersions`. -/
theorem wit_WorkerReceivesVersions_2 :
    (isWorker st573 = true ∧ heard st573 0 9 ((frm 9 0 false 1 700 (leBytes 66 4 ++ leBytes 0 1 ++ leBytes 2 1 ++ leBytes 1 1 ++ leBytes 0 9 ++ leBytes 0xABCDEF 32))) ∧ firstCopy st573 ((frm 9 0 false 1 700 (leBytes 66 4 ++ leBytes 0 1 ++ leBytes 2 1 ++ leBytes 1 1 ++ leBytes 0 9 ++ leBytes 0xABCDEF 32))) ∧ ((leBytes 66 4 ++ leBytes 0 1 ++ leBytes 2 1 ++ leBytes 1 1 ++ leBytes 0 9 ++ leBytes 0xABCDEF 32)) = (parseFrame ((frm 9 0 false 1 700 (leBytes 66 4 ++ leBytes 0 1 ++ leBytes 2 1 ++ leBytes 1 1 ++ leBytes 0 9 ++ leBytes 0xABCDEF 32)))).pay ∧ st573.orl.rx = [((⟨66, 7, 0, [0, 1, 256, 257], [], 4000000, 4⟩ : RxVer))] ∧ ((⟨66, 7, 0, [0, 1, 256, 257], [], 4000000, 4⟩ : RxVer)).vid = leAt ((leBytes 66 4 ++ leBytes 0 1 ++ leBytes 2 1 ++ leBytes 1 1 ++ leBytes 0 9 ++ leBytes 0xABCDEF 32)) 0 4 ∧ 65536 * leAt ((leBytes 66 4 ++ leBytes 0 1 ++ leBytes 2 1 ++ leBytes 1 1 ++ leBytes 0 9 ++ leBytes 0xABCDEF 32)) 4 1 + 256 * leAt ((leBytes 66 4 ++ leBytes 0 1 ++ leBytes 2 1 ++ leBytes 1 1 ++ leBytes 0 9 ++ leBytes 0xABCDEF 32)) 6 1 + leAt ((leBytes 66 4 ++ leBytes 0 1 ++ leBytes 2 1 ++ leBytes 1 1 ++ leBytes 0 9 ++ leBytes 0xABCDEF 32)) 5 1 ∉ ((⟨66, 7, 0, [0, 1, 256, 257], [], 4000000, 4⟩ : RxVer)).left) ∧
    (st584.cdc.decLanes.getD 15 none = some ((⟨3, false, 0x200000, 0, 0, some (encodeBlock 0 0 false (List.replicate 1024 9)), .orsal 66 257, 0⟩ : DecReq)) ∧ ((⟨3, false, 0x200000, 0, 0, some (encodeBlock 0 0 false (List.replicate 1024 9)), .orsal 66 257, 0⟩ : DecReq)).tag = .orsal ((⟨66, 7, 0, [0, 1, 256, 257], [], 4000000, 4⟩ : RxVer)).vid 257 ∧ st584.orl.rx = [((⟨66, 7, 0, [0, 1, 256, 257], [], 4000000, 4⟩ : RxVer))] ∧ 257 ∈ ((⟨66, 7, 0, [0, 1, 256, 257], [], 4000000, 4⟩ : RxVer)).left ∧ (finishDec st584 15 ((⟨3, false, 0x200000, 0, 0, some (encodeBlock 0 0 false (List.replicate 1024 9)), .orsal 66 257, 0⟩ : DecReq)) false).1 = .ok (List.replicate 1024 9) false ∧ ((⟨3, false, 0x200000, 0, 0, some (encodeBlock 0 0 false (List.replicate 1024 9)), .orsal 66 257, 0⟩ : DecReq)).addr + (((⟨3, false, 0x200000, 0, 0, some (encodeBlock 0 0 false (List.replicate 1024 9)), .orsal 66 257, 0⟩ : DecReq)).bytes.getD []).length ≤ memCap st584) ∧
    (st585.cdc.decLanes.getD 15 none = some ((⟨3, false, 0x200000, 0, 0, some [1#8], .orsal 66 257, 0⟩ : DecReq)) ∧ ((⟨3, false, 0x200000, 0, 0, some [1#8], .orsal 66 257, 0⟩ : DecReq)).tag = .orsal ((⟨66, 7, 0, [0, 1, 256, 257], [], 4000000, 4⟩ : RxVer)).vid 257 ∧ st585.orl.rx = [((⟨66, 7, 0, [0, 1, 256, 257], [], 4000000, 4⟩ : RxVer))] ∧ 257 ∈ ((⟨66, 7, 0, [0, 1, 256, 257], [], 4000000, 4⟩ : RxVer)).left ∧ (finishDec st585 15 ((⟨3, false, 0x200000, 0, 0, some [1#8], .orsal 66 257, 0⟩ : DecReq)) true).1 = .err 1) ∧
    (up.cdc.decLanes.getD 3 none = none ∧ up.orl.rx = [] ∧ (oport up 1).sending = none) ∧
    (st573.orl.rx = [((⟨66, 7, 0, [0, 1, 256, 257], [], 4000000, 4⟩ : RxVer))]) ∧
    ((oport st589 1).sending = some [1#8] ∧ isManager st589 = true ∧ (oport st589 1).queue = []) :=
  ⟨by unfold heard firstCopy; decide +kernel,
   by decide +kernel,
   by decide +kernel,
   by decide +kernel,
   by decide +kernel,
   by decide +kernel⟩
/-- More clauses of `Obligations.WorkerReceivesVersions`. -/
theorem wit_WorkerReceivesVersions_3 : ((oport st590 1).sending = some [1#8] ∧ isManager st590 = true ∧ ((ownFrame up 4 false 2 [5#8])) ∈ (oport st590 1).queue ∧ (∀ g ∈ (oport st590 1).queue, ((ownFrame up 4 false 2 [5#8])).prec ≤ g.prec ∧ stale st590m g = false)) := by decide +kernel
/-- Hypotheses of `Obligations.FrameMemoryChecksAndRetraining` are met, clause by clause. -/
theorem wit_FrameMemoryChecksAndRetraining :
    (outputsRun st591 = true ∧ chanInUse st591 3 = true ∧ (∀ d ∈ List.range 8, chanInUse st591 d = true → st591.mem.trainAt.getD 3 0 ≤ st591.mem.trainAt.getD d 0 ∧ (d < 3 → st591.mem.trainAt.getD 3 0 < st591.mem.trainAt.getD d 0)) ∧ blankingSlot st591 (max (max st591.tick (st591.mem.trainAt.getD 3 0 + rd st591 F.MEM_TRAIN_period_ms * Config.tickMs)) ((st591.mem.slot.map (fun x => x.2)).getD 0)) (1500 * rd st591 F.MEM_TRAIN_slot) = some 10100) ∧
    (slotChannel st593 = some 3 ∧ blankingSlot st593 (max (max st593.tick (st593.mem.trainAt.getD 3 0 + rd st593 F.MEM_TRAIN_period_ms * Config.tickMs)) ((st593.mem.slot.map (fun x => x.2)).getD 0)) (1500 * rd st593 F.MEM_TRAIN_slot) = none) ∧
    (outputsRun st594 = false ∨ (∀ c ∈ List.range 8, chanInUse st594 c = false)) ∧
    (outputsRun st596 = true ∧ chanInUse st596 5 = true ∧ bitOf st596 F.MEM_STATUS_overdue 5 = false) ∧
    (outputsRun st597 = false ∨ chanInUse st597 0 = false ∨ bitOf st597 F.MEM_STATUS_overdue 0 = true) ∧
    (memCap st599 ≤ (0xF800000000#40).toNat) :=
  ⟨by decide +kernel,
   by decide +kernel,
   by decide +kernel,
   by decide +kernel,
   by decide +kernel,
   by decide +kernel⟩
/-- More clauses of `Obligations.FrameMemoryChecksAndRetraining`. -/
theorem wit_FrameMemoryChecksAndRetraining_2 :
    ((0xF7FFFFC0#40).toNat < memCap st600 ∧ rd st600 F.MEM_EDC_retries < (4 : Fin 17).val) ∧
    ((0x400080#40).toNat < memCap st599 ∧ rd st599 F.MEM_EDC_retries < (4 : Fin 17).val ∧ (∀ l ∈ List.range 16, laneReads st599 l 0x500080 = false)) ∧
    ((0x500080#40).toNat < memCap st602 ∧ (0 : Fin 17).val ≤ rd st602 F.MEM_EDC_retries) ∧
    ((0x400040#40).toNat < memCap st599 ∧ (3 : Fin 17).val ≤ rd st599 F.MEM_EDC_retries ∧ sget false st599.mem.gpoison ((0x400040#40).toNat / 64) = false) ∧
    ((0x400040#40).toNat < memCap st599 ∧ (3 : Fin 17).val ≤ rd st599 F.MEM_EDC_retries ∧ (Ecc.double = .double ∨ sget false st599.mem.gpoison ((0x400040#40).toNat / 64) = true)) ∧
    ((0x400000#40).toNat < memCap st599 ∧ (3 : Fin 17).val ≤ rd st599 F.MEM_EDC_retries ∧ (Ecc.clean = .double ∨ sget false st599.mem.gpoison ((0x400000#40).toNat / 64) = true)) :=
  ⟨by decide +kernel,
   by decide +kernel,
   by decide +kernel,
   by decide +kernel,
   by decide +kernel,
   by decide +kernel⟩
/-- More clauses of `Obligations.FrameMemoryChecksAndRetraining`. -/
theorem wit_FrameMemoryChecksAndRetraining_3 :
    ((0x400000#40).toNat < memCap st599 ∧ st599.mem.slot = some (memChan st599 0x400000, 800) ∧ (memOrder st599 (memChan st599 0x400000)).find? (fun q => laneReads st599 q.lane 0x400000) = some ⟨4, 5, false⟩) ∧
    (rd st611 F.MEM_SCRUB_en = 1 ∧ 64 * st611.mem.scrubPos + 64 < memCap st611) ∧
    (rd st612 F.MEM_SCRUB_en = 1 ∧ memCap st612 ≤ 64 * st612.mem.scrubPos + 64) ∧
    (rd pan F.MEM_SCRUB_en = 0) ∧
    (2 < 8 ∧ chanInUse st614 2 = true) ∧
    (∀ c ∈ List.range 8, chanInUse pan c = false) :=
  ⟨by decide +kernel,
   by decide +kernel,
   by decide +kernel,
   by decide +kernel,
   by decide +kernel,
   by decide +kernel⟩
/-- More clauses of `Obligations.FrameMemoryChecksAndRetraining`. -/
theorem wit_FrameMemoryChecksAndRetraining_4 :
    (st617.mem.waiting.find? (fun m => decide (5 ≤ memClass st617 m) && decide (memClass st617 m ≤ 7)) = some ⟨4, 5, false⟩) ∧
    (st618.mem.waiting.find? (fun m => decide (5 ≤ memClass st618 m) && decide (memClass st618 m ≤ 7)) = none) :=
  ⟨by decide +kernel,
   by decide +kernel⟩
/-- Hypotheses of `Obligations.LocalStoreAccesses` are met, clause by clause. -/
theorem wit_LocalStoreAccesses :
    (((⟨0, false, 0x3FFFE#24, true, [1#8, 2#8, 3#8], 0, .clean, true⟩ : LsReq)).wellFormed = true ∧ ((⟨0, false, 0x3FFFE#24, true, [1#8, 2#8, 3#8], 0, .clean, true⟩ : LsReq)).strip = false ∧ (((⟨0, false, 0x3FFFE#24, true, [1#8, 2#8, 3#8], 0, .clean, true⟩ : LsReq)).off.toNat / 0x40000 ≠ (((⟨0, false, 0x3FFFE#24, true, [1#8, 2#8, 3#8], 0, .clean, true⟩ : LsReq)).off.toNat + ((⟨0, false, 0x3FFFE#24, true, [1#8, 2#8, 3#8], 0, .clean, true⟩ : LsReq)).data.length - 1) / 0x40000 ∨ (0xF80000 ≤ ((⟨0, false, 0x3FFFE#24, true, [1#8, 2#8, 3#8], 0, .clean, true⟩ : LsReq)).off.toNat ∧ ((⟨0, false, 0x3FFFE#24, true, [1#8, 2#8, 3#8], 0, .clean, true⟩ : LsReq)).master.val ≠ 5 ∧ ((⟨0, false, 0x3FFFE#24, true, [1#8, 2#8, 3#8], 0, .clean, true⟩ : LsReq)).master.val ≠ 6))) ∧
    (((⟨2, false, 0xF80000#24, false, [], 16, .clean, false⟩ : LsReq)).wellFormed = true ∧ ((⟨2, false, 0xF80000#24, false, [], 16, .clean, false⟩ : LsReq)).strip = false ∧ (0xF80000 ≤ ((⟨2, false, 0xF80000#24, false, [], 16, .clean, false⟩ : LsReq)).off.toNat ∧ ((⟨2, false, 0xF80000#24, false, [], 16, .clean, false⟩ : LsReq)).master.val ≠ 5 ∧ ((⟨2, false, 0xF80000#24, false, [], 16, .clean, false⟩ : LsReq)).master.val ≠ 6)) ∧
    (((⟨2, false, 0xf7fff0#24, true, [1#8, 2#8, 3#8, 4#8, 5#8, 6#8, 7#8, 8#8, 9#8, 10#8, 11#8, 12#8, 13#8, 14#8, 15#8, 16#8], 0, .clean, false⟩ : LsReq)).wellFormed = true ∧ ((⟨2, false, 0xf7fff0#24, true, [1#8, 2#8, 3#8, 4#8, 5#8, 6#8, 7#8, 8#8, 9#8, 10#8, 11#8, 12#8, 13#8, 14#8, 15#8, 16#8], 0, .clean, false⟩ : LsReq)).strip = false ∧ 0xf7fff0 / 0x40000 = (0xf7fff0 + 16 - 1) / 0x40000 ∧ (0xf7fff0 < 0xF80000 ∨ (((⟨2, false, 0xf7fff0#24, true, [1#8, 2#8, 3#8, 4#8, 5#8, 6#8, 7#8, 8#8, 9#8, 10#8, 11#8, 12#8, 13#8, 14#8, 15#8, 16#8], 0, .clean, false⟩ : LsReq)).master.val = 5 ∧ pan.mem.mbxB = []) ∨ (((⟨2, false, 0xf7fff0#24, true, [1#8, 2#8, 3#8, 4#8, 5#8, 6#8, 7#8, 8#8, 9#8, 10#8, 11#8, 12#8, 13#8, 14#8, 15#8, 16#8], 0, .clean, false⟩ : LsReq)).master.val = 6 ∧ pan.mem.mbxA = []))) ∧
    (((⟨2, false, 0xf7fff0#24, false, [], 16, .clean, true⟩ : LsReq)).wellFormed = true ∧ ((⟨2, false, 0xf7fff0#24, false, [], 16, .clean, true⟩ : LsReq)).strip = false ∧ 0xf7fff0 / 0x40000 = (0xf7fff0 + 16 - 1) / 0x40000 ∧ (0xf7fff0 < 0xF80000 ∨ (((⟨2, false, 0xf7fff0#24, false, [], 16, .clean, true⟩ : LsReq)).master.val = 5 ∧ st626.mem.mbxB = []) ∨ (((⟨2, false, 0xf7fff0#24, false, [], 16, .clean, true⟩ : LsReq)).master.val = 6 ∧ st626.mem.mbxA = [])) ∧ ((sget BankArb.reset st626.mem.arbs (((⟨2, false, 0xf7fff0#24, false, [], 16, .clean, true⟩ : LsReq)).off.toNat / 0x40000)).wait = [] ∧ ((⟨2, false, 0xf7fff0#24, false, [], 16, .clean, true⟩ : LsReq)).master.val ≠ 0) ∧ sget false st626.mem.lpoison (16252912 / 8) = false) ∧
    (((⟨7, false, 0x40#24, false, [], 16, .clean, true⟩ : LsReq)).wellFormed = true ∧ ((⟨7, false, 0x40#24, false, [], 16, .clean, true⟩ : LsReq)).strip = false ∧ ((sget BankArb.reset pan.mem.arbs (((⟨7, false, 0x40#24, false, [], 16, .clean, true⟩ : LsReq)).off.toNat / 0x40000)).wait = [] ∧ ((⟨7, false, 0x40#24, false, [], 16, .clean, true⟩ : LsReq)).master.val ≠ 0)) ∧
    (((⟨2, false, 0xC0040#24, false, [], 16, .clean, false⟩ : LsReq)).wellFormed = true ∧ ((⟨2, false, 0xC0040#24, false, [], 16, .clean, false⟩ : LsReq)).strip = false ∧ (sget BankArb.reset st639.mem.arbs (((⟨2, false, 0xC0040#24, false, [], 16, .clean, false⟩ : LsReq)).off.toNat / 0x40000)).wait = [(4, false)] ∧ (sget BankArb.reset st639.mem.arbs (((⟨2, false, 0xC0040#24, false, [], 16, .clean, false⟩ : LsReq)).off.toNat / 0x40000)).tick = st639.tick ∧ ((⟨2, false, 0xC0040#24, false, [], 16, .clean, false⟩ : LsReq)).late = false ∧ 4 ≠ ((⟨2, false, 0xC0040#24, false, [], 16, .clean, false⟩ : LsReq)).master.val) :=
  ⟨by decide +kernel,
   by decide +kernel,
   by decide +kernel,
   by decide +kernel,
   by decide +kernel,
   by decide +kernel⟩
/-- More clauses of `Obligations.LocalStoreAccesses`. -/
theorem wit_LocalStoreAccesses_2 :
    (((⟨1, true, 0x100#24, false, [], 16, .single, false⟩ : LsReq)).strip = true ∧ ((⟨1, true, 0x100#24, false, [], 16, .single, false⟩ : LsReq)).write = false) ∧
    (st644.mem.busyTo = some 1500) ∧
    (pan.mem.busyTo = none) :=
  ⟨by decide +kernel,
   by decide +kernel,
   by decide +kernel⟩
/-- Hypotheses of `Obligations.FlashCommandsMoveBytes` are met, clause by clause. -/
theorem wit_FlashCommandsMoveBytes :
    (served st646 F.NVM_XF_CMD_go.off true ∧ st646.nv.xf = none ∧ st646.nv.xfHeld = [] ∧ st646.age.ckpt = none) ∧
    (served st647 F.NVM_XF_CMD_go.off true ∧ (st647.nv.xf.isSome = true ∨ st647.age.ckpt.isSome = true)) ∧
    (pan.nv.flashSize < (xfSpan 0 (rd pan F.NVM_XF_ADDR_addr) (rd pan F.NVM_XF_LEN_len_m1 + 1)).1 + (xfSpan 0 (rd pan F.NVM_XF_ADDR_addr) (rd pan F.NVM_XF_LEN_len_m1 + 1)).2) ∧
    (st649.nv.xf = some ((⟨0, 0x12345, 5, 0x3000, 0⟩ : XfJob)) ∧ st649.age.held = none ∧ st649.nv.xfHeld = []) ∧
    (pan.nv.xf = none) ∧
    (st671.nv.xf = some ⟨0, 0, 1, 0, 0⟩ ∧ st671.age.held = none ∧ st671.nv.xfHeld = ((⟨2, 0x1000, 1, 0, 0⟩ : XfJob)) :: [⟨1, 2, 3, 4, 0⟩] ∧ st671.age.ckpt = none) :=
  ⟨by unfold served; decide +kernel,
   by unfold served; decide +kernel,
   by decide +kernel,
   by decide +kernel,
   by decide +kernel,
   by decide +kernel⟩
/-- Hypotheses of `Obligations.NvmPagesAreReadAndProgrammed` are met, clause by clause. -/
theorem wit_NvmPagesAreReadAndProgrammed :
    (served st673 F.NVM_ACC_go.off true ∧ st673.nv.jobs = [] ∧ st673.nv.waiting = [] ∧ st673.nv.reading = none ∧ nvmCheck st673 1600 false = 0) ∧
    (served pan F.NVM_ACC_go.off true ∧ pan.nv.jobs = [] ∧ pan.nv.waiting = [] ∧ pan.nv.reading = none ∧ nvmCheck pan 511 false ≠ 0) ∧
    (st677.pending = [] ∧ st677.evt.posted = [] ∧ st677.nv.reading = some (3300, 1600, 0x81, 0) ∧ 3300 ≤ st677.tick + 1 ∧ st677.nv.jobs = [] ∧ st677.nv.waiting = []) ∧
    (served st679 F.NVM_ACC_go.off true ∧ st679.nv.jobs = [] ∧ st679.nv.waiting = [] ∧ st679.nv.reading = none ∧ nvmCheck st679 1600 true = 0) ∧
    (served pan F.NVM_ACC_go.off true ∧ pan.nv.jobs = [] ∧ pan.nv.waiting = [] ∧ pan.nv.reading = none ∧ nvmCheck pan 600 true ≠ 0) ∧
    (served st681 F.NVM_ACC_go.off true ∧ st681.nv.jobs ≠ [] ∧ st681.nv.reading = none) :=
  ⟨by unfold served; decide +kernel,
   by unfold served; decide +kernel,
   by decide +kernel,
   by unfold served; decide +kernel,
   by unfold served; decide +kernel,
   by unfold served; decide +kernel⟩
/-- More clauses of `Obligations.NvmPagesAreReadAndProgrammed`. -/
theorem wit_NvmPagesAreReadAndProgrammed_2 :
    (served st682 F.NVM_ACC_go.off true ∧ st682.nv.reading = some (10, 1, 2, 3) ∧ st682.tick < 10) ∧
    (st683.nv.jobs = ((⟨1600, [(7, [some 1#8, none, some 3#8, some 4#8, some 5#8, none, some 7#8, some 8#8]), (4, [some 1#8, none, some 3#8, some 4#8, some 5#8, none, some 7#8, some 8#8])], .host⟩ : PgJob)) :: [] ∧ ((⟨1600, [(7, [some 1#8, none, some 3#8, some 4#8, some 5#8, none, some 7#8, some 8#8]), (4, [some 1#8, none, some 3#8, some 4#8, some 5#8, none, some 7#8, some 8#8])], .host⟩ : PgJob)).todo = (7, [some 1#8, none, some 3#8, some 4#8, some 5#8, none, some 7#8, some 8#8]) :: [(4, [some 1#8, none, some 3#8, some 4#8, some 5#8, none, some 7#8, some 8#8])] ∧ ([some 1#8, none, some 3#8, some 4#8, some 5#8, none, some 7#8, some 8#8] : List (Option Byte)).length = 8 ∧ st683.nv.waiting = [] ∧ st683.nv.reading = none) ∧
    (st684.nv.jobs = ((⟨1600, [(7, [some 1#8, none, some 3#8, some 4#8, some 5#8, none, some 7#8, some 8#8])], .host⟩ : PgJob)) :: [] ∧ ((⟨1600, [(7, [some 1#8, none, some 3#8, some 4#8, some 5#8, none, some 7#8, some 8#8])], .host⟩ : PgJob)).todo = (7, [some 1#8, none, some 3#8, some 4#8, some 5#8, none, some 7#8, some 8#8]) :: [] ∧ ([some 1#8, none, some 3#8, some 4#8, some 5#8, none, some 7#8, some 8#8] : List (Option Byte)).length = 8 ∧ st684.nv.waiting = [] ∧ st684.nv.reading = none) ∧
    (st685.nv.jobs = ((⟨1600, [(7, [some 1#8, none, some 3#8, some 4#8, some 5#8, none, some 7#8, some 8#8])], .host⟩ : PgJob)) :: [(⟨1601, [(0, whole (List.replicate 8 9#8))], .own⟩ : PgJob)] ∧ ((⟨1600, [(7, [some 1#8, none, some 3#8, some 4#8, some 5#8, none, some 7#8, some 8#8])], .host⟩ : PgJob)).todo = (7, [some 1#8, none, some 3#8, some 4#8, some 5#8, none, some 7#8, some 8#8]) :: [] ∧ ([some 1#8, none, some 3#8, some 4#8, some 5#8, none, some 7#8, some 8#8] : List (Option Byte)).length = 8) ∧
    (st689.nv.jobs = [] ∧ (rd st689 F.NVM_SCRUB_en = 0 ∨ bitOf st689 F.PWR_DOM_ON_on 2 = false)) ∧
    (rd st691 F.NVM_SCRUB_en = 1 ∧ bitOf st691 F.PWR_DOM_ON_on 2 = true ∧ st691.nv.jobs = [] ∧ st691.nv.waiting = [] ∧ st691.nv.scrubPage = 4095 ∧ (∀ g ∈ List.range 8, grpEcc st691 st691.nv.scrubPage g ≠ 1)) :=
  ⟨by unfold served; decide +kernel,
   by decide +kernel,
   by decide +kernel,
   by decide +kernel,
   by decide +kernel,
   by decide +kernel⟩
/-- More clauses of `Obligations.NvmPagesAreReadAndProgrammed`. -/
theorem wit_NvmPagesAreReadAndProgrammed_3 : (rd st692 F.NVM_SCRUB_en = 1 ∧ bitOf st692 F.PWR_DOM_ON_on 2 = true ∧ st692.nv.jobs = [] ∧ st692.nv.waiting = [] ∧ (∃ g ∈ List.range 8, (0x64#8).getLsbD g = true ∧ (0x40#8).getLsbD g = false ∧ grpEcc st692 st692.nv.scrubPage g ≠ 2)) := by decide +kernel
/-- Hypotheses of `Obligations.PasswordsUnlockAndLockOut` are met, clause by clause. -/
theorem wit_PasswordsUnlockAndLockOut :
    (served st693 F.NVM_UNLOCK_go.off true ∧ rd st693 F.NVM_LOCK_STAT_out_user = 1) ∧
    (served st694 F.NVM_UNLOCK_go.off true ∧ rd st694 F.NVM_LOCK_STAT_out_user = 0 ∧ st694.nv.unlockAt ≠ some st694.tick ∧ pwCandidate st694 = st694.nv.pws.getD 3 0) ∧
    (served st695 F.NVM_UNLOCK_go.off true ∧ rd st695 F.NVM_LOCK_STAT_out_user = 0 ∧ (st695.nv.unlockAt = some st695.tick ∨ pwCandidate st695 ≠ st695.nv.pws.getD 3 0)) ∧
    (served st698 F.NVM_UNLOCK_go.off true ∧ (st698.nv.pws.getD 3 0 = 0 ∨ bitOf st698 F.NVM_LOCK_STAT_unl 3 = true)) ∧
    (served st700 F.NVM_UNLOCK_go.off true ∧ st700.nv.pws.getD 3 0 ≠ 0 ∧ bitOf st700 F.NVM_LOCK_STAT_unl 3 = false) ∧
    (served st709 F.NVM_UNLOCK_go.off true ∧ rd st709 F.NVM_LOCK_STAT_out_prot = 1) :=
  ⟨by unfold served; decide +kernel,
   by unfold served; decide +kernel,
   by unfold served; decide +kernel,
   by unfold served; decide +kernel,
   by unfold served; decide +kernel,
   by unfold served; decide +kernel⟩
/-- More clauses of `Obligations.PasswordsUnlockAndLockOut`. -/
theorem wit_PasswordsUnlockAndLockOut_2 :
    (served st710 F.NVM_UNLOCK_go.off true ∧ rd st710 F.NVM_LOCK_STAT_out_prot = 0 ∧ st710.nv.unlockAt ≠ some st710.tick ∧ pwCandidate st710 = st710.nv.pws.getD 1 0) ∧
    (served st711 F.NVM_UNLOCK_go.off true ∧ rd st711 F.NVM_LOCK_STAT_out_prot = 0 ∧ (st711.nv.unlockAt = some st711.tick ∨ pwCandidate st711 ≠ st711.nv.pws.getD 1 0)) ∧
    (served st714 F.NVM_UNLOCK_go.off true ∧ rd st714 F.SEC_STATUS_session = 0) ∧
    (served st721 F.NVM_CTRL_relock.off true) :=
  ⟨by unfold served; decide +kernel,
   by unfold served; decide +kernel,
   by unfold served; decide +kernel,
   by unfold served; decide +kernel⟩
/-- Hypotheses of `Obligations.FencesRingPointersAndTraceLoads` are met, clause by clause. -/
theorem wit_FencesRingPointersAndTraceLoads :
    (served st722 F.GEN_FENCE_token.off false) ∧
    (served st723 F.EVT_CONS_index.off false ∧ 9 = (rd st723 F.EVT_PROD_index + 2 ^ 32 - (0xFFFFFFFC#32).toNat) % 2 ^ 32 ∧ ringN st723 < 9) ∧
    (served st723 F.EVT_CONS_index.off false ∧ 0 = (rd st723 F.EVT_PROD_index + 2 ^ 32 - (0x5#32).toNat) % 2 ^ 32 ∧ 0 ≤ ringN st723 ∧ st723.evt.ringLoss.all (fun n => n = 0) = true ∧ msixMasked st723 = false ∧ st723.evt.msiAt ≠ some st723.tick) ∧
    (served st726 F.EVT_CONS_index.off false ∧ 1 = (rd st726 F.EVT_PROD_index + 2 ^ 32 - (0x4#32).toNat) % 2 ^ 32 ∧ 1 ≤ ringN st726 ∧ st726.evt.ringLoss.all (fun n => n = 0) = true ∧ msixMasked st726 = true ∧ st726.evt.msiAt ≠ some st726.tick) ∧
    (served st727 F.EVT_CONS_index.off false ∧ 2 = (rd st727 F.EVT_PROD_index + 2 ^ 32 - (0x3#32).toNat) % 2 ^ 32 ∧ 2 ≤ ringN st727 ∧ st727.evt.ringLoss.all (fun n => n = 0) = true ∧ msixMasked st727 = false ∧ st727.evt.msiAt = some st727.tick) ∧
    (served st728 F.EVT_CONS_index.off false ∧ 1 = (rd st728 F.EVT_PROD_index + 2 ^ 32 - (0x4#32).toNat) % 2 ^ 32 ∧ 1 < ringN st728 ∧ st728.evt.ringLoss.all (fun n => n = 0) = false ∧ rd st728 F.EVT_RING_CFG_en = 1 ∧ ringBarred st728 = false ∧ st728.evt.gapBehind = 0) :=
  ⟨by unfold served; decide +kernel,
   by unfold served; decide +kernel,
   by unfold served; decide +kernel,
   by unfold served; decide +kernel,
   by unfold served; decide +kernel,
   by unfold served; decide +kernel⟩
/-- More clauses of `Obligations.FencesRingPointersAndTraceLoads`. -/
theorem wit_FencesRingPointersAndTraceLoads_2 :
    (served st729 F.EVT_CONS_index.off false ∧ 1 = (rd st729 F.EVT_PROD_index + 2 ^ 32 - (0x4#32).toNat) % 2 ^ 32 ∧ 1 < ringN st729 ∧ st729.evt.ringLoss.all (fun n => n = 0) = false ∧ rd st729 F.EVT_RING_CFG_en = 1 ∧ ringBarred st729 = false ∧ st729.evt.gapBehind ≠ 0) ∧
    (served st730 (F.GEN_MSIX_TABLE_word 3).off false ∧ rd st730 F.GEN_MSIX_PBA_pending = 0 ∧ st730.host.busMaster = true) ∧
    (served st732 (F.GEN_MSIX_TABLE_word 3).off false ∧ rd st732 F.GEN_MSIX_PBA_pending = 1 ∧ st732.host.busMaster = false) ∧
    (served st733 F.EVT_TRC_IDX_index.off false ∧ sget false st733.mem.gpoison ((rd st733 F.EVT_TRC_LO_addr * 4096 + 2 ^ 32 * rd st733 F.EVT_TRC_HI_addr + 32 * ((0x1000F#32).toNat % 2 ^ (rd st733 F.EVT_TRC_CFG_log2sz - 5))) / 64) = true ∧ sget false st733.mem.spent (16 * ((rd st733 F.EVT_TRC_LO_addr * 4096 + 2 ^ 32 * rd st733 F.EVT_TRC_HI_addr + 32 * ((0x1000F#32).toNat % 2 ^ (rd st733 F.EVT_TRC_CFG_log2sz - 5))) / 64) + 7) = false ∧ (rd st733 F.EVT_TRC_LO_addr * 4096 + 2 ^ 32 * rd st733 F.EVT_TRC_HI_addr + 32 * ((0x1000F#32).toNat % 2 ^ (rd st733 F.EVT_TRC_CFG_log2sz - 5))) + 32 ≤ memCap st733) ∧
    (served st734 F.EVT_TRC_IDX_index.off false ∧ sget false st734.mem.gpoison ((rd st734 F.EVT_TRC_LO_addr * 4096 + 2 ^ 32 * rd st734 F.EVT_TRC_HI_addr + 32 * ((0x1000F#32).toNat % 2 ^ (rd st734 F.EVT_TRC_CFG_log2sz - 5))) / 64) = false ∧ sget false st734.mem.spent (16 * ((rd st734 F.EVT_TRC_LO_addr * 4096 + 2 ^ 32 * rd st734 F.EVT_TRC_HI_addr + 32 * ((0x1000F#32).toNat % 2 ^ (rd st734 F.EVT_TRC_CFG_log2sz - 5))) / 64) + 7) = false ∧ (rd st734 F.EVT_TRC_LO_addr * 4096 + 2 ^ 32 * rd st734 F.EVT_TRC_HI_addr + 32 * ((0x1000F#32).toNat % 2 ^ (rd st734 F.EVT_TRC_CFG_log2sz - 5))) + 32 ≤ memCap st734) ∧
    (served st735 F.EVT_TRC_IDX_index.off false ∧ sget false st735.mem.gpoison ((rd st735 F.EVT_TRC_LO_addr * 4096 + 2 ^ 32 * rd st735 F.EVT_TRC_HI_addr + 32 * ((0x1000F#32).toNat % 2 ^ (rd st735 F.EVT_TRC_CFG_log2sz - 5))) / 64) = false ∧ sget false st735.mem.spent (16 * ((rd st735 F.EVT_TRC_LO_addr * 4096 + 2 ^ 32 * rd st735 F.EVT_TRC_HI_addr + 32 * ((0x1000F#32).toNat % 2 ^ (rd st735 F.EVT_TRC_CFG_log2sz - 5))) / 64) + 7) = true ∧ (rd st735 F.EVT_TRC_LO_addr * 4096 + 2 ^ 32 * rd st735 F.EVT_TRC_HI_addr + 32 * ((0x1000F#32).toNat % 2 ^ (rd st735 F.EVT_TRC_CFG_log2sz - 5))) + 32 ≤ memCap st735) :=
  ⟨by unfold served; decide +kernel,
   by unfold served; decide +kernel,
   by unfold served; decide +kernel,
   by unfold served; decide +kernel,
   by unfold served; decide +kernel,
   by unfold served; decide +kernel⟩
/-- More clauses of `Obligations.FencesRingPointersAndTraceLoads`. -/
theorem wit_FencesRingPointersAndTraceLoads_3 : (served st736 F.EVT_TRC_IDX_index.off false ∧ memCap st736 < (rd st736 F.EVT_TRC_LO_addr * 4096 + 2 ^ 32 * rd st736 F.EVT_TRC_HI_addr + 32 * ((0x1000F#32).toNat % 2 ^ (rd st736 F.EVT_TRC_CFG_log2sz - 5))) + 32) := by unfold served; decide +kernel
/-- Hypotheses of `Obligations.PriorityStackAndSquallWindows` are met, clause by clause. -/
theorem wit_PriorityStackAndSquallWindows :
    (served st737 F.EVT_CLAIM_source.off true ∧ rd st737 F.EVT_STACK_frozen = 0 ∧ st737.evt.stack.length < 16) ∧
    (served st739 F.EVT_CLAIM_source.off true ∧ rd st739 F.EVT_STACK_frozen = 0 ∧ 16 ≤ st739.evt.stack.length) ∧
    (served st740 F.EVT_COMPLETE_source.off true ∧ rd st740 F.EVT_STACK_frozen = 0 ∧ st740.evt.stack = ((9#12).toNat, 3) :: (List.replicate 15 (300, 7)) ∧ ((List.replicate 15 (300, 7))).length < 16) ∧
    (served st741 F.EVT_COMPLETE_source.off true ∧ rd st741 F.EVT_STACK_frozen = 0 ∧ (st741.evt.stack.head?.map (fun x => x.1)) ≠ some 9) ∧
    (served st743 F.EVT_CLAIM_source.off true ∧ rd st743 F.EVT_STACK_frozen = 1) ∧
    (served st743 F.EVT_COMPLETE_source.off true ∧ rd st743 F.EVT_STACK_frozen = 1) :=
  ⟨by unfold served; decide +kernel,
   by unfold served; decide +kernel,
   by unfold served; decide +kernel,
   by unfold served; decide +kernel,
   by unfold served; decide +kernel,
   by unfold served; decide +kernel⟩
/-- More clauses of `Obligations.PriorityStackAndSquallWindows`. -/
theorem wit_PriorityStackAndSquallWindows_2 :
    (served st745 F.EVT_CTRL_stk_init.off true) ∧
    (isWorker st746 = false ∧ st746.evt.windows.find? (fun w => w.src = (77#12).toNat) = some ((⟨77, 1000, 4, 0, [1#8, 2#8, 3#8, 4#8], 900, true⟩ : SqWin)) ∧ ((⟨77, 1000, 4, 0, [1#8, 2#8, 3#8, 4#8], 900, true⟩ : SqWin)).coal = 0) ∧
    (isWorker st748 = false ∧ st748.evt.windows.find? (fun w => w.src = (77#12).toNat) = some ((⟨77, 1000, 4, 5, [1#8, 2#8, 3#8, 4#8], 900, true⟩ : SqWin)) ∧ ((⟨77, 1000, 4, 5, [1#8, 2#8, 3#8, 4#8], 900, true⟩ : SqWin)).coal ≠ 0) ∧
    (isWorker pan = false ∧ pan.evt.windows.find? (fun w => w.src = (77#12).toNat) = none) ∧
    (isWorker st751 = false ∧ st751.evt.posted = ((⟨700, 0x0C5, 2, false, false, false, (List.range 12).map (BitVec.ofNat 8), 3, none⟩ : Rec)) :: [((⟨700, 0x0C5, 2, false, false, false, (List.range 12).map (BitVec.ofNat 8), 3, none⟩ : Rec))] ∧ ((⟨700, 0x0C5, 2, false, false, false, (List.range 12).map (BitVec.ofNat 8), 3, none⟩ : Rec)).fwd = none ∧ (match st751.evt.windows.find? (fun w => w.src = ((⟨700, 0x0C5, 2, false, false, false, (List.range 12).map (BitVec.ofNat 8), 3, none⟩ : Rec)).src) with | some w => decide (((⟨700, 0x0C5, 2, false, false, false, (List.range 12).map (BitVec.ofNat 8), 3, none⟩ : Rec)).tick < w.start + squallW st751 ∧ (neverCoalesced ((⟨700, 0x0C5, 2, false, false, false, (List.range 12).map (BitVec.ofNat 8), 3, none⟩ : Rec)).cls = true ∨ w.count < rd st751 F.EVT_SQUALL_n)) | none => true) = true ∧ rd st751 F.EVT_TRC_CFG_en = 0 ∧ rd st751 F.EVT_LOG_CFG_en = 0 ∧ maskOf st751 (((⟨700, 0x0C5, 2, false, false, false, (List.range 12).map (BitVec.ofNat 8), 3, none⟩ : Rec)).src / 64) ((⟨700, 0x0C5, 2, false, false, false, (List.range 12).map (BitVec.ofNat 8), 3, none⟩ : Rec)).tick (((⟨700, 0x0C5, 2, false, false, false, (List.range 12).map (BitVec.ofNat 8), 3, none⟩ : Rec)).alarm || isBarrier ((⟨700, 0x0C5, 2, false, false, false, (List.range 12).map (BitVec.ofNat 8), 3, none⟩ : Rec)).cls) = (false, false) ∧ st751.evt.stack = [] ∧ st751.evt.held = [] ∧ rd st751 F.EVT_RING_CFG_en = 1 ∧ rd st751 F.EVT_RING_CFG_space = 1 ∧ st751.evt.ringLoss.all (fun n => n = 0) = true ∧ ringU st751 < ringN st751 - 1) ∧
    (isWorker st755 = false ∧ st755.evt.posted = ((⟨700, 0x0C5, 2, false, false, false, (List.range 12).map (BitVec.ofNat 8), 3, none⟩ : Rec)) :: [] ∧ ((⟨700, 0x0C5, 2, false, false, false, (List.range 12).map (BitVec.ofNat 8), 3, none⟩ : Rec)).fwd = none ∧ (match st755.evt.windows.find? (fun w => w.src = ((⟨700, 0x0C5, 2, false, false, false, (List.range 12).map (BitVec.ofNat 8), 3, none⟩ : Rec)).src) with | some w => decide (((⟨700, 0x0C5, 2, false, false, false, (List.range 12).map (BitVec.ofNat 8), 3, none⟩ : Rec)).tick < w.start + squallW st755 ∧ (neverCoalesced ((⟨700, 0x0C5, 2, false, false, false, (List.range 12).map (BitVec.ofNat 8), 3, none⟩ : Rec)).cls = true ∨ w.count < rd st755 F.EVT_SQUALL_n)) | none => true) = true ∧ rd st755 F.EVT_TRC_CFG_en = 0 ∧ rd st755 F.EVT_LOG_CFG_en = 0 ∧ maskOf st755 (((⟨700, 0x0C5, 2, false, false, false, (List.range 12).map (BitVec.ofNat 8), 3, none⟩ : Rec)).src / 64) ((⟨700, 0x0C5, 2, false, false, false, (List.range 12).map (BitVec.ofNat 8), 3, none⟩ : Rec)).tick (((⟨700, 0x0C5, 2, false, false, false, (List.range 12).map (BitVec.ofNat 8), 3, none⟩ : Rec)).alarm || isBarrier ((⟨700, 0x0C5, 2, false, false, false, (List.range 12).map (BitVec.ofNat 8), 3, none⟩ : Rec)).cls) = (true, true) ∧ ((⟨700, 0x0C5, 2, false, false, false, (List.range 12).map (BitVec.ofNat 8), 3, none⟩ : Rec)).src / 64 < 18) :=
  ⟨by unfold served; decide +kernel,
   by decide +kernel,
   by decide +kernel,
   by decide +kernel,
   by decide +kernel,
   by decide +kernel⟩
/-- More clauses of `Obligations.PriorityStackAndSquallWindows`. -/
theorem wit_PriorityStackAndSquallWindows_3 :
    (isWorker st756 = false ∧ st756.evt.posted = ((⟨700, 0x0C5, 2, false, false, false, (List.range 12).map (BitVec.ofNat 8), 3, none⟩ : Rec)) :: [] ∧ ((⟨700, 0x0C5, 2, false, false, false, (List.range 12).map (BitVec.ofNat 8), 3, none⟩ : Rec)).fwd = none ∧ neverCoalesced ((⟨700, 0x0C5, 2, false, false, false, (List.range 12).map (BitVec.ofNat 8), 3, none⟩ : Rec)).cls = false ∧ st756.evt.windows.find? (fun w => w.src = ((⟨700, 0x0C5, 2, false, false, false, (List.range 12).map (BitVec.ofNat 8), 3, none⟩ : Rec)).src) = some ((⟨0xC5, 600, 2, 0, [], 0, false⟩ : SqWin)) ∧ ((⟨700, 0x0C5, 2, false, false, false, (List.range 12).map (BitVec.ofNat 8), 3, none⟩ : Rec)).tick < ((⟨0xC5, 600, 2, 0, [], 0, false⟩ : SqWin)).start + squallW st756 ∧ rd st756 F.EVT_SQUALL_n ≤ ((⟨0xC5, 600, 2, 0, [], 0, false⟩ : SqWin)).count) ∧
    (isWorker st757 = false ∧ st757.evt.posted = ((⟨700, 0x443, 2, false, false, false, [], 3, some ((List.range 32).map (BitVec.ofNat 8))⟩ : Rec)) :: [] ∧ ((⟨700, 0x443, 2, false, false, false, [], 3, some ((List.range 32).map (BitVec.ofNat 8))⟩ : Rec)).fwd = some ((List.range 32).map (BitVec.ofNat 8)) ∧ rd st757 F.EVT_TRC_CFG_en = 0 ∧ maskOf st757 17 ((⟨700, 0x443, 2, false, false, false, [], 3, some ((List.range 32).map (BitVec.ofNat 8))⟩ : Rec)).tick (((⟨700, 0x443, 2, false, false, false, [], 3, some ((List.range 32).map (BitVec.ofNat 8))⟩ : Rec)).alarm || isBarrier ((⟨700, 0x443, 2, false, false, false, [], 3, some ((List.range 32).map (BitVec.ofNat 8))⟩ : Rec)).cls) = (false, false) ∧ st757.evt.stack = [] ∧ st757.evt.held = [] ∧ rd st757 F.EVT_RING_CFG_en = 1 ∧ rd st757 F.EVT_RING_CFG_space = 1 ∧ st757.evt.ringLoss.all (fun n => n = 0) = true ∧ ringU st757 < ringN st757 - 1 ∧ offTable st757 (4096 + 32 * (13 % ringN st757)) 32) ∧
    (isWorker st758 = false ∧ st758.evt.posted = ((⟨700, 0x443, 2, false, false, false, [], 3, some ((List.range 32).map (BitVec.ofNat 8))⟩ : Rec)) :: [] ∧ ((⟨700, 0x443, 2, false, false, false, [], 3, some ((List.range 32).map (BitVec.ofNat 8))⟩ : Rec)).fwd = some ((List.range 32).map (BitVec.ofNat 8)) ∧ rd st758 F.EVT_TRC_CFG_en = 0 ∧ maskOf st758 17 ((⟨700, 0x443, 2, false, false, false, [], 3, some ((List.range 32).map (BitVec.ofNat 8))⟩ : Rec)).tick (((⟨700, 0x443, 2, false, false, false, [], 3, some ((List.range 32).map (BitVec.ofNat 8))⟩ : Rec)).alarm || isBarrier ((⟨700, 0x443, 2, false, false, false, [], 3, some ((List.range 32).map (BitVec.ofNat 8))⟩ : Rec)).cls) = (true, true)) ∧
    (isWorker st759 = false ∧ st759.evt.windows.find? (fun w => w.src = (77#12).toNat) = some (⟨77, 1000, 4, 5, [1#8, 2#8, 3#8, 4#8], 900, false⟩ : SqWin) ∧ (1000 + squallW st759 < ((⟨15001001, 9, 2, false, false, false, (List.range 12).map (BitVec.ofNat 8), 3, none⟩ : Rec)).tick ∨ (((⟨15001001, 9, 2, false, false, false, (List.range 12).map (BitVec.ofNat 8), 3, none⟩ : Rec)).tick = 1000 + squallW st759 ∧ 77 ≤ ((⟨15001001, 9, 2, false, false, false, (List.range 12).map (BitVec.ofNat 8), 3, none⟩ : Rec)).src))) ∧
    (isWorker st761 = false ∧ st761.evt.windows.find? (fun w => w.src = (77#12).toNat) = some (⟨77, 1000, 4, 5, [1#8, 2#8, 3#8, 4#8], 900, false⟩ : SqWin) ∧ st761.evt.posted = [((⟨700, 197, 2, false, false, false, (List.range 12).map (BitVec.ofNat 8), 3, none⟩ : Rec))] ∧ ((⟨700, 197, 2, false, false, false, (List.range 12).map (BitVec.ofNat 8), 3, none⟩ : Rec)).fwd = none ∧ ((⟨700, 197, 2, false, false, false, (List.range 12).map (BitVec.ofNat 8), 3, none⟩ : Rec)).tick < 1000 + squallW st761 ∧ st761.evt.windows.find? (fun w => w.src = ((⟨700, 197, 2, false, false, false, (List.range 12).map (BitVec.ofNat 8), 3, none⟩ : Rec)).src) = none) :=
  ⟨by decide +kernel,
   by unfold offTable offProt; decide +kernel,
   by decide +kernel,
   by decide +kernel,
   by decide +kernel⟩
/-- Hypotheses of `Obligations.HostRegisterAccesses` are met, clause by clause. -/
theorem wit_HostRegisterAccesses :
    (Path.pcie ≠ .orsal ∧ hostAnswers st762 = false) ∧
    (lostWrite st764 (0x30004#28).toNat = true) ∧
    (regAt (0x3FFF0#28).toNat = none) ∧
    (hostAnswers st766 = true ∧ lostWrite st766 (0x3000C#28).toNat = false ∧ step5Runs st766 = false ∧ (0x3000C#28).toNat / 65536 ∈ [blkEXS, blkING, blkMEM] ∧ (regAt (0x3000C#28).toNat).map (fun d => d.cnd) = some 0 ∧ (regAt (0x3000C#28).toNat).map (fun d => d.wo) = some 0) ∧
    (hostAnswers st770 = true ∧ lostWrite st770 (0x70000#28).toNat = false ∧ step5Runs st770 = true ∧ earlyBlk (0x70000#28).toNat = false ∧ (regAt (0x70000#28).toNat).isSome = true ∧ (8#4) ≠ 0#4) ∧
    (hostAnswers pan = true ∧ lostWrite pan (BitVec.ofNat 28 F.SEC_CFG_ses_idle.off).toNat = false ∧ step5Runs pan = false ∧ isProtReg (BitVec.ofNat 28 F.SEC_CFG_ses_idle.off).toNat = true ∧ (1#4) ≠ 0#4) :=
  ⟨by decide +kernel,
   by decide +kernel,
   by decide +kernel,
   by decide +kernel,
   by decide +kernel,
   by decide +kernel⟩
/-- More clauses of `Obligations.HostRegisterAccesses`. -/
theorem wit_HostRegisterAccesses_2 :
    (hostAnswers pan = true ∧ lostWrite pan (BitVec.ofNat 28 F.EVT_LOG_CFG_en.off).toNat = false ∧ step5Runs pan = false ∧ isProtReg (BitVec.ofNat 28 F.EVT_LOG_CFG_en.off).toNat = true ∧ (1#4) ≠ 0#4) ∧
    (hostAnswers pan = true ∧ lostWrite pan (BitVec.ofNat 28 F.ORL_CFG_en.off).toNat = false ∧ step5Runs pan = false ∧ isProtReg (BitVec.ofNat 28 F.ORL_CFG_en.off).toNat = true ∧ (1#4) ≠ 0#4) ∧
    ((0x70010#28).toNat % 4 = 0 ∧ (0x70010#28).toNat < regSpace) ∧
    ((458768#28).toNat % 4 = 0 ∧ (458768#28).toNat < regSpace ∧ hostAnswers st780 = true) ∧
    (hostAnswers st762 = false) ∧
    ((true = true ∨ rd st790 (F.GEN_MSIX_TABLE_word 3) % 2 = 1 ∨ rd st790 F.GEN_MSIX_PBA_pending = 0)) :=
  ⟨by decide +kernel,
   by decide +kernel,
   by decide +kernel,
   by decide +kernel,
   by decide +kernel,
   by decide +kernel⟩
/-- More clauses of `Obligations.HostRegisterAccesses`. -/
theorem wit_HostRegisterAccesses_3 :
    ((false = true ∨ rd st791 (F.GEN_MSIX_TABLE_word 3) % 2 = 1 ∨ rd st791 F.GEN_MSIX_PBA_pending = 0)) ∧
    (¬(false = true ∨ rd st790 (F.GEN_MSIX_TABLE_word 3) % 2 = 1 ∨ rd st790 F.GEN_MSIX_PBA_pending = 0)) ∧
    (LinkChange.wellFormed (.up 4 4) = true ∧ .up 4 4 ≠ LinkChange.l1 true ∧ .up 4 4 ≠ LinkChange.l1 (!true) ∧ .up 4 4 ≠ LinkChange.l2 true ∧ .up 4 4 ≠ LinkChange.l2 (!true)) ∧
    (LinkChange.wellFormed (.down) = true ∧ .down ≠ LinkChange.l1 true ∧ .down ≠ LinkChange.l1 (!true) ∧ .down ≠ LinkChange.l2 true ∧ .down ≠ LinkChange.l2 (!true)) :=
  ⟨by decide +kernel,
   by decide +kernel,
   by decide +kernel,
   by decide +kernel⟩
/-- Hypotheses of `Obligations.WindowsAndManagementPort` are met, clause by clause. -/
theorem wit_WindowsAndManagementPort :
    (hostAnswers st805 = true ∧ 0 < 16 ∧ 16252912 % 16 + 16 ≤ 16 ∧ 16252912 + 16 ≤ 0xF80000) ∧
    (hostAnswers st806 = true ∧ 0 < 16 ∧ 16252912 % 16 + 16 ≤ 16 ∧ 16252912 + 16 ≤ 0xF80000 ∧ (leBytes 0xA1A2A3A4A5A6A7A8 16).length = 16 ∧ offTable st806 16252912 16) ∧
    (hostAnswers st809 = true ∧ 0 < 64 ∧ 11328 + 64 ≤ 2 ^ 28 ∧ (bar2Base st809 + 11328) % 64 + 64 ≤ 64 ∧ (bar2Base st809 + 11328) + 64 ≤ memCap st809 ∧ touchesProt st809 ((bar2Base st809 + 11328) / 64 * 64) 64 = false) ∧
    (hostAnswers st809 = true ∧ 0 < 64 ∧ 11328 + 64 ≤ 2 ^ 28 ∧ (bar2Base st809 + 11328) % 64 + 64 ≤ 64 ∧ (bar2Base st809 + 11328) + 64 ≤ memCap st809 ∧ touchesProt st809 ((bar2Base st809 + 11328) / 64 * 64) 64 = false ∧ (leBytes 0xA1A2A3A4A5A6A7A8 64).length = 64) ∧
    (hostAnswers st815 = true ∧ 0 < 4 ∧ 16 + 4 ≤ 2 ^ 28 ∧ (bar2Base st815 + 16) % 64 + 4 ≤ 64 ∧ (bar2Base st815 + 16) + 4 ≤ memCap st815 ∧ touchesProt st815 ((bar2Base st815 + 16) / 64 * 64) 64 = true) ∧
    (hostAnswers st815 = true ∧ 0 < 4 ∧ 16 + 4 ≤ 2 ^ 28 ∧ (bar2Base st815 + 16) % 64 + 4 ≤ 64 ∧ (bar2Base st815 + 16) + 4 ≤ memCap st815 ∧ touchesProt st815 ((bar2Base st815 + 16) / 64 * 64) 64 = true ∧ (leBytes 0xA1A2A3A4A5A6A7A8 4).length = 4) :=
  ⟨by decide +kernel,
   by unfold offTable offProt; decide +kernel,
   by decide +kernel,
   by decide +kernel,
   by decide +kernel,
   by decide +kernel⟩
/-- More clauses of `Obligations.WindowsAndManagementPort`. -/
theorem wit_WindowsAndManagementPort_2 :
    (hostAnswers st819 = true ∧ 0 < 64 ∧ 16777216 + 64 ≤ 2 ^ 28 ∧ (bar2Base st819 + 16777216) % 64 + 64 ≤ 64 ∧ memCap st819 < (bar2Base st819 + 16777216) + 64) ∧
    (hostAnswers st762 = false) ∧
    (hostAnswers pan = true ∧ (0x80000#28).toNat % 4 = 0 ∧ (0x80000#28).toNat < regSpace) ∧
    (hostAnswers pan = true ∧ (7#8) ≠ 2#8 ∧ (7#8) ≠ 0x0B#8 ∧ (7#8) ≠ 5#8) ∧
    (hostAnswers pan = true ∧ 2 * regSpace ≤ (0x2000000#32).toNat) ∧
    (hostAnswers st830 = false ∧ 5 = rd st830 F.GEN_MGT_STAT_frame_err * 4 + rd st830 F.GEN_MGT_STAT_acc_err * 2 + rd st830 F.MEM_MBX_STAT_coll_a) :=
  ⟨by decide +kernel,
   by decide +kernel,
   by decide +kernel,
   by decide +kernel,
   by decide +kernel,
   by decide +kernel⟩
/-- More clauses of `Obligations.WindowsAndManagementPort`. -/
theorem wit_WindowsAndManagementPort_3 : (hostAnswers st831 = true ∧ 5 = rd st831 F.GEN_MGT_STAT_frame_err * 4 + rd st831 F.GEN_MGT_STAT_acc_err * 2 + rd st831 F.MEM_MBX_STAT_coll_a ∧ setsNow st831 F.GEN_MGT_STAT.off = 0#32) := by decide +kernel
/-- Hypotheses of `Obligations.SealedCommandsAreChecked` are met, clause by clause. -/
theorem wit_SealedCommandsAreChecked : (served up F.SEC_CTRL_ses_cmd.off true ∧ (sesState up ≠ 2 ∨ rd up F.SEC_STATUS_path ≠ pathCode .pcie)) := by unfold served; decide +kernel
/-- More clauses of `Obligations.SealedCommandsAreChecked`. -/
theorem wit_SealedCommandsAreChecked_2 : (st1106.sec.fails = 1 ∧ served st1106 F.SEC_CTRL_ses_cmd.off true ∧ sesState st1106 = 2 ∧ rd st1106 F.SEC_STATUS_path = pathCode .pcie ∧ st1106.tick < idleEnd st1106 ∧ rd st1106 F.SEC_SES_BUF_offset = 0 ∧ wordsPoisoned st1106 0 128 = false ∧ leAt (lstRd st1106 0 128) 0 4 = 0x3143535A ∧ leAt (lstRd st1106 0 128) 4 4 = 0 ∧ leAt (lstRd st1106 0 128) 112 16 = 0 ∧ leAt (lstRd st1106 0 128) 8 8 = 6 ∧ gcmOpen ((st1106.sec.keys).take 32) (slice st1106.sec.keys 64 4 ++ beBytes 6 8) ((lstRd st1106 0 128).take 16) (slice (lstRd st1106 0 128) 16 80) (slice (lstRd st1106 0 128) 96 16) = none) := by unfold served; decide +kernel
/-- More clauses of `Obligations.SealedCommandsAreChecked`. -/
theorem wit_SealedCommandsAreChecked_3 : (served st1107 F.SEC_CTRL_ses_cmd.off true ∧ sesState st1107 = 2 ∧ rd st1107 F.SEC_STATUS_path = pathCode .pcie ∧ st1107.tick < idleEnd st1107 ∧ rd st1107 F.SEC_SES_BUF_offset = 0 ∧ wordsPoisoned st1107 0 128 = false ∧ leAt (lstRd st1107 0 128) 0 4 = 0x3143535A ∧ leAt (lstRd st1107 0 128) 4 4 = 0 ∧ leAt (lstRd st1107 0 128) 112 16 = 0 ∧ leAt (lstRd st1107 0 128) 8 8 = 5 ∧ (gcmOpen ((st1107.sec.keys).take 32) (slice st1107.sec.keys 64 4 ++ beBytes 5 8) ((lstRd st1107 0 128).take 16) (slice (lstRd st1107 0 128) 16 80) (slice (lstRd st1107 0 128) 96 16)).isSome = true ∧ 5 ≤ sesCtr st1107) := by unfold served; decide +kernel
/-- More clauses of `Obligations.SealedCommandsAreChecked`. -/
theorem wit_SealedCommandsAreChecked_4 : (served st1108 F.SEC_CTRL_ses_cmd.off true ∧ (cmdCheck st1108 .pcie).1 = some (6, (leBytes 0x000000000000000000000000000000000000000000000000000000000000000000000000000000000000000000000000000000000000000000000000646362610000000000000000033C05FF00000003 80)) ∧ leAt (leBytes 0x000000000000000000000000000000000000000000000000000000000000000000000000000000000000000000000000000000000000000000000000646362610000000000000000033C05FF00000003 80) 0 1 = 3 ∧ leAt (leBytes 0x000000000000000000000000000000000000000000000000000000000000000000000000000000000000000000000000000000000000000000000000646362610000000000000000033C05FF00000003 80) 6 1 < 64 ∧ leAt (leBytes 0x000000000000000000000000000000000000000000000000000000000000000000000000000000000000000000000000000000000000000000000000646362610000000000000000033C05FF00000003 80) 7 1 + 1 ≤ 64 ∧ bodyZero (leBytes 0x000000000000000000000000000000000000000000000000000000000000000000000000000000000000000000000000000000000000000000000000646362610000000000000000033C05FF00000003 80) ([4, 5, 6, 7] ++ List.range' 16 64) = true ∧ 512 ≤ leAt (leBytes 0x000000000000000000000000000000000000000000000000000000000000000000000000000000000000000000000000000000000000000000000000646362610000000000000000033C05FF00000003 80) 4 2 ∧ leAt (leBytes 0x000000000000000000000000000000000000000000000000000000000000000000000000000000000000000000000000000000000000000000000000646362610000000000000000033C05FF00000003 80) 4 2 ≤ 1535 ∧ nvmUnlocked st1108 0 1 = true ∧ st1108.nv.jobs = [] ∧ st1108.nv.waiting = [] ∧ st1108.nv.reading = none) := by unfold served; decide +kernel
/-- More clauses of `Obligations.SealedCommandsAreChecked`. -/
theorem wit_SealedCommandsAreChecked_5 : (served st1109 F.SEC_CTRL_ses_cmd.off true ∧ (cmdCheck st1109 .pcie).1 = some (6, (leBytes 0x0000000000000000000000000000000000000000000000000000000000000000000000000000000000000000000000000000000000000000000000000000777000000000000000000000000100000004 80)) ∧ leAt (leBytes 0x0000000000000000000000000000000000000000000000000000000000000000000000000000000000000000000000000000000000000000000000000000777000000000000000000000000100000004 80) 0 1 = 4 ∧ leAt (leBytes 0x0000000000000000000000000000000000000000000000000000000000000000000000000000000000000000000000000000000000000000000000000000777000000000000000000000000100000004 80) 4 1 = 1 ∧ bodyZero (leBytes 0x0000000000000000000000000000000000000000000000000000000000000000000000000000000000000000000000000000000000000000000000000000777000000000000000000000000100000004 80) ([4] ++ List.range' 16 16) = true ∧ nvmUnlocked st1109 0 1 = false) := by unfold served; decide +kernel
/-- More clauses of `Obligations.SealedCommandsAreChecked`. -/
theorem wit_SealedCommandsAreChecked_6 : (served st1110 F.SEC_CTRL_ses_cmd.off true ∧ (cmdCheck st1110 .pcie).1 = some (6, (leBytes 0x0000000000000000000000000000000000000000000000000000000000000000000000000000000000000000000000000000000000000000000000000000000000000000000000000000000000000005 80)) ∧ leAt (leBytes 0x0000000000000000000000000000000000000000000000000000000000000000000000000000000000000000000000000000000000000000000000000000000000000000000000000000000000000005 80) 0 1 = 5 ∧ bodyZero (leBytes 0x0000000000000000000000000000000000000000000000000000000000000000000000000000000000000000000000000000000000000000000000000000000000000000000000000000000000000005 80) [] = true ∧ st1110.sec.imgHash ≠ none ∧ rd st1110 F.NVM_IMG_ARB_arb = 255) := by unfold served; decide +kernel
/-- More clauses of `Obligations.SealedCommandsAreChecked`. -/
theorem wit_SealedCommandsAreChecked_7 : (served st1112 F.SEC_CTRL_ses_cmd.off true ∧ (cmdCheck st1112 .pcie).1 = some (6, (leBytes 0x0000000000000000000000000000000000000000000000000000000000000000000000000000000000000000000000000000000000000000000000000000000000000000000000000000000000000007 80)) ∧ leAt (leBytes 0x0000000000000000000000000000000000000000000000000000000000000000000000000000000000000000000000000000000000000000000000000000000000000000000000000000000000000007 80) 0 1 = 7 ∧ bodyZero (leBytes 0x0000000000000000000000000000000000000000000000000000000000000000000000000000000000000000000000000000000000000000000000000000000000000000000000000000000000000007 80) [] = true ∧ st1112.sec.mfgDone = true) := by unfold served; decide +kernel
/-- More clauses of `Obligations.SealedCommandsAreChecked`. -/
theorem wit_SealedCommandsAreChecked_8 : (served st1113 F.SEC_CTRL_ses_cmd.off true ∧ (cmdCheck st1113 .pcie).1 = some (6, (leBytes 0x0000000000000000000000000000000000000000000000000000000000000000000000000000000000000000000000000000000000000000000000000000000000000000000000000015000400000002 80)) ∧ leAt (leBytes 0x0000000000000000000000000000000000000000000000000000000000000000000000000000000000000000000000000000000000000000000000000000000000000000000000000015000400000002 80) 0 1 = 2 ∧ bodyZero (leBytes 0x0000000000000000000000000000000000000000000000000000000000000000000000000000000000000000000000000000000000000000000000000000000000000000000000000015000400000002 80) (List.range' 4 4) = true ∧ leAt (leBytes 0x0000000000000000000000000000000000000000000000000000000000000000000000000000000000000000000000000000000000000000000000000000000000000000000000000015000400000002 80) 4 4 / 65536 ∉ [blkBLQ, blkPPX, blkAGE]) := by unfold served; decide +kernel
/-- More clauses of `Obligations.SealedCommandsAreChecked`. -/
theorem wit_SealedCommandsAreChecked_9 : (served st1114 F.SEC_CTRL_ses_cmd.off true ∧ (cmdCheck st1114 .pcie).1 = some (6, (leBytes 0x000000000000000000000000000000000000000000000000000000000000000000000000000000000000000000000000000000000000000000000000000000000000000000000001000F009000000001 80)) ∧ leAt (leBytes 0x000000000000000000000000000000000000000000000000000000000000000000000000000000000000000000000000000000000000000000000000000000000000000000000001000F009000000001 80) 0 1 = 1 ∧ bodyZero (leBytes 0x000000000000000000000000000000000000000000000000000000000000000000000000000000000000000000000000000000000000000000000000000000000000000000000001000F009000000001 80) (List.range' 4 8) = true ∧ leAt (leBytes 0x000000000000000000000000000000000000000000000000000000000000000000000000000000000000000000000000000000000000000000000000000000000000000000000001000F009000000001 80) 4 4 = F.EVT_LOG_CFG_en.off ∧ blkOff st1114 F.EVT_LOG_CFG_en.off = false ∧ (regAt F.EVT_LOG_CFG_en.off).isSome = true) := by unfold served; decide +kernel
/-- Hypotheses of `Obligations.JtagIsBarredByItsLock` are met, clause by clause. -/
theorem wit_JtagIsBarredByItsLock : (st839.sec.jtagLock = true ∨ (JtagInstr.bypass) ≠ .other) := by decide +kernel
/-- More clauses of `Obligations.JtagIsBarredByItsLock`. -/
theorem wit_JtagIsBarredByItsLock_2 : (st839.sec.jtagLock = true ∨ (JtagInstr.idcode) ≠ .other) := by decide +kernel
/-- More clauses of `Obligations.JtagIsBarredByItsLock`. -/
theorem wit_JtagIsBarredByItsLock_3 : (st839.sec.jtagLock = true ∨ (JtagInstr.samplePreload) ≠ .other) := by decide +kernel
/-- More clauses of `Obligations.JtagIsBarredByItsLock`. -/
theorem wit_JtagIsBarredByItsLock_4 : (st839.sec.jtagLock = true ∨ (JtagInstr.extest) ≠ .other) := by decide +kernel
/-- More clauses of `Obligations.JtagIsBarredByItsLock`. -/
theorem wit_JtagIsBarredByItsLock_5 : (st839.sec.jtagLock = true ∨ (JtagInstr.other) ≠ .other) := by decide +kernel
/-- More clauses of `Obligations.JtagIsBarredByItsLock`. -/
theorem wit_JtagIsBarredByItsLock_6 : (st848.sec.jtagLock = false ∧ lifecycleOf st848.sec = lcOWNED) := by decide +kernel
/-- More clauses of `Obligations.JtagIsBarredByItsLock`. -/
theorem wit_JtagIsBarredByItsLock_7 : (st851.sec.jtagLock = false ∧ lifecycleOf st851.sec ≠ lcOWNED) := by decide +kernel
/-- More clauses of `Obligations.JtagIsBarredByItsLock`. -/
theorem wit_JtagIsBarredByItsLock_8 : (served st1111 F.SEC_CTRL_ses_cmd.off true ∧ (cmdCheck st1111 .pcie).1 = some (6, (leBytes 0x0000000000000000000000000000000000000000000000000000000000000000000000000000000000000000000000000000000000000000000000000000000000000000000000000000000000000006 80)) ∧ leAt (leBytes 0x0000000000000000000000000000000000000000000000000000000000000000000000000000000000000000000000000000000000000000000000000000000000000000000000000000000000000006 80) 0 1 = 6 ∧ bodyZero (leBytes 0x0000000000000000000000000000000000000000000000000000000000000000000000000000000000000000000000000000000000000000000000000000000000000000000000000000000000000006 80) [] = true) := by unfold served; decide +kernel
/-- Hypotheses of `Obligations.SessionsEnrolmentAndReports` are met, clause by clause. -/
theorem wit_SessionsEnrolmentAndReports : (served st854 F.SEC_CTRL_ses_start.off true ∧ (lifecycleOf st854.sec = lcOPEN ∨ lifecycleOf st854.sec = lcRETIRED ∨ sesState st854 ≠ 0 ∨ st854.tick < st854.sec.refuseTo)) := by unfold served; decide +kernel
/-- More clauses of `Obligations.SessionsEnrolmentAndReports`. -/
theorem wit_SessionsEnrolmentAndReports_2 : (served st858 F.SEC_CTRL_ses_start.off true ∧ lifecycleOf st858.sec ≠ lcOPEN ∧ lifecycleOf st858.sec ≠ lcRETIRED ∧ sesState st858 = 0 ∧ st858.sec.refuseTo ≤ st858.tick ∧ rd st858 F.SEC_SES_BUF_offset = 0 ∧ offProt st858 0 64) := by unfold offProt served; decide +kernel
/-- More clauses of `Obligations.SessionsEnrolmentAndReports`. -/
theorem wit_SessionsEnrolmentAndReports_3 : (served st870 F.SEC_CTRL_ses_close.off true) := by unfold served; decide +kernel
/-- More clauses of `Obligations.SessionsEnrolmentAndReports`. -/
theorem wit_SessionsEnrolmentAndReports_4 : (sesState st873 = 2) := by decide +kernel
/-- More clauses of `Obligations.SessionsEnrolmentAndReports`. -/
theorem wit_SessionsEnrolmentAndReports_5 : (sesState st874 ≠ 2) := by decide +kernel
/-- More clauses of `Obligations.SessionsEnrolmentAndReports`. -/
theorem wit_SessionsEnrolmentAndReports_6 : (served st851 F.SEC_CTRL_enroll.off true ∧ lifecycleOf st851.sec ≠ lcOPEN) := by unfold served; decide +kernel
/-- More clauses of `Obligations.SessionsEnrolmentAndReports`. -/
theorem wit_SessionsEnrolmentAndReports_7 : (served st878 F.SEC_CTRL_cert.off true ∧ lifecycleOf st878.sec = lcRETIRED) := by unfold served; decide +kernel
/-- More clauses of `Obligations.SessionsEnrolmentAndReports`. -/
theorem wit_SessionsEnrolmentAndReports_8 : (served st880 F.SEC_CTRL_cert.off true ∧ lifecycleOf st880.sec ≠ lcRETIRED ∧ (sesState st880 = 0 ∨ rd st880 F.SEC_STATUS_path = pathCode .pcie)) := by unfold served; decide +kernel
/-- More clauses of `Obligations.SessionsEnrolmentAndReports`. -/
theorem wit_SessionsEnrolmentAndReports_9 : (served st858 F.SEC_CTRL_cert.off true ∧ lifecycleOf st858.sec ≠ lcRETIRED ∧ (sesState st858 = 0 ∨ rd st858 F.SEC_STATUS_path = pathCode .orsal)) := by unfold served; decide +kernel
/-- More clauses of `Obligations.SessionsEnrolmentAndReports`. -/
theorem wit_SessionsEnrolmentAndReports_10 : (served st884 F.SEC_CTRL_cert.off true ∧ lifecycleOf st884.sec ≠ lcRETIRED ∧ (sesState st884 = 0 ∨ rd st884 F.SEC_STATUS_path = pathCode .mgt)) := by unfold served; decide +kernel
/-- More clauses of `Obligations.SessionsEnrolmentAndReports`. -/
theorem wit_SessionsEnrolmentAndReports_11 : (hdcpLive st886 = true ∧ st886.sec.erased = false ∧ domOn st886 6 = true) := by decide +kernel
/-- More clauses of `Obligations.SessionsEnrolmentAndReports`. -/
theorem wit_SessionsEnrolmentAndReports_12 : (hdcpLive up = false ∨ up.sec.erased = true ∨ domOn up 6 = false) := by decide +kernel
/-- More clauses of `Obligations.SessionsEnrolmentAndReports`. -/
theorem wit_SessionsEnrolmentAndReports_13 : (served st1115 F.SEC_CTRL_ses_finish.off true ∧ sesState st1115 = 1 ∧ rd st1115 F.SEC_STATUS_path = pathCode .pcie ∧ wordsPoisoned st1115 (rd st1115 F.SEC_SES_BUF_offset) 296 = false ∧ ecdsaVerify (pointAt (lstRd st1115 (rd st1115 F.SEC_SES_BUF_offset) 296) 104) (shaNum ((lstRd st1115 (rd st1115 F.SEC_SES_BUF_offset) 296).take 200 ++ st1115.sec.nonce)) (beAt (lstRd st1115 (rd st1115 F.SEC_SES_BUF_offset) 296) 200) (beAt (lstRd st1115 (rd st1115 F.SEC_SES_BUF_offset) 296) 248) = false) := by unfold served; decide +kernel
/-- More clauses of `Obligations.SessionsEnrolmentAndReports`. -/
theorem wit_SessionsEnrolmentAndReports_14 : (served st1116 F.SEC_CTRL_ses_finish.off true ∧ sesState st1116 = 1 ∧ rd st1116 F.SEC_STATUS_path = pathCode .pcie ∧ wordsPoisoned st1116 (rd st1116 F.SEC_SES_BUF_offset) 296 = false ∧ leAt (lstRd st1116 (rd st1116 F.SEC_SES_BUF_offset) 296) 0 4 = 0x3253535A ∧ leAt (lstRd st1116 (rd st1116 F.SEC_SES_BUF_offset) 296) 4 4 = 0 ∧ ownerKeyOk st1116 (slice (lstRd st1116 (rd st1116 F.SEC_SES_BUF_offset) 296) 104 96) = true ∧ ecdsaVerify (pointAt (lstRd st1116 (rd st1116 F.SEC_SES_BUF_offset) 296) 104) (shaNum ((lstRd st1116 (rd st1116 F.SEC_SES_BUF_offset) 296).take 200 ++ st1116.sec.nonce)) (beAt (lstRd st1116 (rd st1116 F.SEC_SES_BUF_offset) 296) 200) (beAt (lstRd st1116 (rd st1116 F.SEC_SES_BUF_offset) 296) 248) = true) := by unfold served; decide +kernel
/-- More clauses of `Obligations.SessionsEnrolmentAndReports`. -/
theorem wit_SessionsEnrolmentAndReports_15 : (served st1117 F.SEC_CTRL_enroll.off true ∧ sesState st1117 = 0 ∧ lifecycleOf st1117.sec = lcOPEN ∧ wordsPoisoned st1117 (rd st1117 F.SEC_SES_BUF_offset) 200 = false ∧ leAt (lstRd st1117 (rd st1117 F.SEC_SES_BUF_offset) 200) 0 4 = 0x314E455A ∧ leAt (lstRd st1117 (rd st1117 F.SEC_SES_BUF_offset) 200) 4 4 = 0 ∧ ecdsaVerify (pointAt (lstRd st1117 (rd st1117 F.SEC_SES_BUF_offset) 200) 8) (shaNum ((lstRd st1117 (rd st1117 F.SEC_SES_BUF_offset) 200).take 104 ++ leBytes Config.serial.toNat 8)) (beAt (lstRd st1117 (rd st1117 F.SEC_SES_BUF_offset) 200) 104) (beAt (lstRd st1117 (rd st1117 F.SEC_SES_BUF_offset) 200) 152) = false) := by unfold served; decide +kernel
/-- Hypotheses of `Obligations.DeviceStatesAndDomains` are met, clause by clause. -/
theorem wit_DeviceStatesAndDomains :
    (served st893 F.PWR_CTRL_wake.off true ∧ steady st893 ∧ 1 ≤ pwrState st893 ∧ pwrState st893 ≤ 3) ∧
    (served st895 F.PWR_CTRL_wake.off true ∧ steady st895 ∧ pwrState st895 = 1 ∧ rd st895 F.PWR_DOM_ON_on ≠ allDoms) ∧
    (served st901 F.PWR_CTRL_sleep.off true ∧ steady st901 ∧ pwrState st901 = 0 ∧ rd st901 F.PWR_REQ_max_state = 0) ∧
    (served st902 F.PWR_CTRL_sleep.off true ∧ steady st902 ∧ pwrState st902 = 0 ∧ 5 ≤ rd st902 F.PWR_REQ_max_state ∧ rd st902 F.PWR_LAT_TOL_us = 0xFFFFFFFF) ∧
    (served st904 F.PWR_CTRL_clr_cnt.off true ∧ steady st904 ∧ pwrState st904 = 0 ∧ rd st904 F.PWR_REQ_max_state = 0) ∧
    (steady st901 ∧ pwrState st901 = 0 ∧ rd st901 F.PWR_REQ_max_state = 0) :=
  ⟨by unfold served steady; decide +kernel,
   by unfold served steady; decide +kernel,
   by unfold served steady; decide +kernel,
   by unfold served steady; decide +kernel,
   by unfold served steady; decide +kernel,
   by unfold steady; decide +kernel⟩
/-- More clauses of `Obligations.DeviceStatesAndDomains`. -/
theorem wit_DeviceStatesAndDomains_2 :
    (steady st906 ∧ pwrState st906 = 0 ∧ rd st906 F.PWR_REQ_max_state = 1 ∧ 250 ≤ rd st906 F.PWR_LAT_TOL_us) ∧
    (steady st909 ∧ pwrState st909 = 1 ∧ rd st909 F.PWR_LAT_TOL_us < 250) ∧
    (maskHas st915.pwr.oning 0 = true) ∧
    (maskHas st901.pwr.oning 0 = false ∧ st901.pwr.opened = 0) ∧
    (maskHas st917.pwr.offing 0 = true ∧ st917.pwr.stage ≠ .shutdown ∧ lanesEmpty st917 0 = true ∧ bitOf st917 F.PWR_DOM_PEND_pend 0 = false) ∧
    (maskHas st918.pwr.offing 0 = true ∧ st918.pwr.stage ≠ .shutdown ∧ lanesEmpty st918 0 = true ∧ bitOf st918 F.PWR_DOM_PEND_pend 0 = true) :=
  ⟨by unfold steady; decide +kernel,
   by unfold steady; decide +kernel,
   by decide +kernel,
   by decide +kernel,
   by decide +kernel,
   by decide +kernel⟩
/-- More clauses of `Obligations.DeviceStatesAndDomains`. -/
theorem wit_DeviceStatesAndDomains_3 :
    (maskHas st901.pwr.offing 0 = false ∧ st901.pwr.stage = .none) ∧
    (domOn st1006 6 = true) ∧
    ((domOn st1011 6 = false ∨ (AuxReq.setPower true) ≠ .setPower true)) ∧
    ((domOn st1012 6 = false ∨ (AuxReq.setPower true) ≠ .setPower true) ∧ steady st1012 ∧ pwrState st1012 = 2 ∧ pwrTarget st1012 = 2) ∧
    ((domOn st1006 6 = false ∨ (AuxReq.setPower false) ≠ .setPower true)) ∧
    ((domOn st1017 6 = false ∨ (AuxReq.setPower false) ≠ .setPower true) ∧ steady st1017 ∧ pwrState st1017 = 2 ∧ pwrTarget st1017 = 2) :=
  ⟨by decide +kernel,
   by decide +kernel,
   by decide +kernel,
   by unfold steady; decide +kernel,
   by decide +kernel,
   by unfold steady; decide +kernel⟩
/-- More clauses of `Obligations.DeviceStatesAndDomains`. -/
theorem wit_DeviceStatesAndDomains_4 :
    ((domOn st1006 6 = false ∨ (AuxReq.other) ≠ .setPower true)) ∧
    ((domOn st1017 6 = false ∨ (AuxReq.other) ≠ .setPower true) ∧ steady st1017 ∧ pwrState st1017 = 2 ∧ pwrTarget st1017 = 2) ∧
    ((inEnabled st1036 (0 + 1) = true ∨ (rd st1036 (F.ING_IN_CFG_quad 1) = 1 ∧ inEnabled st1036 1 = true))) ∧
    ((inEnabled st1037 (0 + 1) = true ∨ (rd st1037 (F.ING_IN_CFG_quad 1) = 1 ∧ inEnabled st1037 1 = true)) ∧ steady st1037 ∧ pwrState st1037 = 2 ∧ pwrTarget st1037 = 2) ∧
    (inEnabled st1039 (0 + 1) = false ∧ (rd st1039 (F.ING_IN_CFG_quad 1) = 0 ∨ inEnabled st1039 1 = false)) ∧
    (steady st1068 ∧ rd st1068 F.PWR_WAKE_EN_mgt = 1 ∧ (pwrState st1068 = 3 ∨ pwrState st1068 = 4)) :=
  ⟨by decide +kernel,
   by unfold steady; decide +kernel,
   by decide +kernel,
   by unfold steady; decide +kernel,
   by decide +kernel,
   by unfold steady; decide +kernel⟩
/-- More clauses of `Obligations.DeviceStatesAndDomains`. -/
theorem wit_DeviceStatesAndDomains_5 :
    (steady st1072 ∧ rd st1072 F.PWR_WAKE_EN_perst = 1 ∧ pwrState st1072 = 4) ∧
    (steady st1073 ∧ rd st1073 F.PWR_WAKE_EN_mgt = 0) ∧
    (steady st1073 ∧ rd st1073 F.PWR_WAKE_EN_perst = 0) ∧
    (pwrState st1075 = 3 ∧ st1075.pwr.exitDue = true ∧ rd st1075 F.PWR_DOM_ON_on ≠ allDoms ∧ (st1075.pwr.opened = 0 ∨ st1075.pwr.openAt ≠ st1075.tick)) ∧
    (pwrState st1077 ≠ 3 ∨ st1077.pwr.exitDue = false) :=
  ⟨by unfold steady; decide +kernel,
   by unfold steady; decide +kernel,
   by unfold steady; decide +kernel,
   by decide +kernel,
   by decide +kernel⟩
/-- Hypotheses of `Obligations.ResetsAndStartUp` are met, clause by clause. -/
theorem wit_ResetsAndStartUp :
    ((∀ e ∈ st1079.sec.blow, e.1 = 383 → e.2 ≤ st1079.tick) ∧ (∃ e ∈ st1079.sec.blow, e.1 = 385) ∧ (∀ e ∈ st1079.sec.blow, e.1 = 385 → st1079.tick + fuseTicks < e.2)) ∧
    (st1080.nv.jobs = [] ∧ st1080.nv.xf = none ∧ st1080.age.ckpt = none) ∧
    (st22.boot.step = 0) ∧
    (pwrState st1086 = 4 ∧ st1086.pwr.exitDue = true) ∧
    (up.boot.step ≠ 0) ∧
    (pwrState st1089 ≠ 4 ∨ st1089.pwr.exitDue = false) :=
  ⟨by decide +kernel,
   by decide +kernel,
   by decide +kernel,
   by decide +kernel,
   by decide +kernel,
   by decide +kernel⟩
/-- More clauses of `Obligations.ResetsAndStartUp`. -/
theorem wit_ResetsAndStartUp_2 :
    (served st1091 F.NVM_BOOT_CMD_go.off true ∧ rd st1091 F.NVM_BOOT_STAT_state = 2 ∧ rd st1091 F.NVM_BOOT_STAT_code ≠ 0x20) ∧
    (served st1092 F.NVM_BOOT_CMD_go.off true ∧ (rd st1092 F.NVM_BOOT_STAT_state ≠ 2 ∨ rd st1092 F.NVM_BOOT_STAT_code = 0x20 ∨ rd st1092 F.SEC_CFG_host_boot = 0)) ∧
    (st1097.boot.step = 6 ∧ maskHas (chansInUse st1097) 0 = true) ∧
    (st1100.boot.step ≠ 6 ∨ maskHas (chansInUse st1100) 5 = false) ∧
    ([1760#16] ≠ []) ∧
    ([0xFFF0#16, 0x8000#16] ≠ []) :=
  ⟨by unfold served; decide +kernel,
   by unfold served; decide +kernel,
   by decide +kernel,
   by decide +kernel,
   by decide +kernel,
   by decide +kernel⟩

end Sys2Proof.Tests
end

section
namespace Sys2Proof.Machine
/-- Settles O4, by evaluating the reset state: its tables are literals, and each field is a word of them. -/
theorem resetTablesCanonical : Obligations.ResetTablesCanonical := by
  unfold Obligations.ResetTablesCanonical
  have tables : tablesOk State.reset = true := by decide +kernel
  refine ⟨tables, rfl, rfl, ?_⟩
  decide +kernel
end Sys2Proof.Machine
end

section
namespace Sys2Proof.Machine

/-- Nothing outside the register file has changed. -/
def RegOnly (s t : State) : Prop := t = { s with reg := t.reg }

theorem RegOnly.trans {s t u : State} (h : RegOnly s t) (h' : RegOnly t u) : RegOnly s u := by
  unfold RegOnly at h h' ⊢
  exact h'.trans (by rw [h])

theorem RegOnly.wrW (s : State) (o : Nat) (v : Word) : RegOnly s (wrW s o v) := rfl
theorem RegOnly.wr (s : State) (f : Fld) (x : Nat) : RegOnly s (wr s f x) := RegOnly.wrW ..
theorem RegOnly.wrB (s : State) (f : Fld) (b : Bool) : RegOnly s (wrB s f b) := RegOnly.wr ..
theorem RegOnly.clearCnt (s : State) (f : Fld) : RegOnly s (clearCnt s f) := RegOnly.wr ..
theorem RegOnly.clearRegs (s : State) (offs : List Nat) : RegOnly s (clearRegs s offs) := clearRegs_frame s offs

/-- The log of the tick is none of the registers. -/
theorem RegOnly.tickLog {s t : State} (h : RegOnly s t) : tickLog t = tickLog s := by rw [h]; rfl

theorem RegOnly.incsNow {s t : State} (h : RegOnly s t) (f : Fld) : incsNow t f = incsNow s f := by
  unfold Machine.incsNow; rw [h.tickLog]

theorem RegOnly.quiet {s t : State} (h : RegOnly s t) {offs : List Nat} (hq : quiet s offs) : quiet t offs := by
  unfold Machine.quiet; rw [h.tickLog]; exact hq

/-- Clearing counters one by one keeps the log of the tick. -/
theorem incsNow_clearCnt (s : State) (f g : Fld) : incsNow (clearCnt s f) g = incsNow s g := (RegOnly.clearCnt s f).incsNow g

/-- A counter that is the only one of its register in the list reads what it has counted in the tick of its clear (R569). -/
theorem rd_clearCnts (l : List (Fld × Nat)) (t : State) (f : Fld) (n : Nat) (hf : f.lo + f.w ≤ 32)
    (h : l.filter (fun e => e.1.off = f.off) = [(f, n)]) :
    rd (l.foldl (fun t e => clearCnt t e.1) t) f = min (incsNow t f) (2 ^ f.w - 1) := by
  induction l generalizing t with
  | nil => simp at h
  | cons e l ih =>
    rw [List.foldl_cons]
    by_cases he : e.1.off = f.off
    · simp only [List.filter_cons, he, decide_true, if_true, List.cons.injEq, List.filter_eq_nil_iff, decide_eq_true_eq] at h
      obtain ⟨rfl, h⟩ := h
      have hpos : 0 < 2 ^ f.w := by positivity
      have hlt : min (incsNow t f) (2 ^ f.w - 1) < 2 ^ f.w := by omega
      rw [rd, rdW_clearCnts_other l _ _ h]
      exact (rd_wr_same t f _ hf).trans (Nat.mod_eq_of_lt hlt)
    · rw [ih _ (by simpa [List.filter_cons, he] using h), incsNow_clearCnt]

/-- The log's only entry of a register is the one found for its counter. -/
theorem incsNow_of_filter (s : State) (f : Fld) (n : Nat) (h : (tickLog s).incs.filter (fun e => e.1.off = f.off) = [(f, n)]) :
    incsNow s f = n := by
  have hfind : ∀ l : List (Fld × Nat), l.filter (fun e => e.1.off = f.off) = [(f, n)] → l.find? (fun e => e.1 = f) = some (f, n) := by
    intro l
    induction l with
    | nil => simp
    | cons e l ih =>
      intro hl
      by_cases he : e.1.off = f.off
      · simp only [List.filter_cons, he, decide_true, if_true, List.cons.injEq] at hl
        obtain ⟨rfl, -⟩ := hl
        simp
      · have hef : e.1 ≠ f := fun h => he (by rw [h])
        rw [List.find?_cons_of_neg (by simpa using hef)]
        exact ih (by simpa [List.filter_cons, he] using hl)
  rw [incsNow, hfind _ h]

/-- With no increment of its register in the tick, a counter has none. -/
theorem incsNow_of_quiet (s : State) (f : Fld) (offs : List Nat) (h : quiet s offs) (hf : f.off ∈ offs) : incsNow s f = 0 := by
  have : (tickLog s).incs.find? (fun e => e.1 = f) = none := by
    rw [List.find?_eq_none]
    intro e he
    have := h e he
    simp only [decide_eq_true_eq]
    rintro rfl
    exact this hf
  rw [incsNow, this]

/-- What a clear of registers leaves in them (R569). -/
theorem cleared_clearRegs (s : State) (offs : List Nat) : cleared s (clearRegs s offs) offs := by
  refine ⟨fun h o ho => by rw [rdW_clearRegs s offs o h, if_pos ho], fun f n ho hf h => ?_⟩
  have hkeep : ((tickLog s).incs.filter (fun e => offs.contains e.1.off)).filter (fun e => e.1.off = f.off) = [(f, n)] := by
    rw [List.filter_filter, ← h]
    refine List.filter_congr fun e _ => ?_
    by_cases he : e.1.off = f.off <;> simp [he, ho]
  have hlog : incsNow (offs.foldl (fun s o => wrW s o 0#32) s) f = incsNow s f := RegOnly.incsNow (zeroed_frame s offs) f
  rw [clearRegs, rd_clearCnts _ _ f n hf hkeep, hlog, incsNow_of_filter s f n h]

/-- Later writes of other registers leave a clear as it is. -/
theorem cleared_congr {s t u : State} {offs : List Nat} (h : cleared s t offs) (hu : ∀ o ∈ offs, rdW u o = rdW t o) : cleared s u offs :=
  ⟨fun hq o ho => by rw [hu o ho, h.1 hq o ho], fun f n ho hf hl => by rw [rd, hu _ ho]; exact h.2 f n ho hf hl⟩

/-- A command that is served answers with its effect. -/
theorem exec_of_served {s : State} {c : Instr} {f : Nat} {wo : Bool} (act : State → State) (h : served s f wo)
    (hx : exec c s = .next (hostCmd s f wo act)) : exec c s = .next (act s) := by rw [hx, hostCmd_served s f wo act h]

/-- A clear command that is served and clears whole registers. -/
theorem exec_clearRegs {s : State} {c : Instr} {f : Nat} {offs : List Nat} (h : served s f true) (act : State → State)
    (hx : exec c s = .next (hostCmd s f true act)) (ha : act s = clearRegs s offs) :
    ∃ t, exec c s = .next t ∧ cleared s t offs ∧ regsKept s t offs ∧ RegOnly s t :=
  ⟨clearRegs s offs, ha ▸ exec_of_served act h hx, cleared_clearRegs s offs, fun o ho => rdW_clearRegs_other s offs o ho,
    clearRegs_frame s offs⟩

/-- Clearing registers and one flag of another register. -/
theorem cleared_with_flag (s : State) (offs : List Nat) (g : Fld) (hg : g.off ∉ offs) :
    cleared s (wrB (clearRegs s offs) g false) offs ∧ rdW (wrB (clearRegs s offs) g false) g.off = g.into (rdW s g.off) 0 ∧
      regsKept s (wrB (clearRegs s offs) g false) (g.off :: offs) ∧
      RegOnly s (wrB (clearRegs s offs) g false) := by
  refine ⟨cleared_congr (cleared_clearRegs s offs) fun o ho => ?_, ?_, fun o ho => ?_, (RegOnly.clearRegs s offs).trans (.wrB _ g false)⟩
  · exact rdW_wrW_other _ _ _ _ fun he => hg (he ▸ ho)
  · rw [wrB, rdW_wr, if_pos rfl, rdW_clearRegs_other s offs _ hg]; rfl
  · simp only [List.mem_cons, not_or] at ho
    rw [wrB, rdW_wr, if_neg ho.1, rdW_clearRegs_other s offs o ho.2]

/-- The same of a command. -/
theorem exec_clear_with_flag {s m : State} {c : Instr} {f : Nat} {offs : List Nat} {g : Fld} (h : served s f true)
    (act : State → State) (hx : exec c s = .next (hostCmd s f true act)) (ha : act s = wrB (clearRegs m offs) g false) (hg : g.off ∉ offs) :
    ∃ t, exec c s = .next t ∧ cleared m t offs ∧ rdW t g.off = g.into (rdW m g.off) 0 ∧ regsKept m t (g.off :: offs) ∧
      RegOnly m t :=
  ⟨_, ha ▸ exec_of_served act h hx, cleared_with_flag m offs g hg⟩

/-- A clear of one counter reads on its register as the field put to what the tick has counted. -/
theorem rdW_clearCnt (s : State) (f : Fld) (o : Nat) :
    rdW (clearCnt s f) o = if o = f.off then f.into (rdW s f.off) (min (incsNow s f) (2 ^ f.w - 1)) else rdW s o := rdW_wr ..

theorem rdW_clearCnt_other (s : State) (f : Fld) (o : Nat) (h : o ≠ f.off) : rdW (clearCnt s f) o = rdW s o := by
  rw [rdW_clearCnt, if_neg h]

/-- A clear of one counter that the tick has not counted. -/
theorem rdW_clearCnt_quiet (s : State) (f : Fld) (h : incsNow s f = 0) : rdW (clearCnt s f) f.off = f.into (rdW s f.off) 0 := by
  rw [rdW_clearCnt, if_pos rfl, h, Nat.zero_min]

/-- The clear of the error counters of one column-driver group (R320). -/
def clearGrp (s : State) (g : Nat) : State :=
  clearCnt (clearCnt (clearCnt s (F.DRV_GRP_STAT_tx_err g)) (F.DRV_GRP_STAT_rx_err g)) (F.DRV_GRP_STAT_bc_err g)

theorem rdW_clearGrp_other (s : State) (g o : Nat) (h : o ≠ (F.DRV_GRP_STAT_bc_err g).off) : rdW (clearGrp s g) o = rdW s o :=
  (rdW_clearCnt_other _ (F.DRV_GRP_STAT_bc_err g) o h).trans <|
    (rdW_clearCnt_other _ (F.DRV_GRP_STAT_rx_err g) o h).trans (rdW_clearCnt_other s (F.DRV_GRP_STAT_tx_err g) o h)

theorem rdW_clearGrp (s : State) (g : Nat) (h : quiet s [(F.DRV_GRP_STAT_tx_err g).off]) :
    rdW (clearGrp s g) (F.DRV_GRP_STAT_bc_err g).off =
      (F.DRV_GRP_STAT_bc_err g).into ((F.DRV_GRP_STAT_rx_err g).into ((F.DRV_GRP_STAT_tx_err g).into
        (rdW s (F.DRV_GRP_STAT_tx_err g).off) 0) 0) 0 := by
  have zero : ∀ f : Fld, f.off = (F.DRV_GRP_STAT_tx_err g).off → incsNow s f = 0 := fun f hf =>
    incsNow_of_quiet s f _ h (by simp [hf])
  have htx := rdW_clearCnt_quiet s (F.DRV_GRP_STAT_tx_err g) (zero _ rfl)
  have hrx := rdW_clearCnt_quiet (clearCnt s (F.DRV_GRP_STAT_tx_err g)) (F.DRV_GRP_STAT_rx_err g) (zero _ rfl)
  have hbc := rdW_clearCnt_quiet (clearCnt (clearCnt s (F.DRV_GRP_STAT_tx_err g)) (F.DRV_GRP_STAT_rx_err g)) (F.DRV_GRP_STAT_bc_err g)
    (zero _ rfl)
  rw [clearGrp, hbc]
  exact congrArg (fun w => (F.DRV_GRP_STAT_bc_err g).into w 0) (hrx.trans (congrArg (fun w => (F.DRV_GRP_STAT_rx_err g).into w 0) htx))

/-- Clearing groups writes the register file only, each group its own register. -/
theorem clearGrps_regOnly (l : List Nat) (s : State) : RegOnly s (l.foldl clearGrp s) := by
  induction l generalizing s with
  | nil => rfl
  | cons g l ih => exact (((RegOnly.clearCnt s _).trans (.clearCnt _ _)).trans (.clearCnt _ _)).trans (ih (clearGrp s g))

theorem rdW_clearGrps_other (l : List Nat) (s : State) (o : Nat) (h : ∀ g ∈ l, o ≠ (F.DRV_GRP_STAT_bc_err g).off) :
    rdW (l.foldl clearGrp s) o = rdW s o := by
  induction l generalizing s with
  | nil => rfl
  | cons g l ih =>
    rw [List.foldl_cons, ih _ fun x hx => h x (List.mem_cons_of_mem _ hx), rdW_clearGrp_other s g o (h g List.mem_cons_self)]

theorem grpStat_off_inj {g x : Nat} (h : (F.DRV_GRP_STAT_bc_err g).off = (F.DRV_GRP_STAT_bc_err x).off) : g = x := by
  simp only [F.DRV_GRP_STAT_bc_err] at h
  omega

theorem rdW_clearGrps (l : List Nat) (hl : l.Nodup) (s : State) (g : Nat) (hg : g ∈ l) (h : quiet s [(F.DRV_GRP_STAT_tx_err g).off]) :
    rdW (l.foldl clearGrp s) (F.DRV_GRP_STAT_bc_err g).off =
      (F.DRV_GRP_STAT_bc_err g).into ((F.DRV_GRP_STAT_rx_err g).into ((F.DRV_GRP_STAT_tx_err g).into
        (rdW s (F.DRV_GRP_STAT_tx_err g).off) 0) 0) 0 := by
  induction l generalizing s with
  | nil => simp at hg
  | cons x l ih =>
    rw [List.nodup_cons] at hl
    rw [List.foldl_cons]
    rcases List.mem_cons.1 hg with rfl | hg
    · rw [rdW_clearGrps_other l _ _ fun y hy he => hl.1 (by rwa [grpStat_off_inj he]), rdW_clearGrp s g h]
    · have hne : (F.DRV_GRP_STAT_tx_err g).off ≠ (F.DRV_GRP_STAT_bc_err x).off := fun he => hl.1 (grpStat_off_inj he ▸ hg)
      rw [ih hl.2 (clearGrp s x) hg h, rdW_clearGrp_other s x _ hne]

/-- The registers of the counters that a DRV clear zeroes whole (R320). -/
def drvCntRegs : List Nat := [F.DRV_CNT_TAKEOVER.off, F.DRV_CNT_EMDROP.off, F.DRV_CNT_BCERR.off, F.DRV_CNT_WR_IGN.off]

theorem drvClrCnt_eq (s : State) :
    drvClrCnt s = (List.range 24).foldl clearGrp (wrB (clearRegs s drvCntRegs) F.DRV_STATUS_wr_ign false) := by
  have step : (fun s g => clearCnt (clearCnt (clearCnt s (F.DRV_GRP_STAT_tx_err g)) (F.DRV_GRP_STAT_rx_err g)) (F.DRV_GRP_STAT_bc_err g)) =
    clearGrp := rfl
  unfold drvClrCnt
  simp only [step]
  rfl

/-- A group's register is none of the whole counters' nor the status register. -/
theorem grpStat_apart (g : Nat) (hg : g < 24) : (F.DRV_GRP_STAT_bc_err g).off ∉ F.DRV_STATUS_wr_ign.off :: drvCntRegs := by
  revert g; decide

/-- The counters of DRV after its clear (R320, R569). -/
theorem drvClrCnt_effect (s : State) :
    cleared s (drvClrCnt s) drvCntRegs ∧
    (∀ g, g < 24 → quiet s [(F.DRV_GRP_STAT_tx_err g).off] → rdW (drvClrCnt s) (F.DRV_GRP_STAT_bc_err g).off =
      (F.DRV_GRP_STAT_bc_err g).into ((F.DRV_GRP_STAT_rx_err g).into ((F.DRV_GRP_STAT_tx_err g).into
        (rdW s (F.DRV_GRP_STAT_tx_err g).off) 0) 0) 0) ∧
    rdW (drvClrCnt s) F.DRV_STATUS_wr_ign.off = F.DRV_STATUS_wr_ign.into (rdW s F.DRV_STATUS_wr_ign.off) 0 ∧
    regsKept s (drvClrCnt s) ([F.DRV_CNT_TAKEOVER.off, F.DRV_CNT_EMDROP.off, F.DRV_CNT_BCERR.off, F.DRV_CNT_WR_IGN.off,
      F.DRV_STATUS_wr_ign.off] ++ (List.range 24).map (fun g => (F.DRV_GRP_STAT_bc_err g).off)) ∧
    RegOnly s (drvClrCnt s) := by
  obtain ⟨hc, hf, hk, hs⟩ := cleared_with_flag s drvCntRegs F.DRV_STATUS_wr_ign (by decide)
  have apart : ∀ o ∈ F.DRV_STATUS_wr_ign.off :: drvCntRegs, ∀ g ∈ List.range 24, o ≠ (F.DRV_GRP_STAT_bc_err g).off :=
    fun o ho g hg he => grpStat_apart g (List.mem_range.1 hg) (he ▸ ho)
  rw [drvClrCnt_eq]
  refine ⟨cleared_congr hc fun o ho => ?_, fun g hg hq => ?_, ?_, fun o ho => ?_, ?_⟩
  · exact rdW_clearGrps_other _ _ _ (apart o (List.mem_cons_of_mem _ ho))
  · have hq' : quiet (wrB (clearRegs s drvCntRegs) F.DRV_STATUS_wr_ign false) [(F.DRV_GRP_STAT_tx_err g).off] := hs.quiet hq
    have hgrp : rdW (wrB (clearRegs s drvCntRegs) F.DRV_STATUS_wr_ign false) (F.DRV_GRP_STAT_tx_err g).off =
        rdW s (F.DRV_GRP_STAT_tx_err g).off := hk _ (grpStat_apart g hg)
    rw [rdW_clearGrps _ List.nodup_range _ g (List.mem_range.2 hg) hq', hgrp]
  · rw [rdW_clearGrps_other _ _ _ (apart _ List.mem_cons_self), hf]
  · simp only [List.mem_append, List.mem_map, not_or, not_exists, not_and] at ho
    rw [rdW_clearGrps_other _ _ _ fun g hg he => ho.2 g hg he.symm]
    exact hk o fun h => ho.1 (by revert h; simp only [drvCntRegs, List.mem_cons]; tauto)
  · exact hs.trans (clearGrps_regOnly _ _)


/-- The registers that a MEM clear zeroes whole (R411). -/
def memCntRegs : List Nat := [F.MEM_ECC_CNT.off, F.MEM_EDC_CNT.off, F.MEM_LS_ECC.off, (F.MEM_LS_CONF 0).off, (F.MEM_LS_CONF 1).off,
  (F.MEM_LS_CONF 2).off, (F.MEM_LS_CONF 3).off]

/-- The counters of MEM after its clear (R411, R569). -/
theorem memClrCnt_effect (s : State) :
    cleared s (memClrCnt s) memCntRegs ∧
    (quiet s [F.MEM_MBX_STAT_cnt_a.off] → rdW (memClrCnt s) F.MEM_MBX_STAT_cnt_a.off =
      F.MEM_MBX_STAT_cnt_b.into (F.MEM_MBX_STAT_cnt_a.into (rdW s F.MEM_MBX_STAT_cnt_a.off) 0) 0) ∧
    rdW (memClrCnt s) F.MEM_STATUS_wr_ign.off = F.MEM_STATUS_wr_ign.into (rdW s F.MEM_STATUS_wr_ign.off) 0 ∧
    regsKept s (memClrCnt s) (memCntRegs ++ [F.MEM_MBX_STAT_cnt_a.off, F.MEM_STATUS_wr_ign.off]) ∧
    RegOnly s (memClrCnt s) := by
  have step : ∀ o, rdW (memClrCnt s) o = if o = F.MEM_STATUS_wr_ign.off then
      F.MEM_STATUS_wr_ign.into (rdW (clearCnt (clearCnt (clearRegs s memCntRegs) F.MEM_MBX_STAT_cnt_a) F.MEM_MBX_STAT_cnt_b) o) 0
      else rdW (clearCnt (clearCnt (clearRegs s memCntRegs) F.MEM_MBX_STAT_cnt_a) F.MEM_MBX_STAT_cnt_b) o := by
    intro o
    refine (rdW_wr _ F.MEM_STATUS_wr_ign 0 o).trans ?_
    split
    · next h => rw [h]; rfl
    · rfl
  have mbx : ∀ o, o ≠ F.MEM_MBX_STAT_cnt_a.off →
      rdW (clearCnt (clearCnt (clearRegs s memCntRegs) F.MEM_MBX_STAT_cnt_a) F.MEM_MBX_STAT_cnt_b) o = rdW (clearRegs s memCntRegs) o :=
    fun o h => (rdW_clearCnt_other _ F.MEM_MBX_STAT_cnt_b o h).trans (rdW_clearCnt_other _ F.MEM_MBX_STAT_cnt_a o h)
  refine ⟨cleared_congr (cleared_clearRegs s memCntRegs) fun o ho => ?_, fun hq => ?_, ?_, fun o ho => ?_, ?_⟩
  · have hne : o ≠ F.MEM_STATUS_wr_ign.off ∧ o ≠ F.MEM_MBX_STAT_cnt_a.off := by revert o; decide
    rw [step, if_neg hne.1, mbx o hne.2]
  · have zero : ∀ f : Fld, f.off = F.MEM_MBX_STAT_cnt_a.off → incsNow (clearRegs s memCntRegs) f = 0 := fun f hf => by
      rw [(RegOnly.clearRegs s memCntRegs).incsNow]; exact incsNow_of_quiet s f _ hq (by simp [hf])
    have hb := rdW_clearCnt_quiet (clearCnt (clearRegs s memCntRegs) F.MEM_MBX_STAT_cnt_a) F.MEM_MBX_STAT_cnt_b (zero _ rfl)
    have ha := rdW_clearCnt_quiet (clearRegs s memCntRegs) F.MEM_MBX_STAT_cnt_a (zero _ rfl)
    rw [rdW_clearRegs_other s memCntRegs _ (by decide)] at ha
    rw [step, if_neg (by decide)]
    exact hb.trans (congrArg (fun w => F.MEM_MBX_STAT_cnt_b.into w 0) ha)
  · rw [step, if_pos rfl, mbx _ (by decide), rdW_clearRegs_other s memCntRegs _ (by decide)]
  · simp only [List.mem_append, List.mem_cons, List.not_mem_nil, or_false, not_or] at ho
    rw [step, if_neg ho.2.2, mbx o ho.2.1, rdW_clearRegs_other s memCntRegs o ho.1]
  · exact (((RegOnly.clearRegs s memCntRegs).trans (.clearCnt _ _)).trans (.clearCnt _ _)).trans (.wrB _ _ _)

/-- The registers that an ORL clear zeroes whole (R389). -/
def orlCntRegs : List Nat := [F.ORL_CNT_DIST.off, F.ORL_CNT_RX.off, F.ORL_CNT_EVT.off, F.ORL_CNT_MISC.off, (F.ORL_PORT_CNT 0).off,
  (F.ORL_PORT_CNT 1).off]

/-- The counters of ORL after its clear (R389, R569). -/
theorem orlClrCnt_effect (s : State) :
    cleared s (orlClrCnt s) orlCntRegs ∧
    (∀ x, x < 2 → quiet s [(F.ORL_PORT_STAT_downs x).off] → rdW (orlClrCnt s) (F.ORL_PORT_STAT_downs x).off =
      (F.ORL_PORT_STAT_downs x).into (rdW s (F.ORL_PORT_STAT_downs x).off) 0) ∧
    regsKept s (orlClrCnt s) (orlCntRegs ++ [(F.ORL_PORT_STAT_downs 0).off, (F.ORL_PORT_STAT_downs 1).off]) ∧
    RegOnly s (orlClrCnt s) := by
  have eq : orlClrCnt s = clearCnt (clearCnt (clearRegs s orlCntRegs) (F.ORL_PORT_STAT_downs 0)) (F.ORL_PORT_STAT_downs 1) := rfl
  have other : ∀ o, o ≠ (F.ORL_PORT_STAT_downs 0).off → o ≠ (F.ORL_PORT_STAT_downs 1).off →
      rdW (orlClrCnt s) o = rdW (clearRegs s orlCntRegs) o := fun o h0 h1 => by
    rw [eq, rdW_clearCnt_other _ _ _ h1, rdW_clearCnt_other _ _ _ h0]
  have apart : ∀ x, x < 2 → (F.ORL_PORT_STAT_downs x).off ∉ orlCntRegs := by decide
  refine ⟨cleared_congr (cleared_clearRegs s orlCntRegs) fun o ho => ?_, fun x hx hq => ?_, fun o ho => ?_, ?_⟩
  · have hne : o ≠ (F.ORL_PORT_STAT_downs 0).off ∧ o ≠ (F.ORL_PORT_STAT_downs 1).off := by revert o; decide
    exact other o hne.1 hne.2
  · have zero : incsNow (clearRegs s orlCntRegs) (F.ORL_PORT_STAT_downs x) = 0 := by
      rw [(RegOnly.clearRegs s orlCntRegs).incsNow]; exact incsNow_of_quiet s _ _ hq (by simp)
    have kept : rdW (clearRegs s orlCntRegs) (F.ORL_PORT_STAT_downs x).off = rdW s (F.ORL_PORT_STAT_downs x).off :=
      rdW_clearRegs_other s orlCntRegs _ (apart x hx)
    rw [eq, ← kept]
    obtain rfl | rfl : x = 0 ∨ x = 1 := by omega
    · rw [rdW_clearCnt_other _ _ _ (by decide), rdW_clearCnt_quiet _ _ zero]
    · rw [rdW_clearCnt_quiet _ _ (by rw [incsNow_clearCnt]; exact zero), rdW_clearCnt_other _ _ _ (by decide)]
  · simp only [List.mem_append, List.mem_cons, List.not_mem_nil, or_false, not_or] at ho
    rw [other o ho.2.1 ho.2.2, rdW_clearRegs_other s orlCntRegs o ho.1]
  · exact ((RegOnly.clearRegs s orlCntRegs).trans (.clearCnt _ _)).trans (.clearCnt _ _)

/-- Settles O7: a clear of whole registers (`exec_clearRegs`), one with a flag beside them (`exec_clear_with_flag`), and the three clears that
reach into registers with other fields. -/
theorem clearCommandsZeroTheirCounters : Obligations.ClearCommandsZeroTheirCounters := by
  unfold Obligations.ClearCommandsZeroTheirCounters
  refine ⟨fun s c f offs h hc => ?_, fun s m c f offs g h hm hc => ?_, fun s h => ?_, fun s h => ?_, fun s h => ?_⟩
  · simp only [List.mem_cons, Prod.mk.injEq, List.not_mem_nil, or_false] at hc
    rcases hc with ⟨rfl, rfl, rfl⟩ | ⟨rfl, rfl, rfl⟩ | ⟨rfl, rfl, rfl⟩ | ⟨rfl, rfl, rfl⟩ | ⟨rfl, rfl, rfl⟩ | ⟨rfl, rfl, rfl⟩ |
      ⟨rfl, rfl, rfl⟩ | ⟨rfl, rfl, rfl⟩
    · exact exec_clearRegs h tmbClrCnt rfl rfl
    · exact exec_clearRegs h exsClrCnt rfl rfl
    · exact exec_clearRegs h ingClrCnt rfl rfl
    · exact exec_clearRegs h blqClrCnt rfl rfl
    · exact exec_clearRegs h cdcClrCnt rfl rfl
    · exact exec_clearRegs h scnClrCnt rfl rfl
    · exact exec_clearRegs h evtClrCnt rfl rfl
    · exact exec_clearRegs h secClrCnt rfl rfl
  · simp only [List.mem_cons, Prod.mk.injEq, List.not_mem_nil, or_false] at hc
    rcases hc with ⟨rfl, rfl, rfl, rfl⟩ | ⟨rfl, rfl, rfl, rfl⟩ | ⟨rfl, rfl, rfl, rfl⟩ | ⟨rfl, rfl, rfl, rfl⟩ <;> subst hm
    · exact exec_clear_with_flag h ppxClrCnt rfl rfl (by decide)
    · exact exec_clear_with_flag h ageClrCnt rfl rfl (by decide)
    · exact exec_clear_with_flag h psqClrCnt rfl rfl (by decide)
    · exact exec_clear_with_flag h nvmClrCnt rfl rfl (by decide)
  · exact ⟨_, exec_of_served memClrCnt h rfl, memClrCnt_effect s⟩
  · exact ⟨_, exec_of_served drvClrCnt h rfl, drvClrCnt_effect s⟩
  · exact ⟨_, exec_of_served orlClrCnt h rfl, orlClrCnt_effect s⟩

end Sys2Proof.Machine
end

section
namespace Sys2Proof.Machine

/-! What the time base's operations can change -/

/-- Outside registers and posted records, only these blocks have changed: the time base, what a step of phase discards, start-up's step 8 with
the panel request it makes, and the model's own bookkeeping. -/
def TimeOnly (s t : State) : Prop :=
  t = { s with reg := t.reg, tmb := t.tmb, exs := t.exs, drv := t.drv, age := t.age, ppx := t.ppx, psq := t.psq, boot := t.boot,
               evt := t.evt, now := t.now, fresh := t.fresh }

theorem TimeOnly.trans {s t u : State} (h : TimeOnly s t) (h' : TimeOnly t u) : TimeOnly s u := by
  unfold TimeOnly at h h' ⊢
  exact h'.trans (by rw [h])

theorem TimeOnly.tick {s t : State} (h : TimeOnly s t) : t.tick = s.tick := by rw [h]

theorem TimeOnly.memKept {s t : State} (h : TimeOnly s t) : memKept s t := by
  unfold Machine.memKept
  rw [h]
  exact ⟨rfl, rfl, rfl, rfl, rfl, rfl⟩

theorem TimeOnly.orl {s t : State} (h : TimeOnly s t) : t.orl = s.orl := by rw [h]

/-- The registers at `offs` and the blocks of `TimeOnly` may have changed; every record that waited still waits. -/
structure Edge (offs : List Nat) (s t : State) : Prop where
  time : TimeOnly s t
  regs : regsKept s t offs
  posts : ∀ r ∈ s.evt.posted, r ∈ t.evt.posted

namespace Edge

variable {offs offs' : List Nat} {s t u : State}

theorem refl (offs : List Nat) (s : State) : Edge offs s s := ⟨rfl, fun _ _ => rfl, fun _ h => h⟩

theorem trans (h : Edge offs s t) (h' : Edge offs t u) : Edge offs s u :=
  ⟨h.time.trans h'.time, fun o ho => (h'.regs o ho).trans (h.regs o ho), fun r hr => h'.posts r (h.posts r hr)⟩

theorem mono (h : Edge offs s t) (hs : ∀ o ∈ offs, o ∈ offs') : Edge offs' s t := ⟨h.time, fun o ho => h.regs o fun h => ho (hs o h), h.posts⟩

/-- A change outside the register file and the event controller. -/
theorem of_time (h : TimeOnly s t) (hr : t.reg = s.reg) (he : t.evt = s.evt) : Edge offs s t :=
  ⟨h, fun o _ => by rw [rdW, hr, rdW], fun r h => by rw [he]; exact h⟩

theorem wr (s : State) (f : Fld) (x : Nat) (h : f.off ∈ offs) : Edge offs s (wr s f x) :=
  ⟨rfl, fun o ho => by rw [rdW_wr, if_neg fun e => ho (by rw [e]; exact h)], fun _ h => h⟩

theorem wrS (s : State) (f : Fld) (x : Int) (h : f.off ∈ offs) : Edge offs s (wrS s f x) := wr s f _ h
theorem wrB (s : State) (f : Fld) (b : Bool) (h : f.off ∈ offs) : Edge offs s (wrB s f b) := wr s f _ h
theorem bump (s : State) (f : Fld) (h : f.off ∈ offs) : Edge offs s (bump s f) := ⟨rfl, (wr s f _ h).regs, fun _ h => h⟩

theorem info (s : State) (b i : Nat) (f : Fld) (q : List (Nat × Nat)) : Edge offs s (info s b i f q) :=
  ⟨rfl, fun _ _ => rfl, fun _ h => (mem_insRec _ _ _).2 (.inr h)⟩

/-- A branch that does nothing else. -/
theorem ite {c : Prop} [Decidable c] (h : c → Edge offs s t) : Edge offs s (if c then t else s) := by
  split
  · exact h ‹c›
  · exact refl offs s

theorem rd (h : Edge offs s t) (f : Fld) (hf : f.off ∉ offs) : rd t f = rd s f := by rw [Machine.rd, h.regs _ hf, Machine.rd]

theorem rdS (h : Edge offs s t) (f : Fld) (hf : f.off ∉ offs) : rdS t f = rdS s f := by
  unfold Machine.rdS; rw [h.rd f hf]

theorem posted (h : Edge offs s t) {c b i : Nat} {f : Fld} {q : List (Nat × Nat)} (hp : posted s c b i f q) : posted t c b i f q := by
  obtain ⟨r, hr, h'⟩ := hp
  exact ⟨r, h.posts r hr, h'⟩

end Edge

/-- The parts of the time base that entering a state and applying an offset leave alone. -/
def TmbCore (s t : State) : Prop :=
  t.tmb = { s.tmb with next := t.tmb.next, picNext := t.tmb.picNext, missRun := t.tmb.missRun, holdAt := t.tmb.holdAt, held60 := t.tmb.held60,
                       freqLog := t.tmb.freqLog, lockEnd := t.tmb.lockEnd, corr := t.tmb.corr, corrAt := t.tmb.corrAt }

theorem TmbCore.trans {s t u : State} (h : TmbCore s t) (h' : TmbCore t u) : TmbCore s u := by
  unfold TmbCore at h h' ⊢
  exact h'.trans (by rw [h])

/-! Offsets (R26, R39) -/

theorem setOffset_edge (s : State) (p : Int) : Edge [F.TMB_FREQ_OFS_ppb.off] s (setOffset s p) := by
  have h := Edge.wrS (offs := [F.TMB_FREQ_OFS_ppb.off]) s F.TMB_FREQ_OFS_ppb (clampI p (-200000) 200000) (by decide)
  unfold setOffset
  exact h.trans (.ite fun _ => .of_time rfl rfl rfl)

/-- An offset leaves the time base as it is but for the log of LOCKED. -/
theorem setOffset_log (s : State) (p : Int) : (setOffset s p).tmb = { s.tmb with freqLog := (setOffset s p).tmb.freqLog } := by
  unfold setOffset
  dsimp only
  split <;> rfl

theorem setOffset_tmb (s : State) (p : Int) : TmbCore s (setOffset s p) := by
  unfold TmbCore
  rw [setOffset_log]

theorem loopOffset_edge (s : State) : Edge [F.TMB_FREQ_OFS_ppb.off] s (loopOffset s) :=
  (Edge.of_time (t := (freeInt s 1 freqLimit).2) rfl rfl rfl).trans (setOffset_edge _ _)

theorem loopOffset_tmb (s : State) : TmbCore s (loopOffset s) := TmbCore.trans (t := (freeInt s 1 freqLimit).2) rfl (setOffset_tmb _ _)

theorem slewOffset_edge (s : State) (e : Int) : Edge [F.TMB_FREQ_OFS_ppb.off] s (slewOffset s e) := by
  unfold slewOffset
  dsimp only
  split
  · refine Edge.trans ?_ (setOffset_edge _ _)
    exact .of_time rfl rfl rfl
  · refine Edge.trans ?_ (setOffset_edge _ _)
    exact .of_time rfl rfl rfl

theorem slewOffset_tmb (s : State) (e : Int) : TmbCore s (slewOffset s e) := by
  unfold slewOffset
  dsimp only
  split
  · refine TmbCore.trans ?_ (setOffset_tmb _ _)
    rfl
  · refine TmbCore.trans ?_ (setOffset_tmb _ _)
    rfl

/-! Entering a state (Table 2.3): the steps of tmbEnter, in order -/

/-- LOCKED notes its end. -/
def noteLockEnd (s : State) : State := if tmbState s = tmLOCKED then { s with tmb.lockEnd := s.tick } else s
/-- Leaving ACQUIRE for another state than FREE places the first boundary. -/
def placeOnLeave (old new : Nat) (s : State) : State := if old = tmACQUIRE && new != tmFREE then placeFirst s else s
/-- HOLDOVER is counted and reported. -/
def countHoldover (new : Nat) (s : State) : State :=
  if new = tmHOLDOVER then info (bump s F.TMB_REF_CNT_holdovers) blkTMB 0 F.TMB_REF_CNT_holdovers else s
/-- The stay in HOLDOVER or OUT_OF_RANGE begins now. -/
def heldNow (s : State) : State := { s with tmb := { s.tmb with holdAt := s.tick, held60 := false, missRun := 0 } }
theorem rd_heldNow (s : State) (f : Fld) : rd (heldNow s) f = rd s f := rfl
theorem held60_heldNow (s : State) : (heldNow s).tmb.held60 = false := rfl
theorem posted_heldNow (s : State) (c b i : Nat) (f : Fld) (q : List (Nat × Nat)) : posted (heldNow s) c b i f q = posted s c b i f q := rfl

/-- A record changes no register. -/
theorem rd_info (s : State) (b i : Nat) (f g : Fld) (q : List (Nat × Nat)) : rd (info s b i f q) g = rd s g := rfl

/-- HOLDOVER and OUT_OF_RANGE run at a frozen offset. -/
def freezeOffset (new : Nat) (frozen : Int) (s : State) : State :=
  if new = tmHOLDOVER || new = tmOOR then setOffset (heldNow s) frozen else s
/-- LOCKED begins its log of offsets. -/
def startLog (new : Nat) (s : State) : State :=
  if new = tmLOCKED then { s with tmb.freqLog := [(s.tick, rdS s F.TMB_FREQ_OFS_ppb)] } else s
/-- LOCKED ends step 8 of start-up. -/
def lockEndsStep8 (new : Nat) (s : State) : State := if new = tmLOCKED && s.boot.end5.isSome && !s.boot.step8 then step8End s else s
/-- SLEW begins with no correction. -/
def startSlew (new : Nat) (s : State) : State := if new = tmSLEW then { s with tmb := { s.tmb with corr := 0, corrAt := s.tick } } else s

/-- What follows the write of the state. -/
def enterRest (old new : Nat) (frozen : Int) (s : State) : State :=
  startSlew new (lockEndsStep8 new (startLog new (freezeOffset new frozen (countHoldover new (placeOnLeave old new s)))))

theorem tmbEnter_eq (s : State) (new : Nat) : tmbEnter s new = if tmbState s = new then s else
    enterRest (tmbState s) new (frozenOffset s) (wr (noteLockEnd s) F.TMB_STATUS_state new) := rfl

variable {offs : List Nat}

theorem noteLockEnd_edge (s : State) : Edge offs s (noteLockEnd s) := .ite fun _ => .of_time rfl rfl rfl
theorem noteLockEnd_tmb (s : State) : TmbCore s (noteLockEnd s) := by unfold noteLockEnd; split <;> rfl

theorem placeFirst_edge (s : State) : Edge offs s (placeFirst s) := by
  unfold placeFirst
  split
  · exact .of_time rfl rfl rfl
  · exact .refl offs s

theorem placeFirst_tmb (s : State) : TmbCore s (placeFirst s) := by unfold placeFirst; split <;> rfl

theorem placeOnLeave_edge (old new : Nat) (s : State) : Edge offs s (placeOnLeave old new s) := .ite fun _ => placeFirst_edge s
theorem placeOnLeave_tmb (old new : Nat) (s : State) : TmbCore s (placeOnLeave old new s) := by
  unfold placeOnLeave
  split
  · exact placeFirst_tmb s
  · rfl

theorem countHoldover_edge (new : Nat) (s : State) (h : new = tmHOLDOVER → F.TMB_REF_CNT_holdovers.off ∈ offs) :
    Edge offs s (countHoldover new s) := .ite fun e => (Edge.bump s _ (h e)).trans (.info ..)
theorem countHoldover_tmb (new : Nat) (s : State) : TmbCore s (countHoldover new s) := by unfold countHoldover; split <;> rfl

theorem freezeOffset_edge (new : Nat) (x : Int) (s : State) (h : new = tmHOLDOVER ∨ new = tmOOR → F.TMB_FREQ_OFS_ppb.off ∈ offs) :
    Edge offs s (freezeOffset new x s) := by
  refine .ite fun e => ?_
  have ho := h (by simpa using e)
  refine Edge.trans ?_ ((setOffset_edge _ _).mono fun o h => by rw [List.mem_singleton.1 h]; exact ho)
  exact .of_time rfl rfl rfl

theorem freezeOffset_tmb (new : Nat) (x : Int) (s : State) : TmbCore s (freezeOffset new x s) := by
  unfold freezeOffset
  split
  · refine TmbCore.trans ?_ (setOffset_tmb _ _)
    rfl
  · rfl

theorem startLog_edge (new : Nat) (s : State) : Edge offs s (startLog new s) := .ite fun _ => .of_time rfl rfl rfl
theorem startLog_tmb (new : Nat) (s : State) : TmbCore s (startLog new s) := by unfold startLog; split <;> rfl

theorem step8End_edge (s : State) (h : F.PSQ_FAULT.off ∈ offs) : Edge offs s (step8End s) := by
  refine Edge.trans (t := { s with boot.step8 := true }) (.of_time rfl rfl rfl) ?_
  refine .ite fun _ => Edge.trans ?_ (.wr _ F.PSQ_FAULT 0 h)
  exact .of_time rfl rfl rfl

theorem step8End_tmb (s : State) : (step8End s).tmb = s.tmb := by unfold step8End; dsimp only; split <;> rfl

theorem lockEndsStep8_edge (new : Nat) (s : State) (h : new = tmLOCKED → F.PSQ_FAULT.off ∈ offs) : Edge offs s (lockEndsStep8 new s) := by
  refine .ite fun e => step8End_edge s (h ?_)
  simp only [Bool.and_eq_true, decide_eq_true_eq] at e
  exact e.1.1

theorem lockEndsStep8_tmb (new : Nat) (s : State) : TmbCore s (lockEndsStep8 new s) := by
  unfold lockEndsStep8 TmbCore
  split
  · rw [step8End_tmb]
  · rfl

theorem startSlew_edge (new : Nat) (s : State) : Edge offs s (startSlew new s) := .ite fun _ => .of_time rfl rfl rfl
theorem startSlew_tmb (new : Nat) (s : State) : TmbCore s (startSlew new s) := by unfold startSlew; split <;> rfl

theorem enterRest_edge (old new : Nat) (x : Int) (s : State) (h1 : new = tmHOLDOVER → F.TMB_REF_CNT_holdovers.off ∈ offs)
    (h2 : new = tmHOLDOVER ∨ new = tmOOR → F.TMB_FREQ_OFS_ppb.off ∈ offs) (h3 : new = tmLOCKED → F.PSQ_FAULT.off ∈ offs) :
    Edge offs s (enterRest old new x s) :=
  (placeOnLeave_edge old new s).trans <| (countHoldover_edge new _ h1).trans <| (freezeOffset_edge new x _ h2).trans <|
    (startLog_edge new _).trans <| (lockEndsStep8_edge new _ h3).trans (startSlew_edge new _)

/-- Of the registers, what follows the write of the state can write only these. -/
def enterRegs : List Nat := [F.TMB_REF_CNT_holdovers.off, F.TMB_FREQ_OFS_ppb.off, F.PSQ_FAULT.off]

theorem enterRest_regs (old new : Nat) (x : Int) (s : State) : Edge enterRegs s (enterRest old new x s) :=
  enterRest_edge old new x s (fun _ => by decide) (fun _ => by decide) (fun _ => by decide)

theorem enterRest_tmb (old new : Nat) (x : Int) (s : State) : TmbCore s (enterRest old new x s) :=
  (placeOnLeave_tmb old new s).trans <| (countHoldover_tmb new _).trans <| (freezeOffset_tmb new x _).trans <|
    (startLog_tmb new _).trans <| (lockEndsStep8_tmb new _).trans (startSlew_tmb new _)

/-- Entering a state keeps what the time base knows of its edges. -/
theorem tmbEnter_tmb (s : State) (new : Nat) : TmbCore s (tmbEnter s new) := by
  rw [tmbEnter_eq]
  split
  · rfl
  · exact (noteLockEnd_tmb s).trans (TmbCore.trans (t := wr (noteLockEnd s) F.TMB_STATUS_state new) rfl (enterRest_tmb ..))

/-- What entering a state can write. -/
theorem tmbEnter_edge (s : State) (new : Nat) (h0 : F.TMB_STATUS_state.off ∈ offs) (h1 : new = tmHOLDOVER → F.TMB_REF_CNT_holdovers.off ∈ offs)
    (h2 : new = tmHOLDOVER ∨ new = tmOOR → F.TMB_FREQ_OFS_ppb.off ∈ offs) (h3 : new = tmLOCKED → F.PSQ_FAULT.off ∈ offs) :
    Edge offs s (tmbEnter s new) := by
  rw [tmbEnter_eq]
  split
  · exact .refl offs s
  · exact (noteLockEnd_edge s).trans ((Edge.wr _ _ _ h0).trans (enterRest_edge _ _ _ _ h1 h2 h3))

/-- The state entered is the one asked for. -/
theorem tmbState_tmbEnter (s : State) (new : Nat) (h : new < 8) : tmbState (tmbEnter s new) = new := by
  rw [tmbEnter_eq]
  split
  · next e => exact e
  · rw [tmbState, (enterRest_regs ..).rd _ (by decide), rd_wr_same _ _ _ (by decide)]
    exact Nat.mod_eq_of_lt h

/-- Entering a state leaves the other fields of TMB.STATUS alone. -/
theorem rd_status_tmbEnter (s : State) (new : Nat) (f : Fld) (ho : f.off = F.TMB_STATUS_state.off) (hf : 3 ≤ f.lo) :
    rd (tmbEnter s new) f = rd s f := by
  rw [tmbEnter_eq]
  split
  · rfl
  · rw [(enterRest_regs ..).rd _ (by rw [ho]; decide), rd_wr_disjoint _ F.TMB_STATUS_state f _ (by decide) (.inr hf)]
    exact (noteLockEnd_edge (offs := []) s).rd f (by simp)


/-- What follows the entry to HOLDOVER from another state than ACQUIRE. -/
theorem enterRest_holdover (old : Nat) (x : Int) (s : State) (h : old ≠ tmACQUIRE) :
    enterRest old tmHOLDOVER x s = setOffset (heldNow (info (bump s F.TMB_REF_CNT_holdovers) blkTMB 0 F.TMB_REF_CNT_holdovers)) x := by
  have hp : placeOnLeave old tmHOLDOVER s = s := if_neg (by simp [h])
  rw [enterRest, hp, startSlew, if_neg (by decide), lockEndsStep8, if_neg (by simp [tmHOLDOVER, tmLOCKED]), startLog, if_neg (by decide),
    freezeOffset, if_pos (by simp), countHoldover, if_pos rfl]

end Sys2Proof.Machine
end

section
namespace Sys2Proof.Machine

/-! An accepted edge (R35, R36) -/

theorem noteEdge_edge (s : State) (k err : Int) : Edge [F.TMB_STATUS_state.off, F.TMB_PHASE_ERR_ticks.off] s (noteEdge s k err) := by
  unfold noteEdge
  refine Edge.trans ?_ (.wrB _ F.TMB_STATUS_ref_present true (by decide))
  refine Edge.trans ?_ (.wrS _ F.TMB_PHASE_ERR_ticks _ (by decide))
  exact .of_time rfl rfl rfl

theorem tmbState_noteEdge (s : State) (k err : Int) : tmbState (noteEdge s k err) = tmbState s := by
  unfold noteEdge tmbState
  rw [wrB, rd_wr_disjoint _ F.TMB_STATUS_ref_present F.TMB_STATUS_state _ (by decide) (by decide), wrS, rd_wr_other _ _ _ _ (by decide)]
  rfl

theorem refPresent_noteEdge (s : State) (k err : Int) : rd (noteEdge s k err) F.TMB_STATUS_ref_present = 1 := by
  unfold noteEdge
  exact rd_wrB_same _ F.TMB_STATUS_ref_present true (by decide) (by decide)

/-- A signed field reads what was written to it, where its width holds the value. -/
theorem rdS_wrS_same (s : State) (f : Fld) (x : Int) (h : f.lo + f.w ≤ 32) (hw : 0 < f.w) (hlo : -2 ^ (f.w - 1) ≤ x) (hhi : x < 2 ^ (f.w - 1)) :
    rdS (wrS s f x) f = x := by
  have hp : (2 : Int) ^ f.w = 2 * 2 ^ (f.w - 1) := by rw [← pow_succ', Nat.sub_add_cancel hw]
  have hpos : (0 : Int) < 2 ^ (f.w - 1) := by positivity
  have hcast : ((2 ^ (f.w - 1) : Nat) : Int) = 2 ^ (f.w - 1) := by push_cast; rfl
  have hcast' : ((2 ^ f.w : Nat) : Int) = 2 ^ f.w := by push_cast; rfl
  have hm : ((x % 2 ^ f.w).toNat : Int) = x % 2 ^ f.w := Int.toNat_of_nonneg (Int.emod_nonneg _ (by positivity))
  have hlt : (x % 2 ^ f.w).toNat < 2 ^ f.w := by
    have := Int.emod_lt_of_pos x (show (0 : Int) < 2 ^ f.w by positivity)
    omega
  rw [rdS, wrS, rd_wr_same s f _ h, Nat.mod_eq_of_lt hlt]
  rcases lt_or_ge x 0 with hx | hx
  · have hmod : x % 2 ^ f.w = x + 2 ^ f.w := by
      rw [← Int.add_emod_right, Int.emod_eq_of_lt (by omega) (by omega)]
    rw [if_pos (by omega), hm, hmod]
    ring
  · have hmod : x % 2 ^ f.w = x := Int.emod_eq_of_lt hx (by omega)
    rw [if_neg (by omega), hm, hmod]

theorem phaseErr_noteEdge (s : State) (k err : Int) (hlo : -2 ^ 31 ≤ err / 64) (hhi : err / 64 < 2 ^ 31) :
    rdS (noteEdge s k err) F.TMB_PHASE_ERR_ticks = err / 64 := by
  unfold noteEdge
  rw [wrB, rdS, rd_wr_other _ _ _ _ (by decide)]
  exact rdS_wrS_same _ F.TMB_PHASE_ERR_ticks (err / 64) (by decide) (by decide) hlo hhi

/-- Under wide acceptance, in FREE and in HOLDOVER an accepted edge leads to SLEW (R570). -/
def widen (wide : Bool) (s : State) : State :=
  let st := tmbState s
  if st = tmFREE || st = tmHOLDOVER || (wide && (st = tmLOCKED || st = tmACQUIRE)) then tmbEnter s tmSLEW else s

/-- The run of good or bad edges decides between LOCKED and SLEW (R36). -/
def judgeRun (s : State) : State :=
  let st := tmbState s
  if (st = tmACQUIRE || st = tmSLEW) && rd s F.TMB_LOCK_CFG_lock_cnt ≤ s.tmb.good then tmbEnter s tmLOCKED
  else if st = tmLOCKED && 2 ≤ s.tmb.bad then tmbEnter s tmSLEW else s

/-- The offset that the edge leads to (R39, Table 2.3). -/
def edgeOffset (err : Int) (s : State) : State := if tmbState s = tmSLEW then slewOffset s err else loopOffset s

theorem acceptEdge_eq (s : State) (k err : Int) (wide : Bool) : acceptEdge s k err wide =
    if tmbState (noteEdge s k err) = tmOOR then noteEdge s k err else edgeOffset err (judgeRun (widen wide (noteEdge s k err))) := rfl

/-- Registers that the judgement of an edge can write beside PHASE_ERR. -/
def judgeRegs : List Nat := [F.TMB_STATUS_state.off, F.TMB_FREQ_OFS_ppb.off, F.PSQ_FAULT.off]

/-- Entering SLEW or LOCKED writes no counter. -/
theorem tmbEnter_judgeRegs (s : State) (new : Nat) (h : new = tmSLEW ∨ new = tmLOCKED) : Edge judgeRegs s (tmbEnter s new) :=
  tmbEnter_edge s new (by decide) (by rcases h with rfl | rfl <;> decide) (fun _ => by decide) (fun _ => by decide)

theorem widen_edge (wide : Bool) (s : State) : Edge judgeRegs s (widen wide s) := .ite fun _ => tmbEnter_judgeRegs s _ (.inl rfl)
theorem widen_tmb (wide : Bool) (s : State) : TmbCore s (widen wide s) := by
  unfold widen; dsimp only; split
  · exact tmbEnter_tmb ..
  · rfl

theorem widen_narrow (s : State) (h : tmbState s ∈ [tmACQUIRE, tmLOCKED, tmSLEW]) : widen false s = s := by
  unfold widen
  rw [if_neg]
  revert h
  generalize tmbState s = st
  intro h
  simp only [List.mem_cons, List.not_mem_nil, or_false] at h
  rcases h with rfl | rfl | rfl <;> decide

theorem judgeRun_edge (s : State) : Edge judgeRegs s (judgeRun s) := by
  unfold judgeRun; dsimp only; split
  · exact tmbEnter_judgeRegs s _ (.inr rfl)
  · exact .ite fun _ => tmbEnter_judgeRegs s _ (.inl rfl)

theorem judgeRun_tmb (s : State) : TmbCore s (judgeRun s) := by
  unfold judgeRun; dsimp only; split
  · exact tmbEnter_tmb ..
  · split
    · exact tmbEnter_tmb ..
    · rfl

theorem edgeOffset_edge (err : Int) (s : State) : Edge [F.TMB_FREQ_OFS_ppb.off] s (edgeOffset err s) := by
  unfold edgeOffset; split
  · exact slewOffset_edge ..
  · exact loopOffset_edge s

theorem edgeOffset_tmb (err : Int) (s : State) : TmbCore s (edgeOffset err s) := by
  unfold edgeOffset; split
  · exact slewOffset_tmb ..
  · exact loopOffset_tmb s

theorem tmbState_edgeOffset (err : Int) (s : State) : tmbState (edgeOffset err s) = tmbState s := (edgeOffset_edge err s).rd _ (by decide)

/-- The judgement of an edge leaves the other fields of TMB.STATUS alone. -/
theorem refPresent_judged (wide : Bool) (err : Int) (s : State) :
    rd (edgeOffset err (judgeRun (widen wide s))) F.TMB_STATUS_ref_present = rd s F.TMB_STATUS_ref_present := by
  have enter : ∀ u n, rd (tmbEnter u n) F.TMB_STATUS_ref_present = rd u F.TMB_STATUS_ref_present := fun u n =>
    rd_status_tmbEnter u n F.TMB_STATUS_ref_present rfl (by decide)
  have hw : rd (widen wide s) F.TMB_STATUS_ref_present = rd s F.TMB_STATUS_ref_present := by
    unfold widen; dsimp only; split
    · exact enter ..
    · rfl
  rw [(edgeOffset_edge ..).rd _ (by decide), ← hw]
  unfold judgeRun; dsimp only; split
  · exact enter ..
  · split
    · exact enter ..
    · rfl

/-- From LOCKED two bad edges in a row lead to SLEW. -/
theorem tmbState_judgeRun_locked (s : State) (h : tmbState s = tmLOCKED) :
    tmbState (judgeRun s) = if 2 ≤ s.tmb.bad then tmSLEW else tmLOCKED := by
  unfold judgeRun
  rw [h]
  by_cases hb : 2 ≤ s.tmb.bad
  · simp [hb, tmLOCKED, tmACQUIRE, tmSLEW, tmbState_tmbEnter]
  · simpa [hb, tmLOCKED, tmACQUIRE, tmSLEW] using h

/-- From ACQUIRE and SLEW a run of good edges leads to LOCKED. -/
theorem tmbState_judgeRun_unlocked (s : State) (h : tmbState s = tmACQUIRE ∨ tmbState s = tmSLEW) :
    tmbState (judgeRun s) = if rd s F.TMB_LOCK_CFG_lock_cnt ≤ s.tmb.good then tmLOCKED else tmbState s := by
  unfold judgeRun
  by_cases hg : rd s F.TMB_LOCK_CFG_lock_cnt ≤ s.tmb.good
  · rw [if_pos hg, if_pos (by simpa [hg] using h)]
    exact tmbState_tmbEnter s _ (by decide)
  · rw [if_neg hg, if_neg (by simp [hg]), if_neg]
    simp only [Bool.and_eq_true, decide_eq_true_eq, not_and]
    intro hl
    rw [hl] at h
    exact absurd h (by decide)

/-! Edges and their windows (R35) -/

/-- The state in which an edge is judged: the clock stands at the edge's tick or later, and the measurement of R37 has the edge. -/
def measured (s : State) (ts : Nat) : State := { s with tick := max s.tick (ts + syncLat), tmb.recent := s.tmb.recent ++ [ts] }

/-- With fewer than 16 edges the measurement of R37 only notes the edge. -/
theorem measureEdge_short (s : State) (ts : Nat) (h : s.tmb.recent.length < 15) :
    measureEdge s ts = { s with tmb.recent := s.tmb.recent ++ [ts] } := by
  have hdrop : (s.tmb.recent ++ [ts]).drop (s.tmb.recent.length + 1 - 16) = s.tmb.recent ++ [ts] := by
    rw [Nat.sub_eq_zero_of_le (by omega), List.drop_zero]
  unfold measureEdge
  rw [hdrop]
  exact if_pos (by simp; omega)

/-- An instant at most half a period from the k-th expected one belongs to the k-th window. -/
theorem window_of_instant (t : Nat) (k : Nat) (e : Int) (hlo : -(t / 2 : Nat) ≤ e) (hhi : e < (t - t / 2 : Nat)) :
    ((k * t + e : Int) + (t / 2 : Nat)) / t = k := by
  have ht : (0 : Int) < t := by omega
  rw [show (k * t + e : Int) + (t / 2 : Nat) = (e + (t / 2 : Nat)) + k * t by ring, Int.add_mul_ediv_right _ _ ht.ne',
    Int.ediv_eq_zero_of_lt (by omega) (by omega)]
  omega

/-- An edge that is judged: outside its window, or in a window used already, it strays; else it is accepted. -/
theorem genlockEdge_judged {s : State} {src : EdgeSrc} {a : Int} {k ts : Nat} {e : Int} (h : judgesEdges s src a)
    (hts : (ts : Int) = a + k * tRef s + e) (hlo : -(tRef s / 2 : Nat) ≤ e) (hhi : e < (tRef s - tRef s / 2 : Nat)) :
    genlockEdge s src ts =
      if e < -(rd s F.TMB_REF_WIN_ticks : Int) ∨ (rd s F.TMB_REF_WIN_ticks : Int) ≤ e ∨ s.tmb.acc = some (k : Int) then strayEdge (measured s ts)
      else acceptEdge (measured s ts) k (64 * e) false := by
  obtain ⟨href, hst, hal, hwide, hre, hlen, hpos, -⟩ := h
  have hfree : tmbState s ≠ tmFREE := by
    intro hf; rw [hf] at hst; exact absurd hst (by decide)
  have hm : measureEdge (reach s (ts + syncLat)) ts = measured s ts := measureEdge_short _ _ hlen
  have hk : ((ts : Int) - a + (tRef s / 2 : Nat)) / tRef s = k := by
    rw [hts, show a + (k : Int) * tRef s + e - a = k * tRef s + e by ring]
    exact window_of_instant _ _ _ hlo hhi
  have herr : (ts : Int) - a - k * tRef s = e := by rw [hts]; ring
  have hal' : (measured s ts).tmb.align = some a := hal
  have hwide' : (measured s ts).tmb.wide = false := hwide
  have hre' : (measured s ts).tmb.realign = false := hre
  have hacc' : (measured s ts).tmb.acc = s.tmb.acc := rfl
  have ht' : tRef (measured s ts) = tRef s := rfl
  have hrd' : rd (measured s ts) F.TMB_REF_WIN_ticks = rd s F.TMB_REF_WIN_ticks := rfl
  have hgo : (isRef (reach s (ts + syncLat)) src && (tmbState (reach s (ts + syncLat)) != tmFREE || (reach s (ts + syncLat)).tmb.wide)) = true := by
    have h1 : isRef (reach s (ts + syncLat)) src = true := by cases src <;> exact href
    have h2 : tmbState (reach s (ts + syncLat)) ≠ tmFREE := hfree
    simp [h1, h2]
  have hk0 : ¬((k : Int) < 0) := by omega
  unfold genlockEdge
  rw [if_pos hgo]
  unfold refEdge
  rw [hm]
  simp only [hal', hwide', hre', hacc', ht', hrd', if_neg hpos.ne', hk, herr, Bool.false_eq_true, if_false, Bool.false_and]
  by_cases hs : e < -(rd s F.TMB_REF_WIN_ticks : Int) ∨ (rd s F.TMB_REF_WIN_ticks : Int) ≤ e ∨ s.tmb.acc = some (k : Int)
  · rw [if_pos hs, if_pos (by simpa [hk0, or_assoc] using hs)]
  · rw [if_neg hs, if_neg (by simpa [hk0, or_assoc] using hs), Nat.cast_zero, add_zero]


/-- An edge inside a window not used yet is accepted. -/
theorem genlockEdge_accepted {s : State} {src : EdgeSrc} {a : Int} {k ts : Nat} {e : Int} (h : judgesEdges s src a)
    (hts : (ts : Int) = a + k * tRef s + e) (hlo : -(rd s F.TMB_REF_WIN_ticks : Int) ≤ e) (hhi : e < rd s F.TMB_REF_WIN_ticks)
    (hacc : s.tmb.acc ≠ some (k : Int)) : genlockEdge s src ts = acceptEdge (measured s ts) k (64 * e) false := by
  have hwin : 2 * rd s F.TMB_REF_WIN_ticks ≤ tRef s := h.2.2.2.2.2.2.2
  rw [genlockEdge_judged h hts (by omega) (by omega), if_neg]
  rintro (h | h | h)
  · omega
  · omega
  · exact hacc h

/-- An accepted edge in a state that judges edges: what follows the note of it. -/
theorem acceptEdge_judges (s : State) (k err : Int) (h : tmbState s ∈ [tmACQUIRE, tmLOCKED, tmHOLDOVER, tmSLEW]) :
    acceptEdge s k err false = edgeOffset err (judgeRun (widen false (noteEdge s k err))) := by
  rw [acceptEdge_eq, if_neg]
  rw [tmbState_noteEdge]
  intro e
  rw [e] at h
  exact absurd h (by decide)

/-- Registers that an accepted edge can write. -/
def edgeRegs : List Nat := [F.TMB_STATUS_state.off, F.TMB_PHASE_ERR_ticks.off, F.TMB_FREQ_OFS_ppb.off, F.PSQ_FAULT.off]

theorem judged_edge (wide : Bool) (err : Int) (s : State) : Edge judgeRegs s (edgeOffset err (judgeRun (widen wide s))) :=
  (widen_edge wide s).trans ((judgeRun_edge _).trans ((edgeOffset_edge err _).mono (by decide)))

theorem judged_tmb (wide : Bool) (err : Int) (s : State) : TmbCore s (edgeOffset err (judgeRun (widen wide s))) :=
  (widen_tmb wide s).trans ((judgeRun_tmb _).trans (edgeOffset_tmb err _))

/-- The runs of good and bad edges after an edge (R36). -/
theorem runs_noteEdge (s : State) (k e : Int) :
    (noteEdge s k (64 * e)).tmb.good = (if e.natAbs ≤ rd s F.TMB_LOCK_CFG_lock_thr then s.tmb.good + 1 else 0) ∧
    (noteEdge s k (64 * e)).tmb.bad = (if e.natAbs ≤ rd s F.TMB_LOCK_CFG_lock_thr then 0 else s.tmb.bad + 1) := by
  have hok : decide ((64 * e).natAbs ≤ 64 * rd s F.TMB_LOCK_CFG_lock_thr) = decide (e.natAbs ≤ rd s F.TMB_LOCK_CFG_lock_thr) := by
    rw [decide_eq_decide]; omega
  unfold noteEdge
  rw [hok]
  by_cases h : e.natAbs ≤ rd s F.TMB_LOCK_CFG_lock_thr
  · rw [decide_eq_true h, if_pos h, if_pos h]; exact ⟨rfl, rfl⟩
  · rw [decide_eq_false h, if_neg h, if_neg h]; exact ⟨rfl, rfl⟩

/-- From LOCKED an accepted edge leads to SLEW when it and the one before it were bad (R36). -/
theorem tmbState_acceptEdge_locked (s : State) (k e : Int) (h : tmbState s = tmLOCKED) :
    tmbState (acceptEdge s k (64 * e) false) =
      if rd s F.TMB_LOCK_CFG_lock_thr < e.natAbs ∧ 1 ≤ s.tmb.bad then tmSLEW else tmLOCKED := by
  have hn : tmbState (noteEdge s k (64 * e)) = tmLOCKED := by rw [tmbState_noteEdge, h]
  rw [acceptEdge_judges s k _ (by rw [h]; decide), tmbState_edgeOffset, widen_narrow _ (by rw [hn]; decide), tmbState_judgeRun_locked _ hn,
    (runs_noteEdge s k e).2]
  refine if_congr ?_ rfl rfl
  split <;> omega

/-- From ACQUIRE and SLEW it leads to LOCKED when it completes the run of good edges (R36). -/
theorem tmbState_acceptEdge_unlocked (s : State) (k e : Int) (h : tmbState s = tmACQUIRE ∨ tmbState s = tmSLEW)
    (hc : 1 ≤ rd s F.TMB_LOCK_CFG_lock_cnt) :
    tmbState (acceptEdge s k (64 * e) false) =
      if e.natAbs ≤ rd s F.TMB_LOCK_CFG_lock_thr ∧ rd s F.TMB_LOCK_CFG_lock_cnt ≤ s.tmb.good + 1 then tmLOCKED else tmbState s := by
  have hn : tmbState (noteEdge s k (64 * e)) = tmbState s := tmbState_noteEdge ..
  have hjudges : tmbState s ∈ [tmACQUIRE, tmLOCKED, tmHOLDOVER, tmSLEW] := by rcases h with h | h <;> rw [h] <;> decide
  have hnarrow : tmbState (noteEdge s k (64 * e)) ∈ [tmACQUIRE, tmLOCKED, tmSLEW] := by rw [hn]; rcases h with h | h <;> rw [h] <;> decide
  rw [acceptEdge_judges s k _ hjudges, tmbState_edgeOffset, widen_narrow _ hnarrow, tmbState_judgeRun_unlocked _ (by rw [hn]; exact h),
    (runs_noteEdge s k e).1, (noteEdge_edge s k (64 * e)).rd F.TMB_LOCK_CFG_lock_cnt (by decide), hn]
  refine if_congr ?_ rfl rfl
  split <;> omega

/-- Settles O9: the edge lies in its window (`genlockEdge_accepted`), and what an accepted edge leaves is said by the lemmas on its steps. -/
theorem acceptedEdgeUpdatesLock : Obligations.AcceptedEdgeUpdatesLock := by
  unfold Obligations.AcceptedEdgeUpdatesLock
  intro s src a k ts e h hts hlo hhi hacc
  have hst : tmbState (measured s ts) ∈ [tmACQUIRE, tmLOCKED, tmHOLDOVER, tmSLEW] := h.2.1
  have hx : exec (.genlockEdge src ts) s = .next (acceptEdge (measured s ts) k (64 * e) false) :=
    congrArg Host.Outcome.next (genlockEdge_accepted h hts hlo hhi hacc)
  have hw : rd s F.TMB_REF_WIN_ticks < 2 ^ 24 := Nat.mod_lt _ (by decide)
  have hnote := noteEdge_edge (measured s ts) k (64 * e)
  have hjudge := judged_edge false (64 * e) (noteEdge (measured s ts) k (64 * e))
  have heq := acceptEdge_judges (measured s ts) k (64 * e) hst
  have hedge : Edge edgeRegs (measured s ts) (acceptEdge (measured s ts) k (64 * e) false) := by
    rw [heq]; exact (hnote.mono (by decide)).trans (hjudge.mono (by decide))
  refine ⟨_, hx, hedge.time.tick, ?_, ?_, ?_, tmbState_acceptEdge_locked (measured s ts) k e,
    tmbState_acceptEdge_unlocked (measured s ts) k e, fun _ => hedge.regs, hedge.time.memKept⟩
  · rw [heq, judged_tmb false (64 * e) (noteEdge (measured s ts) k (64 * e))]; rfl
  · have hdiv : 64 * e / 64 = e := by omega
    rw [heq, hjudge.rdS _ (by decide), phaseErr_noteEdge _ _ _ (by omega) (by omega), hdiv]
  · rw [heq, refPresent_judged, refPresent_noteEdge]

end Sys2Proof.Machine
end

section
namespace Sys2Proof.Machine

/-! Counters, alarms and records -/

/-- A saturating counter after one more event, and its register. -/
theorem rd_bump (s : State) (f : Fld) (h : f.lo + f.w ≤ 32) : rd (bump s f) f = counted s f := rd_bump_same s f h

theorem rdW_bump_same (s : State) (f : Fld) : rdW (bump s f) f.off = f.into (rdW s f.off) (counted s f) := by
  show rdW (wr s f _) f.off = _
  rw [rdW_wr, if_pos rfl]
  rfl

/-- Counting in one field leaves a disjoint field of the register alone. -/
theorem rd_bump_disjoint (s : State) (f g : Fld) (h : f.lo + f.w ≤ 32) (hd : g.lo + g.w ≤ f.lo ∨ f.lo + f.w ≤ g.lo) :
    rd (bump s f) g = rd s g := rd_wr_disjoint s f g _ h hd

/-- Bit `i` of a number whose bit `i` has been set. -/
theorem bit_of_setBit (x i : Nat) : (x - x / 2 ^ i % 2 * 2 ^ i + 2 ^ i) / 2 ^ i % 2 = 1 := by
  have hpos : 0 < 2 ^ i := by positivity
  have hle : x / 2 ^ i % 2 * 2 ^ i ≤ x := le_trans (Nat.mul_le_mul_right _ (Nat.mod_le _ _)) (Nat.div_mul_le_self _ _)
  have hdiv : (x - x / 2 ^ i % 2 * 2 ^ i) / 2 ^ i = x / 2 ^ i - x / 2 ^ i % 2 := by
    rw [Nat.mul_comm]; exact Nat.sub_mul_div_of_le x (2 ^ i) _ (by rwa [Nat.mul_comm])
  rw [Nat.add_div_right _ hpos, hdiv]
  omega

theorem bitOf_eq_testBit (s : State) (f : Fld) (i : Nat) : bitOf s f i = (rd s f).testBit i := by
  rw [bitOf, Nat.testBit_eq_decide_div_mod_eq]; rfl

/-- A bit of a field that has been set reads 1. -/
theorem bitOf_setBitOf_true (s : State) (f : Fld) (i : Nat) (h : f.lo + f.w ≤ 32) (hi : i < f.w) : bitOf (setBitOf s f i true) f i = true := by
  rw [bitOf_eq_testBit]
  unfold setBitOf
  rw [rd_wr_same s f _ h, Nat.testBit_mod_two_pow, decide_eq_true hi, Bool.true_and, if_pos rfl, Nat.testBit_eq_decide_div_mod_eq,
    bit_of_setBit]
  rfl

/-- An alarm whose condition holds reads 1 (R464). -/
theorem bitOf_alarmSet (s : State) (b : Nat) (h : b < F.EVT_ALARM_alarm.w) : bitOf (alarmSet s b) F.EVT_ALARM_alarm b = true := by
  unfold alarmSet
  split
  · assumption
  · exact bitOf_setBitOf_true s F.EVT_ALARM_alarm b (by decide) h

theorem alarmSet_edge (s : State) (b : Nat) : Edge [F.EVT_ALARM_alarm.off] s (alarmSet s b) := by
  refine ⟨?_, fun o ho => rdW_alarmSet_other s b o (by simpa using ho), ?_⟩
  · unfold TimeOnly; rw [alarmSet_frame]
  · unfold alarmSet
    split
    · exact fun _ h => h
    · exact fun _ h => (mem_insRec _ _ _).2 (.inr h)

theorem posted_info (s : State) (blk inst : Nat) (f : Fld) (qs : List (Nat × Nat)) : posted (info s blk inst f qs) clsInfo blk inst f qs :=
  posted_post ..

/-! Misses and HOLDOVER (R35, R38, R44) -/

/-- The tick at which the window of the next expected edge has ended and the miss is known. -/
def missTick (s : State) (a : Int) : Nat := (a + s.tmb.win * tRef s + rd s F.TMB_REF_WIN_ticks + syncLat).toNat

/-- A missed window is noted and counted. -/
def noteMiss (s : State) (a : Int) : State :=
  bump { s with tick := max s.tick (missTick s a), tmb := { s.tmb with win := s.tmb.win + 1, missRun := s.tmb.missRun + 1 } } F.TMB_REF_CNT_misses

/-- A run of misses shows the reference as gone. -/
def refGone (s : State) (a : Int) : State := wrB (noteMiss s a) F.TMB_STATUS_ref_present false

theorem edgeMiss_eq {s : State} {a : Int} (ha : s.tmb.align = some a) (hw : s.tmb.wide = false) (ht : 0 < tRef s) (hs : tmbState s ≠ tmFREE) :
    edgeMiss s =
      if s.tmb.missRun + 1 < rd s F.TMB_LOCK_CFG_miss_cnt then noteMiss s a
      else if tmbState s = tmLOCKED || tmbState s = tmSLEW then tmbEnter (refGone s a) tmHOLDOVER
      else if tmbState s = tmACQUIRE then dropAlign (refGone s a) else refGone s a := by
  have hcnt : rd (noteMiss s a) F.TMB_LOCK_CFG_miss_cnt = rd s F.TMB_LOCK_CFG_miss_cnt := rd_bump_other _ _ _ (by decide)
  have hgo : (s.tmb.wide || decide (tmbState s = tmFREE) || decide (tRef s = 0)) = false := by simp [hw, hs, ht.ne']
  unfold edgeMiss
  rw [ha]
  dsimp only
  rw [hgo, if_neg (by simp), ← hcnt]
  rfl

/-- Time may pass; else only what an edge can change has changed. -/
def Later (offs : List Nat) (s t : State) : Prop := Edge offs { s with tick := t.tick } t

theorem Later.regs {offs : List Nat} {s t : State} (h : Later offs s t) : regsKept s t offs := Edge.regs (s := { s with tick := t.tick }) h

theorem Later.memKept {offs : List Nat} {s t : State} (h : Later offs s t) : memKept s t :=
  (Edge.time (s := { s with tick := t.tick }) h).memKept

theorem Later.trans {offs : List Nat} {s t u : State} (h : Later offs s t) (h' : Edge offs t u) : Later offs s u := by
  unfold Later
  rw [h'.time.tick]
  exact Edge.trans h h'

/-- Registers that a missed window can write. -/
def missRegs : List Nat := [F.TMB_REF_CNT_misses.off, F.TMB_STATUS_state.off, F.TMB_FREQ_OFS_ppb.off]

theorem noteMiss_later (s : State) (a : Int) : Later missRegs s (noteMiss s a) :=
  Edge.trans (t := { s with tick := max s.tick (missTick s a), tmb := { s.tmb with win := s.tmb.win + 1, missRun := s.tmb.missRun + 1 } })
    (.of_time rfl rfl rfl) (.bump _ _ (by decide))

theorem refGone_later (s : State) (a : Int) : Later missRegs s (refGone s a) := (noteMiss_later s a).trans (.wrB _ _ _ (by decide))

theorem dropAlign_edge (s : State) : Edge missRegs s (dropAlign s) := by
  refine Edge.trans ?_ (.info ..)
  refine Edge.trans ?_ ((setOffset_edge _ _).mono (by decide))
  exact .of_time rfl rfl rfl

theorem enterHoldover_edge (s : State) : Edge missRegs s (tmbEnter s tmHOLDOVER) :=
  tmbEnter_edge s tmHOLDOVER (by decide) (fun _ => by decide) (fun _ => by decide) (fun h => absurd h (by decide))

/-- The count of misses after a missed window, in the register that also counts the entries to HOLDOVER. -/
theorem rd_misses_noteMiss (s : State) (a : Int) : rd (noteMiss s a) F.TMB_REF_CNT_misses = counted s F.TMB_REF_CNT_misses :=
  rd_bump _ F.TMB_REF_CNT_misses (by decide)

theorem rd_misses_refGone (s : State) (a : Int) : rd (refGone s a) F.TMB_REF_CNT_misses = counted s F.TMB_REF_CNT_misses := by
  rw [refGone, wrB, rd_wr_other _ _ _ _ (by decide), rd_misses_noteMiss]

theorem tmbState_noteMiss (s : State) (a : Int) : tmbState (noteMiss s a) = tmbState s := rd_bump_other _ _ F.TMB_STATUS_state (by decide)

theorem tmbState_refGone (s : State) (a : Int) : tmbState (refGone s a) = tmbState s := by
  rw [← tmbState_noteMiss s a]
  exact rd_wr_disjoint _ F.TMB_STATUS_ref_present F.TMB_STATUS_state _ (by decide) (by decide)

theorem refPresent_refGone (s : State) (a : Int) : rd (refGone s a) F.TMB_STATUS_ref_present = 0 :=
  rd_wrB_same _ F.TMB_STATUS_ref_present false (by decide) (by decide)

/-- The entry to HOLDOVER from another state: counted and reported, the alarm of 60 s not raised yet. -/
theorem enterHoldover_counts (s : State) (h : tmbState s = tmLOCKED ∨ tmbState s = tmSLEW) :
    rd (tmbEnter s tmHOLDOVER) F.TMB_REF_CNT_holdovers = counted s F.TMB_REF_CNT_holdovers ∧
    rd (tmbEnter s tmHOLDOVER) F.TMB_REF_CNT_misses = rd s F.TMB_REF_CNT_misses ∧
    (tmbEnter s tmHOLDOVER).tmb.held60 = false ∧ posted (tmbEnter s tmHOLDOVER) clsInfo blkTMB 0 F.TMB_REF_CNT_holdovers [] := by
  have hne : tmbState s ≠ tmHOLDOVER := by rcases h with h | h <;> rw [h] <;> decide
  have hacq : tmbState s ≠ tmACQUIRE := by rcases h with h | h <;> rw [h] <;> decide
  let u := wr (noteLockEnd s) F.TMB_STATUS_state tmHOLDOVER
  have heq : tmbEnter s tmHOLDOVER =
      setOffset (heldNow (info (bump u F.TMB_REF_CNT_holdovers) blkTMB 0 F.TMB_REF_CNT_holdovers)) (frozenOffset s) := by
    rw [tmbEnter_eq, if_neg hne, enterRest_holdover _ _ _ hacq]
  have hoff := setOffset_edge (heldNow (info (bump u F.TMB_REF_CNT_holdovers) blkTMB 0 F.TMB_REF_CNT_holdovers)) (frozenOffset s)
  have hu : ∀ f : Fld, f.off ≠ F.TMB_STATUS_state.off → rd u f = rd s f := fun f hf =>
    (rd_wr_other _ _ _ _ hf).trans ((noteLockEnd_edge (offs := []) s).rd f (by simp))
  rw [heq]
  refine ⟨?_, ?_, ?_, hoff.posted ?_⟩
  · rw [hoff.rd _ (by decide), rd_heldNow, rd_info, rd_bump u _ (by decide), counted, counted, hu _ (by decide)]
  · rw [hoff.rd _ (by decide), rd_heldNow, rd_info, rd_bump_disjoint u _ _ (by decide) (by decide), hu _ (by decide)]
  · rw [setOffset_log, held60_heldNow]
  · rw [posted_heldNow]
    exact posted_info ..

end Sys2Proof.Machine
end

section
namespace Sys2Proof.Machine

theorem Edge.later {offs : List Nat} {s t : State} (h : Edge offs s t) : Later offs s t := by
  unfold Later
  rw [h.time.tick]
  exact h

/-! Obligation on strays, misses and HOLDOVER -/

/-- An edge that strays is counted and otherwise ignored (R35). -/
theorem genlockEdge_stray {s : State} {src : EdgeSrc} {a : Int} {k ts : Nat} {e : Int} (h : judgesEdges s src a)
    (hts : (ts : Int) = a + k * tRef s + e) (hlo : -(tRef s / 2 : Nat) ≤ e) (hhi : e < (tRef s - tRef s / 2 : Nat))
    (hs : e < -(rd s F.TMB_REF_WIN_ticks : Int) ∨ (rd s F.TMB_REF_WIN_ticks : Int) ≤ e ∨ s.tmb.acc = some (k : Int)) :
    genlockEdge s src ts = bump (measured s ts) F.TMB_REF_CNT_strays := by
  rw [genlockEdge_judged h hts hlo hhi, if_pos hs]
  rfl

theorem stray_effect (s : State) (ts : Nat) :
    rd (bump (measured s ts) F.TMB_REF_CNT_strays) F.TMB_REF_CNT_strays = counted s F.TMB_REF_CNT_strays ∧
    rdW (bump (measured s ts) F.TMB_REF_CNT_strays) F.TMB_REF_CNT_strays.off =
      F.TMB_REF_CNT_strays.into (rdW s F.TMB_REF_CNT_strays.off) (counted s F.TMB_REF_CNT_strays) ∧
    regsKept s (bump (measured s ts) F.TMB_REF_CNT_strays) [F.TMB_REF_CNT_strays.off] ∧
    memKept s (bump (measured s ts) F.TMB_REF_CNT_strays) ∧
    tmbState (bump (measured s ts) F.TMB_REF_CNT_strays) = tmbState s ∧
    (bump (measured s ts) F.TMB_REF_CNT_strays).tmb.align = s.tmb.align :=
  have h := Edge.bump (offs := [F.TMB_REF_CNT_strays.off]) (measured s ts) F.TMB_REF_CNT_strays (by decide)
  ⟨rd_bump _ _ (by decide), rdW_bump_same _ _, h.regs, h.time.memKept, h.rd F.TMB_STATUS_state (by decide), rfl⟩

/-- Which windows and edges the time base knows is the same as before a miss, but for the window just missed. -/
theorem align_win_refGone (s : State) (a : Int) : (refGone s a).tmb.align = s.tmb.align ∧ (refGone s a).tmb.win = s.tmb.win + 1 := ⟨rfl, rfl⟩

theorem align_win_enter (s : State) (new : Nat) :
    (tmbEnter s new).tmb.align = s.tmb.align ∧ (tmbEnter s new).tmb.win = s.tmb.win := by
  rw [tmbEnter_tmb]
  exact ⟨rfl, rfl⟩

/-- Without its alignment edge ACQUIRE runs at offset 0 (R38). -/
theorem dropAlign_effect (s : State) :
    (dropAlign s).tmb.align = none ∧ (dropAlign s).tmb.win = s.tmb.win ∧ rd (dropAlign s) F.TMB_FREQ_OFS_ppb = 0 ∧
    posted (dropAlign s) clsInfo blkTMB 0 F.TMB_REF_CNT_misses [] := by
  refine ⟨?_, ?_, ?_, posted_post ..⟩
  · show (setOffset _ 0).tmb.align = none
    rw [setOffset_log]
  · show (setOffset _ 0).tmb.win = _
    rw [setOffset_log]
  · unfold dropAlign setOffset
    rw [rd_info]
    dsimp only
    split <;> exact rd_wr_same _ F.TMB_FREQ_OFS_ppb _ (by decide)

/-- A missed window in a state that judges edges (R38, R44). -/
theorem edgeMiss_effect {s : State} {a : Int} (ha : s.tmb.align = some a) (hw : s.tmb.wide = false) (ht : 0 < tRef s)
    (hs : tmbState s ∈ [tmACQUIRE, tmLOCKED, tmHOLDOVER, tmSLEW]) :
    rd (edgeMiss s) F.TMB_REF_CNT_misses = counted s F.TMB_REF_CNT_misses ∧ (edgeMiss s).tmb.win = s.tmb.win + 1 ∧ Later missRegs s (edgeMiss s) ∧
    (s.tmb.missRun + 1 < rd s F.TMB_LOCK_CFG_miss_cnt → tmbState (edgeMiss s) = tmbState s ∧ (edgeMiss s).tmb.align = some a) ∧
    (rd s F.TMB_LOCK_CFG_miss_cnt ≤ s.tmb.missRun + 1 →
      rd (edgeMiss s) F.TMB_STATUS_ref_present = 0 ∧
      (tmbState s = tmLOCKED ∨ tmbState s = tmSLEW → tmbState (edgeMiss s) = tmHOLDOVER ∧ (edgeMiss s).tmb.held60 = false ∧
        rd (edgeMiss s) F.TMB_REF_CNT_holdovers = counted s F.TMB_REF_CNT_holdovers ∧
        posted (edgeMiss s) clsInfo blkTMB 0 F.TMB_REF_CNT_holdovers []) ∧
      (tmbState s = tmACQUIRE → tmbState (edgeMiss s) = tmACQUIRE ∧ (edgeMiss s).tmb.align = none ∧ rd (edgeMiss s) F.TMB_FREQ_OFS_ppb = 0 ∧
        posted (edgeMiss s) clsInfo blkTMB 0 F.TMB_REF_CNT_misses []) ∧
      (tmbState s = tmHOLDOVER → tmbState (edgeMiss s) = tmHOLDOVER)) := by
  have hfree : tmbState s ≠ tmFREE := by intro h; rw [h] at hs; exact absurd hs (by decide)
  have halign : (refGone s a).tmb.align = some a := (align_win_refGone s a).1.trans ha
  have hwin : (refGone s a).tmb.win = s.tmb.win + 1 := (align_win_refGone s a).2
  have hstate := tmbState_refGone s a
  have hgone := refPresent_refGone s a
  rw [edgeMiss_eq ha hw ht hfree]
  by_cases hrun : s.tmb.missRun + 1 < rd s F.TMB_LOCK_CFG_miss_cnt
  · rw [if_pos hrun]
    exact ⟨rd_misses_noteMiss s a, hwin, noteMiss_later s a, fun _ => ⟨tmbState_noteMiss s a, ha⟩, fun h => absurd hrun (by omega)⟩
  rw [if_neg hrun]
  by_cases hlock : tmbState s = tmLOCKED ∨ tmbState s = tmSLEW
  · rw [if_pos (by simpa using hlock)]
    obtain ⟨hcount, hmiss, hheld, hpost⟩ := enterHoldover_counts (refGone s a) (by rw [hstate]; exact hlock)
    have hcount' : counted (refGone s a) F.TMB_REF_CNT_holdovers = counted s F.TMB_REF_CNT_holdovers := by
      have hrd : rd (refGone s a) F.TMB_REF_CNT_holdovers = rd s F.TMB_REF_CNT_holdovers := by
        rw [refGone, wrB, rd_wr_other _ _ _ _ (by decide)]
        exact rd_bump_disjoint _ F.TMB_REF_CNT_misses F.TMB_REF_CNT_holdovers (by decide) (by decide)
      rw [counted, hrd, counted]
    refine ⟨hmiss.trans (rd_misses_refGone s a), (align_win_enter _ _).2.trans hwin, (refGone_later s a).trans (enterHoldover_edge _),
      fun h => absurd h hrun, fun _ => ⟨?_, fun _ => ⟨tmbState_tmbEnter _ _ (by decide), hheld, hcount.trans hcount', hpost⟩, fun h => ?_, fun h => ?_⟩⟩
    · rw [rd_status_tmbEnter _ _ F.TMB_STATUS_ref_present rfl (by decide), hgone]
    · rw [h] at hlock; exact absurd hlock (by decide)
    · rw [h] at hlock; exact absurd hlock (by decide)
  rw [if_neg (by simpa using hlock)]
  by_cases hacq : tmbState s = tmACQUIRE
  · rw [if_pos hacq]
    obtain ⟨hnone, hdwin, hofs, hpost⟩ := dropAlign_effect (refGone s a)
    have hkeep : ∀ f : Fld, f.off ≠ F.TMB_FREQ_OFS_ppb.off → rd (dropAlign (refGone s a)) f = rd (refGone s a) f := fun f hf => by
      unfold dropAlign
      rw [rd_info, (setOffset_edge ..).rd f (by simpa using hf)]
      rfl
    refine ⟨(hkeep _ (by decide)).trans (rd_misses_refGone s a), hdwin.trans hwin, (refGone_later s a).trans (dropAlign_edge _),
      fun h => absurd h hrun, fun _ => ⟨(hkeep _ (by decide)).trans hgone, fun h => absurd h hlock,
        fun _ => ⟨(hkeep _ (by decide)).trans (hstate.trans hacq), hnone, hofs, hpost⟩, fun h => ?_⟩⟩
    rw [hacq] at h; exact absurd h (by decide)
  · rw [if_neg hacq]
    exact ⟨rd_misses_refGone s a, hwin, refGone_later s a, fun h => absurd h hrun, fun _ => ⟨hgone, fun h => absurd h hlock, fun h => absurd h hacq,
      fun h => hstate.trans h⟩⟩

/-- After 60 s in HOLDOVER: what HOLDOVER_60S leaves before its alarm. -/
def holdNoted (s : State) : State :=
  info { s with tick := max s.tick (s.tmb.holdAt + 60 * Config.tickHz), tmb.held60 := true } blkTMB 0 F.TMB_HOLD_TIME_ms

theorem holdover60_first (s : State) (h : tmbState s = tmHOLDOVER) (h60 : s.tmb.held60 = false) :
    holdover60 s = alarmSet (holdNoted s) almHOLD60 := by
  unfold holdover60
  rw [if_pos (by simp [h, h60])]
  rfl

theorem holdover60_again (s : State) (h60 : s.tmb.held60 = true) : holdover60 s = s := by
  unfold holdover60
  rw [if_neg (by simp [h60])]

/-- The alarm of 60 s in HOLDOVER is raised once, with an info record (R38). -/
theorem holdover60_effect (s : State) (h : tmbState s = tmHOLDOVER) (h60 : s.tmb.held60 = false) :
    (holdover60 s).tick = max s.tick (s.tmb.holdAt + 60 * Config.tickHz) ∧ bitOf (holdover60 s) F.EVT_ALARM_alarm almHOLD60 = true ∧
    (holdover60 s).tmb.held60 = true ∧ posted (holdover60 s) clsInfo blkTMB 0 F.TMB_HOLD_TIME_ms [] ∧
    regsKept s (holdover60 s) [F.EVT_ALARM_alarm.off] ∧ memKept s (holdover60 s) := by
  have halarm := alarmSet_edge (holdNoted s) almHOLD60
  rw [holdover60_first s h h60]
  refine ⟨halarm.time.tick, bitOf_alarmSet _ _ (by decide), ?_, halarm.posted (posted_info ..), halarm.regs, halarm.time.memKept⟩
  rw [alarmSet_frame]
  rfl

/-- Settles O10: a stray (`genlockEdge_stray`), a missed window by the run it makes (`edgeMiss_effect`), and the alarm of 60 s in HOLDOVER
(`holdover60_effect`). -/
theorem straysMissesAndHoldover : Obligations.StraysMissesAndHoldover := by
  unfold Obligations.StraysMissesAndHoldover
  refine ⟨fun s src a k ts e h hts hlo hhi hs => ?_, fun s a ha hw ht hs => ?_, fun s h => ⟨fun h60 => ?_, fun h60 => ?_⟩⟩
  · exact ⟨_, congrArg Host.Outcome.next (genlockEdge_stray h hts hlo hhi hs), stray_effect s ts⟩
  · obtain ⟨hmiss, hwin, hlater, hshort, hlong⟩ := edgeMiss_effect ha hw ht hs
    exact ⟨edgeMiss s, rfl, hmiss, hwin, hlater.memKept, hlater.regs, hshort, hlong⟩
  · exact ⟨holdover60 s, rfl, holdover60_effect s h h60⟩
  · exact congrArg Host.Outcome.next (holdover60_again s h60)

/-! Snapshots and realignment (R40, R57) -/

/-- The snapshot registers. -/
def snapRegs : List Nat := [F.TMB_SNAP_TICK_LO_tick.off, F.TMB_SNAP_TICK_HI_tick.off, F.TMB_SNAP_PIC_LO_picture.off,
  F.TMB_SNAP_PIC_HI_picture.off, F.TMB_SNAP_PHASE_phase.off]

/-- The tick part of a snapshot. -/
def snapTick (s : State) : State := wr (wr s F.TMB_SNAP_TICK_LO_tick s.tick) F.TMB_SNAP_TICK_HI_tick (s.tick / 2 ^ 32)

/-- The position part: a picture number and a phase. -/
def snapPic (s : State) (n ph : Nat) : State :=
  wr (wr (wr s F.TMB_SNAP_PIC_LO_picture n) F.TMB_SNAP_PIC_HI_picture (n / 2 ^ 32)) F.TMB_SNAP_PHASE_phase ph

theorem tmbSnap_eq (s : State) : tmbSnap s = match s.tmb.pic with
    | some n => snapPic (snapTick s) n (s.tick - s.tmb.bound)
    | none => snapPic { snapTick s with fresh := s.fresh + 2 } (Config.freeNat 4 s.fresh) (Config.freeNat 5 (s.fresh + 1)) := by
  unfold tmbSnap
  cases h : s.tmb.pic <;> simp only [wr_tmb, h] <;> rfl

theorem snapPic_edge (s : State) (n ph : Nat) : Edge snapRegs s (snapPic s n ph) :=
  ((Edge.wr s _ _ (by decide)).trans (.wr _ _ _ (by decide))).trans (.wr _ _ _ (by decide))

theorem snapTick_edge (s : State) : Edge snapRegs s (snapTick s) := (Edge.wr s _ _ (by decide)).trans (.wr _ _ _ (by decide))

theorem snapTick_reads (s : State) :
    rd (snapTick s) F.TMB_SNAP_TICK_LO_tick = s.tick % 2 ^ 32 ∧ rd (snapTick s) F.TMB_SNAP_TICK_HI_tick = s.tick / 2 ^ 32 % 2 ^ 32 :=
  ⟨(rd_wr_other _ _ _ _ (by decide)).trans (rd_wr_same s F.TMB_SNAP_TICK_LO_tick _ (by decide)),
    rd_wr_same _ F.TMB_SNAP_TICK_HI_tick _ (by decide)⟩

theorem snapPic_reads (s : State) (n ph : Nat) :
    rd (snapPic s n ph) F.TMB_SNAP_PIC_LO_picture = n % 2 ^ 32 ∧ rd (snapPic s n ph) F.TMB_SNAP_PIC_HI_picture = n / 2 ^ 32 % 2 ^ 32 ∧
    rd (snapPic s n ph) F.TMB_SNAP_PHASE_phase = ph % 2 ^ 32 :=
  ⟨(rd_wr_other _ _ _ _ (by decide)).trans <| (rd_wr_other _ _ _ _ (by decide)).trans (rd_wr_same s F.TMB_SNAP_PIC_LO_picture _ (by decide)),
    (rd_wr_other _ _ _ _ (by decide)).trans (rd_wr_same _ F.TMB_SNAP_PIC_HI_picture _ (by decide)),
    rd_wr_same _ F.TMB_SNAP_PHASE_phase _ (by decide)⟩

theorem snapPic_keeps_tick (s : State) (n ph : Nat) (f : Fld) (h : f.off ∉ snapRegs.drop 2) : rd (snapPic s n ph) f = rd s f := by
  have hd : snapRegs.drop 2 = [F.TMB_SNAP_PIC_LO_picture.off, F.TMB_SNAP_PIC_HI_picture.off, F.TMB_SNAP_PHASE_phase.off] := rfl
  rw [hd] at h
  simp only [List.mem_cons, List.not_mem_nil, or_false, not_or] at h
  rw [snapPic, rd_wr_other _ _ _ _ h.2.2, rd_wr_other _ _ _ _ h.2.1, rd_wr_other _ _ _ _ h.1]

/-- A snapshot in a running picture period: tick, number and phase of one tick (R57). -/
theorem tmbSnap_running (s : State) (n : Nat) (h : s.tmb.pic = some n) :
    tmbSnap s = snapPic (snapTick s) n (s.tick - s.tmb.bound) := by rw [tmbSnap_eq, h]

/-- Outside the register file and the model's own source of free values, nothing has changed. -/
def SnapOnly (s t : State) : Prop := t = { s with reg := t.reg, fresh := t.fresh }

theorem SnapOnly.trans {s t u : State} (h : SnapOnly s t) (h' : SnapOnly t u) : SnapOnly s u := by
  unfold SnapOnly at h h' ⊢
  exact h'.trans (by rw [h])

/-- With no free value taken, registers only. -/
theorem SnapOnly.regOnly {s t : State} (h : SnapOnly s t) (hf : t.fresh = s.fresh) : RegOnly s t := by
  unfold SnapOnly at h
  exact h.trans (by rw [hf])

theorem SnapOnly.wr (s : State) (f : Fld) (x : Nat) : SnapOnly s (wr s f x) := rfl
theorem SnapOnly.free (s : State) (n : Nat) : SnapOnly s { s with fresh := n } := rfl

theorem snapTick_only (s : State) : SnapOnly s (snapTick s) := (SnapOnly.wr ..).trans (.wr ..)
theorem snapPic_only (s : State) (n ph : Nat) : SnapOnly s (snapPic s n ph) := ((SnapOnly.wr ..).trans (.wr ..)).trans (.wr ..)

/-- A snapshot in a running picture period takes no free value. -/
theorem fresh_snap (s : State) (n ph : Nat) : (snapPic (snapTick s) n ph).fresh = s.fresh := by
  have wr : ∀ (u : State) (f : Fld) (x : Nat), (wr u f x).fresh = u.fresh := fun _ _ _ => rfl
  rw [snapPic, wr, wr, wr, snapTick, wr, wr]

/-- A snapshot writes its registers and may take free values. -/
theorem tmbSnap_effect (s : State) :
    rd (tmbSnap s) F.TMB_SNAP_TICK_LO_tick = s.tick % 2 ^ 32 ∧ rd (tmbSnap s) F.TMB_SNAP_TICK_HI_tick = s.tick / 2 ^ 32 % 2 ^ 32 ∧
    regsKept s (tmbSnap s) snapRegs ∧ SnapOnly s (tmbSnap s) := by
  obtain ⟨hlo, hhi⟩ := snapTick_reads s
  rw [tmbSnap_eq]
  cases s.tmb.pic with
  | some n =>
    exact ⟨(snapPic_keeps_tick _ _ _ _ (by decide)).trans hlo, (snapPic_keeps_tick _ _ _ _ (by decide)).trans hhi,
      ((snapTick_edge s).trans (snapPic_edge _ _ _)).regs, (snapTick_only s).trans (snapPic_only ..)⟩
  | none =>
    have hfree : Edge snapRegs (snapTick s) { snapTick s with fresh := s.fresh + 2 } := .of_time rfl rfl rfl
    exact ⟨(snapPic_keeps_tick _ _ _ _ (by decide)).trans hlo, (snapPic_keeps_tick _ _ _ _ (by decide)).trans hhi,
      ((snapTick_edge s).trans (hfree.trans (snapPic_edge _ _ _))).regs, (snapTick_only s).trans ((SnapOnly.free ..).trans (snapPic_only ..))⟩

/-- A realign while panel outputs run counts as ignored (R40). -/
theorem realign_ignored (s : State) :
    rd (bump s F.TMB_REF_CNT_realign_ign) F.TMB_REF_CNT_realign_ign = counted s F.TMB_REF_CNT_realign_ign ∧
    regsKept s (bump s F.TMB_REF_CNT_realign_ign) [F.TMB_REF_CNT_realign_ign.off] :=
  ⟨rd_bump s _ (by decide), (Edge.bump s _ (by decide)).regs⟩

theorem bump_only (s : State) (f : Fld) : bump s f = { s with reg := (bump s f).reg, now := (bump s f).now } := rfl

/-- A snapshot in a running picture period shows its number and its phase (R57). -/
theorem tmbSnap_position (s : State) (n : Nat) (h : s.tmb.pic = some n) :
    rd (tmbSnap s) F.TMB_SNAP_PIC_LO_picture = n % 2 ^ 32 ∧ rd (tmbSnap s) F.TMB_SNAP_PIC_HI_picture = n / 2 ^ 32 % 2 ^ 32 ∧
    rd (tmbSnap s) F.TMB_SNAP_PHASE_phase = (s.tick - s.tmb.bound) % 2 ^ 32 ∧ RegOnly s (tmbSnap s) := by
  rw [tmbSnap_running s n h]
  obtain ⟨hlo, hhi, hph⟩ := snapPic_reads (snapTick s) n (s.tick - s.tmb.bound)
  exact ⟨hlo, hhi, hph, ((snapTick_only s).trans (snapPic_only ..)).regOnly (fresh_snap ..)⟩

/-- Settles O11: a served snapshot is `tmbSnap`, a served realign one of its two arms. -/
theorem snapshotAndRealign : Obligations.SnapshotAndRealign := by
  unfold Obligations.SnapshotAndRealign
  refine ⟨fun s h => ?_, fun s h => ⟨fun hrun => ?_, fun hrun => ?_⟩⟩
  · obtain ⟨hlo, hhi, hregs, hframe⟩ := tmbSnap_effect s
    exact ⟨tmbSnap s, exec_of_served tmbSnap h rfl, hlo, hhi, fun n hn => tmbSnap_position s n hn, hregs, hframe⟩
  · obtain ⟨hcount, hregs⟩ := realign_ignored s
    have hx : exec .tmbRealign s = .next (tmbRealign s) := exec_of_served tmbRealign h rfl
    rw [tmbRealign, if_pos hrun] at hx
    exact ⟨_, hx, hcount, rdW_bump_same s _, hregs, bump_only s _⟩
  · have hx : exec .tmbRealign s = .next (tmbRealign s) := exec_of_served tmbRealign h rfl
    rw [tmbRealign, if_neg (by simp [hrun])] at hx
    exact hx

end Sys2Proof.Machine
end

section
namespace Sys2Proof.Machine

/-! Camera channels: what their operations change -/

/-- A channel's status register, the one with its counters and the one with its measured width are three registers. -/
theorem camStat_ne_cnt (n : Nat) : (F.EXS_CAM_STAT_state n).off ≠ (F.EXS_CAM_CNT_misses n).off := by
  show 0x3011C + 64 * n ≠ 0x3012C + 64 * n; omega
theorem camWidth_ne_stat (n : Nat) : (F.EXS_CAM_MEAS_WIDTH_ticks n).off ≠ (F.EXS_CAM_STAT_state n).off := by
  show 0x30128 + 64 * n ≠ 0x3011C + 64 * n; omega
theorem camWidth_ne_cnt (n : Nat) : (F.EXS_CAM_MEAS_WIDTH_ticks n).off ≠ (F.EXS_CAM_CNT_escapes n).off := by
  show 0x30128 + 64 * n ≠ 0x3012C + 64 * n; omega

@[simp] theorem cam_setCam (s : State) (n : Nat) (c : Cam) : cam (setCam s n c) n = c := sget_sset_same ..
@[simp] theorem camState_setCam (s : State) (n m : Nat) (c : Cam) : camState (setCam s n c) m = camState s m := rfl
@[simp] theorem reg_setCam (s : State) (n : Nat) (c : Cam) : (setCam s n c).reg = s.reg := rfl
@[simp] theorem cam_wr (s : State) (f : Fld) (x n : Nat) : cam (wr s f x) n = cam s n := rfl
@[simp] theorem cam_wrB (s : State) (f : Fld) (b : Bool) (n : Nat) : cam (wrB s f b) n = cam s n := rfl
@[simp] theorem cam_bump (s : State) (f : Fld) (n : Nat) : cam (bump s f) n = cam s n := rfl
@[simp] theorem cam_info (s : State) (b i : Nat) (f : Fld) (q : List (Nat × Nat)) (n : Nat) : cam (info s b i f q) n = cam s n := rfl

theorem setCam_edge {offs : List Nat} (s : State) (n : Nat) (c : Cam) : Edge offs s (setCam s n c) := .of_time rfl rfl rfl

/-- A read depends on the register file alone. -/
theorem rd_congr {s t : State} (h : t.reg = s.reg) (f : Fld) : rd t f = rd s f := by rw [rd, rdW, h, rd, rdW]

theorem camState_congr {s t : State} (h : t.reg = s.reg) (n : Nat) : camState t n = camState s n := rd_congr h _

theorem camMeasured_congr {s t : State} (h : t.reg = s.reg) (n : Nat) : camMeasured t n = camMeasured s n := by
  unfold camMeasured camActive
  rw [rd_congr h, rd_congr h]

theorem camPeriod_congr {s t : State} (h : t.reg = s.reg) (n : Nat) : camPeriod t n = camPeriod s n := by
  unfold camPeriod camRate picPeriod
  rw [rd_congr h, rd_congr h]

/-- The prediction depends on the registers and on the accepted opens alone. -/
theorem inPredicted_congr {s t : State} (h : t.reg = s.reg) (n ts : Nat) (ho : (cam t n).opens = (cam s n).opens) :
    inPredicted t n ts = inPredicted s n ts := by
  unfold inPredicted predPeriod
  rw [ho, rd_congr h, camPeriod_congr h]

/-! Changes of state (R64) -/

theorem camTo_edge (s : State) (n st : Nat) : Edge [(F.EXS_CAM_STAT_state n).off] s (camTo s n st) := by
  unfold camTo
  split
  · exact .refl _ s
  · exact (Edge.wr s _ st (by simp)).trans (.info ..)

theorem cam_camTo (s : State) (n st m : Nat) : cam (camTo s n st) m = cam s m := by unfold camTo; split <;> rfl

theorem camState_camTo (s : State) (n st : Nat) (h : st < 8) : camState (camTo s n st) n = st := by
  unfold camTo
  split
  · assumption
  · rw [camState, rd_info, rd_wr_same _ _ _ (by show 0 + 3 ≤ 32; decide)]
    exact Nat.mod_eq_of_lt h

/-- A change of state posts a record. -/
theorem posted_camTo (s : State) (n st : Nat) (h : camState s n ≠ st) :
    posted (camTo s n st) clsInfo blkEXS n (F.EXS_CAM_STAT_state n) [] := by
  unfold camTo
  rw [if_neg h]
  exact posted_info ..

/-- Registers and posted records are all that a change of state touches. -/
theorem camTo_frame (s : State) (n st : Nat) :
    camTo s n st = { s with reg := (camTo s n st).reg, evt := { s.evt with posted := (camTo s n st).evt.posted } } := by
  unfold camTo; split <;> rfl

/-! The drift test (R67) and escapes (R68) -/

/-- What the drift test can do. -/
theorem driftCheck_cases (s : State) (n : Nat) : driftCheck s n = s ∨
    driftCheck s n = info (wrB s (F.EXS_CAM_STAT_unlocked n) true) blkEXS n (F.EXS_CAM_STAT_unlocked n) ∨
    driftCheck s n = wrB s (F.EXS_CAM_STAT_unlocked n) false := by
  unfold driftCheck
  generalize rd s (F.EXS_CAM_TRACK_drift_max n) = d, camPeriod s n = tc, predPeriod s n = tm
  dsimp only
  by_cases hd : d * tc < (if tc ≤ tm then tm - tc else tc - tm) * 1000000
  · rw [if_pos hd]
    by_cases hf : on s (F.EXS_CAM_STAT_unlocked n) = true
    · exact .inl (if_pos hf)
    · exact .inr (.inl (if_neg hf))
  · exact .inr (.inr (if_neg hd))

theorem driftCheck_edge (s : State) (n : Nat) : Edge [(F.EXS_CAM_STAT_state n).off] s (driftCheck s n) := by
  have hmem : (F.EXS_CAM_STAT_unlocked n).off ∈ [(F.EXS_CAM_STAT_state n).off] := List.mem_singleton.2 rfl
  rcases driftCheck_cases s n with h | h | h <;> rw [h]
  · exact .refl _ s
  · exact (Edge.wrB s _ true hmem).trans (.info ..)
  · exact .wrB s _ false hmem

theorem cam_driftCheck (s : State) (n m : Nat) : cam (driftCheck s n) m = cam s m := by
  rcases driftCheck_cases s n with h | h | h <;> rw [h]
  · rw [cam_info, cam_wrB]
  · rw [cam_wrB]

/-- The drift flag stands beside the state. -/
theorem camState_driftCheck (s : State) (n : Nat) : camState (driftCheck s n) n = camState s n := by
  have flag : ∀ b, camState (wrB s (F.EXS_CAM_STAT_unlocked n) b) n = camState s n := fun b =>
    rd_wr_disjoint s _ _ _ (by show 3 + 1 ≤ 32; decide) (.inl (by show 0 + 3 ≤ 3; decide))
  rcases driftCheck_cases s n with h | h | h <;> rw [h]
  · rw [camState, rd_info, ← camState, flag]
  · exact flag false

theorem escapeCheck_edge (s : State) (n a b : Nat) : Edge [(F.EXS_CAM_CNT_escapes n).off] s (escapeCheck s n a b) := by
  refine .ite fun _ => ?_
  unfold escape
  refine Edge.trans ?_ (.info ..)
  refine Edge.trans ?_ (.bump _ _ (List.mem_singleton.2 rfl))
  exact .of_time rfl rfl rfl

theorem cam_escape (s : State) (n m : Nat) : cam (escape s n) m = cam s m := by
  unfold escape
  rw [cam_info, cam_bump]
  rfl

theorem cam_escapeCheck (s : State) (n a b m : Nat) : cam (escapeCheck s n a b) m = cam s m := by
  unfold escapeCheck; dsimp only; split
  · exact cam_escape ..
  · rfl

/-! Accepted opens and closes (R65, R66) -/

/-- What an accepted open edge notes. -/
def noteOpen (c : Cam) (ts : Nat) : Cam :=
  { c with opens := ts :: c.opens.take 8, win := 1, missRun := 0, coast := 0, seen := true, pend := some ts, pendAcc := true }

/-- COAST ends with an accepted open. -/
def endCoast (s : State) (n : Nat) : State := if camState s n = cmCOAST then camTo s n cmTRACK else s

theorem openAccepted_eq (s : State) (n ts : Nat) :
    openAccepted s n ts = driftCheck (endCoast (setCam s n (noteOpen (cam s n) ts)) n) n := rfl

theorem endCoast_edge (s : State) (n : Nat) : Edge [(F.EXS_CAM_STAT_state n).off] s (endCoast s n) := .ite fun _ => camTo_edge ..

theorem cam_endCoast (s : State) (n m : Nat) : cam (endCoast s n) m = cam s m := by
  unfold endCoast; split
  · exact cam_camTo ..
  · rfl

theorem camState_endCoast (s : State) (n : Nat) (h : camState s n = cmTRACK ∨ camState s n = cmCOAST) : camState (endCoast s n) n = cmTRACK := by
  unfold endCoast; split
  · exact camState_camTo s n cmTRACK (by decide)
  · next hc => exact h.resolve_right hc

/-- An accepted open edge becomes the newest one and ends COAST (R65, R66). -/
theorem openAccepted_effect (s : State) (n ts : Nat) (h : camState s n = cmTRACK ∨ camState s n = cmCOAST) :
    camState (openAccepted s n ts) n = cmTRACK ∧ cam (openAccepted s n ts) n = noteOpen (cam s n) ts ∧
    Edge [(F.EXS_CAM_STAT_state n).off] s (openAccepted s n ts) := by
  rw [openAccepted_eq, camState_driftCheck, camState_endCoast _ _ (by rwa [camState_setCam]), cam_driftCheck, cam_endCoast, cam_setCam]
  exact ⟨rfl, rfl, (setCam_edge ..).trans ((endCoast_edge ..).trans (driftCheck_edge ..))⟩

/-- An open edge in its predicted window is accepted (R65). -/
theorem openEdge_predicted (s : State) (n ts : Nat) (hm : camMeasured s n = true) (h : camState s n = cmTRACK ∨ camState s n = cmCOAST)
    (hp : inPredicted s n ts = true) : openEdge s n ts = openAccepted s n ts := by
  unfold openEdge
  dsimp only
  rw [hm, if_neg (by decide), if_neg, if_neg, if_pos hp]
  · rcases h with h | h <;> rw [h] <;> decide
  · rcases h with h | h <;> rw [h] <;> decide

/-- The measured width of the last accepted open edge. -/
def measWidth (s : State) (n ts o : Nat) : State := wr s (F.EXS_CAM_MEAS_WIDTH_ticks n) (ts - o)

/-- TRACK is entered from ACQUIRE after the run of good edges. -/
def enterTrack (s : State) (n run : Nat) : State :=
  if camMeasured s n && camState s n = cmACQUIRE && rd s (F.EXS_CAM_CFG_acq_cnt n) ≤ run then
    driftCheck (camTo (setCam s n { cam s n with win := 1, missRun := 0, coast := 0 }) n cmTRACK) n
  else s

theorem closeEdge_eq (s : State) (n ts o : Nat) (hm : camMeasured s n = true) (hp : (cam s n).pend = some o) (ha : (cam s n).pendAcc = true) :
    closeEdge s n ts = enterTrack (escapeCheck (measWidth (setCam s n { cam s n with pend := none, closed := true }) n ts o) n o ts) n (cam s n).run := by
  have hm' : camMeasured (setCam s n { cam s n with pend := none, closed := true }) n = true := (camMeasured_congr (reg_setCam ..) n).trans hm
  unfold closeEdge
  dsimp only
  rw [hp]
  dsimp only
  rw [hm', ha, Bool.and_self, if_pos rfl]
  rfl

theorem enterTrack_edge (s : State) (n run : Nat) : Edge [(F.EXS_CAM_STAT_state n).off] s (enterTrack s n run) :=
  .ite fun _ => (setCam_edge ..).trans ((camTo_edge ..).trans (driftCheck_edge ..))

theorem pend_enterTrack (s : State) (n run : Nat) : (cam (enterTrack s n run) n).pend = (cam s n).pend := by
  unfold enterTrack
  split
  · rw [cam_driftCheck, cam_camTo, cam_setCam]
  · rfl

/-- A close edge after an accepted open sets the measured width (R66). -/
theorem closeEdge_effect (s : State) (n ts o : Nat) (hm : camMeasured s n = true) (hp : (cam s n).pend = some o) (ha : (cam s n).pendAcc = true) :
    rd (closeEdge s n ts) (F.EXS_CAM_MEAS_WIDTH_ticks n) = (ts - o) % 2 ^ 32 ∧ (cam (closeEdge s n ts) n).pend = none ∧
    Edge [(F.EXS_CAM_MEAS_WIDTH_ticks n).off, (F.EXS_CAM_STAT_state n).off, (F.EXS_CAM_CNT_escapes n).off] s (closeEdge s n ts) := by
  rw [closeEdge_eq s n ts o hm hp ha]
  refine ⟨?_, ?_, ?_⟩
  · rw [(enterTrack_edge ..).rd _ (by simpa using camWidth_ne_stat n), (escapeCheck_edge ..).rd _ (by simpa using camWidth_ne_cnt n)]
    exact rd_wr_same _ (F.EXS_CAM_MEAS_WIDTH_ticks n) _ (by show 0 + 32 ≤ 32; decide)
  · rw [pend_enterTrack, cam_escapeCheck, measWidth, cam_wr, cam_setCam]
  · exact (setCam_edge ..).trans <| (Edge.wr _ _ _ (by simp)).trans <| ((escapeCheck_edge ..).mono (by simp)).trans
      ((enterTrack_edge ..).mono (by simp))

/-! Edges of SHUT_IN (R63) -/

/-- The input shows the edge's level. -/
def noteLevel (s : State) (n : Nat) (l : Bool) : State := setCam s n { cam s n with level := l }

/-- The state in which a channel handles an edge that is not the reference's. -/
def atEdge (s : State) (n : Nat) (l : Bool) (ts : Nat) : State := freezeCam (noteLevel (reach s (ts + syncLat)) n l) n ts

theorem shutIsRef_congr {s t : State} (h : t.reg = s.reg) (n : Nat) (l : Bool) : shutIsRef t n l = shutIsRef s n l := by
  unfold shutIsRef refSrc on
  simp only [rd_congr h]

theorem freezeCam_frame (s : State) (n ts : Nat) : freezeCam s n ts = { s with exs.frozen := (freezeCam s n ts).exs.frozen } := by
  unfold freezeCam
  split
  · split <;> rfl
  · rfl

theorem atEdge_frame (s : State) (n : Nat) (l : Bool) (ts : Nat) :
    (atEdge s n l ts).reg = s.reg ∧ (atEdge s n l ts).tick = max s.tick (ts + 6) ∧ cam (atEdge s n l ts) n = { cam s n with level := l } ∧
    memKept s (atEdge s n l ts) := by
  unfold atEdge
  rw [freezeCam_frame]
  exact ⟨rfl, rfl, cam_setCam .., rfl, rfl, rfl, rfl, rfl, rfl⟩

/-- An edge of the reference goes to the time base too (R27). -/
def tellTimeBase (s : State) (n : Nat) (l : Bool) (ts : Nat) : State :=
  if shutIsRef s n l && (tmbState s != tmFREE || s.tmb.wide) then refEdge s ts else s

/-- What the channel makes of its edge. -/
def channelEdge (s : State) (n : Nat) (l : Bool) (ts : Nat) : State :=
  if !camActive s n then setCam s n { cam s n with pend := none }
  else if l != on s (F.EXS_CAM_CFG_pol n) then openEdge s n ts
  else closeEdge s n ts

theorem shutInEdge_steps (s : State) (n : Nat) (l : Bool) (ts : Nat) : shutInEdge s n l ts =
    if l = (cam (reach s (ts + syncLat)) n).level then reach s (ts + syncLat)
    else channelEdge (freezeCam (tellTimeBase (noteLevel (reach s (ts + syncLat)) n l) n l ts) n ts) n l ts := rfl

/-- An edge of a measured channel whose input is not the reference. -/
theorem shutInEdge_eq (s : State) (n : Nat) (l : Bool) (ts : Nat) (hl : (cam s n).level ≠ l) (hr : shutIsRef s n l = false)
    (hm : camMeasured s n = true) : shutInEdge s n l ts =
      if l != on s (F.EXS_CAM_CFG_pol n) then openEdge (atEdge s n l ts) n ts else closeEdge (atEdge s n l ts) n ts := by
  have href : shutIsRef (noteLevel (reach s (ts + syncLat)) n l) n l = false := (shutIsRef_congr rfl n l).trans hr
  have htell : tellTimeBase (noteLevel (reach s (ts + syncLat)) n l) n l ts = noteLevel (reach s (ts + syncLat)) n l :=
    if_neg (by simp [href])
  have hreg := (atEdge_frame s n l ts).1
  have hact : camActive (atEdge s n l ts) n = true := (Bool.and_eq_true_iff.1 ((camMeasured_congr hreg n).trans hm)).1
  have hpol : on (atEdge s n l ts) (F.EXS_CAM_CFG_pol n) = on s (F.EXS_CAM_CFG_pol n) := by rw [on, rd_congr hreg, on]
  rw [shutInEdge_steps, if_neg (fun h => hl h.symm), htell, ← atEdge, channelEdge, hact, hpol, if_neg (by decide)]

theorem rdW_congr {s t : State} (h : t.reg = s.reg) (o : Nat) : rdW t o = rdW s o := by rw [rdW, h, rdW]

/-- A step of the clock and the input's level, then a change as above. -/
theorem Edge.after_atEdge {offs : List Nat} {s t : State} {n : Nat} {l : Bool} {ts : Nat} (h : Edge offs (atEdge s n l ts) t) :
    t.tick = max s.tick (ts + 6) ∧ regsKept s t offs ∧ memKept s t := by
  obtain ⟨hreg, htick, -, hmem⟩ := atEdge_frame s n l ts
  refine ⟨h.time.tick.trans htick, fun o ho => (h.regs o ho).trans (rdW_congr hreg o), ?_⟩
  obtain ⟨h1, h2, h3, h4, h5, h6⟩ := h.time.memKept
  obtain ⟨g1, g2, g3, g4, g5, g6⟩ := hmem
  exact ⟨h1.trans g1, h2.trans g2, h3.trans g3, h4.trans g4, h5.trans g5, h6.trans g6⟩

/-- An edge at a level that the input has already only lets time pass. -/
theorem shutInEdge_sameLevel (s : State) (n : Nat) (l : Bool) (ts : Nat) (h : (cam s n).level = l) :
    shutInEdge s n l ts = reach s (ts + syncLat) := if_pos h.symm

/-- An open edge of a tracked channel inside its predicted window (R65). -/
theorem shutInEdge_open (s : State) (n : Nat) (l : Bool) (ts : Nat) (hl : (cam s n).level ≠ l) (hr : shutIsRef s n l = false)
    (hm : camMeasured s n = true) (hpol : l ≠ on s (F.EXS_CAM_CFG_pol n)) (hst : camState s n = cmTRACK ∨ camState s n = cmCOAST)
    (hp : inPredicted s n ts = true) : shutInEdge s n l ts = openAccepted (atEdge s n l ts) n ts := by
  obtain ⟨hreg, -, hcam, -⟩ := atEdge_frame s n l ts
  rw [shutInEdge_eq s n l ts hl hr hm, if_pos (by simpa using hpol)]
  refine openEdge_predicted _ _ _ ((camMeasured_congr hreg n).trans hm) ?_ ((inPredicted_congr hreg n ts ?_).trans hp)
  · rw [camState_congr hreg]; exact hst
  · rw [hcam]

/-- A close edge of a measured channel (R66). -/
theorem shutInEdge_close (s : State) (n : Nat) (l : Bool) (ts : Nat) (hl : (cam s n).level ≠ l) (hr : shutIsRef s n l = false)
    (hm : camMeasured s n = true) (hpol : l = on s (F.EXS_CAM_CFG_pol n)) : shutInEdge s n l ts = closeEdge (atEdge s n l ts) n ts := by
  rw [shutInEdge_eq s n l ts hl hr hm, if_neg (by simp [hpol])]

/-! Misses and the end of COAST (R64, R65) -/

/-- The next window has ended and its miss is counted. -/
def noteOpenMiss (s : State) (n t : Nat) : State :=
  bump (setCam (reach s (t + (cam s n).win * predPeriod s n + rd s (F.EXS_CAM_TRACK_acc_win n) + syncLat)) n
    { cam s n with win := (cam s n).win + 1, missRun := (cam s n).missRun + 1 }) (F.EXS_CAM_CNT_misses n)

theorem cameraOpenMiss_eq (s : State) (n t : Nat) (r : List Nat) (ho : (cam s n).opens = t :: r)
    (h : camState s n = cmTRACK ∨ camState s n = cmCOAST) : cameraOpenMiss s n =
      if camState s n = cmTRACK && rd s (F.EXS_CAM_CFG_miss_max n) ≤ (cam s n).missRun + 1 then
        camTo (setCam (noteOpenMiss s n t) n { cam (noteOpenMiss s n t) n with coast := 0 }) n cmCOAST
      else noteOpenMiss s n t := by
  have hmax : rd (noteOpenMiss s n t) (F.EXS_CAM_CFG_miss_max n) = rd s (F.EXS_CAM_CFG_miss_max n) :=
    rd_bump_other _ _ _ (by show 0x30100 + 64 * n ≠ 0x3012C + 64 * n; omega)
  have hgo : ¬((camState s n != cmTRACK && camState s n != cmCOAST) = true) := by rcases h with h | h <;> rw [h] <;> decide
  unfold cameraOpenMiss
  rw [ho]
  dsimp only
  rw [if_neg hgo, ← hmax]
  rfl

theorem noteOpenMiss_later (s : State) (n t : Nat) : Later [(F.EXS_CAM_CNT_misses n).off, (F.EXS_CAM_STAT_state n).off] s (noteOpenMiss s n t) := by
  have hr : Later [(F.EXS_CAM_CNT_misses n).off, (F.EXS_CAM_STAT_state n).off] s
      (reach s (t + (cam s n).win * predPeriod s n + rd s (F.EXS_CAM_TRACK_acc_win n) + syncLat)) := Edge.refl ..
  exact (hr.trans (setCam_edge ..)).trans (.bump _ _ (by simp))

theorem camState_noteOpenMiss (s : State) (n t : Nat) : camState (noteOpenMiss s n t) n = camState s n :=
  rd_bump_other _ _ _ (camStat_ne_cnt n)

theorem missRun_noteOpenMiss (s : State) (n t : Nat) : (cam (noteOpenMiss s n t) n).missRun = (cam s n).missRun + 1 := by
  rw [noteOpenMiss, cam_bump, cam_setCam]

theorem misses_noteOpenMiss (s : State) (n t : Nat) :
    rd (noteOpenMiss s n t) (F.EXS_CAM_CNT_misses n) = counted s (F.EXS_CAM_CNT_misses n) :=
  rd_bump _ (F.EXS_CAM_CNT_misses n) (by show 16 + 8 ≤ 32; decide)

/-- A missed window of a tracked channel; the run that reaches its limit leads from TRACK to COAST. -/
theorem cameraOpenMiss_effect (s : State) (n : Nat) (h : camState s n = cmTRACK ∨ camState s n = cmCOAST) (ho : (cam s n).opens ≠ []) :
    rd (cameraOpenMiss s n) (F.EXS_CAM_CNT_misses n) = counted s (F.EXS_CAM_CNT_misses n) ∧
    (cam (cameraOpenMiss s n) n).missRun = (cam s n).missRun + 1 ∧
    (if camState s n = cmTRACK ∧ rd s (F.EXS_CAM_CFG_miss_max n) ≤ (cam s n).missRun + 1 then
      camState (cameraOpenMiss s n) n = cmCOAST ∧ posted (cameraOpenMiss s n) clsInfo blkEXS n (F.EXS_CAM_STAT_state n) []
     else camState (cameraOpenMiss s n) n = camState s n) ∧
    Later [(F.EXS_CAM_CNT_misses n).off, (F.EXS_CAM_STAT_state n).off] s (cameraOpenMiss s n) := by
  obtain ⟨t, r, hopens⟩ := List.exists_cons_of_ne_nil ho
  rw [cameraOpenMiss_eq s n t r hopens h]
  by_cases hc : camState s n = cmTRACK ∧ rd s (F.EXS_CAM_CFG_miss_max n) ≤ (cam s n).missRun + 1
  · rw [if_pos hc, if_pos (by simpa using hc)]
    refine ⟨?_, ?_, ⟨camState_camTo _ _ _ (by decide), posted_camTo _ _ _ ?_⟩, ?_⟩
    · rw [(camTo_edge ..).rd _ (by simpa using (camStat_ne_cnt n).symm), ← misses_noteOpenMiss s n t]
      rfl
    · rw [cam_camTo, cam_setCam, missRun_noteOpenMiss]
    · rw [camState_setCam, camState_noteOpenMiss, hc.1]; decide
    · exact ((noteOpenMiss_later ..).trans (setCam_edge ..)).trans ((camTo_edge ..).mono (by simp))
  · rw [if_neg hc, if_neg (by simpa using hc)]
    exact ⟨misses_noteOpenMiss .., missRun_noteOpenMiss .., camState_noteOpenMiss .., noteOpenMiss_later ..⟩

/-- COAST ends in LOST (R64). -/
theorem cameraCoastExpiry_eq (s : State) (n : Nat) (h : camState s n = cmCOAST) (hc : rd s (F.EXS_CAM_CFG_coast_max n) ≤ (cam s n).coast) :
    cameraCoastExpiry s n = camTo s n cmLOST := if_pos (by simp [h, hc])

/-- Settles O15, an event of the channel at a time. -/
theorem cameraEdgesDriveTheChannel : Obligations.CameraEdgesDriveTheChannel := by
  unfold Obligations.CameraEdgesDriveTheChannel
  refine ⟨fun s n l ts h => congrArg Host.Outcome.next (shutInEdge_sameLevel s n l ts h), fun s n l ts hl hr hm hpol hst hp => ?_,
    fun s n l ts o hl hr hm hpol hpend hacc => ?_, fun s n h ho => ?_, fun s n h hc => ?_⟩
  · obtain ⟨hreg, -, hcam, -⟩ := atEdge_frame s n l ts
    obtain ⟨hstate, hnote, hedge⟩ := openAccepted_effect (atEdge s n l ts) n ts (by rw [camState_congr hreg]; exact hst)
    obtain ⟨htick, hregs, hmem⟩ := hedge.after_atEdge
    refine ⟨_, congrArg Host.Outcome.next (shutInEdge_open s n l ts hl hr hm hpol hst hp), htick, hstate, ?_⟩
    rw [hnote, hcam]
    exact ⟨rfl, rfl, rfl, rfl, hregs, hmem⟩
  · obtain ⟨hreg, -, hcam, -⟩ := atEdge_frame s n l ts
    obtain ⟨hwidth, hnone, hedge⟩ := closeEdge_effect (atEdge s n l ts) n ts o ((camMeasured_congr hreg n).trans hm) (by rw [hcam]; exact hpend)
      (by rw [hcam]; exact hacc)
    obtain ⟨-, hregs, hmem⟩ := hedge.after_atEdge
    exact ⟨_, congrArg Host.Outcome.next (shutInEdge_close s n l ts hl hr hm hpol), hwidth, hnone, hmem, hregs⟩
  · obtain ⟨hcount, hrun, hstate, hlater⟩ := cameraOpenMiss_effect s n h ho
    exact ⟨_, rfl, hcount, hrun, hstate, hlater.regs, hlater.memKept⟩
  · refine ⟨_, congrArg Host.Outcome.next (cameraCoastExpiry_eq s n h hc), camState_camTo s n cmLOST (by decide), posted_camTo s n _ ?_,
      (camTo_edge ..).regs, camTo_frame ..⟩
    rw [h]; decide

end Sys2Proof.Machine
end

section
namespace Sys2Proof.Machine

/-! Sorting and numbering (R85) -/

theorem mem_sortInsert {α : Type} (le : α → α → Bool) (x a : α) (l : List α) : a ∈ sortInsert le x l ↔ a = x ∨ a ∈ l := by
  induction l with
  | nil => simp [sortInsert]
  | cons y ys ih =>
    unfold sortInsert
    split
    · simp
    · simp [ih, or_left_comm]

/-- Insertion keeps a list in the order of a key. -/
theorem pairwise_sortInsert {α : Type} (key : α → Nat) (x : α) (l : List α) (h : l.Pairwise (fun p q => key p ≤ key q)) :
    (sortInsert (fun a b => decide (key a ≤ key b)) x l).Pairwise (fun p q => key p ≤ key q) := by
  induction l with
  | nil => simp [sortInsert]
  | cons y ys ih =>
    obtain ⟨hy, hys⟩ := List.pairwise_cons.1 h
    unfold sortInsert
    split
    · next hxy =>
      have hxy : key x ≤ key y := by simpa using hxy
      refine List.pairwise_cons.2 ⟨fun z hz => ?_, h⟩
      rcases List.mem_cons.1 hz with rfl | hz
      · exact hxy
      · exact hxy.trans (hy z hz)
    · next hxy =>
      have hyx : key y ≤ key x := by simp at hxy; omega
      refine List.pairwise_cons.2 ⟨fun z hz => ?_, ih hys⟩
      rcases (mem_sortInsert _ _ _ _).1 hz with rfl | hz
      · exact hyx
      · exact hy z hz

theorem pairwise_sortBy {α : Type} (key : α → Nat) (l : List α) :
    (sortBy l (fun a b => decide (key a ≤ key b))).Pairwise (fun p q => key p ≤ key q) := by
  induction l with
  | nil => exact List.Pairwise.nil
  | cons x l ih => exact pairwise_sortInsert key x _ ih

/-- Passes numbered for a picture period: in the order of their scan starts, each with its place and the period's number. -/
theorem numberPasses_numbered (pic : Nat) (ps : List Pass) :
    (numberPasses pic ps).map (fun p => p.ordinal) = List.range (numberPasses pic ps).length ∧ (∀ p ∈ numberPasses pic ps, p.pic = pic) ∧
    (numberPasses pic ps).Pairwise (fun p q => p.start ≤ q.start) := by
  unfold numberPasses
  dsimp only
  generalize hl : sortBy ps (fun a b => decide (a.start ≤ b.start)) = l
  refine ⟨?_, fun p hp => ?_, ?_⟩
  · rw [List.map_map, List.length_map, List.length_zip, List.length_range, Nat.min_self]
    exact List.map_snd_zip (by simp)
  · obtain ⟨e, -, rfl⟩ := List.mem_map.1 hp
    rfl
  · have hfst : ((l.zip (List.range l.length)).map Prod.fst).Pairwise (fun p q => p.start ≤ q.start) := by
      rw [List.map_fst_zip (by simp), ← hl]
      exact pairwise_sortBy (fun p : Pass => p.start) ps
    rw [List.pairwise_map] at hfst ⊢
    exact hfst

/-! What a build leaves of the calendar in effect -/

/-- The active bank serves its own boundary still, and the next picture period's number stands. -/
def BankKept (s t : State) : Prop :=
  t.exs.bank.map (fun x => x.at_) = s.exs.bank.map (fun x => x.at_) ∧ t.tmb.picNext = s.tmb.picNext

namespace BankKept

variable {s t u : State}

theorem refl (s : State) : BankKept s s := ⟨rfl, rfl⟩
theorem trans (h : BankKept s t) (h' : BankKept t u) : BankKept s u := ⟨h'.1.trans h.1, h'.2.trans h.2⟩
theorem of_eq (h : t.exs = s.exs) (h' : t.tmb = s.tmb) : BankKept s t := ⟨by rw [h], by rw [h']⟩

theorem wr (s : State) (f : Fld) (x : Nat) : BankKept s (wr s f x) := of_eq rfl rfl
theorem bump (s : State) (f : Fld) : BankKept s (bump s f) := of_eq rfl rfl
theorem info (s : State) (b i : Nat) (f : Fld) (q : List (Nat × Nat)) : BankKept s (info s b i f q) := of_eq rfl rfl
theorem warning (s : State) (b i : Nat) (f : Fld) (q : List (Nat × Nat)) : BankKept s (warning s b i f q) := of_eq rfl rfl
theorem setCam (s : State) (n : Nat) (c : Cam) : BankKept s (setCam s n c) := ⟨rfl, rfl⟩

theorem foldl {α : Type} {f : State → α → State} (h : ∀ u a, BankKept u (f u a)) (l : List α) (s : State) : BankKept s (l.foldl f s) := by
  induction l generalizing s with
  | nil => exact refl s
  | cons a l ih => exact (h s a).trans (ih _)

/-- A fold that also gathers something. -/
theorem foldl_snd {α β : Type} {f : β × State → α → β × State} (h : ∀ r a, BankKept r.2 (f r a).2) (l : List α) (r : β × State) :
    BankKept r.2 (l.foldl f r).2 := by
  induction l generalizing r with
  | nil => exact refl _
  | cons a l ih => exact (h r a).trans (ih _)

end BankKept

/-! Emission pulses (R317, R318) -/

/-- The pulses carried. -/
def setPulses (s : State) (l : List EmPulse) : State := { s with drv.pulses := l }

/-- A dropped pulse is counted, with a warning record. -/
def dropWarned (s : State) : State := warning (bump s F.DRV_CNT_EMDROP_passes) blkDRV 0 F.DRV_CNT_EMDROP_passes

theorem refreshPulses_cases (s : State) (p : Pass) :
    ∃ l, refreshPulses s p = setPulses s l ∨ refreshPulses s p = dropWarned (setPulses s l) := by
  unfold refreshPulses
  dsimp only
  split
  · exact ⟨_, .inr rfl⟩
  · exact ⟨_, .inl rfl⟩

theorem carryPass_cases (c s : State) (p : Pass) :
    ∃ l, carryPass c s p = setPulses s l ∨ carryPass c s p = dropWarned (setPulses s l) := by
  unfold carryPass
  split
  · exact ⟨s.drv.pulses, .inl rfl⟩
  · dsimp only
    split
    · exact ⟨_, .inr rfl⟩
    · exact ⟨_, .inl rfl⟩

theorem setPulses_bank (s : State) (l : List EmPulse) : BankKept s (setPulses s l) := .of_eq rfl rfl
theorem dropWarned_bank (s : State) : BankKept s (dropWarned s) := (BankKept.bump ..).trans (.warning ..)

theorem refreshPulses_bank (s : State) (p : Pass) : BankKept s (refreshPulses s p) := by
  obtain ⟨l, h | h⟩ := refreshPulses_cases s p <;> rw [h]
  · exact setPulses_bank ..
  · exact (setPulses_bank ..).trans (dropWarned_bank _)

theorem carryPass_bank (c s : State) (p : Pass) : BankKept s (carryPass c s p) := by
  obtain ⟨l, h | h⟩ := carryPass_cases c s p <;> rw [h]
  · exact setPulses_bank ..
  · exact (setPulses_bank ..).trans (dropWarned_bank _)

/-- Earlier passes change their emission, not their bank. -/
theorem carryOld_bank (s : State) (k : BuildCfg) (th : Nat) (new : List Pass) : BankKept s (carryOld s k th new) := by
  unfold carryOld
  dsimp only
  refine BankKept.trans ?_ (BankKept.foldl (fun u p => ?_) _ _)
  · refine ⟨?_, rfl⟩
    show (s.exs.bank.map _).map _ = _
    rw [Option.map_map]
    rfl
  · split
    · exact refreshPulses_bank ..
    · exact .refl _

/-! Dark windows and the bank's place in the calendar (R84, R95) -/

theorem drizzleOffer_bank (s : State) (w : DarkWin) (d : Nat) : BankKept s (drizzleOffer s w d).2 := by
  unfold drizzleOffer
  extract_lets setup rt tok n slots rows
  clear_value n
  split
  · exact .bump ..
  · refine BankKept.trans ?_ (.bump ..)
    refine BankKept.trans ?_ (.wr ..)
    exact .of_eq rfl rfl

theorem offerDark_bank (c : State) (k : BuildCfg) (ps : List Pass) (ex : List CamWin) (s : State) : BankKept s (offerDark c k ps ex s).2 := by
  unfold offerDark
  dsimp only
  refine BankKept.foldl_snd (fun r t => ?_) _ ([], s)
  exact (BankKept.bump ..).trans (drizzleOffer_bank ..)

/-- A bank placed from state `s`: its passes are numbered for the next picture period. -/
def PlacedFrom (s : State) (x : Placed) : Prop := (∃ l, x.passes = numberPasses s.tmb.picNext l) ∧ BankKept s x.st

theorem placeBank_placed (c s : State) (k : BuildCfg) (cams house : List Pass) (ex : List CamWin) :
    PlacedFrom s (placeBank c s k cams house ex) := by
  refine ⟨⟨_, rfl⟩, ?_⟩
  refine BankKept.trans ?_ (offerDark_bank ..)
  refine BankKept.trans ?_ (BankKept.foldl (carryPass_bank c) _ _)
  exact (carryOld_bank ..).trans (setPulses_bank ..)

theorem fitHouse_placed (c s : State) (k : BuildCfg) (cams : List Pass) (ex : List CamWin) (sub : Nat × Nat) (m : Nat) (x : Placed × Nat)
    (h : fitHouse c s k cams ex sub m = some x) : PlacedFrom s x.1 := by
  induction m with
  | zero =>
    simp only [fitHouse] at h
    split at h
    · cases h; exact placeBank_placed ..
    · cases h
  | succ m ih =>
    simp only [fitHouse] at h
    split at h
    · cases h; exact placeBank_placed ..
    · exact ih h

theorem fitPasses_placed (c s : State) (k : BuildCfg) (ex : List CamWin) (sub : Nat × Nat) (fuel : Nat) (cams : List (Pass × List RowLoss)) :
    PlacedFrom s (fitPasses c s k ex sub fuel cams).2.1 := by
  induction fuel generalizing cams with
  | zero => exact placeBank_placed ..
  | succ fuel ih =>
    simp only [fitPasses]
    split
    · next x n h =>
      split at h
      · cases h
      · exact fitHouse_placed _ _ _ _ _ _ _ _ h
    · split
      · exact ih _
      · exact placeBank_placed ..

/-! The build (R82) -/

theorem reservedCams_bank (c s : State) : BankKept s (reservedCams c s) :=
  BankKept.foldl (fun u n => by split; exacts [.warning .., .refl u]) _ s

theorem measRegs_bank (c : State) (b : Nat) (s : State) (n : Nat) : BankKept s (measRegs c b s n) := by
  unfold measRegs
  dsimp only
  split
  · exact .refl s
  · split
    · split
      · exact .wr ..
      · exact (BankKept.wr ..).trans (.wr ..)
    · exact .wr ..

theorem addGuards_bank (s : State) (ws : List CamWin) : BankKept s (addGuards s ws) := BankKept.foldl (fun _ _ => .setCam ..) ws s

theorem queueSense_bank (s : State) (q : Nat) (slots : List SenseSlot) : BankKept s (queueSense s q slots) := .of_eq rfl rfl

/-- The state in which the bank for b is built: its build point's view of the cameras, with their warnings and measured periods. -/
def buildStart (s : State) (b : Nat) : State :=
  (List.range 4).foldl (measRegs (frozenCams (buildCfg s b)) b)
    (reservedCams (frozenCams (buildCfg s b)) { s with exs := { s.exs with frozen := [], frozenSub := none } })

theorem buildStart_bank (s : State) (b : Nat) : BankKept s (buildStart s b) := by
  refine BankKept.trans ?_ (BankKept.foldl (fun u n => measRegs_bank _ _ u n) _ _)
  refine BankKept.trans ?_ (reservedCams_bank _ _)
  exact ⟨rfl, rfl⟩

/-- A build fills the next bank for its boundary, with numbered passes. -/
def BuiltFor (s : State) (b : Nat) (t : State) : Prop :=
  ∃ n, t.exs.next = some n ∧ n.at_ = b ∧ (∃ l, n.passes = numberPasses s.tmb.picNext l) ∧ BankKept s t

theorem BuiltFor.ite {s t u : State} {b : Nat} {c : Prop} [Decidable c] (h : BuiltFor s b t) (h' : BuiltFor s b u) :
    BuiltFor s b (if c then t else u) := by
  split
  · exact h
  · exact h'

theorem buildBank_built (s : State) (b : Nat) : BuiltFor s b (buildBank s b) := by
  have hstart := buildStart_bank s b
  unfold buildBank
  extract_lets c k sub x s1 s2 x2 cb f kept s3 s4 oldest
  have hs2 : s2 = buildStart s b := rfl
  clear_value s2
  subst hs2
  refine .ite ?_ ?_
  · exact ⟨_, rfl, rfl, ⟨[], rfl⟩, hstart⟩
  · have hf : PlacedFrom (buildStart s b) f.2.1 := fitPasses_placed ..
    obtain ⟨⟨l, hl⟩, hst⟩ := hf
    have hs3 : BankKept (buildStart s b) s3 := hst.trans (BankKept.foldl (fun _ _ => .info ..) _ _)
    have hs4 : BankKept (buildStart s b) s4 := hs3.trans ((queueSense_bank s3 (q0 c) f.2.1.slots).trans (addGuards_bank _ _))
    have hkept := hstart.trans hs4
    rw [hstart.2] at hl
    clear_value s4 f kept cb
    exact ⟨_, rfl, rfl, ⟨l, hl⟩, hkept⟩

theorem bankBuild_unbuilt (s : State) (b : Nat) (h : s.tmb.next = some b) (hn : ∀ n, s.exs.next = some n → n.at_ ≠ b) :
    bankBuild s = buildBank (reach s (b - rd s F.EXS_BUILD_lead + syncLat)) b := by
  unfold bankBuild
  rw [h]
  dsimp only
  rw [if_neg]
  split
  · next n hs => simpa using hn n hs
  · decide

theorem bankBuild_built (s : State) (b : Nat) (n : Bank) (h : s.tmb.next = some b) (hn : s.exs.next = some n) (hb : n.at_ = b) :
    bankBuild s = s := by
  unfold bankBuild
  rw [h, hn]
  exact if_pos (by simpa using hb)

/-- Settles O14, by `buildBank_built`: whichever passes the build keeps, it numbers them. -/
theorem bankBuildFillsTheNextBank : Obligations.BankBuildFillsTheNextBank := by
  unfold Obligations.BankBuildFillsTheNextBank
  refine ⟨fun s b h hn => ?_, fun s b n h hn hb => congrArg Host.Outcome.next (bankBuild_built s b n h hn hb)⟩
  obtain ⟨n, hnext, hat, ⟨l, hl⟩, hbank, -⟩ := buildBank_built (reach s (b - rd s F.EXS_BUILD_lead + syncLat)) b
  obtain ⟨hord, hpic, hpair⟩ := numberPasses_numbered s.tmb.picNext l
  have hl : n.passes = numberPasses s.tmb.picNext l := hl
  exact ⟨_, n, congrArg Host.Outcome.next (bankBuild_unbuilt s b h hn), hnext, hat, by rw [hl]; exact hord, by rw [hl]; exact hpic,
    by rw [hl]; exact hpair, hbank⟩

end Sys2Proof.Machine
end

section
namespace Sys2Proof.Machine

/-! Little-endian bytes -/

theorem length_leBytes (n k : Nat) : (leBytes n k).length = k := by
  induction k generalizing n with
  | zero => rfl
  | succ k ih => rw [leBytes, List.length_cons, ih]

/-- The low `k` bytes of a number depend on its low `8 k` bits. -/
theorem leBytes_mod (n k : Nat) : leBytes (n % 256 ^ k) k = leBytes n k := by
  induction k generalizing n with
  | zero => rfl
  | succ k ih =>
    have hhead : BitVec.ofNat 8 (n % 256 ^ (k + 1)) = BitVec.ofNat 8 n := by
      apply BitVec.eq_of_toNat_eq
      rw [BitVec.toNat_ofNat, BitVec.toNat_ofNat]
      exact Nat.mod_mod_of_dvd _ (dvd_pow_self 256 (Nat.succ_ne_zero k))
    have htail : n % 256 ^ (k + 1) / 256 = n / 256 % 256 ^ k := by
      rw [pow_succ', Nat.mod_mul_right_div_self]
    rw [leBytes, leBytes, hhead, htail, ih]

theorem leBytes_congr {a b : Nat} (k : Nat) (h : a % 256 ^ k = b % 256 ^ k) : leBytes a k = leBytes b k := by
  rw [← leBytes_mod a, h, leBytes_mod]

/-! Ports (R353 to R358) -/

@[simp] theorem oport_setOPort (s : State) (x : Nat) (p : OrlPort) : oport (setOPort s x p) x = p := sget_sset_same ..
theorem oport_setOPort_other (s : State) (x y : Nat) (p : OrlPort) (h : y ≠ x) : oport (setOPort s x p) y = oport s y := sget_sset_other _ _ _ _ _ h

/-- Only port x and the model's source of free values have changed. -/
def PortOnly (x : Nat) (s t : State) : Prop :=
  t = { s with orl.ports := t.orl.ports, fresh := t.fresh } ∧ ∀ y, y ≠ x → oport t y = oport s y

namespace PortOnly

variable {x : Nat} {s t u : State}

theorem refl (x : Nat) (s : State) : PortOnly x s s := ⟨rfl, fun _ _ => rfl⟩

theorem frame_trans (h : t = { s with orl.ports := t.orl.ports, fresh := t.fresh }) (h' : u = { t with orl.ports := u.orl.ports, fresh := u.fresh }) :
    u = { s with orl.ports := u.orl.ports, fresh := u.fresh } := h'.trans (by rw [h])

theorem trans (h : PortOnly x s t) (h' : PortOnly x t u) : PortOnly x s u :=
  ⟨frame_trans h.1 h'.1, fun y hy => (h'.2 y hy).trans (h.2 y hy)⟩

theorem setOPort (s : State) (x : Nat) (p : OrlPort) : PortOnly x s (setOPort s x p) := ⟨rfl, fun y hy => oport_setOPort_other s x y p hy⟩
theorem free (s : State) (x k n : Nat) : PortOnly x s (freeBelow s k n).2 := ⟨rfl, fun _ _ => rfl⟩

theorem reg (h : PortOnly x s t) : t.reg = s.reg := by rw [h.1]
theorem tick (h : PortOnly x s t) : t.tick = s.tick := by rw [h.1]
theorem evt (h : PortOnly x s t) : t.evt = s.evt := by rw [h.1]
theorem tmb (h : PortOnly x s t) : t.tmb = s.tmb := by rw [h.1]
theorem bcnAt (h : PortOnly x s t) : t.orl.bcnAt = s.orl.bcnAt := by rw [h.1]
theorem memKept (h : PortOnly x s t) : memKept s t := by
  unfold Machine.memKept
  rw [h.1]
  exact ⟨rfl, rfl, rfl, rfl, rfl, rfl⟩

end PortOnly

/-- The frame, its bytes and the state from which it starts, on a port that has chosen it. -/
def portStarts (s : State) (x k : Nat) (q : List TxFrame) (f : TxFrame) : State :=
  let st := (64 * s.tick + k) % 2 ^ 64
  let bs := frameBytes f (leavingPay s f st)
  let l := lineBlocks (max (oport s x).blk (blocksIn (s.tick - (oport s x).lineAt))) (frameBlocks bs)
  setOPort s x { oport s x with
    queue := eraseOne f q, sending := some bs, sentTyp := f.typ, line := l.1, blk := l.2
    t1 := if f.stamp = .dlyReq then some st else (oport s x).t1, dlyAt := if f.stamp = .dlyReq then s.tick else (oport s x).dlyAt }

/-- The frames that wait at a port and are still to be sent. -/
def portWaits (s : State) (x : Nat) : List TxFrame := (oport s x).queue.filter (fun f => !stale s f)

theorem startPort_sending (s : State) (x : Nat) (h : (oport s x).sending.isSome = true) : startPort s x = s := if_pos h

theorem startPort_none (s : State) (x : Nat) (h : (oport s x).sending.isSome = false) (hm : minBy (fun f : TxFrame => f.prec) (portWaits s x) = none) :
    startPort s x = setOPort s x { oport s x with queue := portWaits s x } := by
  unfold portWaits at hm
  unfold startPort
  dsimp only
  rw [h, if_neg (by decide), hm]
  rfl

theorem startPort_some (s : State) (x : Nat) (f : TxFrame) (h : (oport s x).sending.isSome = false)
    (hm : minBy (fun f : TxFrame => f.prec) (portWaits s x) = some f) :
    startPort s x = if f.stamp = .none then portStarts s x 0 (portWaits s x) f
      else portStarts (freeBelow s 17 64).2 x (freeBelow s 17 64).1 (portWaits s x) f := by
  unfold portWaits at hm
  unfold startPort
  dsimp only
  rw [h, if_neg (by decide), hm]
  dsimp only
  split <;> rfl

theorem portStarts_only (s : State) (x k : Nat) (q : List TxFrame) (f : TxFrame) : PortOnly x s (portStarts s x k q f) := .setOPort ..

theorem startPort_only (s : State) (x : Nat) : PortOnly x s (startPort s x) := by
  cases h : (oport s x).sending.isSome with
  | true => rw [startPort_sending s x h]; exact .refl x s
  | false =>
    cases hm : minBy (fun f : TxFrame => f.prec) (portWaits s x) with
    | none => rw [startPort_none s x h hm]; exact .setOPort ..
    | some f =>
      rw [startPort_some s x f h hm]
      split
      · exact portStarts_only ..
      · exact (PortOnly.free ..).trans (portStarts_only ..)

theorem sendOrl_only (s : State) (x : Nat) (f : TxFrame) : PortOnly x s (sendOrl s x f) := by
  unfold sendOrl
  split
  · exact (PortOnly.setOPort ..).trans (startPort_only ..)
  · exact .refl x s

/-- A frame given to an idle port leaves at once: its bytes, with the stamp of the tick and some fraction of it (R358, R360). -/
def Leaves (s t : State) (x : Nat) (f : TxFrame) (k : Nat) : Prop :=
  (oport t x).sending = some (frameBytes f (leavingPay s f ((64 * s.tick + k) % 2 ^ 64))) ∧
  (f.stamp = .dlyReq → (oport t x).t1 = some ((64 * s.tick + k) % 2 ^ 64) ∧ (oport t x).dlyAt = s.tick)

theorem leavingPay_congr (s t : State) (f : TxFrame) (st : Nat) (h : f.blk = none) : leavingPay s f st = leavingPay t f st := by
  unfold leavingPay
  rw [h]

theorem portStarts_leaves (s : State) (x k : Nat) (q : List TxFrame) (f : TxFrame) : Leaves s (portStarts s x k q f) x f k := by
  unfold Leaves portStarts
  dsimp only
  rw [oport_setOPort]
  exact ⟨rfl, fun h => ⟨if_pos h, if_pos h⟩⟩

theorem sendOrl_idle (s : State) (x : Nat) (f : TxFrame) (h : idlePort s x) (hst : f.stamp ≠ .none) (hstale : stale s f = false)
    (hblk : f.blk = none) : ∃ k, k < 64 ∧ Leaves s (sendOrl s x f) x f k := by
  obtain ⟨hup, hsend, hqueue⟩ := h
  let u := setOPort s x { oport s x with queue := (oport s x).queue ++ [f] }
  have hfilter : portWaits u x = [f] := by
    have : (oport u x).queue = [f] := by rw [oport_setOPort, hqueue]; rfl
    have hsu : stale u f = false := hstale
    rw [portWaits, this, List.filter_cons, hsu]
    rfl
  have hidle : (oport u x).sending.isSome = false := by rw [oport_setOPort, hsend]; rfl
  refine ⟨(freeBelow u 17 64).1, Nat.mod_lt _ (by decide), ?_⟩
  have hsends : sendOrl s x f = portStarts (freeBelow u 17 64).2 x (freeBelow u 17 64).1 [f] f := by
    unfold sendOrl
    rw [hup, Bool.true_or, if_pos rfl, startPort_some u x f hidle (by rw [hfilter]; rfl), hfilter, if_neg hst]
  rw [hsends]
  have := portStarts_leaves (freeBelow u 17 64).2 x (freeBelow u 17 64).1 [f] f
  unfold Leaves at this ⊢
  rw [leavingPay_congr _ s f _ hblk] at this
  exact this

theorem idlePort_of_only {x y : Nat} {s t : State} (h : PortOnly x s t) (hy : y ≠ x) (hi : idlePort s y) : idlePort t y := by
  obtain ⟨hup, hsend, hqueue⟩ := hi
  refine ⟨?_, ?_, ?_⟩
  · rw [portUp, portState, rd_congr h.reg]; exact hup
  · rw [h.2 y hy, hsend]
  · rw [h.2 y hy, hqueue]

/-- Outside the ports and the model's free values, nothing changes when a frame goes out on several ports. -/
def PortsOnly (s t : State) : Prop := t = { s with orl.ports := t.orl.ports, fresh := t.fresh }

theorem sendPorts_only (xs : List Nat) (s : State) (f : TxFrame) : PortsOnly s (sendPorts s xs f) := by
  induction xs generalizing s with
  | nil => rfl
  | cons x xs ih => exact PortOnly.frame_trans (sendOrl_only s x f).1 (ih _)

theorem sendPorts_other (xs : List Nat) (s : State) (f : TxFrame) (y : Nat) (h : y ∉ xs) : oport (sendPorts s xs f) y = oport s y := by
  induction xs generalizing s with
  | nil => rfl
  | cons x xs ih =>
    obtain ⟨hx, hxs⟩ := not_or.1 fun e => h (List.mem_cons.2 e)
    exact (ih (sendOrl s x f) hxs).trans ((sendOrl_only s x f).2 y hx)

theorem stale_congr {s t : State} (h : t.tick = s.tick) (f : TxFrame) : stale t f = stale s f := by unfold stale; rw [h]

/-- The same frame on several ports leaves each idle one of them at once. -/
theorem sendPorts_idle (xs : List Nat) (hnd : xs.Nodup) (s : State) (f : TxFrame) (x : Nat) (hx : x ∈ xs) (h : idlePort s x) (hst : f.stamp ≠ .none)
    (hstale : stale s f = false) (hblk : f.blk = none) : ∃ k, k < 64 ∧ Leaves s (sendPorts s xs f) x f k := by
  induction xs generalizing s with
  | nil => cases hx
  | cons y ys ih =>
    obtain ⟨hy, hnd⟩ := List.nodup_cons.1 hnd
    by_cases hxy : x = y
    · subst hxy
      obtain ⟨k, hk, hleaves⟩ := sendOrl_idle s x f h hst hstale hblk
      refine ⟨k, hk, ?_⟩
      unfold Leaves at hleaves ⊢
      rw [show oport (sendPorts s (x :: ys) f) x = oport (sendOrl s x f) x from sendPorts_other ys _ f x hy]
      exact hleaves
    · have honly := sendOrl_only s y f
      obtain ⟨k, hk, hleaves⟩ := ih hnd (sendOrl s y f) ((List.mem_cons.1 hx).resolve_left hxy) (idlePort_of_only honly hxy h)
        ((stale_congr honly.tick f).trans hstale)
      refine ⟨k, hk, ?_⟩
      unfold Leaves at hleaves ⊢
      rw [leavingPay_congr _ s f _ hblk, honly.tick] at hleaves
      exact hleaves

theorem mem_upPorts {s : State} {x : Nat} (hx : x < 2) (h : portUp s x = true) : x ∈ upPorts s := by
  have : x ∈ [0, 1] := by simp; omega
  exact List.mem_filter.2 ⟨this, h⟩

theorem nodup_upPorts (s : State) : (upPorts s).Nodup := List.Nodup.filter _ (by decide)

/-- A frame that is heard and is not a link hello: acted on where it is for this device, where its type is not a numbered one. -/
theorem receive_heard {s : State} {x typ : Nat} {bs : List Byte} (h : heard s x typ bs) (ht : typ ≠ 3) (act : State → TxFrame → State) :
    receive s x typ bs false act = if frameMine s (parseFrame bs) then act s (parseFrame bs) else s := by
  obtain ⟨hhears, hok, htyp⟩ := h
  unfold receive
  rw [hhears, hok]
  simp only [Bool.not_true, Bool.false_eq_true, if_false, htyp, bne_self_eq_false, Bool.false_and, Bool.and_false, Bool.or_false]
  cases frameMine s (parseFrame bs)
  · simp [ht]
  · simp

theorem portNo_lt (x : Bool) : portNo x < 2 := by cases x <;> decide

end Sys2Proof.Machine
end

section
namespace Sys2Proof.Machine

/-! Delay measurement (R361) -/

/-- The request that a port sends. -/
def dlyReqFrame (s : State) (x : Nat) : TxFrame := { ownFrame s 1 false (nbrPos s x) [] with stamp := .dlyReq, seq := 0 }

theorem delayTimer_eq (s : State) (x : Nat) (h : portUp s x = true) :
    delayTimer s x = sendOrl (reach s ((oport s x).dlyAt + rd s F.ORL_TIME_dly_ms * Config.tickMs)) x (dlyReqFrame s x) := by
  unfold delayTimer
  rw [h]
  rfl

theorem delayTimer_down (s : State) (x : Nat) (h : portUp s x = false) : delayTimer s x = s := by
  unfold delayTimer
  rw [h]
  rfl

/-- The clock has moved and a port has changed. -/
theorem PortOnly.after_reach {x : Nat} {s t : State} {n : Nat} (h : PortOnly x (reach s n) t) : t.reg = s.reg ∧ Machine.memKept s t ∧ t.tick = max s.tick n :=
  ⟨h.reg, h.memKept, h.tick⟩

theorem delayTimer_request (s : State) (x : Nat) (h : idlePort s x) :
    (oport (delayTimer s x) x).dlyAt = (delayTimer s x).tick ∧ ∃ k, k < 64 ∧
      (oport (delayTimer s x) x).t1 = some ((64 * (delayTimer s x).tick + k) % 2 ^ 64) ∧ (oport (delayTimer s x) x).sending =
        some (frameBytes { ownFrame s 1 false (nbrPos s x) [] with seq := 0 } (leBytes ((64 * (delayTimer s x).tick + k) % 2 ^ 64) 8)) := by
  rw [delayTimer_eq s x h.1]
  generalize hu : reach s ((oport s x).dlyAt + rd s F.ORL_TIME_dly_ms * Config.tickMs) = u
  have hidle : idlePort u x := by rw [← hu]; exact h
  obtain ⟨k, hk, hsend, hnote⟩ := sendOrl_idle u x (dlyReqFrame s x) hidle (by simp [dlyReqFrame]) rfl rfl
  obtain ⟨ht1, hdly⟩ := hnote rfl
  rw [(sendOrl_only u x _).tick]
  exact ⟨hdly, k, hk, ht1, hsend⟩

/-- The response to a request. -/
def dlyRspFrame (s : State) (x : Nat) (pay : List Byte) (stamp : Nat) : TxFrame :=
  { ownFrame s 2 false (nbrPos s x) (pay.take 8 ++ leBytes stamp 8) with stamp := .dlyRsp, seq := 0 }

theorem dlyReqRx_eq {s : State} {x : Nat} {bs : List Byte} (stamp : Nat) (h : heard s x 1 bs) :
    dlyReqRx s x bs stamp = if frameMine s (parseFrame bs) then sendOrl s x (dlyRspFrame s x (parseFrame bs).pay stamp) else s :=
  receive_heard h (by decide) _

theorem dlyRsp_leaves {s : State} {x : Nat} (pay : List Byte) (stamp : Nat) (h : idlePort s x) :
    ∃ k, k < 64 ∧ (oport (sendOrl s x (dlyRspFrame s x pay stamp)) x).sending =
      some (frameBytes { ownFrame s 2 false (nbrPos s x) [] with seq := 0 }
        (pay.take 8 ++ leBytes stamp 8 ++ leBytes ((64 * s.tick + k) % 2 ^ 64) 8)) := by
  obtain ⟨k, hk, hsend, -⟩ := sendOrl_idle s x (dlyRspFrame s x pay stamp) h (by simp [dlyRspFrame]) rfl rfl
  exact ⟨k, hk, hsend⟩

/-- One value of the delay from a response (R361). -/
def dlyValue (pay : List Byte) (stamp : Nat) : Int :=
  signed 64 (((stamp : Int) - leAt pay 0 8 - ((leAt pay 16 8 : Int) - leAt pay 8 8)) % 2 ^ 64).toNat / 2

/-- The measurement has one value more. -/
def noteDelay (s : State) (x : Nat) (d : Int) : State :=
  delayStatus (setOPort s x { oport s x with t1 := none, delays := d :: (oport s x).delays.take 15 }) x

theorem dlyRspRx_eq {s : State} {x : Nat} {bs : List Byte} (stamp : Nat) (h : heard s x 2 bs) :
    dlyRspRx s x bs stamp = if frameMine s (parseFrame bs) then
      (if (oport s x).t1 != some (leAt (parseFrame bs).pay 0 8) || decide ((oport s x).dlyAt + Config.tickMs < s.tick) then s
       else noteDelay s x (dlyValue (parseFrame bs).pay stamp)) else s :=
  receive_heard h (by decide) _

theorem oport_wrS (s : State) (f : Fld) (v : Int) (x : Nat) : oport (wrS s f v) x = oport s x := rfl

theorem oport_delayStatus (s : State) (x : Nat) : oport (delayStatus s x) x = oport s x := by
  unfold delayStatus
  split
  · rfl
  · exact oport_wrS ..

theorem delayStatus_frame (s : State) (x : Nat) : RegOnly s (delayStatus s x) := by
  unfold delayStatus
  split
  · rfl
  · exact RegOnly.wr ..

theorem regsKept_delayStatus (s : State) (x : Nat) : regsKept s (delayStatus s x) [(F.ORL_PORT_DELAY_delay x).off] := fun o ho => by
  unfold delayStatus
  split
  · rfl
  · rw [wrS, rdW_wr, if_neg (by simpa using ho)]

/-- The mean and the correction that make a port's delay do not stand in the register that shows it. -/
theorem portDelay_shown (s : State) (x : Nat) (v : Int) : portDelay (wrS s (F.ORL_PORT_DELAY_delay x) v) x = portDelay s x := by
  unfold portDelay
  rw [oport_wrS, rdS, wrS, rd_wr_other _ _ _ _ (by show 0xC0028 + 16 * x ≠ 0xC0024 + 16 * x; omega), ← rdS]

theorem rd_delayStatus (s : State) (x : Nat) (h : 16 ≤ (oport s x).delays.length) : rd (delayStatus s x) (F.ORL_PORT_DELAY_delay x) =
    (portDelay (delayStatus s x) x % 2 ^ (F.ORL_PORT_DELAY_delay x).w).toNat := by
  have hstatus : delayStatus s x = wrS s (F.ORL_PORT_DELAY_delay x) (portDelay s x) := if_neg (by omega)
  have hlt : (portDelay s x % 2 ^ (F.ORL_PORT_DELAY_delay x).w).toNat < 2 ^ (F.ORL_PORT_DELAY_delay x).w := by
    have := Int.emod_lt_of_pos (portDelay s x) (show (0 : Int) < 2 ^ 32 by decide)
    show (portDelay s x % 2 ^ 32).toNat < 2 ^ 32
    omega
  rw [hstatus, portDelay_shown, wrS, rd_wr_same _ _ _ (by show 0 + 32 ≤ 32; decide), Nat.mod_eq_of_lt hlt]

theorem noteDelay_effect (s : State) (x : Nat) (d : Int) :
    (oport (noteDelay s x d) x).t1 = none ∧ memKept s (noteDelay s x d) ∧ (oport (noteDelay s x d) x).delays = d :: (oport s x).delays.take 15 ∧
    regsKept s (noteDelay s x d) [(F.ORL_PORT_DELAY_delay x).off] ∧
    (15 ≤ (oport s x).delays.length → rd (noteDelay s x d) (F.ORL_PORT_DELAY_delay x) =
      (portDelay (noteDelay s x d) x % 2 ^ (F.ORL_PORT_DELAY_delay x).w).toNat) := by
  have hport : oport (noteDelay s x d) x = { oport s x with t1 := none, delays := d :: (oport s x).delays.take 15 } := by
    rw [noteDelay, oport_delayStatus, oport_setOPort]
  refine ⟨by rw [hport], ?_, by rw [hport], fun o ho => ?_, fun h => ?_⟩
  · unfold noteDelay
    rw [delayStatus_frame]
    exact ⟨rfl, rfl, rfl, rfl, rfl, rfl⟩
  · exact regsKept_delayStatus _ x o ho
  · refine rd_delayStatus _ x ?_
    rw [oport_setOPort, List.length_cons, List.length_take]
    omega

theorem dlyTimeout_some {s : State} {x a : Nat} (h : (oport s x).t1 = some a) :
    dlyTimeout s x = setOPort (reach s ((oport s x).dlyAt + Config.tickMs)) x { oport s x with t1 := none } := by
  unfold dlyTimeout
  rw [h]

theorem dlyTimeout_none {s : State} {x : Nat} (h : (oport s x).t1 = none) : dlyTimeout s x = s := by
  unfold dlyTimeout
  rw [h]

/-! The manager's beacons (R362, R363) -/

/-- Which nominal instant of the running period is the next one. -/
def beaconIndex (s : State) : Nat :=
  match s.orl.bcnAt with
  | some b => if b < s.tmb.bound then 0 else (b - s.tmb.bound) * rd s F.ORL_TIME_bdiv / picPeriod s + 1
  | none => 0

/-- The BEACON of nominal instant `inst`. -/
def beaconFrame (s : State) (n phase inst : Nat) : TxFrame :=
  { ownFrame s 0 true 0 (beaconPay n phase (picPeriod s) (rd s F.ORL_TIME_bdiv)) with stamp := .beacon (64 * inst) none, seq := 0 }

theorem beaconEntry_eq {s : State} {n k : Nat} (hm : isManager s = true) (hn : s.tmb.pic = some n) (hp : 0 < picPeriod s)
    (hk : k < rd s F.ORL_TIME_bdiv) (hidx : k = beaconIndex s) :
    beaconEntry s =
      sendPorts (reach { s with orl.bcnAt := some (s.tmb.bound + k * picPeriod s / rd s F.ORL_TIME_bdiv) }
          (s.tmb.bound + k * picPeriod s / rd s F.ORL_TIME_bdiv)) (upPorts s)
        (beaconFrame s n (k * picPeriod s / rd s F.ORL_TIME_bdiv) (s.tmb.bound + k * picPeriod s / rd s F.ORL_TIME_bdiv)) := by
  have h0 : ¬((decide (rd s F.ORL_TIME_bdiv = 0) || decide (picPeriod s = 0)) = true) := by simp; omega
  unfold beaconEntry
  rw [hm, hn, if_neg (by decide)]
  dsimp only
  rw [if_neg h0]
  change (if rd s F.ORL_TIME_bdiv ≤ beaconIndex s then s else _) = _
  rw [← hidx, if_neg (by omega)]
  subst hidx
  rfl

theorem beaconEntry_idle {s : State} (h : isManager s = false ∨ s.tmb.pic = none) : beaconEntry s = s := by
  unfold beaconEntry
  rcases h with h | h
  · rw [h]; rfl
  · rw [h]; split <;> rfl

/-- The offset that a BEACON carries: how long after its nominal instant it left (R363). -/
theorem beacon_offset (tick inst k : Nat) (h : inst ≤ tick) :
    leBytes (((((64 * tick + k) % 2 ^ 64 : Nat) : Int) - 64 * (inst : Int)) % 2 ^ 32).toNat 4 = leBytes (64 * (tick - inst) + k) 4 := by
  refine leBytes_congr 4 ?_
  have hpow : (256 : Nat) ^ 4 = 2 ^ 32 := by decide
  rw [hpow]
  omega

theorem leavingPay_beacon (s u : State) (n phase inst st : Nat) :
    leavingPay u (beaconFrame s n phase inst) st = leBytes n 8 ++ leBytes phase 4 ++ leBytes (picPeriod s) 4 ++
      leBytes (((st : Int) - 64 * (inst : Int)) % 2 ^ 32).toNat 4 ++ leBytes (rd s F.ORL_TIME_bdiv) 1 ++ List.replicate 11 0#8 := by
  have hpay : beaconPay n phase (picPeriod s) (rd s F.ORL_TIME_bdiv) = (leBytes n 8 ++ leBytes phase 4 ++ leBytes (picPeriod s) 4) ++
      (leBytes 0 4 ++ (leBytes (rd s F.ORL_TIME_bdiv) 1 ++ List.replicate 11 0#8)) := by unfold beaconPay; simp only [List.append_assoc]
  have htake : (beaconPay n phase (picPeriod s) (rd s F.ORL_TIME_bdiv)).take 16 = leBytes n 8 ++ leBytes phase 4 ++ leBytes (picPeriod s) 4 := by
    rw [hpay]
    exact List.take_left' (by simp only [List.length_append, length_leBytes])
  have hdrop : (beaconPay n phase (picPeriod s) (rd s F.ORL_TIME_bdiv)).drop 20 = leBytes (rd s F.ORL_TIME_bdiv) 1 ++ List.replicate 11 0#8 := by
    rw [hpay, ← List.append_assoc]
    exact List.drop_left' (by simp only [List.length_append, length_leBytes])
  show (beaconPay n phase (picPeriod s) (rd s F.ORL_TIME_bdiv)).take 16 ++ _ ++ (beaconPay n phase (picPeriod s) (rd s F.ORL_TIME_bdiv)).drop 20 = _
  rw [htake, hdrop, List.append_assoc]
  simp only [List.append_assoc]

/-- The next beacon: its instant is noted and each idle UP port sends it. -/
theorem beaconEntry_effect {s : State} {n k inst : Nat} (hm : isManager s = true) (hn : s.tmb.pic = some n) (hp : 0 < picPeriod s)
    (hk : k < rd s F.ORL_TIME_bdiv) (hidx : k = beaconIndex s) (hinst : inst = s.tmb.bound + k * picPeriod s / rd s F.ORL_TIME_bdiv) :
    (beaconEntry s).tick = max s.tick inst ∧ (beaconEntry s).orl.bcnAt = some inst ∧ (beaconEntry s).reg = s.reg ∧ memKept s (beaconEntry s) ∧
    ∀ x, x < 2 → idlePort s x → ∃ f, f < 64 ∧ (oport (beaconEntry s) x).sending = some (frameBytes { ownFrame s 0 true 0 [] with seq := 0 }
      (leBytes n 8 ++ leBytes (k * picPeriod s / rd s F.ORL_TIME_bdiv) 4 ++ leBytes (picPeriod s) 4 ++
        leBytes (64 * ((beaconEntry s).tick - inst) + f) 4 ++ leBytes (rd s F.ORL_TIME_bdiv) 1 ++ List.replicate 11 0#8)) := by
  rw [beaconEntry_eq hm hn hp hk hidx, ← hinst]
  generalize hu : reach { s with orl.bcnAt := some inst } inst = u
  have htick : u.tick = max s.tick inst := by rw [← hu]; rfl
  have honly := sendPorts_only (upPorts s) u (beaconFrame s n (k * picPeriod s / rd s F.ORL_TIME_bdiv) inst)
  have htick' : (sendPorts u (upPorts s) (beaconFrame s n (k * picPeriod s / rd s F.ORL_TIME_bdiv) inst)).tick = max s.tick inst := by
    rw [honly]; exact htick
  refine ⟨htick', ?_, ?_, ?_, fun x hx hi => ?_⟩
  · rw [honly, ← hu]; rfl
  · rw [honly, ← hu]; rfl
  · rw [honly, ← hu]; exact ⟨rfl, rfl, rfl, rfl, rfl, rfl⟩
  · have hidle : idlePort u x := by rw [← hu]; exact hi
    obtain ⟨f, hf, hsend, -⟩ := sendPorts_idle (upPorts s) (nodup_upPorts s) u
      (beaconFrame s n (k * picPeriod s / rd s F.ORL_TIME_bdiv) inst) x (mem_upPorts hx hi.1) hidle (by simp [beaconFrame]) rfl rfl
    refine ⟨f, hf, hsend.trans ?_⟩
    rw [leavingPay_beacon, htick, beacon_offset _ _ _ (le_max_right _ _), htick']
    rfl

end Sys2Proof.Machine
end

section
namespace Sys2Proof.Machine

/-! What an edge of the reference can write -/

/-- Registers that an edge of the reference can write. -/
def tbRegs : List Nat := [F.TMB_STATUS_state.off, F.TMB_PHASE_ERR_ticks.off, F.TMB_FREQ_OFS_ppb.off, F.TMB_REF_CNT_strays.off, F.PSQ_FAULT.off]

theorem Edge.ite_else {offs : List Nat} {s t : State} {c : Prop} [Decidable c] (h : ¬c → Edge offs s t) : Edge offs s (if c then s else t) := by
  split
  · exact .refl offs s
  · exact h ‹¬c›

theorem Edge.ite_both {offs : List Nat} {s t u : State} {c : Prop} [Decidable c] (h : Edge offs s t) (h' : Edge offs s u) :
    Edge offs s (if c then t else u) := by
  split
  · exact h
  · exact h'

theorem tmbEnter_tbRegs (s : State) (new : Nat) : Edge tbRegs s (tmbEnter s new) :=
  tmbEnter_edge s new (by decide) (fun _ => by decide) (fun _ => by decide) (fun _ => by decide)

theorem discardBanks_edge {offs : List Nat} (s : State) : Edge offs s (discardBanks s) := .of_time rfl rfl rfl

theorem stepPhase_edge {offs : List Nat} (s : State) (ts : Int) : Edge offs s (stepPhase s ts) := by
  unfold stepPhase
  split
  · refine Edge.trans ?_ (discardBanks_edge _)
    exact .of_time rfl rfl rfl
  · exact .refl offs s

/-- The alignment edge in the time base's own terms. -/
def takeAlign (s : State) (ts : Int) : State :=
  { s with tmb := { s.tmb with align := some ts, realign := false, wide := false, acc := some 0, win := 1, good := 1, bad := 0, missRun := 0 } }

/-- A new grid is in use. -/
def startGrid (s : State) (ts : Int) : State := stepPhase { s with tmb.presentTo := presentUntil s 0 } ts

theorem alignTo_eq (s : State) (ts : Int) : alignTo s ts =
    if rd (loopOffset (tmbEnter (startGrid (wrB (wr (takeAlign s ts) F.TMB_PHASE_ERR_ticks 0) F.TMB_STATUS_ref_present true) ts) tmACQUIRE))
        F.TMB_LOCK_CFG_lock_cnt ≤ 1 then
      tmbEnter (loopOffset (tmbEnter (startGrid (wrB (wr (takeAlign s ts) F.TMB_PHASE_ERR_ticks 0) F.TMB_STATUS_ref_present true) ts) tmACQUIRE)) tmLOCKED
    else loopOffset (tmbEnter (startGrid (wrB (wr (takeAlign s ts) F.TMB_PHASE_ERR_ticks 0) F.TMB_STATUS_ref_present true) ts) tmACQUIRE) := rfl

theorem takeAlign_edge {offs : List Nat} (s : State) (ts : Int) : Edge offs s (takeAlign s ts) := .of_time rfl rfl rfl

theorem startGrid_edge {offs : List Nat} (s : State) (ts : Int) : Edge offs s (startGrid s ts) := by
  refine Edge.trans ?_ (stepPhase_edge _ _)
  exact .of_time rfl rfl rfl

theorem alignTo_edge (s : State) (ts : Int) : Edge tbRegs s (alignTo s ts) := by
  have hstart : Edge tbRegs s (loopOffset (tmbEnter (startGrid (wrB (wr (takeAlign s ts) F.TMB_PHASE_ERR_ticks 0) F.TMB_STATUS_ref_present true) ts)
      tmACQUIRE)) :=
    (takeAlign_edge s ts).trans <| (Edge.wr _ _ _ (by decide)).trans <| (Edge.wrB _ _ _ (by decide)).trans <| (startGrid_edge _ ts).trans <|
      (tmbEnter_tbRegs _ _).trans ((loopOffset_edge _).mono (by decide))
  rw [alignTo_eq]
  split
  · exact hstart.trans (tmbEnter_tbRegs _ _)
  · exact hstart

theorem measureEdge_edge (s : State) (ts : Nat) : Edge tbRegs s (measureEdge s ts) := by
  unfold measureEdge
  extract_lets rec' x u span nom out x2 v
  have hu : Edge tbRegs s u := .of_time rfl rfl rfl
  clear_value u out
  refine hu.trans (.ite_else fun _ => .ite_both ?_ ?_)
  · refine Edge.trans ?_ (tmbEnter_tbRegs _ _)
    exact .of_time rfl rfl rfl
  · have hv : Edge tbRegs u v := .of_time rfl rfl rfl
    clear_value v
    refine hv.trans (.ite fun _ => ?_)
    refine Edge.trans ?_ (tmbEnter_tbRegs _ _)
    exact .of_time rfl rfl rfl

theorem acceptEdge_edge (s : State) (k err : Int) (wide : Bool) : Edge tbRegs s (acceptEdge s k err wide) := by
  rw [acceptEdge_eq]
  have hnote : Edge tbRegs s (noteEdge s k err) := (noteEdge_edge s k err).mono (by decide)
  exact .ite_both hnote (hnote.trans ((judged_edge wide err _).mono (by decide)))

theorem strayEdge_edge (s : State) : Edge tbRegs s (strayEdge s) := .bump s _ (by decide)

theorem refEdge_edge (s : State) (ts frac : Nat) : Edge tbRegs s (refEdge s ts frac) := by
  unfold refEdge
  dsimp only
  refine (measureEdge_edge s ts).trans ?_
  generalize measureEdge s ts = u
  split
  · exact .ite_else fun _ => alignTo_edge ..
  · refine .ite_else fun _ => .ite_both (.ite_both ?_ (alignTo_edge ..)) (.ite_both (strayEdge_edge u) (.ite_both (alignTo_edge ..) (acceptEdge_edge ..)))
    refine Edge.trans ?_ (acceptEdge_edge ..)
    exact .ite fun _ => .of_time rfl rfl rfl

theorem beaconEdge_edge (s : State) (e frac phase : Nat) : Edge tbRegs s (beaconEdge s e frac phase) := by
  unfold beaconEdge
  dsimp only
  refine .ite_else fun _ => (refEdge_edge s e frac).trans (.ite fun _ => ?_)
  refine Edge.trans ?_ (stepPhase_edge _ _)
  exact .of_time rfl rfl rfl

theorem beaconNumbers_edge (s : State) : Edge tbRegs s (beaconNumbers s) := by
  unfold beaconNumbers
  refine .ite_else fun _ => ?_
  extract_lets x u
  have hu : Edge tbRegs s u := by
    show Edge tbRegs s (match s.tmb.next with | some b => { s with tmb.picNext := numberAt s b } | none => s)
    split
    · exact .of_time rfl rfl rfl
    · exact .refl _ s
  refine hu.trans ?_
  split
  · exact .of_time rfl rfl rfl
  · exact .refl _ _

/-! Beacons on a worker (R363 to R365) -/

/-- The frame's period or divider differs from the worker's (R364). -/
def beaconDiffers (s : State) (pay : List Byte) : Bool :=
  leAt pay 12 4 != picPeriod s || rd s F.TMB_REF_RATIO_pic_mul != 1 || rd s F.TMB_REF_RATIO_ref_div != leAt pay 20 1

/-- A beacon that cannot be used. -/
def beaconMismatch (s : State) (x : Nat) : State := info (wrB s F.ORL_STATUS_tmis true) blkORL x F.ORL_STATUS_tmis

/-- Since when a port has delivered without a gap, at its next beacon. -/
def beaconRun (s : State) (x p d : Nat) : Nat :=
  match (oport s x).lastBcn, (oport s x).runBcn with
  | some t, some r => if s.tick ≤ t + 2 * p / max d 1 then r else s.tick
  | _, _ => s.tick

/-- The port has delivered now. -/
def noteBeacon (s : State) (x run : Nat) : State := setOPort s x { oport s x with lastBcn := some s.tick, runBcn := some run }
/-- A usable beacon is counted, with its hops. -/
def countBeacon (s : State) (x hops : Nat) : State := wr (bump s (F.ORL_PORT_CNT_bcn x)) (F.ORL_PORT_STAT_hops x) hops
/-- It goes on to the next device. -/
def passBeacon (s : State) (x : Nat) (f : TxFrame) (e : Int) : State :=
  if f.src = ringPos s || (isRing s && f.hops = nDev s - 1) then s
  else sendOrl s (1 - x) { f with prec := 0, hops := f.hops + 1, stamp := .beacon e (some (s.tick + 3000)) }
/-- The port in use is chosen (R365). -/
def chooseTime (s : State) (x run : Nat) : State :=
  if rd s F.ORL_STATUS_tsrc = 0 && x = prefPort s then wr s F.ORL_STATUS_tsrc (x + 1)
  else if rd s F.ORL_STATUS_tsrc = 0 && !portUp s (prefPort s) then timeFrom s x
  else if x = prefPort s && timePort s != x && decide (run + Config.tickHz ≤ s.tick) then timeFrom s x else s
/-- A beacon of the port in use gives the time. -/
def takeTime (s : State) (x : Nat) (e : Int) (phase n : Nat) : State :=
  if rd s F.ORL_STATUS_tsrc = x + 1 then
    beaconNumbers (beaconEdge (beaconPicture s (e / 64).toNat phase n) (e / 64).toNat (e % 64).toNat phase) else s

/-- The instant that a beacon received with `stamp` names, in 1/64 tick (R363). -/
def beaconInstant (s : State) (x stamp : Nat) (pay : List Byte) : Int := (stamp : Int) - portDelay s x - signed 32 (leAt pay 16 4)

/-- A usable beacon, counted and passed on. -/
def beaconCounted (s : State) (x : Nat) (f : TxFrame) (stamp : Nat) : State :=
  passBeacon (countBeacon (noteBeacon (wrB s F.ORL_STATUS_tmis false) x
      (beaconRun (wrB s F.ORL_STATUS_tmis false) x (leAt f.pay 12 4) (leAt f.pay 20 1))) x f.hops) x f
    (beaconInstant (wrB s F.ORL_STATUS_tmis false) x stamp f.pay)

/-- A usable beacon. -/
def beaconUsed (s : State) (x : Nat) (f : TxFrame) (stamp : Nat) : State :=
  takeTime (chooseTime (beaconCounted s x f stamp) x
      (beaconRun (wrB s F.ORL_STATUS_tmis false) x (leAt f.pay 12 4) (leAt f.pay 20 1))) x
    (beaconInstant (wrB s F.ORL_STATUS_tmis false) x stamp f.pay) (leAt f.pay 8 4) (leAt f.pay 0 8)

theorem beaconRx_eq {s : State} {x : Nat} {bs : List Byte} (stamp : Nat) (h : heard s x 0 bs) : beaconRx s x bs stamp =
    if frameMine s (parseFrame bs) then
      (if !isWorker s || (oport s x).delays.length < 16 then s
       else if beaconDiffers s (parseFrame bs).pay then beaconMismatch s x else beaconUsed s x (parseFrame bs) stamp)
    else s :=
  receive_heard h (by decide) _

theorem tmb_info (s : State) (b i : Nat) (f : Fld) (q : List (Nat × Nat)) : (info s b i f q).tmb = s.tmb := rfl

theorem beaconMismatch_effect (s : State) (x : Nat) :
    rd (beaconMismatch s x) F.ORL_STATUS_tmis = 1 ∧ posted (beaconMismatch s x) clsInfo blkORL x F.ORL_STATUS_tmis [] ∧
    regsKept s (beaconMismatch s x) [F.ORL_STATUS_tmis.off] ∧ (beaconMismatch s x).tmb = s.tmb ∧ memKept s (beaconMismatch s x) := by
  have hedge : Edge [F.ORL_STATUS_tmis.off] s (beaconMismatch s x) := (Edge.wrB s _ true (by decide)).trans (.info ..)
  refine ⟨?_, posted_info .., hedge.regs, (tmb_info ..).trans (wr_tmb ..), hedge.time.memKept⟩
  rw [beaconMismatch, rd_info, rd_wrB_same _ F.ORL_STATUS_tmis true (by decide) (by decide)]
  rfl

end Sys2Proof.Machine
end

section
namespace Sys2Proof.Machine

/-! A usable beacon: what is counted -/

theorem tmis_of_good (s : State) : rd (wrB s F.ORL_STATUS_tmis false) F.ORL_STATUS_tmis = 0 :=
  rd_wrB_same s F.ORL_STATUS_tmis false (by decide) (by decide)

/-- The registers after a beacon has been counted are those of the count: passing it on writes none. -/
theorem reg_passBeacon (s : State) (x : Nat) (f : TxFrame) (e : Int) : (passBeacon s x f e).reg = s.reg := by
  unfold passBeacon
  split
  · rfl
  · exact (sendOrl_only ..).reg

theorem oport_passBeacon (s : State) (x : Nat) (f : TxFrame) (e : Int) (h : x < 2) : oport (passBeacon s x f e) x = oport s x := by
  unfold passBeacon
  split
  · rfl
  · exact (sendOrl_only ..).2 x (by omega)

theorem reg_noteBeacon (s : State) (x run : Nat) : (noteBeacon s x run).reg = s.reg := rfl
theorem oport_countBeacon (s : State) (x hops : Nat) : oport (countBeacon s x hops) x = oport s x := rfl
theorem lastBcn_noteBeacon (s : State) (x run : Nat) : (oport (noteBeacon s x run) x).lastBcn = some s.tick := by rw [noteBeacon, oport_setOPort]

/-- A field outside the two registers of the count. -/
theorem rd_countBeacon_other (s : State) (x hops : Nat) (f : Fld) (h : f.off ≠ (F.ORL_PORT_CNT_bcn x).off)
    (h' : f.off ≠ (F.ORL_PORT_STAT_hops x).off) : rd (countBeacon s x hops) f = rd s f := by
  rw [countBeacon, rd_wr_other _ _ _ _ h', rd_bump_other _ _ _ h]

theorem tick_wrB (s : State) (f : Fld) (b : Bool) : (wrB s f b).tick = s.tick := rfl

theorem status_ne_port (x : Nat) : F.ORL_STATUS_tsrc.off ≠ (F.ORL_PORT_CNT_bcn x).off ∧ F.ORL_STATUS_tsrc.off ≠ (F.ORL_PORT_STAT_hops x).off := by
  constructor
  · show 0xC0008 ≠ 0xC002C + 16 * x; omega
  · show 0xC0008 ≠ 0xC0020 + 16 * x; omega

theorem misc_ne_port (x : Nat) (h : x < 2) :
    F.ORL_CNT_MISC_switch.off ≠ (F.ORL_PORT_CNT_bcn x).off ∧ F.ORL_CNT_MISC_switch.off ≠ (F.ORL_PORT_STAT_hops x).off := by
  constructor
  · show 0xC023C ≠ 0xC002C + 16 * x; omega
  · show 0xC023C ≠ 0xC0020 + 16 * x; omega

theorem cfg_ne_port (x : Nat) : F.ORL_CFG_pos.off ≠ (F.ORL_PORT_CNT_bcn x).off ∧ F.ORL_CFG_pos.off ≠ (F.ORL_PORT_STAT_hops x).off := by
  constructor
  · show 0xC0004 ≠ 0xC002C + 16 * x; omega
  · show 0xC0004 ≠ 0xC0020 + 16 * x; omega

/-- The state of port y stands beside the hops of port x. -/
theorem portUp_countBeacon (s : State) (x y hops : Nat) : portUp (countBeacon s x hops) y = portUp s y := by
  have hrd : rd (countBeacon s x hops) (F.ORL_PORT_STAT_state y) = rd s (F.ORL_PORT_STAT_state y) := by
    rw [countBeacon, rd_wr_disjoint _ (F.ORL_PORT_STAT_hops x) _ _ (by show 8 + 8 ≤ 32; decide) (.inr (by show 8 + 8 ≤ 24; decide)),
      rd_bump_other _ _ _ (by show 0xC0020 + 16 * y ≠ 0xC002C + 16 * x; omega)]
  rw [portUp, portState, hrd, ← portState, ← portUp]

theorem prefPort_congr {s t : State} (h : ∀ f : Fld, f.off = F.ORL_CFG_pos.off → rd t f = rd s f) : prefPort t = prefPort s := by
  unfold prefPort isRing nDev ringPos on
  rw [h F.ORL_CFG_topo rfl, h F.ORL_CFG_n_dev_m1 rfl, h F.ORL_CFG_pos rfl]

/-- What a usable beacon leaves before the port in use is chosen. -/
structure Counted (s c : State) (x hops : Nat) : Prop where
  tmis : rd c F.ORL_STATUS_tmis = 0
  last : (oport c x).lastBcn = some s.tick
  bcn : rd c (F.ORL_PORT_CNT_bcn x) = counted s (F.ORL_PORT_CNT_bcn x)
  hops : rd c (F.ORL_PORT_STAT_hops x) = hops % 256
  tsrc : rd c F.ORL_STATUS_tsrc = rd s F.ORL_STATUS_tsrc
  switch : rd c F.ORL_CNT_MISC_switch = rd s F.ORL_CNT_MISC_switch
  pref : prefPort c = prefPort s
  up : ∀ y, y < 2 → portUp c y = portUp s y

theorem counted_congr {s t : State} (f : Fld) (h : rd t f = rd s f) : counted t f = counted s f := by rw [counted, h, counted]

theorem beaconCounted_counted (s : State) (x : Nat) (f : TxFrame) (stamp : Nat) (hx : x < 2) :
    Counted s (beaconCounted s x f stamp) x f.hops := by
  unfold beaconCounted
  generalize beaconInstant (wrB s F.ORL_STATUS_tmis false) x stamp f.pay = e
  generalize beaconRun (wrB s F.ORL_STATUS_tmis false) x (leAt f.pay 12 4) (leAt f.pay 20 1) = run
  let u := noteBeacon (wrB s F.ORL_STATUS_tmis false) x run
  have hreg : (passBeacon (countBeacon u x f.hops) x f e).reg = (countBeacon u x f.hops).reg := reg_passBeacon ..
  have hu : ∀ g, rd u g = rd (wrB s F.ORL_STATUS_tmis false) g := fun g => rd_congr (reg_noteBeacon ..) g
  have hother : ∀ g : Fld, g.off ≠ F.ORL_STATUS_tmis.off → rd u g = rd s g := fun g hg => (hu g).trans (rd_wr_other _ _ _ _ hg)
  obtain ⟨hst1, hst2⟩ := status_ne_port x
  obtain ⟨hmi1, hmi2⟩ := misc_ne_port x hx
  obtain ⟨hcf1, hcf2⟩ := cfg_ne_port x
  have hcfg : ∀ g : Fld, g.off = F.ORL_CFG_pos.off → rd (passBeacon (countBeacon u x f.hops) x f e) g = rd s g := fun g hg => by
    rw [rd_congr hreg, rd_countBeacon_other _ _ _ _ (hg ▸ hcf1) (hg ▸ hcf2), hother _ (by rw [hg]; decide)]
  refine ⟨?_, ?_, ?_, ?_, ?_, ?_, prefPort_congr hcfg, fun y hy => ?_⟩
  · rw [rd_congr hreg, rd_countBeacon_other _ _ _ F.ORL_STATUS_tmis hst1 hst2, hu, tmis_of_good]
  · rw [oport_passBeacon _ _ _ _ hx, oport_countBeacon, lastBcn_noteBeacon, tick_wrB]
  · have hne : (F.ORL_PORT_CNT_bcn x).off ≠ (F.ORL_PORT_STAT_hops x).off := by
      show 0xC002C + 16 * x ≠ 0xC0020 + 16 * x; omega
    rw [rd_congr hreg, countBeacon, rd_wr_other _ _ _ _ hne, rd_bump u _ (by show 0 + 16 ≤ 32; decide)]
    exact counted_congr _ (hother _ (by show 0xC002C + 16 * x ≠ 0xC0008; omega))
  · rw [rd_congr hreg, countBeacon]
    exact rd_wr_same _ (F.ORL_PORT_STAT_hops x) _ (by show 8 + 8 ≤ 32; decide)
  · rw [rd_congr hreg, rd_countBeacon_other _ _ _ _ hst1 hst2, hu]
    exact rd_wr_disjoint _ F.ORL_STATUS_tmis F.ORL_STATUS_tsrc _ (by decide) (by decide)
  · rw [rd_congr hreg, rd_countBeacon_other _ _ _ _ hmi1 hmi2, hother _ (by decide)]
  · have hup : portUp (passBeacon (countBeacon u x f.hops) x f e) y = portUp (countBeacon u x f.hops) y := by
      rw [portUp, portState, rd_congr hreg, ← portState, ← portUp]
    have hstate : portUp u y = portUp s y := by
      rw [portUp, portState, hother _ (by show 0xC0020 + 16 * y ≠ 0xC0008; omega), ← portState, ← portUp]
    rw [hup, portUp_countBeacon, hstate]

/-! A usable beacon: the port in use (R365) -/

theorem oport_wr (s : State) (f : Fld) (v x : Nat) : oport (wr s f v) x = oport s x := rfl
theorem oport_bump (s : State) (f : Fld) (x : Nat) : oport (bump s f) x = oport s x := rfl
theorem oport_info (s : State) (b i : Nat) (f : Fld) (q : List (Nat × Nat)) (x : Nat) : oport (info s b i f q) x = oport s x := rfl

/-- Time is taken from a port: shown, counted and reported. -/
theorem timeFrom_effect (s : State) (x : Nat) (h : x < 2) :
    rd (timeFrom s x) F.ORL_STATUS_tsrc = x + 1 ∧ rd (timeFrom s x) F.ORL_CNT_MISC_switch = counted s F.ORL_CNT_MISC_switch ∧
    posted (timeFrom s x) clsInfo blkORL x F.ORL_STATUS_tsrc [] ∧
    Edge [F.ORL_STATUS_tsrc.off, F.ORL_CNT_MISC_switch.off] s (timeFrom s x) ∧ (∀ y, oport (timeFrom s x) y = oport s y) := by
  unfold timeFrom
  refine ⟨?_, ?_, posted_info .., ?_, fun y => ?_⟩
  · rw [rd_info, rd_bump_other _ _ _ (by decide), rd_wr_same _ F.ORL_STATUS_tsrc _ (by decide)]
    exact Nat.mod_eq_of_lt (by show x + 1 < 4; omega)
  · rw [rd_info, rd_bump _ _ (by decide)]
    exact counted_congr _ (rd_wr_other _ _ _ _ (by decide))
  · exact (Edge.wr _ _ _ (by decide)).trans ((Edge.bump _ _ (by decide)).trans (.info ..))
  · rw [oport_info, oport_bump, oport_wr]

/-- What the choice of the port in use can be. -/
theorem chooseTime_cases (s : State) (x run : Nat) :
    chooseTime s x run = s ∨ chooseTime s x run = wr s F.ORL_STATUS_tsrc (x + 1) ∨ chooseTime s x run = timeFrom s x := by
  unfold chooseTime
  split
  · exact .inr (.inl rfl)
  · split
    · exact .inr (.inr rfl)
    · split
      · exact .inr (.inr rfl)
      · exact .inl rfl

theorem chooseTime_edge (s : State) (x run : Nat) (h : x < 2) :
    Edge [F.ORL_STATUS_tsrc.off, F.ORL_CNT_MISC_switch.off] s (chooseTime s x run) ∧ (∀ y, oport (chooseTime s x run) y = oport s y) ∧
    rd (chooseTime s x run) F.ORL_STATUS_tmis = rd s F.ORL_STATUS_tmis := by
  have htmis : ∀ u v, rd (wr u F.ORL_STATUS_tsrc v) F.ORL_STATUS_tmis = rd u F.ORL_STATUS_tmis := fun u v =>
    rd_wr_disjoint u F.ORL_STATUS_tsrc F.ORL_STATUS_tmis v (by decide) (by decide)
  rcases chooseTime_cases s x run with e | e | e <;> rw [e]
  · exact ⟨.refl _ s, fun _ => rfl, rfl⟩
  · exact ⟨.wr s _ _ (by decide), fun y => oport_wr .., htmis ..⟩
  · obtain ⟨-, -, -, hedge, hport⟩ := timeFrom_effect s x h
    refine ⟨hedge, hport, ?_⟩
    rw [timeFrom, rd_info, rd_bump_other _ _ _ (by decide), htmis]

/-- With no port in use the preferred one is taken. -/
theorem chooseTime_preferred (s : State) (x run : Nat) (h : rd s F.ORL_STATUS_tsrc = 0) (hx : x = prefPort s) :
    chooseTime s x run = wr s F.ORL_STATUS_tsrc (x + 1) := if_pos (by simp [h, hx])

/-- With no port in use and the preferred one not UP the other one is taken. -/
theorem chooseTime_other (s : State) (x run : Nat) (h : rd s F.ORL_STATUS_tsrc = 0) (hx : x ≠ prefPort s) (hup : portUp s (prefPort s) = false) :
    chooseTime s x run = timeFrom s x := by
  unfold chooseTime
  rw [if_neg (by simp [hx]), if_pos (by simp [h, hup])]

/-! A usable beacon: the time it gives -/

/-- Registers that the time of a beacon can write. -/
def beaconRegs : List Nat := F.ORL_STATUS_pic_mis.off :: F.EVT_ALARM_alarm.off :: tbRegs

/-- What the time of a beacon can change: of ORL.STATUS the flag of a wrong picture number only. -/
structure BeaconTime (s t : State) : Prop where
  edge : Edge beaconRegs s t
  status : ∀ f : Fld, f.lo + f.w ≤ F.ORL_STATUS_pic_mis.lo → f.off = F.ORL_STATUS_pic_mis.off → rd t f = rd s f

theorem BeaconTime.refl (s : State) : BeaconTime s s := ⟨.refl _ s, fun _ _ _ => rfl⟩

theorem BeaconTime.trans {s t u : State} (h : BeaconTime s t) (h' : BeaconTime t u) : BeaconTime s u :=
  ⟨h.edge.trans h'.edge, fun f hf ho => (h'.status f hf ho).trans (h.status f hf ho)⟩

/-- A change that leaves ORL.STATUS alone. -/
theorem BeaconTime.of_edge {offs : List Nat} {s t : State} (h : Edge offs s t) (hs : ∀ o ∈ offs, o ∈ beaconRegs)
    (hn : F.ORL_STATUS_pic_mis.off ∉ offs) : BeaconTime s t :=
  ⟨h.mono hs, fun f _ ho => h.rd f (by rw [ho]; exact hn)⟩

theorem BeaconTime.pic_mis (s : State) (b : Bool) : BeaconTime s (wrB s F.ORL_STATUS_pic_mis b) :=
  ⟨.wrB s _ b (by decide), fun f hf _ => rd_wr_disjoint s _ f _ (by decide) (.inl hf)⟩

theorem Edge.errorRec {offs : List Nat} (s : State) (b i : Nat) (f : Fld) (q : List (Nat × Nat)) : Edge offs s (errorRec s b i f q) :=
  ⟨rfl, fun _ _ => rfl, fun _ h => (mem_insRec _ _ _).2 (.inr h)⟩

theorem beaconPicture_time (s : State) (e phase n : Nat) : BeaconTime s (beaconPicture s e phase n) := by
  unfold beaconPicture
  extract_lets tb x u
  have hu : BeaconTime s u := .of_edge (offs := []) (.of_time rfl rfl rfl) (by simp) (by simp)
  clear_value u
  refine hu.trans ?_
  split
  · exact .refl u
  · split
    · split
      · exact .pic_mis u false
      · exact (BeaconTime.pic_mis u true).trans <| (BeaconTime.of_edge (offs := []) (.errorRec ..) (by simp) (by simp)).trans
          (.of_edge (alarmSet_edge ..) (by decide) (by decide))
    · exact .refl u

theorem takeTime_time (s : State) (x : Nat) (e : Int) (phase n : Nat) : BeaconTime s (takeTime s x e phase n) := by
  unfold takeTime
  split
  · exact (beaconPicture_time ..).trans <| (BeaconTime.of_edge (beaconEdge_edge ..) (by decide) (by decide)).trans
      (.of_edge (beaconNumbers_edge _) (by decide) (by decide))
  · exact .refl s

/-- A usable beacon on a worker (R363 to R365). -/
theorem beaconUsed_effect (s : State) (x : Nat) (f : TxFrame) (stamp : Nat) (hx : x < 2) :
    rd (beaconUsed s x f stamp) F.ORL_STATUS_tmis = 0 ∧ (oport (beaconUsed s x f stamp) x).lastBcn = some s.tick ∧
    rd (beaconUsed s x f stamp) (F.ORL_PORT_CNT_bcn x) = counted s (F.ORL_PORT_CNT_bcn x) ∧
    rd (beaconUsed s x f stamp) (F.ORL_PORT_STAT_hops x) = f.hops % 256 ∧
    (rd s F.ORL_STATUS_tsrc = 0 → x = prefPort s → rd (beaconUsed s x f stamp) F.ORL_STATUS_tsrc = x + 1) ∧
    (rd s F.ORL_STATUS_tsrc = 0 → x ≠ prefPort s → portUp s (prefPort s) = false → rd (beaconUsed s x f stamp) F.ORL_STATUS_tsrc = x + 1 ∧
      rd (beaconUsed s x f stamp) F.ORL_CNT_MISC_switch = counted s F.ORL_CNT_MISC_switch ∧
      posted (beaconUsed s x f stamp) clsInfo blkORL x F.ORL_STATUS_tsrc []) := by
  obtain ⟨htmis, hlast, hbcn, hhops, htsrc, hswitch, hpref, hup⟩ := beaconCounted_counted s x f stamp hx
  have hpref2 : prefPort s < 2 := by unfold prefPort; split <;> decide
  unfold beaconUsed
  generalize beaconInstant (wrB s F.ORL_STATUS_tmis false) x stamp f.pay = e
  generalize beaconRun (wrB s F.ORL_STATUS_tmis false) x (leAt f.pay 12 4) (leAt f.pay 20 1) = run
  generalize beaconCounted s x f stamp = c at *
  obtain ⟨hedge, hport, hmis⟩ := chooseTime_edge c x run hx
  obtain ⟨htime, hstatus⟩ := takeTime_time (chooseTime c x run) x e (leAt f.pay 8 4) (leAt f.pay 0 8)
  have hcnt : (F.ORL_PORT_CNT_bcn x).off ∉ beaconRegs ∧ (F.ORL_PORT_CNT_bcn x).off ∉ [F.ORL_STATUS_tsrc.off, F.ORL_CNT_MISC_switch.off] := by
    have : x = 0 ∨ x = 1 := by omega
    rcases this with rfl | rfl <;> exact ⟨by decide, by decide⟩
  have hstat : (F.ORL_PORT_STAT_hops x).off ∉ beaconRegs ∧ (F.ORL_PORT_STAT_hops x).off ∉ [F.ORL_STATUS_tsrc.off, F.ORL_CNT_MISC_switch.off] := by
    have : x = 0 ∨ x = 1 := by omega
    rcases this with rfl | rfl <;> exact ⟨by decide, by decide⟩
  have hsrc : rd (takeTime (chooseTime c x run) x e (leAt f.pay 8 4) (leAt f.pay 0 8)) F.ORL_STATUS_tsrc = rd (chooseTime c x run) F.ORL_STATUS_tsrc :=
    hstatus _ (by decide) rfl
  refine ⟨?_, ?_, ?_, ?_, fun h hp => ?_, fun h hp hdown => ?_⟩
  · rw [hstatus F.ORL_STATUS_tmis (by decide) rfl, hmis, htmis]
  · rw [oport, htime.time.orl, ← oport, hport, hlast]
  · rw [htime.rd _ hcnt.1, hedge.rd _ hcnt.2, hbcn]
  · rw [htime.rd _ hstat.1, hedge.rd _ hstat.2, hhops]
  · rw [hsrc, chooseTime_preferred c x run (htsrc.trans h) (hp.trans hpref.symm), rd_wr_same _ F.ORL_STATUS_tsrc _ (by decide)]
    exact Nat.mod_eq_of_lt (by show x + 1 < 4; omega)
  · have hchoose := chooseTime_other c x run (htsrc.trans h) (by rw [hpref]; exact hp) (by rw [hpref, hup _ hpref2]; exact hdown)
    obtain ⟨h1, h2, h3, -, -⟩ := timeFrom_effect c x hx
    refine ⟨?_, ?_, ?_⟩
    · rw [hsrc, hchoose, h1]
    · rw [htime.rd _ (by decide), hchoose, h2]
      exact counted_congr _ hswitch
    · refine htime.posted ?_
      rw [hchoose]
      exact h3

/-! The end of a timing port's silence (R365) -/

/-- The clock stands where the port in use has been silent for 2 P / bdiv, while it is UP. -/
def silenceEnd (s : State) (x : Nat) : State :=
  match (oport s x).lastBcn with
  | some b => if portUp s x then reach s (b + 2 * picPeriod s / max (rd s F.TMB_REF_RATIO_ref_div) 1) else s
  | none => s

/-- A port is silent as the timing port's limit tells it. -/
def silent (s m : State) (y : Nat) : Bool :=
  match (oport m y).lastBcn with
  | some t => decide (t + 2 * picPeriod s / max (rd s F.TMB_REF_RATIO_ref_div) 1 ≤ m.tick)
  | none => true

theorem timingTimeout_eq (s : State) (hw : isWorker s = true) (hr : isRing s = true) : timingTimeout s =
    if (!portUp (silenceEnd s (timePort s)) (timePort s) || silent s (silenceEnd s (timePort s)) (timePort s)) &&
        !silent s (silenceEnd s (timePort s)) (1 - timePort s) then
      timeFrom (silenceEnd s (timePort s)) (1 - timePort s)
    else silenceEnd s (timePort s) := by
  unfold timingTimeout
  rw [hw, hr]
  rfl

theorem silenceEnd_frame (s : State) (x : Nat) : silenceEnd s x = { s with tick := (silenceEnd s x).tick } := by
  unfold silenceEnd
  split
  · split <;> rfl
  · rfl

theorem reg_silenceEnd (s : State) (x : Nat) : (silenceEnd s x).reg = s.reg := by rw [silenceEnd_frame]

theorem silent_iff (s m : State) (h : m.reg = s.reg) (y : Nat) : silent s m y = true ↔ noBeacon m y := by
  unfold silent noBeacon picPeriod
  rw [rd_congr h, rd_congr h]
  cases (oport m y).lastBcn with
  | none => simp
  | some t => simp

theorem timePort_lt (s : State) : timePort s < 2 := by
  unfold timePort prefPort
  split
  · decide
  · decide
  · split <;> decide

end Sys2Proof.Machine
end

section
namespace Sys2Proof.Machine

/-- The port in use is given up for the other one, which is heard. -/
theorem timingTimeout_switches {s : State} (hw : isWorker s = true) (hr : isRing s = true)
    (hq : portUp s (timePort s) = false ∨ noBeacon (silenceEnd s (timePort s)) (timePort s))
    (hn : ¬noBeacon (silenceEnd s (timePort s)) (1 - timePort s)) :
    timingTimeout s = timeFrom (silenceEnd s (timePort s)) (1 - timePort s) := by
  have hreg := reg_silenceEnd s (timePort s)
  have hup : portUp (silenceEnd s (timePort s)) (timePort s) = portUp s (timePort s) := by
    rw [portUp, portState, rd_congr hreg, ← portState, ← portUp]
  rw [timingTimeout_eq s hw hr, hup, if_pos]
  rw [← silent_iff s _ hreg] at hq hn
  simpa using And.intro hq hn

/-- Else it stays. -/
theorem timingTimeout_stays {s : State} (hw : isWorker s = true) (hr : isRing s = true)
    (hq : ¬(portUp s (timePort s) = false ∨ noBeacon (silenceEnd s (timePort s)) (timePort s)) ∨
      noBeacon (silenceEnd s (timePort s)) (1 - timePort s)) :
    timingTimeout s = silenceEnd s (timePort s) := by
  have hreg := reg_silenceEnd s (timePort s)
  have hup : portUp (silenceEnd s (timePort s)) (timePort s) = portUp s (timePort s) := by
    rw [portUp, portState, rd_congr hreg, ← portState, ← portUp]
  rw [timingTimeout_eq s hw hr, hup, if_neg]
  rw [← silent_iff s _ hreg, ← silent_iff s _ hreg] at hq
  simp only [Bool.and_eq_true, Bool.or_eq_true, Bool.not_eq_true', not_and_or, Bool.not_eq_false]
  rcases hq with h | h
  · exact .inl (by simpa using h)
  · exact .inr h

theorem tmb_bump (s : State) (f : Fld) : (bump s f).tmb = s.tmb := rfl
theorem tmb_timeFrom (s : State) (x : Nat) : (timeFrom s x).tmb = s.tmb := by rw [timeFrom, tmb_info, tmb_bump, wr_tmb]

/-- The change of the timing port, from where the silence ended (R365). -/
theorem timePort_change (s : State) {x : Nat} (hx : x < 2) :
    (timeFrom (silenceEnd s x) (1 - x)).tick = (silenceEnd s x).tick ∧ rd (timeFrom (silenceEnd s x) (1 - x)) F.ORL_STATUS_tsrc = 2 - x ∧
    rd (timeFrom (silenceEnd s x) (1 - x)) F.ORL_CNT_MISC_switch = counted s F.ORL_CNT_MISC_switch ∧
    posted (timeFrom (silenceEnd s x) (1 - x)) clsInfo blkORL (1 - x) F.ORL_STATUS_tsrc [] ∧
    (timeFrom (silenceEnd s x) (1 - x)).tmb = s.tmb ∧
    regsKept s (timeFrom (silenceEnd s x) (1 - x)) [F.ORL_STATUS_tsrc.off, F.ORL_CNT_MISC_switch.off] := by
  have htmb : (silenceEnd s x).tmb = s.tmb := by rw [silenceEnd_frame]
  have hreg := reg_silenceEnd s x
  generalize silenceEnd s x = m at *
  obtain ⟨hsrc, hswitch, hpost, hedge, -⟩ := timeFrom_effect m (1 - x) (by omega)
  refine ⟨hedge.time.tick, by rw [hsrc]; omega, by rw [hswitch]; exact counted_congr _ (rd_congr hreg _), hpost, ?_,
    fun o ho => (hedge.regs o ho).trans (rdW_congr hreg o)⟩
  rw [← htmb, tmb_timeFrom]

/-- A delay frame is for another device, too late, or answers another request. -/
theorem dlyRspRx_ignored {s : State} {x : Nat} {bs : List Byte} (stamp : Nat) (h : heard s x 2 bs)
    (hi : frameMine s (parseFrame bs) = false ∨ (oport s x).t1 ≠ some (leAt (parseFrame bs).pay 0 8) ∨
      (oport s x).dlyAt + Config.tickMs < s.tick) : dlyRspRx s x bs stamp = s := by
  rw [dlyRspRx_eq stamp h]
  rcases hi with h | h | h
  · rw [h]; rfl
  · split
    · exact if_pos (by simp [h])
    · rfl
  · split
    · exact if_pos (by simp [h])
    · rfl

theorem dlyRspRx_taken {s : State} {x : Nat} {bs : List Byte} (stamp : Nat) (h : heard s x 2 bs) (hm : frameMine s (parseFrame bs) = true)
    (ht : (oport s x).t1 = some (leAt (parseFrame bs).pay 0 8)) (hl : s.tick ≤ (oport s x).dlyAt + Config.tickMs) :
    dlyRspRx s x bs stamp = noteDelay s x (dlyValue (parseFrame bs).pay stamp) := by
  rw [dlyRspRx_eq stamp h, hm, if_pos rfl, if_neg (by simp [ht, hl])]

theorem beaconRx_mismatch {s : State} {x : Nat} {bs : List Byte} (stamp : Nat) (h : heard s x 0 bs) (hm : frameMine s (parseFrame bs) = true)
    (hw : isWorker s = true) (hd : 16 ≤ (oport s x).delays.length)
    (hp : leAt (parseFrame bs).pay 12 4 ≠ picPeriod s ∨ rd s F.TMB_REF_RATIO_pic_mul ≠ 1 ∨
      rd s F.TMB_REF_RATIO_ref_div ≠ leAt (parseFrame bs).pay 20 1) : beaconRx s x bs stamp = beaconMismatch s x := by
  have hdiff : beaconDiffers s (parseFrame bs).pay = true := by simpa [beaconDiffers, or_assoc] using hp
  rw [beaconRx_eq stamp h, hm, if_pos rfl, if_neg (by simp [hw, hd]), hdiff, if_pos rfl]

theorem beaconRx_used {s : State} {x : Nat} {bs : List Byte} (stamp : Nat) (h : heard s x 0 bs) (hm : frameMine s (parseFrame bs) = true)
    (hw : isWorker s = true) (hd : 16 ≤ (oport s x).delays.length) (hp : leAt (parseFrame bs).pay 12 4 = picPeriod s)
    (hmul : rd s F.TMB_REF_RATIO_pic_mul = 1) (hdiv : rd s F.TMB_REF_RATIO_ref_div = leAt (parseFrame bs).pay 20 1) :
    beaconRx s x bs stamp = beaconUsed s x (parseFrame bs) stamp := by
  have hdiff : beaconDiffers s (parseFrame bs).pay = false := by simp [beaconDiffers, hp, hmul, hdiv]
  rw [beaconRx_eq stamp h, hm, if_pos rfl, if_neg (by simp [hw, hd]), hdiff, if_neg (by decide)]

theorem beaconRx_ignored {s : State} {x : Nat} {bs : List Byte} (stamp : Nat) (h : heard s x 0 bs)
    (hi : isWorker s = false ∨ (oport s x).delays.length < 16) : beaconRx s x bs stamp = s := by
  rw [beaconRx_eq stamp h]
  split
  · exact if_pos (by simpa using hi)
  · rfl

/-- Settles O43, an event of the link's time at a time. -/
theorem orsalDelaysAndBeacons : Obligations.OrsalDelaysAndBeacons := by
  unfold Obligations.OrsalDelaysAndBeacons
  refine ⟨fun s x h => ?_, fun s x h => congrArg Host.Outcome.next (delayTimer_down s _ h), fun s x bs stamp h => ⟨fun hm hi => ?_, fun hm => ?_⟩,
    fun s x bs pay stamp h hpay => ⟨fun hm ht hl => ?_, fun hi => ?_⟩, fun s x a h => ?_,
    fun s x h => congrArg Host.Outcome.next (dlyTimeout_none h), fun s n k inst hm hn hp hk hidx hinst => ?_,
    fun s h => congrArg Host.Outcome.next (beaconEntry_idle h),
    fun s x bs pay stamp h hpay hm => ⟨fun hw hd hp => ?_, fun hw hd hp hmul hdiv => ?_, fun hi => ?_⟩,
    fun s m x hw hr hx hmatch => ⟨fun hq hn => ?_, fun hq => ?_⟩⟩
  · obtain ⟨hreg, hmem, htick⟩ := (delayTimer_eq s (portNo x) h ▸ sendOrl_only ..).after_reach
    exact ⟨_, rfl, hreg, hmem, htick, fun hi => delayTimer_request s (portNo x) hi⟩
  · obtain ⟨k, hk, hsend⟩ := dlyRsp_leaves (parseFrame bs).pay stamp hi
    have hx : exec (.dlyReqRx x bs stamp) s = .next (sendOrl s (portNo x) (dlyRspFrame s (portNo x) (parseFrame bs).pay stamp)) :=
      congrArg Host.Outcome.next ((dlyReqRx_eq stamp h).trans (if_pos hm))
    exact ⟨_, k, hx, hk, (sendOrl_only ..).reg, (sendOrl_only ..).memKept, hsend⟩
  · exact congrArg Host.Outcome.next ((dlyReqRx_eq stamp h).trans (if_neg (by simp [hm])))
  · subst hpay
    obtain ⟨ht1, hmem, hdelays, hregs, hshown⟩ := noteDelay_effect s (portNo x) (dlyValue (parseFrame bs).pay stamp)
    exact ⟨_, congrArg Host.Outcome.next (dlyRspRx_taken stamp h hm ht hl), ht1, hmem, hdelays, hregs, hshown⟩
  · subst hpay
    exact congrArg Host.Outcome.next (dlyRspRx_ignored stamp h hi)
  · exact ⟨_, congrArg Host.Outcome.next (dlyTimeout_some h), rfl, oport_setOPort .., rfl, rfl, rfl, rfl, rfl, rfl, rfl⟩
  · obtain ⟨htick, hat, hreg, hmem, hsend⟩ := beaconEntry_effect hm hn hp hk hidx hinst
    exact ⟨_, rfl, htick, hat, hreg, hmem, hsend⟩
  · subst hpay
    exact ⟨_, congrArg Host.Outcome.next (beaconRx_mismatch stamp h hm hw hd hp), beaconMismatch_effect s (portNo x)⟩
  · subst hpay
    exact ⟨_, congrArg Host.Outcome.next (beaconRx_used stamp h hm hw hd hp hmul hdiv),
      beaconUsed_effect s (portNo x) (parseFrame bs) stamp (portNo_lt x)⟩
  · exact congrArg Host.Outcome.next (beaconRx_ignored stamp h hi)
  · have hm : m = silenceEnd s x := hmatch
    subst hm hx
    exact ⟨_, congrArg Host.Outcome.next (timingTimeout_switches hw hr hq hn), timePort_change s (timePort_lt s)⟩
  · have hm : m = silenceEnd s x := hmatch
    subst hm hx
    exact congrArg Host.Outcome.next (timingTimeout_stays hw hr hq)

end Sys2Proof.Machine
end

section
namespace Sys2Proof.Machine

/-! What a picture boundary leaves of the time base (R32, R49): changes that no boundary's own values depend on -/

/-- The clock, the time base and the commits stand, with the registers at `offs`, and every record that waited still waits. -/
def Calm (offs : List Nat) (s t : State) : Prop :=
  t.tick = s.tick ∧ t.tmb = s.tmb ∧ t.scn = s.scn ∧ (∀ o ∈ offs, rdW t o = rdW s o) ∧ ∀ r ∈ s.evt.posted, r ∈ t.evt.posted

/-- The registers of the time base that a boundary depends on. -/
def tmbRegs : List Nat := [F.TMB_STATUS_state.off, F.TMB_PIC_PERIOD_ticks.off, F.TMB_REF_RATIO.off, F.TMB_REF_CFG.off, F.TMB_REF_OFFSET_ticks.off]

/-- These and the two that show the bank in use. -/
def calmRegs : List Nat := F.TMB_CAL_STAT_bank.off :: F.EXS_STATUS_late.off :: tmbRegs

theorem not_mem_calmRegs {o : Nat} (h : 0x30004 < o) : o ∉ calmRegs := fun hm => by
  have : ∀ a ∈ calmRegs, a ≤ 0x30004 := by decide
  exact absurd (this o hm) (by omega)

namespace Calm

variable {offs offs' : List Nat} {s t u : State}

theorem refl (offs : List Nat) (s : State) : Calm offs s s := ⟨rfl, rfl, rfl, fun _ _ => rfl, fun _ h => h⟩

theorem trans (h : Calm offs s t) (h' : Calm offs t u) : Calm offs s u := by
  obtain ⟨h1, h2, h3, h4, h5⟩ := h
  obtain ⟨g1, g2, g3, g4, g5⟩ := h'
  exact ⟨g1.trans h1, g2.trans h2, g3.trans h3, fun o ho => (g4 o ho).trans (h4 o ho), fun r hr => g5 r (h5 r hr)⟩

theorem mono (h : Calm offs' s t) (hs : ∀ o ∈ offs, o ∈ offs') : Calm offs s t :=
  ⟨h.1, h.2.1, h.2.2.1, fun o ho => h.2.2.2.1 o (hs o ho), h.2.2.2.2⟩

/-- A change of any other block. -/
theorem outside (s : State) (shadow : SMap Word) (gddr lst flash nvm : SMap Byte) (exs : Exs) (blq : Blq) (ing : Ing) (cdc : Cdc) (ppx : Ppx) (age : Age)
    (drv : Drv) (psq : Psq) (orl : Orl) (mem : MemSt) (nv : Nvm) (host : HostIf) (sec : Sec) (pwr : Pwr) (boot : Boot) (now : TickLog) (fresh : Nat)
    (pending : List Instr) : Calm offs s { s with
      shadow := shadow, gddr := gddr, lst := lst, flash := flash, nvm := nvm, exs := exs, blq := blq, ing := ing, cdc := cdc, ppx := ppx, age := age
      drv := drv, psq := psq, orl := orl, mem := mem, nv := nv, host := host, sec := sec, pwr := pwr, boot := boot, now := now, fresh := fresh
      pending := pending } :=
  ⟨rfl, rfl, rfl, fun _ _ => rfl, fun _ h => h⟩

theorem wr (s : State) (f : Fld) (x : Nat) (h : f.off ∉ offs) : Calm offs s (wr s f x) :=
  ⟨rfl, rfl, rfl, fun o ho => by rw [rdW_wr, if_neg fun e => h (by rw [← e]; exact ho)], fun _ h => h⟩

theorem wrB (s : State) (f : Fld) (b : Bool) (h : f.off ∉ offs) : Calm offs s (wrB s f b) := wr s f _ h
theorem setBitOf (s : State) (f : Fld) (i : Nat) (b : Bool) (h : f.off ∉ offs) : Calm offs s (setBitOf s f i b) := wr s f _ h
theorem bump (s : State) (f : Fld) (h : f.off ∉ offs) : Calm offs s (bump s f) := ⟨rfl, rfl, rfl, (wr s f _ h).2.2.2.1, fun _ h => h⟩

theorem post (s : State) (c b i : Nat) (f : Fld) (q : List (Nat × Nat)) : Calm offs s (post s c b i f q) :=
  ⟨rfl, rfl, rfl, fun _ _ => rfl, fun _ h => (mem_insRec _ _ _).2 (.inr h)⟩
theorem info (s : State) (b i : Nat) (f : Fld) (q : List (Nat × Nat)) : Calm offs s (info s b i f q) := post ..
theorem warning (s : State) (b i : Nat) (f : Fld) (q : List (Nat × Nat)) : Calm offs s (warning s b i f q) := post ..
theorem errorRec (s : State) (b i : Nat) (f : Fld) (q : List (Nat × Nat)) : Calm offs s (errorRec s b i f q) := post ..

theorem ite {c : Prop} [Decidable c] (h : c → Calm offs s t) : Calm offs s (if c then t else s) := by
  split
  · exact h ‹c›
  · exact refl offs s

theorem ite_both {c : Prop} [Decidable c] (h : Calm offs s t) (h' : Calm offs s u) : Calm offs s (if c then t else u) := by
  split
  · exact h
  · exact h'

theorem ite_else {c : Prop} [Decidable c] (h : Calm offs s t) : Calm offs s (if c then s else t) := ite_both (refl offs s) h

theorem foldl {α : Type} {f : State → α → State} (h : ∀ u a, Calm offs u (f u a)) (l : List α) (s : State) : Calm offs s (l.foldl f s) := by
  induction l generalizing s with
  | nil => exact refl offs s
  | cons a l ih => exact (h s a).trans (ih _)

theorem alarmSet (s : State) (b : Nat) (h : F.EVT_ALARM_alarm.off ∉ offs) : Calm offs s (alarmSet s b) := by
  have hframe := alarmSet_frame s b
  refine ⟨by rw [hframe], by rw [hframe], by rw [hframe], fun o ho => rdW_alarmSet_other s b o fun e => h (e ▸ ho), ?_⟩
  exact (alarmSet_edge s b).posts

theorem rd (h : Calm offs s t) (f : Fld) (hf : f.off ∈ offs) : rd t f = rd s f := by rw [Machine.rd, h.2.2.2.1 _ hf, Machine.rd]

theorem posted (h : Calm offs s t) {c b i : Nat} {f : Fld} {q : List (Nat × Nat)} (hp : posted s c b i f q) : posted t c b i f q := by
  obtain ⟨r, hr, h'⟩ := hp
  exact ⟨r, h.2.2.2.2 r hr, h'⟩

end Calm

/-! Codec lanes and checkpoints -/

theorem assignCmp_calm {offs : List Nat} (n : Nat) (s : State) : Calm offs s (assignCmp n s) := by
  induction n generalizing s with
  | zero => exact .refl offs s
  | succ n ih =>
    simp only [assignCmp]
    split
    · exact .refl offs s
    · split
      · exact .refl offs s
      · refine Calm.trans ?_ (ih _)
        exact .outside ..

theorem assignDec_calm {offs : List Nat} (n : Nat) (s : State) : Calm offs s (assignDec n s) := by
  induction n generalizing s with
  | zero => exact .refl offs s
  | succ n ih =>
    simp only [assignDec]
    split
    · exact .refl offs s
    · split
      · exact .refl offs s
      · refine Calm.trans ?_ (ih _)
        split <;> exact .outside ..

theorem laneStatus_calm (s : State) : Calm calmRegs s (laneStatus s) := (Calm.wr _ _ _ (by decide)).trans (.wr _ _ _ (by decide))

theorem assignLanes_calm (s : State) : Calm calmRegs s (assignLanes s) :=
  (assignDec_calm 16 s).trans ((assignCmp_calm 8 _).trans (laneStatus_calm _))

theorem askCmp_calm (s : State) (rs : List CmpReq) : Calm calmRegs s (askCmp s rs) := by
  refine Calm.trans ?_ (assignLanes_calm _)
  exact .outside ..

theorem memErr_calm (s : State) (kind cls a : Nat) : Calm calmRegs s (memErr s kind cls a) :=
  (Calm.wr _ _ _ (by decide)).trans <| (Calm.wr _ _ _ (by decide)).trans <| (Calm.wr _ _ _ (by decide)).trans <|
    (Calm.wr _ _ _ (by decide)).trans (.wr _ _ _ (by decide))

theorem memReach_calm (s : State) (cls a n : Nat) : Calm calmRegs s (memReach s cls a n) :=
  .ite_else ((memErr_calm ..).trans (.errorRec ..))

theorem ckptAsk_calm (s : State) : Calm calmRegs s (ckptAsk s) := by
  unfold ckptAsk
  split
  · exact .refl _ s
  · dsimp only
    split
    · exact .refl _ s
    · split
      · refine Calm.trans ?_ (memReach_calm ..)
        exact .outside ..
      · refine Calm.trans ?_ (askCmp_calm ..)
        exact .outside ..

theorem ageStatus_calm (s : State) : Calm calmRegs s (ageStatus s) :=
  (Calm.wrB _ _ _ (by decide)).trans <| (Calm.wrB _ _ _ (by decide)).trans (.wrB _ _ _ (by decide))

theorem emitStatus_calm (s : State) : Calm calmRegs s (emitStatus s) := .wr _ _ _ (by decide)

/-- A checkpoint's record in the ageing engine, once its slot is erased. -/
theorem ckptStart_calm (s : State) (kind : Nat) : Calm calmRegs s (ckptStart s kind) := by
  unfold ckptStart
  dsimp only
  refine Calm.trans ?_ (ageStatus_calm _)
  refine Calm.trans ?_ (ckptAsk_calm _)
  refine Calm.trans ?_ (emitStatus_calm _)
  exact .outside ..

theorem ckptTrigger_calm (s : State) (kind : Nat) : Calm calmRegs s (ckptTrigger s kind) := by
  unfold ckptTrigger
  split
  · exact ckptStart_calm ..
  · refine Calm.trans ?_ (ageStatus_calm _)
    exact .outside ..

theorem ckptShutdown_calm (s : State) : Calm calmRegs s (ckptShutdown s) := by
  refine Calm.trans ?_ (ckptTrigger_calm _ _)
  exact .outside ..

/-! Panel sequencing at a boundary (R323 to R337) -/

theorem outputsOn_calm (s : State) : Calm calmRegs s (outputsOn s) := .outside ..

theorem outputsOff_calm (s : State) : Calm calmRegs s (outputsOff s) := by
  unfold outputsOff
  split
  · exact .outside ..
  · exact .refl _ s

theorem psqTo_calm (s : State) (st : Nat) : Calm calmRegs s (psqTo s st) := by
  unfold psqTo
  dsimp only
  refine Calm.trans ((Calm.wr s F.PSQ_STATUS_state st (by decide)).trans (.wrB _ F.PSQ_STATUS_emit (st = psON) (by decide))) ?_
  exact .ite_both (outputsOn_calm _) (.ite fun _ => outputsOff_calm _)

theorem emissionOn_calm (s : State) : Calm calmRegs s (emissionOn s) := .outside ..

theorem enterOn_calm (s : State) : Calm calmRegs s (enterOn s) := by
  have hpsq : Calm calmRegs s { s with psq := { s.psq with bOn := some s.tick, onCnt := rd s F.PSQ_CNT_ON_count } } := .outside ..
  exact hpsq.trans <| (psqTo_calm _ _).trans <| (emissionOn_calm _).trans <| (Calm.bump _ _ (by decide)).trans (.info ..)

theorem emissionOff_calm (s : State) : Calm calmRegs s (emissionOff s) := by
  refine Calm.trans ?_ (emitStatus_calm _)
  exact .outside ..

theorem strobesOff_calm (s : State) : Calm calmRegs s (strobesOff s) := by
  unfold strobesOff
  refine .ite_else ?_
  exact .outside ..

theorem cutEmission_calm (s : State) (t : Nat) : Calm calmRegs s (cutEmission s t) := .outside ..

theorem blackOffLit_calm (s : State) : Calm calmRegs s (blackOffLit s) := by
  have hdark := (emissionOff_calm s).trans <| (cutEmission_calm _ s.tick).trans (strobesOff_calm _)
  unfold blackOffLit
  refine Calm.trans ?_ (psqTo_calm _ _)
  exact hdark.trans (.outside ..)

theorem tableSwing_calm (s : State) : Calm calmRegs s (tableSwing s) := by
  unfold tableSwing
  split
  · exact .outside ..
  · exact .refl _ s

theorem sendCfg_calm (s : State) : Calm calmRegs s (sendCfg s) := by
  unfold sendCfg
  refine .ite_both (.outside ..) ?_
  refine Calm.trans ?_ (tableSwing_calm _)
  refine Calm.trans ?_ (.wrB _ _ _ (by decide))
  exact .outside ..

theorem cfgSendDone_calm (s : State) : Calm calmRegs s (cfgSendDone s) := by
  refine .ite_else (Calm.trans (.wrB s F.DRV_STATUS_cfg_busy false (by decide)) (.ite fun _ => ?_))
  refine Calm.trans ?_ (sendCfg_calm _)
  exact .outside ..

theorem setUp_calm (s : State) (g : Nat) (b : Bool) : Calm calmRegs s (setUp s g b) :=
  (Calm.wrB s (F.DRV_GRP_STAT_up g) b (not_mem_calmRegs (by show 0x30004 < 0xA0020 + 4 * g; omega))).trans (.setBitOf _ _ _ _ (by decide))

theorem setGrp_calm (s : State) (g : Nat) (x : Grp) : Calm calmRegs s (setGrp s g x) := .outside ..
theorem trainStatus_calm (s : State) : Calm calmRegs s (trainStatus s) := .wrB _ _ _ (by decide)

/-- Every group's link is down. -/
def groupsDown (s : State) : State := (List.range 24).foldl (fun s g => setUp (setGrp s g Grp.off) g false) s
/-- Nothing is left to send. -/
def emptyLink (s : State) : State := { s with drv := { s.drv with slotAt := none, sent := [], lag := [], reqs := [], queue := [], held := false } }

theorem linkStop_eq (s : State) : linkStop s = cfgSendDone (trainStatus (wrB (emptyLink (groupsDown s)) F.DRV_STATUS_re_pend false)) := rfl

theorem linkStop_calm (s : State) : Calm calmRegs s (linkStop s) := by
  have hdown : Calm calmRegs s (groupsDown s) := Calm.foldl (fun u g => (setGrp_calm u g _).trans (setUp_calm _ _ _)) _ s
  have hempty : ∀ u, Calm calmRegs u (emptyLink u) := fun u => .outside ..
  rw [linkStop_eq]
  exact hdown.trans <| (hempty _).trans <| (Calm.wrB _ _ _ (by decide)).trans <| (trainStatus_calm _).trans (cfgSendDone_calm _)

theorem psqEnd_calm (s : State) : Calm calmRegs s (psqEnd s) := by
  refine .ite_both ?_ (.ite_both (.wrB _ _ _ (by decide)) ?_)
  · refine Calm.trans ?_ (.alarmSet _ _ (by decide))
    exact (psqTo_calm s psFAULT).trans (.outside ..)
  · have hoff : Calm calmRegs s { psqTo s psOFF with psq.ckptWait := false } := (psqTo_calm s psOFF).trans (.outside ..)
    refine (hoff.trans (.wrB _ F.PSQ_STATUS_ckpt_wait false (by decide))).trans (.ite fun _ => ?_)
    refine Calm.trans ?_ (.wr _ F.PSQ_FAULT 0 (by decide))
    refine Calm.trans ?_ (.wrB _ F.PSQ_STATUS_re_pend false (by decide))
    exact .outside ..

theorem pmbSend_calm (s : State) : Calm calmRegs s (pmbSend s) := .outside ..

theorem railLow_calm (s : State) : Calm calmRegs s (railLow s) :=
  (Calm.setBitOf s F.PSQ_STATUS_rail_en (railOf s s.psq.k) false (by decide)).trans (.outside ..)

theorem railsNext_calm (s : State) : Calm calmRegs s (railsNext s) := by
  unfold railsNext
  split
  · refine Calm.trans ?_ (psqEnd_calm _)
    exact .outside ..
  · next k _ =>
    have hk : Calm calmRegs s
        { s with psq := { s.psq with k := Fin.ofNat 8 k, begun := maskSet s.psq.begun k false, watched := maskSet s.psq.watched k false } } := .outside ..
    exact hk.trans (.ite_both (pmbSend_calm _) (railLow_calm _))

theorem railsDown_calm (s : State) : Calm calmRegs s (railsDown s) := by
  have hstop : Calm calmRegs s { s with psq := { s.psq with stopAt := some s.tick, offReq := false } } := .outside ..
  exact hstop.trans <| (psqTo_calm _ _).trans <| (linkStop_calm _).trans (railsNext_calm _)

theorem blackOffCheck_calm (s : State) : Calm calmRegs s (blackOffCheck s) := .ite fun _ => railsDown_calm s

/-- A checkpoint asked for with the off request begins at the boundary. -/
def askedCkpt (s : State) : State :=
  if s.psq.ckptReq then ckptShutdown { s with psq := { s.psq with ckptReq := false, ckptWait := true } } else s

/-- What the boundary does in each state of the sequencer. -/
def psqStep (st : Nat) (s : State) : State :=
  if st = psBLACK then
    if rd s F.PSQ_BLACK_n_on ≤ s.psq.blackOn + blackEnding s then enterOn s else s
  else if st = psON && s.psq.offReq then blackOffCheck (blackOffLit s)
  else if st = psBLACK_OFF && s.psq.bOff.isNone then blackOffCheck { s with psq.bOff := some s.tick }
  else if st = psRAILS_DOWN && s.psq.phase = .none && !safeRunning s then psqEnd s
  else s

theorem psqBoundary_eq (s : State) : psqBoundary s = psqStep (psqState s) (askedCkpt s) := rfl

theorem psqBoundary_calm (s : State) : Calm calmRegs s (psqBoundary s) := by
  have hask : Calm calmRegs s (askedCkpt s) := .ite fun _ => by
    refine Calm.trans ?_ (ckptShutdown_calm _)
    exact .outside ..
  rw [psqBoundary_eq]
  refine hask.trans (.ite_both (.ite fun _ => enterOn_calm _) (.ite_both ?_ (.ite_both ?_ (.ite fun _ => psqEnd_calm _))))
  · exact (blackOffLit_calm _).trans (blackOffCheck_calm _)
  · refine Calm.trans ?_ (blackOffCheck_calm _)
    exact .outside ..

end Sys2Proof.Machine
end

section
namespace Sys2Proof.Machine

/-! Cameras, pulses and rows at a boundary -/

theorem camStat_not_calm (n : Nat) : (F.EXS_CAM_STAT_state n).off ∉ calmRegs :=
  not_mem_calmRegs (by show 0x30004 < 0x3011C + 64 * n; omega)

theorem setCam_calm {offs : List Nat} (s : State) (n : Nat) (c : Cam) : Calm offs s (setCam s n c) := .outside ..

theorem camTo_calm (s : State) (n st : Nat) : Calm calmRegs s (camTo s n st) :=
  .ite_else ((Calm.wr _ _ _ (camStat_not_calm n)).trans (.info ..))

theorem driftCheck_calm (s : State) (n : Nat) : Calm calmRegs s (driftCheck s n) := by
  have hflag : ∀ b, Calm calmRegs s (wrB s (F.EXS_CAM_STAT_unlocked n) b) := fun b => .wrB _ _ _ (camStat_not_calm n)
  rcases driftCheck_cases s n with h | h | h <;> rw [h]
  · exact .refl _ s
  · exact (hflag true).trans (.info ..)
  · exact hflag false

theorem camMode_calm (s : State) (n : Nat) : Calm calmRegs s (camMode s n) :=
  .ite_both (.ite fun _ => (setCam_calm ..).trans (camTo_calm ..))
    (.ite_else ((camTo_calm ..).trans (.wrB _ _ _ (camStat_not_calm n))))

theorem camBoundary_calm (s : State) (n : Nat) : Calm calmRegs s (camBoundary s n) := by
  unfold camBoundary
  dsimp only
  refine Calm.trans ?_ ((camMode_calm _ n).trans (.ite fun _ => driftCheck_calm _ n))
  exact .ite_both (setCam_calm ..) (setCam_calm ..)

theorem setPulses_calm {offs : List Nat} (s : State) (l : List EmPulse) : Calm offs s (setPulses s l) := .outside ..
theorem dropWarned_calm (s : State) : Calm calmRegs s (dropWarned s) := (Calm.bump _ _ (by decide)).trans (.warning ..)

theorem refreshPulses_calm (s : State) (p : Pass) : Calm calmRegs s (refreshPulses s p) := by
  obtain ⟨l, h | h⟩ := refreshPulses_cases s p <;> rw [h]
  · exact setPulses_calm ..
  · exact (setPulses_calm ..).trans (dropWarned_calm _)

theorem carryPass_calm (c s : State) (p : Pass) : Calm calmRegs s (carryPass c s p) := by
  obtain ⟨l, h | h⟩ := carryPass_cases c s p <;> rw [h]
  · exact setPulses_calm ..
  · exact (setPulses_calm ..).trans (dropWarned_calm _)

theorem carryOld_calm (s : State) (k : BuildCfg) (th : Nat) (new : List Pass) : Calm calmRegs s (carryOld s k th new) := by
  unfold carryOld
  dsimp only
  refine Calm.trans (.outside ..) (Calm.foldl (fun u p => .ite fun _ => refreshPulses_calm u p) _ _)

theorem addGuards_calm (s : State) (ws : List CamWin) : Calm calmRegs s (addGuards s ws) := Calm.foldl (fun _ _ => setCam_calm ..) ws s
theorem queueSense_calm (s : State) (q : Nat) (slots : List SenseSlot) : Calm calmRegs s (queueSense s q slots) := .outside ..
theorem repeatRows_calm (s : State) (k : BuildCfg) (slots : List SenseSlot) : Calm calmRegs s (repeatRows s k slots) := .outside ..

/-! A repeated bank (R51) -/

/-- The bank that is repeated is the active one no more: its passes are carried. -/
def carryBank (s : State) (o : Bank) : State := { s with exs := { s.exs with carried := s.exs.carried ++ o.passes, bank := none, next := none } }

theorem repeatBank_repeats (s : State) (o : Bank) (b : Nat) :
    (∃ n, (repeatBank s o b).exs.bank = some n) ∧ Calm calmRegs s (repeatBank s o b) := by
  have hcarry : Calm calmRegs s (carryBank s o) := .outside ..
  unfold repeatBank
  extract_lets k d x s1 x2 r ps slots s2 n s3
  have hs1 : s1 = carryBank s o := rfl
  clear_value s1
  subst hs1
  split
  · exact ⟨⟨_, rfl⟩, hcarry.trans (.outside ..)⟩
  · have hs2 : Calm calmRegs (carryBank s o) s2 := (carryOld_calm ..).trans (Calm.foldl (carryPass_calm _) _ _)
    clear_value s2
    have hs3 : Calm calmRegs s2 s3 := (queueSense_calm s2 (q0 s2) slots).trans ((repeatRows_calm _ k slots).trans (addGuards_calm _ _))
    clear_value s3
    exact ⟨⟨_, rfl⟩, hcarry.trans (hs2.trans (hs3.trans (.outside ..)))⟩

/-! The swap (R49, R90, R94) -/

/-- The registers of the time base and the flag of the bank in use. -/
def swapRegs : List Nat := F.TMB_CAL_STAT_bank.off :: tmbRegs

theorem houseShort_calm (s : State) (n a b : Nat) : Calm swapRegs s (houseShort s n a b) :=
  (Calm.wrB s F.EXS_STATUS_shortfall _ (by decide)).trans (.ite fun _ => (Calm.bump _ _ (by decide)).trans (.info ..))

theorem exs_wr (s : State) (f : Fld) (x : Nat) : (wr s f x).exs = s.exs := rfl
theorem exs_bump (s : State) (f : Fld) : (bump s f).exs = s.exs := rfl
theorem exs_info (s : State) (b i : Nat) (f : Fld) (q : List (Nat × Nat)) : (info s b i f q).exs = s.exs := rfl

theorem houseShort_exs (s : State) (n a b : Nat) : (houseShort s n a b).exs = s.exs := by
  unfold houseShort
  dsimp only
  split
  · rw [exs_info, exs_bump, wrB, exs_wr]
  · exact exs_wr ..

/-- The escapes of the period that ends are shown. -/
def showEscapes (s : State) : State := wr { s with exs.esc := 0 } F.EXS_STATUS_escape s.exs.esc

theorem periodEnd_cases (s : State) (old : Option Bank) (had : Bool) (b : Nat) :
    (∃ x n a c, periodEnd s old had b = houseShort (wr (showEscapes s) F.EXS_STATUS_conflict x) n a c) ∨
    periodEnd s old had b = wrB (wr (showEscapes s) F.EXS_STATUS_conflict 0) F.EXS_STATUS_shortfall false := by
  unfold periodEnd
  cases old with
  | some o => exact .inl ⟨_, _, _, _, rfl⟩
  | none =>
    cases had with
    | true => exact .inl ⟨_, _, _, _, if_pos rfl⟩
    | false => exact .inr (if_neg (by decide))

theorem showEscapes_calm (s : State) : Calm swapRegs s (showEscapes s) := by
  refine Calm.trans ?_ (.wr _ _ _ (by decide))
  exact .outside ..

theorem next_showEscapes (s : State) : (showEscapes s).exs.next = s.exs.next := by rw [showEscapes, exs_wr]

theorem periodEnd_calm (s : State) (old : Option Bank) (had : Bool) (b : Nat) :
    Calm swapRegs s (periodEnd s old had b) ∧ (periodEnd s old had b).exs.next = s.exs.next := by
  have hshow : ∀ x, Calm swapRegs s (wr (showEscapes s) F.EXS_STATUS_conflict x) := fun x => (showEscapes_calm s).trans (.wr _ _ _ (by decide))
  rcases periodEnd_cases s old had b with ⟨x, n, a, c, h⟩ | h <;> rw [h]
  · exact ⟨(hshow x).trans (houseShort_calm ..), by rw [houseShort_exs, exs_wr, next_showEscapes]⟩
  · exact ⟨(hshow 0).trans (.wrB _ _ _ (by decide)), by rw [wrB, exs_wr, exs_wr, next_showEscapes]⟩

theorem keepSlots_calm {offs : List Nat} (s : State) (o : Option Bank) : Calm offs s (keepSlots s o) ∧ (keepSlots s o).exs.next = s.exs.next := by
  cases o with
  | some o => exact ⟨.outside .., rfl⟩
  | none => exact ⟨.refl offs s, rfl⟩

theorem pruneExs_calm {offs : List Nat} (s : State) (b : Nat) : Calm offs s (pruneExs s b) ∧ (pruneExs s b).exs.next = s.exs.next :=
  ⟨.outside .., rfl⟩

/-- The period that ends has been accounted for. -/
def closePeriod (s : State) (b : Nat) (had : Bool) : State := pruneExs (keepSlots (periodEnd s s.exs.bank had b) s.exs.bank) b

theorem closePeriod_calm (s : State) (b : Nat) (had : Bool) :
    Calm swapRegs s (closePeriod s b had) ∧ (closePeriod s b had).exs.next = s.exs.next := by
  obtain ⟨h1, g1⟩ := periodEnd_calm s s.exs.bank had b
  obtain ⟨h2, g2⟩ := keepSlots_calm (offs := swapRegs) (periodEnd s s.exs.bank had b) s.exs.bank
  obtain ⟨h3, g3⟩ := pruneExs_calm (offs := swapRegs) (keepSlots (periodEnd s s.exs.bank had b) s.exs.bank) b
  exact ⟨h1.trans (h2.trans h3), g3.trans (g2.trans g1)⟩

theorem bankStatus_calm (s : State) (n : Bank) (late : Bool) : Calm tmbRegs s (bankStatus s n late) :=
  (Calm.wr _ _ _ (by decide)).trans <| (Calm.wr _ _ _ (by decide)).trans <| (Calm.wr _ _ _ (by decide)).trans <|
    (Calm.wr _ _ _ (by decide)).trans <| (Calm.wr _ _ _ (by decide)).trans (.wrB _ _ _ (by decide))

theorem late_bankStatus (s : State) (n : Bank) (late : Bool) : rd (bankStatus s n late) F.EXS_STATUS_late = if late then 1 else 0 :=
  rd_wrB_same _ F.EXS_STATUS_late late (by decide) (by decide)

/-- How full the bank is stands beside which bank it is. -/
theorem bank_bankStatus (s : State) (n : Bank) (late : Bool) : rd (bankStatus s n late) F.TMB_CAL_STAT_bank = rd s F.TMB_CAL_STAT_bank := by
  unfold bankStatus
  dsimp only
  rw [wrB, rd_wr_other _ _ _ _ (by decide), rd_wr_other _ _ _ _ (by decide), rd_wr_other _ _ _ _ (by decide), rd_wr_other _ _ _ _ (by decide),
    rd_wr_disjoint _ F.TMB_CAL_STAT_single_used F.TMB_CAL_STAT_bank _ (by decide) (by decide),
    rd_wr_disjoint _ F.TMB_CAL_STAT_seq_used F.TMB_CAL_STAT_bank _ (by decide) (by decide)]

theorem countLosses_calm (s : State) (n : Bank) : Calm calmRegs s (countLosses s n) :=
  Calm.foldl (fun u l => (Calm.bump u _ (not_mem_calmRegs (by show 0x30004 < 0x3012C + 64 * l.cam; omega))).trans <|
    (Calm.wr _ _ _ (not_mem_calmRegs (by show 0x30004 < 0x30130 + 64 * l.cam; omega))).trans (.warning ..)) n.losses s

theorem lateEvent_calm {offs : List Nat} (s : State) : Calm offs s (lateEvent s) := .info ..

/-- The next bank becomes the active one. -/
def takeBank (s : State) (old : Option Bank) (n : Bank) : State :=
  { s with exs := { s.exs with carried := s.exs.carried ++ (match old with | some o => o.passes | none => []), bank := some n, next := none } }
def flipBank (s : State) : State := wrB s F.TMB_CAL_STAT_bank (!on s F.TMB_CAL_STAT_bank)

theorem rd_flipBank (s : State) : rd (flipBank s) F.TMB_CAL_STAT_bank = if rd s F.TMB_CAL_STAT_bank = 0 then 1 else 0 := by
  rw [flipBank, rd_wrB_same _ F.TMB_CAL_STAT_bank _ (by decide) (by decide), on]
  by_cases h : rd s F.TMB_CAL_STAT_bank = 0 <;> simp [h]

/-- A completed bank takes over (R49). -/
theorem swapBanks_next (s : State) (b : Nat) (had : Bool) (n : Bank) (h : s.exs.next = some n) :
    ∃ m, swapBanks s b had = (true, countLosses (bankStatus (flipBank (takeBank (closePeriod s b had) s.exs.bank n)) m false) m) := by
  have hnext := (closePeriod_calm s b had).2.trans h
  unfold swapBanks
  dsimp only
  rw [show pruneExs (keepSlots (periodEnd s s.exs.bank had b) s.exs.bank) b = closePeriod s b had from rfl, hnext]
  exact ⟨_, rfl⟩

/-- With none completed the bank repeats (R51). -/
theorem swapBanks_repeat (s : State) (b : Nat) (had : Bool) (o : Bank) (h : s.exs.next = none) (ho : s.exs.bank = some o) :
    ∃ m, swapBanks s b had = (false, lateEvent (countLosses (bankStatus (repeatBank (closePeriod s b had) o b) m true) m)) := by
  have hnext := (closePeriod_calm s b had).2.trans h
  obtain ⟨⟨m, hm⟩, -⟩ := repeatBank_repeats (closePeriod s b had) o b
  refine ⟨m, ?_⟩
  unfold swapBanks
  dsimp only
  rw [show pruneExs (keepSlots (periodEnd s s.exs.bank had b) s.exs.bank) b = closePeriod s b had from rfl, hnext, ho]
  dsimp only
  rw [hm]

/-- Before the first bank a period with no pass opens. -/
theorem swapBanks_none (s : State) (b : Nat) (had : Bool) (h : s.exs.next = none) (ho : s.exs.bank = none) :
    swapBanks s b had =
      (true, lateEvent (bankStatus (closePeriod s b had) (emptyBank (closePeriod s b had) (buildSettings (closePeriod s b had) b)) false)) := by
  have hnext := (closePeriod_calm s b had).2.trans h
  unfold swapBanks
  dsimp only
  rw [show pruneExs (keepSlots (periodEnd s s.exs.bank had b) s.exs.bank) b = closePeriod s b had from rfl, hnext, ho]

/-- What the swap leaves: the time base, and what it shows of the bank in use (R49, R51). -/
theorem swapBanks_effect (s : State) (b : Nat) (had : Bool) :
    Calm tmbRegs s (swapBanks s b had).2 ∧
    (s.exs.next.isSome = true → (swapBanks s b had).1 = true ∧
      rd (swapBanks s b had).2 F.TMB_CAL_STAT_bank = (if rd s F.TMB_CAL_STAT_bank = 0 then 1 else 0) ∧ rd (swapBanks s b had).2 F.EXS_STATUS_late = 0) ∧
    (s.exs.next = none → s.exs.bank.isSome = true → rd (swapBanks s b had).2 F.EXS_STATUS_late = 1 ∧
      posted (swapBanks s b had).2 clsInfo blkEXS 0 F.EXS_STATUS_late []) := by
  have hclose := (closePeriod_calm s b had).1
  have hclose' : Calm tmbRegs s (closePeriod s b had) := hclose.mono (by decide)
  cases hn : s.exs.next with
  | some n =>
    obtain ⟨m, h⟩ := swapBanks_next s b had n hn
    have htake : Calm swapRegs s (takeBank (closePeriod s b had) s.exs.bank n) := hclose.trans (.outside ..)
    generalize takeBank (closePeriod s b had) s.exs.bank n = u at *
    have hflip : Calm tmbRegs u (flipBank u) := .wrB _ _ _ (by decide)
    have hloss := countLosses_calm (bankStatus (flipBank u) m false) m
    rw [h]
    refine ⟨(htake.mono (by decide)).trans (hflip.trans ((bankStatus_calm ..).trans (hloss.mono (by decide)))), fun _ => ⟨rfl, ?_, ?_⟩, fun h => by cases h⟩
    · rw [hloss.rd _ (by decide), bank_bankStatus, rd_flipBank, htake.rd _ (by decide)]
    · rw [hloss.rd _ (by decide), late_bankStatus]; rfl
  | none =>
    cases ho : s.exs.bank with
    | some o =>
      obtain ⟨m, h⟩ := swapBanks_repeat s b had o hn ho
      have hrep : Calm tmbRegs s (repeatBank (closePeriod s b had) o b) := hclose'.trans ((repeatBank_repeats _ o b).2.mono (by decide))
      generalize repeatBank (closePeriod s b had) o b = u at *
      have hloss := countLosses_calm (bankStatus u m true) m
      rw [h]
      refine ⟨hrep.trans ((bankStatus_calm ..).trans ((hloss.mono (by decide)).trans (lateEvent_calm _))), by simp, fun _ _ => ⟨?_, posted_info ..⟩⟩
      rw [(lateEvent_calm (offs := calmRegs) _).rd _ (by decide), hloss.rd _ (by decide), late_bankStatus]
      rfl
    | none =>
      rw [swapBanks_none s b had hn ho]
      exact ⟨hclose'.trans ((bankStatus_calm ..).trans (lateEvent_calm _)), by simp, by simp⟩

end Sys2Proof.Machine
end

section
namespace Sys2Proof.Machine

/-! Commits and transitions may change too -/

/-- `Calm` but for the commits. -/
def Still (s t : State) : Prop :=
  t.tick = s.tick ∧ t.tmb = s.tmb ∧ (∀ o ∈ calmRegs, rdW t o = rdW s o) ∧ ∀ r ∈ s.evt.posted, r ∈ t.evt.posted

namespace Still

variable {s t u : State}

theorem of_calm (h : Calm calmRegs s t) : Still s t := ⟨h.1, h.2.1, h.2.2.2.1, h.2.2.2.2⟩
theorem refl (s : State) : Still s s := of_calm (.refl _ s)

theorem trans (h : Still s t) (h' : Still t u) : Still s u := by
  obtain ⟨h1, h2, h3, h4⟩ := h
  obtain ⟨g1, g2, g3, g4⟩ := h'
  exact ⟨g1.trans h1, g2.trans h2, fun o ho => (g3 o ho).trans (h3 o ho), fun r hr => g4 r (h4 r hr)⟩

theorem scn (s : State) (x : Scn) : Still s { s with scn := x } := ⟨rfl, rfl, fun _ _ => rfl, fun _ h => h⟩

theorem exs_scn (s : State) (x : Exs) (y : Scn) : Still s { s with exs := x, scn := y } := ⟨rfl, rfl, fun _ _ => rfl, fun _ h => h⟩

theorem rd (h : Still s t) (f : Fld) (hf : f.off ∈ calmRegs) : rd t f = rd s f := by rw [Machine.rd, h.2.2.1 _ hf, Machine.rd]

theorem posted (h : Still s t) {c b i : Nat} {f : Fld} {q : List (Nat × Nat)} (hp : posted s c b i f q) : posted t c b i f q := by
  obtain ⟨r, hr, h'⟩ := hp
  exact ⟨r, h.2.2.2 r hr, h'⟩

end Still

theorem pendStatus_still (s : State) : Still s (pendStatus s) := by
  unfold pendStatus
  dsimp only
  refine Still.trans ?_ (.of_calm (.wrB _ _ _ (by decide)))
  exact .scn ..

theorem cancelSlots_calm (s : State) : Calm calmRegs s (cancelSlots s) := .outside ..
theorem cancelPasses_calm (s : State) : Calm calmRegs s (cancelPasses s) := .outside ..

/-- The start of a transition is shown, counted and reported. -/
def showNsl (s : State) : State := info (bump (wrB s F.SCN_COMMIT_nsl true) F.SCN_CNT_NSL_count) blkSCN 0 F.SCN_COMMIT_nsl

theorem startNsl_still (s : State) : Still s (startNsl s) := by
  have hshow : Calm calmRegs s (showNsl s) := (Calm.wrB _ _ _ (by decide)).trans ((Calm.bump _ _ (by decide)).trans (.info ..))
  have hcancel : Still s (cancelPasses (cancelSlots (showNsl s))) :=
    .of_calm (hshow.trans ((cancelSlots_calm _).trans (cancelPasses_calm _)))
  unfold startNsl
  dsimp only
  split
  · exact hcancel.trans (.scn ..)
  · exact hcancel.trans (.scn ..)

theorem setNow_still (s : State) : Still s (setNow s) := by
  unfold setNow
  split
  · split
    · split
      · exact .refl s
      · split
        · refine Still.trans ?_ (pendStatus_still _)
          exact .scn ..
        · split
          · exact startNsl_still s
          · exact .refl s
    · exact .refl s
  · exact .refl s

/-- A transition without a bank ends a period later (R51). -/
theorem deferNsl_still (s : State) (b : Nat) : Still s (deferNsl s b) := by
  unfold deferNsl
  split
  · next n _ =>
    dsimp only
    split
    · exact .refl s
    · refine Still.trans ?_ (.of_calm (Calm.foldl (fun u p => .ite fun _ => refreshPulses_calm u p) _ _))
      exact .exs_scn ..
  · exact .refl s

theorem lstKeep_calm (s : State) (a : Nat) (bs : List Byte) : Calm calmRegs s (lstKeep s a bs) := .outside ..

theorem emptyHistories_still (s : State) : Still s (emptyHistories s) := by
  unfold emptyHistories
  refine Still.trans ?_ (.of_calm (Calm.foldl (fun u v => Calm.foldl (fun u j => Calm.foldl (fun u i => .ite fun _ => lstKeep_calm ..) _ _) _ _) _ _))
  exact .scn ..

theorem drizzleReset_calm (s : State) : Calm calmRegs s (drizzleReset s) := by
  refine Calm.trans ?_ (.wr _ _ _ (by decide))
  refine Calm.trans ?_ (.wr _ _ _ (by decide))
  exact .outside ..

theorem zonesReset_calm (s : State) : Calm calmRegs s (zonesReset s) := .outside ..
theorem newGrid_calm (s : State) (t q : Nat) : Calm calmRegs s (newGrid s t q) := .outside ..

/-- A transition ends (R206 to R208). -/
theorem endNsl_still (s : State) (b : Nat) : Still s (endNsl s b) := by
  unfold endNsl
  dsimp only
  have hgrid : Still s (newGrid (wrB { s with scn.nsl := none } F.SCN_COMMIT_nsl false) b (q0 s)) :=
    (Still.scn s _).trans (.of_calm ((Calm.wrB _ _ _ (by decide)).trans (newGrid_calm ..)))
  have hreset := hgrid.trans <| (emptyHistories_still _).trans (.of_calm ((zonesReset_calm _).trans (drizzleReset_calm _)))
  exact (hreset.trans (.scn ..)).trans (.of_calm (.info ..))

/-! The register commit (R200, R206) -/

/-- Anchored in the grid: picture number, boundary and, where one is placed, the next boundary with its number stand, with the registers of the
bank in use. -/
structure Anchored (s t : State) : Prop where
  tick : t.tick = s.tick
  pic : t.tmb.pic = s.tmb.pic
  bound : t.tmb.bound = s.tmb.bound
  place : s.tmb.next.isSome = true → t.tmb.next = s.tmb.next ∧ t.tmb.picNext = s.tmb.picNext
  regs : ∀ o ∈ [F.TMB_CAL_STAT_bank.off, F.EXS_STATUS_late.off], rdW t o = rdW s o
  posts : ∀ r ∈ s.evt.posted, r ∈ t.evt.posted

namespace Anchored

variable {s t u : State}

theorem refl (s : State) : Anchored s s := ⟨rfl, rfl, rfl, fun _ => ⟨rfl, rfl⟩, fun _ _ => rfl, fun _ h => h⟩

theorem trans (h : Anchored s t) (h' : Anchored t u) : Anchored s u :=
  ⟨h'.tick.trans h.tick, h'.pic.trans h.pic, h'.bound.trans h.bound,
    fun hn => by
      obtain ⟨h1, h2⟩ := h.place hn
      obtain ⟨g1, g2⟩ := h'.place (by rw [h1]; exact hn)
      exact ⟨g1.trans h1, g2.trans h2⟩,
    fun o ho => (h'.regs o ho).trans (h.regs o ho), fun r hr => h'.posts r (h.posts r hr)⟩

theorem of_still (h : Still s t) : Anchored s t := by
  obtain ⟨h1, h2, h3, h4⟩ := h
  refine ⟨h1, by rw [h2], by rw [h2], fun _ => by rw [h2]; exact ⟨rfl, rfl⟩, fun o ho => h3 o ?_, h4⟩
  have : ∀ a ∈ [F.TMB_CAL_STAT_bank.off, F.EXS_STATUS_late.off], a ∈ calmRegs := by decide
  exact this o ho

theorem ite_both {c : Prop} [Decidable c] (h : Anchored s t) (h' : Anchored s u) : Anchored s (if c then t else u) := by
  split
  · exact h
  · exact h'

/-- A change of the time base beside its grid. -/
theorem tmb (s : State) (x : Tmb) (h1 : x.pic = s.tmb.pic) (h2 : x.bound = s.tmb.bound) (h3 : x.next = s.tmb.next) (h4 : x.picNext = s.tmb.picNext) :
    Anchored s { s with tmb := x } := ⟨rfl, h1, h2, fun _ => ⟨h3, h4⟩, fun _ _ => rfl, fun _ h => h⟩

theorem wrB (s : State) (f : Fld) (b : Bool) (h : f.off ∉ [F.TMB_CAL_STAT_bank.off, F.EXS_STATUS_late.off]) : Anchored s (wrB s f b) := by
  refine ⟨rfl, rfl, rfl, fun _ => ⟨rfl, rfl⟩, fun o ho => ?_, fun _ h => h⟩
  rw [Machine.wrB, rdW_wr, if_neg fun e : o = f.off => h (e ▸ ho)]

theorem rd (h : Anchored s t) (f : Fld) (hf : f.off ∈ [F.TMB_CAL_STAT_bank.off, F.EXS_STATUS_late.off]) : rd t f = rd s f := by
  rw [Machine.rd, h.regs _ hf, Machine.rd]

end Anchored

/-- Where a boundary is placed, it and its number stand. -/
def GridKept (s t : State) : Prop := s.tmb.next.isSome = true → t.tmb.next = s.tmb.next ∧ t.tmb.picNext = s.tmb.picNext

theorem GridKept.trans {s t u : State} (h : GridKept s t) (h' : GridKept t u) : GridKept s u := fun hn => by
  obtain ⟨h1, h2⟩ := h hn
  obtain ⟨g1, g2⟩ := h' (by rw [h1]; exact hn)
  exact ⟨g1.trans h1, g2.trans h2⟩

theorem GridKept.of_tmb {s t : State} (h : t.tmb = s.tmb) : GridKept s t := fun _ => by rw [h]; exact ⟨rfl, rfl⟩

theorem setOffset_placed (s : State) (p : Int) : GridKept s (setOffset s p) := fun _ => by rw [setOffset_log]; exact ⟨rfl, rfl⟩

theorem placeFirst_placed (s : State) (h : s.tmb.next.isSome = true) : placeFirst s = s := by
  obtain ⟨b, hb⟩ := Option.isSome_iff_exists.1 h
  unfold placeFirst
  rw [hb]

theorem heldNow_placed (s : State) : GridKept s (heldNow s) := fun _ => ⟨rfl, rfl⟩

/-- Entering a state of the time base places a boundary only where there is none (R33). -/
theorem tmbEnter_placed (s : State) (new : Nat) : GridKept s (tmbEnter s new) := by
  have hnote : ∀ u, GridKept u (noteLockEnd u) := fun u _ => by unfold noteLockEnd; split <;> exact ⟨rfl, rfl⟩
  have hleave : ∀ o u, GridKept u (placeOnLeave o new u) := fun o u hn => by
    unfold placeOnLeave
    rw [placeFirst_placed u hn, ite_self]
    exact ⟨rfl, rfl⟩
  have hcount : ∀ u, GridKept u (countHoldover new u) := fun u => .of_tmb (by
    unfold countHoldover
    split
    · rw [tmb_info, tmb_bump]
    · rfl)
  have hfreeze : ∀ x u, GridKept u (freezeOffset new x u) := fun x u => by
    unfold freezeOffset
    split
    · exact (heldNow_placed u).trans (setOffset_placed _ _)
    · exact .of_tmb rfl
  have hlog : ∀ u, GridKept u (startLog new u) := fun u _ => by unfold startLog; split <;> exact ⟨rfl, rfl⟩
  have hstep : ∀ u, GridKept u (lockEndsStep8 new u) := fun u => .of_tmb (by
    unfold lockEndsStep8
    split
    · exact step8End_tmb u
    · rfl)
  have hslew : ∀ u, GridKept u (startSlew new u) := fun u _ => by unfold startSlew; split <;> exact ⟨rfl, rfl⟩
  rw [tmbEnter_eq]
  split
  · exact .of_tmb rfl
  · have hwr : ∀ u, GridKept u (wr u F.TMB_STATUS_state new) := fun u => .of_tmb (wr_tmb ..)
    exact (hnote s).trans <| (hwr _).trans <| (hleave _ _).trans <| (hcount _).trans <| (hfreeze _ _).trans <| (hlog _).trans <|
      (hstep _).trans (hslew _)

/-- A change that an edge could make, with the grid as it stands. -/
theorem Anchored.of_edge {offs : List Nat} {s t : State} (h : Edge offs s t) (hc : TmbCore s t) (hp : GridKept s t)
    (hr : ∀ o ∈ [F.TMB_CAL_STAT_bank.off, F.EXS_STATUS_late.off], o ∉ offs) : Anchored s t :=
  ⟨h.time.tick, by rw [hc], by rw [hc], hp, fun o ho => h.regs o (hr o ho), h.posts⟩

theorem tmbEnter_anchored (s : State) (new : Nat) : Anchored s (tmbEnter s new) :=
  .of_edge (tmbEnter_tbRegs s new) (tmbEnter_tmb s new) (tmbEnter_placed s new) (by decide)

theorem setOffset_anchored (s : State) (p : Int) : Anchored s (setOffset s p) :=
  .of_edge (setOffset_edge s p) (setOffset_tmb s p) (setOffset_placed s p) (by decide)

theorem reanchor_anchored (s : State) (b : Int) : Anchored s (reanchor s b) := by
  unfold reanchor
  refine .ite_both (.refl s) ?_
  exact .tmb s _ rfl rfl rfl rfl

theorem refNone_anchored (s : State) : Anchored s (refNone s) := by
  unfold refNone
  dsimp only
  have hgone : Anchored s (wrB { s with tmb := { s.tmb with wide := false, align := none } } F.TMB_STATUS_ref_present false) := by
    refine Anchored.trans ?_ (.wrB _ F.TMB_STATUS_ref_present false (by decide))
    exact .tmb s _ rfl rfl rfl rfl
  refine hgone.trans (.ite_both ?_ (.ite_both (tmbEnter_anchored _ _) ?_))
  · exact (tmbEnter_anchored _ _).trans (tmbEnter_anchored _ _)
  · exact (tmbEnter_anchored _ _).trans (setOffset_anchored _ _)

theorem refChange_anchored (s : State) (b : Nat) : Anchored s (refChange s b) := by
  have hfresh : Anchored s { s with tmb := { s.tmb with recent := [], inRange := 0, good := 0, bad := 0, missRun := 0 } } := .tmb s _ rfl rfl rfl rfl
  refine hfresh.trans (.ite_both (refNone_anchored _) (.ite_both ?_ ?_))
  · exact (tmbEnter_anchored _ _).trans (reanchor_anchored _ _)
  · refine Anchored.trans ?_ (tmbEnter_anchored _ _)
    exact .tmb _ _ rfl rfl rfl rfl

theorem tmbCommitted_anchored (old s : State) (b : Nat) : Anchored s (tmbCommitted old s b) := by
  refine .ite_both (refChange_anchored s b) (.ite_both ?_ (.refl s))
  refine Anchored.trans ?_ (reanchor_anchored _ _)
  exact .ite_both (.refl s) (.tmb s _ rfl rfl rfl rfl)

/-- A commit writes the bits of its class only. -/
theorem applyBits_other (s : State) (snap : SMap Word) (mask : RegDesc → Nat) (o : Nat)
    (h : ∀ d, regAt o = some d → BitVec.ofNat 32 (mask d) = 0#32) :
    rdW (applyBits s snap mask) o = rdW s o ∧ applyBits s snap mask = { s with reg := (applyBits s snap mask).reg } := by
  unfold applyBits
  dsimp only
  generalize (s.reg.map (fun e => e.1)) ++ (snap.map (fun e => e.1)).filter (fun o => sget 0#32 s.reg o = 0#32) = offs
  induction offs generalizing s with
  | nil => exact ⟨rfl, rfl⟩
  | cons p offs ih =>
    rw [List.foldl_cons]
    split
    · next d hd =>
      split
      · exact ih s
      · next hm =>
        obtain ⟨hrd, hframe⟩ := ih (wrW s p ((rdW s p &&& ~~~(BitVec.ofNat 32 (mask d))) ||| (sget 0#32 snap p &&& BitVec.ofNat 32 (mask d))))
        refine ⟨hrd.trans (rdW_wrW_other _ _ _ _ ?_), hframe⟩
        rintro rfl
        exact hm (h d hd)
    · exact ih s

/-- The registers of the bank in use belong to no class of commits. -/
theorem bankRegs_class (o : Nat) (ho : o ∈ [F.TMB_CAL_STAT_bank.off, F.EXS_STATUS_late.off]) (d : RegDesc) (hd : regAt o = some d) : d.s = 0 ∧ d.n = 0 := by
  have key : ∀ a ∈ [F.TMB_CAL_STAT_bank.off, F.EXS_STATUS_late.off], (regAt a).map (fun d => (d.s, d.n)) = some (0, 0) := by decide +kernel
  have := key o ho
  rw [hd] at this
  simpa using this

theorem applyBits_anchored (s : State) (snap : SMap Word) (mask : RegDesc → Nat) (hm : ∀ d : RegDesc, d.s = 0 ∧ d.n = 0 → mask d = 0) :
    Anchored s (applyBits s snap mask) := by
  have hframe := (applyBits_other s snap mask 1 (fun d hd => by
    have : regAt 1 = none := by decide +kernel
    rw [this] at hd
    cases hd)).2
  refine ⟨by rw [hframe], by rw [hframe], by rw [hframe], fun _ => by rw [hframe]; exact ⟨rfl, rfl⟩, fun o ho => ?_, fun r hr => by rw [hframe]; exact hr⟩
  exact (applyBits_other s snap mask o fun d hd => by rw [hm d (bankRegs_class o ho d hd)]).1

theorem putSet_anchored (b : Nat) (s : State) (c : CommitSet) : Anchored s (putSet b s c).2 := by
  unfold putSet
  dsimp only
  have hS : Anchored s (if dueAt c.s b = true then applyBits s c.snap (fun d => d.s) else s) :=
    .ite_both (applyBits_anchored _ _ _ fun d h => h.1) (.refl s)
  exact hS.trans (.ite_both (applyBits_anchored _ _ _ fun d h => h.2) (.refl _))

theorem putSets_anchored (s : State) (b : Nat) : Anchored s (putSets s b) := by
  unfold putSets
  refine .ite_both (.refl s) ?_
  extract_lets p q
  have hp : Anchored s p.2 := by
    show Anchored s (match s.scn.prev with | some c => let r := putSet b s c; (some r.1, r.2) | none => (none, s)).2
    split
    · exact putSet_anchored ..
    · exact .refl s
  have hq : Anchored p.2 q.2 := by
    show Anchored p.2 (match s.scn.set with | some c => let r := putSet b p.2 c; (some r.1, r.2) | none => (none, p.2)).2
    split
    · exact putSet_anchored ..
    · exact .refl _
  exact (hp.trans hq).trans (.of_still (.scn ..))

/-- The pending sets are in effect, and a transition that ends has ended. -/
def committed (s : State) (b : Nat) : State :=
  if nslEnds s b then endNsl (pendStatus (putSets s b)) b else pendStatus (putSets s b)

theorem commitBoundary_eq (s : State) (b : Nat) : commitBoundary s b =
    if s.scn.set.isNone && s.scn.prev.isNone && s.scn.nsl.isNone then s else tmbCommitted s (committed s b) b := rfl

theorem commitBoundary_anchored (s : State) (b : Nat) : Anchored s (commitBoundary s b) := by
  have hput : Anchored s (pendStatus (putSets s b)) := (putSets_anchored s b).trans (.of_still (pendStatus_still _))
  have hcom : Anchored s (committed s b) := .ite_both (hput.trans (.of_still (endNsl_still ..))) hput
  rw [commitBoundary_eq]
  exact .ite_both (.refl s) (hcom.trans (tmbCommitted_anchored ..))

/-- With no set waiting a commit changes no register of the time base. -/
theorem commitBoundary_still (s : State) (b : Nat) (h1 : s.scn.set = none) (h2 : s.scn.prev = none) : Still s (commitBoundary s b) := by
  have hput : Still s (putSets s b) := by
    unfold putSets
    rw [h1, h2]
    dsimp only
    split
    · exact .refl s
    · exact .scn ..
  have hput' : Still s (pendStatus (putSets s b)) := hput.trans (pendStatus_still _)
  have hcom : Still s (committed s b) := by
    unfold committed
    split
    · exact hput'.trans (endNsl_still ..)
    · exact hput'
  have hsame : tmbCommitted s (committed s b) b = committed s b := by
    have hcfg : refSrc (committed s b) = refSrc s ∧ rd (committed s b) F.TMB_REF_CFG_inp = rd s F.TMB_REF_CFG_inp :=
      ⟨hcom.rd _ (by decide), hcom.rd _ (by decide)⟩
    have hper : picPeriod (committed s b) = picPeriod s := hcom.rd _ (by decide)
    have hratio : rdW (committed s b) F.TMB_REF_RATIO.off = rdW s F.TMB_REF_RATIO.off := hcom.2.2.1 _ (by decide)
    have hofs : refOffset (committed s b) = refOffset s := by unfold refOffset rdS; rw [hcom.rd _ (by decide)]
    unfold tmbCommitted
    rw [hcfg.1, hcfg.2, hper, hratio, hofs]
    simp
  rw [commitBoundary_eq]
  split
  · exact .refl s
  · rw [hsame]; exact hcom

/-! The boundary (R31, R32) -/

/-- The next period opens at b. -/
def openPeriod (s : State) (b : Nat) : State :=
  { reach s b with age.rbUsed := 0, tmb := { s.tmb with pic := some s.tmb.picNext, bound := b }, exs := { s.exs with frozen := [], frozenSub := none } }
/-- The number after the one just begun. -/
def numberNext (s : State) (n : Nat) : State := { s with tmb := { s.tmb with picNext := n + 1 } }
/-- The next boundary is placed. -/
def placeNext (s : State) (b : Nat) : State := { s with tmb.next := some (b + picPeriod s) }
/-- Commits act, or what waits for a bank is put off. -/
def actCommits (x : Bool × State) (n b : Nat) : State := if x.1 then commitBoundary (numberNext x.2 n) b else deferNsl (numberNext x.2 n) b

theorem boundaryAt_eq (s : State) (b : Nat) : boundaryAt s b =
    setNow (psqBoundary ((List.range 4).foldl camBoundary
      (placeNext (actCommits (swapBanks (openPeriod s b) b s.tmb.pic.isSome) s.tmb.picNext b) b))) := rfl

theorem actCommits_anchored (x : Bool × State) (n b : Nat) : Anchored (numberNext x.2 n) (actCommits x n b) := by
  unfold actCommits
  split
  · exact commitBoundary_anchored ..
  · exact .of_still (deferNsl_still ..)

theorem actCommits_still (x : Bool × State) (n b : Nat) (h1 : x.2.scn.set = none) (h2 : x.2.scn.prev = none) :
    Still (numberNext x.2 n) (actCommits x n b) := by
  unfold actCommits
  split
  · exact commitBoundary_still _ _ h1 h2
  · exact deferNsl_still ..

/-- What follows the placing of the next boundary. -/
theorem afterPlace_still (s : State) : Still s (setNow (psqBoundary ((List.range 4).foldl camBoundary s))) :=
  (Still.of_calm ((Calm.foldl camBoundary_calm _ s).trans (psqBoundary_calm _))).trans (setNow_still _)

theorem rd_placeNext (s : State) (b : Nat) (f : Fld) : rd (placeNext s b) f = rd s f := rfl
theorem rd_numberNext (s : State) (n : Nat) (f : Fld) : rd (numberNext s n) f = rd s f := rfl
theorem rd_openPeriod (s : State) (b : Nat) (f : Fld) : rd (openPeriod s b) f = rd s f := rfl

/-- What a boundary leaves (R32, R49, R51): the period it begins, the next one's number, the bank in use, and, where no commit waits, the time base's
state and the next boundary. -/
structure Advanced (s t : State) (b : Nat) : Prop where
  tick : t.tick = max s.tick b
  pic : t.tmb.pic = some s.tmb.picNext
  bound : t.tmb.bound = b
  picNext : t.tmb.picNext = s.tmb.picNext + 1
  swapped : s.exs.next.isSome = true →
    rd t F.TMB_CAL_STAT_bank = (if rd s F.TMB_CAL_STAT_bank = 0 then 1 else 0) ∧ rd t F.EXS_STATUS_late = 0
  repeated : s.exs.next = none → s.exs.bank.isSome = true → rd t F.EXS_STATUS_late = 1 ∧ posted t clsInfo blkEXS 0 F.EXS_STATUS_late []
  plain : s.scn.set = none → s.scn.prev = none → t.tmb.next = some (b + picPeriod s) ∧ tmbState t = tmbState s
  posts : ∀ r ∈ s.evt.posted, r ∈ t.evt.posted

theorem boundaryAt_advanced (s : State) (b : Nat) (h : s.tmb.next = some b) : Advanced s (boundaryAt s b) b := by
  obtain ⟨hswap, hnext, hrepeat⟩ := swapBanks_effect (openPeriod s b) b s.tmb.pic.isSome
  rw [boundaryAt_eq]
  generalize hx : swapBanks (openPeriod s b) b s.tmb.pic.isSome = x at *
  obtain ⟨htick, htmb, hscn, hregs, hposts⟩ := hswap
  have hact := actCommits_anchored x s.tmb.picNext b
  have hstill := actCommits_still x s.tmb.picNext b
  generalize actCommits x s.tmb.picNext b = u at *
  have hend := afterPlace_still (placeNext u b)
  generalize setNow (psqBoundary ((List.range 4).foldl camBoundary (placeNext u b))) = t at *
  have htmb' : x.2.tmb = { s.tmb with pic := some s.tmb.picNext, bound := b } := htmb
  have hplaced : (numberNext x.2 s.tmb.picNext).tmb.next.isSome = true := by
    show x.2.tmb.next.isSome = true
    rw [htmb']
    show s.tmb.next.isSome = true
    rw [h]
    rfl
  obtain ⟨-, hpic⟩ := hact.place hplaced
  have hpost : ∀ r ∈ x.2.evt.posted, r ∈ t.evt.posted := fun r hr => hend.2.2.2 r (hact.posts r hr)
  have hbank : ∀ f : Fld, f.off ∈ [F.TMB_CAL_STAT_bank.off, F.EXS_STATUS_late.off] → rd t f = rd x.2 f := fun f hf => by
    have hmem : ∀ a ∈ [F.TMB_CAL_STAT_bank.off, F.EXS_STATUS_late.off], a ∈ calmRegs := by decide
    rw [hend.rd f (hmem _ hf), rd_placeNext, hact.rd f hf, rd_numberNext]
  refine ⟨?_, ?_, ?_, ?_, fun hn => ?_, fun hn hb => ?_, fun h1 h2 => ?_, fun r hr => hpost r (hposts r hr)⟩
  · exact hend.1.trans (hact.tick.trans htick)
  · rw [hend.2.1]
    exact hact.pic.trans (congrArg Tmb.pic htmb')
  · rw [hend.2.1]
    exact hact.bound.trans (congrArg Tmb.bound htmb')
  · rw [hend.2.1]
    exact hpic
  · obtain ⟨-, hflip, hlate⟩ := hnext hn
    rw [hbank _ (by decide), hbank _ (by decide), hflip, hlate, rd_openPeriod]
    exact ⟨rfl, rfl⟩
  · obtain ⟨hlate, r, hr, hrec⟩ := hrepeat hn hb
    rw [hbank _ (by decide), hlate]
    exact ⟨rfl, r, hpost r hr, hrec⟩
  · have hu := hstill (by rw [hscn]; exact h1) (by rw [hscn]; exact h2)
    have hper : picPeriod u = picPeriod s := by
      rw [picPeriod, hu.rd _ (by decide), rd_numberNext, rd, hregs _ (by decide), ← rd, rd_openPeriod, ← picPeriod]
    have hstate : tmbState t = tmbState s := by
      rw [tmbState, hend.rd _ (by decide), rd_placeNext, hu.rd _ (by decide), rd_numberNext, rd, hregs _ (by decide), ← rd, rd_openPeriod, ← tmbState]
    rw [hend.2.1, ← hper]
    exact ⟨rfl, hstate⟩

/-! Step 8 (R520) -/

/-- ACQUIRE is left for FREE. -/
def giveUpAcquire (s : State) : State := if tmbState s = tmACQUIRE then setOffset (tmbEnter s tmFREE) 0 else s
/-- Start-up's step 8 has lasted 10 s. -/
def after10s (s : State) (t5 : Nat) : State := errorRec (reach s (t5 + 10 * Config.tickHz)) blkTMB 0 F.TMB_STATUS_state
/-- The same in ACQUIRE: reported, the time base in FREE. -/
def freeAfter10s (s : State) (t5 : Nat) : State := setOffset (tmbEnter (after10s s t5) tmFREE) 0
/-- A boundary falls now. -/
def boundaryNow (s : State) : State := { s with tmb := { s.tmb with picNext := 0, next := some s.tick } }
/-- On a worker it carries the manager's number. -/
def numberNow (s : State) : State := { s with tmb.picNext := numberAt s s.tick }
/-- The first boundary, unless a number has been given before. -/
def firstBoundary (s : State) : State := if s.tmb.pic.isNone then boundaryAt (numberNow (boundaryNow s)) s.tick else s
/-- The reference is accepted against the running schedule, and step 8 ends. -/
def endStep8 (s : State) : State := step8End (reanchor s (alignedBoundary s))

theorem step8Timeout_steps {s : State} {t5 : Nat} (h5 : s.boot.end5 = some t5) :
    step8Timeout s = if s.boot.step != 8 || s.boot.step8 then s else endStep8 (firstBoundary (giveUpAcquire (after10s s t5))) := by
  unfold step8Timeout
  rw [h5]
  rfl

theorem step8Timeout_eq {s : State} {t5 : Nat} (h5 : s.boot.end5 = some t5) (hstep : s.boot.step = 8) (h8 : s.boot.step8 = false)
    (hacq : tmbState s = tmACQUIRE) (hpic : (freeAfter10s s t5).tmb.pic = none) :
    step8Timeout s = endStep8 (boundaryAt (numberNow (boundaryNow (freeAfter10s s t5))) (freeAfter10s s t5).tick) := by
  have hst : tmbState (after10s s t5) = tmACQUIRE := hacq
  rw [step8Timeout_steps h5, if_neg (by simp [hstep, h8]), giveUpAcquire, if_pos hst, ← freeAfter10s, firstBoundary, hpic]
  rfl

theorem freeAfter10s_effect (s : State) (t5 : Nat) :
    (freeAfter10s s t5).tick = max s.tick (t5 + 10 * Config.tickHz) ∧ tmbState (freeAfter10s s t5) = tmFREE ∧
    TmbCore s (freeAfter10s s t5) ∧ (freeAfter10s s t5).scn = s.scn ∧ picPeriod (freeAfter10s s t5) = picPeriod s ∧
    posted (freeAfter10s s t5) clsError blkTMB 0 F.TMB_STATUS_state [] := by
  have hcore : TmbCore s (after10s s t5) := rfl
  have htick : (after10s s t5).tick = max s.tick (t5 + 10 * Config.tickHz) := rfl
  have hscn : (after10s s t5).scn = s.scn := rfl
  have hper : picPeriod (after10s s t5) = picPeriod s := rfl
  have hpost : posted (after10s s t5) clsError blkTMB 0 F.TMB_STATUS_state [] := posted_post ..
  unfold freeAfter10s
  generalize after10s s t5 = u at *
  have henter : Edge tbRegs u (setOffset (tmbEnter u tmFREE) 0) := (tmbEnter_tbRegs u tmFREE).trans ((setOffset_edge _ 0).mono (by decide))
  refine ⟨henter.time.tick.trans htick, ?_, hcore.trans ((tmbEnter_tmb u tmFREE).trans (setOffset_tmb _ 0)), ?_, ?_, henter.posted hpost⟩
  · rw [tmbState, (setOffset_edge _ 0).rd _ (by decide)]
    exact tmbState_tmbEnter u tmFREE (by decide)
  · rw [henter.time]
    exact hscn
  · rw [← hper]
    exact henter.rd _ (by decide)

theorem step8End_step8 (s : State) : (step8End s).boot.step8 = true := by unfold step8End; dsimp only; split <;> rfl

/-- Step 8's end and the anchoring before it leave the period and the state of the time base alone. -/
theorem step8_ends (s : State) (b : Int) : (step8End (reanchor s b)).tick = s.tick ∧ tmbState (step8End (reanchor s b)) = tmbState s ∧
    (step8End (reanchor s b)).tmb.pic = s.tmb.pic ∧ ∀ r ∈ s.evt.posted, r ∈ (step8End (reanchor s b)).evt.posted := by
  have hanchor := reanchor_anchored s b
  have hstate : tmbState (reanchor s b) = tmbState s := by
    unfold reanchor
    split <;> rfl
  have hend := step8End_edge (offs := [F.PSQ_FAULT.off]) (reanchor s b) (by decide)
  refine ⟨hend.time.tick.trans hanchor.tick, (hend.rd F.TMB_STATUS_state (by decide)).trans hstate, ?_,
    fun r hr => hend.posts r (hanchor.posts r hr)⟩
  rw [step8End_tmb]
  exact hanchor.pic

/-- STEP8_TIMEOUT in ACQUIRE before any picture (R520). -/
theorem step8Timeout_effect {s : State} {t5 : Nat} (h5 : s.boot.end5 = some t5) (hstep : s.boot.step = 8) (h8 : s.boot.step8 = false)
    (hpic : s.tmb.pic = none) (h1 : s.scn.set = none) (h2 : s.scn.prev = none) (hacq : tmbState s = tmACQUIRE) :
    (step8Timeout s).tick = max s.tick (t5 + 10 * Config.tickHz) ∧ tmbState (step8Timeout s) = tmFREE ∧
    (step8Timeout s).tmb.pic = some (if s.tmb.mgr.isSome then numberAt s (max s.tick (t5 + 10 * Config.tickHz)) else 0) ∧
    (step8Timeout s).boot.step8 = true ∧ posted (step8Timeout s) clsError blkTMB 0 F.TMB_STATUS_state [] := by
  obtain ⟨htick, hfree, hcore, hscn, hper, hpost⟩ := freeAfter10s_effect s t5
  have hnone : (freeAfter10s s t5).tmb.pic = none := by rw [hcore]; exact hpic
  have hmgr : (freeAfter10s s t5).tmb.mgr = s.tmb.mgr := by rw [hcore]
  rw [step8Timeout_eq h5 hstep h8 hacq hnone]
  generalize freeAfter10s s t5 = u at *
  have hadv := boundaryAt_advanced (numberNow (boundaryNow u)) u.tick rfl
  have hnumber : (numberNow (boundaryNow u)).tmb.picNext =
      if s.tmb.mgr.isSome then numberAt s (max s.tick (t5 + 10 * Config.tickHz)) else 0 := by
    show numberAt (boundaryNow u) u.tick = _
    have hper' : picPeriod (boundaryNow u) = picPeriod s := hper
    have hmgr' : (boundaryNow u).tmb.mgr = s.tmb.mgr := hmgr
    unfold numberAt
    rw [hmgr', hper', htick]
    cases s.tmb.mgr <;> rfl
  obtain ⟨-, hstate⟩ := hadv.plain (by show u.scn.set = none; rw [hscn]; exact h1) (by show u.scn.prev = none; rw [hscn]; exact h2)
  have hbtick : (boundaryAt (numberNow (boundaryNow u)) u.tick).tick = max u.tick u.tick := hadv.tick
  have hbpost : ∀ r ∈ u.evt.posted, r ∈ (boundaryAt (numberNow (boundaryNow u)) u.tick).evt.posted := hadv.posts
  have hbpic := hadv.pic
  generalize boundaryAt (numberNow (boundaryNow u)) u.tick = v at *
  rw [endStep8]
  obtain ⟨h1, h2, h3, h4⟩ := step8_ends v (alignedBoundary v)
  refine ⟨?_, ?_, ?_, step8End_step8 _, ?_⟩
  · rw [h1, hbtick, Nat.max_self, htick]
  · rw [h2, hstate]
    exact hfree
  · rw [h3, hbpic, hnumber]
  · obtain ⟨r, hr, hrec⟩ := hpost
    exact ⟨r, h4 r (hbpost r hr), hrec⟩

/-- Settles O13, by `boundaryAt_advanced` and `step8Timeout_effect`. -/
theorem pictureBoundaryAdvances : Obligations.PictureBoundaryAdvances := by
  unfold Obligations.PictureBoundaryAdvances
  refine ⟨fun s b h => ?_, fun s t5 h5 hstep h8 hpic h1 h2 hacq => ?_⟩
  · obtain ⟨htick, hpic, hbound, hnext, hswap, hrepeat, hplain, -⟩ := boundaryAt_advanced s b h
    have hx : pictureBoundary s = boundaryAt s b := by unfold pictureBoundary; rw [h]
    exact ⟨_, congrArg Host.Outcome.next hx, htick, hpic, hbound, hnext, hswap, hrepeat, fun h1 h2 _ => (hplain h1 h2).1⟩
  · obtain ⟨htick, hfree, hnumber, hend, hpost⟩ := step8Timeout_effect h5 hstep h8 hpic h1 h2 hacq
    exact ⟨_, rfl, le_of_eq htick.symm, hfree, hnumber, hend, hpost⟩

end Sys2Proof.Machine
end

section
namespace Sys2Proof.Machine

/-! Start-up's steps 5 to 7 (R519 to R521): what they leave of start-up itself -/

/-- The tick, the flash, Gauntlet's state and the step that start-up has reached stand. -/
def Boots (s t : State) : Prop :=
  t.tick = s.tick ∧ t.flash = s.flash ∧ t.sec = s.sec ∧ t.boot.step = s.boot.step ∧ t.boot.end5 = s.boot.end5

namespace Boots

variable {s t u : State}

theorem refl (s : State) : Boots s s := ⟨rfl, rfl, rfl, rfl, rfl⟩

theorem trans (h : Boots s t) (h' : Boots t u) : Boots s u := by
  obtain ⟨h1, h2, h3, h4, h5⟩ := h
  obtain ⟨g1, g2, g3, g4, g5⟩ := h'
  exact ⟨g1.trans h1, g2.trans h2, g3.trans h3, g4.trans h4, g5.trans h5⟩

/-- A change of any other block. -/
theorem outside (s : State) (reg shadow : SMap Word) (gddr lst nvm : SMap Byte) (tmb : Tmb) (exs : Exs) (blq : Blq) (ing : Ing) (cdc : Cdc) (scn : Scn)
    (ppx : Ppx) (age : Age) (drv : Drv) (psq : Psq) (orl : Orl) (mem : MemSt) (nv : Nvm) (evt : Evt) (host : HostIf) (pwr : Pwr) (now : TickLog)
    (fresh : Nat) (pending : List Instr) : Boots s { s with
      reg := reg, shadow := shadow, gddr := gddr, lst := lst, nvm := nvm, tmb := tmb, exs := exs, blq := blq, ing := ing, cdc := cdc, scn := scn
      ppx := ppx, age := age, drv := drv, psq := psq, orl := orl, mem := mem, nv := nv, evt := evt, host := host, pwr := pwr, now := now
      fresh := fresh, pending := pending } :=
  ⟨rfl, rfl, rfl, rfl, rfl⟩

theorem did (s : State) (x : List Byte) : Boots s { s with boot.did := x } := ⟨rfl, rfl, rfl, rfl, rfl⟩

theorem wr (s : State) (f : Fld) (x : Nat) : Boots s (wr s f x) := .outside ..
theorem wrB (s : State) (f : Fld) (b : Bool) : Boots s (wrB s f b) := wr s f _
theorem setBitOf (s : State) (f : Fld) (i : Nat) (b : Bool) : Boots s (setBitOf s f i b) := wr s f _
theorem bump (s : State) (f : Fld) : Boots s (bump s f) := .outside ..
theorem post (s : State) (c b i : Nat) (f : Fld) (q : List (Nat × Nat)) : Boots s (post s c b i f q) := .outside ..
theorem info (s : State) (b i : Nat) (f : Fld) (q : List (Nat × Nat)) : Boots s (info s b i f q) := post ..
theorem warning (s : State) (b i : Nat) (f : Fld) (q : List (Nat × Nat)) : Boots s (warning s b i f q) := post ..
theorem errorRec (s : State) (b i : Nat) (f : Fld) (q : List (Nat × Nat)) : Boots s (errorRec s b i f q) := post ..

theorem alarmSet (s : State) (b : Nat) : Boots s (alarmSet s b) := by
  rw [alarmSet_frame s b]
  exact .outside ..

theorem ite {c : Prop} [Decidable c] (h : Boots s t) : Boots s (if c then t else s) := by
  split
  · exact h
  · exact refl s

theorem ite_both {c : Prop} [Decidable c] (h : Boots s t) (h' : Boots s u) : Boots s (if c then t else u) := by
  split
  · exact h
  · exact h'

theorem ite_else {c : Prop} [Decidable c] (h : Boots s t) : Boots s (if c then s else t) := ite_both (refl s) h

theorem foldl {α : Type} {f : State → α → State} (h : ∀ u a, Boots u (f u a)) (l : List α) (s : State) : Boots s (l.foldl f s) := by
  induction l generalizing s with
  | nil => exact refl s
  | cons a l ih => exact (h s a).trans (ih _)

end Boots

/-! The count of starts and the sections (R417, R431, R520) -/

theorem addOwnJob_boots (s : State) (j : PgJob) : Boots s (addOwnJob s j) := by
  unfold addOwnJob
  extract_lets n run rest own nv x
  have hx : Boots s x := .ite (.outside ..)
  clear_value x
  refine (hx.trans ?_).trans (.wrB ..)
  exact .outside ..

theorem addBase_boots (s : State) (k v : Nat) : Boots s (addBase s k v) := addOwnJob_boots ..
theorem addTally_boots (s : State) (k g q : Nat) : Boots s (addTally s k g q) := addOwnJob_boots ..
theorem clearTallyPage_boots (s : State) (p : Nat) : Boots s (clearTallyPage s p) := addOwnJob_boots ..

theorem incCounter_boots (s : State) (k : Nat) : Boots s (incCounter s k) := by
  unfold incCounter
  split
  · exact (addBase_boots ..).trans (addTally_boots ..)
  · refine .ite_both (addTally_boots ..) ?_
    exact (addBase_boots ..).trans ((Boots.foldl (fun _ _ => clearTallyPage_boots ..) ..).trans (addTally_boots ..))

theorem tblPut_boots (s : State) (b t i v : Nat) : Boots s (tblPut s b t i v) := .ite (.outside ..)
theorem ageTblPut_boots (s : State) (t i v : Nat) : Boots s (ageTblPut s t i v) := .ite (.outside ..)
theorem wrW_boots (s : State) (o : Nat) (v : Word) : Boots s (wrW s o v) := .outside ..
theorem wrShW_boots (s : State) (o : Nat) (v : Word) : Boots s (wrShW s o v) := .outside ..
theorem ringArm_boots (old s : State) : Boots s (ringArm old s) := .ite (.wrB ..)
theorem lstKeep_boots (s : State) (a : Nat) (bs : List Byte) : Boots s (lstKeep s a bs) := .outside ..

theorem applyReg_boots (s : State) (off : Nat) (v : Word) : Boots s (applyReg s off v) := by
  unfold applyReg
  refine .ite_both ((Boots.ite (tblPut_boots ..)).trans (.wr ..)) (.ite_both ((Boots.ite (ageTblPut_boots ..)).trans (.wr ..)) ?_)
  split
  · exact .refl s
  · exact (wrW_boots ..).trans ((Boots.ite_else (wrShW_boots ..)).trans (ringArm_boots ..))

theorem applySect_boots (m : Img) (s : State) (c : Sect) : Boots s (applySect m s c) := by
  unfold applySect
  dsimp only
  split
  · exact Boots.foldl (fun _ _ => applyReg_boots ..) ..
  · exact lstKeep_boots ..
  · exact Boots.foldl (fun _ _ => .ite_both (tblPut_boots ..) (ageTblPut_boots ..)) ..
  · exact .did ..
  · exact .refl s

theorem applySects_boots (s : State) (m : Img) : Boots s (applySects s m) := Boots.foldl (fun _ _ => applySect_boots ..) ..

/-! The end of step 5 (R520, R522) -/

theorem freeBelow_boots (s : State) (k n : Nat) : Boots s (freeBelow s k n).2 := .outside ..

theorem placeFirst_boots (s : State) : Boots s (placeFirst s) := by
  unfold placeFirst
  split
  · exact .outside ..
  · exact .refl s

theorem setOffset_boots (s : State) (p : Int) : Boots s (setOffset s p) := by
  unfold setOffset
  exact (Boots.wr ..).trans (.ite (.outside ..))

theorem step8End_boots (s : State) : Boots s (step8End s) := by
  have h : Boots s { s with boot.step8 := true } := ⟨rfl, rfl, rfl, rfl, rfl⟩
  refine h.trans ?_
  unfold step8End
  refine .ite ((?_ : Boots _ _).trans (.wr ..))
  exact .outside ..

theorem tmbEnter_boots (s : State) (new : Nat) : Boots s (tmbEnter s new) := by
  rw [tmbEnter_eq, enterRest, placeOnLeave, countHoldover, freezeOffset, startLog, lockEndsStep8, startSlew, noteLockEnd]
  refine .ite_else <| (Boots.ite (.outside ..)).trans <| (Boots.wr ..).trans <| (Boots.ite (placeFirst_boots _)).trans <|
    (Boots.ite ((Boots.bump ..).trans (.info ..))).trans <| (Boots.ite ((?_ : Boots _ (heldNow _)).trans (setOffset_boots ..))).trans <|
    (Boots.ite (.outside ..)).trans <| (Boots.ite (step8End_boots _)).trans (.ite (.outside ..))
  exact .outside ..

end Sys2Proof.Machine
end

section
namespace Sys2Proof.Machine

/-! The end of step 5 (R520, R522): what the loaded registers enable -/

theorem setOPort_boots (s : State) (x : Nat) (p : OrlPort) : Boots s (setOPort s x p) := .outside ..

theorem portTo_boots (s : State) (x st : Nat) : Boots s (portTo s x st) := by
  unfold portTo
  refine .ite_else ?_
  have hstate : Boots s (info (wr s (F.ORL_PORT_STAT_state x) st) blkORL x (F.ORL_PORT_STAT_state x)) := (Boots.wr ..).trans (.info ..)
  refine .ite_both hstate ?_
  exact hstate.trans ((setOPort_boots ..).trans ((Boots.ite (setOPort_boots ..)).trans (.wr ..)))

theorem portFollow_boots (s : State) (x : Nat) : Boots s (portFollow s x) := by
  unfold portFollow
  refine .ite_both (.ite_both ((setOPort_boots ..).trans (.wrB ..)) (.ite_both ((setOPort_boots ..).trans (.wrB ..)) (.ite (portTo_boots ..))))
    (.ite_else ((portTo_boots ..).trans (setOPort_boots ..)))

theorem portsFollow_boots (s : State) : Boots s (portsFollow s) :=
  (portFollow_boots s 0).trans ((portFollow_boots _ 1).trans (.wrB ..))

theorem noSensor_boots (s : State) : Boots s (noSensor s) := by
  unfold noSensor
  refine .ite_else ((Boots.wrB s F.PPX_STATUS_no_sensor true).trans ?_)
  exact .outside ..

theorem snsSync_boots (s : State) : Boots s (snsSync s) := by
  unfold snsSync
  refine Boots.trans ?_ (.ite (noSensor_boots _))
  refine Boots.trans ?_ (.wr ..)
  exact .outside ..

theorem freezeSub_boots (s : State) : Boots s (freezeSub s) := by
  unfold freezeSub
  split
  · exact .ite (.outside ..)
  · exact .refl s

theorem setBand_boots (s : State) (b : Nat) : Boots s (setBand s b) := by
  unfold setBand
  exact .ite_else ((freezeSub_boots s).trans ((Boots.wr ..).trans ((Boots.bump ..).trans (.info ..))))

theorem startBandSync_boots (s : State) : Boots s (startBandSync s) := .ite (setBand_boots ..)

theorem bandStart_boots (s : State) : Boots s (bandStart s) := by
  unfold bandStart
  refine Boots.trans ?_ (startBandSync_boots _)
  refine Boots.trans ?_ (.wrB ..)
  exact .outside ..

theorem ageStatus_boots (s : State) : Boots s (ageStatus s) := (Boots.wrB ..).trans ((Boots.wrB ..).trans (.wrB ..))

theorem modIn_boots (s : State) (n : Nat) (f : Inp → Inp) : Boots s (modIn s n f) := .outside ..

theorem inputsSeen_boots (s : State) : Boots s (inputsSeen s) := Boots.foldl (fun _ _ => .ite_else (modIn_boots ..)) ..

theorem ckptAbandon_boots (s : State) : Boots s (ckptAbandon s) := by
  unfold ckptAbandon
  split
  · exact .refl s
  · refine Boots.trans ?_ ((Boots.bump ..).trans (.errorRec ..))
    exact .outside ..

theorem domStop_boots (s : State) (d : Nat) : Boots s (domStop s d) := by
  unfold domStop
  exact .ite_both (.wrB ..) (.ite_both (.outside ..) (.ite (ckptAbandon_boots s)))

/-- A domain that is wanted begins to be switched on. -/
theorem domOning_boots (s : State) (c : Option Nat) (d : Nat) :
    Boots s (match c with
      | some c => if domOn s c then { s with pwr.oning := maskSet s.pwr.oning d true } else s
      | none => { s with pwr.oning := maskSet s.pwr.oning d true }) := by
  cases c
  · exact .outside ..
  · exact .ite (.outside ..)

theorem domFollow1_boots (want : Nat) (s : State) (d : Nat) : Boots s (domFollow1 want s d) := by
  unfold domFollow1
  refine .ite_both (.setBitOf ..) (.ite_both (.setBitOf ..) (.ite_both (.ite_both (.setBitOf ..) ((Boots.setBitOf ..).trans (domOning_boots ..))) ?_))
  refine .ite (Boots.trans ?_ (domStop_boots _ d))
  exact .outside ..

theorem domFollow_boots (s : State) : Boots s (domFollow s) := by
  unfold domFollow
  exact Boots.foldl (fun _ _ => domFollow1_boots ..) ..

theorem camTo_boots (s : State) (n st : Nat) : Boots s (camTo s n st) := by
  unfold camTo
  exact .ite_else ((Boots.wr ..).trans (.info ..))

theorem setCam_boots (s : State) (n : Nat) (c : Cam) : Boots s (setCam s n c) := .outside ..

theorem camMode_boots (s : State) (n : Nat) : Boots s (camMode s n) := by
  unfold camMode
  exact .ite_both (.ite ((setCam_boots ..).trans (camTo_boots ..))) (.ite_else ((camTo_boots ..).trans (.wrB ..)))

/-- The first boundary of a free-running time base: at a tick the manual leaves open. -/
def freeStart (s : State) : State :=
  let f := freeBelow s 15 (picPeriod s)
  match f.2.tmb.next with
  | none => { f.2 with tmb.next := some (f.2.tick + f.1) }
  | some _ => f.2

theorem freeStart_boots (s : State) : Boots s (freeStart s) := by
  unfold freeStart
  dsimp only
  refine (freeBelow_boots s 15 (picPeriod s)).trans ?_
  split
  · exact .outside ..
  · exact .refl _

/-- Step 5 has ended. -/
def step5Done (s : State) : State := { s with boot := { s.boot with step := 6, end5 := some s.tick } }

theorem end5_eq (s : State) : end5 s = (List.range 4).foldl camMode (domFollow (inputsSeen (ageStatus (bandStart (snsSync (portsFollow
    (if refSrc (step5Done s) = 0 then freeStart (step5Done s) else tmbEnter (step5Done s) tmACQUIRE))))))) := rfl

/-- What the loaded registers enable leaves step 5 ended, at this tick. -/
theorem end5_boots (s : State) : Boots (step5Done s) (end5 s) := by
  rw [end5_eq]
  have hgrid : Boots (step5Done s) (if refSrc (step5Done s) = 0 then freeStart (step5Done s) else tmbEnter (step5Done s) tmACQUIRE) :=
    .ite_both (freeStart_boots _) (tmbEnter_boots ..)
  exact hgrid.trans <| (portsFollow_boots _).trans <| (snsSync_boots _).trans <| (bandStart_boots _).trans <| (ageStatus_boots _).trans <|
    (inputsSeen_boots _).trans <| (domFollow_boots _).trans (Boots.foldl (fun _ _ => camMode_boots ..) ..)

end Sys2Proof.Machine
end

section
namespace Sys2Proof.Machine

/-! Steps 6 and 7 (R392, R520): memory, GDR bodies, checkpoint, rebuild -/

theorem memTrained_boots (s : State) (mask : Nat) : Boots s (memTrained s mask) := by
  unfold memTrained
  extract_lets x y mem
  have hx : Boots s x := .wr ..
  have hy : Boots x y := (Boots.wr ..).trans (.wr ..)
  clear_value y x
  exact hx.trans (hy.trans (.outside ..))

theorem memReach_boots (s : State) (cls a n : Nat) : Boots s (memReach s cls a n) := by
  unfold memReach memErr
  exact .ite_else ((Boots.wr ..).trans <| (Boots.wr ..).trans <| (Boots.wr ..).trans <| (Boots.wr ..).trans <| (Boots.wr ..).trans (.errorRec ..))

theorem gddrWr_boots (s : State) (cls a : Nat) (bs : List Byte) : Boots s (gddrWr s cls a bs) := by
  unfold gddrWr
  refine (memReach_boots s cls a bs.length).trans ?_
  exact .outside ..

theorem loadGdr_boots (m : Img) (errs : List Nat) (l : List (Sect × Nat)) (s : State) : Boots s (loadGdr m errs l s).1 := by
  induction l generalizing s with
  | nil => exact .refl s
  | cons c l ih =>
    obtain ⟨c, i⟩ := c
    have hwrite : ∀ x, Boots s x.1 → Boots s (if c.typ != 4 then loadGdr m errs l s else x).1 := fun x hx => by
      split
      · exact ih s
      · exact hx
    refine hwrite _ ?_
    dsimp only
    have hbody := gddrWr_boots s 7 c.dest (sectBody s m c)
    split
    · exact .refl s
    · split
      · exact hbody
      · split
        · exact hbody
        · exact hbody.trans (ih _)

theorem fst_mem_of_eq_some {l : List Nat} {k i : Nat} {c : Nat × Nat} (h : some (k, i) = some c) (hk : k ∈ l) : c.1 ∈ l := by
  rw [← Option.some.inj h]
  exact hk

/-- A GDR body that fails does so for the flash, for its check value or for its digest. -/
theorem loadGdr_code (m : Img) (errs : List Nat) (l : List (Sect × Nat)) (s : State) (c : Nat × Nat) (h : (loadGdr m errs l s).2 = some c) :
    c.1 ∈ [0x12, 0x13, 0x14] := by
  induction l generalizing s with
  | nil => exact absurd h (by simp [loadGdr])
  | cons d l ih =>
    obtain ⟨d, i⟩ := d
    unfold loadGdr at h
    dsimp only at h
    split at h
    · exact ih _ h
    · split at h
      · exact fst_mem_of_eq_some h (by decide)
      · split at h
        · exact fst_mem_of_eq_some h (by decide)
        · split at h
          · exact fst_mem_of_eq_some h (by decide)
          · exact ih _ h

/-- With no GDR section nothing is loaded. -/
theorem loadGdr_none (m : Img) (errs : List Nat) (l : List (Sect × Nat)) (s : State) (h : ∀ c ∈ l, c.1.typ ≠ 4) : loadGdr m errs l s = (s, none) := by
  induction l with
  | nil => rfl
  | cons d l ih =>
    obtain ⟨d, i⟩ := d
    have hd : d.typ ≠ 4 := h (d, i) (.head _)
    rw [loadGdr, if_pos (by simpa using hd)]
    exact ih fun c hc => h c (.tail _ hc)

theorem blockError_boots (s : State) (cause user lane : Nat) (lst : Bool) (addr : Nat) : Boots s (blockError s cause user lane lst addr) := by
  unfold blockError
  exact (Boots.bump ..).trans <| (Boots.wr ..).trans <| (Boots.wr ..).trans <| (Boots.wr ..).trans <| (Boots.wrB ..).trans <|
    (Boots.wr ..).trans <| (Boots.wr ..).trans (.errorRec ..)

theorem ckptErrors_boots (s : State) (k : Nat) : Boots s (ckptErrors s k) := by
  unfold ckptErrors
  refine .ite_else (Boots.foldl (fun u i => ?_) _ s)
  dsimp only
  split
  · split
    · exact (freeBelow_boots ..).trans (blockError_boots ..)
    · exact .refl u
  · exact .refl u

theorem ckptTorn_boots (s : State) (k : Nat) (r : Option (Nat × List (Option (List (List Nat))))) : Boots s (ckptTorn s k r) :=
  .ite ((Boots.bump ..).trans (.warning ..))

theorem ckptApply_boots (s : State) (planes : List (Option (List (List Nat)))) : Boots s (ckptApply s planes) :=
  Boots.foldl (fun _ _ => Boots.foldl (fun _ _ => gddrWr_boots ..) ..) ..

/-- The checkpoint found is loaded. -/
def ckptLoad (s : State) (k q : Nat) (pl : List (Option (List (List Nat)))) : State :=
  let s := ckptApply { s with age.newest := some (k, q) } pl
  wrB (wr (wr (wr s F.AGE_STATUS_newest k) F.AGE_CKPT_SEQ_LO_seq q) F.AGE_CKPT_SEQ_HI_seq (q / 2 ^ 32)) F.AGE_STATUS_ckpt_none false

/-- With none, the stress state begins at zero. -/
def ckptZero (s : State) : State :=
  let z := List.replicate 12288 0#8
  let s := (List.range (panelBW s * panelBH s)).foldl (fun s i => gddrWr s 6 (stressAddr s (32 * (i % panelBW s)) (32 * (i / panelBW s)) 0) z) s
  alarmSet (errorRec (wrB { s with age.newest := none } F.AGE_STATUS_ckpt_none true) blkAGE 0 F.AGE_STATUS_ckpt_none) almCKPT

theorem ckptLoad_boots (s : State) (k q : Nat) (pl : List (Option (List (List Nat)))) : Boots s (ckptLoad s k q pl) := by
  unfold ckptLoad
  refine Boots.trans ?_ ((ckptApply_boots _ pl).trans ((Boots.wr ..).trans ((Boots.wr ..).trans ((Boots.wr ..).trans (.wrB ..)))))
  exact .outside ..

theorem ckptZero_boots (s : State) : Boots s (ckptZero s) := by
  unfold ckptZero
  extract_lets z x
  have hx : Boots s x := Boots.foldl (fun _ _ => gddrWr_boots ..) ..
  clear_value x
  refine hx.trans (Boots.trans ?_ ((Boots.wrB ..).trans ((Boots.errorRec ..).trans (.alarmSet ..))))
  exact .outside ..

theorem ckptRestore_boots (s : State) : Boots s (ckptRestore s) := by
  unfold ckptRestore
  extract_lets a b x best
  have hx : Boots s x := (ckptErrors_boots ..).trans <| (ckptErrors_boots ..).trans <| (ckptTorn_boots ..).trans (ckptTorn_boots ..)
  clear_value x best
  refine hx.trans ?_
  obtain _ | ⟨k, q, pl⟩ := best
  · exact ckptZero_boots x
  · exact ckptLoad_boots ..

end Sys2Proof.Machine
end

section
namespace Sys2Proof.Machine

/-! Step 7's rebuild (R275) -/

theorem assignCmp_boots (n : Nat) (s : State) : Boots s (assignCmp n s) := by
  induction n generalizing s with
  | zero => exact .refl s
  | succ n ih =>
    simp only [assignCmp]
    split
    · exact .refl s
    · split
      · exact .refl s
      · refine Boots.trans ?_ (ih _)
        exact .outside ..

theorem assignDec_boots (n : Nat) (s : State) : Boots s (assignDec n s) := by
  induction n generalizing s with
  | zero => exact .refl s
  | succ n ih =>
    simp only [assignDec]
    split
    · exact .refl s
    · split
      · exact .refl s
      · refine Boots.trans ?_ (ih _)
        split <;> exact .outside ..

theorem assignLanes_boots (s : State) : Boots s (assignLanes s) :=
  (assignDec_boots 16 s).trans ((assignCmp_boots 8 _).trans ((Boots.wr ..).trans (.wr ..)))

theorem askCmp_boots (s : State) (rs : List CmpReq) : Boots s (askCmp s rs) := by
  refine Boots.trans ?_ (assignLanes_boots _)
  exact .outside ..

theorem setQueue_boots (s : State) (k : Nat) (q : List QEntry) : Boots s (setQueue s k q) := .outside ..

theorem resolveSlot_boots (tick : Nat) (pos : Option (Nat × Nat)) (k : Nat) (s : State) (slot : Nat) : Boots s (resolveSlot tick pos k s slot) := by
  unfold resolveSlot
  split
  · next e _ =>
    refine (setQueue_boots s k (retireTo slot e.accNo (queueOf s k))).trans ?_
    exact .outside ..
  · exact .refl s

theorem resolveAll_boots (s : State) (tick : Nat) (pos : Option (Nat × Nat)) : Boots s (resolveAll s tick pos) :=
  Boots.foldl (fun _ _ => Boots.foldl (fun _ _ => resolveSlot_boots ..) ..) ..

theorem resolveDue_boots (s : State) : Boots s (resolveDue s) := by
  unfold resolveDue
  extract_lets due pos x
  have hx : Boots s x := Boots.foldl (fun _ _ => resolveAll_boots ..) ..
  clear_value x
  refine hx.trans ?_
  split
  · exact .ite (resolveAll_boots ..)
  · exact .refl x

/-- What a submission takes before its blocks are asked for: an id, a token, an acceptance number and its open writes. -/
theorem submitNumbers_boots (s : State) (f : Nat) :
    Boots s (openWrites (nextAcc (ownToken (nextId s).2 7).2).2 (nextId s).1 f 3) := .outside ..

theorem submitComp_boots (s : State) (bx by_ : Nat) (codes : List (List Nat)) : Boots s (submitComp s bx by_ codes).2 := by
  unfold submitComp
  extract_lets x k x0 f u id t a y z reqs
  have hx : Boots s x := resolveDue_boots s
  have hy : Boots x y := submitNumbers_boots x f
  have hz : Boots y z := setQueue_boots ..
  clear_value y x
  split
  · exact hx
  · refine (hx.trans (hy.trans hz)).trans ?_
    clear_value z
    refine Boots.trans ?_ ((Boots.bump ..).trans (askCmp_boots ..))
    exact .outside ..

theorem rebuildOffer_boots (s : State) : Boots s (rebuildOffer s) := by
  unfold rebuildOffer
  split
  · extract_lets nb r
    have hr : Boots s r.2 := submitComp_boots ..
    clear_value r
    split
    · refine hr.trans (Boots.trans ?_ (ageStatus_boots _))
      exact .outside ..
    · exact hr
  · exact .refl s

theorem examineBlock_boots (s : State) (bx by_ : Nat) : Boots s (examineBlock s bx by_).2 := by
  unfold examineBlock
  dsimp only
  split
  · exact .refl s
  · split
    · exact .refl s
    · exact submitComp_boots ..

theorem examineRun_boots (n : Nat) (left : Option Nat) (s : State) : Boots s (examineRun n left s) := by
  induction n generalizing left s with
  | zero => exact .refl s
  | succ n ih =>
    by_cases h0 : left = some 0
    · rw [h0]
      exact .refl s
    · rw [examineRun.eq_3 left s n h0]
      dsimp only
      refine (examineBlock_boots s (s.age.rbBlock % panelBW s) (s.age.rbBlock / panelBW s)).trans ?_
      split
      · exact .outside ..
      · refine Boots.trans ?_ (ih _ _)
        exact .outside ..

theorem rebuildStep_boots (s : State) : Boots s (rebuildStep s) := by
  unfold rebuildStep
  refine .ite_else (.ite_both (.ite_else ((examineRun_boots ..).trans (ageStatus_boots _))) (.ite_else ?_))
  refine (rebuildOffer_boots s).trans (.ite_else (Boots.trans (examineRun_boots (panelBW s * panelBH s - (rebuildOffer s).age.rbFirst) none _) ?_))
  exact .outside ..

theorem verdict_boots (s : State) (lane : Nat) (r : CmpReq) (v : Verify) : Boots s (verdict s lane r v).2 := by
  unfold verdict
  split
  · exact .refl s
  · exact (Boots.bump ..).trans (.warning ..)

theorem gddrPut_boots (s : State) (cls a : Nat) (bs : List Byte) : Boots s (gddrPut s cls a bs) := by
  refine (gddrWr_boots s cls a bs).trans ?_
  exact .outside ..

theorem countMode_boots (s : State) (bs : List Byte) : Boots s (countMode s bs) := by
  unfold countMode
  split <;> exact .bump ..

theorem ageingDone_boots (s : State) (id : Nat) : Boots s (ageingDone s id) := by
  refine Boots.trans ?_ (ageStatus_boots _)
  exact .outside ..

/-- A block of the rebuild, delivered, is written and its write counts as done; nothing else follows it. -/
theorem cmpDeliver_boots (s : State) (r : CmpReq) (bs : List Byte) (raw : Bool) (h : isRebuild r = true) : Boots s (cmpDeliver s r bs raw) := by
  unfold isRebuild at h
  unfold cmpDeliver
  cases htag : r.tag with
  | ageing id => exact (gddrPut_boots ..).trans ((countMode_boots ..).trans (ageingDone_boots ..))
  | _ => simp [htag] at h

theorem entryComplete_boots (s : State) (id : Nat) : Boots s (entryComplete s id) := by
  unfold entryComplete
  split
  · exact .ite_else (.outside ..)
  · exact .refl s

theorem isRebuild_of_mem_rebuildBlocks {s : State} {r : CmpReq} (h : r ∈ rebuildBlocks s) : isRebuild r = true := by
  unfold rebuildBlocks at h
  rcases List.mem_append.1 h with h | h
  · exact (List.mem_filter.1 h).2
  · obtain ⟨q, hq, rfl⟩ := List.mem_map.1 h
    exact (List.mem_filter.1 hq).2

theorem foldl_boots_of_mem {α : Type} {f : State → α → State} (l : List α) (h : ∀ a ∈ l, ∀ u, Boots u (f u a)) (s : State) : Boots s (l.foldl f s) := by
  induction l generalizing s with
  | nil => exact .refl s
  | cons a l ih => exact (h a (.head _) s).trans (ih (fun b hb => h b (.tail _ hb)) _)

theorem finishRebuild_boots (s : State) (fails : List (Nat × Fin 8 × Fin 8)) : Boots s (finishRebuild s fails) := by
  unfold finishRebuild
  extract_lets rs ids cdc x y
  have hx : Boots s x := .outside ..
  have hy : Boots x y := foldl_boots_of_mem _ (fun r hr u => by
    have hmem : r.1 ∈ rs := (List.of_mem_zip hr).1
    exact (verdict_boots ..).trans (cmpDeliver_boots _ _ _ _ (isRebuild_of_mem_rebuildBlocks hmem))) x
  clear_value y x
  exact (hx.trans hy).trans ((Boots.foldl (fun _ _ => entryComplete_boots ..) ..).trans (assignLanes_boots _))

theorem fullRebuild_boots (s : State) (fails : List (Nat × Fin 8 × Fin 8)) : Boots s (fullRebuild s fails) := by
  refine Boots.trans ?_ ((rebuildStep_boots _).trans (finishRebuild_boots _ fails))
  exact .outside ..

end Sys2Proof.Machine
end

section
namespace Sys2Proof.Machine

/-! Boot status (R420, R523) -/

theorem bootStat_boots (s : State) (st code check sect : Nat) : Boots s (bootStat s st code check sect) :=
  (Boots.wr ..).trans ((Boots.wr ..).trans ((Boots.wr ..).trans (.wr ..)))

theorem boot_wr (s : State) (f : Fld) (x : Nat) : (wr s f x).boot = s.boot := rfl

theorem boot_bootStat (s : State) (st code check sect : Nat) : (bootStat s st code check sect).boot = s.boot := by
  rw [bootStat, boot_wr, boot_wr, boot_wr, boot_wr]

theorem state_bootStat (s : State) (st code check sect : Nat) (h : st < 4) : rd (bootStat s st code check sect) F.NVM_BOOT_STAT_state = st := by
  rw [bootStat, rd_wr_disjoint _ _ _ _ (by decide) (.inr (by decide)), rd_wr_disjoint _ _ _ _ (by decide) (.inr (by decide)),
    rd_wr_disjoint _ _ _ _ (by decide) (.inr (by decide)), rd_wr_same _ _ _ (by decide)]
  exact Nat.mod_eq_of_lt h

theorem code_bootStat (s : State) (st code check sect : Nat) (h : code < 256) : rd (bootStat s st code check sect) F.NVM_BOOT_STAT_code = code := by
  rw [bootStat, rd_wr_disjoint _ _ _ _ (by decide) (.inr (by decide)), rd_wr_disjoint _ _ _ _ (by decide) (.inl (by decide)),
    rd_wr_same _ _ _ (by decide)]
  exact Nat.mod_eq_of_lt h

/-- The state a failed check is reported in. -/
def bootStop (s : State) (step : Nat) : State := { s with boot := { s.boot with step := step, imageOk := false } }

theorem bootFail_eq (s : State) (step code check sect : Nat) :
    bootFail s step code check sect = alarmSet (errorRec (bootStat (bootStop s step) 2 code check sect) blkNVM 0 F.NVM_BOOT_STAT_code [(code, 1)]) almBOOT :=
  rfl

theorem bootFail_boots (s : State) (step code check sect : Nat) : Boots (bootStop s step) (bootFail s step code check sect) :=
  (bootStat_boots ..).trans ((Boots.errorRec ..).trans (.alarmSet ..))

theorem rd_errorRec (s : State) (b i : Nat) (f g : Fld) (q : List (Nat × Nat)) : rd (errorRec s b i f q) g = rd s g := rfl

theorem rd_alarmSet_other (s : State) (b : Nat) (f : Fld) (h : f.off ≠ F.EVT_ALARM_alarm.off) : rd (alarmSet s b) f = rd s f := by
  rw [rd, rdW_alarmSet_other s b _ h, rd]

/-- A failed check leaves start-up waiting at its step, with its code and the alarm. -/
theorem bootFail_waits (s : State) (step code check sect : Nat) (h : code < 256) : waits (bootFail s step code check sect) step code := by
  obtain ⟨-, -, -, hstep, -⟩ := bootFail_boots s step code check sect
  refine ⟨hstep, ?_, ?_, bitOf_alarmSet _ _ (by decide)⟩
  · rw [bootFail_eq, rd_alarmSet_other _ _ _ (by decide), rd_errorRec, state_bootStat _ _ _ _ _ (by decide)]
  · rw [bootFail_eq, rd_alarmSet_other _ _ _ (by decide), rd_errorRec, code_bootStat _ _ _ _ _ h]

/-! An image that passed its checks (R519 to R521) -/

/-- Step 5 ended as the image of `u` was due, with its digest reported and the flash as it was. -/
def Loaded (u t : State) (m : Img) (e : BootEnv) : Prop :=
  t.boot.end5 = some (u.tick + e.t5) ∧ t.sec.imgHash = some (sha384 (imgRd u m 0 (64 + 96 * m.n))) ∧ t.flash = u.flash

theorem Loaded.of_boots {u s t : State} {m : Img} {e : BootEnv} (h : Loaded u s m e) (hb : Boots s t) : Loaded u t m e := by
  obtain ⟨h1, h2, h3⟩ := h
  obtain ⟨-, hf, hs, -, h5⟩ := hb
  exact ⟨h5.trans h1, by rw [hs, h2], hf.trans h3⟩

theorem Loaded.imgSects {u t : State} {m : Img} {e : BootEnv} (h : Loaded u t m e) (hm : m.src = 0) : imgSects t m = imgSects u m := by
  unfold Machine.imgSects imgRd flashRd
  rw [h.2.2]
  simp only [if_pos hm]

/-- Step 7 has ended. -/
def step7Done (s : State) : State := { s with boot := { s.boot with step := 8, imageOk := true } }

theorem end7_eq (s : State) : end7 s =
    if (bootStat (step7Done s) 1 0 0 0).boot.step8 || refSrc (bootStat (step7Done s) 1 0 0 0) = 0 then step8End (bootStat (step7Done s) 1 0 0 0)
    else bootStat (step7Done s) 1 0 0 0 := rfl

theorem imageOk_step8End (s : State) : (step8End s).boot.imageOk = s.boot.imageOk := by
  unfold step8End
  dsimp only
  split <;> rfl

theorem end7_effect (s : State) : Boots (step7Done s) (end7 s) ∧ (end7 s).boot.imageOk = true ∧ rd (end7 s) F.NVM_BOOT_STAT_state = 1 := by
  have hstat := bootStat_boots (step7Done s) 1 0 0 0
  have hok : (bootStat (step7Done s) 1 0 0 0).boot.imageOk = true := by rw [boot_bootStat]; rfl
  have hst := state_bootStat (step7Done s) 1 0 0 0 (by decide)
  rw [end7_eq]
  split
  · refine ⟨hstat.trans (step8End_boots _), (imageOk_step8End _).trans hok, ?_⟩
    rw [(step8End_edge _ (.head _) : Edge [F.PSQ_FAULT.off] _ _).rd _ (by decide), hst]
  · exact ⟨hstat, hok, hst⟩

/-- Step 7 as it begins. -/
def step7Begin (s : State) (at_ : Nat) : State := reach { s with boot.step := 7 } at_

theorem step7_eq (s : State) (m : Img) (e : BootEnv) (t0 : Nat) : step7 s m e t0 =
    match loadGdr m e.flashErrs ((imgSects (step7Begin s (t0 + e.t7)) m).zip (List.range (imgSects (step7Begin s (t0 + e.t7)) m).length))
      (step7Begin s (t0 + e.t7)) with
    | (s, some (code, i)) => bootFail s 7 code 0 i
    | (s, none) => end7 (fullRebuild (ckptRestore s) e.rebuildFails) := rfl

/-- How step 7 can end: the image is in use, or a GDR body has failed. -/
def step7Ended (t : State) : Prop :=
  (t.boot.step = 8 ∧ t.boot.imageOk = true ∧ rd t F.NVM_BOOT_STAT_state = 1) ∨
    (t.boot.step = 7 ∧ rd t F.NVM_BOOT_STAT_state = 2 ∧ rd t F.NVM_BOOT_STAT_code ∈ [0x12, 0x13, 0x14])

theorem end7_started {u s : State} {m : Img} {e : BootEnv} (h : Loaded u s m e) :
    Loaded u (end7 s) m e ∧ (end7 s).boot.step = 8 ∧ step7Ended (end7 s) := by
  obtain ⟨hb, hok, hst⟩ := end7_effect s
  have hdone : Loaded u (step7Done s) m e := h
  have hstep : (end7 s).boot.step = 8 := hb.2.2.2.1
  exact ⟨hdone.of_boots hb, hstep, .inl ⟨hstep, hok, hst⟩⟩

theorem step7_started {u s : State} {m : Img} {e : BootEnv} (t0 : Nat) (h : Loaded u s m e) :
    Loaded u (step7 s m e t0) m e ∧ step7Ended (step7 s m e t0) ∧
      (m.src = 0 → (∀ c ∈ imgSects u m, c.typ ≠ 4) → (step7 s m e t0).boot.step = 8) := by
  have hbegin : Loaded u (step7Begin s (t0 + e.t7)) m e := h
  rw [step7_eq]
  generalize step7Begin s (t0 + e.t7) = v at hbegin ⊢
  have hload := loadGdr_boots m e.flashErrs ((imgSects v m).zip (List.range (imgSects v m).length)) v
  have hcode := loadGdr_code m e.flashErrs ((imgSects v m).zip (List.range (imgSects v m).length)) v
  have hnone := loadGdr_none m e.flashErrs ((imgSects v m).zip (List.range (imgSects v m).length)) v
  generalize loadGdr m e.flashErrs ((imgSects v m).zip (List.range (imgSects v m).length)) v = r at hload hcode hnone ⊢
  obtain ⟨x, _ | ⟨code, i⟩⟩ := r
  · have hx : Loaded u (fullRebuild (ckptRestore x) e.rebuildFails) m e :=
      hbegin.of_boots (hload.trans ((ckptRestore_boots x).trans (fullRebuild_boots ..)))
    obtain ⟨hl, hstep, hend⟩ := end7_started hx
    exact ⟨hl, hend, fun _ _ => hstep⟩
  · have hmem : code ∈ [0x12, 0x13, 0x14] := hcode (code, i) rfl
    have hlt : code < 256 := by
      have hall : ∀ c ∈ [0x12, 0x13, 0x14], c < 256 := by decide
      exact hall code hmem
    obtain ⟨hstep, hst, hc, -⟩ := bootFail_waits x 7 code 0 i hlt
    have hx : Loaded u x m e := hbegin.of_boots hload
    have hstop : Loaded u (bootStop x 7) m e := hx
    refine ⟨hstop.of_boots (bootFail_boots ..), .inr ⟨hstep, hst, by rw [hc]; exact hmem⟩, fun hm htyp => ?_⟩
    refine absurd (congrArg Prod.snd (hnone fun c hc => ?_)) nofun
    rw [hbegin.imgSects hm] at hc
    exact htyp _ (List.of_mem_zip hc).1

/-! Steps 5 and 6 -/

theorem chansInUse_trained (s : State) (x : Nat) : chansInUse (wr s F.MEM_STATUS_trained x) = chansInUse s := by
  unfold chansInUse on
  rw [rd_wr_other _ _ _ _ (by decide), rd_wr_other _ _ _ _ (by decide)]

/-- Every channel in use has trained. -/
def allTrained (s : State) (e : BootEnv) : Bool := (List.range 8).all (fun c => !maskHas (chansInUse s) c || maskHas e.g6Trained.toNat c)

theorem allTrained_of {s : State} {e : BootEnv} (h : ∀ c, c < 8 → maskHas (chansInUse s) c = true → maskHas e.g6Trained.toNat c = true) :
    allTrained s e = true := by
  refine List.all_eq_true.2 fun c hc => ?_
  cases hu : maskHas (chansInUse s) c with
  | false => rfl
  | true => simpa using h c (List.mem_range.1 hc) hu

/-- GDDR6, trained, is written with zeros. -/
def gddrZero (s : State) : State := { s with gddr := [], mem := { s.mem with gpoison := [] } }

theorem step6_eq (s : State) (m : Img) (e : BootEnv) (t0 : Nat) : step6 s m e t0 =
    if allTrained s e then step7 (gddrZero (memTrained s (chansInUse s))) m e t0 else wr s F.MEM_STATUS_trained (chansInUse s &&& e.g6Trained.toNat) :=
  rfl

/-- Step 5 up to its end. -/
def step5End (u : State) (m : Img) (e : BootEnv) : State := end5 (reach (applySects (incCounter (imgReport u m) 2) m) (u.tick + e.t5))

theorem step5_eq (u : State) (m : Img) (e : BootEnv) : step5 u m e u.tick = step6 (step5End u m e) m e u.tick := rfl

/-- The image's digest is reported to Gauntlet (R484). -/
def reported (u : State) (m : Img) : State := { u with sec.imgHash := some (sha384 (imgRd u m 0 (64 + 96 * m.n))) }

theorem imgReport_boots (u : State) (m : Img) : Boots (reported u m) (imgReport u m) := (Boots.wr ..).trans (.wr ..)

theorem step5End_loaded (u : State) (m : Img) (e : BootEnv) : Loaded u (step5End u m e) m e ∧ (step5End u m e).boot.step = 6 := by
  have hsects := (imgReport_boots u m).trans ((incCounter_boots _ 2).trans (applySects_boots _ m))
  obtain ⟨htick, hflash, hsec, -, -⟩ := hsects
  unfold step5End
  generalize applySects (incCounter (imgReport u m) 2) m = x at htick hflash hsec ⊢
  obtain ⟨-, hflash', hsec', hstep, hend⟩ := end5_boots (reach x (u.tick + e.t5))
  refine ⟨⟨?_, ?_, ?_⟩, hstep⟩
  · rw [hend]
    show some (max x.tick (u.tick + e.t5)) = _
    rw [htick]
    exact congrArg some (Nat.max_eq_right (Nat.le_add_right ..))
  · rw [hsec']
    show x.sec.imgHash = _
    rw [hsec]
    rfl
  · rw [hflash']
    exact hflash

theorem step5_started (u : State) (m : Img) (e : BootEnv) : started u (step5 u m e u.tick) m e := by
  obtain ⟨hl, hstep⟩ := step5End_loaded u m e
  rw [step5_eq, step6_eq]
  generalize step5End u m e = v at hl hstep ⊢
  split
  · have hzero : Boots v (gddrZero (memTrained v (chansInUse v))) := (memTrained_boots ..).trans (.outside ..)
    obtain ⟨hl', hend, hno⟩ := step7_started u.tick (hl.of_boots hzero)
    refine ⟨hl'.1, ?_, hl'.2.1, fun _ => hend, fun _ => hno⟩
    rcases hend with ⟨h, -, -⟩ | ⟨h, -, -⟩ <;> rw [h] <;> decide
  · next hall =>
    have hv := Boots.wr v F.MEM_STATUS_trained (chansInUse v &&& e.g6Trained.toNat)
    have hl' := hl.of_boots hv
    have hcontra : ¬ ∀ c, c < 8 → maskHas (chansInUse (wr v F.MEM_STATUS_trained (chansInUse v &&& e.g6Trained.toNat))) c = true →
        maskHas e.g6Trained.toNat c = true := fun h => hall (allTrained_of (by rwa [chansInUse_trained] at h))
    exact ⟨hl'.1, (hv.2.2.2.1.trans hstep).ge, hl'.2.1, fun h => absurd h hcontra, fun h => absurd h hcontra⟩

/-! Step 4 (R412, R417) -/

theorem step4_silent (s : State) (e : BootEnv) (h : e.sfdpOk = false) : step4 s 0 e = bootFail (atStep4 s 0 e) 4 0x01 0 0 := by
  unfold step4
  rw [if_pos (by rw [h]; rfl)]

theorem step4_waits (s : State) (e : BootEnv) (h : e.sfdpOk = false) : waits (step4 s 0 e) 4 0x01 := by
  rw [step4_silent s e h]
  exact bootFail_waits _ _ _ _ _ (by decide)

theorem step4_started (s : State) (src : Nat) (e : BootEnv) (img : Img) (h : src = 1 ∨ e.sfdpOk = true)
    (hi : imgCheck (atStep4 s src e) src = .ok img) : started (atStep4 s src e) (step4 s src e) img e := by
  have hno : ¬ (decide (src = 0) && !e.sfdpOk) = true := by
    rcases h with rfl | h
    · simp
    · simp [h]
  have hstep : step4 s src e = step5 (atStep4 s src e) img e (atStep4 s src e).tick := by
    unfold step4
    rw [if_neg hno, hi]
  rw [hstep]
  exact step5_started _ img e

end Sys2Proof.Machine
end

section
namespace Sys2Proof.Machine

/-! The PCIe resets (R516, R518) -/

/-- The aperture base, the first words of the MSI-X table and the pending bits, which a function-level reset clears. -/
def fnZeroRegs : List Nat := [F.GEN_BAR2_LO.off, F.GEN_BAR2_HI.off, (F.GEN_MSIX_TABLE 0).off, (F.GEN_MSIX_TABLE 1).off,
  (F.GEN_MSIX_TABLE 2).off, F.GEN_MSIX_PBA.off]

/-- Every register a function-level reset writes. -/
def fnRegs : List Nat := (F.GEN_MSIX_TABLE 3).off :: F.SEC_STATUS_session.off :: fnZeroRegs

/-- The registers of a function-level reset; the vector is masked again. -/
def fnClear (s : State) : State := wrW (fnZeroRegs.foldl (fun s o => wrW s o 0#32) s) (F.GEN_MSIX_TABLE 3).off 1#32

/-- The host interface after a function-level reset. -/
def fnHost (h : HostIf) (now : Nat) : HostIf :=
  { h with busMaster := false, d3hot := false, aspmL1 := false, msixMask := false, maxPayload := 128, pcieAt := some now }

/-- The end of a function-level reset: the host interface, then the session. -/
def fnEnd (s : State) : State := sesClose { s with host := fnHost s.host s.tick }

theorem pcieFunctionReset_eq (s : State) : pcieFunctionReset s = fnEnd (fnClear s) := rfl

theorem RegOnly.wrWs (l : List Nat) (v : Word) (s : State) : RegOnly s (l.foldl (fun s o => Machine.wrW s o v) s) := by
  induction l generalizing s with
  | nil => exact rfl
  | cons o l ih => exact (RegOnly.wrW s o v).trans (ih _)

theorem rdW_wrWs (l : List Nat) (v : Word) (s : State) (p : Nat) : rdW (l.foldl (fun s o => wrW s o v) s) p = if p ∈ l then v else rdW s p := by
  induction l generalizing s with
  | nil => simp
  | cons o l ih =>
    rw [List.foldl_cons, ih, rdW_wrW]
    simp only [List.mem_cons]
    split <;> split <;> simp_all

theorem fnClear_regOnly (s : State) : RegOnly s (fnClear s) := (RegOnly.wrWs ..).trans (.wrW ..)

theorem rdW_fnClear_zero (s : State) (o : Nat) (h : o ∈ fnZeroRegs) : rdW (fnClear s) o = 0#32 := by
  have hne : o ≠ (F.GEN_MSIX_TABLE 3).off := fun e => absurd (e ▸ h) (by decide)
  rw [fnClear, rdW_wrW_other _ _ _ _ hne, rdW_wrWs, if_pos h]

theorem rdW_fnClear_other (s : State) (o : Nat) (h : o ∉ fnRegs) : rdW (fnClear s) o = rdW s o := by
  simp only [fnRegs, List.mem_cons, not_or] at h
  rw [fnClear, rdW_wrW_other _ _ _ _ h.1, rdW_wrWs, if_neg h.2.2]

/-- What any of the two resets leaves and shows. -/
structure FnReset (offs : List Nat) (s t : State) : Prop where
  mem : memKept s t
  frame : t = { s with reg := t.reg, host := t.host, sec := t.sec, pwr := t.pwr }
  busMaster : t.host.busMaster = false
  d3hot : t.host.d3hot = false
  aspmL1 : t.host.aspmL1 = false
  msixMask : t.host.msixMask = false
  session : sesState t = 0
  sec : t.sec = { s.sec with keys := [], nonce := [], fails := 0 }
  zero : ∀ o ∈ fnZeroRegs, rdW t o = 0#32
  kept : regsKept s t offs

theorem fnEnd_reg (s : State) : (fnEnd s).reg = (wr s F.SEC_STATUS_session 0).reg := rfl

theorem RegOnly.exists_reg {s t : State} (h : RegOnly s t) : ∃ r, t = { s with reg := r } := ⟨t.reg, h⟩

theorem sesClose_frame (s : State) : ∃ r, sesClose s = { s with reg := r, sec := { s.sec with keys := [], nonce := [], fails := 0 } } := by
  obtain ⟨r, hr⟩ := (RegOnly.wr s F.SEC_STATUS_session 0).exists_reg
  exact ⟨r, by rw [sesClose, hr]⟩

/-- Of a state that differs in registers, the end of a function-level reset changes three parts. -/
theorem fnEnd_frame {s m : State} (h : RegOnly s m) : ∃ r,
    fnEnd m = { s with reg := r, host := fnHost s.host s.tick, sec := { s.sec with keys := [], nonce := [], fails := 0 } } := by
  obtain ⟨r, rfl⟩ := h.exists_reg
  exact sesClose_frame { s with reg := r, host := fnHost s.host s.tick }

theorem rd_fnReset (s : State) (f : Fld) : rd (pcieFunctionReset s) f = rd (wr (fnClear s) F.SEC_STATUS_session 0) f := by
  rw [pcieFunctionReset_eq]
  exact rd_congr (fnEnd_reg _) f

theorem rdW_fnReset (s : State) (o : Nat) (h : o ≠ F.SEC_STATUS_session.off) : rdW (pcieFunctionReset s) o = rdW (fnClear s) o := by
  rw [pcieFunctionReset_eq, rdW_congr (fnEnd_reg (fnClear s)), rdW_wr, if_neg h]

theorem pcieFunctionReset_effect (s : State) : FnReset fnRegs s (pcieFunctionReset s) ∧ (pcieFunctionReset s).pwr = s.pwr := by
  have hses : rd (pcieFunctionReset s) F.SEC_STATUS_session = 0 := by rw [rd_fnReset, rd_wr_same _ _ _ (by decide)]; rfl
  have hz : ∀ o ∈ fnZeroRegs, rdW (pcieFunctionReset s) o = 0#32 := fun o ho => by
    rw [rdW_fnReset _ _ fun e => absurd (e ▸ ho) (by decide), rdW_fnClear_zero s o ho]
  have hk : regsKept s (pcieFunctionReset s) fnRegs := fun o ho => by
    have hne : o ≠ F.SEC_STATUS_session.off := fun e => by rw [e] at ho; exact ho (by decide)
    rw [rdW_fnReset _ _ hne, rdW_fnClear_other s o ho]
  obtain ⟨r, hframe⟩ := fnEnd_frame (fnClear_regOnly s)
  rw [← pcieFunctionReset_eq] at hframe
  generalize pcieFunctionReset s = t at hses hz hk hframe ⊢
  subst hframe
  exact ⟨⟨⟨rfl, rfl, rfl, rfl, rfl, rfl⟩, rfl, rfl, rfl, rfl, rfl, hses, rfl, hz, hk⟩, rfl⟩

/-- The link goes down. -/
def linkDown (s : State) : State :=
  let s := wr (wr (wrB s F.GEN_STATUS_link_up false) F.GEN_STATUS_gen 0) F.GEN_STATUS_width 0
  { s with host := { s.host with l1 := false, l2 := false }, pwr := { s.pwr with perst := false } }

theorem perstLow_eq (s : State) : perstLow s = linkDown (pcieFunctionReset s) := rfl

theorem linkDown_pwr (s : State) : (linkDown s).pwr = { s.pwr with perst := false } := rfl

theorem rdW_linkDown_other (s : State) (o : Nat) (h : o ≠ F.GEN_STATUS_link_up.off) : rdW (linkDown s) o = rdW s o :=
  (rdW_wrW_other _ F.GEN_STATUS_width.off o _ h).trans <| (rdW_wrW_other _ F.GEN_STATUS_gen.off o _ h).trans <|
    rdW_wrW_other s F.GEN_STATUS_link_up.off o _ h

theorem rd_linkDown (s : State) (f : Fld) :
    rd (linkDown s) f = rd (wr (wr (wrB s F.GEN_STATUS_link_up false) F.GEN_STATUS_gen 0) F.GEN_STATUS_width 0) f := rfl

theorem linkDown_shows (s : State) :
    rd (linkDown s) F.GEN_STATUS_link_up = 0 ∧ rd (linkDown s) F.GEN_STATUS_gen = 0 ∧ rd (linkDown s) F.GEN_STATUS_width = 0 := by
  refine ⟨?_, ?_, ?_⟩
  · rw [rd_linkDown, rd_wr_disjoint _ _ _ _ (by decide) (.inl (by decide)), rd_wr_disjoint _ _ _ _ (by decide) (.inl (by decide)),
      rd_wrB_same _ _ _ (by decide) (by decide)]
    rfl
  · rw [rd_linkDown, rd_wr_disjoint _ _ _ _ (by decide) (.inl (by decide)), rd_wr_same _ _ _ (by decide)]
    rfl
  · rw [rd_linkDown, rd_wr_same _ _ _ (by decide)]
    rfl

theorem linkDown_reset {s p : State} (h : FnReset fnRegs s p) : FnReset (F.GEN_STATUS_link_up.off :: fnRegs) s (linkDown p) where
  mem := h.mem
  frame := by
    have hp := h.frame
    have hl : linkDown p = { p with reg := (linkDown p).reg, host := (linkDown p).host, pwr := (linkDown p).pwr } := rfl
    generalize linkDown p = t at hl
    rw [hl, hp]
  busMaster := h.busMaster
  d3hot := h.d3hot
  aspmL1 := h.aspmL1
  msixMask := h.msixMask
  session := (rd_linkDown ..).trans <| (rd_wr_other _ _ _ _ (by decide)).trans <| (rd_wr_other _ _ _ _ (by decide)).trans <|
    (rd_wr_other _ _ _ _ (by decide)).trans h.session
  sec := h.sec
  zero := fun o ho => by
    have hne : o ≠ F.GEN_STATUS_link_up.off := fun e => absurd (e ▸ ho) (by decide)
    rw [rdW_linkDown_other _ _ hne, h.zero o ho]
  kept := fun o ho => by
    simp only [List.mem_cons, not_or] at ho
    rw [rdW_linkDown_other _ _ ho.1]
    exact h.kept o (by simpa using ho.2)

theorem pcieReset_effect (s : State) (c : Instr) (h : c ∈ [Instr.perstNLow, .functionLevelReset]) :
    ∃ t, exec c s = .next t ∧ FnReset (F.GEN_STATUS_link_up.off :: fnRegs) s t ∧
      (c = .functionLevelReset → rdW t F.GEN_STATUS_link_up.off = rdW s F.GEN_STATUS_link_up.off ∧ t.pwr = s.pwr) ∧
      (c = .perstNLow → rd t F.GEN_STATUS_link_up = 0 ∧ rd t F.GEN_STATUS_gen = 0 ∧ rd t F.GEN_STATUS_width = 0 ∧
        t.pwr = { s.pwr with perst := false }) := by
  obtain ⟨hfn, hpwr⟩ := pcieFunctionReset_effect s
  simp only [List.mem_cons, List.not_mem_nil, or_false] at h
  rcases h with rfl | rfl
  · obtain ⟨h1, h2, h3⟩ := linkDown_shows (pcieFunctionReset s)
    refine ⟨linkDown (pcieFunctionReset s), congrArg Host.Outcome.next (perstLow_eq s), linkDown_reset hfn, nofun, fun _ => ⟨h1, h2, h3, ?_⟩⟩
    rw [linkDown_pwr, hpwr]
  · exact ⟨pcieFunctionReset s, rfl, { hfn with kept := fun o ho => hfn.kept o fun hm => ho (.tail _ hm) },
      fun _ => ⟨hfn.kept _ (by decide), hpwr⟩, nofun⟩

/-! Start-up begins, or is asked for again (R412, R421, R519) -/

theorem startFrom2_selfTest (s : State) (e : BootEnv) (h : e.selfTestOk = false) : waits (startFrom2 s e) 3 0x20 := by
  have hx : startFrom2 s e = bootFail (atStep3 s) 3 0x20 0 0 := if_pos (by rw [h]; rfl)
  rw [hx]
  exact bootFail_waits _ _ _ _ _ (by decide)

theorem startFrom2_step4 (s : State) (e : BootEnv) (h : e.selfTestOk = true) : startFrom2 s e = step4 (gauntletStart (atStep3 s)) 0 e :=
  if_neg (by rw [h]; decide)

/-- What start-up from step 2 comes to, by its environment. -/
theorem startFrom2_effect (m u t : State) (e : BootEnv) (hu : u = atStep4 (gauntletStart (atStep3 m)) 0 e) (ht : t = startFrom2 m e) :
    (e.selfTestOk = false → waits t 3 0x20) ∧ (e.selfTestOk = true → e.sfdpOk = false → waits t 4 0x01) ∧
      (∀ img, e.selfTestOk = true → e.sfdpOk = true → imgCheck u 0 = .ok img → started u t img e) := by
  subst hu ht
  refine ⟨startFrom2_selfTest m e, fun h1 h2 => ?_, fun img h1 h2 hi => ?_⟩
  · rw [startFrom2_step4 m e h1]
    exact step4_waits _ e h2
  · rw [startFrom2_step4 m e h1]
    exact step4_started _ 0 e img (.inr h2) hi

theorem exec_startUp {s m : State} {c : Instr} {e : BootEnv} (h : (c = .porNRise e ∧ s.boot.step = 0 ∧ m = journalled s) ∨
    (c = .p4Exit e ∧ pwrState s = 4 ∧ s.pwr.exitDue = true ∧ m = p4State s)) : exec c s = .next (startFrom2 m e) := by
  rcases h with ⟨rfl, h0, rfl⟩ | ⟨rfl, h4, hd, rfl⟩
  · have hx : porRise s e = startFrom2 (journalled s) e := if_neg (by rw [h0]; decide)
    exact congrArg _ hx
  · have hx : p4Exit s e = startFrom2 (p4State s) e := if_pos (by rw [h4, hd]; decide)
    exact congrArg _ hx

theorem exec_startUp_ignored (s : State) (e : BootEnv) : (s.boot.step ≠ 0 → exec (.porNRise e) s = .next s) ∧
    (pwrState s ≠ 4 ∨ s.pwr.exitDue = false → exec (.p4Exit e) s = .next s) := by
  refine ⟨fun h => ?_, fun h => ?_⟩
  · have hx : porRise s e = s := if_pos (by simpa using h)
    exact congrArg _ hx
  · have hx : p4Exit s e = s := if_neg (by rcases h with h | h <;> simp [h])
    exact congrArg _ hx

theorem exec_boot {s : State} {c : Instr} {src : Nat} {e : BootEnv} (hs : served s F.NVM_BOOT_CMD_go.off true)
    (hc : (c, src) ∈ [(Instr.bootFlash e, 0), (.bootHost e, 1)]) : exec c s = .next (bootCmd s src e) := by
  simp only [List.mem_cons, Prod.mk.injEq, List.not_mem_nil, or_false] at hc
  rcases hc with ⟨rfl, rfl⟩ | ⟨rfl, rfl⟩
  · exact exec_of_served (fun s => bootCmd s 0 e) hs rfl
  · exact exec_of_served (fun s => bootCmd s 1 e) hs rfl

theorem bootCmd_accepted (s : State) (src : Nat) (e : BootEnv) (h1 : rd s F.NVM_BOOT_STAT_state = 2) (h2 : rd s F.NVM_BOOT_STAT_code ≠ 0x20)
    (h3 : src = 0 ∨ rd s F.SEC_CFG_host_boot = 1) : bootCmd s src e = step4 (bootStat (bootReset s) 0 0 0 0) src e := by
  refine if_neg ?_
  rcases h3 with h3 | h3 <;> simp [h1, h2, h3, on]

theorem bootCmd_refused (s : State) (src : Nat) (e : BootEnv)
    (h : rd s F.NVM_BOOT_STAT_state ≠ 2 ∨ rd s F.NVM_BOOT_STAT_code = 0x20 ∨ (src = 1 ∧ rd s F.SEC_CFG_host_boot = 0)) :
    bootCmd s src e = nvmWrIgn s := by
  refine if_pos ?_
  rcases h with h | h | ⟨h, h'⟩
  · simp [h]
  · simp [h]
  · simp [h, h', on]

theorem bump_frame (s m : State) (f : Fld) (h : RegOnly s m) : bump m f = { s with reg := (bump m f).reg, now := (bump m f).now } := by
  unfold RegOnly at h
  generalize m.reg = r at h
  subst h
  rfl

theorem nvmWrIgn_effect (s : State) :
    nvmWrIgn s = { s with reg := (nvmWrIgn s).reg, now := (nvmWrIgn s).now } ∧ rd (nvmWrIgn s) F.NVM_STATUS_wr_ign = 1 ∧
      rd (nvmWrIgn s) F.NVM_CNT_ERR_wr_ign = counted s F.NVM_CNT_ERR_wr_ign ∧
      regsKept s (nvmWrIgn s) [F.NVM_STATUS_wr_ign.off, F.NVM_CNT_ERR_wr_ign.off] := by
  have hflag : rd (wrB s F.NVM_STATUS_wr_ign true) F.NVM_CNT_ERR_wr_ign = rd s F.NVM_CNT_ERR_wr_ign := rd_wr_other _ _ _ _ (by decide)
  refine ⟨bump_frame s _ _ (.wrB ..), ?_, ?_, ?_⟩
  · rw [nvmWrIgn, rd_bump_other _ _ _ (by decide), rd_wrB_same _ _ _ (by decide) (by decide), if_pos rfl]
  · rw [nvmWrIgn, rd_bump _ _ (by decide), counted_congr _ hflag]
  · exact ((Edge.wrB s _ true (.head _)).trans (Edge.bump _ _ (.tail _ (.head _)))).regs

/-! A channel's time limit and the die's sensors (R392, R544, R564) -/

theorem bootFail_edge (s : State) (step code check sect : Nat) :
    Edge [F.NVM_BOOT_STAT_code.off, F.EVT_ALARM_alarm.off] s (bootFail s step code check sect) := by
  have hstop : Edge [F.NVM_BOOT_STAT_code.off, F.EVT_ALARM_alarm.off] s (bootStop s step) := .of_time rfl rfl rfl
  have hstat : Edge [F.NVM_BOOT_STAT_code.off, F.EVT_ALARM_alarm.off] (bootStop s step) (bootStat (bootStop s step) 2 code check sect) :=
    (Edge.wr _ _ _ (by decide)).trans <| (Edge.wr _ _ _ (by decide)).trans <| (Edge.wr _ _ _ (by decide)).trans (.wr _ _ _ (by decide))
  have hrec : ∀ u f q, Edge [F.NVM_BOOT_STAT_code.off, F.EVT_ALARM_alarm.off] u (errorRec u blkNVM 0 f q) := fun u f q =>
    ⟨rfl, fun _ _ => rfl, fun _ h => (mem_insRec _ _ _).2 (.inr h)⟩
  exact hstop.trans (hstat.trans ((hrec ..).trans ((alarmSet_edge ..).mono fun o ho => .tail _ ho)))

theorem setBitOf_edge (s : State) (f : Fld) (i : Nat) (b : Bool) : Edge [f.off] s (setBitOf s f i b) := Edge.wr s f _ (.head [])

theorem g6Timeout_effect (s : State) (c : Nat) (hc : c < 8) (h6 : s.boot.step = 6) (hu : maskHas (chansInUse s) c = true) :
    waits (g6Timeout s c) 6 0x21 ∧ memKept s (g6Timeout s c) ∧ bitOf (g6Timeout s c) F.MEM_STATUS_fail c = true ∧
      (g6Timeout s c).tick = max s.tick (s.boot.end5.getD s.tick + rd s F.MEM_TRAIN_init_ms * Config.tickMs) := by
  have hx : g6Timeout s c =
      bootFail (setBitOf (reach s (s.boot.end5.getD s.tick + rd s F.MEM_TRAIN_init_ms * Config.tickMs)) F.MEM_STATUS_fail c true) 6 0x21 0 0 :=
    if_neg (by rw [h6, hu]; decide)
  rw [hx]
  generalize s.boot.end5.getD s.tick + rd s F.MEM_TRAIN_init_ms * Config.tickMs = d
  have hset := setBitOf_edge (reach s d) F.MEM_STATUS_fail c true
  have hedge := bootFail_edge (setBitOf (reach s d) F.MEM_STATUS_fail c true) 6 0x21 0 0
  obtain ⟨h1, h2, h3, h4, h5, h6⟩ := (hset.time.trans hedge.time).memKept
  refine ⟨bootFail_waits _ _ _ _ _ (by decide), ⟨h1, h2, h3, h4, h5, h6⟩, ?_, (hset.time.trans hedge.time).tick⟩
  rw [bitOf_eq_testBit, hedge.rd _ (by decide), ← bitOf_eq_testBit]
  exact bitOf_setBitOf_true _ _ _ (by decide) hc

theorem exec_g6Timeout_ignored (s : State) (c : Fin 8) (h : s.boot.step ≠ 6 ∨ maskHas (chansInUse s) c = false) :
    exec (.g6TrainTimeout c) s = .next s := by
  have hx : g6Timeout s c.val = s := if_pos (by rcases h with h | h <;> simp [h])
  exact congrArg _ hx

/-- The hottest of the readings. -/
def hottest (r : BitVec 16) (l : List (BitVec 16)) : Int := l.foldl (fun m x => max m x.toInt) r.toInt

theorem foldl_max_ge (l : List (BitVec 16)) (m : Int) :
    m ≤ l.foldl (fun m x => max m x.toInt) m ∧ ∀ x ∈ l, x.toInt ≤ l.foldl (fun m x => max m x.toInt) m := by
  induction l generalizing m with
  | nil => exact ⟨le_refl m, nofun⟩
  | cons y l ih =>
    obtain ⟨h1, h2⟩ := ih (max m y.toInt)
    rw [List.foldl_cons]
    refine ⟨(le_max_left ..).trans h1, fun x hx => ?_⟩
    rcases List.mem_cons.1 hx with rfl | hx
    · exact (le_max_right ..).trans h1
    · exact h2 x hx

theorem hottest_ge (r : BitVec 16) (l : List (BitVec 16)) (x : BitVec 16) (hx : x ∈ r :: l) : x.toInt ≤ hottest r l := by
  obtain ⟨h1, h2⟩ := foldl_max_ge l r.toInt
  rcases List.mem_cons.1 hx with rfl | hx
  · exact h1
  · exact h2 x hx

theorem hottest_mem (r : BitVec 16) (l : List (BitVec 16)) : ∃ x ∈ r :: l, hottest r l = x.toInt := by
  induction l generalizing r with
  | nil => exact ⟨r, .head _, rfl⟩
  | cons y l ih =>
    rcases le_total y.toInt r.toInt with h | h
    · obtain ⟨x, hx, he⟩ := ih r
      refine ⟨x, ?_, ?_⟩
      · rcases List.mem_cons.1 hx with rfl | hx
        · exact .head _
        · exact .tail _ (.tail _ hx)
      · rw [← he, hottest, List.foldl_cons, max_eq_left h, hottest]
    · obtain ⟨x, hx, he⟩ := ih y
      exact ⟨x, .tail _ hx, by rw [← he, hottest, List.foldl_cons, max_eq_right h, hottest]⟩

theorem dieSample_eq (s : State) (r : BitVec 16) (l : List (BitVec 16)) : dieSample s (r :: l) =
    if 110 * 16 ≤ hottest r l then alarmSet (wrS s F.PPX_TEMP_die (hottest r l)) almTHERM else wrS s F.PPX_TEMP_die (hottest r l) := rfl

theorem dieSample_effect (s : State) (rs : List (BitVec 16)) (h : rs ≠ []) :
    memKept s (dieSample s rs) ∧ (∀ x ∈ rs, x.toInt ≤ rdS (dieSample s rs) F.PPX_TEMP_die) ∧
      (∃ x ∈ rs, rdS (dieSample s rs) F.PPX_TEMP_die = x.toInt) ∧
      (110 * 16 ≤ rdS (dieSample s rs) F.PPX_TEMP_die → bitOf (dieSample s rs) F.EVT_ALARM_alarm almTHERM = true) ∧
      regsKept s (dieSample s rs) [F.PPX_TEMP_die.off, F.EVT_ALARM_alarm.off] := by
  obtain ⟨r, l, rfl⟩ := List.exists_cons_of_ne_nil h
  obtain ⟨x, hx, he⟩ := hottest_mem r l
  have hshow : rdS (wrS s F.PPX_TEMP_die (hottest r l)) F.PPX_TEMP_die = hottest r l := by
    rw [he]
    exact rdS_wrS_same _ _ _ (by decide) (by decide) (BitVec.le_toInt x) (BitVec.toInt_lt (x := x))
  have halarm : Edge [F.EVT_ALARM_alarm.off] (wrS s F.PPX_TEMP_die (hottest r l)) (dieSample s (r :: l)) := by
    rw [dieSample_eq]
    exact .ite fun _ => alarmSet_edge ..
  have hread : rdS (dieSample s (r :: l)) F.PPX_TEMP_die = hottest r l := (halarm.rdS _ (by decide)).trans hshow
  have hall : Edge [F.PPX_TEMP_die.off, F.EVT_ALARM_alarm.off] s (dieSample s (r :: l)) :=
    (Edge.wrS _ _ _ (.head _)).trans (halarm.mono fun _ ho => .tail _ ho)
  rw [hread]
  refine ⟨hall.time.memKept, fun y hy => hottest_ge r l y hy, ⟨x, hx, he⟩, fun hhot => ?_, hall.regs⟩
  rw [dieSample_eq, if_pos hhot]
  exact bitOf_alarmSet _ _ (by decide)

end Sys2Proof.Machine
end

section
namespace Sys2Proof.Machine

/-! POR_N (R517): what an interruption leaves of the non-volatile memories -/

/-- Tearing a write changes memories and their state only. -/
def Torn (s t : State) : Prop :=
  t.tick = s.tick ∧ t.sec = s.sec ∧ t.pending = s.pending ∧ t.host = s.host ∧ t.age = s.age

namespace Torn

variable {s t u : State}

theorem trans (h : Torn s t) (h' : Torn t u) : Torn s u := by
  obtain ⟨h1, h2, h3, h4, h5⟩ := h
  obtain ⟨g1, g2, g3, g4, g5⟩ := h'
  exact ⟨g1.trans h1, g2.trans h2, g3.trans h3, g4.trans h4, g5.trans h5⟩

theorem memory (s : State) (lst flash nvm : SMap Byte) (mem : MemSt) (nv : Nvm) (fresh : Nat) :
    Torn s { s with lst := lst, flash := flash, nvm := nvm, mem := mem, nv := nv, fresh := fresh } := ⟨rfl, rfl, rfl, rfl, rfl⟩

end Torn

theorem freeBytes_fresh (s : State) (k n : Nat) : ∃ x, (freeBytes s k n).2 = { s with fresh := x } := by
  induction n generalizing s with
  | zero => exact ⟨s.fresh, rfl⟩
  | succ n ih =>
    obtain ⟨x, hx⟩ := ih (freeBelow s k 256).2
    exact ⟨x, hx⟩

/-- Which parts tearing a page write changes. -/
theorem tornPage_frame (s : State) : ∃ nvm ecc fresh, tornPage s = { s with nvm := nvm, nv := { s.nv with ecc := ecc }, fresh := fresh } := by
  unfold tornPage
  split
  · exact ⟨_, _, _, rfl⟩
  · next j _ _ =>
    split
    · exact ⟨_, _, _, rfl⟩
    · next g _ _ _ =>
      obtain ⟨x, hx⟩ := freeBytes_fresh s 14 8
      dsimp only
      rw [hx]
      split
      · exact ⟨_, _, _, rfl⟩
      · exact ⟨_, _, _, rfl⟩

theorem tornPage_idle (s : State) (h : s.nv.jobs = []) : tornPage s = s := by
  unfold tornPage
  rw [h]

theorem xfTorn_frame (s : State) (j : XfJob) :
    ∃ lst flash mem fresh, xfTorn s j = { s with lst := lst, flash := flash, mem := mem, fresh := fresh } := by
  unfold xfTorn
  dsimp only
  split
  · obtain ⟨x, hx⟩ := freeBytes_fresh s 10 j.len
    rw [hx]
    exact ⟨_, _, _, _, rfl⟩
  · obtain ⟨x, hx⟩ := freeBytes_fresh s 10 (xfSpan j.op j.addr j.len).2
    rw [hx]
    exact ⟨_, _, _, _, rfl⟩

theorem tornFlash_frame (s : State) :
    ∃ lst flash mem fresh, tornFlash s = { s with lst := lst, flash := flash, mem := mem, fresh := fresh } := by
  unfold tornFlash
  split
  · split
    · exact xfTorn_frame ..
    · exact ⟨_, _, _, _, rfl⟩
  · exact ⟨_, _, _, _, rfl⟩

theorem tornFlash_idle (s : State) (h : s.nv.xf = none) : tornFlash s = s := by
  unfold tornFlash
  rw [h]

theorem tornCkpt_frame (s : State) : ∃ flash fresh, tornCkpt s = { s with flash := flash, fresh := fresh } := by
  unfold tornCkpt
  split
  · exact ⟨_, _, rfl⟩
  · next c _ =>
    obtain ⟨x, hx⟩ := freeBytes_fresh s 14 (slotLen s c.slot)
    dsimp only
    rw [hx]
    split
    · exact ⟨_, _, rfl⟩
    · exact ⟨_, _, rfl⟩

theorem tornCkpt_idle (s : State) (h : s.age.ckpt = none) : tornCkpt s = s := by
  unfold tornCkpt
  rw [h]

/-- The writes that POR_N_LOW interrupts, torn. -/
def tornWrites (s : State) : State := tornCkpt (tornFlash (tornPage s))

theorem tornWrites_torn (s : State) : Torn s (tornWrites s) := by
  obtain ⟨_, _, _, hp⟩ := tornPage_frame s
  obtain ⟨_, _, _, _, hf⟩ := tornFlash_frame (tornPage s)
  obtain ⟨_, _, hc⟩ := tornCkpt_frame (tornFlash (tornPage s))
  have h1 : Torn s (tornPage s) := hp ▸ Torn.memory ..
  have h2 : Torn (tornPage s) (tornFlash (tornPage s)) := hf ▸ Torn.memory ..
  have h3 : Torn (tornFlash (tornPage s)) (tornWrites s) := by
    rw [tornWrites, hc]
    exact .memory ..
  exact h1.trans (h2.trans h3)

theorem tornWrites_nvm (s : State) (h : s.nv.jobs = []) : (tornWrites s).nvm = s.nvm := by
  obtain ⟨_, _, _, _, hf⟩ := tornFlash_frame s
  rw [tornWrites, tornPage_idle s h, hf]
  obtain ⟨_, _, hc⟩ := tornCkpt_frame (tornFlash s)
  rw [hf] at hc
  rw [hc]

theorem tornWrites_flash (s : State) (h : s.nv.xf = none) (hc : s.age.ckpt = none) : (tornWrites s).flash = s.flash := by
  obtain ⟨_, _, _, hp⟩ := tornPage_frame s
  rw [tornWrites, tornFlash_idle (tornPage s) (by rw [hp]; exact h), tornCkpt_idle (tornPage s) (by rw [hp]; exact hc), hp]

/-! The fuses (R476) -/

/-- An even part has no bit 0 and the other bits of the number. -/
theorem testBit_sub_mod_two (a k : Nat) : (a - a % 2).testBit k = (a.testBit k && decide (k ≠ 0)) := by
  cases k with
  | zero =>
    have h : (a - a % 2) % 2 = 0 := by omega
    simp [Nat.testBit_zero, h]
  | succ k =>
    have h : (a - a % 2) / 2 = a / 2 := by omega
    simp [Nat.testBit_succ, h]

theorem testBit_clear (x j i : Nat) : (x - (x &&& 2 ^ j)).testBit i = (x.testBit i && decide (i ≠ j)) := by
  have hlt : x % 2 ^ j < 2 ^ j := Nat.mod_lt _ (by positivity)
  have hx : 2 ^ j * (x / 2 ^ j) + x % 2 ^ j = x := Nat.div_add_mod x (2 ^ j)
  have hbit : x &&& 2 ^ j = 2 ^ j * (x / 2 ^ j % 2) := by
    rw [Nat.and_two_pow, Nat.testBit_eq_decide_div_mod_eq, Nat.mul_comm]
    rcases Nat.mod_two_eq_zero_or_one (x / 2 ^ j) with h | h <;> simp [h]
  have hsub : x - (x &&& 2 ^ j) = 2 ^ j * (x / 2 ^ j - x / 2 ^ j % 2) + x % 2 ^ j := by
    have hle : 2 ^ j * (x / 2 ^ j % 2) ≤ 2 ^ j * (x / 2 ^ j) := Nat.mul_le_mul_left _ (Nat.mod_le ..)
    rw [hbit, Nat.mul_sub]
    omega
  have hi : x.testBit i = if i < j then (x % 2 ^ j).testBit i else (x / 2 ^ j).testBit (i - j) := by
    rw [← Nat.testBit_two_pow_mul_add _ hlt, hx]
  rw [hsub, Nat.testBit_two_pow_mul_add _ hlt, hi]
  split
  · next h => simp [h.ne]
  · next h =>
    have hij : i - j ≠ 0 ↔ i ≠ j := by omega
    rw [testBit_sub_mod_two]
    simp only [hij]

theorem testBit_set (x j i : Nat) : (x ||| 2 ^ j).testBit i = (x.testBit i || decide (i = j)) := by
  rw [Nat.testBit_or, Nat.testBit_two_pow]
  simp only [eq_comm]

theorem testBit_put (x j i : Nat) (b : Bool) :
    (if b then x ||| 2 ^ j else x - (x &&& 2 ^ j)).testBit i = if i = j then b else x.testBit i := by
  cases b
  · rw [if_neg (by decide), testBit_clear]
    split <;> simp [*]
  · rw [if_pos rfl, testBit_set]
    split <;> simp [*]

theorem fuse_setFuse_same (x : Sec) (j : Nat) (b : Bool) : fuse (setFuse x j b) j = b := by
  unfold setFuse
  split
  · next hj =>
    simp only [fuse, if_pos hj]
    rw [testBit_put, if_pos rfl]
  · next h1 =>
    split
    · next hj => subst hj; rfl
    · next h2 =>
      split
      · next hj => subst hj; rfl
      · next h3 =>
        split
        · next hj => subst hj; rfl
        · next h4 =>
          simp only [fuse, if_neg h1, if_neg h2, if_neg h3, if_neg h4]
          rw [testBit_put, if_pos rfl]

theorem fuse_setFuse_other (x : Sec) (j i : Nat) (b : Bool) (h : i ≠ j) : fuse (setFuse x j b) i = fuse x i := by
  unfold setFuse
  split
  · simp only [fuse, testBit_put, if_neg h]
  · split
    · next hj => subst hj; simp only [fuse, if_neg h]
    · split
      · next hj => subst hj; simp only [fuse, if_neg h]
      · split
        · next hj => subst hj; simp only [fuse, if_neg h]
        · by_cases hi : 386 < i
          · simp only [fuse, testBit_put, if_neg (show i - 387 ≠ j - 387 by omega)]
          · have hrow : i < 384 ∨ i = 384 ∨ i = 385 ∨ i = 386 := by omega
            rcases hrow with hi | rfl | rfl | rfl
            · simp only [fuse, if_pos hi]
            · rfl
            · rfl
            · rfl

/-- A fuse reads what it was set to; every other fuse stands. -/
theorem fuse_setFuse (x : Sec) (j i : Nat) (b : Bool) : fuse (setFuse x j b) i = if i = j then b else fuse x i := by
  split
  · next h => rw [h, fuse_setFuse_same]
  · next h => exact fuse_setFuse_other x j i b h

/-- One fuse of a blow that is interrupted: blown, not reached, or in hand. -/
def tornFuse (s : State) (e : Nat × Nat) : State :=
  if e.2 ≤ s.tick then s
  else if s.tick + fuseTicks < e.2 then { s with sec := setFuse s.sec e.1 false }
  else
    let f := freeBelow s 14 2
    { f.2 with sec := setFuse f.2.sec e.1 (f.1 = 1) }

theorem tornFuses_eq (s : State) : tornFuses s = { s.sec.blow.foldl tornFuse s with sec.blow := [] } := rfl

theorem tornFuse_frame (s : State) (e : Nat × Nat) : ∃ sec fresh, tornFuse s e = { s with sec := sec, fresh := fresh } := by
  unfold tornFuse
  split
  · exact ⟨_, _, rfl⟩
  · split
    · exact ⟨_, _, rfl⟩
    · exact ⟨_, _, rfl⟩

theorem tornFuse_tick (s : State) (e : Nat × Nat) : (tornFuse s e).tick = s.tick := by
  obtain ⟨_, _, h⟩ := tornFuse_frame s e
  rw [h]

theorem fuse_tornFuse_blown (s : State) (e : Nat × Nat) (i : Nat) (h : e.1 = i → e.2 ≤ s.tick) : fuse (tornFuse s e).sec i = fuse s.sec i := by
  unfold tornFuse
  split
  · rfl
  · next hlt =>
    have hne : i ≠ e.1 := fun he => hlt (h he.symm)
    split
    · exact (fuse_setFuse ..).trans (if_neg hne)
    · exact (fuse_setFuse ..).trans (if_neg hne)

theorem fuse_tornFuse_unreached (s : State) (e : Nat × Nat) (h : s.tick + fuseTicks < e.2) : fuse (tornFuse s e).sec e.1 = false := by
  have hlt : ¬ e.2 ≤ s.tick := by omega
  unfold tornFuse
  rw [if_neg hlt, if_pos h]
  exact (fuse_setFuse ..).trans (if_pos rfl)

theorem fuse_tornFuses_blown (l : List (Nat × Nat)) (s : State) (i : Nat) (h : ∀ e ∈ l, e.1 = i → e.2 ≤ s.tick) :
    fuse (l.foldl tornFuse s).sec i = fuse s.sec i := by
  induction l generalizing s with
  | nil => rfl
  | cons e l ih =>
    rw [List.foldl_cons, ih _ fun d hd => by rw [tornFuse_tick]; exact h d (.tail _ hd)]
    exact fuse_tornFuse_blown s e i (h e (.head _))

theorem fuse_tornFuses_unreached (l : List (Nat × Nat)) (s : State) (i : Nat) (h : ∀ e ∈ l, e.1 = i → s.tick + fuseTicks < e.2)
    (hi : (∃ e ∈ l, e.1 = i) ∨ fuse s.sec i = false) : fuse (l.foldl tornFuse s).sec i = false := by
  induction l generalizing s with
  | nil =>
    rcases hi with ⟨e, he, -⟩ | hi
    · exact absurd he List.not_mem_nil
    · exact hi
  | cons e l ih =>
    rw [List.foldl_cons]
    refine ih _ (fun d hd => by rw [tornFuse_tick]; exact h d (.tail _ hd)) ?_
    by_cases he : e.1 = i
    · exact .inr (he ▸ fuse_tornFuse_unreached s e (h e (.head _) he))
    · rcases hi with ⟨d, hd, hdi⟩ | hi
      · rcases List.mem_cons.1 hd with rfl | hd
        · exact absurd hdi he
        · exact .inl ⟨d, hd, hdi⟩
      · exact .inr ((fuse_tornFuse_blown s e i fun h => absurd h he).trans hi)

theorem tornFuses_frame (l : List (Nat × Nat)) (s : State) : ∃ sec fresh, l.foldl tornFuse s = { s with sec := sec, fresh := fresh } := by
  induction l generalizing s with
  | nil => exact ⟨_, _, rfl⟩
  | cons e l ih =>
    obtain ⟨_, _, h⟩ := tornFuse_frame s e
    obtain ⟨_, _, h'⟩ := ih (tornFuse s e)
    rw [List.foldl_cons, h', h]
    exact ⟨_, _, rfl⟩

/-- What is left of a state without power. -/
def unpowered (s : State) : State :=
  { State.reset with
      flash := s.flash
      nvm := s.nvm
      nv := { Nvm.reset with ecc := s.nv.ecc, pws := s.nv.pws }
      sec := secKept s.sec
      host := { HostIf.reset with mem := s.host.mem }
      fresh := s.fresh
      pending := s.pending }

theorem porLow_eq (s : State) : porLow s = unpowered (tornFuses (tornWrites s)) := rfl

theorem unpowered_reset (s : State) : (unpowered s).reg = State.reset.reg ∧ (unpowered s).shadow = State.reset.shadow ∧ (unpowered s).tick = 0 ∧
    (unpowered s).gddr = [] ∧ (unpowered s).lst = [] ∧ (unpowered s).boot = State.reset.boot ∧ (unpowered s).psq = State.reset.psq :=
  ⟨rfl, rfl, rfl, rfl, rfl, rfl, rfl⟩

theorem unpowered_kept (s : State) : (unpowered s).pending = s.pending ∧ (∀ i, fuse (unpowered s).sec i = fuse s.sec i) ∧
    (unpowered s).host.mem = s.host.mem ∧ (unpowered s).nvm = s.nvm ∧ (unpowered s).flash = s.flash :=
  ⟨rfl, fun _ => rfl, rfl, rfl, rfl⟩

theorem tornFuses_kept (s : State) : (tornFuses s).pending = s.pending ∧ (∀ i, fuse (tornFuses s).sec i = fuse (s.sec.blow.foldl tornFuse s).sec i) ∧
    (tornFuses s).host = s.host ∧ (tornFuses s).nvm = s.nvm ∧ (tornFuses s).flash = s.flash := by
  obtain ⟨_, _, h⟩ := tornFuses_frame s.sec.blow s
  rw [tornFuses_eq, h]
  exact ⟨rfl, fun _ => rfl, rfl, rfl, rfl⟩

theorem porLow_kept (s : State) : (porLow s).pending = s.pending ∧
    (∀ i, (∀ e ∈ s.sec.blow, e.1 = i → e.2 ≤ s.tick) → fuse (porLow s).sec i = fuse s.sec i) ∧
    (∀ i, (∃ e ∈ s.sec.blow, e.1 = i) → (∀ e ∈ s.sec.blow, e.1 = i → s.tick + fuseTicks < e.2) → fuse (porLow s).sec i = false) ∧
    (porLow s).host.mem = s.host.mem ∧ (s.nv.jobs = [] → (porLow s).nvm = s.nvm) ∧
    (s.nv.xf = none → s.age.ckpt = none → (porLow s).flash = s.flash) := by
  obtain ⟨htick, hsec, hpend, hhost, -⟩ := tornWrites_torn s
  have hnvm := tornWrites_nvm s
  have hflash := tornWrites_flash s
  rw [porLow_eq]
  generalize tornWrites s = w at htick hsec hpend hhost hnvm hflash ⊢
  obtain ⟨g1, g2, g3, g4, g5⟩ := tornFuses_kept w
  obtain ⟨k1, k2, k3, k4, k5⟩ := unpowered_kept (tornFuses w)
  refine ⟨k1.trans (g1.trans hpend), fun i h => ?_, fun i hi h => ?_, ?_, fun h => k4.trans (g4.trans (hnvm h)),
    fun h h' => k5.trans (g5.trans (hflash h h'))⟩
  · rw [k2, g2, fuse_tornFuses_blown _ _ _ (by rw [hsec, htick]; exact h), hsec]
  · rw [k2, g2]
    exact fuse_tornFuses_unreached _ _ _ (by rw [hsec, htick]; exact h) (.inl (by rw [hsec]; exact hi))
  · rw [k3, g3, hhost]

/-- Settles O60: each reset by the frame of what it writes, the fuses by induction on the interrupted blow; start-up by what its steps leave of its
own state (`Boots`), so that the checks of step 4 and the GDR bodies of step 7 decide where it ends. -/
theorem resetsAndStartUp : Obligations.ResetsAndStartUp := by
  unfold Obligations.ResetsAndStartUp
  refine ⟨fun s => ?_, fun s c hc => ?_, fun s => rfl, fun s m u c e hc hu => ?_, exec_startUp_ignored, fun s u c src e hs hc hu => ?_,
    fun s c => ⟨fun h6 hu => ?_, exec_g6Timeout_ignored s c⟩, fun s rs h => ⟨dieSample s rs, rfl, dieSample_effect s rs h⟩⟩
  · obtain ⟨h1, h2, h3, h4, h5, h6, h7⟩ := unpowered_reset (tornFuses (tornWrites s))
    rw [← porLow_eq] at h1 h2 h3 h4 h5 h6 h7
    exact ⟨porLow s, rfl, h1, h2, h3, h4, h5, h6, h7, porLow_kept s⟩
  · obtain ⟨t, hx, hr, hf, hp⟩ := pcieReset_effect s c hc
    refine ⟨t, hx, hr.mem, hr.frame, hr.busMaster, hr.d3hot, hr.aspmL1, hr.msixMask, hr.session, hr.sec, hr.zero, fun o ho => hr.kept o fun hm => ?_,
      hf, hp⟩
    have hsub : ∀ x ∈ F.GEN_STATUS_link_up.off :: fnRegs, x ∈ [F.GEN_BAR2_LO.off, F.GEN_BAR2_HI.off, (F.GEN_MSIX_TABLE 0).off,
        (F.GEN_MSIX_TABLE 1).off, (F.GEN_MSIX_TABLE 2).off, (F.GEN_MSIX_TABLE 3).off, F.GEN_MSIX_PBA.off, F.GEN_STATUS_link_up.off,
        F.SEC_STATUS_session.off] := by decide
    exact ho (hsub o hm)
  · obtain ⟨h1, h2, h3⟩ := startFrom2_effect m u _ e hu rfl
    have hx := exec_startUp hc
    exact ⟨fun h => ⟨_, hx, h1 h⟩, fun h h' => ⟨_, hx, h2 h h'⟩, fun img h h' hi => ⟨_, hx, h3 img h h' hi⟩⟩
  · have hx := exec_boot hs hc
    subst hu
    refine ⟨fun h1 h2 h3 => ?_, fun h => ?_⟩
    · rw [bootCmd_accepted s src e h1 h2 h3] at hx
      refine ⟨fun h0 hf => ⟨_, hx, ?_⟩, fun img h hi => ⟨_, hx, step4_started _ src e img h hi⟩⟩
      rw [h0]
      exact step4_waits _ e hf
    · rw [bootCmd_refused s src e h] at hx
      exact ⟨_, hx, nvmWrIgn_effect s⟩
  · exact ⟨g6Timeout s c, rfl, g6Timeout_effect s c c.isLt h6 hu⟩

end Sys2Proof.Machine
end

section
namespace Sys2Proof.Machine

/-! Strips (R190, R193): what asking for blocks leaves of the state and of the run -/

/-- Beside the registers and their log only the codec's lanes and the memory scheduler, where blocks wait, have changed. -/
def DecodeOnly (s t : State) : Prop := t = { s with reg := t.reg, now := t.now, cdc := t.cdc, mem := t.mem }

namespace DecodeOnly

variable {s t u : State}

theorem trans (h : DecodeOnly s t) (h' : DecodeOnly t u) : DecodeOnly s u := by
  unfold DecodeOnly at h h' ⊢
  exact h'.trans (by rw [h])

theorem tick (h : DecodeOnly s t) : t.tick = s.tick := by rw [h]
theorem scn (h : DecodeOnly s t) : t.scn = s.scn := by rw [h]

theorem memKept (h : DecodeOnly s t) : memKept s t := by
  unfold Machine.memKept
  rw [h]
  exact ⟨rfl, rfl, rfl, rfl, rfl, rfl⟩

end DecodeOnly

theorem assignDec_decodeOnly (n : Nat) (s : State) : DecodeOnly s (assignDec n s) := by
  induction n generalizing s with
  | zero => exact rfl
  | succ n ih =>
    simp only [assignDec]
    split
    · exact rfl
    · split
      · exact rfl
      · refine DecodeOnly.trans ?_ (ih _)
        split <;> exact rfl

theorem assignCmp_decodeOnly (n : Nat) (s : State) : DecodeOnly s (assignCmp n s) := by
  induction n generalizing s with
  | zero => exact rfl
  | succ n ih =>
    simp only [assignCmp]
    split
    · exact rfl
    · split
      · exact rfl
      · refine DecodeOnly.trans ?_ (ih _)
        exact rfl

theorem askDec_decodeOnly (s : State) (rs : List DecReq) : DecodeOnly s (askDec s rs) := by
  have hwait : DecodeOnly s { s with cdc.decWait := s.cdc.decWait ++ rs } := rfl
  have hstatus (t : State) : DecodeOnly t (laneStatus t) := rfl
  exact hwait.trans ((assignDec_decodeOnly 16 _).trans ((assignCmp_decodeOnly 8 _).trans (hstatus _)))

theorem urgStatus_decodeOnly (s : State) : DecodeOnly s (urgStatus s) := by
  have hfresh : DecodeOnly s (freshUrg s) := rfl
  refine hfresh.trans ?_
  simp only [urgStatus]
  split
  · split <;> exact rfl
  · exact rfl

/-- Of a run only its fetches and the blocks left out have changed. -/
def FetchOnly (u v : Run) : Prop := ∃ fetch skipped, v = { u with fetch := fetch, skipped := skipped }

theorem FetchOnly.trans {u v w : Run} (h : FetchOnly u v) (h' : FetchOnly v w) : FetchOnly u w := by
  obtain ⟨_, _, rfl⟩ := h
  obtain ⟨f, k, rfl⟩ := h'
  exact ⟨f, k, rfl⟩

/-- Asking for blocks, where the state, the run and the requests made so far are carried along. -/
def FetchStep (a b : State × Run × List DecReq) : Prop := DecodeOnly a.1 b.1 ∧ FetchOnly a.2.1 b.2.1

namespace FetchStep

variable {a b c : State × Run × List DecReq}

theorem refl (a : State × Run × List DecReq) : FetchStep a a := ⟨rfl, _, _, rfl⟩

theorem trans (h : FetchStep a b) (h' : FetchStep b c) : FetchStep a c := ⟨h.1.trans h'.1, h.2.trans h'.2⟩

theorem foldl {α : Type} {f : State × Run × List DecReq → α → State × Run × List DecReq} (h : ∀ b x, FetchStep b (f b x)) (l : List α)
    (a : State × Run × List DecReq) : FetchStep a (l.foldl f a) :=
  List.foldlRecOn l f (motive := FetchStep a) (.refl a) fun b hb x _ => hb.trans (h b x)

end FetchStep

theorem fetchLayerBlock_step (l : Nat) (y : Layer) (due : Nat) (a : State × Run × List DecReq) (b : Nat × Nat) :
    FetchStep a (fetchLayerBlock l y due a b) := by
  simp only [fetchLayerBlock]
  split
  · exact .refl a
  · split
    · exact ⟨rfl, _, _, rfl⟩
    · split
      · exact .refl a
      · exact ⟨rfl, _, _, rfl⟩

theorem fetchTableBlock_step (l due : Nat) (a : State × Run × List DecReq) (b : Nat × Nat) : FetchStep a (fetchTableBlock l due a b) := by
  simp only [fetchTableBlock]
  split
  · exact .refl a
  · split
    · split
      · exact .refl a
      · exact ⟨rfl, _, _, rfl⟩
    · exact ⟨rfl, _, _, rfl⟩

/-- The blocks of a layer's due strips, or of a table's due rows, have been asked for. -/
def stripsAsked (a : State × Run × List DecReq) (l : Nat) : State × Run × List DecReq :=
  let u := a.2.1
  (((fetchRows u l).take (u.due.getD l 0)).drop (u.begun.getD l 0)).foldl (fun a j =>
    if l < 4 then (stripBlocks u (u.layer l) j).foldl (fetchLayerBlock l (u.layer l) (stripDueTick u l j)) a
    else ((List.range u.bw).map (fun i => (i, j))).foldl (fetchTableBlock l (stripDueTick u l j)) a) a

theorem stripsAsked_step (a : State × Run × List DecReq) (l : Nat) : FetchStep a (stripsAsked a l) := by
  refine FetchStep.foldl (fun b j => ?_) _ a
  split
  · exact .foldl (fetchLayerBlock_step l _ _) _ b
  · exact .foldl (fetchTableBlock_step l _) _ b

/-- Then they have begun. -/
theorem fetchLayerStrips_eq (a : State × Run × List DecReq) (l : Nat) :
    fetchLayerStrips a l = ((stripsAsked a l).1,
      { (stripsAsked a l).2.1 with begun := (stripsAsked a l).2.1.begun.set l ((stripsAsked a l).2.1.due.getD l 0) }, (stripsAsked a l).2.2) := rfl

/-- The strips of a run begun, once those due of the given layers have begun. -/
def begunAfter (u : Run) (ls : List Nat) : List Nat := ls.foldl (fun b l => b.set l (u.due.getD l 0)) u.begun

/-- Of a run only its fetches, the blocks left out and the strips begun have changed, these to `begun`. -/
def Began (begun : List Nat) (u v : Run) : Prop := ∃ fetch skipped, v = { u with fetch := fetch, skipped := skipped, begun := begun }

/-- A layer's or table's due strips begin, those of the others stand. -/
theorem fetchLayerStrips_effect (a : State × Run × List DecReq) (l : Nat) :
    DecodeOnly a.1 (fetchLayerStrips a l).1 ∧ Began (begunAfter a.2.1 [l]) a.2.1 (fetchLayerStrips a l).2.1 := by
  obtain ⟨hs, f, k, hu⟩ := stripsAsked_step a l
  rw [fetchLayerStrips_eq, hu]
  exact ⟨hs, f, k, rfl⟩

/-- Layer after layer, the due strips begin. -/
theorem fetchStrips_effect (ls : List Nat) (a : State × Run × List DecReq) :
    DecodeOnly a.1 (ls.foldl fetchLayerStrips a).1 ∧ Began (begunAfter a.2.1 ls) a.2.1 (ls.foldl fetchLayerStrips a).2.1 := by
  induction ls generalizing a with
  | nil => exact ⟨rfl, _, _, rfl⟩
  | cons l ls ih =>
    obtain ⟨hs, _, _, hu⟩ := fetchLayerStrips_effect a l
    obtain ⟨hs', f, k, hu'⟩ := ih (fetchLayerStrips a l)
    refine ⟨hs.trans hs', f, k, ?_⟩
    rw [hu] at hu'
    exact hu'

theorem getD_foldl_set (f : Nat → Nat) (ls : List Nat) (b : List Nat) (l : Nat) (hl : l < b.length) :
    (ls.foldl (fun b k => b.set k (f k)) b).getD l 0 = if l ∈ ls then f l else b.getD l 0 := by
  induction ls generalizing b with
  | nil => rfl
  | cons k ls ih =>
    rw [List.foldl_cons, ih _ (by rwa [List.length_set])]
    by_cases hk : k = l
    · subst hk
      simp [hl]
    · simp [hk, Ne.symm hk]

theorem begunAfter_getD (u : Run) (ls : List Nat) (l : Nat) (h : l ∈ ls) (hl : l < u.begun.length) :
    (begunAfter u ls).getD l 0 = u.due.getD l 0 := by
  rw [begunAfter, getD_foldl_set (fun k => u.due.getD k 0) ls u.begun l hl, if_pos h]

/-- A run that has taken the place of one with its number is among the runs. -/
theorem mem_setRun {s : State} {u v : Run} (hu : u ∈ s.scn.runs) (h : v.num = u.num) : v ∈ (setRun s v).scn.runs :=
  List.mem_map.2 ⟨u, hu, if_pos h.symm⟩

theorem stripFetchStart_effect {s : State} {u : Run} (h : s.scn.runs.find? stripDue = some u) :
    ∃ v, v ∈ (stripFetchStart s).scn.runs ∧ Began (begunAfter u [3, 2, 1, 0, 4, 5]) u v ∧ memKept s (stripFetchStart s) := by
  have hu : u ∈ s.scn.runs := List.mem_of_find?_eq_some h
  simp only [stripFetchStart, h]
  obtain ⟨hs, hv⟩ := fetchStrips_effect [3, 2, 1, 0, 4, 5] (s, u, [])
  generalize [3, 2, 1, 0, 4, 5].foldl fetchLayerStrips (s, u, []) = r at hs hv
  have hend := (askDec_decodeOnly (setRun r.1 r.2.1) r.2.2).trans (urgStatus_decodeOnly _)
  have hnum : r.2.1.num = u.num := by
    obtain ⟨_, _, hv⟩ := hv
    rw [hv]
  refine ⟨r.2.1, ?_, hv, ?_⟩
  · rw [hend.scn]
    exact mem_setRun (by rw [hs.scn]; exact hu) hnum
  · obtain ⟨h1, h2, h3, h4, h5, h6⟩ := hs.memKept
    obtain ⟨g1, g2, g3, g4, g5, g6⟩ := hend.memKept
    exact ⟨g1.trans h1, g2.trans h2, g3.trans h3, g4.trans h4, g5.trans h5, g6.trans h6⟩

end Sys2Proof.Machine
end

section
namespace Sys2Proof.Machine

/-! Rows (R178, R195 to R197): what a block row leaves of the state and of the run -/

theorem bumpN_calm (s : State) (f : Fld) (n : Nat) (h : f.off ∉ calmRegs) : Calm calmRegs s (bumpN s f n) := by
  refine (Calm.wr s f (min (rd s f + n) (2 ^ f.w - 1)) h).trans ?_
  exact .outside ..

theorem blockError_calm (s : State) (cause user lane : Nat) (lst : Bool) (addr : Nat) : Calm calmRegs s (blockError s cause user lane lst addr) :=
  (Calm.bump _ _ (by decide)).trans <| (Calm.wr _ _ _ (by decide)).trans <| (Calm.wr _ _ _ (by decide)).trans <|
    (Calm.wr _ _ _ (by decide)).trans <| (Calm.wrB _ _ _ (by decide)).trans <| (Calm.wr _ _ _ (by decide)).trans <|
      (Calm.wr _ _ _ (by decide)).trans (.errorRec ..)

theorem freeBelow_calm (s : State) (k n : Nat) : Calm calmRegs s (freeBelow s k n).2 := .outside ..

theorem readHist_calm (s : State) (v bx by_ : Nat) : Calm calmRegs s (readHist s v bx by_).2 := by
  unfold readHist
  refine List.foldlRecOn _ _ (motive := fun (a : Option (List Nat) × State) => Calm calmRegs s a.2) (.refl _ s) fun a ha c _ => ?_
  dsimp only
  split
  · exact ha
  · have hread := ha.trans (memReach_calm a.2 0 (histAddr a.2 v c bx by_) (blockLen a.2 false (histAddr a.2 v c bx by_)))
    split
    · exact hread
    · exact hread.trans ((freeBelow_calm ..).trans (blockError_calm ..))

theorem writeHist_calm (s : State) (v bx by_ : Nat) (vals : List Nat) (hdr : Nat) : Calm calmRegs s (writeHist s v bx by_ vals hdr) :=
  (lstKeep_calm ..).trans (askCmp_calm ..)

theorem substValues_calm (s : State) (v bx by_ : Nat) : Calm calmRegs s (substValues s v bx by_).2 := by
  have hread := readHist_calm s v bx by_
  unfold substValues
  split
  · split
    · next h => rwa [h] at hread
    · next h =>
      rw [h] at hread
      exact hread.trans (.errorRec ..)
  · exact .refl _ s

/-- Of a run only its zone values, the substituted blocks, the block row in hand, the zone accumulators and the values kept for a capture have
changed. -/
def BlockOnly (u v : Run) : Prop := ∃ zq subst firstSub subs brow blocks zacc capVals,
  v = { u with zq := zq, subst := subst, firstSub := firstSub, subs := subs, brow := brow, blocks := blocks, zacc := zacc, capVals := capVals }

theorem BlockOnly.refl (u : Run) : BlockOnly u u := ⟨_, _, _, _, _, _, _, _, rfl⟩

theorem BlockOnly.trans {u v w : Run} (h : BlockOnly u v) (h' : BlockOnly v w) : BlockOnly u w := by
  obtain ⟨_, _, _, _, _, _, _, _, rfl⟩ := h
  obtain ⟨z, a, b, c, d, e, f, g, rfl⟩ := h'
  exact ⟨z, a, b, c, d, e, f, g, rfl⟩

/-- Work on blocks of a run: the clock and scan-out's runs stand. -/
def BlockStep (a b : State × Run) : Prop := Calm calmRegs a.1 b.1 ∧ BlockOnly a.2 b.2

theorem BlockStep.refl (a : State × Run) : BlockStep a a := ⟨.refl .., .refl _⟩

theorem BlockStep.trans {a b c : State × Run} (h : BlockStep a b) (h' : BlockStep b c) : BlockStep a c := ⟨h.1.trans h'.1, h.2.trans h'.2⟩

theorem substitute_step (s : State) (u : Run) (bx by_ cause : Nat) : BlockStep (s, u) (substitute s u bx by_ cause).2 := by
  have hcount : Calm calmRegs s (if cause = 1 then bump s F.SCN_CNT_CRCSUB_blocks else bump s F.SCN_CNT_UNDERRUN_blocks) :=
    .ite_both (.bump _ _ (by decide)) (.bump _ _ (by decide))
  refine ⟨hcount.trans ?_, _, _, _, _, _, _, _, _, rfl⟩
  exact (Calm.wr _ _ _ (by decide)).trans <| (Calm.wr _ _ _ (by decide)).trans <| (Calm.wr _ _ _ (by decide)).trans <|
    (Calm.wr _ _ _ (by decide)).trans (substValues_calm ..)

theorem zoneAdd_only (s : State) (u : Run) (bx by_ : Nat) (ms : List Nat) : BlockOnly u (zoneAdd s u bx by_ ms) := by
  unfold zoneAdd
  split
  · exact .refl u
  · exact ⟨_, _, _, _, _, _, _, _, rfl⟩

theorem contentBlock_step (s : State) (u : Run) (t bx by_ : Nat) : BlockStep (s, u) (contentBlock s u t bx by_).2 := by
  unfold contentBlock
  split
  · exact substitute_step ..
  · extract_lets uc cc ls q px u' ph prev d s'
    have hprev : Calm calmRegs s prev.2 := by
      dsimp only [prev]
      split
      · split
        · exact readHist_calm ..
        · exact .refl _ s
      · exact .refl _ s
    exact ⟨hprev.trans (.ite fun _ => .bump _ _ (by decide)), zoneAdd_only ..⟩

theorem runBlock_step (s : State) (u : Run) (t bx by_ : Nat) : BlockStep (s, u) (runBlock s u t bx by_).2 := by
  unfold runBlock
  split
  · exact contentBlock_step ..
  · exact .refl _
  · exact ⟨substValues_calm .., .refl u⟩

theorem startBlockRow_step (s : State) (u : Run) (t by_ : Nat) : BlockStep (s, u) (startBlockRow s u t by_) := by
  unfold startBlockRow
  extract_lets r
  have hr : BlockStep (s, u) (r.1, r.2.1) :=
    List.foldlRecOn _ _ (motive := fun (a : State × Run × List (List Nat × Nat)) => BlockStep (s, u) (a.1, a.2.1)) (.refl _)
      fun a ha bx _ => ha.trans (runBlock_step a.1 a.2.1 t bx by_)
  exact hr.trans ⟨.refl .., _, _, _, _, _, _, _, _, rfl⟩

theorem keepSkipped_calm (s : State) (u : Run) (bx by_ : Nat) (vals : List Nat) : Calm calmRegs s (keepSkipped s u bx by_ vals).2 := by
  unfold keepSkipped
  extract_lets prog r a
  have hr : Calm calmRegs s r.2 := by
    dsimp only [r]
    split
    · exact substValues_calm ..
    · exact .refl _ s
  split
  · exact .refl _ s
  · exact hr

theorem capRow_calm (s : State) (u : Run) (by_ : Nat) (bs : List (Nat × List Nat)) : Calm calmRegs s (capRow s u by_ bs) :=
  .ite_else (askCmp_calm ..)

theorem finishBlockRow_step (s : State) (u : Run) (by_ : Nat) : BlockStep (s, u) (finishBlockRow s u by_) := by
  unfold finishBlockRow
  extract_lets r bs
  have hr : BlockStep (s, u) r := by
    refine List.foldlRecOn _ _ (motive := BlockStep (s, u)) (.refl _) fun a ha e _ => ha.trans ⟨?_, ?_⟩
    · exact (keepSkipped_calm ..).trans (writeHist_calm ..)
    · dsimp only
      split
      · exact ⟨_, _, _, _, _, _, _, _, rfl⟩
      · exact .refl _
  exact hr.trans ⟨.ite fun _ => capRow_calm .., _, _, _, _, _, _, _, _, rfl⟩

theorem capLag_calm (s : State) (u : Run) (y : Nat) : Calm calmRegs s (capLag s u y) := by
  unfold capLag
  split
  · exact .refl _ s
  · split
    · exact .refl _ s
    · extract_lets s'
      have hjob : Calm calmRegs s (modCapJob s u.num (fun j => { j with abandoned := true })) := .outside ..
      have hs : Calm calmRegs s s' := hjob.trans (.bump _ _ (by decide))
      clear_value s'
      refine hs.trans ?_
      exact .outside ..

theorem zonesForPass_calm (s : State) (view start : Nat) (ps : List Pass) : Calm calmRegs s (zonesForPass s view start ps).2 := by
  unfold zonesForPass
  extract_lets zc l ons bit old work fit want lat words
  split
  · exact .refl _ s
  · refine Calm.trans ?_ (bumpN_calm _ F.PPX_BL_CNT_val_late _ (by decide))
    exact .outside ..

/-! Taking a row (R92, R178) -/

/-- The first row of a run that drives values brings the zone values of its pass. -/
def rowZones (s : State) (u : Run) : State × Run :=
  let z := if u.yTake = 0 && u.kind != .black then zonesForPass s u.view u.start (allPasses s) else (u.zq, s)
  (z.2, { u with zq := z.1 })

/-- The first row of a block row begins it. -/
def blockRowBegun (a : State × Run) (t by_ : Nat) : State × Run := if a.2.brow = some by_ then a else startBlockRow a.1 a.2 t by_

/-- What is driven on panel line Y: nothing where the pass does not program row y. -/
def rowValue (u : Run) (y Y : Nat) : Option (List Nat) := if u.prog.getD y true then some (lineValues u Y) else none

/-- The run, once its row y, of panel line Y, has been taken. -/
def rowTaken (u : Run) (y Y : Nat) : Run :=
  let a := (lineValues u Y).toArray
  let crc := if u.prog.getD y true then (List.range 16).map (fun r => crcLine u r Y a (u.crc.getD r 0)) else u.crc
  { advanceStrips u y with yTake := y + 1, crc := crc, lines := u.lines ++ [(y, rowValue u y Y)] }

/-- The last row of a block row ends it. -/
def blockRowEnded (s : State) (u : Run) (y by_ : Nat) : State × Run :=
  if decide (u.h ≤ y + 1) || u.line (y + 1) / 32 != by_ then finishBlockRow s u by_ else (s, u)

/-- The state and the run at the take tick of the run's next row, its block row begun. -/
def rowBegun (s : State) (u : Run) : State × Run :=
  let t := takeTick u u.yTake
  blockRowBegun (rowZones (reach s t) u) t (u.line u.yTake / 32)

/-- The state and the run, once that row has been taken. -/
def rowEnd (s : State) (u : Run) : State × Run :=
  let Y := u.line u.yTake
  let b := rowBegun s u
  blockRowEnded b.1 (rowTaken b.2 u.yTake Y) u.yTake (Y / 32)

theorem rowZones_step (s : State) (u : Run) : BlockStep (s, u) (rowZones s u) := by
  refine ⟨?_, _, _, _, _, _, _, _, _, rfl⟩
  unfold rowZones
  split
  · exact zonesForPass_calm ..
  · exact .refl _ s

theorem blockRowBegun_step (a : State × Run) (t by_ : Nat) : BlockStep a (blockRowBegun a t by_) := by
  unfold blockRowBegun
  split
  · exact .refl a
  · exact startBlockRow_step ..

theorem rowBegun_step (s : State) (u : Run) : BlockStep (reach s (takeTick u u.yTake), u) (rowBegun s u) :=
  (rowZones_step ..).trans (blockRowBegun_step ..)

theorem blockRowEnded_step (s : State) (u : Run) (y by_ : Nat) : BlockStep (s, u) (blockRowEnded s u y by_) := by
  unfold blockRowEnded
  split
  · exact finishBlockRow_step ..
  · exact .refl _

theorem rowValue_isSome (u : Run) (y Y : Nat) : (rowValue u y Y).isSome = u.prog.getD y true := by
  unfold rowValue
  split
  · next h => exact h.symm
  · next h => exact (Bool.eq_false_of_not_eq_true h).symm

/-- A row's work leaves the run's number and registers as they are; the row stands last among those waiting for a row slot (R178, R92). -/
theorem rowEnd_effect (s : State) (u : Run) :
    Calm calmRegs (reach s (takeTick u u.yTake)) (rowEnd s u).1 ∧ (rowEnd s u).2.num = u.num ∧ (rowEnd s u).2.cfg = u.cfg ∧
      (rowEnd s u).2.yTake = u.yTake + 1 ∧
      ∃ v, (rowEnd s u).2.lines = u.lines ++ [(u.yTake, v)] ∧ v.isSome = u.prog.getD u.yTake true := by
  obtain ⟨hs, hu⟩ := rowBegun_step s u
  unfold rowEnd
  generalize rowBegun s u = b at hs hu
  obtain ⟨s', u'⟩ := b
  obtain ⟨_, _, _, _, _, _, _, _, rfl⟩ : BlockOnly u u' := hu
  obtain ⟨hf, _, _, _, _, _, _, _, _, hu⟩ := blockRowEnded_step s' (rowTaken _ u.yTake (u.line u.yTake)) u.yTake (u.line u.yTake / 32)
  dsimp only at hu ⊢
  rw [hu]
  exact ⟨hs.trans hf, rfl, rfl, rfl, _, rfl, rowValue_isSome ..⟩

theorem rowTake_next {s : State} {u : Run} (h : s.scn.runs.find? (fun u => decide (u.yTake < u.h)) = some u) (hy : u.yTake + 1 < u.h) :
    rowTake s = urgStatus (setRun (capLag (rowEnd s u).1 (rowEnd s u).2 (u.yTake + 1)) (rowEnd s u).2) := by
  obtain ⟨_, _, hcfg, _⟩ := rowEnd_effect s u
  have hh : u.yTake + 1 < (rowEnd s u).2.h := by
    rw [Run.h, Run.f, hcfg]
    exact hy
  unfold rowTake
  rw [h]
  exact if_pos hh

theorem rowTake_effect {s : State} {u : Run} (h : s.scn.runs.find? (fun u => decide (u.yTake < u.h)) = some u) (hy : u.yTake + 1 < u.h) :
    ∃ u' v, (rowTake s).tick = max s.tick (takeTick u u.yTake) ∧ u' ∈ (rowTake s).scn.runs ∧ u'.num = u.num ∧
      u'.yTake = u.yTake + 1 ∧ u'.lines = u.lines ++ [(u.yTake, v)] ∧ v.isSome = u.prog.getD u.yTake true := by
  obtain ⟨hs, hnum, _, hnext, v, hlines, hv⟩ := rowEnd_effect s u
  obtain ⟨htick, -, hscn, -, -⟩ := hs.trans (capLag_calm _ (rowEnd s u).2 (u.yTake + 1))
  have hend := urgStatus_decodeOnly (setRun (capLag (rowEnd s u).1 (rowEnd s u).2 (u.yTake + 1)) (rowEnd s u).2)
  rw [rowTake_next h hy]
  refine ⟨(rowEnd s u).2, v, hend.tick.trans htick, ?_, hnum, hnext, hlines, hv⟩
  rw [hend.scn]
  exact mem_setRun (by rw [hscn]; exact List.mem_of_find?_eq_some h) hnum

/-- Settles O24: the due strips begin layer by layer and the tables' rows after them, and a row's work on its block row leaves the run's
other rows as they are. -/
theorem stripsAndRowsAreTakenInOrder : Obligations.StripsAndRowsAreTakenInOrder := by
  unfold Obligations.StripsAndRowsAreTakenInOrder
  refine ⟨fun s u h => ?_, fun s h => ?_, fun s u h hy => ?_, fun s h => ?_⟩
  · obtain ⟨v, hv, ⟨_, _, hbegan⟩, hmem⟩ := stripFetchStart_effect h
    subst hbegan
    have hall : ∀ l, l < 6 → l ∈ [3, 2, 1, 0, 4, 5] := by decide
    exact ⟨_, _, rfl, hv, rfl, rfl, fun l hl6 hl => begunAfter_getD u _ l (hall l hl6) hl, rfl, hmem⟩
  · have hnone : stripFetchStart s = s := by rw [stripFetchStart, h]
    exact congrArg Host.Outcome.next hnone
  · obtain ⟨u', v, heffect⟩ := rowTake_effect h hy
    exact ⟨_, u', v, rfl, heffect⟩
  · have hnone : rowTake s = s := by rw [rowTake, h]
    exact congrArg Host.Outcome.next hnone

end Sys2Proof.Machine
end

section
namespace Sys2Proof.Machine

/-! The inspection registers (R134) -/

/-- BLQ.INSP_CUR as it shows a version, or none. -/
def showVersion (s : State) (c : Option Cur) : State :=
  wr (wr (wrB s F.BLQ_INSP_CUR_none c.isNone) F.BLQ_INSP_CUR_source ((c.map Cur.source).getD 0)) F.BLQ_INSP_CUR_surface ((c.map Cur.surface).getD 0)

/-- BLQ.INSP_SEQ as a read that finds a version, or none, latches it. -/
def latchSeq (s : State) (c : Option Cur) : State :=
  match c with
  | some c => wr s F.BLQ_INSP_SEQ_seq c.seq
  | none => wr (free s 6).2 F.BLQ_INSP_SEQ_seq (free s 6).1

/-- The selected block and the version that is current there in the selected slot. -/
def inspBlock (s : State) : Nat := blkKey (rd s F.BLQ_INSP_SEL_bx) (rd s F.BLQ_INSP_SEL_by)
def inspVersion (s : State) : Option Cur := curOf s (inspBlock s) (rd s F.BLQ_INSP_SEL_slot)

theorem inspCur_eq (s : State) :
    inspCur s = showVersion (wr s F.BLQ_INSP_CUR_pending (queueOf s (inspBlock s)).length) (inspVersion s) := by
  have hslot : rd (wr s F.BLQ_INSP_CUR_pending (queueOf s (inspBlock s)).length) F.BLQ_INSP_SEL_slot = rd s F.BLQ_INSP_SEL_slot :=
    rd_wr_other _ _ _ _ (by decide)
  have hcur : curOf (wr s F.BLQ_INSP_CUR_pending (queueOf s (inspBlock s)).length) (inspBlock s) (rd s F.BLQ_INSP_SEL_slot) = inspVersion s := by
    rw [inspVersion, curOf, curOf, wr_blq]
  unfold inspCur
  dsimp only
  rw [← inspBlock, hslot, hcur]
  cases inspVersion s <;> rfl

@[simp] theorem showVersion_blq (s : State) (c : Option Cur) : (showVersion s c).blq = s.blq := by
  rw [showVersion, wr_blq, wr_blq, wrB_blq]

@[simp] theorem latchSeq_blq (s : State) (c : Option Cur) : (latchSeq s c).blq = s.blq := by
  cases c with
  | some c => rw [latchSeq, wr_blq]
  | none => rw [latchSeq, wr_blq]; rfl

@[simp] theorem inspCur_blq (s : State) : (inspCur s).blq = s.blq := by rw [inspCur_eq, showVersion_blq, wr_blq]

theorem showVersion_edge (s : State) (c : Option Cur) : Edge [F.BLQ_INSP_CUR_none.off] s (showVersion s c) :=
  ((Edge.wrB _ _ _ (by decide)).trans (.wr _ _ _ (by decide))).trans (.wr _ _ _ (by decide))

theorem showVersion_reads (s : State) (c : Option Cur) :
    rd (showVersion s c) F.BLQ_INSP_CUR_none = (if c.isNone then 1 else 0) ∧
    rd (showVersion s c) F.BLQ_INSP_CUR_source = (c.map Cur.source).getD 0 % 2 ^ F.BLQ_INSP_CUR_source.w ∧
    rd (showVersion s c) F.BLQ_INSP_CUR_surface = (c.map Cur.surface).getD 0 % 2 ^ F.BLQ_INSP_CUR_surface.w ∧
    rd (showVersion s c) F.BLQ_INSP_CUR_pending = rd s F.BLQ_INSP_CUR_pending := by
  unfold showVersion
  refine ⟨?_, ?_, rd_wr_same _ _ _ (by decide), ?_⟩
  · rw [rd_wr_disjoint _ _ _ _ (by decide) (by decide), rd_wr_disjoint _ _ _ _ (by decide) (by decide), rd_wrB_same _ _ _ (by decide) (by decide)]
  · rw [rd_wr_disjoint _ _ _ _ (by decide) (by decide), rd_wr_same _ _ _ (by decide)]
  · rw [rd_wr_disjoint _ _ _ _ (by decide) (by decide), rd_wr_disjoint _ _ _ _ (by decide) (by decide), wrB,
      rd_wr_disjoint _ _ _ _ (by decide) (by decide)]

theorem latchSeq_edge (s : State) (c : Option Cur) : Edge [F.BLQ_INSP_SEQ_seq.off] s (latchSeq s c) := by
  cases c with
  | some c => exact .wr _ _ _ (by decide)
  | none => exact Edge.trans (t := (free s 6).2) (.of_time rfl rfl rfl) (.wr _ _ _ (by decide))

theorem rd_latchSeq (s : State) (c : Cur) : rd (latchSeq s (some c)) F.BLQ_INSP_SEQ_seq = c.seq % 2 ^ 32 :=
  rd_wr_same s F.BLQ_INSP_SEQ_seq _ (by decide)

/-- The registers as a read of BLQ.INSP_CUR leaves them. -/
def inspLatched (s : State) : State := latchSeq (inspCur s) (inspVersion s)

theorem blqInspCurRead_eq (s : State) : blqInspCurRead s =
    { inspLatched s with host.readData := leBytes (rdW (inspLatched s) F.BLQ_INSP_CUR.off).toNat 4, host.readEp := false } := by
  have hcur : curOf (inspCur s) (inspBlock s) (rd (inspCur s) F.BLQ_INSP_SEL_slot) = inspVersion s := by
    have hslot : rd (inspCur s) F.BLQ_INSP_SEL_slot = rd s F.BLQ_INSP_SEL_slot := by
      rw [inspCur_eq, (showVersion_edge _ _).rd _ (by decide), rd_wr_other _ _ _ _ (by decide)]
    rw [hslot, curOf, inspCur_blq, inspVersion, curOf]
  unfold blqInspCurRead inspLatched
  dsimp only
  rw [← inspBlock, hcur]
  cases inspVersion s <;> rfl

/-- What a read of BLQ.INSP_CUR shows and latches, and that it changes these two registers only. -/
theorem inspLatched_effect (s : State) :
    Edge [F.BLQ_INSP_CUR_none.off, F.BLQ_INSP_SEQ_seq.off] s (inspLatched s) ∧ (inspLatched s).blq = s.blq ∧
    rd (inspLatched s) F.BLQ_INSP_CUR_none = (if (inspVersion s).isNone then 1 else 0) ∧
    rd (inspLatched s) F.BLQ_INSP_CUR_source = ((inspVersion s).map Cur.source).getD 0 % 2 ^ F.BLQ_INSP_CUR_source.w ∧
    rd (inspLatched s) F.BLQ_INSP_CUR_surface = ((inspVersion s).map Cur.surface).getD 0 % 2 ^ F.BLQ_INSP_CUR_surface.w ∧
    rd (inspLatched s) F.BLQ_INSP_CUR_pending = (queueOf s (inspBlock s)).length % 2 ^ F.BLQ_INSP_CUR_pending.w := by
  have hseq := latchSeq_edge (inspCur s) (inspVersion s)
  have hshow := showVersion_edge (wr s F.BLQ_INSP_CUR_pending (queueOf s (inspBlock s)).length) (inspVersion s)
  obtain ⟨hnone, hsource, hsurface, hpending⟩ := showVersion_reads (wr s F.BLQ_INSP_CUR_pending (queueOf s (inspBlock s)).length) (inspVersion s)
  rw [← inspCur_eq] at hshow hnone hsource hsurface hpending
  refine ⟨?_, by rw [inspLatched, latchSeq_blq, inspCur_blq], ?_, ?_, ?_, ?_⟩
  · exact (((Edge.wr _ _ _ (by decide)).trans hshow).mono (by decide)).trans (hseq.mono (by decide))
  · exact (hseq.rd _ (by decide)).trans hnone
  · exact (hseq.rd _ (by decide)).trans hsource
  · exact (hseq.rd _ (by decide)).trans hsurface
  · exact (hseq.rd _ (by decide)).trans (hpending.trans (rd_wr_same s F.BLQ_INSP_CUR_pending _ (by decide)))

/-- Settles O18: the read writes the four fields of INSP_CUR, which lie side by side, and INSP_SEQ, and answers from them. -/
theorem inspectionReadLatchesSeq : Obligations.InspectionReadLatchesSeq := by
  unfold Obligations.InspectionReadLatchesSeq
  intro s hup
  obtain ⟨hedge, hblq, hnone, hsource, hsurface, hpending⟩ := inspLatched_effect s
  have hread : exec .blqInspCurRead s = .next _ := congrArg Host.Outcome.next ((hostAsk_up s blqInspCurRead hup).trans (blqInspCurRead_eq s))
  refine ⟨_, hread, fun c (hc : inspVersion s = some c) => ?_, fun (hc : inspVersion s = none) => ?_, hpending, hedge.regs, hedge.time.memKept, hblq⟩
  · have hseq : rd (inspLatched s) F.BLQ_INSP_SEQ_seq = c.seq % 2 ^ 32 := by rw [inspLatched, hc, rd_latchSeq]
    rw [hc] at hnone hsource hsurface
    exact ⟨hnone, hsource, hsurface, hseq⟩
  · rw [hc] at hnone hsource hsurface
    exact ⟨hnone, hsource, hsurface⟩

end Sys2Proof.Machine
end

section
namespace Sys2Proof.Machine

/-! Completion of a version received over Orsal (R129, R378): the counterexample to O17 -/

/-- Submission 7, whose writes are all done, is the version 1 that the device has received whole. -/
def lastBlockWritten : State :=
  { State.reset with blq.writes := [⟨7, 0, 0⟩], orl.rx := [{ vid := 1, id := 7, surface := 0, left := [], fails := [], lastAt := 0 }] }

/-- The version ends with its entries: it is no longer one being received. -/
theorem entryComplete_lastBlockWritten : ∃ t, exec (.entryComplete 7) lastBlockWritten = .next t ∧ t.orl.rx = [] :=
  ⟨_, rfl, by decide +kernel⟩

/-- Refutes O17: ENTRY_COMPLETE of a version received over Orsal also ends that version and answers with COMPLETE (R378), so that Orsal's
state changes beside the block queues. -/
theorem not_hostSubmissionIsAllOrNothing : ¬ Obligations.HostSubmissionIsAllOrNothing := by
  unfold Obligations.HostSubmissionIsAllOrNothing
  rintro ⟨-, -, -, hcomplete, -⟩
  obtain ⟨t, ht, -, -, hframe, -⟩ := (hcomplete lastBlockWritten 7 ⟨7, 0, 0⟩ rfl).1 rfl
  obtain ⟨u, hu, hended⟩ := entryComplete_lastBlockWritten
  have htu : t = u := Host.Outcome.next.inj (ht.symm.trans hu)
  have hkept : t.orl.rx = lastBlockWritten.orl.rx := by rw [hframe]
  rw [htu, hended] at hkept
  exact absurd hkept (by decide)

end Sys2Proof.Machine
end

section
namespace Sys2Proof.Machine

/-! A rebuild submission held for a full queue (R274) at a refresh start: the counterexample to O23 -/

/-- A pass from tick `a` that has neither latched its band nor started. -/
def duePass (a : Nat) : Pass :=
  { cams := [], wins := [], view := 4, start := a, q := 0, dur := 0, rows := [], ordinal := 0, pic := 0, accum := false, sub := (1, 1), gap := 0,
    settle := 0, bl := false, repeats := false, hold := (0, 0), latched := false, started := false, ended := false, marked := false }

/-- A host entry of slot 3, accepted and complete between ticks 100 and 200. -/
def lateEntry : QEntry :=
  { id := 7, source := 5, slot := 3, surface := 0, seq := 9, token := 4, repl := false, apply := none, accAt := 150, accNo := 0, compAt := some 160,
    si := 0, sj := 0 }

/-- At tick 300 the passes from ticks 100 and 200 have not started, block 0 holds the late entry, and a rebuild submission is held for it. -/
def heldRebuild : State :=
  { State.reset with tick := 300, exs.carried := [duePass 100, duePass 200], age.rbHeld := some (0, []), blq.queues := [(0, [lateEntry])] }

theorem firstPass_heldRebuild : firstPass heldRebuild (fun p => !p.started && !p.repeats) = some (duePass 100) := by decide +kernel

/-- The late entry is no candidate at tick 100. -/
theorem lastCandidate_heldRebuild : lastCandidate 100 none 3 (queueOf heldRebuild 0) = none := by decide +kernel

/-- The held submission is offered after the start at tick 100, and before it the start at tick 200 resolves. -/
theorem refreshStart_heldRebuild : ∃ t, exec .refreshStart heldRebuild = .next t ∧ curOf t 0 3 = some lateEntry.toCur :=
  ⟨_, rfl, by decide +kernel⟩

/-- Refutes O23: with a rebuild submission held, REFRESH_START offers it again (R274), and so resolves every later refresh start that is due by its
tick too (Table 4.11): a slot with no candidate at the first start gets the version of the second. -/
theorem not_refreshStartResolvesEverySlot : ¬ Obligations.RefreshStartResolvesEverySlot := by
  unfold Obligations.RefreshStartResolvesEverySlot
  rintro ⟨hstart, -⟩
  obtain ⟨t, ht, -, -, hcur⟩ := hstart heldRebuild (duePass 100) firstPass_heldRebuild
  obtain ⟨u, hu, hlate⟩ := refreshStart_heldRebuild
  have htu : t = u := Host.Outcome.next.inj (ht.symm.trans hu)
  have hkept : curOf t 0 3 = curOf heldRebuild 0 3 := by
    have h := hcur 0 3 (by decide)
    have hnone : lastCandidate (duePass 100).start (heldRebuild.tmb.pic.map fun n => (n, max heldRebuild.tick (duePass 100).start -
      heldRebuild.tmb.bound)) 3 (queueOf heldRebuild 0) = none := lastCandidate_heldRebuild
    rw [hnone] at h
    exact h
  rw [htu, hlate] at hkept
  exact absurd hkept (by decide)

end Sys2Proof.Machine
end

section
namespace Sys2Proof.Machine

/-! Ingest: frames -/

theorem memKept_trans {s t u : State} (h : memKept s t) (h' : memKept t u) : memKept s u := by
  obtain ⟨h1, h2, h3, h4, h5, h6⟩ := h
  obtain ⟨g1, g2, g3, g4, g5, g6⟩ := h'
  exact ⟨g1.trans h1, g2.trans h2, g3.trans h3, g4.trans h4, g5.trans h5, g6.trans h6⟩

/-- The memories stand, and so do the registers at the offsets that satisfy `P`. -/
def Stands (P : Nat → Prop) (s t : State) : Prop := memKept s t ∧ ∀ o, P o → rdW t o = rdW s o

namespace Stands

variable {P : Nat → Prop} {s t u : State}

theorem of_reg (hm : memKept s t) (hr : t.reg = s.reg) : Stands P s t := ⟨hm, fun o _ => rdW_congr hr o⟩

theorem refl (P : Nat → Prop) (s : State) : Stands P s s := of_reg ⟨rfl, rfl, rfl, rfl, rfl, rfl⟩ rfl

theorem trans (h : Stands P s t) (h' : Stands P t u) : Stands P s u :=
  ⟨memKept_trans h.1 h'.1, fun o ho => (h'.2 o ho).trans (h.2 o ho)⟩

/-- A change of the block queues, and one of ingest's state. -/
theorem blq (s : State) (x : Blq) : Stands P s { s with blq := x } := of_reg ⟨rfl, rfl, rfl, rfl, rfl, rfl⟩ rfl

theorem ing (s : State) (x : Ing) : Stands P s { s with ing := x } := of_reg ⟨rfl, rfl, rfl, rfl, rfl, rfl⟩ rfl

theorem wr (s : State) (f : Fld) (x : Nat) (h : ¬ P f.off) : Stands P s (wr s f x) :=
  ⟨⟨rfl, rfl, rfl, rfl, rfl, rfl⟩, fun o ho => by rw [rdW_wr, if_neg fun e => h (by rw [← e]; exact ho)]⟩

theorem bump (s : State) (f : Fld) (h : ¬ P f.off) : Stands P s (bump s f) := ⟨⟨rfl, rfl, rfl, rfl, rfl, rfl⟩, (wr s f _ h).2⟩

theorem foldl {α : Type} {f : State → α → State} (h : ∀ u a, Stands P u (f u a)) (l : List α) (s : State) : Stands P s (l.foldl f s) := by
  induction l generalizing s with
  | nil => exact refl P s
  | cons a l ih => exact (h s a).trans (ih _)

end Stands

theorem inp_modIn (s : State) (n : Nat) (f : Inp → Inp) : inp (modIn s n f) n = f (inp s n) := sget_sset_same ..

theorem inp_congr {s t : State} (h : t.ing = s.ing) (n : Nat) : inp t n = inp s n := by rw [inp, h, inp]

theorem ing_ingStatus (s : State) : (ingStatus s).ing = s.ing := by rw [ingStatus, wr_ing]

theorem modIn_stands {P : Nat → Prop} (s : State) (n : Nat) (f : Inp → Inp) : Stands P s (modIn s n f) := .ing ..

/-! Locks (R102) -/

theorem dropWrites_stands {P : Nat → Prop} (s : State) (id : Nat) : Stands P s (dropWrites s id) := .blq ..

theorem dropOpenRows_stands {P : Nat → Prop} (s : State) (p : InPic) : Stands P s (dropOpenRows s p) := by
  unfold dropOpenRows
  split
  · exact Stands.foldl (fun _ _ => dropWrites_stands ..) ..
  · exact .refl P s

/-- The input's lock bit at a level. -/
def lockShown (s : State) (n : Nat) (l : Bool) : State := wrB s (F.ING_IN_STAT_lock n) l

/-- Losing lock stops the picture where one runs. -/
def lockLost (s : State) (n : Nat) : State :=
  match (inp s n).pic with
  | some p => ingStatus (modIn (dropOpenRows s p) n (fun i => { i with pic := none }))
  | none => s

/-- The tick at which lock was lost (R505). -/
def lockTick (s : State) (n : Nat) : State := modIn s n (fun i => { i with since := s.tick })

theorem receiverLock_eq (s : State) (n : Nat) (l : Bool) :
    receiverLock s n l = if l then lockShown s n l else lockLost (lockTick (lockShown s n l) n) n := rfl

theorem lockLost_stands {P : Nat → Prop} (s : State) (n : Nat) (h : ¬ P F.ING_STATUS_active.off) : Stands P s (lockLost s n) := by
  unfold lockLost
  split
  · exact ((dropOpenRows_stands ..).trans (modIn_stands ..)).trans (.wr _ _ _ h)
  · exact .refl P s

theorem pic_lockLost (s : State) (n : Nat) : (inp (lockLost s n) n).pic = none := by
  unfold lockLost
  split
  · rw [inp_congr (ing_ingStatus _), inp_modIn]
  · assumption

/-- The lock bit lies apart from the register that shows which inputs write pictures. -/
theorem lock_ne_active (n : Nat) : (F.ING_IN_STAT_lock n).off ≠ F.ING_STATUS_active.off := by
  simp only [F.ING_IN_STAT_lock, F.ING_STATUS_active]; omega

theorem receiverLock_effect (s : State) (n : Nat) (l : Bool) :
    Stands (· ∉ [F.ING_STATUS_active.off]) (lockShown s n l) (receiverLock s n l) ∧
    (l = true → receiverLock s n l = lockShown s n l) ∧ (l = false → (inp (receiverLock s n l) n).pic = none) := by
  rw [receiverLock_eq]
  cases l with
  | true => exact ⟨.refl _ _, fun _ => rfl, nofun⟩
  | false => exact ⟨(modIn_stands ..).trans (lockLost_stands _ n (by decide)), nofun, fun _ => pic_lockLost ..⟩

theorem receiverLock_shows (s : State) (n : Nat) (l : Bool) :
    rd (receiverLock s n l) (F.ING_IN_STAT_lock n) = (if l then 1 else 0) ∧
    rdW (receiverLock s n l) (F.ING_IN_STAT_lock n).off = (F.ING_IN_STAT_lock n).into (rdW s (F.ING_IN_STAT_lock n).off) (if l then 1 else 0) ∧
    regsKept s (receiverLock s n l) [(F.ING_IN_STAT_lock n).off, F.ING_STATUS_active.off] ∧ memKept s (receiverLock s n l) := by
  obtain ⟨⟨hmem, hreg⟩, -⟩ := receiverLock_effect s n l
  have hword : rdW (receiverLock s n l) (F.ING_IN_STAT_lock n).off = rdW (lockShown s n l) (F.ING_IN_STAT_lock n).off :=
    hreg _ (by simpa using lock_ne_active n)
  refine ⟨?_, ?_, fun o ho => ?_, hmem⟩
  · rw [rd, hword]
    exact rd_wrB_same s (F.ING_IN_STAT_lock n) l (by simp [F.ING_IN_STAT_lock]) (by simp [F.ING_IN_STAT_lock])
  · rw [hword, lockShown, wrB, rdW_wr, if_pos rfl]
  · simp only [List.mem_cons, List.not_mem_nil, or_false, not_or] at ho
    rw [hreg o (by simpa using ho.2), lockShown, wrB, rdW_wr, if_neg ho.1]

end Sys2Proof.Machine
end

section
namespace Sys2Proof.Machine

/-! Picture starts (R99 to R104, R115) -/

/-- The two registers in which a picture's start shows its signal. -/
def signalRegs (n : Nat) : List Nat := [(F.ING_IN_STAT_lock n).off, (F.ING_IN_SIZE_width_m1 n).off]

theorem Edge.andWr {offs : List Nat} {s t : State} (h : Edge offs s t) (f : Fld) (x : Nat) (hf : f.off ∈ offs) : Edge offs s (Machine.wr t f x) :=
  h.trans (.wr t f x hf)

theorem inStatus_edge (s : State) (n : Nat) (g : InSignal) (e : Nat × Nat × Nat × Nat) (fb : Bool) : Edge (signalRegs n) s (inStatus s n g e fb) := by
  have stat : (F.ING_IN_STAT_lock n).off ∈ signalRegs n := List.mem_cons_self
  have size : (F.ING_IN_SIZE_width_m1 n).off ∈ signalRegs n := List.mem_cons_of_mem _ List.mem_cons_self
  have hshown := (Edge.wr s (F.ING_IN_STAT_sub n) g.sub.val stat).andWr (F.ING_IN_STAT_depth n) g.depth.val stat
    |>.andWr (F.ING_IN_STAT_mtx n) e.1 stat |>.andWr (F.ING_IN_STAT_tf n) e.2.1 stat |>.andWr (F.ING_IN_STAT_range n) e.2.2.1 stat
    |>.andWr (F.ING_IN_STAT_prim n) e.2.2.2 stat |>.andWr (F.ING_IN_SIZE_height_m1 n) (g.h - 1) size
    |>.andWr (F.ING_IN_SIZE_width_m1 n) (g.w - 1) size |>.andWr (F.ING_IN_STAT_protected n) (if n = 0 && g.hdcp then 1 else 0) stat
  unfold inStatus
  cases fb with
  | true => exact hshown.trans ((Edge.wrB _ (F.ING_IN_STAT_enc_fb n) true stat).trans (.info ..))
  | false => exact hshown.trans (.wrB _ (F.ING_IN_STAT_enc_fb n) false stat)

/-- The signal of a picture's start as the input's registers show it. -/
def signalShown (s : State) (n : Nat) (g : InSignal) : State := inStatus s n g (inEnc s n g).1 (inEnc s n g).2

theorem signalShown_edge (s : State) (n : Nat) (g : InSignal) : Edge (signalRegs n) s (signalShown s n g) := inStatus_edge ..

theorem TimeOnly.ing {s t : State} (h : TimeOnly s t) : t.ing = s.ing := by rw [h]
theorem TimeOnly.blq {s t : State} (h : TimeOnly s t) : t.blq = s.blq := by rw [h]

theorem TimeOnly.poolChoice {s t : State} (h : TimeOnly s t) (first count : Nat) : poolChoice t first count = poolChoice s first count := by
  rw [h]; rfl

theorem cnt_not_signal (n : Nat) : (F.ING_IN_CNT n).off ∉ signalRegs n := by
  simp [signalRegs, F.ING_IN_CNT, F.ING_IN_STAT_lock, F.ING_IN_SIZE_width_m1]

/-- A picture is too wide or too high for its input, or its destination lies outside the panel (R102). -/
def tooBig (s : State) (n : Nat) (g : InSignal) : Prop :=
  rd s (F.ING_IN_MAX_w_max n) + 1 < g.w ∨ rd s (F.ING_IN_MAX_h_max n) + 1 < g.h ∨ panelBW s ≤ rd s (F.ING_IN_DST_bx0 n) ∨
    panelBH s ≤ rd s (F.ING_IN_DST_by0 n)

theorem rd_signalShown (s : State) (n : Nat) (g : InSignal) (f : Fld) (h : f.off ∉ signalRegs n) : rd (signalShown s n g) f = rd s f :=
  (signalShown_edge s n g).rd f h

theorem tooBig_signalShown (s : State) (n : Nat) (g : InSignal) : tooBig (signalShown s n g) n g ↔ tooBig s n g := by
  have hmax : (F.ING_IN_MAX n).off ∉ signalRegs n := by simp [signalRegs, F.ING_IN_MAX, F.ING_IN_STAT_lock, F.ING_IN_SIZE_width_m1]
  have hdst : (F.ING_IN_DST n).off ∉ signalRegs n := by simp [signalRegs, F.ING_IN_DST, F.ING_IN_STAT_lock, F.ING_IN_SIZE_width_m1]
  have hactive : F.SCN_ACTIVE.off ∉ signalRegs n := by
    simp only [signalRegs, F.SCN_ACTIVE, F.ING_IN_STAT_lock, F.ING_IN_SIZE_width_m1, List.mem_cons, List.not_mem_nil, or_false]
    omega
  have keeps := rd_signalShown s n g
  unfold tooBig panelBW panelBH panelW panelH
  rw [keeps (F.ING_IN_MAX_w_max n) hmax, keeps (F.ING_IN_MAX_h_max n) hmax, keeps (F.ING_IN_DST_bx0 n) hdst, keeps (F.ING_IN_DST_by0 n) hdst,
    keeps F.SCN_ACTIVE_width_m1 hactive, keeps F.SCN_ACTIVE_height_m1 hactive]

theorem poolChoice_signalShown (s : State) (n : Nat) (g : InSignal) :
    poolChoice (signalShown s n g) (rd (signalShown s n g) (F.ING_IN_POOL_first n)) (rd (signalShown s n g) (F.ING_IN_POOL_count n)) =
      poolChoice s (rd s (F.ING_IN_POOL_first n)) (rd s (F.ING_IN_POOL_count n)) := by
  have hpool : (F.ING_IN_POOL n).off ∉ signalRegs n := by simp [signalRegs, F.ING_IN_POOL, F.ING_IN_STAT_lock, F.ING_IN_SIZE_width_m1]
  rw [rd_signalShown s n g (F.ING_IN_POOL_first n) hpool, rd_signalShown s n g (F.ING_IN_POOL_count n) hpool,
    (signalShown_edge s n g).time.poolChoice]

/-- A picture begins only on a locked, enabled input with a signal of Tables 4.2 and 4.3. -/
def takesPicture (s : State) (n : Nat) (g : InSignal) : Prop :=
  on s (F.ING_IN_STAT_lock n) = true ∧ inEnabled s n = true ∧ inSupported n g = true

/-- A rejected picture is counted, with an info record. -/
def rejected (s : State) (n : Nat) (f : Fld) : State := info (bump s f) blkING n f

/-- The surface's descriptor shows the signal, and its stamp that it is the newest written. -/
def surfaceTaken (s : State) (n f : Nat) (g : InSignal) (e : Nat × Nat × Nat × Nat) : State :=
  stampSurf (inDescriptor s n f g (on s (F.ING_IN_CFG_store n)) e) f

/-- An input begins a picture. -/
def pictureBegun (s : State) (n : Nat) (p : InPic) : State :=
  ingStatus (modIn s n (fun i => { i with pic := some p, taken := i.taken + 1 }))

theorem inputPictureStart_ignored {s : State} {n : Nat} {g : InSignal}
    (h : on s (F.ING_IN_STAT_lock n) = false ∨ inEnabled s n = false ∨ inSupported n g = false) : inputPictureStart s n g = s := by
  unfold inputPictureStart
  rw [if_pos]
  rcases h with h | h | h <;> simp [h]

theorem inputPictureStart_cases {s : State} {n : Nat} {g : InSignal} (h : takesPicture s n g) :
    (tooBig s n g → inputPictureStart s n g = rejected (signalShown s n g) n (F.ING_IN_CNT_too_big n)) ∧
    (¬ tooBig s n g → poolChoice s (rd s (F.ING_IN_POOL_first n)) (rd s (F.ING_IN_POOL_count n)) = none →
      inputPictureStart s n g = rejected (signalShown s n g) n (F.ING_IN_CNT_no_surf n)) ∧
    (¬ tooBig s n g → ∀ f, poolChoice s (rd s (F.ING_IN_POOL_first n)) (rd s (F.ING_IN_POOL_count n)) = some f →
      ∃ p : InPic, p.surface = f ∧ p.row = 0 ∧ p.ids = [] ∧ p.sig = wovenSig g ∧
        p.seq = (inp (surfaceTaken (signalShown s n g) n f g (inEnc s n g).1) n).taken % 2 ^ 32 ∧
        inputPictureStart s n g = pictureBegun (surfaceTaken (signalShown s n g) n f g (inEnc s n g).1) n p) := by
  obtain ⟨hlock, hen, hsup⟩ := h
  have hgo : ¬ (!(on s (F.ING_IN_STAT_lock n) && inEnabled s n && inSupported n g)) = true := by simp [hlock, hen, hsup]
  have hbig := tooBig_signalShown s n g
  have hpool := poolChoice_signalShown s n g
  unfold tooBig at hbig ⊢
  unfold inputPictureStart
  rw [if_neg hgo]
  dsimp only
  rw [← signalShown]
  simp only [← hbig, ← hpool, Bool.or_eq_true, decide_eq_true_eq, or_assoc]
  refine ⟨fun hb => if_pos hb, fun hb hn => ?_, fun hb f hf => ?_⟩
  · rw [if_neg hb, hn]; rfl
  · rw [if_neg hb, hf]
    exact ⟨_, rfl, rfl, rfl, rfl, rfl, rfl⟩

/-- A rejected picture changes the registers that show its signal and its counter, and posts the counter's record. -/
theorem rejected_effect (s : State) (n : Nat) (g : InSignal) (f : Fld) (hf : f.off ∉ signalRegs n) (hw : f.lo + f.w ≤ 32) :
    rd (rejected (signalShown s n g) n f) f = counted s f ∧ posted (rejected (signalShown s n g) n f) clsInfo blkING n f [] ∧
    (rejected (signalShown s n g) n f).ing = s.ing ∧ memKept s (rejected (signalShown s n g) n f) := by
  have hcount : rd (rejected (signalShown s n g) n f) f = counted s f := by
    rw [rejected, rd_info, rd_bump _ _ hw, counted_congr f (rd_signalShown s n g f hf)]
  have hedge : Edge (f.off :: signalRegs n) s (rejected (signalShown s n g) n f) :=
    (((signalShown_edge s n g).mono fun o => List.mem_cons_of_mem _).trans (.bump _ f List.mem_cons_self)).trans (.info ..)
  exact ⟨hcount, posted_info .., hedge.time.ing, hedge.time.memKept⟩

/-- Taking a surface writes its descriptor in the local store, its stamp and its `protected` flag. -/
theorem surfaceTaken_frame (s : State) (n f : Nat) (g : InSignal) (e : Nat × Nat × Nat × Nat) :
    ∃ prot lst mem, surfaceTaken s n f g e =
      { s with ing := { s.ing with prot := prot, stamp := s.ing.stamp + 1, stamps := sset 0 s.ing.stamps f (s.ing.stamp + 1) }
               lst := lst, mem := mem } := ⟨_, _, _, rfl⟩

theorem surfaceTaken_effect (s : State) (n f : Nat) (g : InSignal) (e : Nat × Nat × Nat × Nat) :
    (surfaceTaken s n f g e).ing.inputs = s.ing.inputs ∧ sget 0 (surfaceTaken s n f g e).ing.stamps f = s.ing.stamp + 1 ∧
    (surfaceTaken s n f g e).gddr = s.gddr ∧ (surfaceTaken s n f g e).blq = s.blq := by
  obtain ⟨prot, lst, mem, h⟩ := surfaceTaken_frame s n f g e
  rw [h]
  exact ⟨rfl, by simp, rfl, rfl⟩

theorem pictureBegun_effect (s : State) (n : Nat) (p : InPic) :
    (inp (pictureBegun s n p) n).pic = some p ∧ (inp (pictureBegun s n p) n).taken = (inp s n).taken + 1 ∧
    (pictureBegun s n p).ing.stamps = s.ing.stamps ∧ (pictureBegun s n p).gddr = s.gddr ∧ (pictureBegun s n p).blq = s.blq := by
  have hinp : inp (pictureBegun s n p) n = { inp s n with pic := some p, taken := (inp s n).taken + 1 } := by
    rw [pictureBegun, inp_congr (ing_ingStatus _), inp_modIn]
  rw [hinp]
  refine ⟨rfl, rfl, ?_, ?_, ?_⟩
  · rw [pictureBegun, ing_ingStatus]; rfl
  · rw [pictureBegun, ingStatus, wr_gddr]; rfl
  · rw [pictureBegun, ingStatus, wr_blq]; rfl

/-- A picture that takes a surface begins at its first block row with no entries, numbered by the pictures taken before it (R115, R123). -/
theorem inputPictureStart_taken {s : State} {n f : Nat} {g : InSignal} (h : takesPicture s n g) (hb : ¬ tooBig s n g)
    (hf : poolChoice s (rd s (F.ING_IN_POOL_first n)) (rd s (F.ING_IN_POOL_count n)) = some f) :
    ∃ p, (inp (inputPictureStart s n g) n).pic = some p ∧ p.surface = f ∧ p.row = 0 ∧ p.ids = [] ∧ p.sig = wovenSig g ∧
      p.seq = (inp s n).taken % 2 ^ 32 ∧ (inp (inputPictureStart s n g) n).taken = (inp s n).taken + 1 ∧
      sget 0 (inputPictureStart s n g).ing.stamps f = s.ing.stamp + 1 ∧ (inputPictureStart s n g).gddr = s.gddr ∧
      (inputPictureStart s n g).blq = s.blq := by
  obtain ⟨p, hsurf, hrow, hids, hsig, hseq, heq⟩ := (inputPictureStart_cases h).2.2 hb f hf
  have htime := (signalShown_edge s n g).time
  obtain ⟨hinputs, hstamp, hgddr, hblq⟩ := surfaceTaken_effect (signalShown s n g) n f g (inEnc s n g).1
  rw [htime.ing] at hinputs hstamp
  have hinp : inp (surfaceTaken (signalShown s n g) n f g (inEnc s n g).1) n = inp s n := by rw [inp, hinputs, inp]
  rw [hinp] at hseq
  rw [heq]
  obtain ⟨hpic, htaken, hstamps, hgddr', hblq'⟩ := pictureBegun_effect (surfaceTaken (signalShown s n g) n f g (inEnc s n g).1) n p
  rw [hinp] at htaken
  exact ⟨p, hpic, hsurf, hrow, hids, hsig, hseq, htaken, by rw [hstamps, hstamp], by rw [hgddr', hgddr, htime.memKept.1],
    by rw [hblq', hblq, htime.blq]⟩

end Sys2Proof.Machine
end

section
namespace Sys2Proof.Machine

/-! Block rows (R116): the submission of a row's blocks -/

theorem setQueue_stands {P : Nat → Prop} (s : State) (k : Nat) (q : List QEntry) : Stands P s (setQueue s k q) := .blq ..

theorem resolveSlot_stands {P : Nat → Prop} (tick : Nat) (pos : Option (Nat × Nat)) (k : Nat) (s : State) (slot : Nat) :
    Stands P s (resolveSlot tick pos k s slot) := by
  unfold resolveSlot
  split
  · exact .blq ..
  · exact .refl P s

theorem resolveAll_stands {P : Nat → Prop} (s : State) (tick : Nat) (pos : Option (Nat × Nat)) : Stands P s (resolveAll s tick pos) :=
  Stands.foldl (fun _ _ => Stands.foldl (fun _ _ => resolveSlot_stands ..) ..) ..

theorem resolveDue_stands {P : Nat → Prop} (s : State) : Stands P s (resolveDue s) := by
  unfold resolveDue
  extract_lets due pos x
  have hx : Stands P s x := Stands.foldl (fun _ _ => resolveAll_stands ..) ..
  clear_value x
  refine hx.trans ?_
  split
  · split
    · exact resolveAll_stands ..
    · exact .refl P x
  · exact .refl P x

theorem dropFld_off (source : Nat) : 0x50040 ≤ (dropFld source).off := by unfold dropFld; split <;> decide

/-- The register that counts the pictures of input `n`, apart from all that a submission counts in. -/
def pictureReg (n : Nat) (o : Nat) : Prop := o = (F.ING_IN_PIC_pictures n).off

theorem drop_ne_pictures {n : Nat} (hn : n < 5) (source : Nat) : ¬ pictureReg n (dropFld source).off := by
  have h := dropFld_off source
  simp only [pictureReg, F.ING_IN_PIC_pictures]
  omega

theorem replaced_ne_pictures (n source : Nat) : ¬ pictureReg n (F.ING_IN_CNT_replaced source).off := by
  simp only [pictureReg, F.ING_IN_PIC_pictures, F.ING_IN_CNT_replaced]
  omega

theorem countDrop_stands {n : Nat} (hn : n < 5) (s : State) (e : QEntry) : Stands (pictureReg n) s (countDrop s e) := by
  have hdrop : Stands (pictureReg n) s (bump s (dropFld e.source)) := .bump s _ (drop_ne_pictures hn _)
  unfold countDrop
  dsimp only
  split
  · exact hdrop
  · split
    · exact hdrop
    · exact (hdrop.trans (.ing _ _)).trans (.bump _ _ (replaced_ne_pictures n e.source))

theorem enqueueRepl_stands {n : Nat} (hn : n < 5) (s : State) (k : Nat) (e : QEntry) : Stands (pictureReg n) s (enqueueRepl s k e) := by
  unfold enqueueRepl
  dsimp only
  split
  · exact setQueue_stands ..
  · split
    · exact (setQueue_stands ..).trans (countDrop_stands hn ..)
    · exact countDrop_stands hn ..

theorem submitBlock_stands {n : Nat} (hn : n < 5) (m : Nat) (p : InPic) (j : Nat) (a : State × List (Nat × Nat)) (i : Nat) :
    Stands (pictureReg n) a.1 (submitBlock m p j a i).1 := by
  unfold submitBlock
  dsimp only
  split
  · exact .refl _ _
  · exact Stands.trans (t := openWrites (nextAcc (ownToken (nextId a.1).2 m).2).2 (nextId a.1).1 p.surface 3) (.blq ..) (enqueueRepl_stands hn ..)

/-- The row's blocks are submitted behind the refresh starts due by now. -/
def rowSubmitted (s : State) (n : Nat) (p : InPic) : State × List (Nat × Nat) :=
  (List.range (blocksOf p.sig.w)).foldl (submitBlock n p p.row) (resolveDue s, p.ids)

theorem rowSubmitted_stands {n : Nat} (hn : n < 5) (s : State) (p : InPic) : Stands (pictureReg n) s (rowSubmitted s n p).1 := by
  have hblocks : ∀ (l : List Nat) (a : State × List (Nat × Nat)), Stands (pictureReg n) a.1 (l.foldl (submitBlock n p p.row) a).1 := by
    intro l
    induction l with
    | nil => exact fun a => .refl _ _
    | cons i l ih => exact fun a => (submitBlock_stands hn n p p.row a i).trans (ih _)
  exact (resolveDue_stands s).trans (hblocks _ (resolveDue s, p.ids))

/-- The last row of a picture begins: the picture ends and is counted. -/
def lastRowBegun (s : State) (n : Nat) : State := bump (modIn s n (fun i => { i with pic := none })) (F.ING_IN_PIC_pictures n)

/-- Another row of a picture begins. -/
def nextRowBegun (s : State) (n : Nat) (p : InPic) (ids : List (Nat × Nat)) : State :=
  modIn s n (fun i => { i with pic := some { p with row := p.row + 1, ids := ids } })

theorem ingestRow_eq {s : State} {n : Nat} {p : InPic} (h : (inp s n).pic = some p) :
    (p.row = blocksOf p.sig.h - 1 → ∃ reqs, ingestRow s n = askCmp (ingStatus (lastRowBegun (rowSubmitted s n p).1 n)) reqs) ∧
    (p.row ≠ blocksOf p.sig.h - 1 →
      ∃ reqs, ingestRow s n = askCmp (ingStatus (nextRowBegun (rowSubmitted s n p).1 n p (rowSubmitted s n p).2)) reqs) := by
  unfold ingestRow
  rw [h]
  dsimp only
  refine ⟨fun hl => ?_, fun hl => ?_⟩
  · rw [if_pos hl]; exact ⟨_, rfl⟩
  · rw [if_neg hl]; exact ⟨_, rfl⟩

end Sys2Proof.Machine
end

section
namespace Sys2Proof.Machine

/-! Block rows: what follows the submission leaves the inputs alone -/

/-- Ingest's state stands, with the memories and the registers at the offsets that satisfy `P`. -/
def InputsStand (P : Nat → Prop) (s t : State) : Prop := Stands P s t ∧ t.ing = s.ing

namespace InputsStand

variable {P : Nat → Prop} {s t u : State}

theorem refl (P : Nat → Prop) (s : State) : InputsStand P s s := ⟨.refl P s, rfl⟩

theorem trans (h : InputsStand P s t) (h' : InputsStand P t u) : InputsStand P s u := ⟨h.1.trans h'.1, h'.2.trans h.2⟩

theorem wr (s : State) (f : Fld) (x : Nat) (h : ¬ P f.off) : InputsStand P s (wr s f x) := ⟨.wr s f x h, rfl⟩

theorem bump (s : State) (f : Fld) (h : ¬ P f.off) : InputsStand P s (bump s f) := ⟨.bump s f h, rfl⟩

theorem warning (s : State) (b i : Nat) (f : Fld) (q : List (Nat × Nat)) : InputsStand P s (warning s b i f q) :=
  ⟨.of_reg ⟨rfl, rfl, rfl, rfl, rfl, rfl⟩ rfl, rfl⟩

theorem orl (s : State) (x : Orl) : InputsStand P s { s with orl := x } := ⟨.of_reg ⟨rfl, rfl, rfl, rfl, rfl, rfl⟩ rfl, rfl⟩

theorem cdc (s : State) (x : Cdc) : InputsStand P s { s with cdc := x } := ⟨.of_reg ⟨rfl, rfl, rfl, rfl, rfl, rfl⟩ rfl, rfl⟩

theorem of_ports (h : PortsOnly s t) : InputsStand P s t := by
  rw [PortsOnly] at h
  rw [h]
  exact ⟨.of_reg ⟨rfl, rfl, rfl, rfl, rfl, rfl⟩ rfl, rfl⟩

theorem foldl {α : Type} {f : State → α → State} (h : ∀ u a, InputsStand P u (f u a)) (l : List α) (s : State) :
    InputsStand P s (l.foldl f s) := by
  induction l generalizing s with
  | nil => exact refl P s
  | cons a l ih => exact (h s a).trans (ih _)

end InputsStand

theorem DecodeOnly.ing {s t : State} (h : DecodeOnly s t) : t.ing = s.ing := by rw [h]

theorem lanesAssigned_inputs {P : Nat → Prop} (s : State) : InputsStand P s (assignCmp 8 (assignDec 16 s)) := by
  have hframe := (assignDec_decodeOnly 16 s).trans (assignCmp_decodeOnly 8 _)
  have hregs : ∀ o, Calm [o] s (assignCmp 8 (assignDec 16 s)) := fun o => (assignDec_calm 16 s).trans (assignCmp_calm 8 _)
  exact ⟨⟨hframe.memKept, fun o _ => (hregs o).2.2.2.1 o List.mem_cons_self⟩, hframe.ing⟩

theorem askCmp_inputs {P : Nat → Prop} (s : State) (rs : List CmpReq) (h : ¬ P F.CDC_STATUS.off) : InputsStand P s (askCmp s rs) :=
  ((InputsStand.cdc s _).trans (lanesAssigned_inputs _)).trans ((InputsStand.wr _ F.CDC_STATUS_dec_busy _ h).trans (.wr _ F.CDC_STATUS_cmp_busy _ h))

theorem supersede_inputs {P : Nat → Prop} (s : State) (r : Nat) (h : ¬ P F.ORL_CNT_DIST.off) : InputsStand P s (supersede s r) :=
  (InputsStand.orl s _).trans
    (.foldl (fun u _ => (InputsStand.bump u F.ORL_CNT_DIST_superseded h).trans (.warning _ _ _ F.ORL_CNT_DIST_superseded _)) _ _)

theorem startDist_inputs {P : Nat → Prop} (s : State) (d : Dist) : InputsStand P s (startDist s d) := by
  unfold startDist sendVer
  exact ((InputsStand.orl s _).trans (.orl _ _)).trans (.of_ports (sendPorts_only ..))

/-- A rule for a picture touches Orsal and its counters of distributions, and neither ingest nor memory (R375). -/
theorem ruleStart_inputs {P : Nat → Prop} (n : Nat) (p : InPic) (s : State) (r : Nat) (h : ¬ P F.ORL_CNT_DIST.off) :
    InputsStand P s (ruleStart n p s r) := by
  unfold ruleStart
  split
  · exact .refl P s
  · extract_lets rate sbx sby w h' u early v
    split
    · exact (InputsStand.bump s F.ORL_CNT_DIST_prot h).trans (.warning ..)
    · split
      · exact .bump s F.ORL_CNT_DIST_skipped h
      · exact ((supersede_inputs s r h).trans (.orl _ _)).trans (startDist_inputs ..)

theorem cdcStatus_ne_pictures {n : Nat} (hn : n < 5) : ¬ pictureReg n F.CDC_STATUS.off := by
  simp only [pictureReg, F.CDC_STATUS, F.ING_IN_PIC_pictures]; omega

theorem distCnt_ne_pictures {n : Nat} (hn : n < 5) : ¬ pictureReg n F.ORL_CNT_DIST.off := by
  simp only [pictureReg, F.ORL_CNT_DIST, F.ING_IN_PIC_pictures]; omega

theorem active_ne_pictures (n : Nat) : ¬ pictureReg n F.ING_STATUS_active.off := by
  simp only [pictureReg, F.ING_STATUS_active, F.ING_IN_PIC_pictures]; omega

/-- The blocks of a row that has begun, in `m`, are asked for, and the manager's rules act on it. -/
theorem ingestRowOrl_after {s m : State} {n : Nat} {p : InPic} {reqs : List CmpReq} (hn : n < 5) (h : (inp s n).pic = some p)
    (hrow : ingestRow s n = askCmp (ingStatus m) reqs) : InputsStand (pictureReg n) m (ingestRowOrl s n) := by
  have hasked : InputsStand (pictureReg n) m (ingestRow s n) := by
    rw [hrow]
    exact (InputsStand.wr m _ _ (active_ne_pictures n)).trans (askCmp_inputs _ _ (cdcStatus_ne_pictures hn))
  unfold ingestRowOrl
  rw [h]
  dsimp only
  split
  · exact hasked.trans (.foldl (fun u r => ruleStart_inputs n p u r (distCnt_ne_pictures hn)) _ _)
  · exact hasked

theorem rd_of_stands {n : Nat} {s t : State} (h : Stands (pictureReg n) s t) : rd t (F.ING_IN_PIC_pictures n) = rd s (F.ING_IN_PIC_pictures n) := by
  rw [rd, h.2 _ rfl, rd]

/-- The last row of a picture ends it and counts it (R116). -/
theorem ingestRowOrl_last {s : State} {n : Nat} {p : InPic} (hn : n < 5) (h : (inp s n).pic = some p) (hl : p.row = blocksOf p.sig.h - 1) :
    memKept s (ingestRowOrl s n) ∧ (inp (ingestRowOrl s n) n).pic = none ∧
    rd (ingestRowOrl s n) (F.ING_IN_PIC_pictures n) = counted s (F.ING_IN_PIC_pictures n) := by
  obtain ⟨reqs, hrow⟩ := (ingestRow_eq h).1 hl
  obtain ⟨hafter, hing⟩ := ingestRowOrl_after hn h hrow
  have hsub := rowSubmitted_stands hn s p
  have hlast : memKept (rowSubmitted s n p).1 (lastRowBegun (rowSubmitted s n p).1 n) := ⟨rfl, rfl, rfl, rfl, rfl, rfl⟩
  refine ⟨memKept_trans hsub.1 (memKept_trans hlast hafter.1), ?_, ?_⟩
  · rw [inp_congr hing, lastRowBegun, inp_congr (bump_ing ..), inp_modIn]
  · have hcnt : rd (modIn (rowSubmitted s n p).1 n (fun i => { i with pic := none })) (F.ING_IN_PIC_pictures n) =
        rd s (F.ING_IN_PIC_pictures n) := rd_of_stands (hsub.trans (modIn_stands ..))
    rw [rd_of_stands hafter, lastRowBegun, rd_bump _ _ (by simp [F.ING_IN_PIC_pictures]), counted_congr _ hcnt]

/-- Another row leaves the picture running, one row further (R116). -/
theorem ingestRowOrl_next {s : State} {n : Nat} {p : InPic} (hn : n < 5) (h : (inp s n).pic = some p) (hl : p.row ≠ blocksOf p.sig.h - 1) :
    memKept s (ingestRowOrl s n) ∧ ∃ ids, (inp (ingestRowOrl s n) n).pic = some { p with row := p.row + 1, ids := ids } := by
  obtain ⟨reqs, hrow⟩ := (ingestRow_eq h).2 hl
  obtain ⟨hafter, hing⟩ := ingestRowOrl_after hn h hrow
  have hbegun : Stands (pictureReg n) s (nextRowBegun (rowSubmitted s n p).1 n p (rowSubmitted s n p).2) :=
    (rowSubmitted_stands hn s p).trans (modIn_stands ..)
  exact ⟨(hbegun.trans hafter).1, (rowSubmitted s n p).2, by rw [inp_congr hing, nextRowBegun, inp_modIn]⟩

theorem ingestRowOrl_idle {s : State} {n : Nat} (h : (inp s n).pic = none) : ingestRowOrl s n = s := by
  unfold ingestRowOrl
  rw [h]

/-- Settles O16, by the cases of each command: gaining and losing lock; a picture that is ignored, rejected or takes a surface; a picture's last
row and another one. -/
theorem inputPictureLifecycle : Obligations.InputPictureLifecycle := by
  unfold Obligations.InputPictureLifecycle
  refine ⟨fun s n l => ?_, fun s n g hlock hen hsup => ⟨fun hbig => ?_, fun hw hh hx hy => ?_⟩, fun s n g h => ?_, fun s n p h => ?_, fun s n h => ?_⟩
  · obtain ⟨hbit, hword, hregs, hmem⟩ := receiverLock_shows s n.val l
    obtain ⟨-, hgain, hlose⟩ := receiverLock_effect s n.val l
    exact ⟨_, rfl, hbit, hword, hregs, hmem, fun hl => by rw [hgain hl]; rfl, hlose⟩
  · have hstart := (inputPictureStart_cases ⟨hlock, hen, hsup⟩).1 hbig
    exact ⟨_, congrArg Host.Outcome.next hstart,
      rejected_effect s n.val g (F.ING_IN_CNT_too_big n.val) (cnt_not_signal n.val) (by simp [F.ING_IN_CNT_too_big])⟩
  · have hfits : ¬ tooBig s n.val g := by unfold tooBig; omega
    refine ⟨fun hnone => ?_, fun f hf => ?_⟩
    · have hstart := (inputPictureStart_cases ⟨hlock, hen, hsup⟩).2.1 hfits hnone
      exact ⟨_, congrArg Host.Outcome.next hstart,
        rejected_effect s n.val g (F.ING_IN_CNT_no_surf n.val) (cnt_not_signal n.val) (by simp [F.ING_IN_CNT_no_surf])⟩
    · obtain ⟨p, heffect⟩ := inputPictureStart_taken ⟨hlock, hen, hsup⟩ hfits hf
      exact ⟨_, p, rfl, heffect⟩
  · exact congrArg Host.Outcome.next (inputPictureStart_ignored h)
  · by_cases hl : p.row = blocksOf p.sig.h - 1
    · obtain ⟨hmem, hends⟩ := ingestRowOrl_last n.isLt h hl
      exact ⟨_, rfl, hmem, fun _ => hends, fun hne => absurd hl hne⟩
    · obtain ⟨hmem, hnext⟩ := ingestRowOrl_next n.isLt h hl
      exact ⟨_, rfl, hmem, fun he => absurd he hl, fun _ => hnext⟩
  · exact congrArg Host.Outcome.next (ingestRowOrl_idle h)

end Sys2Proof.Machine
end

section
namespace Sys2Proof.Machine

/-! What the work of the codec's lanes leaves of the state -/

/-- Two fields share no bit of a register. -/
def Fld.apart (f g : Fld) : Bool := g.off != f.off || (decide (f.lo + f.w ≤ 32) && (decide (g.lo + g.w ≤ f.lo) || decide (f.lo + f.w ≤ g.lo)))

theorem rd_wr_apart (s : State) {f g : Fld} (x : Nat) (h : f.apart g = true) : rd (wr s f x) g = rd s g := by
  simp only [Fld.apart, Bool.or_eq_true, Bool.and_eq_true, bne_iff_ne, decide_eq_true_eq] at h
  rcases h with h | ⟨hf, hd⟩
  · exact rd_wr_other s f g x h
  · exact rd_wr_disjoint s f g x hf hd

/-- Only registers with the log of the tick, records, lanes and the memory scheduler have changed; the job, the fields `fs` and every record
that waited are as they were. -/
structure LaneWork (fs : List Fld) (s t : State) : Prop where
  frame : t = { s with reg := t.reg, now := t.now, evt := t.evt, cdc := t.cdc, mem := t.mem }
  job : t.cdc.job = s.cdc.job
  fields : ∀ f ∈ fs, rd t f = rd s f
  posts : ∀ r ∈ s.evt.posted, r ∈ t.evt.posted

/-- The fields that lanes at work leave alone: the job ring's, those of errors, and those by which memories are addressed. -/
def codecFields : List Fld :=
  [F.CDC_JOB_CONS_index, F.CDC_JOB_DONE_index, F.CDC_STATUS_job_running, F.CDC_CNT_VFAIL_blocks, F.CDC_CNT_BERR_blocks, F.CDC_BERR_INFO_cause,
   F.CDC_BERR_INFO_user, F.CDC_BERR_INFO_lane, F.CDC_BERR_INFO_space, F.CDC_BERR_ADDR_LO_addr, F.MEM_CFG_density, F.MEM_CFG_map_en,
   F.BLQ_SURF_BASE_offset]

namespace LaneWork

variable {fs : List Fld} {s t u : State}

theorem refl (fs : List Fld) (s : State) : LaneWork fs s s := ⟨rfl, rfl, fun _ _ => rfl, fun _ h => h⟩

theorem trans (h : LaneWork fs s t) (h' : LaneWork fs t u) : LaneWork fs s u :=
  ⟨h'.frame.trans (by rw [h.frame]), h'.job.trans h.job, fun f hf => (h'.fields f hf).trans (h.fields f hf), fun r hr => h'.posts r (h.posts r hr)⟩

/-- A change of the lanes or of what waits for them, and of the memory scheduler. -/
theorem lanes (s : State) (c : Cdc) (m : MemSt) (h : c.job = s.cdc.job) : LaneWork fs s { s with cdc := c, mem := m } :=
  ⟨rfl, h, fun _ _ => rfl, fun _ h => h⟩

theorem wr (s : State) (f : Fld) (x : Nat) (h : ∀ g ∈ fs, f.apart g = true) : LaneWork fs s (wr s f x) :=
  ⟨rfl, rfl, fun g hg => rd_wr_apart s x (h g hg), fun _ h => h⟩

theorem wrB (s : State) (f : Fld) (b : Bool) (h : ∀ g ∈ fs, f.apart g = true) : LaneWork fs s (wrB s f b) := wr s f _ h

theorem bump (s : State) (f : Fld) (h : ∀ g ∈ fs, f.apart g = true) : LaneWork fs s (bump s f) :=
  ⟨rfl, rfl, (wr s f _ h).fields, fun _ h => h⟩

theorem post (s : State) (c b i : Nat) (f : Fld) (q : List (Nat × Nat)) : LaneWork fs s (post s c b i f q) :=
  ⟨rfl, rfl, fun _ _ => rfl, fun _ h => (mem_insRec _ _ _).2 (.inr h)⟩

theorem alarmSet (s : State) (b : Nat) (h : ∀ g ∈ fs, g.off ≠ F.EVT_ALARM_alarm.off) : LaneWork fs s (alarmSet s b) := by
  have hframe := alarmSet_frame s b
  exact ⟨by rw [hframe], by rw [hframe], fun g hg => rd_alarmSet_other s b g (h g hg), (alarmSet_edge s b).posts⟩

theorem ite {c : Prop} [Decidable c] (h : LaneWork fs s t) (h' : LaneWork fs s u) : LaneWork fs s (if c then t else u) := by
  split
  · exact h
  · exact h'

theorem foldl {α : Type} {f : State → α → State} (h : ∀ u a, LaneWork fs u (f u a)) (l : List α) (s : State) :
    LaneWork fs s (l.foldl f s) := by
  induction l generalizing s with
  | nil => exact refl fs s
  | cons a l ih => exact (h s a).trans (ih _)

/-- The same job set on both sides. -/
theorem setJob (h : LaneWork fs s t) (j : Job) : LaneWork fs (setJob s j) (setJob t j) :=
  ⟨by rw [h.frame]; rfl, rfl, h.fields, h.posts⟩

theorem memKept (h : LaneWork fs s t) : memKept s t := by
  unfold Machine.memKept
  rw [h.frame]
  exact ⟨rfl, rfl, rfl, rfl, rfl, rfl⟩

theorem tick (h : LaneWork fs s t) : t.tick = s.tick := by rw [h.frame]
theorem blq (h : LaneWork fs s t) : t.blq = s.blq := by rw [h.frame]
theorem ing (h : LaneWork fs s t) : t.ing = s.ing := by rw [h.frame]
theorem scn (h : LaneWork fs s t) : t.scn = s.scn := by rw [h.frame]

end LaneWork

/-! Lanes -/

theorem assignDec_works {fs : List Fld} (n : Nat) (s : State) : LaneWork fs s (assignDec n s) := by
  induction n generalizing s with
  | zero => exact .refl fs s
  | succ n ih =>
    simp only [assignDec]
    split
    · exact .refl fs s
    · split
      · exact .refl fs s
      · refine LaneWork.trans ?_ (ih _)
        split <;> exact .lanes s _ _ rfl

theorem assignCmp_works {fs : List Fld} (n : Nat) (s : State) : LaneWork fs s (assignCmp n s) := by
  induction n generalizing s with
  | zero => exact .refl fs s
  | succ n ih =>
    simp only [assignCmp]
    split
    · exact .refl fs s
    · split
      · exact .refl fs s
      · refine LaneWork.trans ?_ (ih _)
        exact .lanes s _ _ rfl

theorem laneStatus_works (s : State) : LaneWork codecFields s (laneStatus s) :=
  (LaneWork.wr s F.CDC_STATUS_dec_busy _ (by decide)).trans (.wr _ F.CDC_STATUS_cmp_busy _ (by decide))

theorem assignLanes_works (s : State) : LaneWork codecFields s (assignLanes s) :=
  (assignDec_works 16 s).trans ((assignCmp_works 8 _).trans (laneStatus_works _))

theorem askCmp_works (s : State) (rs : List CmpReq) : LaneWork codecFields s (askCmp s rs) :=
  (LaneWork.lanes s { s.cdc with cmpWait := s.cdc.cmpWait ++ rs } s.mem rfl).trans (assignLanes_works _)

theorem askDec_works (s : State) (rs : List DecReq) : LaneWork codecFields s (askDec s rs) :=
  (LaneWork.lanes s { s.cdc with decWait := s.cdc.decWait ++ rs } s.mem rfl).trans (assignLanes_works _)

theorem countMode_works (s : State) (bs : List Byte) : LaneWork codecFields s (countMode s bs) := by
  unfold countMode
  split
  · exact .bump s F.CDC_CNT_RAW_blocks (by decide)
  · exact .bump s F.CDC_CNT_CODED_blocks (by decide)
  · exact .bump s F.CDC_CNT_CONST_blocks (by decide)

theorem urgStatus_works (s : State) : LaneWork codecFields s (urgStatus s) := by
  have hfresh : LaneWork codecFields s (freshUrg s) := .lanes s (freshUrg s).cdc s.mem rfl
  have hshown (x : Nat) : LaneWork codecFields s (wr (freshUrg s) F.SCN_STATUS_urg x) := hfresh.trans (.wr _ F.SCN_STATUS_urg x (by decide))
  unfold urgStatus
  dsimp only
  split
  · exact .ite (hshown _) (hshown _)
  · exact hshown _

/-! Failed reads (R391, R403) -/

theorem wordUnc_works (s : State) (strip : Bool) (off : Nat) : LaneWork codecFields s (wordUnc s strip off) :=
  (LaneWork.bump s F.MEM_LS_ECC_uncorrected (by decide)).trans <| (LaneWork.wrB _ F.MEM_LS_ERR_ADDR_strip strip (by decide)).trans <|
    (LaneWork.wr _ F.MEM_LS_ERR_ADDR_offset off (by decide)).trans <| (LaneWork.post ..).trans (.alarmSet _ _ (by decide))

theorem wordsUnc_works (s : State) (a n : Nat) : LaneWork codecFields s (wordsUnc s a n) := .foldl (fun u _ => wordUnc_works u _ _) _ s

theorem memErr_works (s : State) (kind cls a : Nat) : LaneWork codecFields s (memErr s kind cls a) :=
  (LaneWork.wr s F.MEM_ERR_INFO_kind kind (by decide)).trans <| (LaneWork.wr _ F.MEM_ERR_INFO_class cls (by decide)).trans <|
    (LaneWork.wr _ F.MEM_ERR_INFO_channel _ (by decide)).trans <| (LaneWork.wr _ F.MEM_ERR_ADDR_LO_addr a (by decide)).trans
      (.wr _ F.MEM_ERR_ADDR_HI_addr _ (by decide))

theorem memReach_works (s : State) (cls a n : Nat) : LaneWork codecFields s (memReach s cls a n) :=
  .ite (.refl _ s) ((memErr_works ..).trans (.post ..))

end Sys2Proof.Machine
end

section
namespace Sys2Proof.Machine

/-! A decode lane's block (R150, R151) -/

/-- What the check of a block read from memory gives: a poisoned read is a block error with cause 7 (R395, R397). -/
def laneResult (s : State) (lane : Nat) (r : DecReq) : Decoded :=
  if s.mem.bad.contains lane && !r.lst then .err 7 else decodeAt s r.lst r.addr r.depth

/-- The lane is free, and no read of it waits. -/
def laneFreed (s : State) (lane : Nat) : State := memDone { s with cdc.decLanes := s.cdc.decLanes.set lane none } lane

/-- The block is off its lane, and what its read finds is reported. -/
def blockRead (s : State) (lane : Nat) (r : DecReq) : State :=
  if r.lst then wordsUnc (laneFreed s lane) r.addr (blockLen s r.lst r.addr)
  else memReach (laneFreed s lane) (decClass r) r.addr (blockLen s r.lst r.addr)

theorem blockRead_works (s : State) (lane : Nat) (r : DecReq) : LaneWork codecFields s (blockRead s lane r) := by
  have hfreed : LaneWork codecFields s (laneFreed s lane) :=
    .lanes s { s.cdc with decLanes := s.cdc.decLanes.set lane none } (laneFreed s lane).mem rfl
  exact .ite (hfreed.trans (wordsUnc_works ..)) (hfreed.trans (memReach_works ..))

theorem finishDec_eq (s : State) (lane : Nat) (r : DecReq) (upset : Bool) (h : r.bytes = none) :
    finishDec s lane r upset = match laneResult s lane r with
      | .ok xs o => if upset then (.err 7, blockError (blockRead s lane r) 7 r.user lane r.lst r.addr) else (.ok xs o, blockRead s lane r)
      | .err c => (.err c, blockError (blockRead s lane r) c r.user lane r.lst r.addr) := by
  unfold finishDec
  rw [h]
  rfl

theorem laneResult_good {s : State} {lane : Nat} {r : DecReq} (h : s.mem.bad.contains lane = false) :
    laneResult s lane r = decodeAt s r.lst r.addr r.depth := by
  unfold laneResult
  rw [h]
  rfl

/-- CDC.BERR_INFO and CDC.BERR_ADDR show the last block error (Table 5.14). -/
def errorShown (s : State) (cause user lane : Nat) (lst : Bool) : State :=
  wrB (wr (wr (wr s F.CDC_BERR_INFO_cause cause) F.CDC_BERR_INFO_user user) F.CDC_BERR_INFO_lane lane) F.CDC_BERR_INFO_space lst

def errorAddr (s : State) (addr : Nat) : State := wr (wr s F.CDC_BERR_ADDR_LO_addr addr) F.CDC_BERR_ADDR_HI_addr (addr / 2 ^ 32)

theorem blockError_eq (s : State) (cause user lane : Nat) (lst : Bool) (addr : Nat) : blockError s cause user lane lst addr =
    errorRec (errorAddr (errorShown (bump s F.CDC_CNT_BERR_blocks) cause user lane lst) addr) blkCDC lane F.CDC_CNT_BERR_blocks
      [(cause, 1), (user, 1), (lane, 1), (addr, 5)] := rfl

theorem errorShown_works {fs : List Fld} (s : State) (cause user lane : Nat) (lst : Bool) (h : ∀ g ∈ fs, g.off ≠ F.CDC_BERR_INFO.off) :
    LaneWork fs s (errorShown s cause user lane lst) := by
  have hapart (f : Fld) (hf : f.off = F.CDC_BERR_INFO.off) : ∀ g ∈ fs, f.apart g = true := fun g hg => by simp [Fld.apart, hf, h g hg]
  exact (LaneWork.wr s F.CDC_BERR_INFO_cause cause (hapart _ rfl)).trans <| (LaneWork.wr _ F.CDC_BERR_INFO_user user (hapart _ rfl)).trans <|
    (LaneWork.wr _ F.CDC_BERR_INFO_lane lane (hapart _ rfl)).trans (.wrB _ F.CDC_BERR_INFO_space lst (hapart _ rfl))

theorem errorAddr_works {fs : List Fld} (s : State) (addr : Nat)
    (h : ∀ g ∈ fs, F.CDC_BERR_ADDR_LO_addr.apart g = true ∧ F.CDC_BERR_ADDR_HI_addr.apart g = true) : LaneWork fs s (errorAddr s addr) :=
  (LaneWork.wr s F.CDC_BERR_ADDR_LO_addr addr fun g hg => (h g hg).1).trans (.wr _ F.CDC_BERR_ADDR_HI_addr _ fun g hg => (h g hg).2)

theorem errorShown_reads (s : State) (cause user lane : Nat) (lst : Bool) :
    rd (errorShown s cause user lane lst) F.CDC_BERR_INFO_cause = cause % 2 ^ F.CDC_BERR_INFO_cause.w ∧
    rd (errorShown s cause user lane lst) F.CDC_BERR_INFO_user = user % 2 ^ F.CDC_BERR_INFO_user.w ∧
    rd (errorShown s cause user lane lst) F.CDC_BERR_INFO_lane = lane % 2 ^ F.CDC_BERR_INFO_lane.w ∧
    rd (errorShown s cause user lane lst) F.CDC_BERR_INFO_space = if lst then 1 else 0 := by
  unfold errorShown
  refine ⟨?_, ?_, ?_, rd_wrB_same _ _ _ (by decide) (by decide)⟩
  · rw [wrB, rd_wr_apart _ _ (by decide), rd_wr_apart _ _ (by decide), rd_wr_apart _ _ (by decide), rd_wr_same _ _ _ (by decide)]
  · rw [wrB, rd_wr_apart _ _ (by decide), rd_wr_apart _ _ (by decide), rd_wr_same _ _ _ (by decide)]
  · rw [wrB, rd_wr_apart _ _ (by decide), rd_wr_same _ _ _ (by decide)]

/-- What a block error shows (R151). -/
structure ErrorShows (s t : State) (cause user lane : Nat) (lst : Bool) (addr : Nat) : Prop where
  count_eq : rd t F.CDC_CNT_BERR_blocks = counted s F.CDC_CNT_BERR_blocks
  cause_eq : rd t F.CDC_BERR_INFO_cause = cause % 2 ^ F.CDC_BERR_INFO_cause.w
  user_eq : rd t F.CDC_BERR_INFO_user = user % 2 ^ F.CDC_BERR_INFO_user.w
  lane_eq : rd t F.CDC_BERR_INFO_lane = lane % 2 ^ F.CDC_BERR_INFO_lane.w
  space_eq : rd t F.CDC_BERR_INFO_space = if lst then 1 else 0
  addr_eq : rd t F.CDC_BERR_ADDR_LO_addr = addr % 2 ^ F.CDC_BERR_ADDR_LO_addr.w
  post : posted t clsError blkCDC lane F.CDC_CNT_BERR_blocks [(cause, 1), (user, 1), (lane, 1), (addr, 5)]

/-- A block error leaves the memories and the job alone. -/
theorem blockError_works (s : State) (cause user lane : Nat) (lst : Bool) (addr : Nat) :
    LaneWork [] s (blockError s cause user lane lst addr) := by
  rw [blockError_eq]
  exact (LaneWork.bump s _ (by simp)).trans <| (errorShown_works _ cause user lane lst (by simp)).trans <|
    (errorAddr_works _ addr (by simp)).trans (.post ..)

theorem blockError_shows (s : State) (cause user lane : Nat) (lst : Bool) (addr : Nat) :
    ErrorShows s (blockError s cause user lane lst addr) cause user lane lst addr := by
  rw [blockError_eq]
  have hcount := errorShown_works (fs := [F.CDC_CNT_BERR_blocks]) (bump s F.CDC_CNT_BERR_blocks) cause user lane lst (by decide)
  obtain ⟨hcause, huser, hlane, hspace⟩ := errorShown_reads (bump s F.CDC_CNT_BERR_blocks) cause user lane lst
  generalize errorShown (bump s F.CDC_CNT_BERR_blocks) cause user lane lst = m at *
  have haddr := errorAddr_works (fs := [F.CDC_CNT_BERR_blocks, F.CDC_BERR_INFO_cause, F.CDC_BERR_INFO_user, F.CDC_BERR_INFO_lane,
    F.CDC_BERR_INFO_space]) m addr (by decide)
  refine ⟨?_, ?_, ?_, ?_, ?_, ?_, posted_post ..⟩ <;> rw [rd_errorRec]
  · rw [haddr.fields _ (by simp), hcount.fields _ (by simp), rd_bump _ _ (by decide)]
  · rw [haddr.fields _ (by simp), hcause]
  · rw [haddr.fields _ (by simp), huser]
  · rw [haddr.fields _ (by simp), hlane]
  · rw [haddr.fields _ (by simp), hspace]
  · rw [errorAddr, rd_wr_apart _ _ (by decide), rd_wr_same _ _ _ (by decide)]

/-- What was shown stays so while lanes work, and counts from what they left alone. -/
theorem ErrorShows.around {s m n t : State} {cause user lane : Nat} {lst : Bool} {addr : Nat} (h : ErrorShows m n cause user lane lst addr)
    (hs : LaneWork codecFields s m) (ht : ∀ f ∈ codecFields, rd t f = rd n f) (hp : ∀ r ∈ n.evt.posted, r ∈ t.evt.posted) :
    ErrorShows s t cause user lane lst addr where
  count_eq := by rw [ht _ (by decide), h.count_eq, counted_congr _ (hs.fields _ (by decide))]
  cause_eq := by rw [ht _ (by decide), h.cause_eq]
  user_eq := by rw [ht _ (by decide), h.user_eq]
  lane_eq := by rw [ht _ (by decide), h.lane_eq]
  space_eq := by rw [ht _ (by decide), h.space_eq]
  addr_eq := by rw [ht _ (by decide), h.addr_eq]
  post := by
    obtain ⟨r, hr, h⟩ := h.post
    exact ⟨r, hp r hr, h⟩

end Sys2Proof.Machine
end

section
namespace Sys2Proof.Machine

/-! The running job while its blocks go through the lanes -/

@[simp] theorem rd_setJob (s : State) (j : Job) (f : Fld) : rd (setJob s j) f = rd s f := rfl
@[simp] theorem evt_setJob (s : State) (j : Job) : (setJob s j).evt = s.evt := rfl
theorem memKept_setJob (s : State) (j : Job) : memKept s (setJob s j) := ⟨rfl, rfl, rfl, rfl, rfl, rfl⟩

/-- Lanes work on job `j` from `s` on: of the job, only how it ends and whether a block of it lies in a lane may have changed. -/
def JobWork (s : State) (j : Job) (t : State) : Prop :=
  ∃ ended busy, LaneWork codecFields (setJob s { j with ended := ended, busy := busy }) t

namespace JobWork

variable {s m t u : State} {j : Job}

theorem after (h : LaneWork codecFields s m) (h' : JobWork m j t) : JobWork s j t := by
  obtain ⟨e, b, h'⟩ := h'
  exact ⟨e, b, (h.setJob _).trans h'⟩

theorem trans (h : JobWork s j t) (h' : LaneWork codecFields t u) : JobWork s j u := by
  obtain ⟨e, b, h⟩ := h
  exact ⟨e, b, h.trans h'⟩

theorem job (h : JobWork s j t) : ∃ ended busy, t.cdc.job = some { j with ended := ended, busy := busy } := by
  obtain ⟨e, b, h⟩ := h
  exact ⟨e, b, h.job⟩

theorem memKept (h : JobWork s j t) : memKept s t := by
  obtain ⟨e, b, h⟩ := h
  exact h.memKept

theorem fields (h : JobWork s j t) {f : Fld} (hf : f ∈ codecFields) : rd t f = rd s f := by
  obtain ⟨e, b, h⟩ := h
  exact h.fields f hf

theorem ite {c : Prop} [Decidable c] (h : JobWork s j t) (h' : JobWork s j u) : JobWork s j (if c then t else u) := by
  split
  · exact h
  · exact h'

end JobWork

theorem jobEnds_work {s m : State} (h : LaneWork codecFields s m) (j : Job) (result cause sub : Nat) :
    JobWork s j (jobEnds m j result cause sub) := .after h ⟨_, _, .refl _ _⟩

theorem jobRefused_work (s : State) (j : Job) : JobWork s j (jobRefused s j) :=
  jobEnds_work ((LaneWork.bump s F.SEC_CNT_REFUSE_job (by decide)).trans (.post ..)) j 5 0 0

theorem jobRowsUnc_works (s : State) (j : Job) (i : Nat) : LaneWork codecFields s (jobRowsUnc s j i) :=
  .ite (.foldl (fun u _ => wordsUnc_works u _ _) _ s) (.refl _ s)

/-- The next block of a job, or its end (R170, R171, R494). -/
theorem jobNext_work (s : State) (j : Job) : JobWork s j (jobNext (setJob s j)) := by
  have hends (r c b : Nat) : JobWork s j (jobEnds (setJob s j) j r c b) := ⟨_, _, .refl _ _⟩
  unfold jobNext
  show JobWork s j (if j.ended.isSome || j.busy then setJob s j else _)
  refine .ite ⟨j.ended, j.busy, .refl _ _⟩ (.ite (hends ..) (.ite (hends ..) (.ite ?_ (.ite (.ite ?_ ?_) ?_))))
  · obtain ⟨e, b, h⟩ := jobRefused_work (setJob s j) j
    exact ⟨e, b, h⟩
  · obtain ⟨e, b, h⟩ := jobEnds_work (jobRowsUnc_works (setJob s j) j j.next) j 4 7 0
    exact ⟨e, b, h⟩
  · exact ⟨j.ended, true, askCmp_works (setJob s { j with busy := true }) _⟩
  · exact ⟨j.ended, true, askDec_works (setJob s { j with busy := true }) _⟩

end Sys2Proof.Machine
end

section
namespace Sys2Proof.Machine

/-! Samples written to a linear region (R164) -/

/-- Only the two memories, what marks their bytes, registers and records have changed. -/
def SpaceOnly (s t : State) : Prop := t = { s with gddr := t.gddr, lst := t.lst, mem := t.mem, reg := t.reg, evt := t.evt }

theorem SpaceOnly.trans {s t u : State} (h : SpaceOnly s t) (h' : SpaceOnly t u) : SpaceOnly s u := by
  unfold SpaceOnly at h h' ⊢
  exact h'.trans (by rw [h])

theorem spaceWr_only (s : State) (lst : Bool) (a : Nat) (bs : List Byte) : SpaceOnly s (spaceWr s lst a bs) := by
  unfold spaceWr SpaceOnly
  split
  · exact lstKeep_frame s a bs
  · rw [gddrWr_frame]

/-- The two memories hold the same, and a write has the same effect on them. -/
structure SameSpaces (s t : State) : Prop where
  gddr : t.gddr = s.gddr
  lst : t.lst = s.lst
  prot : t.ing.prot = s.ing.prot
  cap : memCap t = memCap s
  table : rd t F.BLQ_SURF_BASE_offset = rd s F.BLQ_SURF_BASE_offset

theorem memCap_congr {s t : State} (hd : rd t F.MEM_CFG_density = rd s F.MEM_CFG_density) (hm : rd t F.MEM_CFG_map_en = rd s F.MEM_CFG_map_en) :
    memCap t = memCap s := by
  unfold memCap on
  rw [hd, hm]

theorem LaneWork.spaces {s t : State} (h : LaneWork codecFields s t) : SameSpaces s t where
  gddr := h.memKept.1
  lst := h.memKept.2.1
  prot := by rw [h.ing]
  cap := memCap_congr (h.fields _ (by decide)) (h.fields _ (by decide))
  table := h.fields _ (by decide)

/-- The bytes kept for the local store depend on the store, the surface table's place and the flags ingest has set. -/
theorem keepProt_congr {s t : State} (hlst : t.lst = s.lst) (hprot : t.ing.prot = s.ing.prot)
    (htable : rd t F.BLQ_SURF_BASE_offset = rd s F.BLQ_SURF_BASE_offset) (a : Nat) (bs : List Byte) : keepProt t a bs = keepProt s a bs := by
  unfold keepProt protByte
  rw [hlst, hprot, htable]

theorem gddrWr_gddr (s : State) (cls a : Nat) (bs : List Byte) :
    (gddrWr s cls a bs).gddr = ssetList 0#8 s.gddr a (bs.take (min bs.length (memCap s - a))) := by
  have hg : (memReach s cls a bs.length).gddr = s.gddr := by rw [memReach_frame]
  simp only [gddrWr, hg]

/-- A write to GDDR6 is the address error it may be, and a change of the bytes. -/
theorem gddrWr_fields (s : State) (cls a : Nat) (bs : List Byte) {f : Fld} (hf : f ∈ codecFields) : rd (gddrWr s cls a bs) f = rd s f :=
  (memReach_works s cls a bs.length).fields f hf

theorem SameSpaces.spaceWr {s t : State} (h : SameSpaces s t) (lst : Bool) (a : Nat) (bs : List Byte) :
    SameSpaces (spaceWr s lst a bs) (spaceWr t lst a bs) := by
  cases lst with
  | true =>
    exact ⟨h.gddr, by show ssetList _ _ _ _ = ssetList _ _ _ _; rw [h.lst, keepProt_congr h.lst h.prot h.table], h.prot, h.cap, h.table⟩
  | false =>
    have hcap (u : State) : memCap (gddrWr u 7 a bs) = memCap u :=
      memCap_congr (gddrWr_fields u 7 a bs (by decide)) (gddrWr_fields u 7 a bs (by decide))
    have htable (u : State) := gddrWr_fields u 7 a bs (f := F.BLQ_SURF_BASE_offset) (by decide)
    refine ⟨?_, ?_, ?_, ?_, ?_⟩ <;> simp only [Machine.spaceWr, Bool.false_eq_true, if_false]
    · rw [gddrWr_gddr, gddrWr_gddr, h.gddr, h.cap]
    · rw [gddrWr_frame t, gddrWr_frame s, h.lst]
    · rw [gddrWr_frame t, gddrWr_frame s, h.prot]
    · rw [hcap, hcap, h.cap]
    · rw [htable, htable, h.table]

/-- The samples of region block `i`, row by row (R164). -/
def samplesWritten (s : State) (j : Job) (i : Nat) (xs : List Nat) : State :=
  (jobRows j i).foldl (fun s x => spaceWr s j.linear.1 x.2.1 (((xs.drop (32 * (x.1 % 32))).take x.2.2).flatMap (fun v => leBytes v j.t))) s

theorem samplesWritten_only (s : State) (j : Job) (i : Nat) (xs : List Nat) : SpaceOnly s (samplesWritten s j i xs) :=
  List.foldlRecOn (jobRows j i) _ (motive := SpaceOnly s) rfl fun _ h _ _ => h.trans (spaceWr_only ..)

theorem SameSpaces.samplesWritten {s t : State} (h : SameSpaces s t) (j : Job) (i : Nat) (xs : List Nat) :
    SameSpaces (samplesWritten s j i xs) (samplesWritten t j i xs) := by
  unfold Machine.samplesWritten
  induction jobRows j i generalizing s t with
  | nil => exact h
  | cons x l ih => exact ih (h.spaceWr ..)

/-! A block of the host job ends in a decode lane (R164, R170) -/

theorem decodeBlockDone_job {s : State} {lane : Nat} {r : DecReq} (upset : Bool) (hr : s.cdc.decLanes.getD lane none = some r) (ht : r.tag = .job) :
    decodeBlockDone s lane upset = assignLanes (jobDecoded (finishDec s lane r upset).2 (finishDec s lane r upset).1) := by
  unfold decodeBlockDone
  rw [hr]
  dsimp only
  rw [ht]

theorem jobDecoded_err {s : State} {j : Job} (hj : s.cdc.job = some j) (ha : j.abort = none) (c : Nat) :
    jobDecoded s (.err c) = setJob s { j with ended := some (4, c, 0), busy := false } := by
  unfold jobDecoded jobEnds
  rw [hj]
  dsimp only
  rw [ha]
  rfl

/-- The samples are written and the job goes on behind them. -/
theorem jobDecoded_ok {s : State} {j : Job} (hj : s.cdc.job = some j) (xs : List Nat) (o : Bool) : ∃ pos, jobDecoded s (.ok xs o) =
    jobNext (setJob (samplesWritten s j j.next xs) { j with busy := false, next := j.next + 1, done := j.done + 1, srcPos := pos }) := by
  unfold jobDecoded
  rw [hj]
  exact ⟨_, rfl⟩

theorem decodeBlockDone_error {s : State} {lane : Nat} {r : DecReq} {j : Job} {c : Nat} (upset : Bool)
    (hr : s.cdc.decLanes.getD lane none = some r) (ht : r.tag = .job) (hb : r.bytes = none) (hj : s.cdc.job = some j) (ha : j.abort = none)
    (hc : laneResult s lane r = .err c) :
    ErrorShows s (decodeBlockDone s lane upset) c r.user lane r.lst r.addr ∧
    (decodeBlockDone s lane upset).cdc.job = some { j with ended := some (4, c, 0), busy := false } ∧
    memKept s (decodeBlockDone s lane upset) := by
  have hread := blockRead_works s lane r
  have hshows := blockError_shows (blockRead s lane r) c r.user lane r.lst r.addr
  have herr := blockError_works (blockRead s lane r) c r.user lane r.lst r.addr
  have hjob : (blockError (blockRead s lane r) c r.user lane r.lst r.addr).cdc.job = some j := by rw [herr.job, hread.job, hj]
  rw [decodeBlockDone_job upset hr ht, finishDec_eq s lane r upset hb, hc]
  dsimp only
  rw [jobDecoded_err hjob ha]
  generalize blockError (blockRead s lane r) c r.user lane r.lst r.addr = n at *
  have hlanes := assignLanes_works (setJob n { j with ended := some (4, c, 0), busy := false })
  have hkept : memKept s n := memKept_trans hread.memKept herr.memKept
  refine ⟨hshows.around hread ?_ ?_, hlanes.job, memKept_trans (memKept_trans hkept (memKept_setJob ..)) hlanes.memKept⟩
  · exact fun f hf => (hlanes.fields f hf).trans (rd_setJob ..)
  · rw [← evt_setJob n { j with ended := some (4, c, 0), busy := false }]
    exact hlanes.posts

end Sys2Proof.Machine
end

section
namespace Sys2Proof.Machine

/-! A block that decodes (R159, R164, R195) -/

theorem decodeBlockDone_samples {s : State} {lane : Nat} {r : DecReq} {j : Job} {xs : List Nat} {o : Bool}
    (hr : s.cdc.decLanes.getD lane none = some r) (ht : r.tag = .job) (hb : r.bytes = none) (hj : s.cdc.job = some j)
    (hd : laneResult s lane r = .ok xs o) :
    ∃ j', (decodeBlockDone s lane false).cdc.job = some j' ∧ j'.next = j.next + 1 ∧ j'.done = j.done + 1 ∧
      (decodeBlockDone s lane false).flash = s.flash ∧ (decodeBlockDone s lane false).nvm = s.nvm ∧
      (decodeBlockDone s lane false).gddr = (samplesWritten s j j.next xs).gddr ∧
      (decodeBlockDone s lane false).lst = (samplesWritten s j j.next xs).lst := by
  have hread := blockRead_works s lane r
  rw [decodeBlockDone_job false hr ht, finishDec_eq s lane r false hb, hd]
  obtain ⟨pos, hgo⟩ := jobDecoded_ok (hread.job.trans hj) xs o
  simp only [Bool.false_eq_true, if_false, hgo]
  have hwritten := samplesWritten_only (blockRead s lane r) j j.next xs
  have hsame := hread.spaces.samplesWritten j j.next xs
  generalize samplesWritten (blockRead s lane r) j j.next xs = m at hwritten hsame
  have hwork := (jobNext_work m { j with busy := false, next := j.next + 1, done := j.done + 1, srcPos := pos }).trans (assignLanes_works _)
  obtain ⟨e, b, hjob⟩ := hwork.job
  obtain ⟨hgddr, hlst, hflash, hnvm, -, -⟩ := hwork.memKept
  obtain ⟨-, -, hflash0, hnvm0, -, -⟩ := hread.memKept
  refine ⟨_, hjob, rfl, rfl, ?_, ?_, hgddr.trans hsame.gddr, hlst.trans hsame.lst⟩
  · rw [hflash, hwritten, hflash0]
  · rw [hnvm, hwritten, hnvm0]

theorem findRun_setRun {s : State} {n : Nat} {u v : Run} (h : findRun s n = some u) (hv : v.num = u.num) : findRun (setRun s v) n = some v := by
  have hkeep : (fun x : Run => decide (x.num = n)) ∘ (fun x => if x.num = v.num then v else x) = fun x => decide (x.num = n) := by
    funext x
    by_cases hx : x.num = v.num <;> simp [hx]
  show List.find? _ (List.map _ s.scn.runs) = some v
  rw [List.find?_map, hkeep, show List.find? _ s.scn.runs = some u from h, Option.map_some, if_pos hv.symm]

/-- Scan-out takes a decoded block with the tick (R195). -/
theorem scanDecoded_ok {s : State} {n k addr depth due : Nat} {u : Run} {x : Fetch} (xs : List Nat) (o : Bool) (hu : findRun s n = some u)
    (hx : sget none u.fetch (fetchKey k addr depth) = some x) : scanDecoded s n k addr depth due (.ok xs o) =
      urgStatus (setRun s { u with fetch := sset none u.fetch (fetchKey k addr depth) (some { x with st := .ok xs s.tick }) }) := by
  unfold scanDecoded
  rw [hu]
  dsimp only
  rw [hx]

theorem decodeBlockDone_scan {s : State} {lane n k : Nat} {r : DecReq} {u : Run} {x : Fetch} {xs : List Nat} {o : Bool}
    (hr : s.cdc.decLanes.getD lane none = some r) (ht : r.tag = .scan n k) (hb : r.bytes = none) (hd : laneResult s lane r = .ok xs o)
    (hu : findRun s n = some u) (hx : sget none u.fetch (fetchKey k r.addr r.depth) = some x) :
    findRun (decodeBlockDone s lane false) n =
      some { u with fetch := sset none u.fetch (fetchKey k r.addr r.depth) (some { x with st := .ok xs s.tick }) } ∧
    memKept s (decodeBlockDone s lane false) := by
  have hread := blockRead_works s lane r
  have hdone : decodeBlockDone s lane false =
      assignLanes (scanDecoded (finishDec s lane r false).2 n k r.addr r.depth r.due (finishDec s lane r false).1) := by
    unfold decodeBlockDone
    rw [hr]
    dsimp only
    rw [ht]
  have hu' : findRun (blockRead s lane r) n = some u := by rw [findRun, hread.scn]; exact hu
  rw [hdone, finishDec_eq s lane r false hb, hd]
  simp only [Bool.false_eq_true, if_false]
  rw [scanDecoded_ok xs o hu' hx, hread.tick]
  have hend := (urgStatus_works (setRun (blockRead s lane r) { u with
    fetch := sset none u.fetch (fetchKey k r.addr r.depth) (some { x with st := .ok xs s.tick }) })).trans (assignLanes_works _)
  refine ⟨?_, memKept_trans hread.memKept hend.memKept⟩
  rw [findRun, hend.scn]
  exact findRun_setRun hu' rfl

end Sys2Proof.Machine
end

section
namespace Sys2Proof.Machine

/-! A verified ingest block (R116, R159, R160) -/

/-- The memories, the block queues, the fields of the codec and the records that waited are as they were. -/
structure Beside (s t : State) : Prop where
  mem : memKept s t
  blq : t.blq = s.blq
  fields : ∀ f ∈ codecFields, rd t f = rd s f
  posts : ∀ r ∈ s.evt.posted, r ∈ t.evt.posted

theorem Beside.trans {s t u : State} (h : Beside s t) (h' : Beside t u) : Beside s u :=
  ⟨memKept_trans h.mem h'.mem, h'.blq.trans h.blq, fun f hf => (h'.fields f hf).trans (h.fields f hf), fun r hr => h'.posts r (h.posts r hr)⟩

theorem LaneWork.beside {s t : State} (h : LaneWork codecFields s t) : Beside s t := ⟨h.memKept, h.blq, h.fields, h.posts⟩

/-- Only Orsal's state and the model's free values have changed. -/
def OrlOnly (s t : State) : Prop := t = { s with orl := t.orl, fresh := t.fresh }

theorem OrlOnly.trans {s t u : State} (h : OrlOnly s t) (h' : OrlOnly t u) : OrlOnly s u := by
  unfold OrlOnly at h h' ⊢
  exact h'.trans (by rw [h])

theorem OrlOnly.beside {s t : State} (h : OrlOnly s t) : Beside s t := by
  rw [OrlOnly] at h
  rw [h]
  exact ⟨⟨rfl, rfl, rfl, rfl, rfl, rfl⟩, rfl, fun _ _ => rfl, fun _ h => h⟩

theorem sendBlock_only (s : State) (d : Dist) (key : Nat) : OrlOnly s (sendBlock s d key) := by
  have hports {u t : State} (h : PortsOnly u t) : OrlOnly u t := by
    rw [PortsOnly] at h
    rw [OrlOnly, h]
  unfold sendBlock
  split
  · exact OrlOnly.trans (t := nextSeq s) rfl (hports (sendPorts_only ..))
  · exact rfl

/-- The rules that carry a block send it (R375). -/
theorem blockVerified_only (s : State) (addr : Nat) : OrlOnly s (blockVerified s addr) := by
  refine List.foldlRecOn s.orl.dists _ (motive := OrlOnly s) rfl fun u h d _ => h.trans ?_
  dsimp only
  split
  · exact rfl
  · split
    · split
      · exact rfl
      · split
        · exact rfl
        · exact OrlOnly.trans (t := setDist u _) rfl (sendBlock_only ..)
    · exact rfl

/-- One block of each of the submissions has been written (R129). -/
def writesLeft (ids : List Nat) (ws : List WriteJob) : List WriteJob :=
  ids.foldl (fun ws i => ws.map (fun w => if w.id = i then { w with left := w.left - 1 } else w)) ws

theorem ingestDone_eq (s : State) (ids : List Nat) : ingestDone s ids = { s with blq.writes := writesLeft ids s.blq.writes } := by
  unfold ingestDone writesLeft
  induction ids generalizing s with
  | nil => rfl
  | cons i ids ih => rw [List.foldl_cons, ih]; rfl

/-- The block a lane's verification lets through (R160). -/
def verifiedBlock (r : CmpReq) (v : Verify) : List Byte :=
  if v = .pass then encodeBlock r.depth r.ad r.opaque_ r.samples else rawBlock r.depth r.opaque_ r.samples

theorem verifiedCmp_block (s : State) (lane : Nat) (r : CmpReq) (v : Verify) : (verifiedCmp s lane r v).1 = verifiedBlock r v := by
  cases v <;> rfl

/-- A verdict changes no memory, and of the registers only the count of failures. -/
theorem verifiedCmp_works (s : State) (lane : Nat) (r : CmpReq) (v : Verify) :
    LaneWork [F.MEM_CFG_density, F.MEM_CFG_map_en] s (verifiedCmp s lane r v).2 := by
  have hfree : LaneWork [F.MEM_CFG_density, F.MEM_CFG_map_en] s { s with cdc.cmpLanes := s.cdc.cmpLanes.set lane none } :=
    .lanes s { s.cdc with cmpLanes := s.cdc.cmpLanes.set lane none } s.mem rfl
  cases v with
  | pass => exact hfree
  | fail c => exact hfree.trans ((LaneWork.bump _ F.CDC_CNT_VFAIL_blocks (by decide)).trans (.post ..))

theorem verifiedCmp_fail (s : State) (lane : Nat) (r : CmpReq) (c : Fin 8) :
    rd (verifiedCmp s lane r (.fail c)).2 F.CDC_CNT_VFAIL_blocks = counted s F.CDC_CNT_VFAIL_blocks ∧
    posted (verifiedCmp s lane r (.fail c)).2 clsWarning blkCDC lane F.CDC_CNT_VFAIL_blocks [(r.user, 1), (lane, 1), (c.val, 1)] :=
  ⟨rd_bump { s with cdc.cmpLanes := s.cdc.cmpLanes.set lane none } F.CDC_CNT_VFAIL_blocks (by decide), posted_post ..⟩

/-- An ingest block is written, its entries have one write less, Orsal's rules act on it, and free lanes take new blocks. -/
def ingestStored (s : State) (addr : Nat) (bs : List Byte) (ids : List Nat) : State :=
  assignLanes (blockVerified (ingestDone (countMode (gddrPut s 5 addr bs) bs) ids) addr)

theorem compressBlockDone_ingest {s : State} {lane n f : Nat} {v : Verify} {r : CmpReq} {ids : List Nat}
    (hr : s.cdc.cmpLanes.getD lane none = some r) (ht : r.tag = .ingest n ids f) : compressBlockDone s lane v =
      ingestStored (verifiedCmp s lane r v).2 r.addr (verifiedBlock r v) ids := by
  unfold compressBlockDone
  rw [hr]
  dsimp only
  unfold cmpDeliver
  rw [ht, verifiedCmp_block]
  rfl

theorem gddrPut_frame (s : State) (cls a : Nat) (bs : List Byte) : gddrPut s cls a bs =
    { s with gddr := (gddrWr s cls a bs).gddr, mem := (gddrPut s cls a bs).mem, reg := (gddrWr s cls a bs).reg, evt := (gddrWr s cls a bs).evt } := by
  have h := gddrWr_frame s cls a bs
  unfold gddrPut
  generalize gddrWr s cls a bs = m at h
  rw [h]

/-- It changes GDDR6 as the write does, and beside the writes left none of the memories, codec fields and records that waited. -/
structure StoredAs (s t : State) (addr : Nat) (bs : List Byte) (ids : List Nat) : Prop where
  gddr : t.gddr = (gddrWr s 5 addr bs).gddr
  lst : t.lst = s.lst
  flash : t.flash = s.flash
  nvm : t.nvm = s.nvm
  writes : t.blq.writes = writesLeft ids s.blq.writes
  fields : ∀ f ∈ codecFields, rd t f = rd s f
  posts : ∀ r ∈ s.evt.posted, r ∈ t.evt.posted

theorem ingestStored_as (m : State) (addr : Nat) (bs : List Byte) (ids : List Nat) : StoredAs m (ingestStored m addr bs ids) addr bs ids := by
  have hput := gddrPut_frame m 5 addr bs
  have hcount := (countMode_works (gddrPut m 5 addr bs) bs).beside
  have hdone := ingestDone_eq (countMode (gddrPut m 5 addr bs) bs) ids
  have hend : Beside (ingestDone (countMode (gddrPut m 5 addr bs) bs) ids) (ingestStored m addr bs ids) :=
    (blockVerified_only _ addr).beside.trans (assignLanes_works _).beside
  obtain ⟨hgddr, hlst, hflash, hnvm, -, -⟩ := hend.mem
  obtain ⟨hgddr', hlst', hflash', hnvm', -, -⟩ := hcount.mem
  refine ⟨?_, ?_, ?_, ?_, ?_, fun f hf => ?_, fun r hr => ?_⟩
  · rw [hgddr, hdone, hgddr', hput]
  · rw [hlst, hdone, hlst', hput]
  · rw [hflash, hdone, hflash', hput]
  · rw [hnvm, hdone, hnvm', hput]
  · rw [hend.blq, hdone, hcount.blq, hput]
  · rw [hend.fields f hf, hdone]
    exact (hcount.fields f hf).trans (gddrWr_fields m 5 addr bs hf)
  · refine hend.posts r ?_
    rw [hdone]
    exact hcount.posts r ((memReach_works m 5 addr bs.length).posts r hr)

theorem compressBlockDone_effect {s : State} {lane n f : Nat} (v : Verify) {r : CmpReq} {ids : List Nat}
    (hr : s.cdc.cmpLanes.getD lane none = some r) (ht : r.tag = .ingest n ids f) :
    (r.addr + (verifiedBlock r v).length ≤ memCap s → gddrRd (compressBlockDone s lane v) r.addr (verifiedBlock r v).length = verifiedBlock r v) ∧
    (∀ a, a < r.addr ∨ r.addr + (verifiedBlock r v).length ≤ a → sget 0#8 (compressBlockDone s lane v).gddr a = sget 0#8 s.gddr a) ∧
    (compressBlockDone s lane v).lst = s.lst ∧ (compressBlockDone s lane v).flash = s.flash ∧ (compressBlockDone s lane v).nvm = s.nvm ∧
    (compressBlockDone s lane v).blq.writes = writesLeft ids s.blq.writes ∧
    ∀ c, v = .fail c → rd (compressBlockDone s lane v) F.CDC_CNT_VFAIL_blocks = counted s F.CDC_CNT_VFAIL_blocks ∧
      posted (compressBlockDone s lane v) clsWarning blkCDC lane F.CDC_CNT_VFAIL_blocks [(r.user, 1), (lane, 1), (c.val, 1)] := by
  have hverdict := verifiedCmp_works s lane r v
  obtain ⟨hgddr, hlst, hflash, hnvm, -, -⟩ := hverdict.memKept
  have hcap : memCap (verifiedCmp s lane r v).2 = memCap s := memCap_congr (hverdict.fields _ (by decide)) (hverdict.fields _ (by decide))
  rw [compressBlockDone_ingest hr ht]
  have hstored := ingestStored_as (verifiedCmp s lane r v).2 r.addr (verifiedBlock r v) ids
  refine ⟨fun hfit => ?_, fun a ha => ?_, hstored.lst.trans hlst, hstored.flash.trans hflash, hstored.nvm.trans hnvm, ?_, fun c hc => ?_⟩
  · rw [gddrRd, hstored.gddr]
    exact gddrRd_gddrWr _ 5 _ _ (by rw [hcap]; exact hfit)
  · rw [hstored.gddr, gddrWr_other _ _ _ _ _ ha, hgddr]
  · rw [hstored.writes, hverdict.blq]
  · subst hc
    obtain ⟨hcount, rec, hrec, hpost⟩ := verifiedCmp_fail s lane r c
    exact ⟨(hstored.fields _ (by decide)).trans hcount, rec, hstored.posts rec hrec, hpost⟩

/-! Lanes without a block -/

theorem compressBlockDone_empty {s : State} {lane : Nat} (v : Verify) (h : s.cdc.cmpLanes.getD lane none = none) : compressBlockDone s lane v = s := by
  unfold compressBlockDone
  rw [h]

theorem decodeBlockDone_empty {s : State} {lane : Nat} (u : Bool) (h : s.cdc.decLanes.getD lane none = none) : decodeBlockDone s lane u = s := by
  unfold decodeBlockDone
  rw [h]

/-- Settles O19, a kind of block at a time: a verified ingest block; a job's block that fails its check, and one that decodes; one of scan-out; a lane
without a block. -/
theorem codecLanesFinishBlocks : Obligations.CodecLanesFinishBlocks := by
  unfold Obligations.CodecLanesFinishBlocks
  refine ⟨fun s l v r n ids f hr ht => ?_, fun s l u r j c hr ht hb hj ha hc => ?_, fun s l r j xs o hr ht hb hgood hj hd => ?_,
    fun s l r n k u x xs o hr ht hb hgood hd hu hx => ?_, fun s l v h => ?_, fun s l u h => ?_⟩
  · obtain ⟨hin, hout, hlst, hflash, hnvm, hwrites, hfail⟩ := compressBlockDone_effect v hr ht
    exact ⟨_, verifiedBlock r v, rfl, rfl, hin, hout, hlst, hflash, hnvm, hwrites, hfail⟩
  · obtain ⟨hshows, hjob, hmem⟩ := decodeBlockDone_error u hr ht hb hj ha hc
    have hlane : l.val % 2 ^ F.CDC_BERR_INFO_lane.w = l.val := Nat.mod_eq_of_lt l.isLt
    exact ⟨_, rfl, hshows.count_eq, hshows.cause_eq, hshows.user_eq, hshows.lane_eq.trans hlane, hshows.space_eq, hshows.addr_eq, hshows.post, hjob,
      hmem⟩
  · obtain ⟨j', hjob, hnext, hdone, hflash, hnvm, hgddr, hlst⟩ := decodeBlockDone_samples hr ht hb hj ((laneResult_good hgood).trans hd)
    refine ⟨_, j', rfl, hjob, hnext, hdone, hflash, hnvm, fun u hu => ?_⟩
    subst hu
    exact ⟨hgddr, hlst⟩
  · obtain ⟨hrun, hmem⟩ := decodeBlockDone_scan hr ht hb ((laneResult_good hgood).trans hd) hu hx
    exact ⟨_, _, rfl, hrun, rfl, hmem⟩
  · exact congrArg Host.Outcome.next (compressBlockDone_empty v h)
  · exact congrArg Host.Outcome.next (decodeBlockDone_empty u h)

end Sys2Proof.Machine
end

section
namespace Sys2Proof.Machine

/-! A job's submission (R169): it touches the block queues, ingest and their counters -/

/-- The offsets from the codec's registers on. -/
def fromCodec (o : Nat) : Prop := 0x60000 ≤ o

theorem dropFld_below (source : Nat) : ¬ fromCodec (dropFld source).off := by
  unfold fromCodec dropFld
  split <;> decide

theorem replaced_below {source : Nat} (h : source < 5) : ¬ fromCodec (F.ING_IN_CNT_replaced source).off := by
  simp only [fromCodec, F.ING_IN_CNT_replaced]
  omega

theorem countDrop_fromCodec (s : State) (e : QEntry) : Stands fromCodec s (countDrop s e) := by
  have hdrop : Stands fromCodec s (bump s (dropFld e.source)) := .bump s _ (dropFld_below _)
  unfold countDrop
  dsimp only
  split
  · exact hdrop
  next hsource =>
    split
    · exact hdrop
    · exact (hdrop.trans (.ing _ _)).trans (.bump _ _ (replaced_below (by omega)))

theorem enqueue_fromCodec (s : State) (k : Nat) (e : QEntry) : Stands fromCodec s (enqueue s k e) := by
  unfold enqueue
  split
  · unfold enqueueRepl
    dsimp only
    split
    · exact setQueue_stands ..
    · split
      · exact (setQueue_stands ..).trans (countDrop_fromCodec ..)
      · exact countDrop_fromCodec ..
  · exact setQueue_stands ..

theorem acceptVersion_fromCodec (s : State) (v : VerDesc) (source id : Nat) (repl done : Bool) :
    Stands fromCodec s (acceptVersion s v source id repl done) :=
  Stands.foldl (fun u _ => Stands.trans (t := (nextAcc u).2) (.blq u _) (enqueue_fromCodec ..)) _ s

/-- The token of an accepted submission is the host's last (R125). -/
def hostAccepted (s : State) (v : VerDesc) : State :=
  wr { s with blq := { s.blq with nextId := s.blq.nextId + 1, hostAcc := true, hostLast := v.token } } F.BLQ_SRC_LAST_token v.token

theorem hostAccepted_fromCodec (s : State) (v : VerDesc) : Stands fromCodec s (hostAccepted s v) :=
  (Stands.blq s _).trans (.wr _ F.BLQ_SRC_LAST_token v.token (by unfold fromCodec; decide))

theorem hostSubmit_fromCodec (s : State) (v : VerDesc) (n : Nat) : Stands fromCodec s (hostSubmit s v true n).2.2 := by
  unfold hostSubmit
  split
  · exact (hostAccepted_fromCodec s v).trans (Stands.trans (t := openWrites (hostAccepted s v) s.blq.nextId v.surface n) (.blq ..)
      (acceptVersion_fromCodec ..))
  · exact .bump s F.BLQ_BUSY_CNT_host (by unfold fromCodec; decide)
  · exact .refl _ s

/-! Taking a job from the ring (R162) -/

/-- From `s` on job `j` runs: the memories and the two registers of a job's start stand. -/
structure Runs (s : State) (j : Job) (t : State) : Prop where
  mem : memKept s t
  cons : rd t F.CDC_JOB_CONS_index = rd s F.CDC_JOB_CONS_index
  running : rd t F.CDC_STATUS_job_running = rd s F.CDC_STATUS_job_running
  job : ∃ k, t.cdc.job = some k ∧ k.entry = j.entry ∧ k.desc = j.desc

theorem JobWork.runs {s t : State} {j k : Job} (h : JobWork s k t) (he : k.entry = j.entry) (hd : k.desc = j.desc) : Runs s j t := by
  obtain ⟨_, _, hjob⟩ := h.job
  exact ⟨h.memKept, h.fields (by decide), h.fields (by decide), _, hjob, he, hd⟩

theorem Runs.of_same {s t : State} {j k : Job} (h : Runs s k t) (he : k.entry = j.entry) (hd : k.desc = j.desc) : Runs s j t := by
  obtain ⟨i, hi, hentry, hdesc⟩ := h.job
  exact ⟨h.mem, h.cons, h.running, i, hi, hentry.trans he, hdesc.trans hd⟩

theorem Runs.after {s m t : State} {j : Job} (hs : Stands fromCodec s m) (h : Runs m j t) : Runs s j t :=
  ⟨memKept_trans hs.1 h.mem, by rw [h.cons, rd, hs.2 _ (by unfold fromCodec; decide), rd],
    by rw [h.running, rd, hs.2 _ (by unfold fromCodec; decide), rd], h.job⟩

theorem jobSubmit_runs (s : State) (j : Job) : Runs s j (jobSubmit s j) := by
  unfold jobSubmit
  split
  · exact (jobNext_work s j).runs rfl rfl
  · have hstands := (resolveDue_stands (P := fromCodec) s).trans (hostSubmit_fromCodec (resolveDue s) j.ver (j.stop - j.next))
    dsimp only
    generalize hostSubmit (resolveDue s) j.ver true (j.stop - j.next) = r at hstands
    split
    · exact .after hstands ((jobNext_work r.2.2 { j with version := some r.2.1 }).runs rfl rfl)
    · exact .after hstands ((jobEnds_work (.refl _ r.2.2) j 7 0 r.1).runs rfl rfl)

theorem jobHeader_runs (s : State) (j : Job) : Runs s j (jobHeader s j) := by
  have hread : LaneWork codecFields s (if j.srcLst then wordsUnc s j.src 64 else s) := .ite (wordsUnc_works ..) (.refl _ s)
  unfold jobHeader
  dsimp only
  generalize (if j.srcLst then wordsUnc s j.src 64 else s) = m at hread
  split
  · exact (JobWork.after hread (jobNext_work m _)).runs rfl rfl
  · exact (jobEnds_work hread j 4 8 0).runs rfl rfl

theorem jobStart_idle {s : State} {op : Nat} (h : jobWaits s = false ∨ (nextJob s).op ≠ op) : jobStart s op = s := by
  unfold jobStart
  dsimp only
  rw [if_pos (by simpa using h)]

theorem jobStart_runs {s : State} {op : Nat} (hw : jobWaits s = true) (ho : (nextJob s).op = op) :
    Runs (takeJob s (nextJob s)) (nextJob s) (jobStart s op) := by
  have hskip : ¬ (!jobWaits s || (nextJob s).op != op) = true := by simp [hw, ho]
  unfold jobStart
  dsimp only
  rw [if_neg hskip]
  generalize nextJob s = j
  generalize takeJob s j = m
  split
  · exact (jobEnds_work (wordsUnc_works ..) j 3 0 0).runs rfl rfl
  · split
    · exact (jobEnds_work (.refl _ m) j 3 0 0).runs rfl rfl
    · split
      · exact (jobRefused_work m j).runs rfl rfl
      · split
        · exact (jobSubmit_runs m _).of_same rfl rfl
        · exact (jobHeader_runs m _).of_same rfl rfl
        · exact (jobNext_work m _).runs rfl rfl

theorem memKept_wr (s : State) (f : Fld) (x : Nat) : memKept s (wr s f x) := ⟨rfl, rfl, rfl, rfl, rfl, rfl⟩

theorem takeJob_reads (s : State) (j : Job) : memKept s (takeJob s j) ∧ rd (takeJob s j) F.CDC_JOB_CONS_index = (j.entry + 1) % 65536 ∧
    rd (takeJob s j) F.CDC_STATUS_job_running = 1 := by
  unfold takeJob
  refine ⟨memKept_trans (memKept_trans (memKept_wr s _ _) (memKept_wr _ _ _)) (memKept_setJob ..), ?_, ?_⟩
  · rw [rd_setJob, wrB, rd_wr_apart _ _ (by decide), rd_wr_same _ _ _ (by decide)]
    rfl
  · rw [rd_setJob, rd_wrB_same _ _ _ (by decide) (by decide), if_pos rfl]

theorem exec_jobStart {c : Instr} {op : Nat} (h : (c, op) ∈ [(Instr.compressSurf, 0), (.compressPack, 1), (.decompressSurf, 2), (.decompressPack, 3)])
    (s : State) : exec c s = .next (jobStart s op) := by
  simp only [List.mem_cons, List.not_mem_nil, or_false, Prod.mk.injEq] at h
  rcases h with ⟨rfl, rfl⟩ | ⟨rfl, rfl⟩ | ⟨rfl, rfl⟩ | ⟨rfl, rfl⟩ <;> rfl

end Sys2Proof.Machine
end

section
namespace Sys2Proof.Machine

/-! The end of a job (R162, R170) -/

/-- Only the block queues have changed. -/
def BlqOnly (s t : State) : Prop := t = { s with blq := t.blq }

theorem withdraw_only (s : State) (id : Nat) : BlqOnly s (withdraw s id) :=
  List.foldlRecOn _ _ (motive := BlqOnly s) rfl fun u h k _ => by
    rw [BlqOnly] at h
    rw [BlqOnly, h]
    rfl

/-- What a job's end does to its submission: it stands where the job ends OK, else its entries and writes are withdrawn (R169). -/
def versionEnded (s : State) (j : Job) (result : Nat) : State :=
  match j.version with
  | some id => if result = 0 then s else dropWrites (withdraw s id) id
  | none => s

theorem versionEnded_only (s : State) (j : Job) (result : Nat) : BlqOnly s (versionEnded s j result) := by
  unfold versionEnded
  split
  · split
    · exact rfl
    · have h := withdraw_only s ‹Nat›
      rw [BlqOnly] at h
      rw [BlqOnly, dropWrites, h]
  · exact rfl

/-- The status fields of a job's descriptor, its bytes 48 to 63 (Table 5.9). -/
def statusBytes (j : Job) (r c b : Nat) : List Byte :=
  leBytes r 1 ++ leBytes c 1 ++ leBytes b 1 ++ [0#8] ++ leBytes j.done 4 ++ leBytes j.bytes 4 ++ leBytes j.vfail 4

theorem length_statusBytes (j : Job) (r c b : Nat) : (statusBytes j r c b).length = 16 := by simp [statusBytes, length_leBytes]

/-- Bytes written below the mailbox read back, but for the protected flags among them. -/
theorem lstRd_lstKeep (s : State) (a : Nat) (bs : List Byte) (h : a + bs.length ≤ mbxBase) : lstRd (lstKeep s a bs) a bs.length = keepProt s a bs := by
  have hall : (keepProt s a bs).take (mbxBase - a) = keepProt s a bs := List.take_of_length_le (by rw [keepProt_length]; omega)
  have hback := lstRd_lstWr s a (keepProt s a bs)
  rw [keepProt_length] at hback
  rw [lstKeep, hall, hback]

/-- The submission has ended and the status fields are written. -/
def statusStored (s : State) (j : Job) (r c b : Nat) : State := lstKeep (versionEnded s j r) (jobOff s j.entry + 48) (statusBytes j r c b)

theorem statusStored_frame (s : State) (j : Job) (r c b : Nat) : statusStored s j r c b =
    { s with blq := (statusStored s j r c b).blq, lst := (statusStored s j r c b).lst, mem := (statusStored s j r c b).mem } := by
  have h := versionEnded_only s j r
  rw [BlqOnly] at h
  unfold statusStored
  rw [lstKeep_frame]
  generalize versionEnded s j r = m at h ⊢
  rw [h]

theorem lstRd_statusStored (s : State) (j : Job) (r c b : Nat) (h : jobOff s j.entry + 64 ≤ mbxBase) :
    lstRd (statusStored s j r c b) (jobOff s j.entry + 48) 16 = keepProt s (jobOff s j.entry + 48) (statusBytes j r c b) := by
  have hver := versionEnded_only s j r
  have hback := lstRd_lstKeep (versionEnded s j r) (jobOff s j.entry + 48) (statusBytes j r c b) (by rw [length_statusBytes]; omega)
  rw [length_statusBytes] at hback
  rw [statusStored, hback]
  generalize versionEnded s j r = m at hver
  rw [BlqOnly] at hver
  refine keepProt_congr ?_ ?_ (rd_congr ?_ _) _ _ <;> rw [hver]

theorem statusStored_other (s : State) (j : Job) (r c b a : Nat) (h : a < jobOff s j.entry + 48 ∨ jobOff s j.entry + 64 ≤ a ∨ mbxBase ≤ a) :
    sget 0#8 (statusStored s j r c b).lst a = sget 0#8 s.lst a := by
  rw [statusStored, lstKeep_other _ _ _ _ (by rw [length_statusBytes]; omega), versionEnded_only]

/-- The registers show that the job has ended. -/
def endShown (s : State) (j : Job) : State :=
  wrB (wr { s with cdc.job := none } F.CDC_JOB_DONE_index (j.entry + 1)) F.CDC_STATUS_job_running false

/-- The record of its end is posted where it asks for one. -/
def endPosted (s : State) (j : Job) (r : Nat) : State :=
  if j.irq then info s blkCDC 0 F.CDC_JOB_DONE_index [(j.entry + 1, 2), (r, 1)] else s

theorem jobStatus_eq (s : State) {j : Job} (r c b : Nat) (h : j.op = 1 → j.done = 0) :
    jobStatus s j (r, c, b) = endPosted (endShown (statusStored s j r c b) j) j r := by
  have hskip : ¬ (decide (j.op = 1) && j.done != 0) = true := by simpa using h
  have hoff : jobOff (versionEnded s j r) j.entry = jobOff s j.entry := by rw [versionEnded_only]; rfl
  rw [statusStored, ← hoff]
  unfold jobStatus
  dsimp only
  rw [if_neg hskip]
  rfl

theorem endPosted_frame (s : State) (j : Job) (r : Nat) : endPosted s j r = { s with evt := (endPosted s j r).evt } := by
  unfold endPosted
  split <;> rfl

/-- Of the codec's state the job alone goes, of the rest registers and records change. -/
theorem ending_frame (s : State) (j : Job) (r : Nat) : endPosted (endShown s j) j r =
    { s with reg := (endShown s j).reg, evt := (endPosted (endShown s j) j r).evt, cdc := { s.cdc with job := none } } := by
  have hshown : endShown s j = { s with reg := (endShown s j).reg, cdc := { s.cdc with job := none } } := rfl
  rw [endPosted_frame, hshown]

theorem ending_reads (s : State) (j : Job) (r : Nat) :
    rd (endPosted (endShown s j) j r) F.CDC_JOB_DONE_index = (j.entry + 1) % 65536 ∧
    rd (endPosted (endShown s j) j r) F.CDC_STATUS_job_running = 0 := by
  have hreg (f : Fld) : rd (endPosted (endShown s j) j r) f = rd (endShown s j) f := rd_congr (by rw [endPosted_frame]) f
  rw [hreg, hreg]
  unfold endShown
  refine ⟨?_, rd_wrB_same _ _ _ (by decide) (by decide)⟩
  rw [wrB, rd_wr_apart _ _ (by decide), rd_wr_same _ _ _ (by decide)]
  rfl

/-- What the end of a job leaves (R162, R170). -/
structure JobEnded (s t : State) (j : Job) (r c b : Nat) : Prop where
  done : rd t F.CDC_JOB_DONE_index = (j.entry + 1) % 65536
  running : rd t F.CDC_STATUS_job_running = 0
  cdc : t.cdc = { s.cdc with job := none }
  status : jobOff s j.entry + 64 ≤ mbxBase → lstRd t (jobOff s j.entry + 48) 16 = keepProt s (jobOff s j.entry + 48) (statusBytes j r c b)
  other : ∀ a, a < jobOff s j.entry + 48 ∨ jobOff s j.entry + 64 ≤ a ∨ mbxBase ≤ a → sget 0#8 t.lst a = sget 0#8 s.lst a
  gddr : t.gddr = s.gddr
  flash : t.flash = s.flash
  nvm : t.nvm = s.nvm
  post : j.irq = true → posted t clsInfo blkCDC 0 F.CDC_JOB_DONE_index [(j.entry + 1, 2), (r, 1)]

theorem jobStatus_ended (s : State) {j : Job} (r c b : Nat) (h : j.op = 1 → j.done = 0) : JobEnded s (jobStatus s j (r, c, b)) j r c b := by
  rw [jobStatus_eq s r c b h]
  obtain ⟨hdone, hrunning⟩ := ending_reads (statusStored s j r c b) j r
  have hlst : (endPosted (endShown (statusStored s j r c b) j) j r).lst = (statusStored s j r c b).lst := by rw [ending_frame]
  refine ⟨hdone, hrunning, ?_, fun hfit => ?_, fun a ha => ?_, ?_, ?_, ?_, fun hirq => ?_⟩
  · rw [ending_frame, statusStored_frame]
  · rw [lstRd, hlst]
    exact lstRd_statusStored s j r c b hfit
  · rw [hlst, statusStored_other s j r c b a ha]
  · rw [ending_frame, statusStored_frame]
  · rw [ending_frame, statusStored_frame]
  · rw [ending_frame, statusStored_frame]
  · rw [endPosted, if_pos hirq]
    exact posted_info ..

/-- With no abort pending no waiting job ends. -/
theorem abortWaiting_none (n : Nat) {s : State} (h : s.cdc.abortTo = none) : abortWaiting n s = s := by
  cases n with
  | zero => rfl
  | succ n =>
    unfold abortWaiting
    rw [h]

theorem jobEnd_ended {s : State} {j : Job} {r c b : Nat} (hj : s.cdc.job = some j) (he : j.ended = some (r, c, b)) (ha : s.cdc.abortTo = none)
    (hop : j.op = 1 → j.done = 0) : JobEnded s (jobEnd' s) j r c b := by
  have hended := jobStatus_ended s r c b hop
  have hwaits : jobWaits s = false := by
    unfold jobWaits
    rw [hj]
    rfl
  have hend : jobEnd' s = abortWaiting 65536 (jobStatus s j (r, c, b)) := by
    unfold jobEnd'
    simp only [hwaits, Bool.and_false, Bool.false_eq_true, if_false, hj, he]
  rw [hend, abortWaiting_none 65536 (by rw [hended.cdc]; exact ha)]
  exact hended

/-! Aborting the running job (R171) -/

/-- How an aborted job ends that has no block in a lane: OK where none is left and the abort is of this tick, else ABORTED. -/
def abortResult (s : State) (j : Job) (at_ : Nat) : Nat × Nat × Nat := if j.stop ≤ j.next ∧ s.tick ≤ at_ then (0, 0, 0) else (6, 0, 0)

theorem jobEnds_aborted (s : State) {j : Job} {at_ : Nat} (ha : j.abort = some at_) (r c b : Nat) :
    jobEnds s j r c b = setJob s { j with ended := some (if at_ < s.tick then (6, 0, 0) else (r, c, b)), busy := false } := by
  unfold jobEnds
  rw [ha]
  simp

theorem jobNext_busy (s : State) {j : Job} (hb : j.busy = true) : jobNext (setJob s j) = setJob s j := by
  show (if j.ended.isSome || j.busy then setJob s j else _) = _
  rw [if_pos (by simp [hb])]

theorem jobNext_aborted (s : State) {j : Job} {at_ : Nat} (he : j.ended = none) (hb : j.busy = false) (ha : j.abort = some at_) :
    jobNext (setJob s j) = setJob s { j with ended := some (abortResult s j at_), busy := false } := by
  show (if j.ended.isSome || j.busy then setJob s j else if j.stop ≤ j.next then jobEnds (setJob s j) j 0 0 0
    else if j.abort.isSome then jobEnds (setJob s j) j 6 0 0 else _) = _
  rw [if_neg (by simp [he, hb]), if_pos (c := (j.abort.isSome = true)) (by simp [ha]), jobEnds_aborted _ ha, jobEnds_aborted _ ha]
  have hresult : some (abortResult s j at_) =
      if j.stop ≤ j.next then some (if at_ < s.tick then (6, 0, 0) else (0, 0, 0)) else some (6, 0, 0) := by
    unfold abortResult
    by_cases hnext : j.stop ≤ j.next
    · by_cases hlate : at_ < s.tick
      · rw [if_pos hnext, if_pos hlate, if_neg (by omega)]
      · rw [if_pos hnext, if_neg hlate, if_pos (by omega)]
    · rw [if_neg hnext, if_neg (by omega)]
  rw [hresult]
  split
  · rfl
  · rw [ite_self]
    rfl

/-- The abort is noted, and blocks of the job that wait for a lane wait no more. -/
def abortNoted (s : State) : State :=
  { s with cdc := { s.cdc with
      abortTo := some (if s.cdc.prodAt == some s.tick then s.cdc.prodOld else rd s F.CDC_JOB_PROD_index)
      cmpWait := s.cdc.cmpWait.filter (fun r => r.tag != .job), decWait := s.cdc.decWait.filter (fun r => r.tag != .job) } }

/-- The tick of the first abort is kept. -/
def Job.abortedAt (j : Job) (t : Nat) : Job := { j with abort := some (j.abort.getD t) }

theorem cdcAbort_eq {s : State} {j : Job} (hj : s.cdc.job = some j) (he : j.ended = none) (hc : s.cdc.cmpWait.any (fun r => r.tag == .job) = false)
    (hd : s.cdc.decWait.any (fun r => r.tag == .job) = false) (hf : jobFresh s j = false) :
    cdcAbort s = jobNext (setJob (abortNoted s) (j.abortedAt s.tick)) := by
  have hgoes : j.ended.isSome = false := by rw [he]; rfl
  unfold cdcAbort
  simp only [hj, hf, hgoes, hc, hd, Bool.false_eq_true, if_false, Bool.or_self, Bool.not_false, Bool.and_true]
  rfl

theorem cdcAbort_effect {s : State} {j : Job} (hj : s.cdc.job = some j) (he : j.ended = none)
    (hc : s.cdc.cmpWait.any (fun r => r.tag == .job) = false) (hd : s.cdc.decWait.any (fun r => r.tag == .job) = false)
    (hf : jobFresh s j = false) : memKept s (cdcAbort s) ∧
      (j.busy = true → (cdcAbort s).cdc.job = some { j with abort := some (j.abort.getD s.tick) }) ∧
      (j.busy = false → (cdcAbort s).cdc.job = some { j with
        abort := some (j.abort.getD s.tick), busy := false, ended := some (abortResult s j (j.abort.getD s.tick)) }) := by
  have heq := cdcAbort_eq hj he hc hd hf
  have hnoted : memKept s (abortNoted s) := ⟨rfl, rfl, rfl, rfl, rfl, rfl⟩
  refine ⟨?_, fun hb => ?_, fun hb => ?_⟩
  · rw [heq]
    exact memKept_trans hnoted (jobNext_work ..).memKept
  · rw [heq, jobNext_busy (j := j.abortedAt s.tick) _ hb]
    rfl
  · rw [heq, jobNext_aborted (j := j.abortedAt s.tick) _ he hb rfl]
    rfl

/-! Writing CDC.JOB_PROD (R162) -/

/-- The first write of a tick notes the value before it. -/
def prodNoted (s : State) : State :=
  if s.cdc.prodAt == some s.tick then s
  else { s with cdc := { s.cdc with prodAt := some s.tick, prodOld := rd s F.CDC_JOB_PROD_index } }

theorem prodNoted_frame (s : State) :
    prodNoted s = { s with cdc := { s.cdc with prodAt := (prodNoted s).cdc.prodAt, prodOld := (prodNoted s).cdc.prodOld } } := by
  unfold prodNoted
  split <;> rfl

theorem jobProdWrite_effect (s : State) {v : Nat} (hv : v < 65536) :
    rd (jobProdWrite s v) F.CDC_JOB_PROD_index = v ∧ regsKept s (jobProdWrite s v) [F.CDC_JOB_PROD_index.off] ∧
    jobProdWrite s v = { s with reg := (jobProdWrite s v).reg, cdc := { s.cdc with
      prodAt := (jobProdWrite s v).cdc.prodAt, prodOld := (jobProdWrite s v).cdc.prodOld } } := by
  have heq : jobProdWrite s v = wr (prodNoted s) F.CDC_JOB_PROD_index v := rfl
  have hnoted := prodNoted_frame s
  rw [heq]
  generalize prodNoted s = m at hnoted
  refine ⟨?_, fun o ho => ?_, ?_⟩
  · rw [rd_wr_same _ _ _ (by decide)]
    exact Nat.mod_eq_of_lt hv
  · rw [rdW_wr, if_neg (by simpa using ho)]
    exact rdW_congr (by rw [hnoted]) o
  · rw [wr_frame, hnoted]

/-- Settles O20, a command at a time: the write of CDC.JOB_PROD, the start of each kind of job, the end of the running one, and its abort. -/
theorem codecJobsRunFromTheRing : Obligations.CodecJobsRunFromTheRing := by
  unfold Obligations.CodecJobsRunFromTheRing
  refine ⟨fun s v h => ?_, fun s c op h => ?_, fun s j r c b hj he ha hop => ?_, fun s j h hj he hc hd hf => ?_⟩
  · obtain ⟨hrd, hregs, hframe⟩ := jobProdWrite_effect s v.isLt
    exact ⟨_, exec_of_served (fun s => jobProdWrite s v.toNat) h rfl, hrd, hregs, hframe⟩
  · rw [exec_jobStart h]
    refine ⟨fun hw ho => ?_, fun hidle => by rw [jobStart_idle hidle]⟩
    obtain ⟨hmem, hcons, hrunning⟩ := takeJob_reads s (nextJob s)
    have hruns := jobStart_runs hw ho
    obtain ⟨j, hjob, hentry, hdesc⟩ := hruns.job
    exact ⟨_, j, rfl, hruns.cons.trans hcons, hruns.running.trans hrunning, hjob, hentry, hdesc, memKept_trans hmem hruns.mem⟩
  · have hended := jobEnd_ended hj he ha hop
    exact ⟨_, rfl, hended.done, hended.running, by rw [hended.cdc], hended.status, fun a h => hended.other a (.inr (.inr h)),
      fun a h => hended.other a (h.imp id .inl), hended.gddr, hended.flash, hended.nvm, hended.post⟩
  · obtain ⟨hmem, hbusy, hfree⟩ := cdcAbort_effect hj he hc hd hf
    exact ⟨_, exec_of_served cdcAbort h rfl, hmem, hbusy, hfree⟩

end Sys2Proof.Machine
end

section
namespace Sys2Proof.Machine

/-! Commit sets (R198 to R201): what each step of a commit leaves of the waiting set, of SCN.COMMIT and of the memories -/

theorem regsKept_trans {s t u : State} {offs : List Nat} (h : regsKept s t offs) (h' : regsKept t u offs) : regsKept s u offs :=
  fun o ho => (h' o ho).trans (h o ho)

theorem regsKept_wr (s : State) (f : Fld) (x : Nat) {offs : List Nat} (h : f.off ∈ offs) : regsKept s (wr s f x) offs :=
  fun o ho => by rw [rdW_wr, if_neg fun e : o = f.off => ho (e ▸ h)]

/-- Of two writes of a field the second stands. -/
theorem Fld.into_into (f : Fld) (v : Word) (x y : Nat) (h : f.lo + f.w ≤ 32) : f.into (f.into v x) y = f.into v y := by
  have hlow : v.toNat % 2 ^ f.lo < 2 ^ f.lo := Nat.mod_lt _ (by positivity)
  have hx : x % 2 ^ f.w < 2 ^ f.w := Nat.mod_lt _ (by positivity)
  have hpart : x % 2 ^ f.w * 2 ^ f.lo + v.toNat % 2 ^ f.lo < 2 ^ (f.lo + f.w) := by
    rw [pow_add, Nat.mul_comm (2 ^ f.lo)]
    exact mul_add_lt_mul hx hlow
  have habove : (f.into v x).toNat / 2 ^ (f.lo + f.w) = v.toNat / 2 ^ (f.lo + f.w) := by
    rw [f.into_toNat v x h, Nat.add_assoc, Nat.mul_comm, Nat.mul_add_div (by positivity), Nat.div_eq_of_lt hpart, Nat.add_zero]
  have hbelow : (f.into v x).toNat % 2 ^ f.lo = v.toNat % 2 ^ f.lo := by
    rw [f.into_toNat v x h, pow_add, show ∀ a b c : Nat, a * (2 ^ f.lo * 2 ^ f.w) + b * 2 ^ f.lo + c = 2 ^ f.lo * (2 ^ f.w * a + b) + c from
      fun a b c => by ring, Nat.mul_add_mod, Nat.mod_mod]
  apply BitVec.eq_of_toNat_eq
  rw [f.into_toNat _ y h, f.into_toNat v y h, habove, hbelow]

/-- The waiting set stands, with err and pending of SCN.COMMIT, the memories, and every register but SCN.COMMIT and SCN.CNT_NSL. -/
structure SetKept (s t : State) : Prop where
  set : t.scn.set = s.scn.set
  err : rd t F.SCN_COMMIT_err = rd s F.SCN_COMMIT_err
  pending : rd t F.SCN_COMMIT_pending = rd s F.SCN_COMMIT_pending
  regs : regsKept s t [F.SCN_COMMIT_err.off, F.SCN_CNT_NSL_count.off]
  mem : memKept s t

theorem SetKept.trans {s t u : State} (h : SetKept s t) (h' : SetKept t u) : SetKept s u :=
  ⟨h'.set.trans h.set, h'.err.trans h.err, h'.pending.trans h.pending, regsKept_trans h.regs h'.regs, memKept_trans h.mem h'.mem⟩

/-- A change of no register, no memory and not the waiting set. -/
theorem SetKept.of_reg {s t : State} (hset : t.scn.set = s.scn.set) (hreg : t.reg = s.reg) (hmem : memKept s t) : SetKept s t :=
  ⟨hset, rd_congr hreg _, rd_congr hreg _, fun o _ => rdW_congr hreg o, hmem⟩

theorem showNsl_setKept (s : State) : SetKept s (showNsl s) := by
  have hflag : SetKept s (wrB s F.SCN_COMMIT_nsl true) :=
    ⟨rfl, rd_wr_disjoint _ F.SCN_COMMIT_nsl F.SCN_COMMIT_err _ (by decide) (by decide),
      rd_wr_disjoint _ F.SCN_COMMIT_nsl F.SCN_COMMIT_pending _ (by decide) (by decide), regsKept_wr _ _ _ (by decide), memKept_wr ..⟩
  have hcount : ∀ u, SetKept u (bump u F.SCN_CNT_NSL_count) := fun u =>
    ⟨rfl, rd_bump_other _ _ _ (by decide), rd_bump_other _ _ _ (by decide), regsKept_wr u F.SCN_CNT_NSL_count _ (by decide), ⟨rfl, rfl, rfl, rfl, rfl, rfl⟩⟩
  exact (hflag.trans (hcount _)).trans (.of_reg rfl rfl ⟨rfl, rfl, rfl, rfl, rfl, rfl⟩)

theorem startNsl_setKept (s : State) : SetKept s (startNsl s) := by
  have hcancel : SetKept (showNsl s) (cancelPasses (cancelSlots (showNsl s))) := .of_reg rfl rfl ⟨rfl, rfl, rfl, rfl, rfl, rfl⟩
  have hrun := (showNsl_setKept s).trans hcancel
  unfold startNsl
  dsimp only
  split
  · exact hrun.trans (.of_reg rfl rfl ⟨rfl, rfl, rfl, rfl, rfl, rfl⟩)
  · exact hrun.trans (.of_reg rfl rfl ⟨rfl, rfl, rfl, rfl, rfl, rfl⟩)

/-- What becoming set can do (R204, R205, R209): nothing, no N-class value to wait for, or a transition's start. -/
theorem setNow_cases (s : State) :
    setNow s = s ∨ (∃ c, s.scn.set = some c ∧ setNow s = pendStatus { s with scn.set := some { c with n := none } }) ∨ setNow s = startNsl s := by
  unfold setNow
  split
  · next c hc =>
    split
    · split
      · exact .inl rfl
      · split
        · exact .inr (.inl ⟨c, hc, rfl⟩)
        · split
          · exact .inr (.inr rfl)
          · exact .inl rfl
    · exact .inl rfl
  · exact .inl rfl

/-- After `s`, the set waits with its snapshot, its V and its S class, its N class being another, and SCN.COMMIT.pending shows it. -/
structure Waits (s : State) (c : CommitSet) (t : State) : Prop where
  set : ∃ n, t.scn.set = some { c with n := n }
  err : rd t F.SCN_COMMIT_err = rd s F.SCN_COMMIT_err
  pending : rd t F.SCN_COMMIT_pending = 1
  regs : regsKept s t [F.SCN_COMMIT_err.off, F.SCN_CNT_NSL_count.off]
  mem : memKept s t

theorem Waits.kept {s t u : State} {c : CommitSet} (h : Waits s c t) (h' : SetKept t u) : Waits s c u := by
  obtain ⟨n, hn⟩ := h.set
  exact ⟨⟨n, h'.set.trans hn⟩, h'.err.trans h.err, h'.pending.trans h.pending, regsKept_trans h.regs h'.regs, memKept_trans h.mem h'.mem⟩

theorem rd_pending_pendStatus (s : State) :
    rd (pendStatus s) F.SCN_COMMIT_pending = if (pendStatus s).scn.set.isSome || (pendStatus s).scn.prev.isSome then 1 else 0 :=
  rd_wrB_same _ F.SCN_COMMIT_pending _ (by decide) (by decide)

/-- SCN.COMMIT.pending shows a set with its V class to come (R201). -/
theorem pendStatus_waits {s : State} {c : CommitSet} {n : Option Nat} (h : s.scn.set = some { c with n := n }) (hv : c.v.isSome = true) :
    Waits s c (pendStatus s) := by
  have hlive : (pendStatus s).scn.set = some { c with n := n } := by
    have hnone : c.v.isNone = false := by simpa using hv
    show s.scn.set.filter (fun c => !c.spent) = _
    rw [h, Option.filter_some, if_pos (by simp [CommitSet.spent, hnone])]
  exact ⟨⟨n, hlive⟩, rd_wr_disjoint _ F.SCN_COMMIT_pending F.SCN_COMMIT_err _ (by decide) (by decide), by rw [rd_pending_pendStatus, hlive]; rfl,
    regsKept_wr _ _ _ (by decide), ⟨rfl, rfl, rfl, rfl, rfl, rfl⟩⟩

theorem setNow_waits {s t : State} {c : CommitSet} (h : Waits s c t) (hv : c.v.isSome = true) : Waits s c (setNow t) := by
  rcases setNow_cases t with ht | ⟨c', hc', ht⟩ | ht <;> rw [ht]
  · exact h
  · obtain ⟨n, hn⟩ := h.set
    obtain rfl : c' = { c with n := n } := Option.some.inj (hc'.symm.trans hn)
    obtain ⟨hset, herr, hpending, hregs, hmem⟩ :=
      pendStatus_waits (s := { t with scn.set := some { c with n := none } }) (c := c) (n := none) rfl hv
    exact ⟨hset, herr.trans h.err, hpending, regsKept_trans h.regs hregs, memKept_trans h.mem hmem⟩
  · exact h.kept (startNsl_setKept t)

/-! COMMIT_GO -/

/-- The timing mode of the shadows passes the checks of R175 (R198). -/
def shadowsPass (s : State) : Bool :=
  timingOk (wrB s F.SCN_COMMIT_err false) (F.SCN_ACTIVE_width_m1.ofWord (rdShW s F.SCN_ACTIVE.off) + 1)
    (F.SCN_ACTIVE_height_m1.ofWord (rdShW s F.SCN_ACTIVE.off) + 1) (F.SCN_LINE_q_min.ofWord (rdShW s F.SCN_LINE.off))
    (F.SCN_VBLANK_v_min.ofWord (rdShW s F.SCN_VBLANK.off))

/-- The set that a commit of now makes of the shadows (R199). -/
def shadowSet (s : State) : CommitSet := { snap := s.shadow, v := some (setTick s), s := some (setTick s), n := some (setTick s) }

/-- The commit has passed: err is 0, the set of the shadows waits, and what the next bank is built from of the set before it. -/
def setLatched (s : State) : State :=
  { wrB s F.SCN_COMMIT_err false with scn := { s.scn with
      prev := if s.tick < setTick s then keptSet (setTick s) s.scn.set s.scn.prev else s.scn.prev
      set := some (shadowSet s) } }

theorem setTick_wrErr (s : State) : setTick (wrB s F.SCN_COMMIT_err false) = setTick s := by
  have hlead : rd (wrB s F.SCN_COMMIT_err false) F.EXS_BUILD_lead = rd s F.EXS_BUILD_lead := rd_wr_other _ _ _ _ (by decide)
  unfold setTick
  rw [hlead]
  rfl

theorem commitGo_refused {s : State} (h : shadowsPass s = false) :
    commitGo s = errorRec (wrB (wrB s F.SCN_COMMIT_err false) F.SCN_COMMIT_err true) blkSCN 0 F.SCN_COMMIT_err :=
  if_pos (c := (!shadowsPass s) = true) (by rw [h]; rfl)

theorem commitGo_passed {s : State} (h : shadowsPass s = true) : commitGo s = setNow (pendStatus (setLatched s)) := by
  have hgo : commitGo s = _ := if_neg (c := (!shadowsPass s) = true) (by rw [h]; decide)
  rw [hgo]
  dsimp only
  rw [setTick_wrErr]
  rfl

/-- Settles O21: the refusal writes the flag and posts its record; the set of a commit that passes outlives `setNow`. -/
theorem commitGoLatchesACheckedSet : Obligations.CommitGoLatchesACheckedSet := by
  unfold Obligations.CommitGoLatchesACheckedSet
  refine ⟨fun s hserved hfail => ?_, fun s hserved hpass => ?_⟩
  · refine ⟨_, exec_of_served commitGo hserved rfl, ?_⟩
    rw [commitGo_refused hfail]
    refine ⟨?_, posted_post .., rfl, ?_, ⟨rfl, rfl, rfl, rfl, rfl, rfl⟩⟩
    · have herr : F.SCN_COMMIT_err.lo + F.SCN_COMMIT_err.w ≤ 32 := by decide
      calc rdW (wrB (wrB s F.SCN_COMMIT_err false) F.SCN_COMMIT_err true) F.SCN_COMMIT_err.off
          = F.SCN_COMMIT_err.into (F.SCN_COMMIT_err.into (rdW s F.SCN_COMMIT_err.off) 0) 1 := by
            rw [wrB, rdW_wr, if_pos rfl, wrB, rdW_wr, if_pos rfl]; rfl
        _ = F.SCN_COMMIT_err.into (rdW s F.SCN_COMMIT_err.off) 1 := Fld.into_into _ _ _ _ herr
    · have hflag : regsKept s (wrB s F.SCN_COMMIT_err false) [F.SCN_COMMIT_err.off] := regsKept_wr _ _ _ (.head [])
      have hflags : regsKept s (wrB (wrB s F.SCN_COMMIT_err false) F.SCN_COMMIT_err true) [F.SCN_COMMIT_err.off] :=
        regsKept_trans hflag (regsKept_wr _ _ _ (.head []))
      exact regsKept_trans hflags fun _ _ => rfl
  · have hwaits : Waits (setLatched s) (shadowSet s) (commitGo s) := by
      rw [commitGo_passed hpass]
      exact setNow_waits (pendStatus_waits (n := some (setTick s)) rfl rfl) rfl
    obtain ⟨⟨n, hset⟩, herr, hpending, hregs, hmem⟩ := hwaits
    have hcleared : rd (setLatched s) F.SCN_COMMIT_err = 0 := rd_wrB_same s F.SCN_COMMIT_err false (by decide) (by decide)
    have hlatched : regsKept s (setLatched s) [F.SCN_COMMIT_err.off, F.SCN_CNT_NSL_count.off] := regsKept_wr s F.SCN_COMMIT_err _ (by decide)
    exact ⟨_, _, exec_of_served commitGo hserved rfl, hset, rfl, herr.trans hcleared, hpending, rfl, rfl, regsKept_trans hlatched hregs,
      memKept_trans ⟨rfl, rfl, rfl, rfl, rfl, rfl⟩ hmem⟩

end Sys2Proof.Machine
end

section
namespace Sys2Proof.Machine

/-! Register commits (R199, R200): the bits of a class in every register, and what may still be written after them -/

/-- A word into which masked bits of another are put reads as they do under the mask. -/
theorem and_putBits (w v m : Word) : ((w &&& ~~~m) ||| (v &&& m)) &&& m = v &&& m := by
  ext i
  simp only [BitVec.getElem_and, BitVec.getElem_or, BitVec.getElem_not]
  cases m[i] <;> simp

/-- The bits of a mask in one register put into effect. -/
def putBits (snap : SMap Word) (mask : RegDesc → Nat) (s : State) (o : Nat) : State :=
  match regAt o with
  | some d =>
    let m := BitVec.ofNat 32 (mask d)
    if m = 0#32 then s else wrW s o ((rdW s o &&& ~~~m) ||| (sget 0#32 snap o &&& m))
  | none => s

/-- The registers that a snapshot and the register file list. -/
def putOffs (s : State) (snap : SMap Word) : List Nat :=
  (s.reg.map (fun e => e.1)) ++ (snap.map (fun e => e.1)).filter (fun o => sget 0#32 s.reg o = 0#32)

theorem applyBits_eq (s : State) (snap : SMap Word) (mask : RegDesc → Nat) : applyBits s snap mask = (putOffs s snap).foldl (putBits snap mask) s := rfl

/-- The masked bits of a register read as in the snapshot. -/
def Put (snap : SMap Word) (m : Word) (o : Nat) (s : State) : Prop := rdW s o &&& m = sget 0#32 snap o &&& m

theorem put_putBits_same (s : State) (snap : SMap Word) (mask : RegDesc → Nat) {o : Nat} {d : RegDesc} (h : regAt o = some d) :
    Put snap (BitVec.ofNat 32 (mask d)) o (putBits snap mask s o) := by
  unfold putBits Put
  simp only [h]
  split
  · next hm => rw [hm, BitVec.and_zero, BitVec.and_zero]
  · rw [rdW_wrW_same, and_putBits]

theorem rdW_putBits_other (s : State) (snap : SMap Word) (mask : RegDesc → Nat) {o p : Nat} (h : p ≠ o) : rdW (putBits snap mask s o) p = rdW s p := by
  unfold putBits
  split
  · dsimp only
    split
    · rfl
    · exact rdW_wrW_other _ _ _ _ h
  · rfl

/-- Once put, the bits stay through the registers that follow. -/
theorem put_foldl {snap : SMap Word} {mask : RegDesc → Nat} {o : Nat} {d : RegDesc} (hd : regAt o = some d) (offs : List Nat) (s : State)
    (h : o ∈ offs ∨ Put snap (BitVec.ofNat 32 (mask d)) o s) : Put snap (BitVec.ofNat 32 (mask d)) o (offs.foldl (putBits snap mask) s) := by
  induction offs generalizing s with
  | nil => exact h.resolve_left List.not_mem_nil
  | cons p offs ih =>
    refine ih _ ?_
    by_cases hp : o = p
    · subst hp
      exact .inr (put_putBits_same s snap mask hd)
    · refine h.imp (fun hmem => (List.mem_cons.1 hmem).resolve_left hp) fun hput => ?_
      rw [Put, rdW_putBits_other s snap mask hp]
      exact hput

/-- Where neither lists a register it reads 0 in both. -/
theorem mem_putOffs_or_zero (s : State) (snap : SMap Word) (o : Nat) : o ∈ putOffs s snap ∨ rdW s o = 0#32 ∧ sget 0#32 snap o = 0#32 := by
  by_cases hreg : o ∈ s.reg.map (fun e => e.1)
  · exact .inl (List.mem_append_left _ hreg)
  · have hzero : rdW s o = 0#32 := sget_of_absent _ _ _ fun e he hk => hreg (hk ▸ List.mem_map_of_mem he)
    by_cases hsnap : o ∈ snap.map (fun e => e.1)
    · exact .inl (List.mem_append_right _ (List.mem_filter.2 ⟨hsnap, decide_eq_true hzero⟩))
    · exact .inr ⟨hzero, sget_of_absent _ _ _ fun e he hk => hsnap (hk ▸ List.mem_map_of_mem he)⟩

/-- A commit puts the bits of its class of every register into effect. -/
theorem applyBits_put (s : State) (snap : SMap Word) (mask : RegDesc → Nat) {o : Nat} {d : RegDesc} (h : regAt o = some d) :
    Put snap (BitVec.ofNat 32 (mask d)) o (applyBits s snap mask) := by
  rw [applyBits_eq]
  refine put_foldl h _ s ((mem_putOffs_or_zero s snap o).imp id fun hzero => ?_)
  rw [Put, hzero.1, hzero.2]

theorem putBits_regOnly (snap : SMap Word) (mask : RegDesc → Nat) (s : State) (o : Nat) : RegOnly s (putBits snap mask s o) := by
  unfold putBits
  split
  · dsimp only
    split
    · rfl
    · exact .wrW ..
  · rfl

theorem applyBits_regOnly (s : State) (snap : SMap Word) (mask : RegDesc → Nat) : RegOnly s (applyBits s snap mask) := by
  rw [applyBits_eq]
  generalize putOffs s snap = offs
  induction offs generalizing s with
  | nil => rfl
  | cons o offs ih => exact (putBits_regOnly snap mask s o).trans (ih _)

/-- Registers that a commit writes besides the bits of its class: SCN.COMMIT, and those of the time base where the commit changes its reference. -/
def commitRegs : List Nat := F.SCN_COMMIT_pending.off :: tbRegs

/-- None of their bits has a class. -/
theorem commitRegs_class {o : Nat} (ho : o ∈ commitRegs) {d : RegDesc} (hd : regAt o = some d) : d.v = 0 ∧ d.s = 0 := by
  have key : ∀ a ∈ commitRegs, (regAt a).map (fun d => (d.v, d.s)) = some (0, 0) := by decide +kernel
  have := key o ho
  rw [hd] at this
  simpa using this

/-- What is put stays where no other register is written. -/
theorem Put.kept {snap : SMap Word} {mask : RegDesc → Nat} {o : Nat} {d : RegDesc} {s t : State} (h : Put snap (BitVec.ofNat 32 (mask d)) o s)
    (hkept : regsKept s t commitRegs) (hd : regAt o = some d) (hmask : d.v = 0 ∧ d.s = 0 → mask d = 0) :
    Put snap (BitVec.ofNat 32 (mask d)) o t := by
  by_cases ho : o ∈ commitRegs
  · rw [Put, hmask (commitRegs_class ho hd), BitVec.and_zero, BitVec.and_zero]
  · rw [Put, hkept o ho]
    exact h

theorem regsKept_mono {s t : State} {offs offs' : List Nat} (h : regsKept s t offs) (hs : ∀ o ∈ offs, o ∈ offs') : regsKept s t offs' :=
  fun o ho => h o fun hm => ho (hs o hm)

theorem regsKept_pendStatus (s : State) : regsKept s (pendStatus s) [F.SCN_COMMIT_pending.off] := fun o ho =>
  (regsKept_wr _ F.SCN_COMMIT_pending _ (.head []) o ho).trans (rdW_congr rfl o)

theorem memKept_pendStatus (s : State) : memKept s (pendStatus s) := ⟨rfl, rfl, rfl, rfl, rfl, rfl⟩

/-- A set that has nothing left to take effect is forgotten. -/
theorem set_pendStatus {s : State} {c c' : CommitSet} (hs : s.scn.set = some c) (h : (pendStatus s).scn.set = some c') : c' = c := by
  have hlive : s.scn.set.filter (fun c => !c.spent) = some c' := h
  rw [hs, Option.filter_some] at hlive
  split at hlive
  · exact (Option.some.inj hlive).symm
  · cases hlive

/-! The V class (R200) -/

theorem freezeSub_frame (s : State) : freezeSub s = { s with exs := (freezeSub s).exs } := by
  unfold freezeSub
  split
  · split <;> rfl
  · rfl

/-- The V class in effect, with its point passed. -/
def vPut (s : State) (c : CommitSet) : State := { applyBits (freezeSub s) c.snap (fun d => d.v) with scn.set := some { c with v := none } }

theorem commitV_due {s : State} {c : CommitSet} {a : Nat} (hset : s.scn.set = some c) (hnsl : s.scn.nsl = none) (hv : c.v = some a) (ha : a < s.tick) :
    commitV s s.tick = pendStatus (vPut s c) := by
  unfold commitV
  rw [hset]
  dsimp only
  rw [if_neg (by simp [hnsl, dueAt, hv, ha])]
  rfl

theorem memKept_vPut (s : State) (c : CommitSet) : memKept s (vPut s c) := by
  have happly := applyBits_regOnly (freezeSub s) c.snap (fun d => d.v)
  have hmem : memKept (freezeSub s) (applyBits (freezeSub s) c.snap (fun d => d.v)) := by
    rw [happly]
    exact ⟨rfl, rfl, rfl, rfl, rfl, rfl⟩
  have hfreeze : memKept s (freezeSub s) := by
    rw [freezeSub_frame]
    exact ⟨rfl, rfl, rfl, rfl, rfl, rfl⟩
  exact memKept_trans hfreeze hmem

/-! The S class (R200, R206) -/

theorem refNone_edge (s : State) : Edge tbRegs s (refNone s) := by
  unfold refNone
  dsimp only
  have hgone : Edge tbRegs s (wrB { s with tmb := { s.tmb with wide := false, align := none } } F.TMB_STATUS_ref_present false) := by
    refine Edge.trans ?_ (.wrB _ F.TMB_STATUS_ref_present false (by decide))
    exact .of_time rfl rfl rfl
  refine hgone.trans (.ite_both ?_ (.ite_both (tmbEnter_tbRegs _ _) ?_))
  · exact (tmbEnter_tbRegs _ _).trans (tmbEnter_tbRegs _ _)
  · exact (tmbEnter_tbRegs _ _).trans ((setOffset_edge _ 0).mono (by decide))

theorem reanchor_edge {offs : List Nat} (s : State) (b : Int) : Edge offs s (reanchor s b) := by
  unfold reanchor
  refine .ite_both (.refl offs s) ?_
  exact .of_time rfl rfl rfl

theorem refChange_edge (s : State) (b : Nat) : Edge tbRegs s (refChange s b) := by
  have hfresh : Edge tbRegs s { s with tmb := { s.tmb with recent := [], inRange := 0, good := 0, bad := 0, missRun := 0 } } := .of_time rfl rfl rfl
  refine hfresh.trans (.ite_both (refNone_edge _) (.ite_both ?_ ?_))
  · exact (tmbEnter_tbRegs _ _).trans (reanchor_edge _ _)
  · refine Edge.trans ?_ (tmbEnter_tbRegs _ _)
    exact .of_time rfl rfl rfl

/-- A change of the time base's registers changes no register that has a class, and no set. -/
theorem tmbCommitted_edge (old s : State) (b : Nat) : Edge tbRegs s (tmbCommitted old s b) := by
  refine .ite_both (refChange_edge s b) (.ite_both ?_ (.refl _ s))
  refine Edge.trans ?_ (reanchor_edge _ _)
  exact .ite_both (.refl _ s) (.of_time rfl rfl rfl)

/-- The set before it is put first. -/
def prevPut (s : State) (b : Nat) : Option CommitSet × State :=
  match s.scn.prev with | some c => let r := putSet b s c; (some r.1, r.2) | none => (none, s)

/-- The S class in effect, with its point passed. -/
def sPut (s : State) (b : Nat) (c : CommitSet) : State :=
  let t := applyBits (prevPut s b).2 c.snap (fun d => d.s)
  { t with scn := { t.scn with prev := (prevPut s b).1, set := some { c with s := none } } }

theorem putSet_s {b a : Nat} {s : State} {c : CommitSet} (hs : c.s = some a) (ha : a < b) (hn : c.n = none) :
    putSet b s c = ({ c with s := none }, applyBits s c.snap (fun d => d.s)) := by
  unfold putSet
  simp only [hs, hn, dueAt, ha, decide_true, if_true, Bool.false_and, Bool.false_eq_true, if_false]

theorem putSets_s {s : State} {c : CommitSet} {a b : Nat} (hset : s.scn.set = some c) (hnsl : s.scn.nsl = none) (hs : c.s = some a) (ha : a < b)
    (hn : c.n = none) : putSets s b = sPut s b c := by
  have hput := fun u => putSet_s (s := u) hs ha hn
  unfold putSets
  rw [if_neg (by simp [hnsl]), hset]
  simp only [hput]
  rfl

theorem commitBoundary_s {s : State} {c : CommitSet} {a b : Nat} (hset : s.scn.set = some c) (hnsl : s.scn.nsl = none) (hs : c.s = some a) (ha : a < b)
    (hn : c.n = none) : commitBoundary s b = tmbCommitted s (pendStatus (sPut s b c)) b := by
  have hrun : nslEnds s b = false := by unfold nslEnds; rw [hnsl]
  rw [commitBoundary_eq, if_neg (by simp [hset]), committed, hrun, if_neg (by decide), putSets_s hset hnsl hs ha hn]

/-- Settles O22: `applyBits_put`, and no bit with a class is written after it. -/
theorem commitPointsPutShadowsInEffect : Obligations.CommitPointsPutShadowsInEffect := by
  unfold Obligations.CommitPointsPutShadowsInEffect
  refine ⟨fun s c a hpoint hset hnsl hv ha => ?_, fun s c a hpic hbound hlate hset hnsl hs ha hn => ?_⟩
  · have hcommit : registerCommit s .v = pendStatus (vPut s c) := (if_pos hpoint).trans (commitV_due hset hnsl hv ha)
    refine ⟨_, congrArg Host.Outcome.next hcommit, fun o d hd => ?_, fun c' hc' => ?_, memKept_trans (memKept_vPut s c) (memKept_pendStatus _)⟩
    · have hput : Put c.snap (BitVec.ofNat 32 d.v) o (vPut s c) := applyBits_put (freezeSub s) c.snap (fun d => d.v) hd
      exact hput.kept (mask := fun d => d.v) (regsKept_mono (regsKept_pendStatus _) (by decide)) hd And.left
    · obtain rfl := set_pendStatus (s := vPut s c) rfl hc'
      exact ⟨rfl, rfl⟩
  · have hpoint : (s.tmb.pic.isSome && s.tmb.bound = s.tick && !on s F.EXS_STATUS_late) = true := by simp [hpic, hbound, on, hlate]
    have hcommit : registerCommit s .s = tmbCommitted s (pendStatus (sPut s s.tick c)) s.tick :=
      (if_pos hpoint).trans (commitBoundary_s hset hnsl hs ha hn)
    have hedge := tmbCommitted_edge s (pendStatus (sPut s s.tick c)) s.tick
    refine ⟨_, congrArg Host.Outcome.next hcommit, fun o d hd => ?_, fun c' hc' => ?_⟩
    · have hput : Put c.snap (BitVec.ofNat 32 d.s) o (sPut s s.tick c) := applyBits_put (prevPut s s.tick).2 c.snap (fun d => d.s) hd
      have hkept : regsKept (sPut s s.tick c) (tmbCommitted s (pendStatus (sPut s s.tick c)) s.tick) commitRegs :=
        regsKept_trans (regsKept_mono (regsKept_pendStatus _) (by decide)) (regsKept_mono hedge.regs (by decide))
      exact hput.kept (mask := fun d => d.s) hkept hd And.right
    · rw [hedge.time] at hc'
      obtain rfl := set_pendStatus (s := sPut s s.tick c) rfl hc'
      exact ⟨rfl, rfl⟩

end Sys2Proof.Machine
end

section
namespace Sys2Proof.Machine

/-! What stands through the end of a write scan and the start of a pass (R127, R200, R205): the calendar -/

/-- The clock, the calendar's passes and the transition in progress stand, with the registers at `offs`. -/
structure CalendarKept (offs : List Nat) (s t : State) : Prop where
  tick : t.tick = s.tick
  carried : t.exs.carried = s.exs.carried
  bank : t.exs.bank = s.exs.bank
  nsl : t.scn.nsl = s.scn.nsl
  regs : ∀ o ∈ offs, rdW t o = rdW s o

namespace CalendarKept

variable {offs : List Nat} {s t u : State}

/-- A change of no register. -/
theorem of_reg (htick : t.tick = s.tick) (hcarried : t.exs.carried = s.exs.carried) (hbank : t.exs.bank = s.exs.bank)
    (hnsl : t.scn.nsl = s.scn.nsl) (hreg : t.reg = s.reg) : CalendarKept offs s t :=
  ⟨htick, hcarried, hbank, hnsl, fun o _ => rdW_congr hreg o⟩

theorem refl (offs : List Nat) (s : State) : CalendarKept offs s s := .of_reg rfl rfl rfl rfl rfl

theorem trans (h : CalendarKept offs s t) (h' : CalendarKept offs t u) : CalendarKept offs s u :=
  ⟨h'.tick.trans h.tick, h'.carried.trans h.carried, h'.bank.trans h.bank, h'.nsl.trans h.nsl, fun o ho => (h'.regs o ho).trans (h.regs o ho)⟩

/-- A change of the blocks that neither the calendar nor scan-out is part of. -/
theorem outside (s : State) (cdc : Cdc) (ppx : Ppx) (age : Age) (drv : Drv) (psq : Psq) : CalendarKept offs s { s with
    cdc := cdc, ppx := ppx, age := age, drv := drv, psq := psq } := .of_reg rfl rfl rfl rfl rfl

/-- A change of scan-out beside its transition. -/
theorem scn (s : State) (x : Scn) (h : x.nsl = s.scn.nsl) : CalendarKept offs s { s with scn := x } := .of_reg rfl rfl rfl h rfl

theorem wr (s : State) (f : Fld) (x : Nat) (h : f.off ∉ offs) : CalendarKept offs s (wr s f x) :=
  ⟨rfl, rfl, rfl, rfl, fun o ho => by rw [rdW_wr, if_neg fun e : o = f.off => h (e ▸ ho)]⟩

theorem wrB (s : State) (f : Fld) (b : Bool) (h : f.off ∉ offs) : CalendarKept offs s (wrB s f b) := wr s f _ h
theorem setBitOf (s : State) (f : Fld) (i : Nat) (b : Bool) (h : f.off ∉ offs) : CalendarKept offs s (setBitOf s f i b) := wr s f _ h

theorem bump (s : State) (f : Fld) (h : f.off ∉ offs) : CalendarKept offs s (bump s f) := ⟨rfl, rfl, rfl, rfl, (wr s f _ h).regs⟩

theorem warning (s : State) (b i : Nat) (f : Fld) (q : List (Nat × Nat)) : CalendarKept offs s (warning s b i f q) := .of_reg rfl rfl rfl rfl rfl

theorem info (s : State) (b i : Nat) (f : Fld) (q : List (Nat × Nat)) : CalendarKept offs s (info s b i f q) := .of_reg rfl rfl rfl rfl rfl

theorem alarmSet (s : State) (b : Nat) (h : F.EVT_ALARM_alarm.off ∉ offs) : CalendarKept offs s (alarmSet s b) := by
  have hframe := alarmSet_frame s b
  exact ⟨by rw [hframe], by rw [hframe], by rw [hframe], by rw [hframe], fun o ho => rdW_alarmSet_other s b o fun e => h (e ▸ ho)⟩

theorem ite {c : Prop} [Decidable c] (h : CalendarKept offs s t) (h' : CalendarKept offs s u) : CalendarKept offs s (if c then t else u) := by
  split
  · exact h
  · exact h'

theorem foldl {α : Type} {f : State → α → State} (h : ∀ u a, CalendarKept offs u (f u a)) (l : List α) (s : State) :
    CalendarKept offs s (l.foldl f s) := by
  induction l generalizing s with
  | nil => exact refl offs s
  | cons a l ih => exact (h s a).trans (ih _)

/-- A fold that also gathers something. -/
theorem foldl_snd {α β : Type} {f : β × State → α → β × State} (h : ∀ r a, CalendarKept offs r.2 (f r a).2) (l : List α) (r : β × State) :
    CalendarKept offs r.2 (l.foldl f r).2 := by
  induction l generalizing r with
  | nil => exact refl offs _
  | cons a l ih => exact (h r a).trans (ih _)

theorem allPasses (h : CalendarKept offs s t) : allPasses t = allPasses s := by
  unfold Machine.allPasses
  rw [h.carried, h.bank]

theorem rd (h : CalendarKept offs s t) (f : Fld) (hf : f.off ∈ offs) : rd t f = rd s f := by rw [Machine.rd, h.regs _ hf, Machine.rd]

end CalendarKept

/-- The register of SCN.STATUS, which shows the view being scanned. -/
def scanRegs : List Nat := [F.SCN_STATUS_view.off]

theorem not_mem_scanRegs {o : Nat} (h : 0x80000 ≤ o) : o ∉ scanRegs := fun hm => by
  have : ∀ a ∈ scanRegs, a < 0x80000 := by decide
  exact absurd (this o hm) (by omega)

/-! Panel sequencing at a scan's end (R331 to R337) -/

theorem psqTo_calendar (s : State) (st : Nat) : CalendarKept scanRegs s (psqTo s st) := by
  have hoff : ∀ u, CalendarKept scanRegs u (outputsOff u) := fun u => by
    unfold outputsOff
    split <;> exact .outside ..
  unfold psqTo
  dsimp only
  refine ((CalendarKept.wr s F.PSQ_STATUS_state st (by decide)).trans (.wrB _ F.PSQ_STATUS_emit (st = psON) (by decide))).trans ?_
  refine .ite ?_ (.ite (hoff _) (.refl _ _))
  exact .outside ..

theorem tableSwing_calendar {offs : List Nat} (s : State) : CalendarKept offs s (tableSwing s) := by
  unfold tableSwing
  split <;> exact .outside ..

theorem sendCfg_calendar (s : State) : CalendarKept scanRegs s (sendCfg s) := by
  unfold sendCfg
  dsimp only
  refine .ite (.outside ..) (.trans ?_ (tableSwing_calendar _))
  refine .trans ?_ (.wrB _ _ _ (by decide))
  exact .outside ..

theorem cfgSendDone_calendar (s : State) : CalendarKept scanRegs s (cfgSendDone s) := by
  unfold cfgSendDone
  dsimp only
  refine .ite (.refl _ s) (.trans (.wrB s F.DRV_STATUS_cfg_busy false (by decide)) (.ite ?_ (.refl _ _)))
  refine .trans ?_ (sendCfg_calendar _)
  exact .outside ..

theorem groupsDown_calendar (s : State) : CalendarKept scanRegs s (groupsDown s) := by
  refine .foldl (fun u g => ?_) _ s
  have hgrp : CalendarKept scanRegs u (setGrp u g Grp.off) := .outside ..
  have hup : (F.DRV_GRP_STAT_up g).off ∉ scanRegs := not_mem_scanRegs (by show 0x80000 ≤ 0xA0020 + 4 * g; omega)
  exact hgrp.trans ((CalendarKept.wrB _ _ _ hup).trans (.setBitOf _ _ _ _ (by decide)))

theorem linkStop_calendar (s : State) : CalendarKept scanRegs s (linkStop s) := by
  have hempty : ∀ u, CalendarKept scanRegs u (emptyLink u) := fun u => .outside ..
  rw [linkStop_eq]
  exact (groupsDown_calendar s).trans <| (hempty _).trans <| (CalendarKept.wrB _ _ _ (by decide)).trans <|
    (CalendarKept.wrB _ _ _ (by decide)).trans (cfgSendDone_calendar _)

theorem psqEnd_calendar (s : State) : CalendarKept scanRegs s (psqEnd s) := by
  refine .ite ?_ (.ite (.wrB _ _ _ (by decide)) ?_)
  · refine .trans ?_ (.alarmSet _ _ (by decide))
    exact (psqTo_calendar s psFAULT).trans (.outside ..)
  · have hoff : CalendarKept scanRegs s { psqTo s psOFF with psq.ckptWait := false } :=
      (psqTo_calendar s psOFF).trans (.outside ..)
    refine (hoff.trans (.wrB _ F.PSQ_STATUS_ckpt_wait false (by decide))).trans (.ite ?_ (.refl _ _))
    refine .trans ?_ (.wr _ F.PSQ_FAULT 0 (by decide))
    refine .trans ?_ (.wrB _ F.PSQ_STATUS_re_pend false (by decide))
    exact .outside ..

theorem railsNext_calendar (s : State) : CalendarKept scanRegs s (railsNext s) := by
  have hlow : ∀ u, CalendarKept scanRegs u (railLow u) := fun u =>
    (CalendarKept.setBitOf u F.PSQ_STATUS_rail_en (railOf u u.psq.k) false (by decide)).trans (.outside ..)
  unfold railsNext
  split
  · refine .trans ?_ (psqEnd_calendar _)
    exact .outside ..
  · next k _ =>
    have hk : CalendarKept scanRegs s
        { s with psq := { s.psq with k := Fin.ofNat 8 k, begun := maskSet s.psq.begun k false, watched := maskSet s.psq.watched k false } } :=
      .outside ..
    refine hk.trans (.ite ?_ (hlow _))
    exact .outside ..

theorem railsDown_calendar (s : State) : CalendarKept scanRegs s (railsDown s) := by
  have hstop : CalendarKept scanRegs s { s with psq := { s.psq with stopAt := some s.tick, offReq := false } } := .outside ..
  exact hstop.trans <| (psqTo_calendar _ _).trans <| (linkStop_calendar _).trans (railsNext_calendar _)

theorem psqScanEnd_calendar (s : State) (p : Pass) (k : RunKind) : CalendarKept scanRegs s (psqScanEnd s p k) := by
  unfold psqScanEnd
  refine .ite (.refl _ s) (.ite (.outside ..) (.ite ?_ (.refl _ s)))
  split
  · refine .ite (.trans ?_ (.ite (railsDown_calendar _) (.refl _ _))) (.refl _ s)
    exact .outside ..
  · exact .refl _ s

theorem crackBlanking_calendar {offs : List Nat} (s : State) : CalendarKept offs s (crackBlanking s) := by
  refine .ite (.ite (.refl _ s) ?_) (.refl _ s)
  exact .outside ..

/-! The end of a write scan (R200, R248) -/

theorem crcEnd_calendar (s : State) (u : Run) : CalendarKept scanRegs s (crcEnd s u) := by
  refine .foldl (fun v r => .ite (.refl _ v) ?_) _ s
  have hcrc : (F.PPX_CRC_crc r).off ∉ scanRegs := not_mem_scanRegs (by show 0x80000 ≤ 0x80108 + 16 * r; omega)
  refine .trans (.wr v (F.PPX_CRC_crc r) (u.crc.getD r 0 ^^^ 0xFFFFFFFF) hcrc) ?_
  exact .outside ..

theorem setRun_calendar {offs : List Nat} (s : State) (u : Run) : CalendarKept offs s (setRun s u) := .scn s _ rfl

theorem finishRun_calendar (s : State) (u : Run) : CalendarKept scanRegs s (finishRun s u) := by
  unfold finishRun
  extract_lets v keep x w y
  split
  · exact .refl _ s
  · have hcrc : CalendarKept scanRegs s v := crcEnd_calendar s u
    have hfails : CalendarKept scanRegs v w := .ite (.scn v _ rfl) (.refl _ v)
    have hcap : CalendarKept scanRegs w y := .outside ..
    clear_value w y
    exact hcrc.trans (hfails.trans (hcap.trans ((setRun_calendar y _).trans (.scn _ _ rfl))))

/-- No view is being scanned, and the passes of a start have ended. -/
def viewEnded (s : State) (p : Pass) : State := modPass (wr s F.SCN_STATUS_view 15) p.start (fun p => { p with ended := true })

theorem scanEnd_calendar (s : State) (p : Pass) : CalendarKept scanRegs (viewEnded s p) (scanEnd s p) := by
  unfold scanEnd
  extract_lets v w
  have hended : viewEnded s p = w := rfl
  rw [hended]
  clear_value w
  split
  · next u _ =>
    extract_lets u' x
    have hprot : CalendarKept scanRegs w x := .ite (.refl _ w) (.scn w _ rfl)
    clear_value x
    exact (hprot.trans (setRun_calendar x u')).trans (finishRun_calendar _ u')
  · exact .refl _ _

theorem freezeSub_calendar {offs : List Nat} (s : State) : CalendarKept offs s (freezeSub s) := by
  unfold freezeSub
  split
  · exact .ite (.of_reg rfl rfl rfl rfl rfl) (.refl _ s)
  · exact .refl _ s

/-- The register of SCN.STATUS belongs to no class of commits. -/
theorem scanRegs_class {o : Nat} (ho : o ∈ scanRegs) {d : RegDesc} (hd : regAt o = some d) : d.v = 0 := by
  have key : ∀ a ∈ scanRegs, (regAt a).map (fun d => d.v) = some 0 := by decide +kernel
  have := key o ho
  rw [hd] at this
  simpa using this

theorem applyBits_calendar (s : State) (snap : SMap Word) : CalendarKept scanRegs s (applyBits s snap (fun d => d.v)) := by
  have hframe := applyBits_regOnly s snap (fun d => d.v)
  refine ⟨by rw [hframe], by rw [hframe], by rw [hframe], by rw [hframe], fun o ho => ?_⟩
  exact (applyBits_other s snap _ o fun d hd => by rw [scanRegs_class ho hd]).1

theorem pendStatus_calendar (s : State) : CalendarKept scanRegs s (pendStatus s) := by
  refine .trans ?_ (.wrB _ F.SCN_COMMIT_pending _ (by decide))
  exact .scn s _ rfl

theorem commitV_calendar (s : State) (t : Nat) : CalendarKept scanRegs s (commitV s t) := by
  unfold commitV
  split
  · next c _ =>
    split
    · exact .refl _ s
    · refine (freezeSub_calendar s).trans ((applyBits_calendar _ c.snap).trans (.trans ?_ (pendStatus_calendar _)))
      exact .scn _ _ rfl
  · exact .refl _ s

theorem blankingPoint_calendar (s : State) (p : Pass) :
    CalendarKept scanRegs (viewEnded (reach s (p.start + p.dur)) p) (blankingPoint s p) := by
  unfold blankingPoint
  dsimp only
  refine (scanEnd_calendar _ p).trans ?_
  generalize scanEnd (reach s (p.start + p.dur)) p = u
  refine .trans (t := match (runOf s p).map (fun u => u.kind) with | some k => psqScanEnd u p k | none => u) ?_ ?_
  · split
    · exact psqScanEnd_calendar ..
    · exact .refl _ u
  · exact .ite (sendCfg_calendar _) ((commitV_calendar _ _).trans (crackBlanking_calendar _))

/-- Changing the passes of a start changes the calendar's passes one by one. -/
theorem allPasses_modPass (s : State) (start : Nat) (f : Pass → Pass) :
    allPasses (modPass s start f) = (allPasses s).map (fun p => if p.start = start then f p else p) := by
  unfold allPasses modPass
  dsimp only
  rw [List.map_append]
  cases s.exs.bank <;> rfl

theorem rd_modPass (s : State) (start : Nat) (f : Pass → Pass) (g : Fld) : rd (modPass s start f) g = rd s g := rfl

theorem viewEnded_ended (s : State) (p q : Pass) (hq : q ∈ allPasses (viewEnded s p)) (hstart : q.start = p.start) : q.ended = true := by
  rw [viewEnded, allPasses_modPass] at hq
  obtain ⟨r, -, rfl⟩ := List.mem_map.1 hq
  by_cases h : r.start = p.start
  · rw [if_pos h]
  · rw [if_neg h] at hstart
    exact absurd hstart h

theorem rd_view_viewEnded (s : State) (p : Pass) : rd (viewEnded s p) F.SCN_STATUS_view = 15 := by
  rw [viewEnded, rd_modPass, rd_wr_same s F.SCN_STATUS_view 15 (by decide)]
  decide

/-! A pass starts (R127, R205): the calendar's other passes stand, and the pass keeps its place -/

/-- A pass as it starts: what it latches, and nothing else, has changed. -/
def Begun (p q : Pass) : Prop := q = { p with latched := q.latched, started := q.started, bl := q.bl, accum := q.accum }

theorem Begun.trans {p q r : Pass} (h : Begun p q) (h' : Begun q r) : Begun p r := by
  unfold Begun at h h' ⊢
  exact h'.trans (by rw [h])

/-- The clock and the transition stand, and every carried pass of a start is still carried; once started it stays so. -/
structure PassKept (start : Nat) (s t : State) : Prop where
  tick : t.tick = s.tick
  nsl : t.scn.nsl = s.scn.nsl
  pass : ∀ p ∈ s.exs.carried, p.start = start → ∃ q ∈ t.exs.carried, Begun p q ∧ (p.started = true → q.started = true)

namespace PassKept

variable {start : Nat} {s t u : State}

theorem of_calendar (h : CalendarKept [] s t) : PassKept start s t :=
  ⟨h.tick, h.nsl, fun p hp _ => ⟨p, by rw [h.carried]; exact hp, rfl, id⟩⟩

theorem trans (h : PassKept start s t) (h' : PassKept start t u) : PassKept start s u := by
  refine ⟨h'.tick.trans h.tick, h'.nsl.trans h.nsl, fun p hp hstart => ?_⟩
  obtain ⟨q, hq, hbegun, hstarted⟩ := h.pass p hp hstart
  have hqs : q.start = start := by rw [hbegun]; exact hstart
  obtain ⟨r, hr, hbegun', hstarted'⟩ := h'.pass q hq hqs
  exact ⟨r, hr, hbegun.trans hbegun', fun h => hstarted' (hstarted h)⟩

/-- The passes of the start change in what a pass latches as it starts. -/
theorem modPass (s : State) (f : Pass → Pass) (hf : ∀ p, Begun p (f p)) (hs : ∀ p, p.started = true → (f p).started = true) :
    PassKept start s (modPass s start f) :=
  ⟨rfl, rfl, fun p hp h => ⟨f p, List.mem_map.2 ⟨p, hp, if_pos h⟩, hf p, hs p⟩⟩

end PassKept

theorem latchBand_keeps (s : State) (p : Pass) : PassKept p.start s (latchBand s p) := by
  unfold latchBand
  split
  · exact .of_calendar (.refl _ s)
  · have hband : PassKept p.start s (wr s F.PPX_STATUS_latched (bandNow s)) := .of_calendar (.wr _ _ _ List.not_mem_nil)
    exact hband.trans (.modPass _ _ (fun _ => rfl) fun _ h => h)

theorem polRefresh_calendar (s : State) (pic : Nat) (first : Bool) : CalendarKept [] s (polRefresh s pic first).2 := by
  unfold polRefresh
  split
  · exact .refl _ s
  · extract_lets pol u
    refine .trans (t := { s with ppx.pol := pol }) (.outside ..) ?_
    exact (CalendarKept.wr _ F.PPX_POL_STAT_phase _ List.not_mem_nil).trans (.wr _ F.PPX_POL_STAT_balance _ List.not_mem_nil)

theorem layerChecks_calendar (s : State) (u : Run) : CalendarKept [] s (layerChecks s u).2 := by
  refine .foldl_snd (fun a l => ?_) _ ([], s)
  extract_lets y bad v
  split
  · exact .refl _ a.2
  · have hbad : CalendarKept [] a.2 v := .foldl (fun w f => .warning ..) _ a.2
    clear_value v
    split
    · exact hbad.trans (.warning ..)
    · exact hbad

theorem protMark_calendar (s : State) (u : Run) : CalendarKept [] s (protMark s u).2 := by
  unfold protMark
  split
  · exact .scn s _ rfl
  · exact .refl _ s

theorem capSelect_calendar (s : State) (u : Run) : CalendarKept [] s (capSelect s u).2 := by
  unfold capSelect
  split
  · exact .refl _ s
  · dsimp only
    split
    · exact .refl _ s
    · split
      · exact .outside ..
      · split
        · refine .trans ?_ (.bump _ F.PPX_CAP_CNT_refused List.not_mem_nil)
          exact .outside ..
        · split
          · refine .trans (.trans ?_ (.wr _ F.PPX_CAP_STAT_state 2 List.not_mem_nil)) (.info ..)
            exact .outside ..
          · exact .outside ..

theorem dropStaleFrost_calendar (s : State) (u : Run) : CalendarKept [] s (dropStaleFrost s u) := by
  unfold dropStaleFrost
  exact .scn s _ rfl

/-- The pass has resolved its versions and latched its band. -/
def passLatched (s : State) (p : Pass) : State :=
  latchBand (if p.repeats then s else resolveAll s p.start (s.tmb.pic.map (fun n => (n, phaseNow s)))) p

/-- It counts as started. -/
def passStarted (s : State) (p : Pass) : State :=
  modPass (passLatched s p) p.start (fun q => { q with started := true, bl := on (passLatched s p) F.PPX_BL_CFG_en })

/-- What follows leaves the calendar but for what the pass latches: its run joins scan-out where it drives the panel. -/
theorem startPass_keeps (s : State) (p : Pass) : PassKept p.start (passStarted s p) (startPass s p) := by
  have hrefresh := polRefresh_calendar
  have hchecks := layerChecks_calendar
  unfold startPass
  -- a run keeps the calendar whatever these give; named ones keep the kernel from running them
  obtain ⟨refresh, hf⟩ : ∃ f, polRefresh = f := ⟨_, rfl⟩
  obtain ⟨kindOf, hk⟩ : ∃ f, passKind = f := ⟨_, rfl⟩
  obtain ⟨checks, hc⟩ : ∃ f, layerChecks = f := ⟨_, rfl⟩
  rw [hf] at hrefresh
  rw [hc] at hchecks
  rw [hf, hk, hc]
  extract_lets pos a b v kind no age w accum pol x run scn y z checked run1 frost prot cap
  split
  · exact .of_calendar (.refl _ b)
  · have hview : CalendarKept [] b v := .wr b _ _ List.not_mem_nil
    have hcount : CalendarKept [] v w := .outside ..
    have hpol : CalendarKept [] w x := hrefresh w _ _
    have hnumber : CalendarKept [] x y := .scn x _ rfl
    have haccum : PassKept p.start y z := .modPass y (fun q => { q with accum := accum }) (fun _ => rfl) fun _ h => h
    refine (PassKept.of_calendar (hview.trans (hcount.trans (hpol.trans hnumber)))).trans (haccum.trans (.of_calendar ?_))
    split
    · exact (hchecks z run).trans <| (dropStaleFrost_calendar _ _).trans <| (protMark_calendar _ _).trans <|
        (capSelect_calendar _ _).trans (.scn _ _ rfl)
    · refine .trans ?_ ((capSelect_calendar _ _).trans (.scn _ _ rfl))
      exact iteInduction (motive := fun r : Run × State => CalendarKept [] z r.2) (fun _ => protMark_calendar z run) fun _ => .refl _ z

end Sys2Proof.Machine
end

section
namespace Sys2Proof.Machine

/-- A repeat pass of the calendar starts: it stays in its place, and counts as started. -/
theorem startPass_starts {s : State} {p : Pass} (hrep : p.repeats = true) (hp : p ∈ s.exs.carried) :
    (startPass s p).tick = s.tick ∧ (startPass s p).scn.nsl = s.scn.nsl ∧
    ∃ q ∈ (startPass s p).exs.carried, Begun p q ∧ q.started = true := by
  have hlatched : PassKept p.start s (passLatched s p) := by
    rw [passLatched, if_pos hrep]
    exact latchBand_keeps s p
  have hrun := startPass_keeps s p
  obtain ⟨q, hq, hbegun, -⟩ := hlatched.pass p hp rfl
  have hqs : q.start = p.start := by rw [hbegun]
  have hstarted : { q with started := true, bl := on (passLatched s p) F.PPX_BL_CFG_en } ∈ (passStarted s p).exs.carried :=
    List.mem_map.2 ⟨q, hq, if_pos hqs⟩
  obtain ⟨r, hr, hbegun', hstays⟩ := hrun.pass _ hstarted hqs
  have hset : Begun q { q with started := true, bl := on (passLatched s p) F.PPX_BL_CFG_en } := rfl
  exact ⟨hrun.tick.trans hlatched.tick, hrun.nsl.trans hlatched.nsl, r, hr, hbegun.trans (hset.trans hbegun'), hstays rfl⟩

/-! NSL_REPEAT_PASS (R205) -/

theorem setPulses_calendar {offs : List Nat} (s : State) (l : List EmPulse) : CalendarKept offs s (setPulses s l) := .outside ..

theorem dropWarned_calendar (s : State) : CalendarKept [] s (dropWarned s) :=
  (CalendarKept.bump s _ List.not_mem_nil).trans (.warning ..)

theorem refreshPulses_calendar (s : State) (p : Pass) : CalendarKept [] s (refreshPulses s p) := by
  obtain ⟨l, h | h⟩ := refreshPulses_cases s p <;> rw [h]
  · exact setPulses_calendar ..
  · exact (setPulses_calendar ..).trans (dropWarned_calendar _)

theorem carryPass_calendar (c s : State) (p : Pass) : CalendarKept [] s (carryPass c s p) := by
  obtain ⟨l, h | h⟩ := carryPass_cases c s p <;> rw [h]
  · exact setPulses_calendar ..
  · exact (setPulses_calendar ..).trans (dropWarned_calendar _)

/-- A bank whose entries have been counted again, and the time base's counts of them. -/
def showCounts (s : State) (o : Bank) : State :=
  wr (wr { s with exs.bank := some o } F.TMB_CAL_STAT_seq_used (min o.seqs 256)) F.TMB_CAL_STAT_single_used (min o.singles 4096)

theorem showCounts_keeps (s : State) (o : Bank) :
    (showCounts s o).tick = s.tick ∧ (showCounts s o).scn.nsl = s.scn.nsl ∧ (showCounts s o).exs.carried = s.exs.carried := ⟨rfl, rfl, rfl⟩

/-- The repeat pass of a transition: the final pass's view at its tick, every row programmed. -/
structure RepeatPass (h : Nat) (n : Nsl) (p : Pass) : Prop where
  start : p.start = n.rep
  view : p.view = n.view
  repeats : p.repeats = true
  rows : p.rows.length = h
  prog : ∀ r ∈ p.rows, r.prog = true

theorem RepeatPass.begun {h : Nat} {n : Nsl} {p q : Pass} (hp : RepeatPass h n p) (hbegun : Begun p q) : RepeatPass h n q := by
  obtain ⟨hstart, hview, hrepeats, hrows, hprog⟩ := hp
  rw [hbegun]
  exact ⟨hstart, hview, hrepeats, hrows, hprog⟩

/-- A repeat pass that has not begun joins the carried passes and starts. -/
theorem nslRepeatPass_carries {s t : State} {n : Nsl} (hnsl : s.scn.nsl = some n) (hbegun : n.begun = false) (ht : nslRepeatPass s = t) :
    ∃ (u v : State) (p : Pass), v = startPass { u with exs.carried := u.exs.carried ++ [p] } p ∧ (t = v ∨ ∃ o, t = showCounts v o) ∧
      u.tick = max s.tick n.rep ∧ u.scn.nsl = some { n with begun := true } ∧ RepeatPass (panelH s) n p := by
  unfold nslRepeatPass at ht
  split at ht
  · next h => rw [h] at hnsl; cases hnsl
  · next m h =>
    obtain rfl : n = m := Option.some.inj (hnsl.symm.trans h)
    rw [if_neg (by rw [hbegun]; decide)] at ht
    -- what follows holds of any start of the pass; a named one keeps the kernel from running the start
    obtain ⟨start, hstart⟩ : ∃ f, startPass = f := ⟨_, rfl⟩
    rw [hstart] at ht ⊢
    extract_lets a g w pic ord far row p cut exs scn d u uexs v vexs at ht
    have hcarry : CalendarKept [] d u := (CalendarKept.foldl refreshPulses_calendar _ d).trans (carryPass_calendar d _ p)
    have htick : d.tick = max s.tick n.rep := rfl
    have hbegun' : d.scn.nsl = some { n with begun := true } := rfl
    have hpass : RepeatPass (panelH s) n p := by
      refine ⟨rfl, rfl, rfl, (List.length_map _).trans List.length_range, fun r hr => ?_⟩
      obtain ⟨y, -, rfl⟩ := List.mem_map.1 hr
      rfl
    have hshown : t = v ∨ ∃ o, t = showCounts v o := by
      rw [← ht]
      split
      · next o _ => exact .inr ⟨recount v o, rfl⟩
      · exact .inl rfl
    exact ⟨u, v, p, rfl, hshown, hcarry.tick.trans htick, hcarry.nsl.trans hbegun', hpass⟩

/-- Before its end a transition has one repeat pass, which starts carried. -/
theorem nslRepeatPass_starts {s : State} {n : Nsl} (hnsl : s.scn.nsl = some n) (hbegun : n.begun = false) :
    (nslRepeatPass s).tick = max s.tick n.rep ∧ (nslRepeatPass s).scn.nsl = some { n with begun := true } ∧
    ∃ q ∈ (nslRepeatPass s).exs.carried, RepeatPass (panelH s) n q ∧ q.started = true := by
  obtain ⟨u, v, p, hv, hshown, htick, hnsl', hpass⟩ := nslRepeatPass_carries hnsl hbegun rfl
  have hkept : (nslRepeatPass s).tick = v.tick ∧ (nslRepeatPass s).scn.nsl = v.scn.nsl ∧
      (nslRepeatPass s).exs.carried = v.exs.carried := by
    obtain h | ⟨o, h⟩ := hshown <;> rw [h]
    · exact ⟨rfl, rfl, rfl⟩
    · exact showCounts_keeps v o
  obtain ⟨hktick, hknsl, hkcarried⟩ := hkept
  have hlast : p ∈ { u with exs.carried := u.exs.carried ++ [p] }.exs.carried := List.mem_append_right _ List.mem_cons_self
  obtain ⟨hstick, hsnsl, q, hq, hqp, hstarted⟩ := startPass_starts hpass.repeats hlast
  rw [← hv] at hstick hsnsl hq
  exact ⟨hktick.trans (hstick.trans htick), hknsl.trans (hsnsl.trans hnsl'), q, hkcarried ▸ hq, hpass.begun hqp, hstarted⟩

theorem nslRepeatPass_begun {s : State} {n : Nsl} (hnsl : s.scn.nsl = some n) (hbegun : n.begun = true) : nslRepeatPass s = s := by
  unfold nslRepeatPass
  rw [hnsl]
  exact if_pos hbegun

theorem nslRepeatPass_none {s : State} (hnsl : s.scn.nsl = none) : nslRepeatPass s = s := by
  unfold nslRepeatPass
  rw [hnsl]

theorem verticalBlankingPoint_some {s : State} {p : Pass} (h : firstPass s (fun p => p.started && !p.ended) = some p) :
    verticalBlankingPoint s = blankingPoint s p := by
  unfold verticalBlankingPoint
  rw [h]

theorem verticalBlankingPoint_none {s : State} (h : firstPass s (fun p => p.started && !p.ended) = none) :
    verticalBlankingPoint s = s := by
  unfold verticalBlankingPoint
  rw [h]

theorem exec_verticalBlankingPoint (s : State) : exec .verticalBlankingPoint s = .next (verticalBlankingPoint s) := rfl

theorem exec_nslRepeatPass (s : State) : exec .nslRepeatPass s = .next (nslRepeatPass s) := rfl

/-- Settles O25: what follows the end of a scan leaves the calendar and SCN.STATUS as that end has them, and the start of a pass changes of
the calendar only what a pass latches. -/
theorem scanEndsAndRepeatPass : Obligations.ScanEndsAndRepeatPass := by
  unfold Obligations.ScanEndsAndRepeatPass
  refine ⟨fun s p hfirst => ?_, fun s hnone => ?_, fun s n hnsl => ⟨fun hbegun => ?_, fun hbegun => ?_⟩, fun s hnsl => ?_⟩
  · have hend := blankingPoint_calendar s p
    refine ⟨blankingPoint s p, ?_, hend.tick, ?_, fun q hq hstart => ?_⟩
    · rw [exec_verticalBlankingPoint, verticalBlankingPoint_some hfirst]
    · rw [hend.rd F.SCN_STATUS_view (by decide), rd_view_viewEnded]
    · rw [hend.allPasses] at hq
      exact viewEnded_ended _ p q hq hstart
  · rw [exec_verticalBlankingPoint, verticalBlankingPoint_none hnone]
  · obtain ⟨htick, hnsl', q, hq, hpass, hstarted⟩ := nslRepeatPass_starts hnsl hbegun
    obtain ⟨hstart, hview, hrepeats, hrows, hprog⟩ := hpass
    exact ⟨nslRepeatPass s, q, exec_nslRepeatPass s, htick, hnsl', hq, hstart, hview, hrepeats, hstarted, hrows, hprog⟩
  · rw [exec_nslRepeatPass, nslRepeatPass_begun hnsl hbegun]
  · rw [exec_nslRepeatPass, nslRepeatPass_none hnsl]

end Sys2Proof.Machine
end

section
namespace Sys2Proof.Machine

/-! Reads of the ageing tables (R217, R284): the counterexample to O27 -/

/-- The register space answers; word 0 of the ageing engine's table 0 holds 2^16, and AGE.TBL_SEL and AGE.TBL_IDX select it. -/
def wideAgeWord : State :=
  { State.reset with reg := [(F.PWR_DOM_ON_on.off, 0x3FFFFFFF#32)], boot := { State.reset.boot with step := 8 }, age.tbl := [(0, 65536)] }

/-- AGE.TBL_DATA shows the low 16 bits of the word. -/
theorem ageTblRead_wideAgeWord : ∃ t, exec (.ageTblDataAccess none) wideAgeWord = .next t ∧ rd t F.AGE_TBL_DATA_data = 0 :=
  ⟨_, rfl, by decide +kernel⟩

/-- Refutes O27: AGE.TBL_DATA.data is 16 bits wide, and the statement, which cuts the word read from an AGE table to 32 bits, ranges over states
whose table holds a wider word than any write leaves there. -/
theorem not_tableWindowsReadAndWrite : ¬ Obligations.TableWindowsReadAndWrite := by
  unfold Obligations.TableWindowsReadAndWrite
  rintro ⟨-, -, -, hread⟩
  obtain ⟨t, ht, hdata, -⟩ := hread wideAgeWord 0 0 (by decide +kernel) (by decide +kernel) (by decide +kernel)
  obtain ⟨u, hu, hcut⟩ := ageTblRead_wideAgeWord
  have htu : t = u := Host.Outcome.next.inj (ht.symm.trans hu)
  have hword : (if 0 < ageTblLen 0 then ageTbl wideAgeWord 0 0 % 2 ^ 32 else 0) = 65536 := by decide +kernel
  rw [htu, hcut, hword] at hdata
  exact absurd hdata (by decide)

end Sys2Proof.Machine
end

section
namespace Sys2Proof.Machine

/-! Sessions of the drive capture (R249) -/

theorem exec_capArm_served {s : State} (h : served s F.PPX_CAP_CTRL_arm.off true) : exec .capArm s = .next (capArm s) :=
  exec_of_served capArm h rfl

theorem exec_capStop_served {s : State} (h : served s F.PPX_CAP_CTRL_stop.off true) : exec .capStop s = .next (capStop s) :=
  exec_of_served capStop h rfl

/-- The registers of a session that begins. -/
def armShown (s : State) : State := wr (wr (wr s F.PPX_CAP_STAT_state 1) F.PPX_CAP_STAT_recs 0) F.PPX_CAP_USED_granules 0

/-- It has captures to take, and none in hand. -/
def armed (m : State) (c : Cap) : State :=
  { m with ppx := { m.ppx with cap := some c, capJobs := [] }, cdc.cmpWait := m.cdc.cmpWait.filter (fun r => r.user != 4) }

theorem capArm_eq (s : State) : capArm s = armed (armShown s) ⟨0, rd s F.PPX_CAP_CFG_count, false, s.tick⟩ := by
  have hcount : rd (armShown s) F.PPX_CAP_CFG_count = rd s F.PPX_CAP_CFG_count := by
    unfold armShown
    rw [rd_wr_apart _ _ (by decide), rd_wr_apart _ _ (by decide), rd_wr_apart _ _ (by decide)]
  have htick : (armShown s).tick = s.tick := by rw [armShown, wr_tick, wr_tick, wr_tick]
  rw [← hcount, ← htick]
  rfl

theorem armed_ppx (m : State) (c : Cap) : (armed m c).ppx = { m.ppx with cap := some c, capJobs := [] } := rfl

theorem armed_reg (m : State) (c : Cap) : (armed m c).reg = m.reg := rfl

theorem armed_of_regOnly {s m : State} (h : RegOnly s m) (c : Cap) :
    armed m c = { s with reg := (armed m c).reg, ppx := (armed m c).ppx, cdc := (armed m c).cdc } := by
  rw [armed_reg]
  generalize hr : m.reg = r
  rw [RegOnly, hr] at h
  rw [h]
  rfl

theorem rd_armed (m : State) (c : Cap) (f : Fld) : rd (armed m c) f = rd m f := rfl

theorem armShown_regOnly (s : State) : RegOnly s (armShown s) := ((RegOnly.wr ..).trans (.wr ..)).trans (.wr ..)

theorem armShown_reads (s : State) : rd (armShown s) F.PPX_CAP_STAT_state = 1 ∧ rd (armShown s) F.PPX_CAP_STAT_recs = 0 ∧
    rd (armShown s) F.PPX_CAP_USED_granules = 0 := by
  unfold armShown
  refine ⟨?_, ?_, rd_wr_same _ F.PPX_CAP_USED_granules 0 (by decide)⟩
  · rw [rd_wr_apart _ _ (by decide), rd_wr_apart _ _ (by decide), rd_wr_same _ _ _ (by decide)]
    rfl
  · rw [rd_wr_apart _ _ (by decide), rd_wr_same _ _ _ (by decide)]
    rfl

theorem armShown_regsKept (s : State) : regsKept s (armShown s) [F.PPX_CAP_STAT_state.off, F.PPX_CAP_USED_granules.off] :=
  regsKept_trans (regsKept_trans (regsKept_wr _ _ _ (by decide)) (regsKept_wr _ _ _ (by decide))) (regsKept_wr _ _ _ (by decide))

/-- A session that ends shows it. -/
def capEnded (s : State) : State := wr { s with ppx.cap := none } F.PPX_CAP_STAT_state 0

/-- It ends or stands as it is. -/
theorem capSettle_cases (s : State) : capSettle s = s ∨ capSettle s = capEnded s := by
  unfold capSettle
  split
  · split
    · exact .inr rfl
    · exact .inl rfl
  · exact .inl rfl

theorem capSettle_keeps (s : State) : (capSettle s).lst = s.lst ∧ (capSettle s).gddr = s.gddr ∧ (capSettle s).flash = s.flash ∧
    (capSettle s).nvm = s.nvm ∧ (capSettle s).ppx.capJobs = s.ppx.capJobs := by
  rcases capSettle_cases s with h | h <;> rw [h]
  · exact ⟨rfl, rfl, rfl, rfl, rfl⟩
  · rw [capEnded, wr_lst, wr_gddr, wr_flash, wr_nvm, wr_ppx]
    exact ⟨rfl, rfl, rfl, rfl, rfl⟩

/-- Of the registers it changes PPX.CAP_STAT.state. -/
theorem rd_capSettle (s : State) {f : Fld} (h : F.PPX_CAP_STAT_state.apart f = true) : rd (capSettle s) f = rd s f := by
  rcases capSettle_cases s with hs | hs <;> rw [hs]
  exact rd_wr_apart _ _ h

theorem capStop_idle {s : State} {c : Cap} (hc : s.ppx.cap = some c) (hjobs : s.ppx.capJobs = []) :
    capStop s = capEnded { s with ppx.cap := some { c with stop := true } } := by
  unfold capStop capSettle
  rw [hc, hjobs]
  rfl

theorem capStop_busy {s : State} {c : Cap} (hc : s.ppx.cap = some c) (hjobs : s.ppx.capJobs ≠ []) :
    capStop s = { s with ppx.cap := some { c with stop := true } } := by
  have hbusy : s.ppx.capJobs.isEmpty = false := by simpa using hjobs
  unfold capStop capSettle
  rw [hc]
  dsimp only [Option.map_some]
  rw [hbusy, Bool.and_false, if_neg Bool.false_ne_true]

/-! Records of captures (R250, R251, Table 7.8) -/

/-- Where the next record goes. -/
def capRecAt (s : State) : Nat := rd s F.PPX_CAP_REC_offset + 32 * (rd s F.PPX_CAP_STAT_recs % 2 ^ rd s F.PPX_CAP_REC_log2n)

/-- The bytes of a capture's record. -/
def capRecBytes (j : CapJob) (status bytes addr : Nat) : List Byte :=
  leBytes j.pic 8 ++ leBytes j.view 1 ++ leBytes j.ordinal 1 ++ leBytes status 1 ++ [0#8] ++ leBytes bytes 4 ++ leBytes addr 8 ++
    List.replicate 8 0#8

theorem length_capRecBytes (j : CapJob) (status bytes addr : Nat) : (capRecBytes j status bytes addr).length = 32 := by
  simp [capRecBytes, length_leBytes]

theorem capRecord_eq (s : State) (j : CapJob) (status bytes addr : Nat) : capRecord s j status bytes addr =
    wr (lstKeep s (capRecAt s) (capRecBytes j status bytes addr)) F.PPX_CAP_STAT_recs (rd s F.PPX_CAP_STAT_recs + 1) := rfl

/-- A record of these bytes is written at `o`, no other byte of the local store changes, and one more record is counted. -/
structure CapRecorded (s t : State) (o : Nat) (bs : List Byte) : Prop where
  bytes : o + 32 ≤ mbxBase → lstRd t o 32 = keepProt s o bs
  mailbox : ∀ x, mbxBase ≤ x → sget 0#8 t.lst x = sget 0#8 s.lst x
  other : ∀ x, x < o ∨ o + 32 ≤ x → sget 0#8 t.lst x = sget 0#8 s.lst x
  count : rd t F.PPX_CAP_STAT_recs = (rd s F.PPX_CAP_STAT_recs + 1) % 2 ^ 16

theorem capRecord_keeps (m : State) (j : CapJob) (status bytes addr : Nat) : (capRecord m j status bytes addr).gddr = m.gddr ∧
    (capRecord m j status bytes addr).flash = m.flash ∧ (capRecord m j status bytes addr).nvm = m.nvm ∧
    (capRecord m j status bytes addr).ppx.capJobs = m.ppx.capJobs := ⟨rfl, rfl, rfl, rfl⟩

/-- What the record of a capture and the session's end leave alone. -/
theorem capRecord_settled_keeps (m : State) (j : CapJob) (status bytes addr : Nat) :
    (capSettle (capRecord m j status bytes addr)).gddr = m.gddr ∧ (capSettle (capRecord m j status bytes addr)).flash = m.flash ∧
    (capSettle (capRecord m j status bytes addr)).nvm = m.nvm ∧
    (capSettle (capRecord m j status bytes addr)).ppx.capJobs = m.ppx.capJobs := by
  obtain ⟨hgddr, hflash, hnvm, hjobs⟩ := capRecord_keeps m j status bytes addr
  obtain ⟨-, hgddr', hflash', hnvm', hjobs'⟩ := capSettle_keeps (capRecord m j status bytes addr)
  exact ⟨hgddr'.trans hgddr, hflash'.trans hflash, hnvm'.trans hnvm, hjobs'.trans hjobs⟩

theorem rd_capRecord_settled (m : State) (j : CapJob) (status bytes addr : Nat) {f : Fld} (hstate : F.PPX_CAP_STAT_state.apart f = true)
    (hrecs : F.PPX_CAP_STAT_recs.apart f = true) : rd (capSettle (capRecord m j status bytes addr)) f = rd m f := by
  rw [rd_capSettle _ hstate, capRecord_eq, rd_wr_apart _ _ hrecs]
  rfl

/-- The record written in `m`, where the local store, its flags and the registers but PPX.CAP_USED are those of `s`. -/
theorem capRecord_settled {s m : State} (hlst : m.lst = s.lst) (hprot : m.ing.prot = s.ing.prot)
    (hregs : regsKept s m [F.PPX_CAP_USED_granules.off]) (j : CapJob) (status bytes addr : Nat) :
    CapRecorded s (capSettle (capRecord m j status bytes addr)) (capRecAt s) (capRecBytes j status bytes addr) := by
  have hrd (f : Fld) (hf : f.off ∉ [F.PPX_CAP_USED_granules.off]) : rd m f = rd s f := by rw [rd, hregs _ hf, rd]
  have hat : capRecAt m = capRecAt s := by
    unfold capRecAt
    rw [hrd _ (by decide), hrd _ (by decide), hrd _ (by decide)]
  have hst : (capSettle (capRecord m j status bytes addr)).lst = (lstKeep m (capRecAt s) (capRecBytes j status bytes addr)).lst := by
    rw [(capSettle_keeps _).1, capRecord_eq, hat, wr_lst]
  refine ⟨fun hfit => ?_, fun x hx => ?_, fun x hx => ?_, ?_⟩
  · have hback := lstRd_lstKeep m (capRecAt s) (capRecBytes j status bytes addr) (by rw [length_capRecBytes]; exact hfit)
    rw [length_capRecBytes, keepProt_congr hlst hprot (hrd _ (by decide))] at hback
    rw [lstRd, hst]
    exact hback
  · rw [hst, lstKeep_other _ _ _ _ (.inr (.inr hx)), hlst]
  · rw [hst, lstKeep_other _ _ _ _ (by rw [length_capRecBytes]; omega), hlst]
  · rw [rd_capSettle _ (by decide), capRecord_eq, rd_wr_same _ _ _ (by decide), hrd _ (by decide)]
    rfl

/-! The end of a capture (R250, R251) -/

/-- The oldest capture is no longer outstanding. -/
def capTaken (s : State) (rest : List CapJob) : State := { s with ppx.capJobs := rest }

theorem rd_capTaken (s : State) (rest : List CapJob) (f : Fld) : rd (capTaken s rest) f = rd s f := rfl

/-- Its segments are in the buffer from its first free granule on. -/
def capStored (s : State) (bs : List Byte) : State :=
  let t := gddrPut s 7 (capBase s + 64 * rd s F.PPX_CAP_USED_granules) bs
  wr t F.PPX_CAP_USED_granules (rd t F.PPX_CAP_USED_granules + (bs.length + 63) / 64)

theorem captureDone_over {s : State} {j : CapJob} {rest : List CapJob} (hjobs : s.ppx.capJobs = j :: rest) (hover : capOver s j = true) :
    captureDone s j.abandoned = capSettle (
      if j.refused then capRecord (capTaken s rest) j 2 0 0
      else capRecord (capStored (capTaken s rest) ((List.range 3).flatMap (capSegment s j))) j (b2n j.abandoned)
        ((List.range 3).flatMap (capSegment s j)).length (capBase s + 64 * rd s F.PPX_CAP_USED_granules)) := by
  unfold captureDone
  rw [hjobs]
  dsimp only
  rw [hover, bne_self_eq_false, Bool.not_true, Bool.or_false, if_neg Bool.false_ne_true]
  rfl

theorem captureDone_not_over {s : State} {a : Bool} (h : ∀ j rest, s.ppx.capJobs = j :: rest → capOver s j = false ∨ j.abandoned ≠ a) :
    captureDone s a = s := by
  unfold captureDone
  split
  · rfl
  next j rest hjobs =>
    refine if_pos ?_
    rcases h j rest hjobs with hover | hend
    · rw [hover]
      rfl
    · rw [bne_iff_ne.mpr hend, Bool.or_true]

/-- Segments change no other memory, and those that fit the capacity are stored as they are. -/
theorem capStored_keeps (s : State) (bs : List Byte) : (capStored s bs).lst = s.lst ∧ (capStored s bs).ing = s.ing ∧
    (capStored s bs).flash = s.flash ∧ (capStored s bs).nvm = s.nvm ∧ (capStored s bs).ppx = s.ppx ∧
    (capStored s bs).gddr = (gddrWr s 7 (capBase s + 64 * rd s F.PPX_CAP_USED_granules) bs).gddr := by
  have hput := gddrPut_frame s 7 (capBase s + 64 * rd s F.PPX_CAP_USED_granules) bs
  unfold capStored
  dsimp only
  generalize gddrPut s 7 (capBase s + 64 * rd s F.PPX_CAP_USED_granules) bs = t at hput
  rw [wr_lst, wr_ing, wr_flash, wr_nvm, wr_ppx, wr_gddr, hput]
  exact ⟨rfl, rfl, rfl, rfl, rfl, rfl⟩

theorem rdW_capStored {s : State} {bs : List Byte} (hfit : capBase s + 64 * rd s F.PPX_CAP_USED_granules + bs.length ≤ memCap s) (o : Nat) :
    rdW (capStored s bs) o = rdW (wr s F.PPX_CAP_USED_granules (rd s F.PPX_CAP_USED_granules + (bs.length + 63) / 64)) o := by
  obtain ⟨-, hreg, -⟩ := gddrWr_within s 7 _ bs hfit
  have hput : (gddrPut s 7 (capBase s + 64 * rd s F.PPX_CAP_USED_granules) bs).reg = s.reg := by rw [gddrPut_frame, hreg]
  unfold capStored
  dsimp only
  rw [rdW_wr, rdW_wr, rd_congr hput, rdW_congr hput, rdW_congr hput]

theorem exec_captureDone (s : State) (a : Bool) : exec (.captureDone a) s = .next (captureDone s a) := rfl

/-! Strobes of the backlight (R244, R245) -/

/-- The strobe is due: its word starts 33 bit times before its latch, and late where the interface is not free yet. -/
def strobeDue (s : State) (at_ : Nat) : State :=
  if at_ - 33 * blBit s < s.ppx.blFree then bump (reach s (at_ - 33 * blBit s)) F.PPX_BL_CNT_strobe_late else reach s (at_ - 33 * blBit s)

/-- The word is sent. -/
def strobeSent (s m : State) (q j : Nat) (o : Bool) : State :=
  { m with ppx := { s.ppx with
      blFree := max m.tick s.ppx.blFree + 32 * blBit s, blWord := blStrobe j o, blLat := max m.tick s.ppx.blFree + 33 * blBit s
      blDone := (q, j, o) :: s.ppx.blDone } }

theorem strobeDue_ppx (s : State) (at_ : Nat) : (strobeDue s at_).ppx = s.ppx := by unfold strobeDue; split <;> rfl

theorem strobeDue_tick (s : State) (at_ : Nat) : (strobeDue s at_).tick = max s.tick (at_ - 33 * blBit s) := by
  unfold strobeDue; split <;> rfl

theorem strobeDue_memKept (s : State) (at_ : Nat) : memKept s (strobeDue s at_) := by
  unfold strobeDue; split <;> exact ⟨rfl, rfl, rfl, rfl, rfl, rfl⟩

theorem strobeDue_regsKept (s : State) (at_ : Nat) : regsKept s (strobeDue s at_) [F.PPX_BL_CNT_strobe_late.off] := by
  unfold strobeDue
  split
  · exact regsKept_wr s F.PPX_BL_CNT_strobe_late _ (List.mem_singleton_self _)
  · exact fun _ _ => rfl

theorem strobeDue_count (s : State) (at_ : Nat) : rd (strobeDue s at_) F.PPX_BL_CNT_strobe_late =
    if at_ - 33 * blBit s < s.ppx.blFree then counted s F.PPX_BL_CNT_strobe_late else rd s F.PPX_BL_CNT_strobe_late := by
  unfold strobeDue
  split
  · exact rd_bump _ _ (by decide)
  · rfl

theorem backlightStrobe_some {s : State} {j : Nat} {o : Bool} {e : Nat × Nat × Nat × Bool} (h : strobeNext s j o = some e) :
    backlightStrobe s (allPasses s) j o = strobeSent s (strobeDue s e.1) e.2.1 j o := by
  unfold strobeNext at h
  unfold backlightStrobe
  rw [h]
  dsimp only
  have hsent : ∀ m : State, m.ppx = s.ppx → strobeSent s m e.2.1 j o = { m with ppx := { m.ppx with
      blFree := max m.tick m.ppx.blFree + 32 * blBit s, blWord := blStrobe j o, blLat := max m.tick m.ppx.blFree + 33 * blBit s
      blDone := (e.2.1, j, o) :: m.ppx.blDone } } := fun m hm => by rw [hm]; rfl
  rw [hsent _ (strobeDue_ppx s e.1)]
  rfl

theorem backlightStrobe_none {s : State} {j : Nat} {o : Bool} (h : strobeNext s j o = none) : backlightStrobe s (allPasses s) j o = s := by
  unfold strobeNext at h
  unfold backlightStrobe
  rw [h]

theorem exec_backlightStrobe (s : State) (j : Fin 128) (o : Bool) :
    exec (.backlightStrobe j o) s = .next (backlightStrobe s (allPasses s) j.val o) := rfl

/-! The statement's clauses -/

theorem capArm_effect (s : State) : rd (capArm s) F.PPX_CAP_STAT_state = 1 ∧ rd (capArm s) F.PPX_CAP_STAT_recs = 0 ∧
    rd (capArm s) F.PPX_CAP_USED_granules = 0 ∧
    (capArm s).ppx = { s.ppx with cap := some ⟨0, rd s F.PPX_CAP_CFG_count, false, s.tick⟩, capJobs := [] } ∧
    regsKept s (capArm s) [F.PPX_CAP_STAT_state.off, F.PPX_CAP_USED_granules.off] ∧
    capArm s = { s with reg := (capArm s).reg, ppx := (capArm s).ppx, cdc := (capArm s).cdc } := by
  obtain ⟨hstate, hrecs, hused⟩ := armShown_reads s
  have hregs := armShown_regsKept s
  have hppx : (armShown s).ppx = s.ppx := by rw [armShown_regOnly]
  rw [capArm_eq]
  exact ⟨(rd_armed ..).trans hstate, (rd_armed ..).trans hrecs, (rd_armed ..).trans hused, (armed_ppx ..).trans (by rw [hppx]),
    fun o ho => (rdW_congr (armed_reg ..) o).trans (hregs o ho),
    armed_of_regOnly (armShown_regOnly s) _⟩

theorem capEnded_effect (s : State) : (capEnded s).ppx.cap = none ∧ rd (capEnded s) F.PPX_CAP_STAT_state = 0 ∧
    regsKept s (capEnded s) [F.PPX_CAP_STAT_state.off] ∧ memKept s (capEnded s) :=
  ⟨rfl, rd_wr_same _ F.PPX_CAP_STAT_state 0 (by decide), regsKept_wr s F.PPX_CAP_STAT_state 0 (List.mem_singleton_self _),
    memKept_trans (t := { s with ppx.cap := none }) ⟨rfl, rfl, rfl, rfl, rfl, rfl⟩ (memKept_wr ..)⟩

/-- A refused pass that has been driven leaves its record alone. -/
theorem captureDone_refused {s : State} {j : CapJob} {rest : List CapJob} (hjobs : s.ppx.capJobs = j :: rest) (hover : capOver s j = true)
    (href : j.refused = true) : CapRecorded s (captureDone s j.abandoned) (capRecAt s) (capRecBytes j 2 0 0) ∧
    (captureDone s j.abandoned).ppx.capJobs = rest ∧ (captureDone s j.abandoned).gddr = s.gddr ∧
    (captureDone s j.abandoned).flash = s.flash ∧ (captureDone s j.abandoned).nvm = s.nvm := by
  rw [captureDone_over hjobs hover, if_pos href]
  obtain ⟨hgddr, hflash, hnvm, hrest⟩ := capRecord_settled_keeps (capTaken s rest) j 2 0 0
  exact ⟨capRecord_settled (s := s) (m := capTaken s rest) rfl rfl (fun _ _ => rfl) .., hrest, hgddr, hflash, hnvm⟩

/-- A captured pass, or as much of it as there is, has its segments in the buffer and its record. -/
theorem captureDone_captured {s : State} {j : CapJob} {rest : List CapJob} {a : Nat} {bs : List Byte} (hjobs : s.ppx.capJobs = j :: rest)
    (hover : capOver s j = true) (href : j.refused = false) (ha : a = capBase s + 64 * rd s F.PPX_CAP_USED_granules)
    (hbs : bs = (List.range 3).flatMap (capSegment s j)) (hfit : a + bs.length ≤ memCap s) :
    CapRecorded s (captureDone s j.abandoned) (capRecAt s) (capRecBytes j (b2n j.abandoned) bs.length a) ∧
    (captureDone s j.abandoned).ppx.capJobs = rest ∧ (captureDone s j.abandoned).gddr = (gddrWr s 7 a bs).gddr ∧
    (captureDone s j.abandoned).flash = s.flash ∧ (captureDone s j.abandoned).nvm = s.nvm ∧
    rd (captureDone s j.abandoned) F.PPX_CAP_USED_granules =
      (rd s F.PPX_CAP_USED_granules + (bs.length + 63) / 64) % 2 ^ F.PPX_CAP_USED_granules.w ∧
    rd (captureDone s j.abandoned) F.PPX_CAP_CNT_abandoned = rd s F.PPX_CAP_CNT_abandoned := by
  have hregs := rdW_capStored (s := capTaken s rest) (ha ▸ hfit)
  obtain ⟨hlst, hing, hflash, hnvm, hppx, hgddr⟩ := capStored_keeps (capTaken s rest) bs
  rw [captureDone_over hjobs hover, href, if_neg Bool.false_ne_true, ← hbs, ← ha]
  generalize capStored (capTaken s rest) bs = m at hregs hlst hing hflash hnvm hppx hgddr
  have hgddr' : m.gddr = (gddrWr s 7 a bs).gddr := by
    rw [hgddr, gddrWr_gddr, gddrWr_gddr, ha, memCap_congr (rd_capTaken s rest _) (rd_capTaken s rest _)]
    rfl
  have hregs' (o : Nat) : rdW m o = rdW (wr s F.PPX_CAP_USED_granules (rd s F.PPX_CAP_USED_granules + (bs.length + 63) / 64)) o := hregs o
  have hkept : regsKept s m [F.PPX_CAP_USED_granules.off] := fun o ho =>
    (hregs' o).trans (regsKept_wr s F.PPX_CAP_USED_granules _ (List.mem_singleton_self _) o ho)
  obtain ⟨hsgddr, hsflash, hsnvm, hsjobs⟩ := capRecord_settled_keeps m j (b2n j.abandoned) bs.length a
  refine ⟨capRecord_settled (s := s) hlst (by rw [hing]; rfl) hkept .., hsjobs.trans (by rw [hppx]; rfl), hsgddr.trans hgddr', hsflash.trans hflash,
    hsnvm.trans hnvm, ?_, ?_⟩
  · rw [rd_capRecord_settled _ _ _ _ _ (by decide) (by decide), rd, hregs', ← rd, rd_wr_same _ _ _ (by decide)]
  · rw [rd_capRecord_settled _ _ _ _ _ (by decide) (by decide), rd, hkept _ (by decide), ← rd]

theorem exec_ppxCrcRead {s : State} (h : hostAnswers s = true) (r : Fin 16) : exec (.ppxCrcRead r) s = .next (ppxCrcRead s r.val) :=
  congrArg Host.Outcome.next (hostAsk_up s (fun s => ppxCrcRead s r.val) h)

/-- Settles O28: each command has its effect alone, and the end of a capture is its segments, its record and the session's end in turn. What an
abandoned capture has of segments and counts is the model's choice (log entry 67). -/
theorem captureSessionsAndChecksums : Obligations.CaptureSessionsAndChecksums := by
  unfold Obligations.CaptureSessionsAndChecksums
  refine ⟨fun s hserved => ?_, fun s c hserved hc => ⟨fun hjobs => ?_, fun hjobs => ?_⟩,
    fun s j rest o hjobs hover ho => ⟨fun href hlive => ?_, fun a bs href ha hbs hfit => ?_⟩, fun s a hnone => ?_, fun s r hup => ?_,
    fun s j o e he => ?_, fun s j o hnone => ?_⟩
  · exact ⟨capArm s, exec_capArm_served hserved, capArm_effect s⟩
  · refine ⟨capStop s, exec_capStop_served hserved, ?_⟩
    rw [capStop_idle hc hjobs]
    exact capEnded_effect { s with ppx.cap := some { c with stop := true } }
  · rw [exec_capStop_served hserved, capStop_busy hc hjobs]
  · subst ho
    obtain ⟨⟨hbytes, hmailbox, hother, hcount⟩, hrest, hgddr, hflash, hnvm⟩ := captureDone_refused hjobs hover href
    exact ⟨_, exec_captureDone .., hrest, fun hfit => hbytes hfit, hmailbox, hcount, hother, hgddr, hflash, hnvm⟩
  · subst ho
    obtain ⟨⟨hbytes, hmailbox, hother, hcount⟩, hrest, hgddr, hflash, hnvm, hused, habandoned⟩ :=
      captureDone_captured hjobs hover href ha hbs hfit
    refine ⟨_, exec_captureDone .., hrest, ?_, fun x hx => ?_, hused, habandoned, fun hfit => hbytes hfit, hmailbox, hcount, hother, hflash, hnvm⟩
    · rw [gddrRd, hgddr]
      exact gddrRd_gddrWr s 7 a bs hfit
    · rw [hgddr, gddrWr_other s 7 a x bs hx]
  · rw [exec_captureDone, captureDone_not_over hnone]
  · exact ⟨_, exec_ppxCrcRead hup r, rd_wr_same s _ _ (by simp [F.PPX_CRC_TAG]), regsKept_wr s _ _ (List.mem_singleton_self _), rfl⟩
  · refine ⟨strobeSent s (strobeDue s e.1) e.2.1 j.val o, ?_, strobeDue_tick s e.1, rfl, rfl, rfl, rfl, strobeDue_count s e.1,
      strobeDue_regsKept s e.1, strobeDue_memKept s e.1⟩
    rw [exec_backlightStrobe, backlightStrobe_some he]
  · rw [exec_backlightStrobe, backlightStrobe_none hnone]

end Sys2Proof.Machine
end

section
namespace Sys2Proof.Machine

/-! Changes of the band (R227, R230) -/

/-- The registers that a change of the band writes. -/
def bandRegs : List Nat := [F.PPX_STATUS_band.off, F.PPX_CNT_BAND_changes.off]

/-- What a change of the band, or none, leaves alone; one posts an info record. -/
structure BandSet (s t : State) : Prop where
  edge : Edge bandRegs s t
  ppx : t.ppx = s.ppx
  noSensor : rd t F.PPX_STATUS_no_sensor = rd s F.PPX_STATUS_no_sensor
  post : bandNow t ≠ bandNow s → posted t clsInfo blkPPX 0 F.PPX_CNT_BAND_changes []

namespace BandSet

theorem refl (s : State) : BandSet s s := ⟨.refl _ s, rfl, rfl, fun h => absurd rfl h⟩

theorem trans {s t u : State} (h : BandSet s t) (h' : BandSet t u) : BandSet s u := by
  refine ⟨h.edge.trans h'.edge, h'.ppx.trans h.ppx, h'.noSensor.trans h.noSensor, fun hne => ?_⟩
  by_cases hu : bandNow u = bandNow t
  · exact h'.edge.posted (h.post (hu ▸ hne))
  · exact h'.post hu

end BandSet

theorem bandNow_lt (s : State) : bandNow s < 8 := Nat.mod_lt _ (by decide)

/-- A new band, shown and counted; the bank being built has its pattern. -/
def bandShown (s : State) (b : Nat) : State := bump (wr (freezeSub s) F.PPX_STATUS_band b) F.PPX_CNT_BAND_changes

theorem setBand_same (s : State) : setBand s (bandNow s) = s := if_pos rfl

theorem setBand_new {s : State} {b : Nat} (h : b ≠ bandNow s) :
    setBand s b = info (bandShown s b) blkPPX 0 F.PPX_CNT_BAND_changes := if_neg h

theorem freezeSub_edge (s : State) : Edge bandRegs s (freezeSub s) := by
  have h := freezeSub_frame s
  exact .of_time (by rw [TimeOnly, h]) (by rw [h]) (by rw [h])

theorem bandShown_edge (s : State) (b : Nat) : Edge bandRegs s (bandShown s b) :=
  ((freezeSub_edge s).trans (.wr _ _ _ (by decide))).trans (.bump _ _ (by decide))

theorem bandShown_reads (s : State) {b : Nat} (hb : b < 8) : bandNow (bandShown s b) = b ∧
    rd (bandShown s b) F.PPX_CNT_BAND_changes = counted s F.PPX_CNT_BAND_changes ∧
    rd (bandShown s b) F.PPX_STATUS_no_sensor = rd s F.PPX_STATUS_no_sensor := by
  have hfreeze (f : Fld) : rd (freezeSub s) f = rd s f := rd_congr (by rw [freezeSub_frame]) f
  unfold bandShown bandNow
  refine ⟨?_, ?_, ?_⟩
  · rw [rd_bump_other _ _ _ (by decide), rd_wr_same _ _ _ (by decide)]
    exact Nat.mod_eq_of_lt hb
  · rw [rd_bump _ _ (by decide), counted, rd_wr_apart _ _ (by decide), hfreeze, counted]
  · rw [rd_bump_other _ _ _ (by decide), rd_wr_apart _ _ (by decide), hfreeze]

theorem info_ppx (s : State) (b i : Nat) (f : Fld) (q : List (Nat × Nat)) : (info s b i f q).ppx = s.ppx := rfl

theorem bandShown_ppx (s : State) (b : Nat) : (bandShown s b).ppx = s.ppx := by
  rw [bandShown, bump_ppx, wr_ppx, freezeSub_frame]

theorem setBand_set (s : State) {b : Nat} (hb : b < 8) : BandSet s (setBand s b) := by
  by_cases h : b = bandNow s
  · rw [h, setBand_same]
    exact .refl s
  · obtain ⟨-, -, hno⟩ := bandShown_reads s hb
    rw [setBand_new h]
    exact ⟨(bandShown_edge s b).trans (.info ..), (info_ppx ..).trans (bandShown_ppx s b), (rd_info ..).trans hno, fun _ => posted_info ..⟩

theorem bandNow_setBand (s : State) {b : Nat} (hb : b < 8) : bandNow (setBand s b) = b := by
  by_cases h : b = bandNow s
  · rw [h, setBand_same]
  · rw [setBand_new h, bandNow, rd_info]
    exact (bandShown_reads s hb).1

theorem changes_setBand_new {s : State} {b : Nat} (hb : b < 8) (h : b ≠ bandNow s) :
    rd (setBand s b) F.PPX_CNT_BAND_changes = counted s F.PPX_CNT_BAND_changes := by
  obtain ⟨-, hcount, -⟩ := bandShown_reads s hb
  rw [setBand_new h, rd_info, hcount]

theorem changes_setBand (s : State) {b : Nat} (hb : b < 8) : rd (setBand s b) F.PPX_CNT_BAND_changes =
    if b = bandNow s then rd s F.PPX_CNT_BAND_changes else counted s F.PPX_CNT_BAND_changes := by
  split
  · next h => rw [h, setBand_same]
  · next h => exact changes_setBand_new hb h

/-- The thresholds are those of the four registers. -/
theorem bandThr_congr {s t : State} (h : ∀ o ∈ [F.PPX_TEMP_THR0.off, F.PPX_TEMP_THR1.off, F.PPX_TEMP_THR2.off, F.PPX_TEMP_THR3.off],
    rdW t o = rdW s o) (k : Nat) : bandThr t k = bandThr s k := by
  have hrd (f : Fld) (hf : f.off ∈ [F.PPX_TEMP_THR0.off, F.PPX_TEMP_THR1.off, F.PPX_TEMP_THR2.off, F.PPX_TEMP_THR3.off]) : rdS t f = rdS s f := by
    unfold rdS rd
    rw [h _ hf]
  unfold bandThr
  split <;> exact hrd _ (by decide)

theorem BandSet.thr {s t : State} (h : BandSet s t) (k : Nat) : bandThr t k = bandThr s k :=
  bandThr_congr (fun o ho => h.edge.regs o (by revert o; decide)) k

/-! The hysteresis (R230) -/

/-- A field holds no more than its width. -/
theorem rd_le_max (s : State) (f : Fld) : rd s f ≤ 2 ^ f.w - 1 := Nat.le_sub_one_of_lt (Nat.mod_lt _ (by positivity))

/-- The band goes up from here. -/
def bandUp (T : Int) (s : State) : Prop := bandNow s < 7 ∧ bandThr s (bandNow s + 1) + 24 ≤ T

/-- The band goes down from here. -/
def bandDown (T : Int) (s : State) : Prop := 0 < bandNow s ∧ T < bandThr s (bandNow s) - 24

/-- Neither rule holds here. -/
def bandSettled (T : Int) (s : State) : Prop := ¬ bandUp T s ∧ ¬ bandDown T s

theorem bandSteps_up {T : Int} {n : Nat} {s : State} (h : bandUp T s) : bandSteps T (n + 1) s = bandSteps T n (setBand s (bandNow s + 1)) := by
  obtain ⟨hb, hT⟩ := h
  rw [bandSteps]
  exact if_pos (by simp [hb, hT])

theorem bandSteps_down {T : Int} {n : Nat} {s : State} (hup : ¬ bandUp T s) (h : bandDown T s) :
    bandSteps T (n + 1) s = bandSteps T n (setBand s (bandNow s - 1)) := by
  obtain ⟨hb, hT⟩ := h
  rw [bandSteps]
  exact (if_neg (by simpa [bandUp] using hup)).trans (if_pos (by simp [hb, hT]))

theorem bandSteps_stay {T : Int} {n : Nat} {s : State} (hup : ¬ bandUp T s) (hdown : ¬ bandDown T s) : bandSteps T (n + 1) s = s := by
  rw [bandSteps]
  exact (if_neg (by simpa [bandUp] using hup)).trans (if_neg (by simpa [bandDown] using hdown))

/-- Every step between two bands held when it was taken, and each is counted. -/
structure BandMoved (T : Int) (s t : State) : Prop where
  set : BandSet s t
  up : ∀ k, bandNow s < k → k ≤ bandNow t → bandThr s k + 24 ≤ T
  down : ∀ k, bandNow t < k → k ≤ bandNow s → T < bandThr s k - 24
  count : rd t F.PPX_CNT_BAND_changes =
    min (rd s F.PPX_CNT_BAND_changes + (bandNow t - bandNow s) + (bandNow s - bandNow t)) (2 ^ F.PPX_CNT_BAND_changes.w - 1)

theorem BandMoved.refl (T : Int) (s : State) : BandMoved T s s := by
  refine ⟨.refl s, fun k h h' => absurd h' (by omega), fun k h h' => absurd h' (by omega), ?_⟩
  rw [Nat.sub_self, Nat.add_zero]
  exact (min_eq_left (rd_le_max s _)).symm

/-- A saturating count goes on from a saturated one. -/
theorem min_min_add (a x m : Nat) : min (min a m + x) m = min (a + x) m := by omega

/-- A step up comes before steps up. -/
theorem BandMoved.after_up {T : Int} {s t : State} (hup : bandUp T s) (h : BandMoved T (setBand s (bandNow s + 1)) t)
    (hle : bandNow s + 1 ≤ bandNow t) : BandMoved T s t := by
  obtain ⟨hb, hT⟩ := hup
  have hlt : bandNow s + 1 < 8 := by omega
  have hset := setBand_set s hlt
  have hnow := bandNow_setBand s hlt
  have hdist : bandNow t - (bandNow s + 1) + (bandNow s + 1 - bandNow t) + 1 = bandNow t - bandNow s + (bandNow s - bandNow t) := by omega
  have hcount := h.count
  rw [hnow, changes_setBand_new hlt (Nat.succ_ne_self _), counted, Nat.add_assoc, min_min_add, Nat.add_assoc, Nat.add_comm 1, hdist,
    ← Nat.add_assoc] at hcount
  refine ⟨hset.trans h.set, fun k hk hk' => ?_, fun k hk hk' => absurd (hk.trans_le hk') (Nat.lt_asymm hle), ?_⟩
  · rcases Nat.eq_or_lt_of_le hk with rfl | hk
    · exact hT
    · exact hset.thr k ▸ h.up k (by rw [hnow]; exact hk) hk'
  · exact hcount

/-- A step down comes before steps down. -/
theorem BandMoved.after_down {T : Int} {s t : State} (hdown : bandDown T s) (h : BandMoved T (setBand s (bandNow s - 1)) t)
    (hle : bandNow t ≤ bandNow s - 1) : BandMoved T s t := by
  obtain ⟨hb, hT⟩ := hdown
  have hlt : bandNow s - 1 < 8 := by have := bandNow_lt s; omega
  have hset := setBand_set s hlt
  have hnow := bandNow_setBand s hlt
  have hne : bandNow s - 1 ≠ bandNow s := by omega
  have hdist : bandNow t - (bandNow s - 1) + (bandNow s - 1 - bandNow t) + 1 = bandNow t - bandNow s + (bandNow s - bandNow t) := by omega
  have hcount := h.count
  rw [hnow, changes_setBand_new hlt hne, counted, Nat.add_assoc, min_min_add, Nat.add_assoc, Nat.add_comm 1, hdist,
    ← Nat.add_assoc] at hcount
  refine ⟨hset.trans h.set, fun k hk hk' => absurd (hk.trans_le (hk'.trans hle)) (Nat.not_lt.2 (Nat.sub_le _ 1)), fun k hk hk' => ?_, ?_⟩
  · rcases Nat.eq_or_lt_of_le hk' with rfl | hk'
    · exact hT
    · exact hset.thr k ▸ h.down k hk (by rw [hnow]; exact Nat.le_sub_one_of_lt hk')
  · exact hcount

/-- A step up leads to a band from which none leads down. -/
theorem not_bandDown_after_up {T : Int} {s : State} (h : bandUp T s) : ¬ bandDown T (setBand s (bandNow s + 1)) := by
  obtain ⟨hb, hT⟩ := h
  have hlt : bandNow s + 1 < 8 := by omega
  rintro ⟨-, hT'⟩
  rw [bandNow_setBand s hlt, (setBand_set s hlt).thr] at hT'
  omega

/-- A step down leads to a band from which none leads up. -/
theorem not_bandUp_after_down {T : Int} {s : State} (h : bandDown T s) : ¬ bandUp T (setBand s (bandNow s - 1)) := by
  obtain ⟨hb, hT⟩ := h
  have hlt : bandNow s - 1 < 8 := by have := bandNow_lt s; omega
  rintro ⟨-, hT'⟩
  rw [bandNow_setBand s hlt, (setBand_set s hlt).thr, Nat.sub_add_cancel hb] at hT'
  omega

/-- From a band that none of the rules leads down from, the steps lead up, as far as they hold. -/
theorem bandSteps_climb {T : Int} {n : Nat} {s : State} (hn : 8 ≤ n + bandNow s) (hdown : ¬ bandDown T s) :
    BandMoved T s (bandSteps T n s) ∧ bandNow s ≤ bandNow (bandSteps T n s) ∧ bandSettled T (bandSteps T n s) := by
  induction n generalizing s with
  | zero => exact absurd (bandNow_lt s) (by omega)
  | succ n ih =>
    by_cases hup : bandUp T s
    · have hnow := bandNow_setBand s (b := bandNow s + 1) (by have := hup.1; omega)
      rw [bandSteps_up hup]
      obtain ⟨hmoved, hle, hrest⟩ := ih (by omega) (not_bandDown_after_up hup)
      rw [hnow] at hle
      exact ⟨hmoved.after_up hup hle, by omega, hrest⟩
    · rw [bandSteps_stay hup hdown]
      exact ⟨.refl T s, le_refl _, hup, hdown⟩

/-- From a band that none of the rules leads up from, the steps lead down, as far as they hold. -/
theorem bandSteps_descend {T : Int} {n : Nat} {s : State} (hn : bandNow s < n) (hup : ¬ bandUp T s) :
    BandMoved T s (bandSteps T n s) ∧ bandNow (bandSteps T n s) ≤ bandNow s ∧ bandSettled T (bandSteps T n s) := by
  induction n generalizing s with
  | zero => exact absurd hn (by omega)
  | succ n ih =>
    by_cases hdown : bandDown T s
    · have hb : 0 < bandNow s := hdown.1
      have hnow := bandNow_setBand s (b := bandNow s - 1) (by have := bandNow_lt s; omega)
      rw [bandSteps_down hup hdown]
      obtain ⟨hmoved, hle, hrest⟩ := ih (by omega) (not_bandUp_after_down hdown)
      rw [hnow] at hle
      exact ⟨hmoved.after_down hdown hle, by omega, hrest⟩
    · rw [bandSteps_stay hup hdown]
      exact ⟨.refl T s, le_refl _, hup, hdown⟩

/-- Eight steps reach a band at which neither rule holds. -/
theorem bandSteps_settle (T : Int) (s : State) :
    BandMoved T s (bandSteps T 8 s) ∧ bandSettled T (bandSteps T 8 s) := by
  by_cases hup : bandUp T s
  · have hnow := bandNow_setBand s (b := bandNow s + 1) (by have := hup.1; omega)
    rw [bandSteps_up hup]
    obtain ⟨hmoved, hle, hrest⟩ := bandSteps_climb (n := 7) (by omega) (not_bandDown_after_up hup)
    rw [hnow] at hle
    exact ⟨hmoved.after_up hup hle, hrest⟩
  · obtain ⟨hmoved, -, hrest⟩ := bandSteps_descend (bandNow_lt s) hup
    exact ⟨hmoved, hrest⟩

theorem bandAt_lt (s : State) (T : Int) : bandAt s T < 8 := by
  have hmem (l : List Nat) (hl : ∀ b ∈ l, b < 8) : l.getLastD 0 < 8 := by
    cases l with
    | nil => decide
    | cons b r =>
      rw [List.getLastD_cons]
      exact hl _ List.getLastD_mem_cons
  exact hmem _ fun b hb => List.mem_range.1 (List.mem_filter.1 hb).1

theorem bandAt_congr {s t : State} (h : ∀ k, bandThr t k = bandThr s k) (T : Int) : bandAt t T = bandAt s T := by
  unfold bandAt
  simp only [h]

/-! Time without a sensor (R231) -/

/-- The fallback of R231 is taken, the clock having reached its time. -/
def fallenBack (s : State) (t0 : Nat) : State :=
  { reach s (t0 + rd s F.PPX_TEMP_CFG_fail * Config.tickHz) with ppx.fellBack := true }

theorem sensorFailTimeout_first {s : State} {t0 : Nat} (h : s.ppx.noSince = some t0) (hf : s.ppx.fellBack = false) : sensorFailTimeout s =
    warning (setBand (fallenBack s t0) (rd s F.PPX_TEMP_CFG_fb_band)) blkPPX 0 F.PPX_TEMP_CFG_fb_band := by
  unfold sensorFailTimeout
  rw [h]
  dsimp only
  rw [hf, if_neg Bool.false_ne_true]
  rfl

theorem sensorFailTimeout_again {s : State} {t0 : Nat} (h : s.ppx.noSince = some t0) (hf : s.ppx.fellBack = true) : sensorFailTimeout s = s := by
  unfold sensorFailTimeout
  rw [h]
  exact if_pos hf

theorem sensorFailTimeout_none {s : State} (h : s.ppx.noSince = none) : sensorFailTimeout s = s := by
  unfold sensorFailTimeout
  rw [h]

theorem Edge.warning {offs : List Nat} (s : State) (b i : Nat) (f : Fld) (q : List (Nat × Nat)) : Edge offs s (warning s b i f q) :=
  ⟨rfl, fun _ _ => rfl, fun _ h => (mem_insRec _ _ _).2 (.inr h)⟩

theorem fallenBack_later (s : State) (t0 : Nat) : Later bandRegs s (fallenBack s t0) := .of_time rfl rfl rfl

end Sys2Proof.Machine
end

section
namespace Sys2Proof.Machine

/-! Sensors (R228, R229) -/

/-- A sensor that is not enabled. -/
def noSns : Sns := ⟨false, 0, false⟩

/-- Sensor `i` as panel processing holds it. -/
def sensorAt (s : State) (i : Nat) : Sns := s.ppx.sns.getD i noSns

theorem testBit_validBits (l : List Sns) (i : Nat) : (l.foldr (fun e a => 2 * a + b2n e.valid) 0).testBit i = (l.getD i noSns).valid := by
  induction l generalizing i with
  | nil => simp [noSns]
  | cons e l ih =>
    have hbit : b2n e.valid < 2 := by unfold b2n; split <;> decide
    rw [List.foldr_cons]
    cases i with
    | zero =>
      rw [Nat.testBit_zero, List.getD_cons_zero, Nat.mul_add_mod, Nat.mod_eq_of_lt hbit]
      cases e.valid <;> rfl
    | succ i =>
      rw [Nat.testBit_succ, List.getD_cons_succ, ← ih i]
      congr 1
      omega

/-- PPX.SNS_VALID shows which of the 16 sensors are valid. -/
structure SensorsShown (s : State) : Prop where
  count : s.ppx.sns.length = 16
  valid : ∀ i, i < 16 → (rd s F.PPX_SNS_VALID_valid).testBit i = (sensorAt s i).valid

theorem SensorsShown.congr {s t : State} (h : SensorsShown s) (hsns : t.ppx.sns = s.ppx.sns)
    (hrd : rd t F.PPX_SNS_VALID_valid = rd s F.PPX_SNS_VALID_valid) : SensorsShown t := by
  obtain ⟨hcount, hvalid⟩ := h
  refine ⟨hsns ▸ hcount, fun i hi => ?_⟩
  rw [hrd, hvalid i hi, sensorAt, sensorAt, hsns]

theorem snsBits_shown {s : State} (h : s.ppx.sns.length = 16) : SensorsShown (snsBits s) := by
  refine ⟨h, fun i hi => ?_⟩
  rw [snsBits, rd_wr_same _ _ _ (by decide), Nat.testBit_mod_two_pow, testBit_validBits, decide_eq_true (show i < F.PPX_SNS_VALID_valid.w from hi)]
  exact Bool.true_and _

theorem snsBits_edge (s : State) : Edge [F.PPX_SNS_VALID_valid.off] s (snsBits s) := .wr _ _ _ (List.mem_singleton_self _)

theorem snsBits_ppx (s : State) : (snsBits s).ppx = s.ppx := rfl

/-! One sensor's read (R229) -/

/-- Sensor `i` is now `e`. -/
def putSensor (s : State) (i : Nat) (e : Sns) : State := { s with ppx.sns := s.ppx.sns.set i e }

/-- A change of a sensor's validity is shown and posts an info record. -/
def noteValidity (changed : Bool) (s : State) (i : Nat) : State :=
  if changed then info (snsBits s) blkPPX i F.PPX_SNS_VALID_valid else s

theorem snsRead_off (reads : List SnsRead) {s : State} {i : Nat} (h : on s (F.PPX_SNS_en i) = false) : snsRead reads s i = s := by
  unfold snsRead
  rw [h]
  rfl

theorem snsRead_good {reads : List SnsRead} {s : State} {i : Nat} {v : Int} (h : on s (F.PPX_SNS_en i) = true)
    (hv : snsTemp (reads.getD i none) = some v) : snsRead reads s i =
      noteValidity (!(sensorAt s i).valid) (putSensor (wrS s (F.PPX_SNS_temp i) v) i ⟨true, 0, true⟩) i := by
  unfold snsRead
  rw [if_neg (by rw [h]; decide), hv]
  show (if (sensorAt s i).valid = true then putSensor (wrS s (F.PPX_SNS_temp i) v) i ⟨true, 0, true⟩
    else info (snsBits (putSensor (wrS s (F.PPX_SNS_temp i) v) i ⟨true, 0, true⟩)) blkPPX i F.PPX_SNS_VALID_valid) = _
  cases (sensorAt s i).valid <;> rfl

/-- A failed read: the third in a row drops a valid sensor. -/
def failedSns (e : Sns) : Sns := { e with valid := e.valid && decide (e.fails + 1 < 3), fails := e.fails + 1 }

theorem failedSns_third {e : Sns} (h : 3 ≤ e.fails + 1) : failedSns e = ⟨false, e.fails + 1, e.good⟩ := by
  rw [failedSns, decide_eq_false (by omega), Bool.and_false]

theorem failedSns_kept {e : Sns} (h : (e.valid && decide (3 ≤ e.fails + 1)) = false) : failedSns e = { e with fails := e.fails + 1 } := by
  have hvalid : (e.valid && decide (e.fails + 1 < 3)) = e.valid := by
    cases hv : e.valid
    · rfl
    · rw [hv, Bool.true_and, decide_eq_false_iff_not] at h
      rw [Bool.true_and, decide_eq_true (by omega)]
  rw [failedSns, hvalid]

theorem snsRead_failed {reads : List SnsRead} {s : State} {i : Nat} (h : on s (F.PPX_SNS_en i) = true)
    (hv : snsTemp (reads.getD i none) = none) : snsRead reads s i =
      noteValidity ((sensorAt s i).valid && decide (3 ≤ (sensorAt s i).fails + 1))
        (putSensor (bump s F.PPX_CNT_SNSFAIL_reads) i (failedSns (sensorAt s i))) i := by
  unfold snsRead
  rw [if_neg (by rw [h]; decide), hv]
  show (if ((sensorAt s i).valid && decide (3 ≤ (sensorAt s i).fails + 1)) = true then
      info (snsBits (putSensor (bump s F.PPX_CNT_SNSFAIL_reads) i ⟨false, (sensorAt s i).fails + 1, (sensorAt s i).good⟩)) blkPPX i
        F.PPX_SNS_VALID_valid
    else putSensor (bump s F.PPX_CNT_SNSFAIL_reads) i { sensorAt s i with fails := (sensorAt s i).fails + 1 }) = _
  cases hdrop : (sensorAt s i).valid && decide (3 ≤ (sensorAt s i).fails + 1)
  · rw [failedSns_kept hdrop]
    rfl
  · rw [Bool.and_eq_true, decide_eq_true_eq] at hdrop
    rw [failedSns_third hdrop.2]
    rfl

/-- What is stored of one sensor changes no other; a changed validity is shown and posted. -/
structure SensorNoted (s t : State) (i : Nat) (e : Sns) : Prop where
  edge : Edge [F.PPX_SNS_VALID_valid.off] s t
  ppx : t.ppx = { s.ppx with sns := t.ppx.sns }
  shown : SensorsShown t
  self : sensorAt t i = e
  others : ∀ k, k ≠ i → sensorAt t k = sensorAt s k
  post : (sensorAt s i).valid ≠ e.valid → posted t clsInfo blkPPX i F.PPX_SNS_VALID_valid []

theorem sensorAt_putSensor (s : State) {i : Nat} (hi : i < s.ppx.sns.length) (e : Sns) (k : Nat) :
    sensorAt (putSensor s i e) k = if k = i then e else sensorAt s k := by
  unfold sensorAt putSensor
  rw [List.getD_eq_getElem?_getD, List.getD_eq_getElem?_getD, List.getElem?_set]
  by_cases hk : k = i
  · rw [if_pos hk.symm, if_pos hi, if_pos hk, Option.getD_some]
  · rw [if_neg (Ne.symm hk), if_neg hk]

theorem noteValidity_edge (changed : Bool) (s : State) (i : Nat) : Edge [F.PPX_SNS_VALID_valid.off] s (noteValidity changed s i) := by
  unfold noteValidity
  split
  · exact (snsBits_edge s).trans (.info ..)
  · exact .refl _ s

theorem noteValidity_ppx (changed : Bool) (s : State) (i : Nat) : (noteValidity changed s i).ppx = s.ppx := by
  unfold noteValidity
  split
  · rw [info_ppx, snsBits_ppx]
  · rfl

theorem noteValidity_noted {s : State} (h : SensorsShown s) {i : Nat} (hi : i < 16) {e : Sns} {changed : Bool}
    (hkept : changed = false → e.valid = (sensorAt s i).valid) : SensorNoted s (noteValidity changed (putSensor s i e) i) i e := by
  have hlen : i < s.ppx.sns.length := h.count ▸ hi
  have hppx := noteValidity_ppx changed (putSensor s i e) i
  have hat (k : Nat) : sensorAt (noteValidity changed (putSensor s i e) i) k = if k = i then e else sensorAt s k := by
    rw [sensorAt, hppx]
    exact sensorAt_putSensor s hlen e k
  have hput : Edge [F.PPX_SNS_VALID_valid.off] s (putSensor s i e) := .of_time rfl rfl rfl
  have hcount : (putSensor s i e).ppx.sns.length = 16 := (List.length_set ..).trans h.count
  refine ⟨hput.trans (noteValidity_edge ..), by rw [hppx]; rfl, ?_, by rw [hat, if_pos rfl], fun k hk => by rw [hat, if_neg hk], fun hne => ?_⟩
  · cases changed
    · refine ⟨hcount, fun k hk => ?_⟩
      rw [hat]
      refine (h.valid k hk).trans ?_
      split
      · next hki => rw [hki, hkept rfl]
      · rfl
    · exact (snsBits_shown hcount).congr (by rw [noteValidity, if_pos rfl, info_ppx]) (by rw [noteValidity, if_pos rfl, rd_info])
  · cases changed
    · exact absurd (hkept rfl).symm hne
    · exact posted_info ..

/-- The registers that a read of sensor `i` writes. -/
def readRegs (i : Nat) : List Nat := [F.PPX_CNT_SNSFAIL_reads.off, F.PPX_SNS_VALID_valid.off, (F.PPX_SNS_temp i).off]

/-- Sensor `i` is valid after a read (R229): the read is good, or it was valid and this is not its third failure in a row. -/
def staysValid (reads : List SnsRead) (e : Sns) (i : Nat) : Bool :=
  (snsTemp (reads.getD i none)).isSome || (e.valid && decide (e.fails + 1 < 3))

/-- What the turn of sensor `i` in a cycle changes. -/
structure SensorTurn (reads : List SnsRead) (s t : State) (i : Nat) : Prop where
  edge : Edge (readRegs i) s t
  ppx : t.ppx = { s.ppx with sns := t.ppx.sns }
  shown : SensorsShown t
  valid : (sensorAt t i).valid = if on s (F.PPX_SNS_en i) then staysValid reads (sensorAt s i) i else (sensorAt s i).valid
  others : ∀ k, k ≠ i → sensorAt t k = sensorAt s k
  enabled : on t (F.PPX_SNS_en i) = on s (F.PPX_SNS_en i)
  temp : on s (F.PPX_SNS_en i) = true → rdS t (F.PPX_SNS_temp i) = (snsTemp (reads.getD i none)).getD (rdS s (F.PPX_SNS_temp i))
  fails : rd t F.PPX_CNT_SNSFAIL_reads = if on s (F.PPX_SNS_en i) && (snsTemp (reads.getD i none)).isNone then
    counted s F.PPX_CNT_SNSFAIL_reads else rd s F.PPX_CNT_SNSFAIL_reads
  post : (sensorAt s i).valid ≠ (sensorAt t i).valid → posted t clsInfo blkPPX i F.PPX_SNS_VALID_valid []

theorem ne_sns_off {i o : Nat} (hi : i < 16) (ho : o < 0x80080 ∨ 0x800C0 ≤ o) : o ≠ (F.PPX_SNS_temp i).off := by
  show o ≠ 0x80080 + 4 * i
  omega

theorem sns_off_notMem {i : Nat} {offs : List Nat} (hi : i < 16) (h : ∀ o ∈ offs, o < 0x80080 ∨ 0x800C0 ≤ o) :
    (F.PPX_SNS_temp i).off ∉ offs :=
  fun hmem => ne_sns_off hi (h _ hmem) rfl

theorem sns_off_inj {i k : Nat} (h : (F.PPX_SNS_temp k).off = (F.PPX_SNS_temp i).off) : k = i := by
  have h : 0x80080 + 4 * k = 0x80080 + 4 * i := h
  omega

theorem snsTemp_range {r : SnsRead} {v : Int} (h : snsTemp r = some v) : -2 ^ 15 ≤ v ∧ v < 2 ^ 15 := by
  unfold snsTemp at h
  split at h
  · dsimp only at h
    split at h
    · exact absurd h (by simp)
    · next hrange =>
      rw [Bool.or_eq_true, decide_eq_true_eq, decide_eq_true_eq, not_or] at hrange
      have hv := Option.some.inj h
      omega
  · exact absurd h (by simp)

theorem sensorAt_congr {s t : State} (h : t.ppx = s.ppx) (i : Nat) : sensorAt t i = sensorAt s i := by rw [sensorAt, h, sensorAt]

theorem snsRead_turn_off (reads : List SnsRead) {s : State} (h : SensorsShown s) {i : Nat} (hoff : on s (F.PPX_SNS_en i) = false) :
    SensorTurn reads s (snsRead reads s i) i := by
  rw [snsRead_off reads hoff]
  refine ⟨.refl _ s, rfl, h, by rw [hoff]; rfl, fun _ _ => rfl, rfl, fun hon => ?_, by rw [hoff]; rfl, fun hne => absurd rfl hne⟩
  rw [hoff] at hon
  exact absurd hon Bool.false_ne_true

theorem snsRead_turn_good {reads : List SnsRead} {s : State} (h : SensorsShown s) {i : Nat} (hi : i < 16) {v : Int}
    (hon : on s (F.PPX_SNS_en i) = true) (hv : snsTemp (reads.getD i none) = some v) : SensorTurn reads s (snsRead reads s i) i := by
  have hat (k : Nat) : sensorAt (wrS s (F.PPX_SNS_temp i) v) k = sensorAt s k := sensorAt_congr (wrS_ppx ..) k
  have hother (f : Fld) (hf : f.off < 0x80080 ∨ 0x800C0 ≤ f.off) : rd (wrS s (F.PPX_SNS_temp i) v) f = rd s f :=
    rd_wr_other s _ _ _ (ne_sns_off hi hf)
  have hshown : SensorsShown (wrS s (F.PPX_SNS_temp i) v) := h.congr (by rw [wrS_ppx]) (hother _ (by decide))
  have hnoted : SensorNoted _ (noteValidity (!(sensorAt s i).valid) (putSensor (wrS s (F.PPX_SNS_temp i) v) i ⟨true, 0, true⟩) i) i _ :=
    noteValidity_noted hshown hi (fun hk => by rw [hat, Bool.not_eq_eq_eq_not.1 hk]; rfl)
  have hen : on (wrS s (F.PPX_SNS_temp i) v) (F.PPX_SNS_en i) = on s (F.PPX_SNS_en i) := by
    unfold on
    rw [wrS, rd_wr_disjoint _ (F.PPX_SNS_temp i) (F.PPX_SNS_en i) _ (le_refl 32) (.inl (le_refl 16))]
  rw [snsRead_good hon hv]
  generalize noteValidity (!(sensorAt s i).valid) (putSensor (wrS s (F.PPX_SNS_temp i) v) i ⟨true, 0, true⟩) i = t at hnoted
  have hedge := hnoted.edge
  refine ⟨(Edge.wrS s _ v (by simp [readRegs])).trans (hedge.mono (by simp [readRegs])), ?_, hnoted.shown, ?_, fun k hk => ?_, ?_, fun _ => ?_, ?_,
    fun hne => hnoted.post ?_⟩
  · rw [hnoted.ppx, wrS_ppx]
  · rw [hnoted.self, hon, if_pos rfl, staysValid, hv]
    rfl
  · rw [hnoted.others k hk, hat]
  · rw [← hen]
    exact congrArg (· != 0) (hedge.rd (F.PPX_SNS_en i) (sns_off_notMem hi (by decide)))
  · obtain ⟨hlo, hhi⟩ := snsTemp_range hv
    rw [hedge.rdS _ (sns_off_notMem hi (by decide)), rdS_wrS_same _ _ _ (le_refl 32) (by decide : 0 < 16) hlo hhi, hv]
    rfl
  · rw [hedge.rd _ (by decide), hother _ (by decide), hv, Option.isNone_some, Bool.and_false, if_neg Bool.false_ne_true]
  · rw [hat, ← hnoted.self]
    exact hne

theorem snsRead_turn_failed {reads : List SnsRead} {s : State} (h : SensorsShown s) {i : Nat} (hi : i < 16)
    (hon : on s (F.PPX_SNS_en i) = true) (hv : snsTemp (reads.getD i none) = none) : SensorTurn reads s (snsRead reads s i) i := by
  have hat (k : Nat) : sensorAt (bump s F.PPX_CNT_SNSFAIL_reads) k = sensorAt s k := sensorAt_congr (bump_ppx ..) k
  have hshown : SensorsShown (bump s F.PPX_CNT_SNSFAIL_reads) := h.congr (by rw [bump_ppx]) (rd_bump_other _ _ _ (by decide))
  have hnoted : SensorNoted _ (noteValidity ((sensorAt s i).valid && decide (3 ≤ (sensorAt s i).fails + 1))
      (putSensor (bump s F.PPX_CNT_SNSFAIL_reads) i (failedSns (sensorAt s i))) i) i _ :=
    noteValidity_noted hshown hi (fun hk => by rw [hat, failedSns_kept hk])
  rw [snsRead_failed hon hv]
  generalize noteValidity ((sensorAt s i).valid && decide (3 ≤ (sensorAt s i).fails + 1))
    (putSensor (bump s F.PPX_CNT_SNSFAIL_reads) i (failedSns (sensorAt s i))) i = t at hnoted
  have hedge := (Edge.bump (offs := readRegs i) s F.PPX_CNT_SNSFAIL_reads (by simp [readRegs])).trans (hnoted.edge.mono (by simp [readRegs]))
  have hsns : (F.PPX_SNS_temp i).off ∉ [F.PPX_SNS_VALID_valid.off] := sns_off_notMem hi (by decide)
  have hsns' : (F.PPX_SNS_temp i).off ≠ F.PPX_CNT_SNSFAIL_reads.off := (ne_sns_off hi (by decide)).symm
  refine ⟨hedge, ?_, hnoted.shown, ?_, fun k hk => ?_, ?_, fun _ => ?_, ?_, fun hne => hnoted.post ?_⟩
  · rw [hnoted.ppx, bump_ppx]
  · rw [hnoted.self, hon, if_pos rfl, staysValid, hv]
    rfl
  · rw [hnoted.others k hk, hat]
  · unfold on
    rw [hnoted.edge.rd (F.PPX_SNS_en i) hsns, rd_bump_other _ _ (F.PPX_SNS_en i) hsns']
  · rw [hnoted.edge.rdS _ hsns, rdS, rd_bump_other _ _ _ hsns', ← rdS, hv]
    rfl
  · rw [hnoted.edge.rd _ (by decide), rd_bump _ _ (by decide), hon, hv]
    rfl
  · rw [hat, ← hnoted.self]
    exact hne

theorem snsRead_turn (reads : List SnsRead) {s : State} (h : SensorsShown s) {i : Nat} (hi : i < 16) :
    SensorTurn reads s (snsRead reads s i) i := by
  cases hon : on s (F.PPX_SNS_en i)
  · exact snsRead_turn_off reads h hon
  · cases hv : snsTemp (reads.getD i none) with
    | none => exact snsRead_turn_failed h hi hon hv
    | some v => exact snsRead_turn_good h hi hon hv

/-! All sensors' reads (R229) -/

/-- The registers that the reads of a cycle write. -/
def cycleReadRegs : List Nat := [F.PPX_CNT_SNSFAIL_reads.off, F.PPX_SNS_VALID_valid.off] ++ (List.range 16).map (fun i => (F.PPX_SNS_temp i).off)

/-- The failed reads of the first `n` sensors. -/
def failedReads (s : State) (reads : List SnsRead) (n : Nat) : Nat :=
  ((List.range n).filter (fun i => on s (F.PPX_SNS_en i) && (snsTemp (reads.getD i none)).isNone)).length

/-- What the turns of the first `n` sensors change. -/
structure SensorTurns (reads : List SnsRead) (s t : State) (n : Nat) : Prop where
  edge : Edge cycleReadRegs s t
  ppx : t.ppx = { s.ppx with sns := t.ppx.sns }
  shown : SensorsShown t
  valid : ∀ i, i < n → (sensorAt t i).valid = if on s (F.PPX_SNS_en i) then staysValid reads (sensorAt s i) i else (sensorAt s i).valid
  waiting : ∀ i, n ≤ i → i < 16 → sensorAt t i = sensorAt s i ∧ rdS t (F.PPX_SNS_temp i) = rdS s (F.PPX_SNS_temp i)
  enabled : ∀ i, i < 16 → on t (F.PPX_SNS_en i) = on s (F.PPX_SNS_en i)
  temp : ∀ i, i < n → on s (F.PPX_SNS_en i) = true →
    rdS t (F.PPX_SNS_temp i) = (snsTemp (reads.getD i none)).getD (rdS s (F.PPX_SNS_temp i))
  fails : rd t F.PPX_CNT_SNSFAIL_reads = min (rd s F.PPX_CNT_SNSFAIL_reads + failedReads s reads n) (2 ^ F.PPX_CNT_SNSFAIL_reads.w - 1)
  post : ∀ i, i < n → (sensorAt s i).valid ≠ (sensorAt t i).valid → posted t clsInfo blkPPX i F.PPX_SNS_VALID_valid []

theorem failedReads_succ (s : State) (reads : List SnsRead) (n : Nat) : failedReads s reads (n + 1) =
    failedReads s reads n + b2n (on s (F.PPX_SNS_en n) && (snsTemp (reads.getD n none)).isNone) := by
  unfold failedReads
  rw [List.range_succ, List.filter_append, List.length_append, List.filter_singleton]
  cases on s (F.PPX_SNS_en n) && (snsTemp (reads.getD n none)).isNone <;> rfl

theorem SensorTurns.succ {reads : List SnsRead} {s t : State} {n : Nat} (hn : n < 16) (h : SensorTurns reads s t n) :
    SensorTurns reads s (snsRead reads t n) (n + 1) := by
  have hturn := snsRead_turn reads h.shown hn
  generalize snsRead reads t n = u at hturn
  obtain ⟨hat, htemp⟩ := h.waiting n (le_refl n) hn
  have hen := h.enabled n hn
  have hregs : ∀ o ∈ readRegs n, o ∈ cycleReadRegs := by
    have hmem : (F.PPX_SNS_temp n).off ∈ (List.range 16).map (fun i => (F.PPX_SNS_temp i).off) :=
      List.mem_map.2 ⟨n, List.mem_range.2 hn, rfl⟩
    intro o ho
    simp only [readRegs, List.mem_cons, List.not_mem_nil, or_false] at ho
    rcases ho with rfl | rfl | rfl
    · exact List.mem_cons_self
    · exact List.mem_cons_of_mem _ List.mem_cons_self
    · exact List.mem_append_right _ hmem
  have hother (i : Nat) (hi : i < 16) (hne : i ≠ n) : (F.PPX_SNS_temp i).off ∉ readRegs n := by
    simp only [readRegs, List.mem_cons, List.not_mem_nil, or_false, not_or]
    exact ⟨(ne_sns_off hi (by decide)).symm, (ne_sns_off hi (by decide)).symm, fun ho => hne (sns_off_inj ho)⟩
  refine ⟨h.edge.trans (hturn.edge.mono hregs), ?_, hturn.shown, fun i hi => ?_, fun i hi hi' => ?_, fun i hi => ?_, fun i hi hon => ?_, ?_,
    fun i hi hne => ?_⟩
  · rw [hturn.ppx, h.ppx]
  · rcases Nat.lt_succ_iff_lt_or_eq.1 hi with hi | rfl
    · rw [hturn.others i hi.ne, h.valid i hi]
    · rw [hturn.valid, hen, hat]
  · have hne : i ≠ n := by omega
    obtain ⟨hwait, hwait'⟩ := h.waiting i (by omega) hi'
    exact ⟨(hturn.others i hne).trans hwait, (hturn.edge.rdS _ (hother i hi' hne)).trans hwait'⟩
  · by_cases hne : i = n
    · rw [hne, hturn.enabled, hen]
    · rw [← h.enabled i hi]
      exact congrArg (· != 0) (hturn.edge.rd (F.PPX_SNS_en i) (hother i hi hne))
  · rcases Nat.lt_succ_iff_lt_or_eq.1 hi with hi | rfl
    · rw [hturn.edge.rdS _ (hother i (hi.trans hn) hi.ne), h.temp i hi hon]
    · rw [hturn.temp (hen.trans hon), htemp]
  · rw [hturn.fails, hen, failedReads_succ, counted, h.fails]
    cases on s (F.PPX_SNS_en n) && (snsTemp (reads.getD n none)).isNone
    · rfl
    · exact min_min_add ..
  · rcases Nat.lt_succ_iff_lt_or_eq.1 hi with hi | rfl
    · rw [hturn.others i hi.ne] at hne
      exact hturn.edge.posted (h.post i hi hne)
    · exact hturn.post (by rw [hat]; exact hne)

end Sys2Proof.Machine
end

section
namespace Sys2Proof.Machine

/-! The start of a cycle: sensors whose enable is 0 are not valid (R229), and the time without a sensor begins (R231) -/

theorem anyValid_iff {s : State} (h : s.ppx.sns.length = 16) : anyValid s = true ↔ ∃ i, i < 16 ∧ (sensorAt s i).valid = true := by
  have hget (i : Nat) (hi : i < s.ppx.sns.length) : sensorAt s i = s.ppx.sns[i] := List.getD_eq_getElem _ _ hi
  unfold anyValid
  rw [List.any_eq_true]
  constructor
  · rintro ⟨e, he, hvalid⟩
    obtain ⟨i, hi, rfl⟩ := List.mem_iff_getElem.1 he
    exact ⟨i, h ▸ hi, by rw [hget i hi, hvalid]⟩
  · rintro ⟨i, hi, hvalid⟩
    have hi : i < s.ppx.sns.length := h ▸ hi
    exact ⟨_, List.getElem_mem hi, by rw [← hget i hi, hvalid]⟩

/-- The seconds of R231 count, and the next valid sensor is a first one. -/
def waitsForSensor (m : State) : State :=
  { m with ppx := { m.ppx with fresh := true, noSince := some (m.ppx.noSince.getD m.tick) } }

theorem waitsForSensor_edge {offs : List Nat} (m : State) : Edge offs m (waitsForSensor m) := .of_time rfl rfl rfl

theorem rd_waitsForSensor (m : State) (f : Fld) : rd (waitsForSensor m) f = rd m f := rfl

/-- With no valid sensor PPX.STATUS says so. -/
def noneValid (s : State) : State := waitsForSensor (wrB s F.PPX_STATUS_no_sensor true)

theorem noSensor_eq (s : State) : noSensor s = if anyValid s then s else noneValid s := rfl

theorem noneValid_edge (s : State) : Edge [F.PPX_STATUS_band.off] s (noneValid s) :=
  (Edge.wrB s F.PPX_STATUS_no_sensor true (by decide)).trans (waitsForSensor_edge _)

theorem bandNow_noneValid (s : State) : bandNow (noneValid s) = bandNow s := by
  rw [bandNow, noneValid, rd_waitsForSensor, wrB, rd_wr_apart _ _ (by decide), bandNow]

theorem noSensor_noneValid (s : State) : rd (noneValid s) F.PPX_STATUS_no_sensor = 1 := by
  rw [noneValid, rd_waitsForSensor, rd_wrB_same _ _ _ (by decide) (by decide), if_pos rfl]

theorem noneValid_ppx (s : State) : (noneValid s).ppx = { s.ppx with fresh := true, noSince := (noneValid s).ppx.noSince } := by
  unfold noneValid
  have hppx : (wrB s F.PPX_STATUS_no_sensor true).ppx = s.ppx := wrB_ppx ..
  generalize wrB s F.PPX_STATUS_no_sensor true = m at hppx
  rw [waitsForSensor, hppx]

/-- The sensors are those of a list. -/
def setSensors (s : State) (l : List Sns) : State := { s with ppx.sns := l }

theorem setSensors_edge {offs : List Nat} (s : State) (l : List Sns) : Edge offs s (setSensors s l) := .of_time rfl rfl rfl

theorem setSensors_ppx (s : State) (l : List Sns) : (setSensors s l).ppx = { s.ppx with sns := l } := rfl

/-- Sensors whose enable is 0 are not valid, and PPX.SNS_VALID shows it. -/
def snsSynced (s : State) : State :=
  snsBits (setSensors s ((List.range 16).map (fun i => if on s (F.PPX_SNS_en i) then sensorAt s i else noSns)))

theorem snsSync_eq (s : State) : snsSync s = if anyValid s then noSensor (snsSynced s) else snsSynced s := rfl

theorem snsSynced_shown (s : State) : SensorsShown (snsSynced s) := 
  snsBits_shown ((List.length_map ..).trans List.length_range)

theorem sensorAt_snsSynced (s : State) {i : Nat} (hi : i < 16) :
    sensorAt (snsSynced s) i = if on s (F.PPX_SNS_en i) then sensorAt s i else noSns := by
  have hlen : i < ((List.range 16).map (fun i => if on s (F.PPX_SNS_en i) then sensorAt s i else noSns)).length := by simpa using hi
  rw [sensorAt, snsSynced, snsBits_ppx, setSensors_ppx, List.getD_eq_getElem _ _ hlen, List.getElem_map, List.getElem_range]

theorem snsSynced_edge (s : State) : Edge [F.PPX_SNS_VALID_valid.off] s (snsSynced s) :=
  (setSensors_edge s _).trans (snsBits_edge _)

theorem anyValid_snsSynced (s : State) : anyValid (snsSynced s) = true ↔ sensorWas s := by
  rw [anyValid_iff (snsSynced_shown s).count]
  refine exists_congr fun i => and_congr_right fun hi => ?_
  rw [sensorAt_snsSynced s hi]
  cases on s (F.PPX_SNS_en i) <;> simp [noSns, sensorAt]

/-- The registers that the start of a cycle writes. -/
def syncRegs : List Nat := [F.PPX_SNS_VALID_valid.off, F.PPX_STATUS_band.off]

/-- What the start of a cycle changes. -/
structure SensorsSynced (s t : State) : Prop where
  edge : Edge syncRegs s t
  band : bandNow t = bandNow s
  shown : SensorsShown t
  sensors : ∀ i, i < 16 → sensorAt t i = if on s (F.PPX_SNS_en i) then sensorAt s i else noSns
  cycleAt : t.ppx.cycleAt = s.ppx.cycleAt
  fresh : t.ppx.fresh = true ↔ s.ppx.fresh = true ∨ (anyValid s = true ∧ ¬ sensorWas s)

theorem snsSync_synced (s : State) : SensorsSynced s (snsSync s) := by
  have hedge : Edge syncRegs s (snsSynced s) := (snsSynced_edge s).mono (by decide)
  have hband : bandNow (snsSynced s) = bandNow s := (snsSynced_edge s).rd F.PPX_STATUS_band (by decide)
  have hwas := anyValid_snsSynced s
  have hfresh : (snsSynced s).ppx.fresh = s.ppx.fresh := by rw [snsSynced, snsBits_ppx, setSensors_ppx]
  have hcycle : (snsSynced s).ppx.cycleAt = s.ppx.cycleAt := by rw [snsSynced, snsBits_ppx, setSensors_ppx]
  have hat (i : Nat) (hi : i < 16) := sensorAt_snsSynced s hi
  have hshown := snsSynced_shown s
  rw [snsSync_eq, noSensor_eq]
  generalize snsSynced s = t at *
  by_cases hany : anyValid s = true
  · rw [if_pos hany]
    by_cases hstill : anyValid t = true
    · rw [if_pos hstill]
      refine ⟨hedge, hband, hshown, hat, hcycle, fun h => .inl (hfresh ▸ h), fun h => ?_⟩
      exact h.elim hfresh.trans fun hgone => absurd (hwas.1 hstill) hgone.2
    · rw [if_neg hstill]
      have hnot : ¬ sensorWas s := fun h => hstill (hwas.2 h)
      refine ⟨hedge.trans ((noneValid_edge t).mono (by decide)), (bandNow_noneValid t).trans hband,
        hshown.congr (by rw [noneValid_ppx]) ((noneValid_edge t).rd _ (by decide)), fun i hi => ?_, by rw [noneValid_ppx]; exact hcycle,
        fun _ => .inr ⟨hany, hnot⟩, fun _ => by rw [noneValid_ppx]⟩
      rw [← hat i hi, sensorAt, noneValid_ppx, sensorAt]
  · rw [if_neg hany]
    refine ⟨hedge, hband, hshown, hat, hcycle, fun h => .inl (hfresh ▸ h), fun h => ?_⟩
    exact h.elim hfresh.trans fun hgone => absurd hgone.1 hany

/-! The reads of a cycle (R229) -/

theorem SensorTurns.zero (reads : List SnsRead) {s : State} (h : SensorsShown s) : SensorTurns reads s s 0 :=
  ⟨.refl _ s, rfl, h, fun _ hi => absurd hi (Nat.not_lt_zero _), fun _ _ _ => ⟨rfl, rfl⟩, fun _ _ => rfl,
    fun _ hi => absurd hi (Nat.not_lt_zero _), (min_eq_left (rd_le_max s _)).symm, fun _ hi => absurd hi (Nat.not_lt_zero _)⟩

theorem sensorTurns (reads : List SnsRead) {s : State} (h : SensorsShown s) {n : Nat} (hn : n ≤ 16) :
    SensorTurns reads s ((List.range n).foldl (snsRead reads) s) n := by
  induction n with
  | zero => exact .zero reads h
  | succ n ih =>
    rw [List.range_succ, List.foldl_append]
    exact (ih (by omega)).succ hn

/-- A cycle begins at its tick. -/
def cycleBegun (s : State) : State :=
  let s := reach s (s.ppx.cycleAt + rd s F.PPX_TEMP_CFG_period * Config.tickMs)
  { s with ppx := { s.ppx with cycleAt := s.tick, snsTx := ((List.range 16).filter (fun i => on s (F.PPX_SNS_en i))).map (snsBytes s) } }

theorem cycleBegun_later {offs : List Nat} (s : State) : Later offs s (cycleBegun s) := .of_time rfl rfl rfl

/-- All sensors have been read. -/
def cycleRead (s : State) (reads : List SnsRead) : State := (List.range 16).foldl (snsRead reads) (snsSync (cycleBegun s))

/-- The registers that a cycle writes. -/
def cycleRegs : List Nat := [F.PPX_CNT_SNSFAIL_reads.off, F.PPX_SNS_VALID_valid.off, F.PPX_STATUS_band.off, F.PPX_TEMP_panel.off,
  F.PPX_CNT_BAND_changes.off] ++ (List.range 16).map (fun i => (F.PPX_SNS_temp i).off)

/-- The sensors after a cycle's reads (R229). -/
structure SensorsRead (s t : State) (reads : List SnsRead) : Prop where
  later : Later cycleRegs s t
  tick : t.tick = max s.tick (s.ppx.cycleAt + rd s F.PPX_TEMP_CFG_period * Config.tickMs)
  cycleAt : t.ppx.cycleAt = t.tick
  valid : ∀ i, i < 16 → (sensorAt t i).valid = sensorValid s reads i
  shown : ∀ i, i < 16 → (rd t F.PPX_SNS_VALID_valid).testBit i = sensorValid s reads i
  temp : ∀ i, i < 16 → on s (F.PPX_SNS_en i) = true →
    rdS t (F.PPX_SNS_temp i) = (snsTemp (reads.getD i none)).getD (rdS s (F.PPX_SNS_temp i))
  fails : rd t F.PPX_CNT_SNSFAIL_reads = min (rd s F.PPX_CNT_SNSFAIL_reads + failedReads s reads 16) (2 ^ F.PPX_CNT_SNSFAIL_reads.w - 1)
  post : ∀ i, i < 16 → on s (F.PPX_SNS_en i) = true → (sensorAt s i).valid ≠ sensorValid s reads i →
    posted t clsInfo blkPPX i F.PPX_SNS_VALID_valid []

theorem sensorValid_eq (s : State) (reads : List SnsRead) (i : Nat) :
    sensorValid s reads i = (on s (F.PPX_SNS_en i) && staysValid reads (sensorAt s i) i) := rfl

/-- What a cycle leaves, up to its reads, of the band and of whether a first valid sensor is waited for. -/
structure BandUnread (s t : State) : Prop where
  band : bandNow t = bandNow s
  changes : rd t F.PPX_CNT_BAND_changes = rd s F.PPX_CNT_BAND_changes
  count : t.ppx.sns.length = 16
  fresh : t.ppx.fresh = true ↔ s.ppx.fresh = true ∨ (anyValid s = true ∧ ¬ sensorWas s)

/-- A cycle has begun, and no sensor been read yet. -/
structure CycleStarted (s m : State) : Prop where
  later : Later cycleRegs s m
  tick : m.tick = max s.tick (s.ppx.cycleAt + rd s F.PPX_TEMP_CFG_period * Config.tickMs)
  cycleAt : m.ppx.cycleAt = m.tick
  shown : SensorsShown m
  sensors : ∀ i, i < 16 → sensorAt m i = if on s (F.PPX_SNS_en i) then sensorAt s i else noSns
  enabled : ∀ i, i < 16 → on m (F.PPX_SNS_en i) = on s (F.PPX_SNS_en i)
  temp : ∀ i, i < 16 → rdS m (F.PPX_SNS_temp i) = rdS s (F.PPX_SNS_temp i)
  fails : rd m F.PPX_CNT_SNSFAIL_reads = rd s F.PPX_CNT_SNSFAIL_reads
  band : BandUnread s m

theorem cycleStarted (s : State) : CycleStarted s (snsSync (cycleBegun s)) := by
  have hsync := snsSync_synced (cycleBegun s)
  have htick : (snsSync (cycleBegun s)).tick = (cycleBegun s).tick := hsync.edge.time.tick
  exact {
    later := (cycleBegun_later s).trans (hsync.edge.mono (by decide))
    tick := htick
    cycleAt := hsync.cycleAt.trans htick.symm
    shown := hsync.shown
    sensors := hsync.sensors
    enabled := fun i hi => congrArg (· != 0) (hsync.edge.rd (F.PPX_SNS_en i) (sns_off_notMem hi (by decide)))
    temp := fun i hi => hsync.edge.rdS (F.PPX_SNS_temp i) (sns_off_notMem hi (by decide))
    fails := hsync.edge.rd _ (by decide)
    band := ⟨hsync.band, hsync.edge.rd _ (by decide), hsync.shown.count, hsync.fresh⟩ }

/-- The reads of a cycle that has begun. -/
theorem CycleStarted.read {s m t : State} {reads : List SnsRead} (h : CycleStarted s m) (hturns : SensorTurns reads m t 16) :
    SensorsRead s t reads := by
  have hedge : Edge cycleRegs m t := hturns.edge.mono (by decide)
  have hfailed : failedReads m reads 16 = failedReads s reads 16 :=
    congrArg List.length (List.filter_congr fun i hi => by rw [h.enabled i (List.mem_range.1 hi)])
  have hvalid (i : Nat) (hi : i < 16) : (sensorAt t i).valid = sensorValid s reads i := by
    rw [hturns.valid i hi, h.enabled i hi, h.sensors i hi, sensorValid_eq]
    cases on s (F.PPX_SNS_en i) <;> rfl
  refine ⟨h.later.trans hedge, hedge.time.tick.trans h.tick, ?_, hvalid, fun i hi => (hturns.shown.valid i hi).trans (hvalid i hi),
    fun i hi hon => ?_, ?_, fun i hi hon hne => hturns.post i hi ?_⟩
  · rw [hturns.ppx, hedge.time.tick, h.cycleAt]
  · rw [hturns.temp i hi ((h.enabled i hi).trans hon), h.temp i hi]
  · rw [hturns.fails, hfailed, h.fails]
  · rw [hvalid i hi, h.sensors i hi, if_pos hon]
    exact hne

theorem BandUnread.read {s m t : State} {reads : List SnsRead} (h : BandUnread s m) (hturns : SensorTurns reads m t 16) : BandUnread s t := by
  refine ⟨(hturns.edge.rd F.PPX_STATUS_band (by decide)).trans h.band, (hturns.edge.rd _ (by decide)).trans h.changes, hturns.shown.count, ?_⟩
  rw [hturns.ppx]
  exact h.fresh

theorem cycleRead_sensors (s : State) (reads : List SnsRead) : SensorsRead s (cycleRead s reads) reads ∧ BandUnread s (cycleRead s reads) := by
  have hstarted := cycleStarted s
  have hturns : SensorTurns reads (snsSync (cycleBegun s)) (cycleRead s reads) 16 := sensorTurns reads hstarted.shown (le_refl 16)
  exact ⟨hstarted.read hturns, hstarted.band.read hturns⟩

end Sys2Proof.Machine
end

section
namespace Sys2Proof.Machine

/-! The panel temperature (R229) -/

/-- The last readings of the valid sensors. -/
def sensed (s : State) : List Int := ((List.range 16).filter (fun i => (sensorAt s i).valid)).map (fun i => rdS s (F.PPX_SNS_temp i))

/-- The maximum of the readings, or the floor of their mean. -/
def aggregate (agg : Bool) (l : List Int) : Int := if agg then l.foldl max (l.headD 0) else l.sum / (l.length : Int)

theorem panelTemp_eq (s : State) : panelTemp s = if sensed s = [] then none else some (aggregate (on s F.PPX_TEMP_CFG_agg) (sensed s)) := by
  have hmatch : panelTemp s = match sensed s with
    | [] => none
    | x :: r => some (if on s F.PPX_TEMP_CFG_agg then r.foldl max x else (x :: r).foldl (· + ·) 0 / ((sensed s).length : Int)) := rfl
  rw [hmatch]
  cases sensed s with
  | nil => rfl
  | cons x r =>
    rw [if_neg (List.cons_ne_nil x r), aggregate, List.sum_eq_foldl, List.foldl_cons (f := max), List.headD_cons, max_self]

theorem aggregate_range {agg : Bool} {l : List Int} (hl : l ≠ []) {lo hi : Int} (h : ∀ x ∈ l, lo ≤ x ∧ x < hi) :
    lo ≤ aggregate agg l ∧ aggregate agg l < hi := by
  obtain ⟨x, r, rfl⟩ := List.exists_cons_of_ne_nil hl
  unfold aggregate
  split
  · exact List.foldlRecOn _ _ (motive := fun m => lo ≤ m ∧ m < hi) (h x List.mem_cons_self) fun m hm y hy =>
      ⟨le_max_of_le_left hm.1, max_lt hm.2 (h y hy).2⟩
  · have hpos : (0 : Int) < ((x :: r).length : Int) := by rw [List.length_cons]; omega
    have hlo := List.card_nsmul_le_sum (x :: r) lo fun y hy => (h y hy).1
    have hhi := List.sum_le_card_nsmul (x :: r) (hi - 1) fun y hy => Int.le_sub_one_of_lt (h y hy).2
    rw [nsmul_eq_mul] at hlo hhi
    refine ⟨Int.le_ediv_of_mul_le hpos (by rw [mul_comm]; exact hlo), Int.ediv_lt_of_lt_mul hpos (lt_of_le_of_lt hhi ?_)⟩
    rw [mul_comm]
    exact mul_lt_mul_of_pos_right (Int.sub_one_lt_of_le (le_refl hi)) hpos

theorem rdS_range (s : State) (f : Fld) (hw : 0 < f.w) : -2 ^ (f.w - 1) ≤ rdS s f ∧ rdS s f < 2 ^ (f.w - 1) := by
  have hlt : rd s f < 2 ^ f.w := Nat.mod_lt _ (by positivity)
  have hp : (2 : Int) ^ f.w = 2 * 2 ^ (f.w - 1) := by rw [← pow_succ', Nat.sub_add_cancel hw]
  have hcast : ((2 ^ (f.w - 1) : Nat) : Int) = 2 ^ (f.w - 1) := by push_cast; rfl
  have hcast' : ((2 ^ f.w : Nat) : Int) = 2 ^ f.w := by push_cast; rfl
  have hpos : (0 : Int) < 2 ^ (f.w - 1) := by positivity
  unfold rdS
  dsimp only
  split <;> omega

theorem sensorList_range {s : State} {reads : List SnsRead} {x : Int} (h : x ∈ sensorList s reads) : -2 ^ 15 ≤ x ∧ x < 2 ^ 15 := by
  obtain ⟨i, -, rfl⟩ := List.mem_map.1 h
  cases hv : snsTemp (reads.getD i none) with
  | none => exact rdS_range s (F.PPX_SNS_temp i) (by decide : 0 < 16)
  | some v => exact snsTemp_range hv

theorem sensed_cycleRead {s t : State} {reads : List SnsRead} (h : SensorsRead s t reads) : sensed t = sensorList s reads := by
  unfold sensed sensorList
  have hvalid : (List.range 16).filter (fun i => (sensorAt t i).valid) = (List.range 16).filter (sensorValid s reads) :=
    List.filter_congr fun i hi => h.valid i (List.mem_range.1 hi)
  rw [hvalid]
  refine List.map_congr_left fun i hi => ?_
  obtain ⟨hi, hv⟩ := List.mem_filter.1 hi
  rw [sensorValid_eq, Bool.and_eq_true] at hv
  exact h.temp i (List.mem_range.1 hi) hv.1

theorem anyValid_of_sensed_nil {s : State} (hcount : s.ppx.sns.length = 16) (h : sensed s = []) : anyValid s = false := by
  rw [← Bool.not_eq_true, anyValid_iff hcount]
  rintro ⟨i, hi, hvalid⟩
  have hmem : rdS s (F.PPX_SNS_temp i) ∈ sensed s := List.mem_map.2 ⟨i, List.mem_filter.2 ⟨List.mem_range.2 hi, hvalid⟩, rfl⟩
  rw [h] at hmem
  exact absurd hmem List.not_mem_nil

/-! The end of a cycle (R229 to R231) -/

/-- A cycle has ended with a valid sensor. -/
def sensorSeen (m : State) : State := { m with ppx := { m.ppx with fresh := false, startBand := false, noSince := none, fellBack := false } }

theorem sensorSeen_edge {offs : List Nat} (m : State) : Edge offs m (sensorSeen m) := .of_time rfl rfl rfl

theorem rd_sensorSeen (m : State) (f : Fld) : rd (sensorSeen m) f = rd m f := rfl

theorem rdS_sensorSeen (m : State) (f : Fld) : rdS (sensorSeen m) f = rdS m f := rfl

theorem sensorSeen_ppx (m : State) :
    (sensorSeen m).ppx = { m.ppx with fresh := false, startBand := false, noSince := none, fellBack := false } := rfl

/-- The panel temperature is shown. -/
def tempShown (s : State) (T : Int) : State := wrB (wrS s F.PPX_TEMP_panel T) F.PPX_STATUS_no_sensor false

theorem tempShown_ppx (s : State) (T : Int) : (tempShown s T).ppx = s.ppx := by rw [tempShown, wrB_ppx, wrS_ppx]

/-- The panel temperature of a cycle that has ended with a valid sensor is shown. -/
def panelShown (s : State) (T : Int) : State := sensorSeen (tempShown s T)

/-- What a cycle does with the sensors read. -/
def cycleEnd (s : State) : State :=
  match panelTemp s with
  | some T => if (tempShown s T).ppx.fresh then setBand (panelShown s T) (bandAt (panelShown s T) T) else bandSteps T 8 (panelShown s T)
  | none => noSensor s

theorem sensorCycle_eq (s : State) (reads : List SnsRead) : sensorCycle s reads = cycleEnd (cycleRead s reads) := by
  unfold sensorCycle cycleEnd cycleRead cycleBegun
  dsimp only
  generalize List.foldl (snsRead reads) (snsSync _) (List.range 16) = m
  cases panelTemp m <;> rfl

/-- The registers that the end of a cycle writes. -/
def endRegs : List Nat := [F.PPX_STATUS_band.off, F.PPX_TEMP_panel.off, F.PPX_CNT_BAND_changes.off]

theorem panelShown_edge (s : State) (T : Int) : Edge endRegs s (panelShown s T) :=
  ((Edge.wrS s F.PPX_TEMP_panel T (by decide)).trans (.wrB _ F.PPX_STATUS_no_sensor false (by decide))).trans (sensorSeen_edge _)

theorem panelShown_sensors (s : State) (T : Int) : (panelShown s T).ppx.sns = s.ppx.sns ∧ (panelShown s T).ppx.cycleAt = s.ppx.cycleAt := by
  rw [panelShown, sensorSeen_ppx, tempShown_ppx]
  exact ⟨rfl, rfl⟩

theorem panelShown_reads (s : State) {T : Int} (hlo : -2 ^ 15 ≤ T) (hhi : T < 2 ^ 15) : rdS (panelShown s T) F.PPX_TEMP_panel = T ∧
    rd (panelShown s T) F.PPX_STATUS_no_sensor = 0 ∧ bandNow (panelShown s T) = bandNow s ∧
    rd (panelShown s T) F.PPX_CNT_BAND_changes = rd s F.PPX_CNT_BAND_changes := by
  unfold panelShown tempShown bandNow
  rw [rdS_sensorSeen, rd_sensorSeen, rd_sensorSeen, rd_sensorSeen]
  refine ⟨?_, rd_wrB_same _ F.PPX_STATUS_no_sensor false (by decide) (by decide), ?_, ?_⟩
  · rw [rdS, wrB, rd_wr_apart _ _ (by decide), ← rdS]
    exact rdS_wrS_same s F.PPX_TEMP_panel T (by decide) (by decide) hlo hhi
  · rw [wrB, rd_wr_apart _ _ (by decide), wrS, rd_wr_apart _ _ (by decide)]
  · rw [wrB, rd_wr_apart _ _ (by decide), wrS, rd_wr_apart _ _ (by decide)]

/-- The end of a cycle leaves the sensors as the reads have them. -/
theorem SensorsRead.ended {s t u : State} {reads : List SnsRead} (h : SensorsRead s t reads) (hedge : Edge endRegs t u)
    (hsns : u.ppx.sns = t.ppx.sns) (hcycle : u.ppx.cycleAt = t.ppx.cycleAt) : SensorsRead s u reads := by
  have hat (i : Nat) : sensorAt u i = sensorAt t i := by rw [sensorAt, hsns, sensorAt]
  refine ⟨h.later.trans (hedge.mono (by decide)), hedge.time.tick.trans h.tick, ?_, fun i hi => ?_, fun i hi => ?_, fun i hi hon => ?_, ?_,
    fun i hi hon hne => hedge.posted (h.post i hi hon hne)⟩
  · rw [hcycle, h.cycleAt, hedge.time.tick]
  · rw [hat, h.valid i hi]
  · rw [hedge.rd _ (by decide), h.shown i hi]
  · rw [hedge.rdS _ (sns_off_notMem hi (by decide)), h.temp i hi hon]
  · rw [hedge.rd _ (by decide), h.fails]

theorem Later.rd {offs : List Nat} {s t : State} (h : Later offs s t) (f : Fld) (hf : f.off ∉ offs) : rd t f = rd s f := by
  rw [Machine.rd, h.regs _ hf, Machine.rd]

/-- What the end of a cycle with a panel temperature leaves (R229, R230). -/
structure BandEnded (s t : State) (T : Int) : Prop where
  panel : rdS t F.PPX_TEMP_panel = T
  noSensor : rd t F.PPX_STATUS_no_sensor = 0
  post : bandNow t ≠ bandNow s → posted t clsInfo blkPPX 0 F.PPX_CNT_BAND_changes []
  first : s.ppx.fresh = true ∨ (anyValid s = true ∧ ¬ sensorWas s) → bandNow t = bandAt s T ∧
    rd t F.PPX_CNT_BAND_changes = if bandAt s T = bandNow s then rd s F.PPX_CNT_BAND_changes else counted s F.PPX_CNT_BAND_changes
  moved : s.ppx.fresh = false → sensorWas s → (bandNow t < 7 → T < bandThr s (bandNow t + 1) + 24) ∧
    (0 < bandNow t → bandThr s (bandNow t) - 24 ≤ T) ∧ (∀ k, bandNow s < k → k ≤ bandNow t → bandThr s k + 24 ≤ T) ∧
    (∀ k, bandNow t < k → k ≤ bandNow s → T < bandThr s k - 24) ∧
    rd t F.PPX_CNT_BAND_changes =
      min (rd s F.PPX_CNT_BAND_changes + (bandNow t - bandNow s) + (bandNow s - bandNow t)) (2 ^ F.PPX_CNT_BAND_changes.w - 1)

/-- Changes of the band from the panel temperature shown on. -/
theorem cycleEnd_set (m : State) (T : Int) : BandSet (panelShown m T)
    (if m.ppx.fresh then setBand (panelShown m T) (bandAt (panelShown m T) T) else bandSteps T 8 (panelShown m T)) := by
  split
  · exact setBand_set _ (bandAt_lt ..)
  · exact (bandSteps_settle T _).1.set

theorem cycleEnd_some {s : State} {reads : List SnsRead} {T : Int} (hl : sensorList s reads ≠ [])
    (hT : T = aggregate (on s F.PPX_TEMP_CFG_agg) (sensorList s reads)) :
    SensorsRead s (sensorCycle s reads) reads ∧ BandEnded s (sensorCycle s reads) T := by
  obtain ⟨hread, hband⟩ := cycleRead_sensors s reads
  have hagg : on (cycleRead s reads) F.PPX_TEMP_CFG_agg = on s F.PPX_TEMP_CFG_agg :=
    congrArg (· != 0) (hread.later.rd F.PPX_TEMP_CFG_agg (by decide))
  have hpanel : panelTemp (cycleRead s reads) = some T := by rw [panelTemp_eq, sensed_cycleRead hread, if_neg hl, hagg, hT]
  obtain ⟨hlo, hhi⟩ := hT ▸ aggregate_range (agg := on s F.PPX_TEMP_CFG_agg) hl (fun x hx => sensorList_range hx)
  have hthr (k : Nat) : bandThr (panelShown (cycleRead s reads) T) k = bandThr s k :=
    bandThr_congr (fun o ho => (Edge.regs (panelShown_edge _ T) o (by revert o; decide)).trans (hread.later.regs o (by revert o; decide))) k
  rw [sensorCycle_eq, cycleEnd, hpanel]
  dsimp only
  rw [tempShown_ppx]
  have hset := cycleEnd_set (cycleRead s reads) T
  have hfirst := changes_setBand (panelShown (cycleRead s reads) T) (bandAt_lt (panelShown (cycleRead s reads) T) T)
  have hfirstBand := bandNow_setBand (panelShown (cycleRead s reads) T) (bandAt_lt (panelShown (cycleRead s reads) T) T)
  have hsettle := bandSteps_settle T (panelShown (cycleRead s reads) T)
  have hedge := panelShown_edge (cycleRead s reads) T
  obtain ⟨hsns, hcycle⟩ := panelShown_sensors (cycleRead s reads) T
  obtain ⟨hshown, hno, hnow, hcount⟩ := panelShown_reads (cycleRead s reads) hlo hhi
  rw [hband.band] at hnow
  rw [hband.changes] at hcount
  generalize panelShown (cycleRead s reads) T = p at *
  generalize cycleRead s reads = m at *
  have hat : bandAt p T = bandAt s T := bandAt_congr hthr T
  refine ⟨hread.ended (hedge.trans (hset.edge.mono (by decide))) (by rw [hset.ppx, hsns]) (by rw [hset.ppx, hcycle]), ?_, ?_, ?_, fun h => ?_,
    fun hfresh hwas => ?_⟩
  · rw [hset.edge.rdS _ (by decide), hshown]
  · rw [hset.noSensor, hno]
  · rw [← hnow]
    exact hset.post
  · rw [if_pos (hband.fresh.2 h), hfirst, hfirstBand, hat, hnow, hcount, counted, hcount, counted]
    exact ⟨rfl, rfl⟩
  · have hsteps : ¬ m.ppx.fresh = true := fun h => by
      rcases hband.fresh.1 h with h | ⟨-, h⟩
      · rw [hfresh] at h
        exact absurd h Bool.false_ne_true
      · exact h hwas
    rw [if_neg hsteps]
    obtain ⟨hmoved, hup, hdown⟩ := hsettle
    have hthr' (k : Nat) : bandThr (bandSteps T 8 p) k = bandThr s k := (hmoved.set.thr k).trans (hthr k)
    unfold bandUp at hup
    unfold bandDown at hdown
    rw [hthr'] at hup hdown
    refine ⟨fun h => not_le.1 fun h' => hup ⟨h, h'⟩, fun h => not_lt.1 fun h' => hdown ⟨h, h'⟩,
      fun k hk hk' => hthr k ▸ hmoved.up k (hnow ▸ hk) hk', fun k hk hk' => hthr k ▸ hmoved.down k hk (hnow ▸ hk'), ?_⟩
    rw [hmoved.count, hnow, hcount]

/-- A cycle without a valid sensor leaves the band. -/
theorem cycleEnd_none {s : State} {reads : List SnsRead} (hl : sensorList s reads = []) :
    SensorsRead s (sensorCycle s reads) reads ∧ rd (sensorCycle s reads) F.PPX_STATUS_no_sensor = 1 ∧
    bandNow (sensorCycle s reads) = bandNow s ∧ rd (sensorCycle s reads) F.PPX_CNT_BAND_changes = rd s F.PPX_CNT_BAND_changes := by
  obtain ⟨hread, hband⟩ := cycleRead_sensors s reads
  have hsensed : sensed (cycleRead s reads) = [] := (sensed_cycleRead hread).trans hl
  have hpanel : panelTemp (cycleRead s reads) = none := by rw [panelTemp_eq, if_pos hsensed]
  have hany := anyValid_of_sensed_nil hband.count hsensed
  have hend : sensorCycle s reads = noneValid (cycleRead s reads) := by
    rw [sensorCycle_eq, cycleEnd, hpanel]
    exact (noSensor_eq _).trans (if_neg (by rw [hany]; exact Bool.false_ne_true))
  rw [hend]
  have hedge := noneValid_edge (cycleRead s reads)
  exact ⟨hread.ended (hedge.mono (by decide)) (by rw [noneValid_ppx]) (by rw [noneValid_ppx]), noSensor_noneValid _,
    (bandNow_noneValid _).trans hband.band, (hedge.rd _ (by decide)).trans hband.changes⟩

theorem exec_sensorCycle (reads : List SnsRead) (s : State) : exec (.sensorCycle reads) s = .next (sensorCycle s reads) := rfl

theorem exec_sensorFailTimeout (s : State) : exec .sensorFailTimeout s = .next (sensorFailTimeout s) := rfl

end Sys2Proof.Machine
end

section
namespace Sys2Proof.Machine

/-- What SENSOR_FAIL_TIMEOUT leaves the first time in a spell without a valid sensor (R231). -/
theorem sensorFailTimeout_effect {s : State} {t0 : Nat} (h : s.ppx.noSince = some t0) (hf : s.ppx.fellBack = false) :
    Later bandRegs s (sensorFailTimeout s) ∧
    (sensorFailTimeout s).tick = max s.tick (t0 + rd s F.PPX_TEMP_CFG_fail * Config.tickHz) ∧
    bandNow (sensorFailTimeout s) = rd s F.PPX_TEMP_CFG_fb_band ∧ (sensorFailTimeout s).ppx.fellBack = true ∧
    posted (sensorFailTimeout s) clsWarning blkPPX 0 F.PPX_TEMP_CFG_fb_band [] ∧
    (rd s F.PPX_TEMP_CFG_fb_band ≠ bandNow s → posted (sensorFailTimeout s) clsInfo blkPPX 0 F.PPX_CNT_BAND_changes [] ∧
      rd (sensorFailTimeout s) F.PPX_CNT_BAND_changes = counted s F.PPX_CNT_BAND_changes) ∧
    (rd s F.PPX_TEMP_CFG_fb_band = bandNow s → (sensorFailTimeout s).reg = s.reg) := by
  have hlt : rd s F.PPX_TEMP_CFG_fb_band < 8 := Nat.mod_lt _ (by decide)
  have hlater := fallenBack_later s t0
  have hset := setBand_set (fallenBack s t0) hlt
  have hnow := bandNow_setBand (fallenBack s t0) hlt
  have hchanged : rd s F.PPX_TEMP_CFG_fb_band ≠ bandNow s → rd (setBand (fallenBack s t0) (rd s F.PPX_TEMP_CFG_fb_band))
      F.PPX_CNT_BAND_changes = counted s F.PPX_CNT_BAND_changes := changes_setBand_new (s := fallenBack s t0) hlt
  have hsame : rd s F.PPX_TEMP_CFG_fb_band = bandNow s → setBand (fallenBack s t0) (rd s F.PPX_TEMP_CFG_fb_band) = fallenBack s t0 :=
    fun h => if_pos h
  have htick : (fallenBack s t0).tick = max s.tick (t0 + rd s F.PPX_TEMP_CFG_fail * Config.tickHz) := rfl
  have hband : bandNow (fallenBack s t0) = bandNow s := rfl
  have hreg : (fallenBack s t0).reg = s.reg := rfl
  have hfell : (fallenBack s t0).ppx.fellBack = true := rfl
  rw [sensorFailTimeout_first h hf]
  generalize setBand (fallenBack s t0) (rd s F.PPX_TEMP_CFG_fb_band) = u at *
  have hwarn := Edge.warning (offs := bandRegs) u blkPPX 0 F.PPX_TEMP_CFG_fb_band []
  have hppx : (warning u blkPPX 0 F.PPX_TEMP_CFG_fb_band).ppx = u.ppx := rfl
  have hregs : (warning u blkPPX 0 F.PPX_TEMP_CFG_fb_band).reg = u.reg := rfl
  have hposted : posted (warning u blkPPX 0 F.PPX_TEMP_CFG_fb_band) clsWarning blkPPX 0 F.PPX_TEMP_CFG_fb_band [] := posted_post ..
  generalize warning u blkPPX 0 F.PPX_TEMP_CFG_fb_band = t at *
  refine ⟨(hlater.trans hset.edge).trans hwarn, ?_, ?_, ?_, hposted, fun hne => ⟨hwarn.posted (hset.post ?_), ?_⟩, fun heq => ?_⟩
  · rw [hwarn.time.tick, hset.edge.time.tick, htick]
  · rw [← hnow]
    exact rd_congr hregs _
  · rw [hppx, hset.ppx, hfell]
  · rw [hnow, hband]
    exact hne
  · rw [rd_congr hregs, hchanged hne]
  · rw [hregs, hsame heq, hreg]

/-- Settles O26: a cycle is its start, the turns of the sixteen sensors and its end; the rules of the hysteresis lead one way only, so that the
eight steps the model takes reach a band at which neither holds. -/
theorem sensorCycleSetsTemperatureAndBand : Obligations.SensorCycleSetsTemperatureAndBand := by
  unfold Obligations.SensorCycleSetsTemperatureAndBand
  refine ⟨fun s reads l hl => ?_, fun s t0 hsince => ⟨fun hfirst => ?_, fun hagain => ?_⟩, fun s hnone => ?_⟩
  · subst hl
    have hread : SensorsRead s (sensorCycle s reads) reads := by
      by_cases hl : sensorList s reads = []
      · exact (cycleEnd_none hl).1
      · exact (cycleEnd_some hl rfl).1
    refine ⟨sensorCycle s reads, exec_sensorCycle reads s, hread.later.memKept, hread.tick, hread.cycleAt, fun i hi => ⟨hread.valid i hi,
      hread.shown i hi, fun v hon hv => ?_, hread.post i hi⟩, hread.fails, hread.later.regs, fun hl => (cycleEnd_none hl).2, fun T hl hT => ?_⟩
    · rw [hread.temp i hi hon, hv]
      rfl
    · obtain ⟨-, hpanel, hno, hpost, hfirst, hmoved⟩ := cycleEnd_some hl hT
      exact ⟨hpanel, hno, hpost, hfirst, hmoved⟩
  · obtain ⟨hlater, htick, hband, hfell, hwarned, hchanged, hsame⟩ := sensorFailTimeout_effect hsince hfirst
    exact ⟨_, exec_sensorFailTimeout s, htick, hband, hfell, hwarned, hchanged, hsame, hlater.regs, hlater.memKept⟩
  · rw [exec_sensorFailTimeout, sensorFailTimeout_again hsince hagain]
  · rw [exec_sensorFailTimeout, sensorFailTimeout_none hnone]

end Sys2Proof.Machine
end

section
namespace Sys2Proof.Machine

/-! The ageing engine's status (R284), and what a change of registers only leaves of the memories -/

theorem RegOnly.memKept {s t : State} (h : RegOnly s t) : memKept s t := by
  obtain ⟨r, rfl⟩ := h.exists_reg
  exact ⟨rfl, rfl, rfl, rfl, rfl, rfl⟩

theorem rd_regsKept {s t : State} {offs : List Nat} (h : regsKept s t offs) {f : Fld} (hf : f.off ∉ offs) : rd t f = rd s f := by
  rw [rd, h _ hf, rd]

theorem LaneWork.age {fs : List Fld} {s t : State} (h : LaneWork fs s t) : t.age = s.age := by rw [h.frame]

theorem ageStatus_regOnly (s : State) : RegOnly s (ageStatus s) := (RegOnly.wrB ..).trans ((RegOnly.wrB ..).trans (.wrB ..))

/-- The three bits it shows share their register with others. -/
theorem rd_ageStatus (s : State) {f : Fld}
    (h : ∀ g ∈ [F.AGE_STATUS_run, F.AGE_STATUS_ckpt_busy, F.AGE_STATUS_ckpt_held], g.apart f = true) : rd (ageStatus s) f = rd s f := by
  unfold ageStatus
  rw [wrB, rd_wr_apart _ _ (h _ (by decide)), wrB, rd_wr_apart _ _ (h _ (by decide)), wrB, rd_wr_apart _ _ (h _ (by decide))]

theorem rd_held_ageStatus (s : State) : rd (ageStatus s) F.AGE_STATUS_ckpt_held = if s.age.held.isSome then 1 else 0 := by
  unfold ageStatus
  rw [rd_wrB_same _ _ _ (by decide) (by decide), wrB_age]

theorem regsKept_ageStatus (s : State) : regsKept s (ageStatus s) [F.AGE_STATUS_run.off] :=
  regsKept_trans (regsKept_wr _ _ _ (by decide)) (regsKept_trans (regsKept_wr _ _ _ (by decide)) (regsKept_wr _ _ _ (by decide)))

end Sys2Proof.Machine
end


section
namespace Sys2Proof.Machine

/-! Flash commands: their tests (R414) and the one that starts next (R437) -/

/-- The fields that the tests of a flash command read. -/
def xfTestFields : List Fld :=
  [F.AGE_STATUS_run, F.AGE_CKPT_SLOT0_base, F.AGE_CKPT_SLOT0_len, F.AGE_CKPT_SLOT1_base, F.AGE_CKPT_SLOT1_len]

theorem xfResult_congr {s t : State} (hsize : t.nv.flashSize = s.nv.flashSize) (hrd : ∀ f ∈ xfTestFields, rd t f = rd s f) :
    xfResult t = xfResult s := by
  have hspan : ckptSpan t = ckptSpan s := by
    funext k
    simp only [ckptSpan, hrd F.AGE_CKPT_SLOT0_base (by decide), hrd F.AGE_CKPT_SLOT0_len (by decide), hrd F.AGE_CKPT_SLOT1_base (by decide),
      hrd F.AGE_CKPT_SLOT1_len (by decide)]
  have hrun : on t F.AGE_STATUS_run = on s F.AGE_STATUS_run := by rw [on, hrd F.AGE_STATUS_run (by decide), on]
  funext op addr len buf
  rw [xfResult, hspan, hsize, hrun, xfResult]

/-- A command that reaches beyond the flash is out of range. -/
theorem xfResult_beyond (s : State) (op addr len buf : Nat) (h : s.nv.flashSize < (xfSpan op addr len).1 + (xfSpan op addr len).2) :
    xfResult s op addr len buf = 1 := by simp [xfResult, h]

/-- Starting the next command changes the NVM block's state only. -/
theorem xfNext_frame (s : State) : ∃ nv, xfNext s = { s with nv := nv } := by
  unfold xfNext
  split
  · split
    · exact ⟨s.nv, rfl⟩
    · exact ⟨_, rfl⟩
  · exact ⟨s.nv, rfl⟩

theorem xfNext_none {s : State} (h : s.nv.xfHeld = []) : xfNext s = s := by
  unfold xfNext
  split
  · next hheld => simp [h] at hheld
  · rfl

theorem xfNext_waits {s : State} (h : s.nv.xf.isSome = true ∨ s.age.ckpt.isSome = true) : xfNext s = s := by
  unfold xfNext
  split
  · next hxf _ =>
    rw [hxf] at h
    exact if_pos (h.resolve_left (by simp))
  · rfl

theorem xfNext_starts {s : State} {j : XfJob} {r : List XfJob} (hxf : s.nv.xf = none) (hheld : s.nv.xfHeld = j :: r) (hc : s.age.ckpt = none) :
    xfNext s = { s with nv := { s.nv with xf := some { j with result := xfResult s j.op j.addr j.len j.buf }, xfHeld := r } } := by
  simp [xfNext, hxf, hheld, hc]

/-! A flash command is given (R414) -/

/-- The command's op and busy are shown. -/
def xfShown (s : State) (op : Nat) : State := wrB (wr s F.NVM_XF_CMD_op op) F.NVM_XF_STAT_busy true

/-- A command stands behind those held. -/
def xfQueued (s : State) (j : XfJob) : State := { s with nv.xfHeld := s.nv.xfHeld ++ [j] }

theorem xfNext_queued_keeps (s : State) (j : XfJob) : (xfNext (xfQueued s j)).reg = s.reg ∧ memKept s (xfNext (xfQueued s j)) := by
  obtain ⟨nv, h⟩ := xfNext_frame (xfQueued s j)
  rw [h]
  exact ⟨rfl, rfl, rfl, rfl, rfl, rfl, rfl⟩

theorem xfShown_regOnly (s : State) (op : Nat) : RegOnly s (xfShown s op) := (RegOnly.wr ..).trans (.wrB ..)

theorem xfShown_regsKept (s : State) (op : Nat) : regsKept s (xfShown s op) [F.NVM_XF_CMD_op.off, F.NVM_XF_STAT_busy.off] :=
  regsKept_trans (regsKept_wr _ _ _ (by decide)) (regsKept_wr _ _ _ (by decide))

theorem rd_xfShown (s : State) (op : Nat) {f : Fld} (h : f.off ∉ [F.NVM_XF_CMD_op.off, F.NVM_XF_STAT_busy.off]) :
    rd (xfShown s op) f = rd s f := by rw [rd, xfShown_regsKept s op _ h, rd]

theorem xfResult_shown (s : State) (op : Nat) : xfResult (xfShown s op) = xfResult s := by
  refine xfResult_congr ?_ fun f hf => rd_xfShown s op (by revert f; decide)
  rw [xfShown, wrB_nv, wr_nv]

/-- What the command is and what its tests find does not depend on its being shown. -/
theorem xfOf_shown (s : State) (op op' : Nat) : xfOf (xfShown s op) op' = xfOf s op' := by
  unfold xfOf
  rw [rd_xfShown s op (f := F.NVM_XF_ADDR_addr) (by decide), rd_xfShown s op (f := F.NVM_XF_LEN_len_m1) (by decide),
    rd_xfShown s op (f := F.NVM_XF_BUF_offset) (by decide), xfResult_shown]

theorem xfStart_eq (s : State) (op : Nat) : xfStart s op = xfNext (xfQueued (xfShown s op) (xfOf s op)) := by
  rw [← xfOf_shown s op op]
  unfold xfStart xfQueued xfShown
  rfl

theorem xfStart_shows (s : State) {op : Nat} (h : op < 4) :
    rd (xfStart s op) F.NVM_XF_CMD_op = op ∧ rd (xfStart s op) F.NVM_XF_STAT_busy = 1 ∧ memKept s (xfStart s op) ∧
    regsKept s (xfStart s op) [F.NVM_XF_CMD_op.off, F.NVM_XF_STAT_busy.off] := by
  have hop : rd (xfShown s op) F.NVM_XF_CMD_op = op := by
    rw [xfShown, wrB, rd_wr_apart _ _ (by decide), rd_wr_same _ _ _ (by decide)]
    exact Nat.mod_eq_of_lt h
  have hbusy : rd (xfShown s op) F.NVM_XF_STAT_busy = 1 := rd_wrB_same _ _ _ (by decide) (by decide)
  have hmem := (xfShown_regOnly s op).memKept
  have hregs := xfShown_regsKept s op
  obtain ⟨hreg, hkept⟩ := xfNext_queued_keeps (xfShown s op) (xfOf s op)
  rw [xfStart_eq]
  exact ⟨(rd_congr hreg _).trans hop, (rd_congr hreg _).trans hbusy, memKept_trans hmem hkept,
    fun o ho => (rdW_congr hreg o).trans (hregs o ho)⟩

/-- With nothing in its way the command starts. -/
theorem xfStart_starts {s : State} (op : Nat) (hxf : s.nv.xf = none) (hheld : s.nv.xfHeld = []) (hc : s.age.ckpt = none) :
    (xfStart s op).nv = { s.nv with xf := some (xfOf s op) } := by
  have hres := xfResult_shown s op
  rw [xfStart_eq]
  obtain ⟨r, hshown⟩ := (xfShown_regOnly s op).exists_reg
  rw [hshown] at hres ⊢
  have hqueued : xfResult (xfQueued { s with reg := r } (xfOf s op)) = xfResult s := by
    rw [← hres]
    exact xfResult_congr rfl fun _ _ => rfl
  rw [xfNext_starts (s := xfQueued { s with reg := r } (xfOf s op)) (j := xfOf s op) (r := []) hxf (by simp [xfQueued, hheld]) hc, hqueued]
  simp [xfQueued, xfOf, hheld]

/-- Behind a running command or a checkpoint it waits. -/
theorem xfStart_waits {s : State} (op : Nat) (h : s.nv.xf.isSome = true ∨ s.age.ckpt.isSome = true) :
    (xfStart s op).nv = { s.nv with xfHeld := s.nv.xfHeld ++ [xfOf s op] } := by
  rw [xfStart_eq]
  obtain ⟨r, hshown⟩ := (xfShown_regOnly s op).exists_reg
  rw [hshown, xfNext_waits (s := xfQueued { s with reg := r } (xfOf s op)) h]
  rfl

theorem exec_xfStart {s : State} {c : Instr} {op : Nat} (h : served s F.NVM_XF_CMD_go.off true)
    (hc : (c, op) ∈ [(Instr.xfRead, 0), (.xfProgram, 1), (.xfErase4k, 2), (.xfErase64k, 3)]) : exec c s = .next (xfStart s op) ∧ op < 4 := by
  simp only [List.mem_cons, Prod.mk.injEq, List.not_mem_nil, or_false] at hc
  rcases hc with ⟨rfl, rfl⟩ | ⟨rfl, rfl⟩ | ⟨rfl, rfl⟩ | ⟨rfl, rfl⟩
  all_goals exact ⟨exec_of_served (fun s => xfStart s _) h rfl, by decide⟩

end Sys2Proof.Machine
end


section
namespace Sys2Proof.Machine

/-! A flash command ends (R414) -/

@[simp] theorem length_freeBytes (s : State) (k n : Nat) : (freeBytes s k n).1.length = n := by
  induction n generalizing s with
  | zero => rfl
  | succ n ih => simp [freeBytes, ih]

@[simp] theorem length_lstRd (s : State) (a n : Nat) : (lstRd s a n).length = n := length_sgetList ..
@[simp] theorem length_flashRd (s : State) (a n : Nat) : (flashRd s a n).length = n := length_sgetList ..

theorem flashWr_other (s : State) (a x : Nat) (bs : List Byte) (h : x < a ∨ a + bs.length ≤ x) :
    sget 0xFF#8 (flashWr s a bs).flash x = sget 0xFF#8 s.flash x := sget_ssetList_other _ _ _ _ _ h

theorem lstRd_congr {s t : State} (h : t.lst = s.lst) (a n : Nat) : lstRd t a n = lstRd s a n := by rw [lstRd, h, lstRd]
theorem flashRd_congr {s t : State} (h : t.flash = s.flash) (a n : Nat) : flashRd t a n = flashRd s a n := by rw [flashRd, h, flashRd]

/-- No flash command runs. -/
def xfFreed (s : State) : State := { s with nv.xf := none }

/-- The bytes that a command moves, before its end is shown: none where its tests failed, free ones where the flash reports an error. -/
def xfMoved (s : State) (j : XfJob) (err : Bool) : State :=
  if j.result != 0 then xfFreed s else if err then xfTorn (xfFreed s) j else xfApply (xfFreed s) j

/-- The result that its end shows. -/
def xfEnd (j : XfJob) (err : Bool) : Nat := if j.result != 0 then j.result else if err then 2 else 0

theorem xfDone_eq {s : State} {j : XfJob} (err : Bool) (h : s.nv.xf = some j) : xfDone s err =
    wrB (wr (xfMoved s j err) F.NVM_XF_STAT_result (xfEnd j err)) F.NVM_XF_STAT_busy (!(xfMoved s j err).nv.xfHeld.isEmpty) := by
  rw [xfDone, h, ← wr_nv (xfMoved s j err) F.NVM_XF_STAT_result (xfEnd j err)]
  unfold xfMoved xfEnd
  rfl

theorem xfApply_frame (s : State) (j : XfJob) : ∃ lst flash mem, xfApply s j = { s with lst := lst, flash := flash, mem := mem } := by
  unfold xfApply
  dsimp only
  split
  · exact ⟨_, _, _, lstKeep_frame ..⟩
  · exact ⟨_, _, _, rfl⟩
  · exact ⟨_, _, _, rfl⟩

theorem xfMoved_frame (s : State) (j : XfJob) (err : Bool) :
    ∃ lst flash mem fresh, xfMoved s j err = { s with lst := lst, flash := flash, mem := mem, fresh := fresh, nv.xf := none } := by
  unfold xfMoved
  split
  · exact ⟨_, _, _, _, rfl⟩
  · split
    · obtain ⟨lst, flash, mem, fresh, h⟩ := xfTorn_frame (xfFreed s) j
      exact ⟨lst, flash, mem, fresh, h⟩
    · obtain ⟨lst, flash, mem, h⟩ := xfApply_frame (xfFreed s) j
      exact ⟨lst, flash, mem, _, h⟩

/-- A read leaves the flash's bytes in the buffer, but for protected flags. -/
theorem xfApply_read {s : State} {j : XfJob} (h : j.op = 0) : (xfApply s j).flash = s.flash ∧
    (j.buf + j.len ≤ mbxBase → lstRd (xfApply s j) j.buf j.len = keepProt s j.buf (flashRd s j.addr j.len)) ∧
    ∀ a, a < j.buf ∨ j.buf + j.len ≤ a → sget 0#8 (xfApply s j).lst a = sget 0#8 s.lst a := by
  have heq : xfApply s j = lstKeep s j.buf (flashRd s j.addr j.len) := by simp only [xfApply, h]
  rw [heq]
  refine ⟨rfl, fun hb => ?_, fun a ha => lstKeep_other _ _ _ _ (by rw [length_flashRd]; tauto)⟩
  have := lstRd_lstKeep s j.buf (flashRd s j.addr j.len) (by rwa [length_flashRd])
  rwa [length_flashRd] at this

/-- A program leaves the buffer's bytes in the flash. -/
theorem xfApply_program {s : State} {j : XfJob} (h : j.op = 1) : (xfApply s j).lst = s.lst ∧
    flashRd (xfApply s j) j.addr j.len = lstRd s j.buf j.len ∧
    ∀ a, a < j.addr ∨ j.addr + j.len ≤ a → sget 0xFF#8 (xfApply s j).flash a = sget 0xFF#8 s.flash a := by
  have heq : xfApply s j = flashWr s j.addr (lstRd s j.buf j.len) := by simp only [xfApply, h]
  rw [heq]
  refine ⟨rfl, ?_, fun a ha => flashWr_other _ _ _ _ (by rwa [length_lstRd])⟩
  have := flashRd_flashWr s j.addr (lstRd s j.buf j.len)
  rwa [length_lstRd] at this

/-- An erase leaves FFH in its sector. -/
theorem xfApply_erase {s : State} {j : XfJob} (h : 2 ≤ j.op) : (xfApply s j).lst = s.lst ∧ ∀ a, sget 0xFF#8 (xfApply s j).flash a =
    if (xfSpan j.op j.addr j.len).1 ≤ a ∧ a < (xfSpan j.op j.addr j.len).1 + (xfSpan j.op j.addr j.len).2 then 0xFF#8
    else sget 0xFF#8 s.flash a := by
  have heq : xfApply s j = { s with flash := sfilter (fun a => decide (a < (xfSpan j.op j.addr j.len).1) ||
      decide ((xfSpan j.op j.addr j.len).1 + (xfSpan j.op j.addr j.len).2 ≤ a)) s.flash } := by
    unfold xfApply
    dsimp only
    split
    · omega
    · omega
    · rfl
  rw [heq]
  refine ⟨rfl, fun a => ?_⟩
  rw [sget_sfilter]
  by_cases hin : (xfSpan j.op j.addr j.len).1 ≤ a ∧ a < (xfSpan j.op j.addr j.len).1 + (xfSpan j.op j.addr j.len).2
  · rw [if_pos hin, if_neg (by simp; omega)]
  · rw [if_neg hin, if_pos (by simp; omega)]

/-- Where the flash reports an error, bytes beside the destination stand. -/
theorem xfTorn_other (s : State) (j : XfJob) :
    (j.op = 0 → (xfTorn s j).flash = s.flash ∧ ∀ a, a < j.buf ∨ j.buf + j.len ≤ a → sget 0#8 (xfTorn s j).lst a = sget 0#8 s.lst a) ∧
    (j.op ≠ 0 → (xfTorn s j).lst = s.lst ∧ ∀ a, a < (xfSpan j.op j.addr j.len).1 ∨
      (xfSpan j.op j.addr j.len).1 + (xfSpan j.op j.addr j.len).2 ≤ a → sget 0xFF#8 (xfTorn s j).flash a = sget 0xFF#8 s.flash a) := by
  refine ⟨fun h => ?_, fun h => ?_⟩
  · obtain ⟨x, hx⟩ := freeBytes_fresh s 10 j.len
    have heq : xfTorn s j = lstKeep { s with fresh := x } j.buf (freeBytes s 10 j.len).1 := by
      rw [← hx, xfTorn]
      exact if_pos h
    rw [heq]
    exact ⟨rfl, fun a ha => lstKeep_other { s with fresh := x } _ _ _ (by rw [length_freeBytes]; tauto)⟩
  · obtain ⟨x, hx⟩ := freeBytes_fresh s 10 (xfSpan j.op j.addr j.len).2
    have heq : xfTorn s j = flashWr { s with fresh := x } (xfSpan j.op j.addr j.len).1 (freeBytes s 10 (xfSpan j.op j.addr j.len).2).1 := by
      rw [← hx, xfTorn]
      exact if_neg h
    rw [heq]
    exact ⟨rfl, fun a ha => flashWr_other { s with fresh := x } _ _ _ (by rwa [length_freeBytes])⟩

/-- The end of a flash command with no checkpoint trigger held. -/
structure XfEnded (s t : State) (j : XfJob) (err : Bool) : Prop where
  lst : t.lst = (xfMoved s j err).lst
  flash : t.flash = (xfMoved s j err).flash
  gddr : t.gddr = s.gddr
  nvm : t.nvm = s.nvm
  result : rd t F.NVM_XF_STAT_result = xfEnd j err % 8
  idle : s.nv.xfHeld = [] → t.nv.xf = none ∧ rd t F.NVM_XF_STAT_busy = 0
  next : ∀ k r, s.nv.xfHeld = k :: r → s.age.ckpt = none →
    t.nv.xfHeld = r ∧ t.nv.xf = some { k with result := xfResult t k.op k.addr k.len k.buf }

/-- With no checkpoint trigger held, a flash command may start once the status is shown. -/
theorem ckptNext_none {s : State} (h : s.age.held = none) : ckptNext s = xfNext (ageStatus s) := by rw [ckptNext, h]

theorem xfDone_keeps {s : State} {j : XfJob} (err : Bool) (h : s.nv.xf = some j) :
    (xfDone s err).lst = (xfMoved s j err).lst ∧ (xfDone s err).flash = (xfMoved s j err).flash ∧ (xfDone s err).gddr = s.gddr ∧
    (xfDone s err).nvm = s.nvm ∧ (xfDone s err).age = s.age ∧ (xfDone s err).nv = { s.nv with xf := none } := by
  obtain ⟨lst, flash, mem, fresh, hmoved⟩ := xfMoved_frame s j err
  have hgddr : (xfMoved s j err).gddr = s.gddr := by rw [hmoved]
  have hnvm : (xfMoved s j err).nvm = s.nvm := by rw [hmoved]
  have hage : (xfMoved s j err).age = s.age := by rw [hmoved]
  have hnv : (xfMoved s j err).nv = { s.nv with xf := none } := by rw [hmoved]
  rw [xfDone_eq err h]
  generalize xfMoved s j err = m at *
  rw [wrB_lst, wr_lst, wrB_flash, wr_flash, wrB_gddr, wr_gddr, wrB_nvm, wr_nvm, wrB_age, wr_age, wrB_nv, wr_nv]
  exact ⟨rfl, rfl, hgddr, hnvm, hage, hnv⟩

theorem xfDone_shows {s : State} {j : XfJob} (err : Bool) (h : s.nv.xf = some j) :
    rd (xfDone s err) F.NVM_XF_STAT_result = xfEnd j err % 8 ∧
    rd (xfDone s err) F.NVM_XF_STAT_busy = if s.nv.xfHeld.isEmpty then 0 else 1 := by
  obtain ⟨lst, flash, mem, fresh, hmoved⟩ := xfMoved_frame s j err
  have hheld : (xfMoved s j err).nv.xfHeld = s.nv.xfHeld := by rw [hmoved]
  rw [xfDone_eq err h, hheld]
  constructor
  · rw [wrB, rd_wr_apart _ _ (by decide), rd_wr_same _ _ _ (by decide)]
    rfl
  · rw [rd_wrB_same _ _ _ (by decide) (by decide)]
    cases s.nv.xfHeld.isEmpty <;> rfl

theorem xfNext_keeps (s : State) : (xfNext s).reg = s.reg ∧ memKept s (xfNext s) ∧ (xfNext s).tick = s.tick ∧
    (xfNext s).age = s.age ∧ (xfNext s).evt = s.evt ∧ (xfNext s).nv.flashSize = s.nv.flashSize := by
  have hsize : (xfNext s).nv.flashSize = s.nv.flashSize := by
    unfold xfNext
    split
    · split <;> rfl
    · rfl
  obtain ⟨nv, h⟩ := xfNext_frame s
  rw [h] at hsize ⊢
  exact ⟨rfl, ⟨rfl, rfl, rfl, rfl, rfl, rfl⟩, rfl, rfl, rfl, hsize⟩

theorem xfDone_ended {s : State} {j : XfJob} (err : Bool) (h : s.nv.xf = some j) (hheld : s.age.held = none) :
    XfEnded s (ckptNext (xfDone s err)) j err := by
  obtain ⟨hlst, hflash, hgddr, hnvm, hage, hnv⟩ := xfDone_keeps err h
  obtain ⟨hres, hbusy⟩ := xfDone_shows err h
  rw [ckptNext_none (by rw [hage]; exact hheld)]
  generalize xfDone s err = d at *
  have hresult := rd_ageStatus d (f := F.NVM_XF_STAT_result) (by decide)
  have hbusy' := rd_ageStatus d (f := F.NVM_XF_STAT_busy) (by decide)
  obtain ⟨r, hshown⟩ := (ageStatus_regOnly d).exists_reg
  rw [hshown] at hresult hbusy' ⊢
  obtain ⟨hreg, ⟨gddr, lst, flash, nvm, -, -⟩, -, -, -, hsize⟩ := xfNext_keeps { d with reg := r }
  refine ⟨lst.trans hlst, flash.trans hflash, gddr.trans hgddr, nvm.trans hnvm, (rd_congr hreg _).trans (hresult.trans hres),
    fun hnone => ?_, fun k r' hk hc => ?_⟩
  · refine ⟨?_, (rd_congr hreg _).trans (hbusy'.trans (by rw [hbusy, hnone]; rfl))⟩
    rw [xfNext_none (by rw [hnv]; exact hnone), hnv]
  · rw [xfResult_congr hsize fun f _ => rd_congr hreg f]
    rw [xfNext_starts (s := { d with reg := r }) (by rw [hnv]) (by rw [hnv]; exact hk) (by rw [hage]; exact hc)]
    exact ⟨rfl, rfl⟩

theorem exec_xfDone_some {s : State} {j : XfJob} (err : Bool) (h : s.nv.xf = some j) :
    exec (.xfDone err) s = .next (ckptNext (xfDone s err)) := by
  show Host.Outcome.next (if s.nv.xf.isNone then s else ckptNext (xfDone s err)) = _
  rw [h]
  rfl

theorem exec_xfDone_none {s : State} (err : Bool) (h : s.nv.xf = none) : exec (.xfDone err) s = .next s := by
  show Host.Outcome.next (if s.nv.xf.isNone then s else ckptNext (xfDone s err)) = _
  rw [h]
  rfl

theorem xfMoved_refused {s : State} {j : XfJob} {err : Bool} (h : j.result ≠ 0) : xfMoved s j err = xfFreed s :=
  if_pos (by simpa using h)

theorem xfMoved_done {s : State} {j : XfJob} (h : j.result = 0) : xfMoved s j false = xfApply (xfFreed s) j := by
  simp [xfMoved, h]

theorem xfMoved_torn {s : State} {j : XfJob} (h : j.result = 0) : xfMoved s j true = xfTorn (xfFreed s) j := by
  simp [xfMoved, h]

/-- Settles O49: a command given is shown and queued, and the first in the queue starts unless one runs (`xfNext`); its end moves the bytes of
`xfMoved` and no other, shows its result, and lets the next one start. That commands queue, and are tested again as they start, is the
model's choice (log entry 39). -/
theorem flashCommandsMoveBytes : Obligations.FlashCommandsMoveBytes := by
  unfold Obligations.FlashCommandsMoveBytes
  refine ⟨fun s c op hserved hc => ?_, fun s op hop => ⟨rfl, rfl, rfl, rfl, fun h => xfResult_beyond s _ _ _ _ h⟩, fun s err j hxf hheld => ?_,
    fun s err h => exec_xfDone_none err h⟩
  · obtain ⟨hx, hop⟩ := exec_xfStart hserved hc
    obtain ⟨hshown, hbusy, hmem, hregs⟩ := xfStart_shows s hop
    exact ⟨_, hx, hshown, hbusy, hmem, hregs, xfStart_starts op, xfStart_waits op⟩
  · obtain ⟨hlst, hflash, hgddr, hnvm, hresult, hidle, hnext⟩ := xfDone_ended err hxf hheld
    refine ⟨_, exec_xfDone_some err hxf, hgddr, hnvm, hidle, ?_, fun hr => ?_, hnext, ?_⟩
    · rw [hresult, xfEnd]
      cases err <;> by_cases hr : j.result = 0 <;> simp [hr]
    · rw [hlst, hflash, xfMoved_refused hr]
      exact ⟨rfl, rfl⟩
    · rw [hlst, hflash, lstRd_congr hlst, flashRd_congr hflash]
      refine ⟨fun hr he hop hbuf => ?_, fun hr he hop => ?_, fun hr he hop => ?_, fun hr he => ?_⟩
      · rw [he, xfMoved_done hr]
        obtain ⟨hf, hread, hother⟩ := xfApply_read (s := xfFreed s) hop
        exact ⟨hf, hread hbuf, hother⟩
      · rw [he, xfMoved_done hr]
        exact xfApply_program (s := xfFreed s) hop
      · rw [he, xfMoved_done hr]
        exact xfApply_erase (s := xfFreed s) hop
      · rw [he, xfMoved_torn hr]
        exact xfTorn_other (xfFreed s) j

end Sys2Proof.Machine
end

section
namespace Sys2Proof.Machine

/-! Counters of the NVM (R431 to R433): what an increment reads -/

variable {s t : State}

/-- The NVM's bytes, its state and the registers are those of another state. -/
def SameNvm (s t : State) : Prop := t.nvm = s.nvm ∧ t.nv = s.nv ∧ t.reg = s.reg

namespace SameNvm

theorem grpEcc (h : SameNvm s t) (page g : Nat) : grpEcc t page g = grpEcc s page g := by
  obtain ⟨-, hnv, hreg⟩ := h
  rw [Machine.grpEcc, hnv, on, rd_congr hreg, ← on, ← Machine.grpEcc]

theorem grpOkFuture (h : SameNvm s t) (page g : Nat) : grpOkFuture t page g = grpOkFuture s page g := by
  rw [Machine.grpOkFuture, h.grpEcc, h.2.1, Machine.grpOkFuture]

theorem ringSeq (h : SameNvm s t) : ringSeq t = ringSeq s := by
  funext m r i
  simp only [Machine.ringSeq, h.grpOkFuture]

theorem cntBase (h : SameNvm s t) (m : SMap Byte) (k : Nat) : cntBase t m k = cntBase s m k := by
  rw [Machine.cntBase, Machine.ringNewest, h.ringSeq]
  rfl

theorem tallyCounts (h : SameNvm s t) (m : SMap Byte) (k q : Nat) : tallyCounts t m k q = tallyCounts s m k q := by
  funext g
  simp only [Machine.tallyCounts, h.grpOkFuture]

theorem nvmFuture (h : SameNvm s t) : nvmFuture t = nvmFuture s := by
  obtain ⟨hnvm, hnv, hreg⟩ := h
  have hseen : nvmSeen t = nvmSeen s := by rw [nvmSeen, hnv, hnvm, on, rd_congr hreg, ← on, ← nvmSeen]
  rw [Machine.nvmFuture, hseen, hnv, Machine.nvmFuture]

end SameNvm

/-! Counters of the NVM: what an increment writes -/

/-- Page writes have been added to the queue, and its busy flag is shown. -/
def NvmWrites (s t : State) : Prop := t = { s with reg := t.reg, nv := t.nv } ∧ regsKept s t [F.NVM_ACC_STAT_busy.off]

namespace NvmWrites

variable {u : State}

theorem trans (h : NvmWrites s t) (h' : NvmWrites t u) : NvmWrites s u := by
  obtain ⟨h, hr⟩ := h
  obtain ⟨h', hr'⟩ := h'
  exact ⟨h'.trans (by rw [h]), regsKept_trans hr hr'⟩

theorem frame (h : NvmWrites s t) : ∃ r nv, t = { s with reg := r, nv := nv } := ⟨t.reg, t.nv, h.1⟩

theorem tick (h : NvmWrites s t) : t.tick = s.tick := by
  obtain ⟨r, nv, rfl⟩ := h.frame
  rfl

theorem age (h : NvmWrites s t) : t.age = s.age := by
  obtain ⟨r, nv, rfl⟩ := h.frame
  rfl

theorem memKept (h : NvmWrites s t) : memKept s t := by
  obtain ⟨r, nv, rfl⟩ := h.frame
  exact ⟨rfl, rfl, rfl, rfl, rfl, rfl⟩

end NvmWrites

/-- The queue with a write of the device's own: behind the one that runs and its own others, before those of hosts (R437). -/
def ownQueue (s : State) (j : PgJob) : List PgJob :=
  let n := if hostJustBegun s then 0 else 1
  let own := (s.nv.jobs.drop n).takeWhile (fun x => x.kind != .host)
  s.nv.jobs.take n ++ own ++ [j] ++ (s.nv.jobs.drop n).drop own.length

theorem length_ownQueue (s : State) (j : PgJob) : (ownQueue s j).length = s.nv.jobs.length + 1 := by
  have hown := (List.takeWhile_prefix (fun x : PgJob => x.kind != .host) (l := s.nv.jobs.drop (if hostJustBegun s then 0 else 1))).length_le
  simp only [ownQueue, List.length_append, List.length_take, List.length_drop, List.length_singleton] at *
  omega

/-- The write in hand, with the tick at which it begins where the queue was empty. -/
def ownBegun (s : State) : State :=
  if s.nv.jobs.isEmpty then { s with nv := { s.nv with jobAt := s.tick, grpAt := s.tick } } else s

theorem addOwnJob_eq (s : State) (j : PgJob) :
    addOwnJob s j = wrB { ownBegun s with nv.jobs := ownQueue s j } F.NVM_ACC_STAT_busy true := rfl

theorem ownBegun_frame (s : State) : ∃ nv, ownBegun s = { s with nv := nv } := by
  unfold ownBegun
  split <;> exact ⟨_, rfl⟩

theorem addOwnJob_jobs (s : State) (j : PgJob) : (addOwnJob s j).nv.jobs = ownQueue s j := by rw [addOwnJob_eq, wrB_nv]

theorem mem_addOwnJob (s : State) (j : PgJob) : j ∈ (addOwnJob s j).nv.jobs := by simp [addOwnJob_jobs, ownQueue]

theorem addOwnJob_busy (s : State) (j : PgJob) : rd (addOwnJob s j) F.NVM_ACC_STAT_busy = 1 := by
  rw [addOwnJob_eq, rd_wrB_same _ _ _ (by decide) (by decide), if_pos rfl]

theorem addOwnJob_writes (s : State) (j : PgJob) : NvmWrites s (addOwnJob s j) := by
  obtain ⟨nv, h⟩ := ownBegun_frame s
  rw [addOwnJob_eq, h]
  generalize ownQueue s j = jobs
  have hregs : regsKept { s with nv := { nv with jobs := jobs } } (wrB { s with nv := { nv with jobs := jobs } } F.NVM_ACC_STAT_busy true)
    [F.NVM_ACC_STAT_busy.off] := regsKept_wr _ _ _ (.head _)
  obtain ⟨r, hr⟩ := (RegOnly.wrB { s with nv := { nv with jobs := jobs } } F.NVM_ACC_STAT_busy true).exists_reg
  rw [hr] at hregs ⊢
  exact ⟨rfl, hregs⟩

theorem foldl_nvmWrites {α : Type} {f : State → α → State} (h : ∀ u a, NvmWrites u (f u a)) (l : List α) (s : State) :
    NvmWrites s (l.foldl f s) := by
  induction l generalizing s with
  | nil => exact ⟨rfl, fun _ _ => rfl⟩
  | cons a l ih => exact (h s a).trans (ih _)

/-- An increment with room in its tallies is the write of one (R432). -/
theorem incCounter_tally {k v q : Nat} (hbase : cntBase s (nvmFuture s) k = some (v, q))
    (ht : ((List.range 32).filter (fun g => tallyCounts s (nvmFuture s) k q g)).length < 32) :
    incCounter s k = addTally s k ((List.range 32).filter (fun g => tallyCounts s (nvmFuture s) k q g)).length q := by
  unfold incCounter
  rw [hbase]
  exact if_pos ht

/-- Every increment ends with the write of a tally. -/
theorem incCounter_ends (s : State) (k : Nat) : ∃ u g q, NvmWrites s u ∧ incCounter s k = addTally u k g q := by
  have hbase (u : State) (v : Nat) : NvmWrites u (addBase u k v) := addOwnJob_writes ..
  unfold incCounter
  split
  · exact ⟨_, _, _, hbase s 0, rfl⟩
  · next v q _ =>
    dsimp only
    split
    · exact ⟨s, _, _, ⟨rfl, fun _ _ => rfl⟩, rfl⟩
    · exact ⟨_, _, _, (hbase s (v + 32)).trans (foldl_nvmWrites (fun u i => addOwnJob_writes ..) _ _), rfl⟩

theorem incCounter_writes (s : State) (k : Nat) : NvmWrites s (incCounter s k) ∧ rd (incCounter s k) F.NVM_ACC_STAT_busy = 1 ∧
    ∃ j ∈ (incCounter s k).nv.jobs, j.kind = .tally k := by
  obtain ⟨u, g, q, hu, heq⟩ := incCounter_ends s k
  rw [heq, addTally]
  exact ⟨hu.trans (addOwnJob_writes ..), addOwnJob_busy .., _, mem_addOwnJob .., rfl⟩

end Sys2Proof.Machine
end

section
namespace Sys2Proof.Machine

/-! Hours of emission and of panel outputs (R279, R431) -/

/-- What an hour's increment leaves: the tally waits in the NVM's queue, and no memory changes yet. -/
structure HourTallied (s t : State) (k : Nat) : Prop where
  tally : ∃ j ∈ t.nv.jobs, j.kind = .tally k
  busy : rd t F.NVM_ACC_STAT_busy = 1
  memory : memKept s t
  regs : regsKept s t [F.NVM_ACC_STAT_busy.off]
  page : ∀ v q n, cntBase s (nvmFuture s) k = some (v, q) → n < 32 →
    ((List.range 32).filter (fun g => tallyCounts s (nvmFuture s) k q g)).length = n →
    t.nv.jobs.length = s.nv.jobs.length + 1 ∧
    { page := (tallyAt k n).1, todo := [((tallyAt k n).2, whole (tallyBytes k n q))], kind := .tally k } ∈ t.nv.jobs

/-- The increment after a change of the clock and of the ageing engine's own counts. -/
theorem incCounter_hour (s : State) (tick : Nat) (age : Age) (k : Nat) : HourTallied s (incCounter { s with tick := tick, age := age } k) k ∧
    (incCounter { s with tick := tick, age := age } k).tick = tick ∧ (incCounter { s with tick := tick, age := age } k).age = age := by
  have hsame : SameNvm s { s with tick := tick, age := age } := ⟨rfl, rfl, rfl⟩
  have hmem : memKept s { s with tick := tick, age := age } := ⟨rfl, rfl, rfl, rfl, rfl, rfl⟩
  have hregs : regsKept s { s with tick := tick, age := age } [F.NVM_ACC_STAT_busy.off] := fun _ _ => rfl
  have hjobs : ({ s with tick := tick, age := age } : State).nv.jobs = s.nv.jobs := rfl
  have htick : ({ s with tick := tick, age := age } : State).tick = tick := rfl
  have hage : ({ s with tick := tick, age := age } : State).age = age := rfl
  generalize ({ s with tick := tick, age := age } : State) = m at *
  obtain ⟨hwrites, hbusy, htally⟩ := incCounter_writes m k
  refine ⟨⟨htally, hbusy, memKept_trans hmem hwrites.memKept, regsKept_trans hregs hwrites.2, fun v q n hbase hn hcount => ?_⟩,
    hwrites.tick.trans htick, hwrites.age.trans hage⟩
  rw [← hsame.nvmFuture] at hbase hcount
  rw [← hsame.cntBase] at hbase
  rw [← hsame.tallyCounts] at hcount
  rw [incCounter_tally hbase (by rw [hcount]; exact hn), hcount, addTally]
  refine ⟨?_, mem_addOwnJob ..⟩
  rw [addOwnJob_jobs, length_ownQueue, hjobs]

theorem emissionHour_eq {s : State} {t0 : Nat} (h : s.age.emitAt = some t0) : emissionHour s = incCounter
    { s with
      tick := max s.tick (t0 + (hourTicks - s.age.emitAcc))
      age := { s.age with
        sinceAcc := s.age.sinceAcc + (max s.tick (t0 + (hourTicks - s.age.emitAcc)) - t0)
        emitAcc := s.age.emitAcc + (max s.tick (t0 + (hourTicks - s.age.emitAcc)) - t0) - hourTicks
        emitAt := some (max s.tick (t0 + (hourTicks - s.age.emitAcc))) } } 1 := by
  simp only [emissionHour, h, sinceTicks, emitNow, reach]

theorem panelOnHour_eq {s : State} {t0 : Nat} (h : s.age.onAt = some t0) : panelOnHour s = incCounter
    { s with
      tick := max s.tick (t0 + (hourTicks - s.age.onAcc))
      age := { s.age with
        onAcc := s.age.onAcc + (max s.tick (t0 + (hourTicks - s.age.onAcc)) - t0) - hourTicks
        onAt := some (max s.tick (t0 + (hourTicks - s.age.onAcc))) } } 0 := by
  simp only [panelOnHour, h, reach]

theorem exec_emissionHour (s : State) : exec .emissionHour s = .next (emissionHour s) := rfl

theorem exec_panelOnHour (s : State) : exec .panelOnHour s = .next (panelOnHour s) := rfl

/-- Settles O32: each command moves the clock and the engine's own counts, then increments its counter, whose last write is a tally. -/
theorem runningHoursAreTallied : Obligations.RunningHoursAreTallied := by
  unfold Obligations.RunningHoursAreTallied
  refine ⟨fun s t0 h => ?_, fun s h => ?_, fun s t0 h => ?_, fun s h => ?_⟩
  · rw [exec_emissionHour, emissionHour_eq h]
    obtain ⟨htallied, htick, hage⟩ := incCounter_hour s _ _ 1
    refine ⟨_, rfl, htick, ?_, ?_, ?_, htallied.tally, htallied.busy, htallied.memory, htallied.regs, htallied.page⟩ <;> rw [htick, hage]
  · rw [exec_emissionHour, emissionHour, h]
  · rw [exec_panelOnHour, panelOnHour_eq h]
    obtain ⟨htallied, htick, hage⟩ := incCounter_hour s _ _ 0
    refine ⟨_, rfl, htick, ?_, ?_, htallied.tally, htallied.busy, htallied.memory, htallied.regs, htallied.page⟩ <;> rw [htick, hage]
  · rw [exec_panelOnHour, panelOnHour, h]

end Sys2Proof.Machine
end

section
namespace Sys2Proof.Machine

/-! Drizzle's tokens and sense slots (R265, R313) -/

theorem exec_drizzleToken (s : State) : exec .drizzleToken s = .next (drizzleToken s) := rfl
theorem exec_drizzleSlotStart (s : State) : exec .drizzleSlotStart s = .next (drizzleStart s) := rfl
theorem exec_drizzleSlotEnd (s : State) : exec .drizzleSlotEnd s = .next (drizzleEnd s) := rfl
theorem exec_senseResultsComplete (s : State) : exec .senseResultsComplete s = .next (senseComplete s) := rfl
theorem exec_senseResultsTimeout (s : State) : exec .senseResultsTimeout s = .next (senseTimeout s) := rfl

/-- The clock at the next token. -/
def tokenDue (s : State) : State :=
  { s with
    tick := max s.tick (s.age.tokenAt + rd s F.AGE_DRZ_CFG_gap_ms * Config.tickMs)
    age := { s.age with tokenAt := max s.tick (s.age.tokenAt + rd s F.AGE_DRZ_CFG_gap_ms * Config.tickMs) } }

theorem drizzleToken_on {s : State} (h : drizzleOn s = true) : drizzleToken s =
    wr (tokenDue s) F.AGE_DRZ_STAT_tokens (min (rd s F.AGE_DRZ_STAT_tokens + 1) (rd s F.AGE_DRZ_CFG_max_rows)) := by
  rw [drizzleToken, if_neg (by simp [h])]
  rfl

theorem drizzleToken_off {s : State} (h : drizzleOn s = false) : drizzleToken s = s := by
  rw [drizzleToken, if_pos (by simp [h])]

theorem allSlots_modSlot (s : State) (x : SenseSlot) (f : SenseSlot → SenseSlot) :
    allSlots (modSlot s x f) = (allSlots s).map (fun y => if y = x then f y else y) := by
  unfold allSlots modSlot
  cases s.exs.bank <;> simp

/-- A sense slot's mark at its tick at the panel changes the clock and the calendar only. -/
def slotMarked (s : State) (x : SenseSlot) (f : SenseSlot → SenseSlot) (t : Nat) : State := reach (modSlot s x f) (t + lOut)

theorem drizzleStart_some {s : State} {x : SenseSlot} (h : (allSlots s).find? (fun x => !x.started) = some x) :
    drizzleStart s = slotMarked s x (fun y => { y with started := true }) x.a := by
  rw [drizzleStart, h]
  rfl

theorem drizzleStart_none {s : State} (h : (allSlots s).find? (fun x => !x.started) = none) : drizzleStart s = s := by rw [drizzleStart, h]

/-- Each group of a list is asked for the results of a row (R313). -/
def rowAsked (l : List Nat) (r : SenseRow) (s : State) : State := l.foldl (fun s g => newReq s 1 g 0 (r.tag % 8) r.row) s

/-- A packet that asks group `g` for the results of a row waits in a queue. -/
def Asks (q : List Pkt) (r : SenseRow) (g : Nat) : Prop :=
  ∃ p ∈ q, ∃ a, p.req = some a ∧ a.kind = 1 ∧ a.group.val = g % 24 ∧ a.tag = r.tag % 8 ∧ a.row = r.row

theorem rowAsked_queue (l : List Nat) (r : SenseRow) (s : State) : ∃ drv, rowAsked l r s = { s with drv := drv } ∧
    (∀ p ∈ s.drv.queue, p ∈ drv.queue) ∧ ∀ g ∈ l, Asks drv.queue r g := by
  induction l generalizing s with
  | nil => exact ⟨s.drv, rfl, fun _ h => h, by simp⟩
  | cons g l ih =>
    obtain ⟨drv, heq, hold, hnew⟩ := ih (newReq s 1 g 0 (r.tag % 8) r.row)
    refine ⟨drv, heq, fun p hp => hold p (List.mem_append_left _ hp), ?_⟩
    rintro g' hg'
    rcases List.mem_cons.1 hg' with rfl | hmem
    · exact ⟨_, hold _ (List.mem_append_right _ (.head _)), _, rfl, rfl, rfl, rfl, rfl⟩
    · exact hnew g' hmem

theorem liveGroup_lt {s : State} {g : Nat} (h : g ∈ liveGroups s) : g < 24 := by
  have hused := (List.mem_filter.1 h).1
  exact List.mem_range.1 (List.mem_filter.1 hused).1

/-- The row's results are asked for and it counts as asked. -/
def rowRequested (s : State) (r : SenseRow) : State :=
  { rowAsked (liveGroups s) r s with
    age.rows := (rowAsked (liveGroups s) r s).age.rows.map (fun y => if y.tag = r.tag then { y with asked := true } else y) }

theorem drizzleEnd_some {s : State} {x : SenseSlot} (h : (allSlots s).find? (fun x => x.started && !x.ended) = some x) :
    drizzleEnd s = match s.age.rows.find? (fun r => r.row = x.row && r.slotEnd = x.b) with
      | some r => rowRequested (slotMarked s x (fun y => { y with ended := true }) x.b) r
      | none => slotMarked s x (fun y => { y with ended := true }) x.b := by
  rw [drizzleEnd, h]
  rfl

theorem drizzleEnd_none {s : State} (h : (allSlots s).find? (fun x => x.started && !x.ended) = none) : drizzleEnd s = s := by
  rw [drizzleEnd, h]

theorem rowRequested_effect (s : State) (r : SenseRow) : ∃ drv age, rowRequested s r = { s with drv := drv, age := age } ∧
    (∀ y ∈ age.rows, y.tag = r.tag → y.asked = true) ∧ ∀ g ∈ liveGroups s, Asks drv.queue r g := by
  obtain ⟨drv, heq, -, hnew⟩ := rowAsked_queue (liveGroups s) r s
  refine ⟨drv, { s.age with rows := s.age.rows.map (fun y => if y.tag = r.tag then { y with asked := true } else y) }, ?_, fun y hy ht => ?_, hnew⟩
  · rw [rowRequested, heq]
  · obtain ⟨z, -, rfl⟩ := List.mem_map.1 hy
    by_cases hz : z.tag = r.tag
    · rw [if_pos hz]
    · rw [if_neg hz] at ht
      exact absurd ht hz

end Sys2Proof.Machine
end


section
namespace Sys2Proof.Machine

/-! Results of a sensed row (R267, R270 to R272): what their use leaves alone -/

/-- Counters, records and GDDR6 may have changed, with the registers at `offs`. -/
structure Blends (offs : List Nat) (s t : State) : Prop where
  frame : t = { s with reg := t.reg, now := t.now, evt := t.evt, gddr := t.gddr, mem := t.mem, fresh := t.fresh }
  regs : regsKept s t offs
  posts : ∀ r ∈ s.evt.posted, r ∈ t.evt.posted

namespace Blends

variable {offs : List Nat} {s t u : State}

theorem refl (offs : List Nat) (s : State) : Blends offs s s := ⟨rfl, fun _ _ => rfl, fun _ h => h⟩

theorem trans (h : Blends offs s t) (h' : Blends offs t u) : Blends offs s u :=
  ⟨h'.frame.trans (by rw [h.frame]), regsKept_trans h.regs h'.regs, fun r hr => h'.posts r (h.posts r hr)⟩

theorem wr (s : State) (f : Fld) (x : Nat) (h : f.off ∈ offs) : Blends offs s (wr s f x) := ⟨rfl, regsKept_wr s f x h, fun _ h => h⟩

theorem wrB (s : State) (f : Fld) (b : Bool) (h : f.off ∈ offs) : Blends offs s (wrB s f b) := wr s f _ h

theorem bump (s : State) (f : Fld) (h : f.off ∈ offs) : Blends offs s (bump s f) := ⟨rfl, regsKept_wr s f _ h, fun _ h => h⟩

theorem post (s : State) (c b i : Nat) (f : Fld) (q : List (Nat × Nat)) : Blends offs s (post s c b i f q) :=
  ⟨rfl, fun _ _ => rfl, fun _ h => (mem_insRec _ _ _).2 (.inr h)⟩

theorem free (s : State) (x : Nat) : Blends offs s { s with fresh := x } := ⟨rfl, fun _ _ => rfl, fun _ h => h⟩

theorem foldl {α : Type} {f : State → α → State} (h : ∀ u a, Blends offs u (f u a)) (l : List α) (s : State) : Blends offs s (l.foldl f s) := by
  induction l generalizing s with
  | nil => exact refl offs s
  | cons a l ih => exact (h s a).trans (ih _)

theorem gddrWr (s : State) (cls a : Nat) (bs : List Byte) (h : a + bs.length ≤ memCap s) : Blends offs s (gddrWr s cls a bs) := by
  obtain ⟨-, hreg, hevt⟩ := gddrWr_within s cls a bs h
  refine ⟨?_, fun o _ => rdW_congr hreg o, fun r hr => by rw [hevt]; exact hr⟩
  have hframe := gddrWr_frame s cls a bs
  generalize Machine.gddrWr s cls a bs = t at *
  rw [hframe]

theorem age (h : Blends offs s t) : t.age = s.age := by rw [h.frame]
theorem tick (h : Blends offs s t) : t.tick = s.tick := by rw [h.frame]
theorem lst (h : Blends offs s t) : t.lst = s.lst := by rw [h.frame]
theorem flash (h : Blends offs s t) : t.flash = s.flash := by rw [h.frame]
theorem nvm (h : Blends offs s t) : t.nvm = s.nvm := by rw [h.frame]

end Blends

/-- The registers that the use of a row's results writes. -/
def blendRegs : List Nat :=
  [F.AGE_CNT_INVALID_subpixels.off, F.AGE_CNT_OUTLIER_subpixels.off, F.CDC_CNT_BERR_blocks.off, F.CDC_BERR_INFO.off,
   F.CDC_BERR_ADDR_LO_addr.off, F.CDC_BERR_ADDR_HI_addr.off, F.MEM_ERR_INFO_kind.off, F.MEM_ERR_ADDR_LO_addr.off, F.MEM_ERR_ADDR_HI_addr.off]

theorem memReach_blends (s : State) (cls a n : Nat) : Blends blendRegs s (memReach s cls a n) := by
  unfold memReach memErr
  split
  · exact .refl _ s
  · exact (Blends.wr _ _ _ (by decide)).trans <| (Blends.wr _ _ _ (by decide)).trans <| (Blends.wr _ _ _ (by decide)).trans <|
      (Blends.wr _ _ _ (by decide)).trans <| (Blends.wr _ _ _ (by decide)).trans (.post ..)

theorem blockError_blends (s : State) (cause user lane : Nat) (lst : Bool) (addr : Nat) :
    Blends blendRegs s (blockError s cause user lane lst addr) :=
  (Blends.bump _ _ (by decide)).trans <| (Blends.wr _ _ _ (by decide)).trans <| (Blends.wr _ _ _ (by decide)).trans <|
    (Blends.wr _ _ _ (by decide)).trans <| (Blends.wrB _ _ _ (by decide)).trans <| (Blends.wr _ _ _ (by decide)).trans <|
      (Blends.wr _ _ _ (by decide)).trans (.post ..)

theorem baselineErrors_blends (Y : Nat) (s : State) (l : List (Nat × Nat)) : Blends blendRegs s (baselineErrors Y s l) := by
  unfold baselineErrors
  refine Blends.foldl (fun u b => ?_) _ s
  have hread := memReach_blends u 6 b.1 (blockLen u false b.1)
  dsimp only
  split
  · exact hread
  · exact hread.trans ((Blends.free ..).trans (blockError_blends ..))

theorem setStress_blends {offs : List Nat} (s : State) (X Y c v : Nat) (h : stressAddr s X Y c + 4 ≤ memCap s) :
    Blends offs s (setStress s X Y c v) := .gddrWr s 6 _ _ (by rw [length_leBytes]; exact h)

theorem blendSub_blends (Y : Nat) (s : State) (r : (Nat × Nat) × (Bool × Nat × Nat)) : Blends blendRegs s (blendSub Y s r) := by
  have hinvalid : Blends blendRegs s (bump s F.AGE_CNT_INVALID_subpixels) := .bump _ _ (by decide)
  unfold blendSub
  dsimp only
  split
  · split
    · exact hinvalid
    · split
      · exact memReach_blends ..
      · next hfit =>
        split
        · exact .bump _ _ (by decide)
        · exact setStress_blends _ _ _ _ _ (by simp at hfit; exact hfit.1)
  · exact hinvalid

/-! The cursor (R267, R268) -/

/-- The registers that the cursor's move writes. -/
def cursorRegs : List Nat := [F.AGE_DRZ_STAT_cursor.off, F.AGE_SWEEP_seconds.off, F.AGE_SWEEP_CNT_sweeps.off]

/-- Past the last row the sweep is counted and its time shown; -/
def sweepShown (s : State) : State :=
  let s := wr s F.AGE_DRZ_STAT_cursor 0
  wr (bump s F.AGE_SWEEP_CNT_sweeps) F.AGE_SWEEP_seconds ((s.tick - s.age.sweepAt) / Config.tickHz)

/-- the next one begins. -/
def sweepBegun (s : State) : State := { s with age.sweepAt := s.tick }

theorem cursorStep_eq (s : State) : cursorStep s =
    if rd s F.AGE_DRZ_STAT_cursor + 1 < panelH s then wr s F.AGE_DRZ_STAT_cursor (rd s F.AGE_DRZ_STAT_cursor + 1)
    else info (sweepBegun (sweepShown s)) blkAGE 0 F.AGE_SWEEP_CNT_sweeps := rfl

/-- The cursor's registers and the ageing engine's own state have changed, but the rows whose results are outstanding stand. -/
def CursorWork (s t : State) : Prop := Edge cursorRegs s t ∧ t.age.rows = s.age.rows

namespace CursorWork

variable {s t u : State}

theorem trans (h : CursorWork s t) (h' : CursorWork t u) : CursorWork s u := ⟨h.1.trans h'.1, h'.2.trans h.2⟩

theorem own (s : State) (age : Age) (h : age.rows = s.age.rows) : CursorWork s { s with age := age } := ⟨.of_time rfl rfl rfl, h⟩

end CursorWork

theorem sweepShown_work (s : State) : CursorWork s (sweepShown s) := by
  unfold sweepShown
  exact ⟨(Edge.wr s F.AGE_DRZ_STAT_cursor 0 (by decide)).trans <| (Edge.bump _ F.AGE_SWEEP_CNT_sweeps (by decide)).trans
    (.wr _ F.AGE_SWEEP_seconds _ (by decide)), by rw [wr_age, bump_age, wr_age]⟩

theorem cursorStep_work (s : State) : CursorWork s (cursorStep s) := by
  rw [cursorStep_eq]
  split
  · exact ⟨.wr _ _ _ (by decide), by rw [wr_age]⟩
  · have h := sweepShown_work s
    generalize sweepShown s = m at *
    exact h.trans ((CursorWork.own m { m.age with sweepAt := m.tick } rfl).trans ⟨.info .., rfl⟩)

theorem cursorRun_work (n : Nat) (s : State) : CursorWork s (cursorRun n s) := by
  induction n generalizing s with
  | zero => exact ⟨.refl _ s, rfl⟩
  | succ n ih =>
    simp only [cursorRun]
    split
    · exact ((CursorWork.own s { s.age with past := s.age.past.filter (fun r => r != rd s F.AGE_DRZ_STAT_cursor) } rfl).trans
        (cursorStep_work _)).trans (ih _)
    · exact ⟨.refl _ s, rfl⟩

/-- The row has no failures any more, and is passed once the cursor gets there. -/
def rowCleared (s : State) (row : Nat) : State := { s with age.fails := sset 0 s.age.fails row 0 }
def rowPassed (s : State) (row : Nat) : State := { s with age.past := row :: s.age.past }

theorem cursorPast_eq (s : State) (row : Nat) : cursorPast s row =
    if (row + panelH s - rd s F.AGE_DRZ_STAT_cursor) % max 1 (panelH s) < 8 then cursorRun 9 (rowPassed (rowCleared s row) row)
    else rowCleared s row := rfl

theorem cursorPast_work (s : State) (row : Nat) : CursorWork s (cursorPast s row) := by
  have hcleared : CursorWork s (rowCleared s row) := .own s { s.age with fails := sset 0 s.age.fails row 0 } rfl
  rw [cursorPast_eq]
  split
  · refine hcleared.trans (CursorWork.trans ?_ (cursorRun_work ..))
    exact .own (rowCleared s row) { (rowCleared s row).age with past := row :: (rowCleared s row).age.past } rfl
  · exact hcleared

theorem cursorStep_next {s : State} (h : rd s F.AGE_DRZ_STAT_cursor + 1 < panelH s) :
    rd (cursorStep s) F.AGE_DRZ_STAT_cursor = rd s F.AGE_DRZ_STAT_cursor + 1 ∧ (cursorStep s).age = s.age := by
  have hheight : rd s F.SCN_ACTIVE_height_m1 < 8192 := Nat.mod_lt _ (by decide)
  rw [cursorStep_eq, if_pos h, rd_wr_same _ _ _ (by decide)]
  refine ⟨Nat.mod_eq_of_lt (?_ : _ < 8192), rfl⟩
  rw [panelH] at h
  omega

theorem cursorRun_stays {s : State} (n : Nat) (h : s.age.past.contains (rd s F.AGE_DRZ_STAT_cursor) = false) : cursorRun n s = s := by
  cases n with
  | zero => rfl
  | succ n => rw [cursorRun, h, if_neg (by decide)]

/-- With its own row passed and the next one not, the cursor moves by one. -/
theorem cursorRun_next {s : State} (n : Nat) (hrow : rd s F.AGE_DRZ_STAT_cursor ∈ s.age.past)
    (hnext : rd s F.AGE_DRZ_STAT_cursor + 1 ∉ s.age.past) (hlast : rd s F.AGE_DRZ_STAT_cursor + 1 < panelH s) :
    rd (cursorRun (n + 1) s) F.AGE_DRZ_STAT_cursor = rd s F.AGE_DRZ_STAT_cursor + 1 := by
  let m : State := { s with age.past := s.age.past.filter (fun r => r != rd s F.AGE_DRZ_STAT_cursor) }
  obtain ⟨hmoved, hage⟩ := cursorStep_next (s := m) hlast
  have hstays : (cursorStep m).age.past.contains (rd (cursorStep m) F.AGE_DRZ_STAT_cursor) = false := by
    rw [hmoved, hage]
    simpa [m, rd_congr (show m.reg = s.reg from rfl)] using fun h => absurd h hnext
  rw [cursorRun, if_pos (by simpa using hrow)]
  show rd (cursorRun n (cursorStep m)) _ = _
  rw [cursorRun_stays n hstays, hmoved]
  rfl

/-- A row that the cursor stands on moves it to the next, where that has not been passed (R267). -/
theorem cursorPast_next {s : State} {row : Nat} (hc : rd s F.AGE_DRZ_STAT_cursor = row) (hlast : row + 1 < panelH s)
    (hnext : row + 1 ∉ s.age.past) : rd (cursorPast s row) F.AGE_DRZ_STAT_cursor = row + 1 := by
  have hhere : (row + panelH s - row) % max 1 (panelH s) = 0 := by
    rw [Nat.add_sub_cancel_left, Nat.max_eq_right (by omega), Nat.mod_self]
  have hm : rd (rowPassed (rowCleared s row) row) F.AGE_DRZ_STAT_cursor = row := hc
  have hpast : (rowPassed (rowCleared s row) row).age.past = row :: s.age.past := rfl
  have hheight : panelH (rowPassed (rowCleared s row) row) = panelH s := rfl
  rw [cursorPast_eq, hc, hhere, if_pos (by decide)]
  generalize rowPassed (rowCleared s row) row = m at *
  rw [cursorRun_next 8 (by simp [hm, hpast]) (by simp [hm, hpast, hnext]) (by rw [hm, hheight]; exact hlast), hm]

/-! The end of a sensed row (R267) -/

/-- The row is no longer outstanding. -/
def rowDone (s : State) (r : SenseRow) : State := { s with age.rows := s.age.rows.filter (fun x => x != r) }

/-- The baseline blocks that fail are reported, and its results are used. -/
def rowBlended (s : State) (r : SenseRow) : State :=
  let s := baselineErrors (lineOf s r.row) s ((rowResults s r).map (fun x => x.1))
  (rowResults s r).foldl (blendSub (lineOf s r.row)) s

theorem senseComplete_none {s : State} (h : s.age.rows.find? (fun r => rowComplete s r && decide (s.tick ≤ r.deadline)) = none) :
    senseComplete s = s := by rw [senseComplete, h]

theorem senseComplete_some {s : State} {r : SenseRow} (h : s.age.rows.find? (fun r => rowComplete s r && decide (s.tick ≤ r.deadline)) = some r) :
    senseComplete s = ageStatus (cursorPast (bump (rowBlended (rowDone s r) r) F.AGE_CNT_SENSED_rows) r.row) := by
  rw [senseComplete, h]
  rfl

theorem rowBlended_blends (s : State) (r : SenseRow) : Blends blendRegs s (rowBlended s r) :=
  (baselineErrors_blends ..).trans (.foldl (fun u x => blendSub_blends _ u x) _ _)

/-- The cursor's registers are not among those that results or the engine's status write. -/
theorem rd_cursorWork {s t : State} (h : CursorWork s t) {f : Fld} (hf : f.off ∉ cursorRegs) : rd t f = rd s f := rd_regsKept h.1.regs hf

/-- What the end of a sensed row leaves. -/
structure RowSensed (s t : State) (r : SenseRow) : Prop where
  rows : t.age.rows = s.age.rows.filter (fun x => x != r)
  count : rd t F.AGE_CNT_SENSED_rows = counted s F.AGE_CNT_SENSED_rows
  lst : t.lst = s.lst
  flash : t.flash = s.flash
  nvm : t.nvm = s.nvm
  cursor : rd s F.AGE_DRZ_STAT_cursor = r.row → r.row + 1 < panelH s → r.row + 1 ∉ s.age.past → rd t F.AGE_DRZ_STAT_cursor = r.row + 1

theorem senseComplete_sensed {s : State} {r : SenseRow}
    (h : s.age.rows.find? (fun r => rowComplete s r && decide (s.tick ≤ r.deadline)) = some r) : RowSensed s (senseComplete s) r := by
  have hblend := rowBlended_blends (rowDone s r) r
  rw [senseComplete_some h]
  generalize rowBlended (rowDone s r) r = m at hblend ⊢
  have hrd {f : Fld} (hf : f.off ∉ blendRegs) : rd m f = rd s f := rd_regsKept hblend.regs hf
  have hpast : (bump m F.AGE_CNT_SENSED_rows).age.past = s.age.past := by rw [bump_age, hblend.age]; rfl
  have hwork := cursorPast_work (bump m F.AGE_CNT_SENSED_rows) r.row
  have hnext := @cursorPast_next (bump m F.AGE_CNT_SENSED_rows) r.row
  obtain ⟨-, hlst, hflash, hnvm, -⟩ := hwork.1.time.memKept
  generalize cursorPast (bump m F.AGE_CNT_SENSED_rows) r.row = c at *
  have hcount := rd_ageStatus c (f := F.AGE_CNT_SENSED_rows) (by decide)
  have hcursor := rd_ageStatus c (f := F.AGE_DRZ_STAT_cursor) (by decide)
  obtain ⟨reg, heq⟩ := (ageStatus_regOnly c).exists_reg
  rw [heq] at hcount hcursor ⊢
  refine ⟨hwork.2.trans ?_, ?_, hlst.trans hblend.lst, hflash.trans hblend.flash, hnvm.trans hblend.nvm, fun hat hlast hfree => ?_⟩
  · rw [bump_age, hblend.age]
    rfl
  · rw [hcount, rd_cursorWork hwork (by decide), rd_bump _ _ (by decide), counted_congr _ (hrd (by decide))]
  · refine hcursor.trans (hnext ?_ ?_ (by rw [hpast]; exact hfree))
    · rw [rd_bump_other _ _ _ (by decide), hrd (by decide), hat]
    · rw [panelH, rd_bump_other _ _ _ (by decide), hrd (by decide)]
      exact hlast

/-! A row whose time is over (R267) -/

/-- It is no longer outstanding, and one more failure in a row is noted. -/
def rowFailed (s : State) (r : SenseRow) (rest : List SenseRow) : State :=
  { s with
    tick := max s.tick r.deadline
    age := { s.age with rows := rest, fails := sset 0 s.age.fails r.row (sget 0 s.age.fails r.row + 1) } }

theorem rowFailed_fields (s : State) (r : SenseRow) (rest : List SenseRow) : memKept s (rowFailed s r rest) ∧ (rowFailed s r rest).reg = s.reg ∧
    (rowFailed s r rest).tick = max s.tick r.deadline ∧ (rowFailed s r rest).age.rows = rest := by
  unfold rowFailed
  exact ⟨⟨rfl, rfl, rfl, rfl, rfl, rfl⟩, rfl, rfl, rfl⟩

/-- It counts as skipped, with a warning. -/
def rowSkipped (s : State) : State := warning (bump s F.AGE_CNT_ROWS_skipped) blkAGE 0 F.AGE_CNT_ROWS_skipped

theorem rd_warning (s : State) (b i : Nat) (f g : Fld) (q : List (Nat × Nat)) : rd (warning s b i f q) g = rd s g := rfl

theorem rowSkipped_counts (s : State) : LaneWork [] s (rowSkipped s) ∧
    rd (rowSkipped s) F.AGE_CNT_ROWS_skipped = counted s F.AGE_CNT_ROWS_skipped ∧
    posted (rowSkipped s) clsWarning blkAGE 0 F.AGE_CNT_ROWS_skipped [] :=
  ⟨(LaneWork.bump s F.AGE_CNT_ROWS_skipped (by decide)).trans (.post ..),
    by rw [rowSkipped, rd_warning, rd_bump s F.AGE_CNT_ROWS_skipped (by decide)], posted_post ..⟩

theorem senseTimeout_eq {s : State} {r : SenseRow} {rest : List SenseRow} (h : s.age.rows = r :: rest) : senseTimeout s = ageStatus
    (if rd s F.AGE_DRZ_CFG_retry ≤ sget 0 s.age.fails r.row + 1 then cursorPast (rowSkipped (rowFailed s r rest)) r.row
     else bump (rowFailed s r rest) F.AGE_CNT_ROWS_retried) := by
  rw [senseTimeout, h]
  rfl

/-- A cursor moved past a row leaves what the row's end counted and reported. -/
theorem cursorPast_shows (s : State) (row : Nat) : (ageStatus (cursorPast s row)).tick = s.tick ∧
    (ageStatus (cursorPast s row)).age.rows = s.age.rows ∧ memKept s (ageStatus (cursorPast s row)) ∧
    rd (ageStatus (cursorPast s row)) F.AGE_CNT_ROWS_skipped = rd s F.AGE_CNT_ROWS_skipped ∧
    (posted s clsWarning blkAGE 0 F.AGE_CNT_ROWS_skipped [] → posted (ageStatus (cursorPast s row)) clsWarning blkAGE 0 F.AGE_CNT_ROWS_skipped []) := by
  have hwork := cursorPast_work s row
  generalize cursorPast s row = c at *
  have hshown := rd_ageStatus c (f := F.AGE_CNT_ROWS_skipped) (by decide)
  obtain ⟨reg, heq⟩ := (ageStatus_regOnly c).exists_reg
  rw [heq] at hshown ⊢
  exact ⟨hwork.1.time.tick, hwork.2, hwork.1.time.memKept, hshown.trans (rd_cursorWork hwork (by decide)), fun hp => hwork.1.posted hp⟩

/-- A row given up moves the cursor on once it stands there. -/
theorem senseTimeout_skips {s : State} {r : SenseRow} {rest : List SenseRow} (h : s.age.rows = r :: rest)
    (hn : rd s F.AGE_DRZ_CFG_retry ≤ sget 0 s.age.fails r.row + 1) :
    (senseTimeout s).tick = max s.tick r.deadline ∧ (senseTimeout s).age.rows = rest ∧ memKept s (senseTimeout s) ∧
    rd (senseTimeout s) F.AGE_CNT_ROWS_skipped = counted s F.AGE_CNT_ROWS_skipped ∧
    posted (senseTimeout s) clsWarning blkAGE 0 F.AGE_CNT_ROWS_skipped [] := by
  obtain ⟨hskip, hcount, hpost⟩ := rowSkipped_counts (rowFailed s r rest)
  obtain ⟨hmem, hregs, htick, hrows⟩ := rowFailed_fields s r rest
  have hgo : senseTimeout s = ageStatus (cursorPast (rowSkipped (rowFailed s r rest)) r.row) := by rw [senseTimeout_eq h, if_pos hn]
  obtain ⟨htick', hrows', hmem', hcount', hpost'⟩ := cursorPast_shows (rowSkipped (rowFailed s r rest)) r.row
  rw [hgo]
  exact ⟨htick'.trans (hskip.tick.trans htick), hrows'.trans (by rw [hskip.age, hrows]), memKept_trans hmem (memKept_trans hskip.memKept hmem'),
    hcount'.trans (hcount.trans (counted_congr _ (rd_congr hregs _))), hpost' hpost⟩

/-- A row to be tried again leaves the cursor where it is. -/
theorem senseTimeout_retries {s : State} {r : SenseRow} {rest : List SenseRow} (h : s.age.rows = r :: rest)
    (hn : ¬ rd s F.AGE_DRZ_CFG_retry ≤ sget 0 s.age.fails r.row + 1) :
    (senseTimeout s).tick = max s.tick r.deadline ∧ (senseTimeout s).age.rows = rest ∧ memKept s (senseTimeout s) ∧
    rd (senseTimeout s) F.AGE_CNT_ROWS_retried = counted s F.AGE_CNT_ROWS_retried ∧
    rd (senseTimeout s) F.AGE_DRZ_STAT_cursor = rd s F.AGE_DRZ_STAT_cursor ∧
    sget 0 (senseTimeout s).age.fails r.row = sget 0 s.age.fails r.row + 1 := by
  have hcount : rd (bump (rowFailed s r rest) F.AGE_CNT_ROWS_retried) F.AGE_CNT_ROWS_retried = counted s F.AGE_CNT_ROWS_retried :=
    rd_bump (rowFailed s r rest) F.AGE_CNT_ROWS_retried (by decide)
  have hcursor : rd (bump (rowFailed s r rest) F.AGE_CNT_ROWS_retried) F.AGE_DRZ_STAT_cursor = rd s F.AGE_DRZ_STAT_cursor :=
    rd_bump_other (rowFailed s r rest) _ _ (by decide)
  have hage : (bump (rowFailed s r rest) F.AGE_CNT_ROWS_retried).age = (rowFailed s r rest).age := rfl
  have htick : (bump (rowFailed s r rest) F.AGE_CNT_ROWS_retried).tick = max s.tick r.deadline := rfl
  have hmem : memKept s (bump (rowFailed s r rest) F.AGE_CNT_ROWS_retried) := ⟨rfl, rfl, rfl, rfl, rfl, rfl⟩
  rw [senseTimeout_eq h, if_neg hn]
  generalize bump (rowFailed s r rest) F.AGE_CNT_ROWS_retried = m at *
  have hshown := rd_ageStatus m (f := F.AGE_CNT_ROWS_retried) (by decide)
  have hstands := rd_ageStatus m (f := F.AGE_DRZ_STAT_cursor) (by decide)
  obtain ⟨reg, heq⟩ := (ageStatus_regOnly m).exists_reg
  rw [heq] at hshown hstands ⊢
  refine ⟨htick, ?_, hmem, hshown.trans hcount, hstands.trans hcursor, ?_⟩
  · show m.age.rows = rest
    rw [hage]
    rfl
  · show sget 0 m.age.fails r.row = _
    rw [hage]
    show sget 0 (sset 0 s.age.fails r.row (sget 0 s.age.fails r.row + 1)) r.row = _
    rw [sget_sset, if_pos rfl]

theorem senseTimeout_none {s : State} (h : s.age.rows = []) : senseTimeout s = s := by rw [senseTimeout, h]

/-- Settles O30: tokens and slots act as their rules say; results of a complete row are blended (`Blends`) before the cursor passes it
(`CursorWork`), and a row without them is given up or tried again. -/
theorem drizzleTokensSlotsAndResults : Obligations.DrizzleTokensSlotsAndResults := by
  unfold Obligations.DrizzleTokensSlotsAndResults
  refine ⟨fun s hon => ?_, fun s hoff => ?_, fun s x hx => ?_, fun s hnone => ?_, fun s x hx => ?_, fun s hnone => ?_, fun s r hr => ?_,
    fun s hnone => ?_, fun s r l hrows => ?_, fun s hnone => ?_⟩
  · rw [exec_drizzleToken, drizzleToken_on hon]
    exact ⟨_, rfl, rfl, rfl, rd_wr_same (tokenDue s) _ _ (by decide), regsKept_wr (tokenDue s) _ _ (.head _), rfl, rfl, rfl, rfl, rfl, rfl⟩
  · rw [exec_drizzleToken, drizzleToken_off hoff]
  · rw [exec_drizzleSlotStart, drizzleStart_some hx]
    exact ⟨_, rfl, rfl, allSlots_modSlot .., rfl, rfl, rfl, rfl, rfl, rfl, rfl⟩
  · rw [exec_drizzleSlotStart, drizzleStart_none hnone]
  · rw [exec_drizzleSlotEnd, drizzleEnd_some hx]
    cases s.age.rows.find? (fun r => r.row = x.row && r.slotEnd = x.b) with
    | none =>
      exact ⟨_, rfl, rfl, allSlots_modSlot .., ⟨rfl, rfl, rfl, rfl, rfl, rfl⟩, rfl, fun r h => absurd h (by simp)⟩
    | some r =>
      obtain ⟨drv, age, heq, hasked, hgroups⟩ := rowRequested_effect (slotMarked s x (fun y => { y with ended := true }) x.b) r
      dsimp only
      rw [heq]
      refine ⟨_, rfl, rfl, allSlots_modSlot .., ⟨rfl, rfl, rfl, rfl, rfl, rfl⟩, rfl, fun r' h => ?_⟩
      obtain rfl := Option.some.inj h
      refine ⟨hasked, fun g hg => ?_⟩
      obtain ⟨p, hp, a, hreq, hkind, hgroup, htag, hline⟩ := hgroups g hg
      exact ⟨p, hp, a, hreq, hkind, hgroup.trans (Nat.mod_eq_of_lt (liveGroup_lt hg)), htag, hline⟩
  · rw [exec_drizzleSlotEnd, drizzleEnd_none hnone]
  · have hsensed := senseComplete_sensed hr
    refine ⟨_, exec_senseResultsComplete s, ?_, fun x hx hne => ?_, hsensed.count, hsensed.lst, hsensed.flash, hsensed.nvm,
      fun hat hlast hnext _ => hsensed.cursor hat hlast hnext⟩
    · simp [hsensed.rows]
    · simp [hsensed.rows, hx, hne]
  · rw [exec_senseResultsComplete, senseComplete_none hnone]
  · refine ⟨_, exec_senseResultsTimeout s, ?_⟩
    split
    · next hn =>
      obtain ⟨htick, hl, hmem, hcount, hpost⟩ := senseTimeout_skips hrows hn
      exact ⟨htick, hl, hmem, hcount, hpost⟩
    · next hn =>
      obtain ⟨htick, hl, hmem, hcount, hcursor, hfails⟩ := senseTimeout_retries hrows hn
      exact ⟨htick, hl, hmem, hcount, hcursor, hfails⟩
  · rw [exec_senseResultsTimeout, senseTimeout_none hnone]

end Sys2Proof.Machine
end

section
namespace Sys2Proof.Machine

/-! Stress counters (R254, R255): their places, and what a write of one leaves of the others -/

theorem ofLe_leBytes {k n : Nat} (h : n < 256 ^ k) : ofLe (leBytes n k) = n := by
  induction k generalizing n with
  | zero =>
    have hn : n = 0 := by simpa using h
    rw [hn, leBytes, ofLe]
  | succ k ih =>
    have hrest : n / 256 < 256 ^ k := Nat.div_lt_of_lt_mul (by rwa [← Nat.pow_succ'])
    have hbyte : (BitVec.ofNat 8 n).toNat = n % 256 := BitVec.toNat_ofNat ..
    rw [leBytes, ofLe, ih hrest, hbyte]
    omega

theorem repeat_add {α : Type} (f : α → α) (m n : Nat) (a : α) : Nat.repeat f (m + n) a = Nat.repeat f n (Nat.repeat f m a) := by
  induction n with
  | zero => rfl
  | succ n ih =>
    show f (Nat.repeat f (m + n) a) = f (Nat.repeat f n (Nat.repeat f m a))
    rw [ih]

/-- A counter's number among those of the panel. -/
def stressIndex (bw X Y c : Nat) : Nat := (Y / 32 * bw + X / 32) * 3072 + (1024 * c + 32 * (Y % 32) + X % 32)

/-- The first byte of the panel's counters. -/
def stressBase (s : State) : Nat := 4096 * rd s F.AGE_STRESS_LO_addr + 2 ^ 32 * rd s F.AGE_STRESS_HI_addr

theorem stressAddr_eq (s : State) (X Y c : Nat) : stressAddr s X Y c = stressBase s + 4 * stressIndex (panelBW s) X Y c := by
  unfold stressAddr stressBase stressIndex
  omega

theorem stressIndex_inj {bw X Y c X' Y' c' : Nat} (hX : X / 32 < bw) (hX' : X' / 32 < bw) (hc : c < 3) (hc' : c' < 3)
    (h : stressIndex bw X Y c = stressIndex bw X' Y' c') : X = X' ∧ Y = Y' ∧ c = c' := by
  unfold stressIndex at h
  have hblock : Y / 32 * bw + X / 32 = Y' / 32 * bw + X' / 32 := by omega
  have hrow : Y / 32 = Y' / 32 := by
    have hdiv := congrArg (· / bw) hblock
    simpa [Nat.add_div_of_dvd_right (Dvd.intro_left (Y / 32) rfl), Nat.add_div_of_dvd_right (Dvd.intro_left (Y' / 32) rfl),
      Nat.mul_div_cancel _ (show 0 < bw by omega), Nat.div_eq_of_lt hX, Nat.div_eq_of_lt hX'] using hdiv
  rw [hrow] at hblock
  omega

theorem blocksOf_lt {X w : Nat} (h : X < w) : X / 32 < blocksOf w := by
  unfold blocksOf
  omega

/-- Two counters of the panel lie apart. -/
theorem stressAddr_apart {s : State} {X Y c X' Y' c' : Nat} (hX : X < panelW s) (hX' : X' < panelW s) (hc : c < 3) (hc' : c' < 3)
    (h : ¬ (X = X' ∧ Y = Y' ∧ c = c')) : stressAddr s X Y c + 4 ≤ stressAddr s X' Y' c' ∨ stressAddr s X' Y' c' + 4 ≤ stressAddr s X Y c := by
  have hne : stressIndex (panelBW s) X Y c ≠ stressIndex (panelBW s) X' Y' c' := fun he =>
    h (stressIndex_inj (blocksOf_lt hX) (blocksOf_lt hX') hc hc' he)
  rw [stressAddr_eq, stressAddr_eq]
  omega

theorem stressOf_congr {s t : State} {X Y c : Nat} (ha : stressAddr t X Y c = stressAddr s X Y c)
    (h : ∀ a, stressAddr s X Y c ≤ a → a < stressAddr s X Y c + 4 → sget 0#8 t.gddr a = sget 0#8 s.gddr a) : stressOf t X Y c = stressOf s X Y c := by
  unfold stressOf gddrRd
  rw [ha]
  simp only [sgetList]
  rw [h _ (by omega) (by omega), h _ (by omega) (by omega), h _ (by omega) (by omega), h _ (by omega) (by omega)]

/-- Counters, their saturation count and the dither word may have changed, and poisoned granules been written. -/
structure Accrues (s t : State) : Prop where
  frame : t = { s with reg := t.reg, now := t.now, gddr := t.gddr, mem := { s.mem with gpoison := t.mem.gpoison },
                       age := { s.age with lfsr := t.age.lfsr } }
  regs : regsKept s t [F.AGE_CNT_SAT_increments.off]
  poison : ∀ g ∈ t.mem.gpoison, g ∈ s.mem.gpoison

namespace Accrues

variable {s t u : State}

theorem refl (s : State) : Accrues s s := ⟨rfl, fun _ _ => rfl, fun _ h => h⟩

theorem trans (h : Accrues s t) (h' : Accrues t u) : Accrues s u :=
  ⟨h'.frame.trans (by rw [h.frame]), regsKept_trans h.regs h'.regs, fun g hg => h.poison g (h'.poison g hg)⟩

theorem dither (s : State) (x : Nat) : Accrues s { s with age := { s.age with lfsr := x } } := ⟨rfl, fun _ _ => rfl, fun _ h => h⟩

theorem bump (s : State) : Accrues s (bump s F.AGE_CNT_SAT_increments) := ⟨rfl, regsKept_wr s _ _ (.head _), fun _ h => h⟩

theorem gddrWr (s : State) (cls a : Nat) (bs : List Byte) (h : a + bs.length ≤ memCap s) : Accrues s (gddrWr s cls a bs) := by
  obtain ⟨-, hreg, -⟩ := gddrWr_within s cls a bs h
  refine ⟨?_, fun o _ => rdW_congr hreg o, fun g hg => ?_⟩
  · rw [Machine.gddrWr, memReach_within s cls a _ h]
  · rw [Machine.gddrWr, memReach_within s cls a _ h] at hg
    exact (List.mem_filter.1 hg).1

theorem rd (h : Accrues s t) {f : Fld} (hf : f.off ∉ [F.AGE_CNT_SAT_increments.off]) : rd t f = rd s f := rd_regsKept h.regs hf

theorem panelW (h : Accrues s t) : panelW t = panelW s := by rw [Machine.panelW, h.rd (by decide), Machine.panelW]

theorem panelH (h : Accrues s t) : panelH t = panelH s := by rw [Machine.panelH, h.rd (by decide), Machine.panelH]

theorem memCap (h : Accrues s t) : memCap t = memCap s := memCap_congr (h.rd (by decide)) (h.rd (by decide))

theorem stressAddr (h : Accrues s t) (X Y c : Nat) : stressAddr t X Y c = stressAddr s X Y c := by
  unfold Machine.stressAddr panelBW
  rw [h.rd (by decide), h.rd (by decide), h.panelW]

theorem weightOf (h : Accrues s t) (c d : Nat) : weightOf t c d = weightOf s c d := by
  have htbl : t.age.tbl = s.age.tbl := by rw [h.frame]
  unfold Machine.weightOf ageTbl
  rw [htbl]

theorem litSpan (h : Accrues s t) (dir : Bool) (p : Pass) (j : Nat) : litSpan t dir p j = litSpan s dir p j := by
  unfold Machine.litSpan zoneLines zoneH zoneRows
  rw [h.panelH, h.rd (by decide)]

theorem emissionOf (h : Accrues s t) (u : Run) (p : Option Pass) (y : Nat) : emissionOf t u p y = emissionOf s u p y := by
  unfold Machine.emissionOf zoneH zoneRows
  rw [h.panelH, h.rd (by decide)]
  simp only [h.litSpan]

theorem readable (h : Accrues s t) {cls a n : Nat} (hs : readPoisoned s cls a n = false) : readPoisoned t cls a n = false := by
  have hspent : t.mem.spent = s.mem.spent := by rw [h.frame]
  simp only [readPoisoned, granulesPoisoned, Bool.or_eq_false_iff, List.any_eq_false, hspent] at hs ⊢
  exact ⟨fun g hg => hs.1 g (h.poison g hg), hs.2⟩

end Accrues

end Sys2Proof.Machine
end

section
namespace Sys2Proof.Machine

/-! One subpixel of an accumulation pass (R255) -/

/-- The drive value that the pass gave a subpixel. -/
def Run.drive (u : Run) (X Y c : Nat) : Nat := (sget [] u.capVals (blkKey (X / 32) (Y / 32))).getD (1024 * c + 32 * (Y % 32) + X % 32) 0

/-- A counter after its next increment. -/
def stressNext (s : State) (u : Run) (X Y c e rho : Nat) : Nat :=
  min (stressOf s X Y c + stressInc (weightOf s c (u.drive X Y c)) e rho) 0xFFFFFFFF

/-- A counter that an accumulation pass reaches: inside the usable memory, in no poisoned granule. -/
def CounterSound (s : State) (X Y c : Nat) : Prop := stressAddr s X Y c + 4 ≤ memCap s ∧ readPoisoned s 6 (stressAddr s X Y c) 4 = false

theorem Accrues.sound {s t : State} {X Y c : Nat} (h : Accrues s t) (hs : CounterSound s X Y c) : CounterSound t X Y c := by
  unfold CounterSound
  rw [h.stressAddr, h.memCap]
  exact ⟨hs.1, h.readable hs.2⟩

/-- The dither word advances, one counter holds a new value, and no other byte changes. -/
structure CounterTakes (s t : State) (X Y c v : Nat) : Prop where
  work : Accrues s t
  lfsr : t.age.lfsr = lfsr31 s.age.lfsr
  value : stressOf t X Y c = v
  others : ∀ a, a < stressAddr s X Y c ∨ stressAddr s X Y c + 4 ≤ a → sget 0#8 t.gddr a = sget 0#8 s.gddr a

theorem CounterTakes.bump {s t : State} {X Y c v : Nat} (h : CounterTakes s t X Y c v) :
    CounterTakes s (bump t F.AGE_CNT_SAT_increments) X Y c v :=
  ⟨h.work.trans (.bump t), h.lfsr, (stressOf_congr ((Accrues.bump t).stressAddr ..) fun _ _ _ => rfl).trans h.value, h.others⟩

/-- The state with the subpixel's dither word. -/
def dithered (s : State) : State := { s with age := { s.age with lfsr := lfsr31 s.age.lfsr } }

theorem dithered_takes (s : State) (X Y c : Nat) : CounterTakes s (dithered s) X Y c (stressOf s X Y c) :=
  ⟨.dither .., rfl, rfl, fun _ _ => rfl⟩

theorem setStress_takes {s : State} {X Y c v : Nat} (h : stressAddr s X Y c + 4 ≤ memCap s) (hv : v ≤ 0xFFFFFFFF) :
    CounterTakes s (setStress (dithered s) X Y c v) X Y c v := by
  have hlen : (leBytes v 4).length = 4 := length_leBytes v 4
  have hfit : stressAddr (dithered s) X Y c + (leBytes v 4).length ≤ memCap (dithered s) := by rw [hlen]; exact h
  have hwork : Accrues (dithered s) (setStress (dithered s) X Y c v) := .gddrWr _ 6 _ _ hfit
  have hread := gddrRd_gddrWr (dithered s) 6 _ _ hfit
  refine ⟨(Accrues.dither ..).trans hwork, ?_, ?_, fun a ha => gddrWr_other _ _ _ _ _ (by rw [hlen]; exact ha)⟩
  · rw [setStress, gddrWr_frame]
    rfl
  · rw [stressOf, hwork.stressAddr, setStress]
    rw [hlen] at hread
    rw [hread, ofLe_leBytes (show v < 256 ^ 4 by omega)]

/-- An accumulation pass takes a subpixel: its counter gains the increment, up to its limit. -/
theorem accSub_takes {s : State} {u : Run} {Y e i : Nat} (h : CounterSound s (i / 3) Y (i % 3)) :
    CounterTakes s (accSub u Y e s i) (i / 3) Y (i % 3) (stressNext s u (i / 3) Y (i % 3) e (lfsr31 s.age.lfsr)) := by
  obtain ⟨hfit, hclean⟩ := h
  have hreach : (decide (memCap (dithered s) < stressAddr (dithered s) (i / 3) Y (i % 3) + 4) ||
      readPoisoned (dithered s) 6 (stressAddr (dithered s) (i / 3) Y (i % 3)) 4) = false :=
    Bool.or_eq_false_iff.2 ⟨decide_eq_false (Nat.not_lt.2 hfit), hclean⟩
  have heq : accSub u Y e s i =
      if stressOf s (i / 3) Y (i % 3) = 0xFFFFFFFF then
        (if stressInc (weightOf s (i % 3) (u.drive (i / 3) Y (i % 3))) e (lfsr31 s.age.lfsr) = 0 then dithered s
         else bump (dithered s) F.AGE_CNT_SAT_increments)
      else if 0xFFFFFFFF < stressOf s (i / 3) Y (i % 3) + stressInc (weightOf s (i % 3) (u.drive (i / 3) Y (i % 3))) e (lfsr31 s.age.lfsr) then
        bump (setStress (dithered s) (i / 3) Y (i % 3) 0xFFFFFFFF) F.AGE_CNT_SAT_increments
      else setStress (dithered s) (i / 3) Y (i % 3)
        (stressOf s (i / 3) Y (i % 3) + stressInc (weightOf s (i % 3) (u.drive (i / 3) Y (i % 3))) e (lfsr31 s.age.lfsr)) :=
    if_neg (Bool.eq_false_iff.1 hreach)
  have hsame := dithered_takes s (i / 3) Y (i % 3)
  rw [heq, stressNext]
  generalize stressInc (weightOf s (i % 3) (u.drive (i / 3) Y (i % 3))) e (lfsr31 s.age.lfsr) = inc
  split
  · next hfull =>
    rw [hfull] at hsame
    rw [hfull, Nat.min_eq_right (Nat.le_add_right ..)]
    split
    · exact hsame
    · exact hsame.bump
  · split
    · next hover =>
      rw [Nat.min_eq_right hover.le]
      exact (setStress_takes hfit le_rfl).bump
    · next hin =>
      rw [Nat.min_eq_left (Nat.le_of_not_lt hin)]
      exact setStress_takes hfit (Nat.le_of_not_lt hin)

end Sys2Proof.Machine
end

section
namespace Sys2Proof.Machine

/-! The rows of an accumulation pass (R255, R257) -/

variable {s t : State} {u : Run} {p : Option Pass}

theorem Accrues.stressNext (h : Accrues s t) {X Y c : Nat} (hv : stressOf t X Y c = stressOf s X Y c) (e rho : Nat) :
    stressNext t u X Y c e rho = stressNext s u X Y c e rho := by
  unfold Machine.stressNext
  rw [hv, h.weightOf]

/-- A counter other than the one that took a value keeps its own. -/
theorem CounterTakes.other {X Y c v X' Y' c' : Nat} (h : CounterTakes s t X Y c v) (hX : X < panelW s) (hX' : X' < panelW s) (hc : c < 3)
    (hc' : c' < 3) (hne : ¬ (X = X' ∧ Y = Y' ∧ c = c')) : stressOf t X' Y' c' = stressOf s X' Y' c' :=
  stressOf_congr (h.work.stressAddr ..) fun a ha hb => h.others a (by have := stressAddr_apart hX hX' hc hc' hne; omega)

/-- The first `n` subpixels of panel line `Y` have been taken. -/
structure RowAccrued (u : Run) (Y e n : Nat) (s t : State) : Prop where
  work : Accrues s t
  lfsr : t.age.lfsr = Nat.repeat lfsr31 n s.age.lfsr
  taken : ∀ i < n, stressOf t (i / 3) Y (i % 3) = stressNext s u (i / 3) Y (i % 3) e (Nat.repeat lfsr31 (i + 1) s.age.lfsr)
  others : ∀ a, (∀ i < n, a < stressAddr s (i / 3) Y (i % 3) ∨ stressAddr s (i / 3) Y (i % 3) + 4 ≤ a) → sget 0#8 t.gddr a = sget 0#8 s.gddr a

theorem rowAccrued {Y : Nat} (e : Nat) (hw : u.w = panelW s) (hsound : ∀ X c, X < u.w → c < 3 → CounterSound s X Y c) {n : Nat} (hn : n ≤ 3 * u.w) :
    RowAccrued u Y e n s ((List.range n).foldl (accSub u Y e) s) := by
  induction n with
  | zero => exact ⟨.refl s, rfl, fun i hi => absurd hi (Nat.not_lt_zero i), fun _ _ => rfl⟩
  | succ n ih =>
    have hrow := ih (by omega)
    rw [List.range_succ, List.foldl_append, List.foldl_cons, List.foldl_nil]
    generalize (List.range n).foldl (accSub u Y e) s = m at hrow ⊢
    have hstep := accSub_takes (u := u) (e := e) (hrow.work.sound (hsound (n / 3) (n % 3) (by omega) (by omega)))
    have hhere : stressOf m (n / 3) Y (n % 3) = stressOf s (n / 3) Y (n % 3) :=
      stressOf_congr (hrow.work.stressAddr ..) fun a ha hb => hrow.others a fun i hi => by
        have := stressAddr_apart (s := s) (X := i / 3) (Y := Y) (c := i % 3) (X' := n / 3) (Y' := Y) (c' := n % 3) (by omega) (by omega) (by omega)
          (by omega) (by omega)
        omega
    refine ⟨hrow.work.trans hstep.work, hstep.lfsr.trans (by rw [hrow.lfsr]; rfl), fun i hi => ?_, fun a ha => ?_⟩
    · rcases Nat.lt_succ_iff_lt_or_eq.1 hi with hlt | rfl
      · rw [hstep.other (by rw [hrow.work.panelW]; omega) (by rw [hrow.work.panelW]; omega) (by omega) (by omega) (by omega), hrow.taken i hlt]
      · rw [hstep.value, hrow.work.stressNext hhere, hrow.lfsr]
        rfl
    · rw [hstep.others a (by rw [hrow.work.stressAddr]; exact ha n (Nat.lt_succ_self n)), hrow.others a fun i hi => ha i (Nat.lt_succ_of_lt hi)]

theorem Run.line_lt {y : Nat} (h : y < u.h) : u.line y < u.h := by
  unfold Run.line
  split <;> omega

theorem Run.line_inj {y z : Nat} (hy : y < u.h) (hz : z < u.h) (h : u.line y = u.line z) : y = z := by
  unfold Run.line at h
  split at h <;> omega

/-- Rows that the pass drives among the first `m`. -/
def drivenRows (u : Run) (m : Nat) : Nat := ((List.range m).filter (fun z => u.prog.getD z true)).length

theorem drivenRows_succ (u : Run) (m : Nat) : drivenRows u (m + 1) = drivenRows u m + if u.prog.getD m true then 1 else 0 := by
  unfold drivenRows
  rw [List.range_succ, List.filter_append, List.length_append, List.filter_cons, List.filter_nil]
  split <;> rfl

/-- A row of the pass: one it does not drive changes nothing. -/
def accRow (u : Run) (p : Option Pass) (s : State) (y : Nat) : State :=
  if !u.prog.getD y true then s else (List.range (3 * u.w)).foldl (accSub u (u.line y) (emissionOf s u p y)) s

/-- Each of the first `m` rows that the pass drives has been taken. -/
structure RowsAccrued (u : Run) (p : Option Pass) (m : Nat) (s t : State) : Prop where
  work : Accrues s t
  lfsr : t.age.lfsr = Nat.repeat lfsr31 (drivenRows u m * (3 * u.w)) s.age.lfsr
  taken : ∀ y < m, ∀ X < u.w, ∀ c < 3, stressOf t X (u.line y) c =
    if u.prog.getD y true then
      stressNext s u X (u.line y) c (emissionOf s u p y) (Nat.repeat lfsr31 (drivenRows u y * (3 * u.w) + 3 * X + c + 1) s.age.lfsr)
    else stressOf s X (u.line y) c
  others : ∀ a, (∀ y < m, ∀ X < u.w, ∀ c < 3, a < stressAddr s X (u.line y) c ∨ stressAddr s X (u.line y) c + 4 ≤ a) →
    sget 0#8 t.gddr a = sget 0#8 s.gddr a

/-- Rows not yet taken keep their counters. -/
theorem RowsAccrued.later {m y X c : Nat} (h : RowsAccrued u p m s t) (hw : u.w = panelW s) (hm : m ≤ y) (hy : y < u.h) (hX : X < u.w) (hc : c < 3) :
    stressOf t X (u.line y) c = stressOf s X (u.line y) c :=
  stressOf_congr (h.work.stressAddr ..) fun a ha hb => h.others a fun z hz X' hX' c' hc' => by
    have hne : u.line z ≠ u.line y := fun he => by
      have := u.line_inj (by omega) hy he
      omega
    have := stressAddr_apart (s := s) (X := X') (X' := X) (hw ▸ hX') (hw ▸ hX) hc' hc (fun hall => hne hall.2.1)
    omega

theorem rowsAccrued (p : Option Pass) (hw : u.w = panelW s) (hsound : ∀ X Y c, X < u.w → Y < u.h → c < 3 → CounterSound s X Y c)
    {m : Nat} (hm : m ≤ u.h) : RowsAccrued u p m s ((List.range m).foldl (accRow u p) s) := by
  induction m with
  | zero => exact ⟨.refl s, by rw [drivenRows]; simp [Nat.repeat], fun y hy => absurd hy (Nat.not_lt_zero y), fun _ _ => rfl⟩
  | succ m ih =>
    have hrows := ih (by omega)
    rw [List.range_succ, List.foldl_append, List.foldl_cons, List.foldl_nil]
    generalize (List.range m).foldl (accRow u p) s = n at hrows ⊢
    have hlater := fun X hX c hc => hrows.later (X := X) (c := c) hw le_rfl (show m < u.h by omega) hX hc
    cases hprog : u.prog.getD m true with
    | false =>
      have hskip : accRow u p n m = n := by rw [accRow, hprog]; rfl
      rw [hskip]
      refine ⟨hrows.work, by rw [drivenRows_succ, hprog]; exact hrows.lfsr, fun y hy X hX c hc => ?_,
        fun a ha => hrows.others a fun y hy => ha y (Nat.lt_succ_of_lt hy)⟩
      rcases Nat.lt_succ_iff_lt_or_eq.1 hy with hlt | rfl
      · exact hrows.taken y hlt X hX c hc
      · rw [hprog]
        exact hlater X hX c hc
    | true =>
      have htake : accRow u p n m = (List.range (3 * u.w)).foldl (accSub u (u.line m) (emissionOf n u p m)) n := by rw [accRow, hprog]; rfl
      have hrow := rowAccrued (s := n) (Y := u.line m) (emissionOf n u p m) (hw.trans hrows.work.panelW.symm)
        (fun X c hX hc => hrows.work.sound (hsound X _ c hX (u.line_lt (by omega)) hc)) le_rfl
      rw [htake]
      generalize (List.range (3 * u.w)).foldl (accSub u (u.line m) (emissionOf n u p m)) n = t at hrow ⊢
      refine ⟨hrows.work.trans hrow.work, ?_, fun y hy X hX c hc => ?_, fun a ha => ?_⟩
      · rw [hrow.lfsr, hrows.lfsr, ← repeat_add, drivenRows_succ, hprog, if_pos rfl, Nat.add_mul, Nat.one_mul]
      · rcases Nat.lt_succ_iff_lt_or_eq.1 hy with hlt | rfl
        · rw [← hrows.taken y hlt X hX c hc]
          refine stressOf_congr (hrow.work.stressAddr ..) fun a ha hb => hrow.others a fun i hi => ?_
          have hne : u.line y ≠ u.line m := fun he => by
            have := u.line_inj (by omega) (by omega) he
            omega
          have hW := hrows.work.panelW
          have := stressAddr_apart (s := n) (X := X) (Y := u.line y) (c := c) (X' := i / 3) (Y' := u.line m) (c' := i % 3) (by omega) (by omega) hc
            (by omega) (fun hall => hne hall.2.1)
          omega
        · have htaken := hrow.taken (3 * X + c) (by omega)
          rw [show (3 * X + c) / 3 = X by omega, show (3 * X + c) % 3 = c by omega, hrows.work.stressNext (hlater X hX c hc), hrows.work.emissionOf,
            hrows.lfsr, ← repeat_add] at htaken
          rw [htaken, hprog, if_pos rfl]
          congr 2
          omega
      · rw [hrow.others a fun i hi => ?_, hrows.others a fun y hy => ha y (Nat.lt_succ_of_lt hy)]
        rw [hrows.work.stressAddr]
        exact ha m (Nat.lt_succ_self m) (i / 3) (by omega) (i % 3) (by omega)

/-! The pass as a whole -/

theorem exec_stressAccumulation (s : State) : exec .stressAccumulation s = .next (stressAccumulation s) := rfl

theorem stressAccumulation_none (h : s.scn.runs.find? (accReady s) = none) : stressAccumulation s = s := by rw [stressAccumulation, h]

theorem stressAccumulation_some (h : s.scn.runs.find? (accReady s) = some u) : stressAccumulation s =
    ageStatus (pruneRuns (setRun ((List.range u.h).foldl (accRow u ((allPasses s).find? (fun p => p.start = u.start))) s) { u with accDue := false })) := by
  rw [stressAccumulation, h]
  rfl

/-- A run that counts as accumulated is due no more. -/
theorem accDue_pruneRuns (s : State) (u : Run) {x : Run} (hx : x ∈ (pruneRuns (setRun s { u with accDue := false })).scn.runs) (hn : x.num = u.num) :
    x.accDue = false := by
  obtain ⟨y, -, rfl⟩ := List.mem_map.1 (List.mem_filter.1 hx).1
  by_cases hy : y.num = u.num
  · rw [if_pos hy]
  · rw [if_neg hy] at hn
    exact absurd hn hy

/-- The end of the pass leaves the counters alone. -/
theorem stressOf_accumulated (s : State) (u : Run) (X Y c : Nat) :
    stressOf (ageStatus (pruneRuns (setRun s u))) X Y c = stressOf s X Y c := by
  have hrd := fun f hf => rd_regsKept (f := f) (regsKept_ageStatus (pruneRuns (setRun s u))) hf
  have hgddr := (ageStatus_regOnly (pruneRuns (setRun s u))).memKept.1
  generalize ageStatus (pruneRuns (setRun s u)) = t at hrd hgddr ⊢
  refine stressOf_congr ?_ fun a _ _ => by rw [hgddr]; rfl
  unfold stressAddr panelBW panelW
  rw [hrd _ (by decide), hrd _ (by decide), hrd _ (by decide)]
  rfl

end Sys2Proof.Machine
end

section
namespace Sys2Proof.Machine

/-- Settles O29: row by row (`rowsAccrued`), every counter of a driven row takes its increment and the dither word of its place, because two
counters of the panel lie apart. -/
theorem stressCountersTakeDrivenRows : Obligations.StressCountersTakeDrivenRows := by
  unfold Obligations.StressCountersTakeDrivenRows
  refine ⟨fun s u hu hw _ hsound => ?_, fun s hnone => by rw [exec_stressAccumulation, stressAccumulation_none hnone]⟩
  have hrows := rowsAccrued ((allPasses s).find? (fun p => p.start = u.start)) hw hsound le_rfl
  refine ⟨_, exec_stressAccumulation s, ?_⟩
  rw [stressAccumulation_some hu]
  generalize (List.range u.h).foldl (accRow u ((allPasses s).find? (fun p => p.start = u.start))) s = m at hrows ⊢
  have hkept := regsKept_ageStatus (pruneRuns (setRun m { u with accDue := false }))
  have hvalue := stressOf_accumulated m { u with accDue := false }
  have hdue := fun x => @accDue_pruneRuns m u x
  obtain ⟨reg, heq⟩ := (ageStatus_regOnly (pruneRuns (setRun m { u with accDue := false }))).exists_reg
  rw [heq] at hkept hvalue ⊢
  refine ⟨?_, ?_, ?_, fun x hx hn => hdue x hx hn, fun y X c hy hX hc => ?_, hrows.lfsr, fun a ha => ?_, ?_⟩
  · show m.lst = s.lst
    rw [hrows.work.frame]
  · show m.flash = s.flash
    rw [hrows.work.frame]
  · show m.nvm = s.nvm
    rw [hrows.work.frame]
  · rw [hvalue, hrows.taken y hy X hX c hc]
    rfl
  · exact hrows.others a fun y hy X hX c hc => ha X _ c hX (u.line_lt hy) hc
  · exact regsKept_trans (regsKept_mono hrows.work.regs (by simp)) (regsKept_mono (s := m) hkept (by simp))

end Sys2Proof.Machine
end

section
namespace Sys2Proof.Machine

/-! Checkpoints begin (R277, R278) -/

/-- Fields that compress requests and address errors leave alone. -/
def outsideLanes (fs : List Fld) : Prop :=
  ∀ g ∈ fs, g.off ∉ [F.CDC_STATUS_dec_busy.off, F.MEM_ERR_INFO_kind.off, F.MEM_ERR_ADDR_LO_addr.off, F.MEM_ERR_ADDR_HI_addr.off]

theorem outsideLanes.apart {fs : List Fld} (h : outsideLanes fs) {f : Fld}
    (hf : f.off ∈ [F.CDC_STATUS_dec_busy.off, F.MEM_ERR_INFO_kind.off, F.MEM_ERR_ADDR_LO_addr.off, F.MEM_ERR_ADDR_HI_addr.off]) :
    ∀ g ∈ fs, f.apart g = true := fun g hg => by
  have hne : ¬ g.off = f.off := fun he => h g hg (he ▸ hf)
  simp [Fld.apart, hne]

theorem askCmp_laneWork {fs : List Fld} (h : outsideLanes fs) (s : State) (rs : List CmpReq) : LaneWork fs s (askCmp s rs) :=
  (LaneWork.lanes s { s.cdc with cmpWait := s.cdc.cmpWait ++ rs } s.mem rfl).trans <| (assignDec_works 16 _).trans <| (assignCmp_works 8 _).trans <|
    (LaneWork.wr _ F.CDC_STATUS_dec_busy _ (h.apart (by decide))).trans (.wr _ F.CDC_STATUS_cmp_busy _ (h.apart (by decide)))

theorem memReach_laneWork {fs : List Fld} (h : outsideLanes fs) (s : State) (cls a n : Nat) : LaneWork fs s (memReach s cls a n) :=
  .ite (.refl _ s) <| (LaneWork.wr s F.MEM_ERR_INFO_kind _ (h.apart (by decide))).trans <|
    (LaneWork.wr _ F.MEM_ERR_INFO_class _ (h.apart (by decide))).trans <| (LaneWork.wr _ F.MEM_ERR_INFO_channel _ (h.apart (by decide))).trans <|
      (LaneWork.wr _ F.MEM_ERR_ADDR_LO_addr _ (h.apart (by decide))).trans <|
        (LaneWork.wr _ F.MEM_ERR_ADDR_HI_addr _ (h.apart (by decide))).trans (.post ..)

/-- The same checkpoint, further on. -/
def SameCkpt (c c' : Ckpt) : Prop := c'.slot = c.slot ∧ c'.seq = c.seq ∧ c'.kind = c.kind

/-- A checkpoint asks for its next block, or is marked bad for counters that cannot be read. -/
theorem ckptAsk_laneWork {fs : List Fld} (h : outsideLanes fs) {s : State} {c : Ckpt} (hc : s.age.ckpt = some c) :
    ∃ c', SameCkpt c c' ∧ LaneWork fs { s with age := { s.age with ckpt := some c' } } (ckptAsk s) := by
  have hself : LaneWork fs { s with age := { s.age with ckpt := some c } } s := by rw [← hc]; exact .refl fs s
  unfold ckptAsk
  rw [hc]
  dsimp only
  split
  · exact ⟨c, ⟨rfl, rfl, rfl⟩, hself⟩
  · split
    · exact ⟨{ c with bad := true }, ⟨rfl, rfl, rfl⟩, memReach_laneWork h ..⟩
    · exact ⟨{ c with picEnd := s.tmb.pic.getD 0 }, ⟨rfl, rfl, rfl⟩, askCmp_laneWork h ..⟩

/-- The slot that is not the newest, and one past its number. -/
def ckptPlace (s : State) : Nat × Nat := match s.age.newest with | some (k, q) => (1 - k, q + 1) | none => (0, 1)

/-- The state with the slot erased and the checkpoint begun, before its first request. -/
def ckptOpened (s : State) (kind : Nat) (c : Ckpt) : State :=
  { flashErase s (slotBase s (ckptPlace s).1) (slotLen s (ckptPlace s).1) with
    age := { s.age with
      ckpt := some c, sinceAcc := 0, emitAcc := s.age.emitAcc + emitNow s, emitAt := s.age.emitAt.map (fun _ => s.tick)
      retryAt := if kind = 0 then none else s.age.retryAt } }

theorem ckptStart_eq (s : State) (kind : Nat) : ∃ c, c.slot = (ckptPlace s).1 ∧ c.seq = (ckptPlace s).2 ∧ c.kind = kind ∧
    ckptStart s kind = ageStatus (ckptAsk (emitStatus (ckptOpened s kind c))) := by
  cases hn : s.age.newest with
  | none =>
    have hplace : ckptPlace s = (0, 1) := by rw [ckptPlace, hn]
    unfold ckptStart ckptOpened
    rw [hn, hplace]
    exact ⟨_, rfl, rfl, rfl, rfl⟩
  | some p =>
    have hplace : ckptPlace s = (1 - p.1, p.2 + 1) := by rw [ckptPlace, hn]
    unfold ckptStart ckptOpened
    rw [hn, hplace]
    exact ⟨_, rfl, rfl, rfl, rfl⟩

/-- What the start of a checkpoint of a kind leaves. -/
structure CkptBegins (s t : State) (kind : Nat) : Prop where
  begun : ∃ c, t.age.ckpt = some c ∧ c.slot = (ckptPlace s).1 ∧ c.seq = (ckptPlace s).2 ∧ c.kind = kind
  erased : ckptErased s t (ckptPlace s).1
  gddr : t.gddr = s.gddr
  lst : t.lst = s.lst
  nvm : t.nvm = s.nvm
  tick : t.tick = s.tick
  retryAt : t.age.retryAt = if kind = 0 then none else s.age.retryAt
  sinceAcc : t.age.sinceAcc = 0
  emitAt : t.age.emitAt = s.age.emitAt.map (fun _ => s.tick)
  shown : rd t F.AGE_EMIT_SINCE_seconds = 0

theorem flashErase_erases (s : State) (k : Nat) : ckptErased s (flashErase s (slotBase s k) (slotLen s k)) k := by
  refine ⟨fun a ha hb => ?_, fun a ha => ?_⟩ <;> rw [flashErase, sget_sfilter]
  · rw [if_neg]
    simp [ha, hb]
  · rw [if_pos]
    simp only [Bool.not_eq_true', Bool.and_eq_false_iff, decide_eq_false_iff_not]
    omega

theorem ckptErased_congr {s t u : State} {k : Nat} (h : ckptErased s t k) (hf : u.flash = t.flash) : ckptErased s u k := by
  unfold ckptErased
  rw [hf]
  exact h

/-- No emission has passed since the checkpoint began. -/
theorem sinceTicks_opened (s : State) (kind : Nat) (c : Ckpt) : sinceTicks (ckptOpened s kind c) = 0 := by
  have hnow : emitNow (ckptOpened s kind c) = match s.age.emitAt.map (fun _ => s.tick) with | some t => s.tick - t | none => 0 := rfl
  rw [sinceTicks, hnow]
  cases s.age.emitAt with
  | none => rfl
  | some e => exact (Nat.zero_add _).trans (Nat.sub_self s.tick)

theorem ckptStart_begins (s : State) (kind : Nat) : CkptBegins s (ckptStart s kind) kind := by
  obtain ⟨c, hslot, hseq, hkind, heq⟩ := ckptStart_eq s kind
  have hfields : outsideLanes [F.AGE_EMIT_SINCE_seconds] := by simp [outsideLanes, F.AGE_EMIT_SINCE_seconds, F.CDC_STATUS_dec_busy,
    F.MEM_ERR_INFO_kind, F.MEM_ERR_ADDR_LO_addr, F.MEM_ERR_ADDR_HI_addr]
  have hzero : rd (emitStatus (ckptOpened s kind c)) F.AGE_EMIT_SINCE_seconds = 0 := by
    rw [emitStatus, sinceTicks_opened, rd_wr_same _ _ _ (by decide)]
    rfl
  obtain ⟨c', ⟨hslot', hseq', hkind'⟩, hwork⟩ := ckptAsk_laneWork hfields (s := emitStatus (ckptOpened s kind c)) (c := c) rfl
  have hshown := rd_ageStatus (ckptAsk (emitStatus (ckptOpened s kind c))) (f := F.AGE_EMIT_SINCE_seconds) (by decide)
  have hfield := hwork.fields _ (.head _)
  have herased : ckptErased s (ckptOpened s kind c) (ckptPlace s).1 := ckptErased_congr (flashErase_erases s (ckptPlace s).1) rfl
  have hage := hwork.age
  have htick := hwork.tick
  obtain ⟨hgddr, hlst, hflash, hnvm, -, -⟩ := hwork.memKept
  rw [heq]
  generalize ckptAsk (emitStatus (ckptOpened s kind c)) = m at *
  obtain ⟨reg, hreg⟩ := (ageStatus_regOnly m).exists_reg
  rw [hreg] at hshown ⊢
  exact ⟨⟨c', congrArg Age.ckpt hage, hslot'.trans hslot, hseq'.trans hseq, hkind'.trans hkind⟩, ckptErased_congr herased hflash, hgddr, hlst,
    hnvm, htick, congrArg Age.retryAt hage, congrArg Age.sinceAcc hage, congrArg Age.emitAt hage, hshown.trans (hfield.trans hzero)⟩

/-! Triggers (R277, R437) -/

theorem ckptTrigger_starts {s : State} (hc : s.age.ckpt = none) (hxf : s.nv.xf = none) (kind : Nat) : ckptTrigger s kind = ckptStart s kind := by
  rw [ckptTrigger, hc, hxf]

theorem ckptTrigger_held {s : State} {c : Ckpt} (hc : s.age.ckpt = some c) (kind : Nat) :
    ckptTrigger s kind = ageStatus { s with age := { s.age with held := some (max kind (s.age.held.getD 0)) } } := by
  rw [ckptTrigger, hc]

/-- A trigger held while a checkpoint runs. -/
theorem ckptTrigger_holds {s : State} {c : Ckpt} (hc : s.age.ckpt = some c) (kind : Nat) :
    (ckptTrigger s kind).age = { s.age with held := some (max kind (s.age.held.getD 0)) } ∧
    rd (ckptTrigger s kind) F.AGE_STATUS_ckpt_held = 1 ∧ memKept s (ckptTrigger s kind) ∧ (ckptTrigger s kind).tick = s.tick := by
  have hshown := rd_held_ageStatus { s with age := { s.age with held := some (max kind (s.age.held.getD 0)) } }
  have hreg := ageStatus_regOnly { s with age := { s.age with held := some (max kind (s.age.held.getD 0)) } }
  rw [ckptTrigger_held hc]
  refine ⟨?_, hshown, hreg.memKept, ?_⟩ <;> rw [hreg]

theorem ckptInterval_some {s : State} {e : Nat} (h : s.age.emitAt = some e) : ckptInterval s =
    ckptTrigger (emitStatus (reach s (e + (rd s F.AGE_CKPT_CFG_interval * 60 * Config.tickHz - s.age.sinceAcc)))) 0 := by
  rw [ckptInterval, h]

theorem ckptInterval_none {s : State} (h : s.age.emitAt = none) : ckptInterval s = s := by rw [ckptInterval, h]

theorem ckptRetry_some {s : State} {r : Nat} (h : s.age.retryAt = some r) :
    ckptRetry s = ckptTrigger (reach { s with age := { s.age with retryAt := none } } r) 0 := by rw [ckptRetry, h]

theorem ckptRetry_none {s : State} (h : s.age.retryAt = none) : ckptRetry s = s := by rw [ckptRetry, h]

theorem exec_ckptInterval (s : State) : exec .ckptInterval s = .next (ckptInterval s) := rfl
theorem exec_ckptRetry (s : State) : exec .ckptRetry s = .next (ckptRetry s) := rfl

/-- A state with the slots' registers and flash of another erases what that one would. -/
theorem ckptErased_from {s m t : State} {k : Nat} (h : ckptErased m t k) (hflash : m.flash = s.flash) (hbase : slotBase m k = slotBase s k)
    (hlen : slotLen m k = slotLen s k) : ckptErased s t k := by
  unfold ckptErased at h ⊢
  rw [hbase, hlen, hflash] at h
  exact h

theorem slotBase_emitStatus (s : State) (k : Nat) : slotBase (emitStatus s) k = slotBase s k := by
  rw [slotBase, emitStatus, rd_wr_other _ _ _ _ (by decide), rd_wr_other _ _ _ _ (by decide), slotBase]

theorem slotLen_emitStatus (s : State) (k : Nat) : slotLen (emitStatus s) k = slotLen s k := by
  rw [slotLen, emitStatus, rd_wr_other _ _ _ _ (by decide), rd_wr_other _ _ _ _ (by decide), slotLen]

/-- The three triggers start a checkpoint where none runs and the flash is free. -/
theorem ageCkpt_begins {s : State} (hc : s.age.ckpt = none) (hxf : s.nv.xf = none) (hh : s.age.held = none) : CkptBegins s (ageCkpt s) 1 := by
  rw [ageCkpt, if_neg (by simp [hh]), ckptTrigger_starts hc hxf]
  exact ckptStart_begins s 1

theorem ckptRetry_begins {s : State} {r : Nat} (hc : s.age.ckpt = none) (hxf : s.nv.xf = none) (h : s.age.retryAt = some r) :
    CkptBegins (reach { s with age := { s.age with retryAt := none } } r) (ckptRetry s) 0 := by
  rw [ckptRetry_some h, ckptTrigger_starts (show (reach { s with age := { s.age with retryAt := none } } r).age.ckpt = none from hc) hxf]
  exact ckptStart_begins _ 0

theorem ckptInterval_begins {s : State} {e : Nat} (hc : s.age.ckpt = none) (hxf : s.nv.xf = none) (h : s.age.emitAt = some e) :
    CkptBegins (emitStatus (reach s (e + (rd s F.AGE_CKPT_CFG_interval * 60 * Config.tickHz - s.age.sinceAcc)))) (ckptInterval s) 0 := by
  rw [ckptInterval_some h]
  generalize e + (rd s F.AGE_CKPT_CFG_interval * 60 * Config.tickHz - s.age.sinceAcc) = n
  rw [ckptTrigger_starts (show (emitStatus (reach s n)).age.ckpt = none from hc) hxf]
  exact ckptStart_begins _ 0

end Sys2Proof.Machine
end

section
namespace Sys2Proof.Machine

/-! Checkpoints end (R278, R280, R281) -/

theorem psqCkptEnd_elsewhere {s : State} (h : psqState s ≠ psRAILS_DOWN) : psqCkptEnd s = s := by
  rw [psqCkptEnd, if_neg (by simp [h])]

/-- With no trigger and no flash command held, the engine's status is all that is left to show. -/
theorem ckptNext_idle {s : State} (hh : s.age.held = none) (hx : s.nv.xfHeld = []) : ckptNext s = ageStatus s := by
  have hnv : (ageStatus s).nv = s.nv := by rw [ageStatus_regOnly s]
  rw [ckptNext_none hh, xfNext_none (by rw [hnv]; exact hx)]

/-- The checkpoint no longer runs; nothing more is asked of the lanes for it. -/
def ckptStopped (s : State) (c : Ckpt) : State :=
  { s with
    age := { s.age with
      ckpt := none
      retryAt := if c.kind = 0 then some (s.tick + rd s F.AGE_CKPT_CFG_retry * 60 * Config.tickHz) else s.age.retryAt
      shutBy := if c.kind = 2 then none else s.age.shutBy }
    cdc := { s.cdc with cmpWait := s.cdc.cmpWait.filter (fun r => match r.tag with | .ckpt _ => false | _ => true) } }

theorem ckptAbandon_some {s : State} {c : Ckpt} (h : s.age.ckpt = some c) : ckptAbandon s = ckptCounted (ckptStopped s c) := by
  rw [ckptAbandon, h]
  rfl

/-- What a failed checkpoint leaves. -/
structure CkptFails (s t : State) (c : Ckpt) : Prop where
  age : t.age = (ckptStopped s c).age
  tick : t.tick = s.tick
  count : rd t F.AGE_CNT_CKPT_failed = counted s F.AGE_CNT_CKPT_failed
  record : posted t clsError blkAGE 0 F.AGE_CNT_CKPT_failed []
  mem : memKept s t
  state : psqState t = psqState s

theorem ckptCounted_counts (s : State) : LaneWork [F.PSQ_STATUS_state] s (ckptCounted s) ∧
    rd (ckptCounted s) F.AGE_CNT_CKPT_failed = counted s F.AGE_CNT_CKPT_failed ∧ posted (ckptCounted s) clsError blkAGE 0 F.AGE_CNT_CKPT_failed [] :=
  ⟨(LaneWork.bump s F.AGE_CNT_CKPT_failed (by decide)).trans (.post ..),
    by rw [ckptCounted, rd_errorRec, rd_bump s F.AGE_CNT_CKPT_failed (by decide)], posted_post ..⟩

theorem ckptCounted_fails (s : State) (c : Ckpt) : CkptFails s (ckptCounted (ckptStopped s c)) c ∧ (ckptCounted (ckptStopped s c)).nv = s.nv := by
  obtain ⟨hwork, hcount, hrecord⟩ := ckptCounted_counts (ckptStopped s c)
  generalize ckptCounted (ckptStopped s c) = t at *
  have hnv : t.nv = (ckptStopped s c).nv := by rw [hwork.frame]
  exact ⟨⟨hwork.age, hwork.tick, hcount, hrecord, memKept_trans ⟨rfl, rfl, rfl, rfl, rfl, rfl⟩ hwork.memKept, hwork.fields _ (.head _)⟩, hnv⟩

theorem CkptFails.shown {s t : State} {c : Ckpt} (h : CkptFails s t c) : CkptFails s (ageStatus t) c := by
  have hreg := ageStatus_regOnly t
  have hrd := @rd_ageStatus t
  generalize ageStatus t = u at hreg hrd ⊢
  have hevt : u.evt = t.evt := by rw [hreg]
  have hage : u.age = t.age := by rw [hreg]
  have htick : u.tick = t.tick := by rw [hreg]
  exact ⟨hage.trans h.age, htick.trans h.tick, (hrd (by decide)).trans h.count, by unfold posted; rw [hevt]; exact h.record,
    memKept_trans h.mem hreg.memKept, (hrd (f := F.PSQ_STATUS_state) (by decide)).trans h.state⟩

/-- A checkpoint is given up with no trigger and no flash command held. -/
theorem ckptAbandon_fails {s : State} {c : Ckpt} (hc : s.age.ckpt = some c) (hh : s.age.held = none) (hx : s.nv.xfHeld = []) :
    CkptFails s (ckptNext (ckptAbandon s)) c := by
  obtain ⟨hfails, hnv⟩ := ckptCounted_fails s c
  rw [ckptAbandon_some hc]
  generalize ckptCounted (ckptStopped s c) = m at hfails hnv ⊢
  have hheld : m.age.held = none := by rw [hfails.age]; exact hh
  rw [ckptNext_idle hheld (by rw [hnv]; exact hx)]
  exact hfails.shown

theorem exec_ckptFail {s : State} {c : Ckpt} (hc : s.age.ckpt = some c) (hh : s.age.held = none) (hx : s.nv.xfHeld = [])
    (hst : psqState s ≠ psRAILS_DOWN) : ∃ t, exec .ckptFail s = .next t ∧ CkptFails s t c := by
  have hfails := ckptAbandon_fails hc hh hx
  have hgo : ckptFail s = ckptNext (ckptAbandon s) := if_pos (by rw [hc]; rfl)
  refine ⟨_, rfl, ?_⟩
  show CkptFails s (psqCkptEnd (ckptFail s)) c
  rw [hgo, psqCkptEnd_elsewhere (by rw [hfails.state]; exact hst)]
  exact hfails

/-- The limit of a shutdown checkpoint is reached. -/
def shutOver (s : State) (l : Nat) : State := reach { s with age := { s.age with shutBy := none } } l

theorem exec_ckptShutTimeout {s : State} {c : Ckpt} {l : Nat} (hc : s.age.ckpt = some c) (hh : s.age.held = none) (hx : s.nv.xfHeld = [])
    (hst : psqState s ≠ psRAILS_DOWN) (hl : s.age.shutBy = some l) (hk : c.kind = 2) :
    ∃ t, exec .ckptShutTimeout s = .next t ∧ CkptFails (shutOver s l) t c := by
  have hgo : ckptShutTimeout s = ckptNext (ckptAbandon (shutOver s l)) := by
    have hkind : (match (shutOver s l).age.ckpt with | some c => decide (c.kind = 2) | none => false) = true := by
      rw [show (shutOver s l).age.ckpt = some c from hc]
      exact decide_eq_true hk
    rw [ckptShutTimeout, hl]
    exact if_pos hkind
  have hfails := ckptAbandon_fails (s := shutOver s l) hc hh hx
  refine ⟨_, rfl, ?_⟩
  show CkptFails (shutOver s l) (psqCkptEnd (ckptShutTimeout s)) c
  rw [hgo, psqCkptEnd_elsewhere (by rw [hfails.state]; exact hst)]
  exact hfails

/-- A checkpoint that is done stands in its slot and is the newest. -/
def ckptStored (s : State) (c : Ckpt) : State :=
  { s with
    flash := ssetList 0xFF#8 s.flash (slotBase s c.slot) (ckptHeader s c)
    age := { s.age with ckpt := none, newest := some (c.slot, c.seq), shutBy := if c.kind = 2 then none else s.age.shutBy } }

/-- All but the flash and the engine's own state is as it was. -/
theorem ckptStored_kept (s : State) (c : Ckpt) : (ckptStored s c).gddr = s.gddr ∧ (ckptStored s c).lst = s.lst ∧ (ckptStored s c).nvm = s.nvm ∧
    (ckptStored s c).reg = s.reg ∧ (ckptStored s c).nv = s.nv := by
  unfold ckptStored
  exact ⟨rfl, rfl, rfl, rfl, rfl⟩

theorem ckptStored_age (s : State) (c : Ckpt) : (ckptStored s c).age.ckpt = none ∧ (ckptStored s c).age.newest = some (c.slot, c.seq) ∧
    (ckptStored s c).age.held = s.age.held := by
  unfold ckptStored
  exact ⟨rfl, rfl, rfl⟩

/-- Its place and number are shown. -/
def newestShown (s : State) (c : Ckpt) : State :=
  wr (wr (wr s F.AGE_STATUS_newest c.slot) F.AGE_CKPT_SEQ_LO_seq c.seq) F.AGE_CKPT_SEQ_HI_seq (c.seq / 2 ^ 32)

theorem ckptDone_sound {s : State} {c : Ckpt} (hc : s.age.ckpt = some c) (hbad : c.bad = false) (hbody : 6 ≤ c.plane) :
    ckptDone s = ckptNext (bump (newestShown (ckptStored s c) c) F.AGE_CNT_CKPT_written) := by
  have hwhole : ckptBody s = true := by
    rw [ckptBody, hc]
    exact decide_eq_true hbody
  rw [ckptDone, hc]
  simp only [hbad, Bool.false_eq_true, if_false, hwhole, Bool.not_true]
  unfold ckptStored newestShown flashWr
  generalize ckptHeader s c = bs
  rfl

theorem newestShown_regOnly (s : State) (c : Ckpt) : RegOnly s (newestShown s c) := (RegOnly.wr ..).trans ((RegOnly.wr ..).trans (.wr ..))

theorem newestShown_age (s : State) (c : Ckpt) : (newestShown s c).age = s.age := by rw [newestShown_regOnly]

theorem newestShown_nv (s : State) (c : Ckpt) : (newestShown s c).nv = s.nv := by rw [newestShown_regOnly]

theorem rd_newestShown (s : State) (c : Ckpt) {f : Fld}
    (h : f.off ∉ [F.AGE_STATUS_newest.off, F.AGE_CKPT_SEQ_LO_seq.off, F.AGE_CKPT_SEQ_HI_seq.off]) : rd (newestShown s c) f = rd s f := by
  simp only [List.mem_cons, List.not_mem_nil, or_false, not_or] at h
  obtain ⟨hnewest, hlo, hhi⟩ := h
  rw [newestShown, rd_wr_other _ _ _ _ hhi, rd_wr_other _ _ _ _ hlo, rd_wr_other _ _ _ _ hnewest]

theorem newestShown_shows (s : State) (c : Ckpt) : rd (newestShown s c) F.AGE_STATUS_newest = c.slot % 2 ∧
    rd (newestShown s c) F.AGE_CKPT_SEQ_LO_seq = c.seq % 2 ^ 32 ∧ rd (newestShown s c) F.AGE_CKPT_SEQ_HI_seq = c.seq / 2 ^ 32 % 2 ^ 32 := by
  unfold newestShown
  refine ⟨?_, ?_, rd_wr_same _ _ _ (by decide)⟩
  · rw [rd_wr_other _ _ _ _ (by decide), rd_wr_other _ _ _ _ (by decide)]
    exact rd_wr_same _ _ _ (by decide)
  · rw [rd_wr_other _ _ _ _ (by decide)]
    exact rd_wr_same _ _ _ (by decide)

/-- What a sound checkpoint's end leaves. -/
structure CkptEnds (s t : State) (c : Ckpt) : Prop where
  idle : t.age.ckpt = none
  newest : t.age.newest = some (c.slot, c.seq)
  header : flashRd t (slotBase s c.slot) (ckptHeader s c).length = ckptHeader s c
  slot : rd t F.AGE_STATUS_newest = c.slot % 2
  low : rd t F.AGE_CKPT_SEQ_LO_seq = c.seq % 2 ^ 32
  high : rd t F.AGE_CKPT_SEQ_HI_seq = c.seq / 2 ^ 32 % 2 ^ 32
  count : rd t F.AGE_CNT_CKPT_written = counted s F.AGE_CNT_CKPT_written
  gddr : t.gddr = s.gddr
  lst : t.lst = s.lst
  nvm : t.nvm = s.nvm
  state : psqState t = psqState s

theorem ckptStored_ends (s : State) (c : Ckpt) : CkptEnds s (bump (newestShown (ckptStored s c) c) F.AGE_CNT_CKPT_written) c := by
  obtain ⟨hslot, hlow, hhigh⟩ := newestShown_shows (ckptStored s c) c
  obtain ⟨hgddr, hlst, hnvm, hregs, -⟩ := ckptStored_kept s c
  obtain ⟨hidle, hnewest, -⟩ := ckptStored_age s c
  have hkept {f : Fld} (hf : f.off ∉ [F.AGE_STATUS_newest.off, F.AGE_CKPT_SEQ_LO_seq.off, F.AGE_CKPT_SEQ_HI_seq.off]) :
      rd (newestShown (ckptStored s c) c) f = rd s f := (rd_newestShown _ c hf).trans (rd_congr hregs f)
  have hreg := newestShown_regOnly (ckptStored s c) c
  have hage := newestShown_age (ckptStored s c) c
  generalize newestShown (ckptStored s c) c = m at *
  obtain ⟨hgddr', hlst', hflash, hnvm', -, -⟩ := hreg.memKept
  refine ⟨by rw [bump_age, hage, hidle], by rw [bump_age, hage, hnewest], ?_, ?_, ?_, ?_, ?_, by rw [bump_gddr, hgddr', hgddr],
    by rw [bump_lst, hlst', hlst], by rw [bump_nvm, hnvm', hnvm], ?_⟩
  · rw [flashRd, bump_flash, hflash, ckptStored, sgetList_ssetList]
  · rw [rd_bump_other _ _ _ (by decide), hslot]
  · rw [rd_bump_other _ _ _ (by decide), hlow]
  · rw [rd_bump_other _ _ _ (by decide), hhigh]
  · rw [rd_bump _ _ (by decide), counted_congr _ (hkept (by decide))]
  · rw [psqState, rd_bump_other _ _ _ (by decide), hkept (by decide), psqState]

theorem CkptEnds.shown {s t : State} {c : Ckpt} (h : CkptEnds s t c) : CkptEnds s (ageStatus t) c := by
  have hreg := ageStatus_regOnly t
  have hrd := @rd_ageStatus t
  generalize ageStatus t = u at hreg hrd ⊢
  have hage : u.age = t.age := by rw [hreg]
  obtain ⟨hgddr, hlst, hflash, hnvm, -, -⟩ := hreg.memKept
  exact ⟨by rw [hage]; exact h.idle, by rw [hage]; exact h.newest, (flashRd_congr hflash ..).trans h.header, (hrd (by decide)).trans h.slot,
    (hrd (by decide)).trans h.low, (hrd (by decide)).trans h.high, (hrd (by decide)).trans h.count, hgddr.trans h.gddr, hlst.trans h.lst,
    hnvm.trans h.nvm, (hrd (f := F.PSQ_STATUS_state) (by decide)).trans h.state⟩

theorem exec_ckptDone_sound {s : State} {c : Ckpt} (hc : s.age.ckpt = some c) (hh : s.age.held = none) (hx : s.nv.xfHeld = [])
    (hst : psqState s ≠ psRAILS_DOWN) (hbad : c.bad = false) (hbody : 6 ≤ c.plane) : ∃ t, exec .ckptDone s = .next t ∧ CkptEnds s t c := by
  have hends := ckptStored_ends s c
  have hdone := ckptDone_sound hc hbad hbody
  obtain ⟨-, -, -, -, hnvm⟩ := ckptStored_kept s c
  obtain ⟨-, -, hkept⟩ := ckptStored_age s c
  have hheld : (bump (newestShown (ckptStored s c) c) F.AGE_CNT_CKPT_written).age.held = none := by
    rw [bump_age, newestShown_age, hkept, hh]
  have hnv : (bump (newestShown (ckptStored s c) c) F.AGE_CNT_CKPT_written).nv = s.nv := by
    rw [bump_nv, newestShown_nv, hnvm]
  generalize bump (newestShown (ckptStored s c) c) F.AGE_CNT_CKPT_written = m at *
  rw [ckptNext_idle hheld (by rw [hnv]; exact hx)] at hdone
  refine ⟨_, rfl, ?_⟩
  show CkptEnds s (psqCkptEnd (ckptDone s)) c
  rw [hdone, psqCkptEnd_elsewhere (by rw [hends.shown.state]; exact hst)]
  exact hends.shown

end Sys2Proof.Machine
end

section
namespace Sys2Proof.Machine

/-! Submissions of the rebuild (R274): what they leave of the state -/

/-- Resolution of due candidates has changed queues and current versions; an empty queue of block `k` stays empty, with its slots. -/
structure Resolves (k : Nat) (s t : State) : Prop where
  frame : t = { s with blq := { s.blq with queues := t.blq.queues, cur := t.blq.cur } }
  empty : queueOf s k = [] → queueOf t k = [] ∧ curOf t k 20 = curOf s k 20

namespace Resolves

variable {k : Nat} {s t u : State}

theorem refl (k : Nat) (s : State) : Resolves k s s := ⟨rfl, fun h => ⟨h, rfl⟩⟩

theorem trans (h : Resolves k s t) (h' : Resolves k t u) : Resolves k s u := by
  refine ⟨h'.frame.trans (by rw [h.frame]), fun he => ?_⟩
  obtain ⟨hq, hcur⟩ := h.empty he
  obtain ⟨hq', hcur'⟩ := h'.empty hq
  exact ⟨hq', hcur'.trans hcur⟩

/-- A step of a fold whose members have a property. -/
theorem foldl {α : Type} {f : State → α → State} {l : List α} (h : ∀ u, ∀ a ∈ l, Resolves k u (f u a)) (s : State) :
    Resolves k s (l.foldl f s) := by
  induction l generalizing s with
  | nil => exact refl k s
  | cons a l ih => exact (h s a List.mem_cons_self).trans (ih (fun u b hb => h u b (List.mem_cons_of_mem _ hb)) _)

end Resolves

/-- A slot's candidate becomes current. -/
def slotResolved (s : State) (k slot : Nat) (e : QEntry) : State :=
  { s with blq := { s.blq with queues := sset [] s.blq.queues k (retireTo slot e.accNo (queueOf s k)),
                               cur := sset none s.blq.cur (32 * k + slot) (some e.toCur) } }

theorem resolveSlot_some {s : State} {tick k slot : Nat} {pos : Option (Nat × Nat)} {e : QEntry}
    (h : lastCandidate tick pos slot (queueOf s k) = some e) : resolveSlot tick pos k s slot = slotResolved s k slot e := by
  rw [resolveSlot, h]
  rfl

theorem resolveSlot_none {s : State} {tick k slot : Nat} {pos : Option (Nat × Nat)}
    (h : lastCandidate tick pos slot (queueOf s k) = none) : resolveSlot tick pos k s slot = s := by rw [resolveSlot, h]

/-- Slots are below 32, so that another block's slots have other keys. -/
theorem slotResolved_resolves {k k' slot : Nat} (hslot : slot < 21) (hk : k' ≠ k) (s : State) (e : QEntry) :
    Resolves k s (slotResolved s k' slot e) := by
  refine ⟨rfl, fun he => ⟨?_, ?_⟩⟩
  · show sget [] (sset [] s.blq.queues k' _) k = []
    rw [sget_sset, if_neg (Ne.symm hk)]
    exact he
  · show sget none (sset none s.blq.cur (32 * k' + slot) (some e.toCur)) (32 * k + 20) = sget none s.blq.cur (32 * k + 20)
    rw [sget_sset, if_neg (by omega)]

theorem resolveSlot_resolves {k slot : Nat} (hslot : slot < 21) (tick : Nat) (pos : Option (Nat × Nat)) (k' : Nat) (s : State) :
    Resolves k s (resolveSlot tick pos k' s slot) := by
  cases hcand : lastCandidate tick pos slot (queueOf s k') with
  | none =>
    rw [resolveSlot_none hcand]
    exact .refl k s
  | some e =>
    rw [resolveSlot_some hcand]
    by_cases hk : k' = k
    · subst hk
      refine ⟨rfl, fun he => ?_⟩
      rw [he, lastCandidate] at hcand
      exact absurd hcand (by simp)
    · exact slotResolved_resolves hslot hk s e

theorem resolveAll_resolves (k : Nat) (s : State) (tick : Nat) (pos : Option (Nat × Nat)) : Resolves k s (resolveAll s tick pos) :=
  .foldl (fun _ k' _ => .foldl (fun u _ hslot => resolveSlot_resolves (List.mem_range.1 hslot) tick pos k' u) _) s

theorem resolveDue_resolves (k : Nat) (s : State) : Resolves k s (resolveDue s) := by
  unfold resolveDue
  extract_lets due pos x
  have hx : Resolves k s x := .foldl (fun u p _ => resolveAll_resolves k u p.start pos) s
  clear_value x
  refine hx.trans ?_
  split
  · split
    · exact resolveAll_resolves ..
    · exact .refl k x
  · exact .refl k x

/-- The surface not in use by the block's slot 20. -/
def spareSurface (s : State) (k : Nat) : Nat :=
  match curOf s k 20 with
  | some v => if v.surface = rd s F.AGE_CMP_SURF_surf0 then rd s F.AGE_CMP_SURF_surf1 else rd s F.AGE_CMP_SURF_surf0
  | none => rd s F.AGE_CMP_SURF_surf0

/-- A number is taken for the submission and its writes are opened. -/
def entryOpened (s : State) (k : Nat) : State :=
  openWrites (nextAcc (ownToken (nextId s).2 7).2).2 (nextId s).1 (spareSurface s k) 3

/-- The engine's entry for slot 20 of a block. -/
def rebuildEntry (s : State) (k bx by_ : Nat) : QEntry :=
  { id := (nextId s).1, source := 7, slot := 20, surface := spareSurface s k, seq := (entryOpened s k).age.subs % 2 ^ 32,
    token := (ownToken (nextId s).2 7).1, repl := false, apply := none, accAt := (entryOpened s k).tick,
    accNo := (nextAcc (ownToken (nextId s).2 7).2).1, compAt := none, si := bx, sj := by_ }

def entryQueued (s : State) (k bx by_ : Nat) : State := enqueueFirm (entryOpened s k) k (rebuildEntry s k bx by_)

/-- Only the queues' state has changed, and there the queue of one block. -/
theorem entryQueued_blq (s : State) (k bx by_ : Nat) : ∃ blq, entryQueued s k bx by_ = { s with blq := blq } ∧
    blq.queues = sset [] s.blq.queues k (placeEntry (rebuildEntry s k bx by_) (queueOf s k)) := by
  have hopen : ∃ blq, entryOpened s k = { s with blq := blq } ∧ blq.queues = s.blq.queues := ⟨_, rfl, rfl⟩
  obtain ⟨blq, heq, hq⟩ := hopen
  unfold entryQueued
  generalize rebuildEntry s k bx by_ = e
  rw [heq]
  refine ⟨_, rfl, ?_⟩
  show sset [] blq.queues k (placeEntry e (sget [] blq.queues k)) = _
  rw [hq]
  rfl

/-- A submission is counted, and its blocks are asked for. -/
def compSubmitted (s : State) (reqs : List CmpReq) : State :=
  askCmp (bump { s with age := { s.age with subs := s.age.subs + 1 } } F.AGE_CNT_BLK_blocks) reqs

theorem submitComp_full {s : State} {bx by_ : Nat} {codes : List (List Nat)} (h : queueMax ≤ (queueOf (resolveDue s) (blkKey bx by_)).length) :
    submitComp s bx by_ codes = (false, resolveDue s) := if_pos h

theorem submitComp_room {s : State} {bx by_ : Nat} {codes : List (List Nat)}
    (h : ¬ queueMax ≤ (queueOf (resolveDue s) (blkKey bx by_)).length) :
    ∃ reqs, submitComp s bx by_ codes = (true, compSubmitted (entryQueued (resolveDue s) (blkKey bx by_) bx by_) reqs) :=
  ⟨_, if_neg h⟩

/-- The fields that the rebuild reads again and again. -/
def panelFields : List Fld := [F.SCN_ACTIVE_width_m1, F.SCN_ACTIVE_height_m1]

/-- A submission or a step of the rebuild leaves the memories, the panel and the engine's own state but the count of submissions. -/
structure SubmitWork (s t : State) : Prop where
  mem : memKept s t
  panel : ∀ f ∈ panelFields, rd t f = rd s f
  age : t.age = { s.age with subs := t.age.subs }

theorem Resolves.submitWork {k : Nat} {s t : State} (h : Resolves k s t) : SubmitWork s t := by
  generalize hb : ({ s.blq with queues := t.blq.queues, cur := t.blq.cur } : Blq) = b at h
  have heq : t = { s with blq := b } := by rw [← hb]; exact h.frame
  rw [heq]
  exact ⟨⟨rfl, rfl, rfl, rfl, rfl, rfl⟩, fun _ _ => rfl, rfl⟩

theorem compSubmitted_work (s : State) (reqs : List CmpReq) : SubmitWork s (compSubmitted s reqs) ∧
    (compSubmitted s reqs).age.subs = s.age.subs + 1 ∧ rd (compSubmitted s reqs) F.AGE_CNT_BLK_blocks = counted s F.AGE_CNT_BLK_blocks ∧
    (compSubmitted s reqs).blq = s.blq := by
  have hfields : outsideLanes (F.AGE_CNT_BLK_blocks :: panelFields) := by
    simp [outsideLanes, panelFields, F.AGE_CNT_BLK_blocks, F.SCN_ACTIVE_width_m1, F.SCN_ACTIVE_height_m1, F.CDC_STATUS_dec_busy,
      F.MEM_ERR_INFO_kind, F.MEM_ERR_ADDR_LO_addr, F.MEM_ERR_ADDR_HI_addr]
  have hcount : rd (bump { s with age := { s.age with subs := s.age.subs + 1 } } F.AGE_CNT_BLK_blocks) F.AGE_CNT_BLK_blocks =
      counted s F.AGE_CNT_BLK_blocks := rd_bump _ _ (by decide)
  have hpanel : ∀ f ∈ panelFields, rd (bump { s with age := { s.age with subs := s.age.subs + 1 } } F.AGE_CNT_BLK_blocks) f = rd s f :=
    fun f hf => rd_bump_other _ _ _ (by revert f; decide)
  have hmem : memKept s (bump { s with age := { s.age with subs := s.age.subs + 1 } } F.AGE_CNT_BLK_blocks) := ⟨rfl, rfl, rfl, rfl, rfl, rfl⟩
  have hage := bump_age { s with age := { s.age with subs := s.age.subs + 1 } } F.AGE_CNT_BLK_blocks
  have hblq := bump_blq { s with age := { s.age with subs := s.age.subs + 1 } } F.AGE_CNT_BLK_blocks
  unfold compSubmitted
  generalize bump { s with age := { s.age with subs := s.age.subs + 1 } } F.AGE_CNT_BLK_blocks = m at *
  have hlanes := askCmp_laneWork hfields m reqs
  have hold : (askCmp m reqs).age = { s.age with subs := s.age.subs + 1 } := hlanes.age.trans hage
  exact ⟨⟨memKept_trans hmem hlanes.memKept, fun f hf => (hlanes.fields f (List.mem_cons_of_mem _ hf)).trans (hpanel f hf), by rw [hold]⟩,
    by rw [hold], (hlanes.fields _ (.head _)).trans hcount, hlanes.blq.trans hblq⟩

theorem SubmitWork.trans {s t u : State} (h : SubmitWork s t) (h' : SubmitWork t u) : SubmitWork s u :=
  ⟨memKept_trans h.mem h'.mem, fun f hf => (h'.panel f hf).trans (h.panel f hf), h'.age.trans (by rw [h.age])⟩

theorem SubmitWork.refl (s : State) : SubmitWork s s := ⟨⟨rfl, rfl, rfl, rfl, rfl, rfl⟩, fun _ _ => rfl, rfl⟩

theorem panelSize_congr {s t : State} (h : ∀ f ∈ panelFields, rd t f = rd s f) : panelBW t * panelBH t = panelBW s * panelBH s := by
  unfold panelBW panelBH panelW panelH
  rw [h _ (by decide), h _ (by decide)]

theorem SubmitWork.panelSize {s t : State} (h : SubmitWork s t) : panelBW t * panelBH t = panelBW s * panelBH s := panelSize_congr h.panel

theorem entryQueued_work (s : State) (k bx by_ : Nat) : SubmitWork s (entryQueued s k bx by_) := by
  obtain ⟨blq, heq, -⟩ := entryQueued_blq s k bx by_
  rw [heq]
  exact ⟨⟨rfl, rfl, rfl, rfl, rfl, rfl⟩, fun _ _ => rfl, rfl⟩

theorem submitComp_work (s : State) (bx by_ : Nat) (codes : List (List Nat)) : SubmitWork s (submitComp s bx by_ codes).2 := by
  have hdue := (resolveDue_resolves 0 s).submitWork
  by_cases h : queueMax ≤ (queueOf (resolveDue s) (blkKey bx by_)).length
  · rw [submitComp_full h]
    exact hdue
  · obtain ⟨reqs, heq⟩ := submitComp_room (codes := codes) h
    rw [heq]
    exact hdue.trans ((entryQueued_work ..).trans (compSubmitted_work ..).1)

end Sys2Proof.Machine
end

section
namespace Sys2Proof.Machine

/-! Blocks examined by the rebuild (R274, R275) -/

/-- The block's stored codes are those of its compensation tables. -/
def codesAgree (s : State) (k bx by_ : Nat) : Bool :=
  (List.range 3).all (fun c => compCrc s k c == some (crc32 (rawForm 16 (compBlock s bx by_ c))))

/-- The codes of a block, colour by colour. -/
def blockCodes (s : State) (bx by_ : Nat) : List (List Nat) := (List.range 3).map (compBlock s bx by_)

theorem blockCodes_getD (s : State) (bx by_ : Nat) {c : Nat} (h : c < 3) : (blockCodes s bx by_).getD c [] = compBlock s bx by_ c := by
  simp [blockCodes, List.getD, h]

theorem examineBlock_eq (s : State) (bx by_ : Nat) : examineBlock s bx by_ =
    if (queueOf s (blkKey bx by_)).any (fun e => e.slot = 20) then (.skipped, s)
    else if codesAgree s (blkKey bx by_) bx by_ then (.done, s)
    else (if (submitComp s bx by_ (blockCodes s bx by_)).1 then .done else .held (blockCodes s bx by_),
      (submitComp s bx by_ (blockCodes s bx by_)).2) := by
  have hcodes : codesAgree s (blkKey bx by_) bx by_ =
      (List.range 3).all (fun c => compCrc s (blkKey bx by_) c == some (crc32 (rawForm 16 ((blockCodes s bx by_).getD c [])))) := by
    unfold codesAgree
    rw [Bool.eq_iff_iff, List.all_eq_true, List.all_eq_true]
    refine forall₂_congr fun c hc => ?_
    rw [blockCodes_getD s bx by_ (List.mem_range.1 hc)]
  rw [hcodes]
  rfl

theorem examineBlock_work (s : State) (bx by_ : Nat) : SubmitWork s (examineBlock s bx by_).2 := by
  rw [examineBlock_eq]
  split
  · exact .refl s
  · split
    · exact .refl s
    · exact submitComp_work ..

/-- The cursor moves one block on. -/
def blockPassed (t : State) (nb i used : Nat) : State :=
  { t with age := { t.age with rbBlock := (i + 1) % nb, rbFirst := min nb (t.age.rbFirst + 1), rbUsed := used } }

/-- The block's submission is held for a full queue. -/
def blockHeld (t : State) (i used : Nat) (codes : List (List Nat)) : State :=
  { t with age := { t.age with rbHeld := some (i, codes), rbUsed := used } }

/-- The cursor's block is examined. -/
def cursorExamined (s : State) : Examined × State := examineBlock s (s.age.rbBlock % panelBW s) (s.age.rbBlock / panelBW s)

theorem examineRun_limitless (n : Nat) (s : State) : examineRun (n + 1) none s = match (cursorExamined s).1 with
    | .held codes => blockHeld (cursorExamined s).2 s.age.rbBlock (cursorExamined s).2.age.rbUsed codes
    | _ => examineRun n none
      (blockPassed (cursorExamined s).2 (panelBW s * panelBH s) s.age.rbBlock (cursorExamined s).2.age.rbUsed) := by
  rw [examineRun]
  · simp only [Option.isNone_none, Bool.or_true, if_true, Option.map_none, ite_self]
    rfl
  · nofun

/-- Blocks have been examined: the memories and the panel stand, and `n` blocks were passed unless a submission is held. -/
structure Examines (n : Nat) (s t : State) : Prop where
  mem : memKept s t
  panel : panelBW t * panelBH t = panelBW s * panelBH s
  passed : t.age.rbHeld = none → min (panelBW s * panelBH s) (s.age.rbFirst + n) ≤ t.age.rbFirst

theorem examineRun_examines (n : Nat) (s : State) : Examines n s (examineRun n none s) := by
  induction n generalizing s with
  | zero => exact ⟨⟨rfl, rfl, rfl, rfl, rfl, rfl⟩, rfl, fun _ => Nat.min_le_right ..⟩
  | succ n ih =>
    have hwork : SubmitWork s (cursorExamined s).2 := examineBlock_work ..
    have hfirst : (cursorExamined s).2.age.rbFirst = s.age.rbFirst := by rw [hwork.age]
    have hpassed : Examines (n + 1) s
        (examineRun n none (blockPassed (cursorExamined s).2 (panelBW s * panelBH s) s.age.rbBlock (cursorExamined s).2.age.rbUsed)) := by
      have hrest := ih (blockPassed (cursorExamined s).2 (panelBW s * panelBH s) s.age.rbBlock (cursorExamined s).2.age.rbUsed)
      generalize examineRun n none (blockPassed (cursorExamined s).2 (panelBW s * panelBH s) s.age.rbBlock (cursorExamined s).2.age.rbUsed) = t
        at hrest ⊢
      have hpanel : panelBW t * panelBH t = panelBW s * panelBH s := hrest.panel.trans hwork.panelSize
      refine ⟨memKept_trans hwork.mem hrest.mem, hpanel, fun hh => ?_⟩
      have hle := hrest.passed hh
      rw [← hrest.panel, hpanel] at hle
      have hnow : (blockPassed (cursorExamined s).2 (panelBW s * panelBH s) s.age.rbBlock (cursorExamined s).2.age.rbUsed).age.rbFirst =
          min (panelBW s * panelBH s) (s.age.rbFirst + 1) := by
        show min _ ((cursorExamined s).2.age.rbFirst + 1) = _
        rw [hfirst]
      rw [hnow] at hle
      omega
    rw [examineRun_limitless]
    split
    · exact ⟨hwork.mem, hwork.panelSize, nofun⟩
    · exact hpassed

/-- A held submission is offered again. -/
theorem rebuildOffer_work (s : State) : memKept s (rebuildOffer s) ∧ panelBW (rebuildOffer s) * panelBH (rebuildOffer s) = panelBW s * panelBH s := by
  unfold rebuildOffer
  split
  · next i codes _ =>
    have hwork := submitComp_work s (i % panelBW s) (i / panelBW s) codes
    dsimp only
    split
    · generalize hm : ({ (submitComp s (i % panelBW s) (i / panelBW s) codes).2 with age := _ } : State) = m
      have hkept : memKept s m := by rw [← hm]; exact hwork.mem
      have hregs : m.reg = (submitComp s (i % panelBW s) (i / panelBW s) codes).2.reg := by rw [← hm]
      refine ⟨memKept_trans hkept (ageStatus_regOnly m).memKept, panelSize_congr fun f hf => ?_⟩
      rw [rd_ageStatus m (by revert f; decide), rd_congr hregs, hwork.panel f hf]
    · exact ⟨hwork.mem, hwork.panelSize⟩
  · exact ⟨⟨rfl, rfl, rfl, rfl, rfl, rfl⟩, rfl⟩

/-! Steps of the rebuild -/

theorem exec_ageRebuildStep (s : State) : exec .ageRebuildStep s = .next (rebuildStep s) := rfl

theorem rebuildStep_disabled {s : State} (h : rd s F.AGE_CFG_rb_en = 0) : rebuildStep s = s := if_pos (by simp [on, h])

/-- Before panel power-on, whether every block has been examined (R275). -/
def rebuiltShown (t : State) (nb : Nat) : State := { t with age := { t.age with rebuilt := decide (nb ≤ t.age.rbFirst) } }

theorem rebuildStep_before {s : State} (hen : rd s F.AGE_CFG_rb_en = 1) (hout : outputsRun s = false) (hr : s.age.rebuilt = false) :
    rebuildStep s = if (rebuildOffer s).age.rbHeld.isSome then rebuildOffer s
      else rebuiltShown (examineRun (panelBW s * panelBH s - (rebuildOffer s).age.rbFirst) none (rebuildOffer s)) (panelBW s * panelBH s) := by
  rw [rebuildStep, if_neg (by simp [on, hen]), hout, hr]
  rfl

theorem rebuildStep_completes {s : State} (hen : rd s F.AGE_CFG_rb_en = 1) (hout : outputsRun s = false) (hr : s.age.rebuilt = false) :
    memKept s (rebuildStep s) ∧
    ((rebuildStep s).age.rbHeld = none → (rebuildStep s).age.rebuilt = true ∧ panelBW s * panelBH s ≤ (rebuildStep s).age.rbFirst) := by
  obtain ⟨hmem, hpanel⟩ := rebuildOffer_work s
  rw [rebuildStep_before hen hout hr]
  generalize rebuildOffer s = o at hmem hpanel ⊢
  split
  · next hheld => exact ⟨hmem, fun hnone => by simp [hnone] at hheld⟩
  · have hexam := examineRun_examines (panelBW s * panelBH s - o.age.rbFirst) o
    generalize examineRun (panelBW s * panelBH s - o.age.rbFirst) none o = t at hexam ⊢
    refine ⟨memKept_trans hmem hexam.mem, fun hnone => ?_⟩
    have hle := hexam.passed hnone
    rw [hpanel] at hle
    have hall : panelBW s * panelBH s ≤ t.age.rbFirst := by omega
    exact ⟨decide_eq_true hall, hall⟩

theorem rebuildStep_running {s : State} (hen : rd s F.AGE_CFG_rb_en = 1) (hout : outputsRun s = true) (hh : s.age.rbHeld = none) :
    rebuildStep s = ageStatus (examineRun (panelBW s * panelBH s) (some (rd s F.AGE_REBUILD_per_pic - s.age.rbUsed)) s) := by
  rw [rebuildStep, if_neg (by simp [on, hen]), hout, hh]
  rfl

theorem examineRun_over (n : Nat) (s : State) : examineRun n (some 0) s = s := by
  cases n <;> rfl

/-- The last block of the period's limit, whose submission finds room. -/
theorem examineRun_last {n : Nat} {s : State} (h : (cursorExamined s).1 = .done) : examineRun (n + 1) (some 1) s =
    blockPassed (cursorExamined s).2 (panelBW s * panelBH s) s.age.rbBlock ((cursorExamined s).2.age.rbUsed + 1) := by
  have hover := examineRun_over n
    (blockPassed (cursorExamined s).2 (panelBW s * panelBH s) s.age.rbBlock ((cursorExamined s).2.age.rbUsed + 1))
  unfold cursorExamined at h hover ⊢
  rw [examineRun]
  · simp only [h]
    exact hover
  · nofun

/-- The result of a block's submission in an empty queue. -/
theorem submitComp_empty {s : State} {bx by_ : Nat} (codes : List (List Nat)) (h : queueOf s (blkKey bx by_) = []) :
    (submitComp s bx by_ codes).1 = true ∧ (submitComp s bx by_ codes).2.age.subs = s.age.subs + 1 ∧
    rd (submitComp s bx by_ codes).2 F.AGE_CNT_BLK_blocks = counted s F.AGE_CNT_BLK_blocks ∧
    ∃ e, queueOf (submitComp s bx by_ codes).2 (blkKey bx by_) = [e] ∧ e.source = 7 ∧ e.slot = 20 ∧ e.surface = spareSurface s (blkKey bx by_) := by
  have hdue := resolveDue_resolves (blkKey bx by_) s
  obtain ⟨hempty, hcur⟩ := hdue.empty h
  obtain ⟨reqs, heq⟩ := submitComp_room (s := s) (bx := bx) (by_ := by_) (codes := codes) (by rw [hempty]; decide)
  have hage : (resolveDue s).age = s.age := by rw [hdue.frame]
  have hreg : (resolveDue s).reg = s.reg := by rw [hdue.frame]
  rw [heq]
  generalize resolveDue s = m at *
  obtain ⟨blq, hqueued, hqueues⟩ := entryQueued_blq m (blkKey bx by_) bx by_
  obtain ⟨-, hsubs, hcount, hblq⟩ := compSubmitted_work (entryQueued m (blkKey bx by_) bx by_) reqs
  generalize compSubmitted (entryQueued m (blkKey bx by_) bx by_) reqs = t at *
  rw [hqueued] at hsubs hcount hblq
  refine ⟨rfl, hsubs.trans (by rw [← hage]), hcount.trans (counted_congr _ (rd_congr hreg _)),
    rebuildEntry m (blkKey bx by_) bx by_, ?_, rfl, rfl, ?_⟩
  · rw [queueOf, hblq]
    show sget [] blq.queues _ = _
    rw [hqueues, sget_sset, if_pos rfl, hempty]
    rfl
  · show spareSurface m (blkKey bx by_) = _
    unfold spareSurface
    rw [hcur, rd_congr hreg, rd_congr hreg]

theorem spareSurface_mem (s : State) (k : Nat) :
    spareSurface s k = rd s F.AGE_CMP_SURF_surf0 ∨ spareSurface s k = rd s F.AGE_CMP_SURF_surf1 := by
  unfold spareSurface
  split
  · split
    · exact .inr rfl
    · exact .inl rfl
  · exact .inl rfl

/-- The spare surface is not the one in use. -/
theorem spareSurface_ne {s : State} {k : Nat} {v : Cur} (hv : curOf s k 20 = some v) (h : rd s F.AGE_CMP_SURF_surf0 ≠ rd s F.AGE_CMP_SURF_surf1) :
    spareSurface s k ≠ v.surface := by
  unfold spareSurface
  rw [hv]
  dsimp only
  split
  · next he => exact fun hne => h (he.symm.trans hne.symm)
  · next hne => exact fun he => hne he.symm

end Sys2Proof.Machine
end

section
namespace Sys2Proof.Machine

/-! The last block of a picture period's limit (R274) -/

/-- What the step leaves: a block whose codes agree is passed, another one is submitted once to the spare surface. -/
structure LastExamined (s t : State) (i k : Nat) : Prop where
  mem : memKept s t
  cursor : t.age.rbBlock = (i + 1) % (panelBW s * panelBH s)
  used : t.age.rbUsed = s.age.rbUsed + 1
  agrees : codesAgree s k (i % panelBW s) (i / panelBW s) = true → t.blq = s.blq ∧ t.age.subs = s.age.subs
  differs : codesAgree s k (i % panelBW s) (i / panelBW s) = false → t.age.subs = s.age.subs + 1 ∧
    rd t F.AGE_CNT_BLK_blocks = counted s F.AGE_CNT_BLK_blocks ∧ ∃ e, queueOf t k = [e] ∧ e.source = 7 ∧ e.slot = 20 ∧ e.surface = spareSurface s k

theorem LastExamined.shown {s t : State} {i k : Nat} (h : LastExamined s t i k) : LastExamined s (ageStatus t) i k := by
  have hreg := ageStatus_regOnly t
  have hrd := rd_ageStatus t (f := F.AGE_CNT_BLK_blocks) (by decide)
  generalize ageStatus t = u at hreg hrd ⊢
  have hage : u.age = t.age := by rw [hreg]
  have hblq : u.blq = t.blq := by rw [hreg]
  refine ⟨memKept_trans h.mem hreg.memKept, by rw [hage]; exact h.cursor, by rw [hage]; exact h.used, fun ha => by rw [hblq, hage]; exact h.agrees ha,
    fun hd => ?_⟩
  rw [hage, hrd, queueOf, hblq]
  exact h.differs hd

theorem panelBlocks_pos (s : State) : ∃ n, panelBW s * panelBH s = n + 1 :=
  Nat.exists_eq_succ_of_ne_zero (Nat.mul_ne_zero (by unfold panelBW blocksOf panelW; omega) (by unfold panelBH blocksOf panelH; omega))

/-- Passing the block keeps what its examination found. -/
theorem lastExamined_of_work {s t : State} {k : Nat} (h : SubmitWork s t)
    (hagrees : codesAgree s k (s.age.rbBlock % panelBW s) (s.age.rbBlock / panelBW s) = true → t = s)
    (hdiffers : codesAgree s k (s.age.rbBlock % panelBW s) (s.age.rbBlock / panelBW s) = false → t.age.subs = s.age.subs + 1 ∧
      rd t F.AGE_CNT_BLK_blocks = counted s F.AGE_CNT_BLK_blocks ∧ ∃ e, queueOf t k = [e] ∧ e.source = 7 ∧ e.slot = 20 ∧ e.surface = spareSurface s k) :
    LastExamined s (blockPassed t (panelBW s * panelBH s) s.age.rbBlock (t.age.rbUsed + 1)) s.age.rbBlock k := by
  have hused : t.age.rbUsed = s.age.rbUsed := by rw [h.age]
  exact ⟨h.mem, rfl, congrArg (· + 1) hused, fun ha => by rw [hagrees ha]; exact ⟨rfl, rfl⟩, hdiffers⟩

/-- The cursor's block, with an empty queue, is examined to its end. -/
theorem cursorExamined_done {s : State} {k : Nat} (hk : k = blkKey (s.age.rbBlock % panelBW s) (s.age.rbBlock / panelBW s)) (hq : queueOf s k = []) :
    (cursorExamined s).1 = .done ∧ LastExamined s
      (blockPassed (cursorExamined s).2 (panelBW s * panelBH s) s.age.rbBlock ((cursorExamined s).2.age.rbUsed + 1)) s.age.rbBlock k := by
  subst hk
  have hfree : (queueOf s (blkKey (s.age.rbBlock % panelBW s) (s.age.rbBlock / panelBW s))).any (fun e => e.slot = 20) = false := by rw [hq]; rfl
  have hwork : SubmitWork s (cursorExamined s).2 := examineBlock_work ..
  cases hcodes : codesAgree s (blkKey (s.age.rbBlock % panelBW s) (s.age.rbBlock / panelBW s)) (s.age.rbBlock % panelBW s) (s.age.rbBlock / panelBW s) with
  | true =>
    have heq : cursorExamined s = (.done, s) := by rw [cursorExamined, examineBlock_eq, hfree, hcodes]; rfl
    rw [heq] at hwork ⊢
    exact ⟨rfl, lastExamined_of_work hwork (fun _ => rfl) fun hd => absurd (hcodes.symm.trans hd) (by decide)⟩
  | false =>
    have hsent := submitComp_empty (blockCodes s (s.age.rbBlock % panelBW s) (s.age.rbBlock / panelBW s)) hq
    have heq : cursorExamined s = (.done, (submitComp s (s.age.rbBlock % panelBW s) (s.age.rbBlock / panelBW s)
        (blockCodes s (s.age.rbBlock % panelBW s) (s.age.rbBlock / panelBW s))).2) := by
      rw [cursorExamined, examineBlock_eq, hfree, hcodes, hsent.1]
      rfl
    rw [heq] at hwork ⊢
    exact ⟨rfl, lastExamined_of_work hwork (fun ha => absurd (hcodes.symm.trans ha) (by decide)) fun _ => hsent.2⟩

theorem rebuildStep_last {s : State} {i k : Nat} (hen : rd s F.AGE_CFG_rb_en = 1) (hout : outputsRun s = true) (hh : s.age.rbHeld = none)
    (hleft : rd s F.AGE_REBUILD_per_pic - s.age.rbUsed = 1) (hi : s.age.rbBlock = i) (hk : k = blkKey (i % panelBW s) (i / panelBW s))
    (hq : queueOf s k = []) : LastExamined s (rebuildStep s) i k := by
  subst hi
  obtain ⟨hdone, hlast⟩ := cursorExamined_done hk hq
  obtain ⟨n, hn⟩ := panelBlocks_pos s
  have hrun := examineRun_last (n := n) hdone
  rw [rebuildStep_running hen hout hh, hleft, hn, hrun]
  exact hlast.shown

end Sys2Proof.Machine
end

section
namespace Sys2Proof.Machine

/-- Settles O31: a trigger starts a checkpoint (`CkptBegins`) or is held, its end leaves `CkptEnds` or `CkptFails`, and the rebuild examines
the blocks left (`Examines`) or the last of the period's limit (`LastExamined`). That a retry which is due stands after a failed checkpoint of
another kind is the model's choice (log entry 70). -/
theorem checkpointsStartEndAndRetry : Obligations.CheckpointsStartEndAndRetry := by
  unfold Obligations.CheckpointsStartEndAndRetry
  refine ⟨fun s k q hc hxf hplace => ?_, fun s c hc => ⟨fun hs => ⟨fun hh => ?_, fun hh => ?_⟩, fun e he => ?_⟩,
    fun s h => by rw [exec_ckptInterval, ckptInterval_none h], fun s h => by rw [exec_ckptRetry, ckptRetry_none h],
    fun s c hc hh hx hst => ⟨fun hbad hbody => ?_, ?_, fun l hl hk => ?_⟩, fun s h => by rw [exec_ageRebuildStep, rebuildStep_disabled h],
    fun s hen hout hr => ?_, fun s i k hen hout hh hleft hi hk hq => ?_⟩
  · obtain ⟨hk, hq⟩ := Prod.mk.inj (hplace : (k, q) = ckptPlace s)
    subst hk hq
    refine ⟨fun hs hh => ?_, fun r hr => ?_, fun e he => ?_⟩
    · have hbegins := ageCkpt_begins hc hxf hh
      obtain ⟨c, hckpt, hslot, hseq, hkind⟩ := hbegins.begun
      exact ⟨_, c, exec_of_served ageCkpt hs rfl, hckpt, hslot, hseq, hkind, hbegins.erased, hbegins.gddr, hbegins.lst, hbegins.nvm⟩
    · have hbegins := ckptRetry_begins hc hxf hr
      obtain ⟨c, hckpt, hslot, hseq, hkind⟩ := hbegins.begun
      exact ⟨_, c, exec_ckptRetry s, hbegins.tick, hckpt, hslot, hseq, hkind, hbegins.retryAt, ckptErased_from hbegins.erased rfl rfl rfl⟩
    · have hbegins := ckptInterval_begins hc hxf he
      obtain ⟨c, hckpt, hslot, hseq, hkind⟩ := hbegins.begun
      refine ⟨_, c, exec_ckptInterval s, hbegins.tick, hckpt, hslot, hseq, hkind, hbegins.sinceAcc, ?_, hbegins.shown,
        ckptErased_from hbegins.erased rfl (slotBase_emitStatus ..) (slotLen_emitStatus ..)⟩
      rw [hbegins.emitAt, hbegins.tick, emitStatus, wr_age, reach, he]
      rfl
  · obtain ⟨hage, hshown, hmem, -⟩ := ckptTrigger_holds hc 1
    have hgo : ageCkpt s = ckptTrigger s 1 := if_neg (by simp [hh])
    refine ⟨_, exec_of_served ageCkpt hs rfl, ?_⟩
    rw [hgo]
    rw [hh] at hage
    exact ⟨hage, hshown, hmem⟩
  · have hgo : ageCkpt s = s := if_pos hh
    rw [exec_of_served ageCkpt hs rfl, hgo]
  · have hgo := ckptInterval_some he
    generalize hn : e + (rd s F.AGE_CKPT_CFG_interval * 60 * Config.tickHz - s.age.sinceAcc) = n at hgo
    have hc' : (emitStatus (reach s n)).age.ckpt = some c := hc
    obtain ⟨hage, hshown, hmem, htick⟩ := ckptTrigger_holds hc' 0
    refine ⟨_, exec_ckptInterval s, ?_⟩
    rw [hgo]
    refine ⟨htick, by rw [hage]; exact hc, ?_, hshown, memKept_trans ⟨rfl, rfl, rfl, rfl, rfl, rfl⟩ hmem⟩
    rw [hage]
    exact congrArg some (Nat.zero_max _)
  · obtain ⟨t, hgo, hends⟩ := exec_ckptDone_sound hc hh hx hst hbad hbody
    exact ⟨t, hgo, hends.idle, hends.newest, hends.header, hends.slot, hends.low, hends.high, hends.count, hends.gddr, hends.lst, hends.nvm⟩
  · obtain ⟨t, hgo, hfails⟩ := exec_ckptFail hc hh hx hst
    exact ⟨t, hgo, by rw [hfails.age]; rfl, hfails.count, hfails.record, by rw [hfails.age]; rfl, hfails.mem, by rw [hfails.age]; rfl⟩
  · obtain ⟨t, hgo, hfails⟩ := exec_ckptShutTimeout hc hh hx hst hl hk
    exact ⟨t, hgo, hfails.tick, by rw [hfails.age]; rfl, by rw [hfails.age]; exact if_pos hk, by rw [hfails.age]; rfl, hfails.count, hfails.record⟩
  · obtain ⟨hmem, hdone⟩ := rebuildStep_completes hen hout hr
    exact ⟨_, exec_ageRebuildStep s, hmem, hdone⟩
  · have hlast := rebuildStep_last hen hout hh hleft hi hk hq
    refine ⟨_, exec_ageRebuildStep s, hlast.mem, hlast.cursor, hlast.used, ?_⟩
    split
    · next hagree => exact hlast.agrees hagree
    · next hdiffer =>
      obtain ⟨hsubs, hcount, e, hqueue, hsource, hslot, hsurf⟩ := hlast.differs (Bool.eq_false_iff.2 hdiffer)
      refine ⟨hsubs, hcount, e, hqueue, hsource, hslot, ?_, fun v hv hne => ?_⟩
      · rw [hsurf]
        exact spareSurface_mem s k
      · rw [hsurf]
        exact spareSurface_ne hv hne

end Sys2Proof.Machine
end
